-- ==== Sys2Proof/Word.lean ====
section
/-!
DEFINITION. The words of the part (spec R7, R57, R69): a byte, a word, a dword, a virtual address, and the two readings of a
word as an integer (R112). Nothing here decides what an instruction does.
-/
namespace Sys2Proof

/-- A byte of memory (R7). -/
abbrev Byte := BitVec 8
/-- A word: one register of one lane (R7, R57). -/
abbrev Word := BitVec 32
/-- A dword: a register pair, a gate value, a counter (R7). -/
abbrev DWord := BitVec 64
/-- A virtual address: a PC or a meeting register (R17, R69). -/
abbrev VAddr := BitVec 56

/-- The S32 reading of a word (R112). -/
def Word.sint (a : Word) : Int := a.toInt
/-- The Z32 reading of a word (R112). -/
def Word.zint (a : Word) : Int := (a.toNat : Int)

/-- The low word of a dword: register v2n of the pair (R58). -/
def DWord.lo (a : DWord) : Word := a.setWidth 32
/-- The high word of a dword: register v2n+1 of the pair (R58). -/
def DWord.hi (a : DWord) : Word := (a >>> 32).setWidth 32
/-- The dword of a pair from its two registers (R58). -/
def DWord.ofPair (lo hi : Word) : DWord := hi.setWidth 64 <<< 32 ||| lo.setWidth 64

/-- Sparse data by number: pairs of a key and a value, keys strictly rising. -/
abbrev Map (α : Type) := List (Nat × α)

end Sys2Proof
end

