-- ==== Sys2Proof/Config.lean ====
section
/-!
DEFINITION. What the spec leaves open, and what an implementation fixes. Every constant here is opaque: nothing proved of the
machine can rest on the number behind it. The counter of the state, or the operands, choose which of a constant's values is used.
-/
namespace Sys2Proof.Config

/-- A register that nothing has given a value: at launch (R129), after a save that did not keep it (R68). By seed and register. -/
opaque freeReg : Nat → Nat → Word
/-- The upper bits of mr at launch, and which of the three allowed low parts it has (R17). -/
opaque freeMr : Nat → BitVec 54
opaque freeMrLow : Nat → Nat
/-- A scratchpad byte that nothing has written (R54). -/
opaque freeByte : Nat → Byte
/-- The choices the part makes and does not specify: what an effect chooses among (R101, R427), and whose
turn a step is (R24). -/
opaque freeNat : Nat → Nat
opaque freeTurn : Nat → Nat
/-- The shape and leaf order of a sum's tree (R46, R103, R104), by seed. -/
opaque freeTree : Nat → Nat → Nat
/-- The transcendental functions (R202, R204): fixed functions of the operand's bits. -/
opaque frcp : Word → Word
opaque frsq : Word → Word
opaque fexp2 : Word → Word
opaque flog2 : Word → Word
opaque fsin : Word → Word
opaque fcos : Word → Word
opaque ftanh : Word → Word
/-- Whether a core's L1 still serves a word that it holds (R75, R101), by seed. -/
opaque keepsWord : Nat → Bool
/-- Host memory that nothing has written through the module (R350). -/
opaque hostByte : Nat → Byte
/-- The memory of a partition on another module (R327), by module, partition and virtual address. -/
opaque remoteByte : Nat → Nat → Nat → Byte
/-- Whether a switch grants a request for reduction slots (R330). -/
opaque freeGrant : Nat → Bool
/-- Energy drawn in an interval, in thousandths of a microjoule (R354). -/
opaque freeEnergy : Nat → Nat
/-- The power that the module draws, in watts, by seed and arithmetic clock in MHz (R355). -/
opaque freeDraw : Nat → Nat → Nat
/-- Fuses (R351, R353): the Griseard key hash, the minimum version of an image, the measurement of the settings. -/
opaque fuseKeyHash : Nat
opaque fuseMinimum : Nat
opaque fuseMeasure : DWord
/-- The measurement of the boot ROM (R353). -/
opaque romMeasure : DWord
/-- What the boot ROM finds of an image, given by the bytes of the boot window by address (R351): whether its signature passes under a key
hash, its version, whether it is too large; and the image's measurement (R353). -/
opaque imageSigned : Nat → List (Nat × Byte) → Bool
opaque imageVersion : List (Nat × Byte) → Nat
opaque imageTooLarge : List (Nat × Byte) → Bool
opaque imageMeasure : List (Nat × Byte) → DWord
/-- A word of a message or a signature that an algorithm outside the spec forms (R353, R357). -/
opaque freeDWord : Nat → DWord
/-- What a destination that is left unspecified holds after a failed migration (R413). -/
opaque freeFail : Nat → Byte

end Sys2Proof.Config
end

