-- ==== Sys2Proof/Machine/Num.lean ====
section
/-!
DEFINITION. Exact numbers and their encodings (R109 to R112, R198): a floating-point code is read as an exact value, operations are
exact, and one rounding to nearest even forms a result. Carry, overflow and sticky bits never appear: they fall out of the exact
value.
-/
namespace Sys2Proof.Machine

/-- An exact value: not a number, an infinity, or (−1)^neg × m × 2^e. A zero keeps its sign. -/
inductive FVal where
  | nan
  | inf (neg : Bool)
  | fin (neg : Bool) (m : Nat) (e : Int)
  deriving DecidableEq, Repr

/-- Which codes of the top exponent are special (R109). -/
inductive Special where
  | ieee                            -- infinity and NaNs
  | e4m3                            -- one NaN code, no infinity
  | none
  deriving DecidableEq, Repr

/-- A floating-point format (R109): bits of exponent and mantissa, and its special codes. The bias is 2^(eb − 1) − 1. -/
structure Fmt where
  eb : Nat
  mb : Nat
  special : Special
  deriving DecidableEq, Repr

def Fmt.f32 : Fmt := ⟨8, 23, .ieee⟩
def Fmt.bf16 : Fmt := ⟨8, 7, .ieee⟩
def Fmt.f16 : Fmt := ⟨5, 10, .ieee⟩
def Fmt.e4m3 : Fmt := ⟨4, 3, .e4m3⟩
def Fmt.e5m2 : Fmt := ⟨5, 2, .ieee⟩
def Fmt.e2m3 : Fmt := ⟨2, 3, .none⟩
def Fmt.e3m2 : Fmt := ⟨3, 2, .none⟩
def Fmt.e2m1 : Fmt := ⟨2, 1, .none⟩

def Fmt.bias (f : Fmt) : Int := 2 ^ (f.eb - 1) - 1
/-- The exponent of the least bit of a subnormal. -/
def Fmt.qmin (f : Fmt) : Int := 1 - f.bias - f.mb
/-- The sign bit in place. -/
def Fmt.sign (f : Fmt) (neg : Bool) : Nat := if neg then 2 ^ (f.eb + f.mb) else 0
/-- The code of +∞ in an IEEE format. -/
def Fmt.infCode (f : Fmt) : Nat := (2 ^ f.eb - 1) * 2 ^ f.mb
/-- The magnitude code of the largest finite value. -/
def Fmt.maxCode (f : Fmt) : Nat :=
  match f.special with
  | .ieee => f.infCode - 1
  | .e4m3 => 2 ^ (f.eb + f.mb) - 2
  | .none => 2 ^ (f.eb + f.mb) - 1
/-- The canonical NaN (R110): FP32 0x7FC00000, BF16 0x7FC0, FP16 0x7E00, E4M3 0x7F, E5M2 0x7E. A format without NaN receives what its
conversion states. -/
def Fmt.nanCode (f : Fmt) : Nat :=
  match f.special with
  | .ieee => f.infCode + 2 ^ (f.mb - 1)
  | .e4m3 => 2 ^ (f.eb + f.mb) - 1
  | .none => 0

/-- The value of a code (R109). -/
def Fmt.value (f : Fmt) (c : Nat) : FVal :=
  let neg := decide (c / 2 ^ (f.eb + f.mb) % 2 = 1)
  let ex := c / 2 ^ f.mb % 2 ^ f.eb
  let mn := c % 2 ^ f.mb
  let top := decide (ex = 2 ^ f.eb - 1)
  match f.special, top with
  | .ieee, true => if mn = 0 then .inf neg else .nan
  | .e4m3, true => if mn = 2 ^ f.mb - 1 then .nan else .fin neg (2 ^ f.mb + mn) (f.qmin + ex - 1)
  | _, _ => if ex = 0 then .fin neg mn f.qmin else .fin neg (2 ^ f.mb + mn) (f.qmin + ex - 1)

/-- m / 2^s rounded to nearest, ties to even. -/
def shiftRne (m s : Nat) : Nat :=
  let q := m / 2 ^ s
  let r := m % 2 ^ s
  if 2 * r > 2 ^ s then q + 1 else if 2 * r = 2 ^ s then q + q % 2 else q

/-- The magnitude code of m × 2^e rounded to nearest even, as if the exponent had no upper bound. -/
def Fmt.magCode (f : Fmt) (m : Nat) (e : Int) : Nat :=
  if m = 0 then 0 else
  let q := max (e + m.log2 - f.mb) f.qmin
  let mant := if q ≤ e then m * 2 ^ (e - q).toNat else shiftRne m (q - e).toNat
  (q - f.qmin).toNat * 2 ^ f.mb + mant

/-- One rounding to nearest even (R198): overflow gives the infinity of the sign, where the format has one, and the largest finite
magnitude where it has none. -/
def Fmt.round (f : Fmt) : FVal → Nat
  | .nan => f.nanCode
  | .inf neg => f.sign neg + (match f.special with | .ieee => f.infCode | _ => f.maxCode)
  | .fin neg m e =>
    let c := f.magCode m e
    f.sign neg + (if c ≤ f.maxCode then c else match f.special with | .ieee => f.infCode | _ => f.maxCode)

/-- A rounding that saturates at the largest finite magnitude (R207); an infinity stays one in E5M2 and saturates in E4M3. -/
def Fmt.roundSat (f : Fmt) (v : FVal) : Nat :=
  match v with
  | .fin neg m e => f.sign neg + min (f.magCode m e) f.maxCode
  | _ => f.round v

/-! ## Exact operations (R198) -/

/-- The signed integer of a finite value at exponent `e ≤` its own. -/
def sint (neg : Bool) (m : Nat) (e lo : Int) : Int :=
  let k : Int := m * 2 ^ (e - lo).toNat
  if neg then -k else k

def FVal.neg : FVal → FVal
  | .nan => .nan
  | .inf n => .inf (!n)
  | .fin n m e => .fin (!n) m e

/-- The exact sum; an exact zero sum is +0 unless both addends are −0. -/
def FVal.add : FVal → FVal → FVal
  | .nan, _ => .nan
  | _, .nan => .nan
  | .inf a, .inf b => if a = b then .inf a else .nan
  | .inf a, _ => .inf a
  | _, .inf b => .inf b
  | .fin a m e, .fin b n f =>
    let lo := min e f
    let s := sint a m e lo + sint b n f lo
    if s = 0 then .fin (a && b && m == 0 && n == 0) 0 0 else .fin (decide (s < 0)) s.natAbs lo

/-- The exact product; the sign is the exclusive OR. -/
def FVal.mul : FVal → FVal → FVal
  | .nan, _ => .nan
  | _, .nan => .nan
  | .inf a, .inf b => .inf (a != b)
  | .inf a, .fin b n _ => if n = 0 then .nan else .inf (a != b)
  | .fin a m _, .inf b => if m = 0 then .nan else .inf (a != b)
  | .fin a m e, .fin b n f => .fin (a != b) (m * n) (e + f)

/-- The value times 2^k. -/
def FVal.scale (v : FVal) (k : Int) : FVal :=
  match v with
  | .fin n m e => .fin n m (e + k)
  | x => x

/-- An integer as an exact value. -/
def FVal.ofInt (i : Int) : FVal := .fin (decide (i < 0)) i.natAbs 0

/-- a < b for values that are no NaN; +0 equals −0. -/
def FVal.lt : FVal → FVal → Bool
  | .nan, _ => false
  | _, .nan => false
  | .inf a, .inf b => a && !b
  | .inf a, _ => a
  | _, .inf b => !b
  | .fin a m e, .fin b n f =>
    let lo := min e f
    decide (sint a m e lo < sint b n f lo)

def FVal.isNan : FVal → Bool
  | .nan => true
  | _ => false
def FVal.isZero : FVal → Bool
  | .fin _ 0 _ => true
  | _ => false
def FVal.isInf : FVal → Bool
  | .inf _ => true
  | _ => false
/-- Ordered and equal (R200): +0 equals −0. -/
def FVal.eq (a b : FVal) : Bool := !a.isNan && !b.isNan && !a.lt b && !b.lt a

/-- The FP32 value of a word. -/
def f32 (w : Word) : FVal := Fmt.f32.value w.toNat
/-- A value rounded to FP32. -/
def toF32 (v : FVal) : Word := BitVec.ofNat 32 (Fmt.f32.round v)

def fadd (a b : Word) : Word := toF32 ((f32 a).add (f32 b))
def fsub (a b : Word) : Word := toF32 ((f32 a).add (f32 b).neg)
def fmul (a b : Word) : Word := toF32 ((f32 a).mul (f32 b))
/-- a × b + c with one rounding (R199). -/
def ffma (a b c : Word) : Word := toF32 (((f32 a).mul (f32 b)).add (f32 c))

/-- The order of non-NaN FP32 codes in which −0 < +0 (R199). -/
def f32Key (w : Word) : Int := if w.msb then -(w.toNat - 2147483648 : Int) - 1 else w.toNat
def fmin (a b : Word) : Word :=
  if (f32 a).isNan || (f32 b).isNan then 0x7FC00000#32 else if f32Key a ≤ f32Key b then a else b
def fmax (a b : Word) : Word :=
  if (f32 a).isNan || (f32 b).isNan then 0x7FC00000#32 else if f32Key a ≤ f32Key b then b else a

/-! ## Rounding to integers (R208) -/

/-- The rounding of a finite value to an integer: 0 nearest even, 1 toward zero, 2 toward −∞, 3 toward +∞. -/
def roundInt (rm : Nat) (neg : Bool) (m : Nat) (e : Int) : Int :=
  if 0 ≤ e then sint neg m e 0 else
  let s := (-e).toNat
  let q := m / 2 ^ s
  let up := m % 2 ^ s != 0
  let k : Nat :=
    match rm with
    | 0 => shiftRne m s
    | 1 => q
    | 2 => if neg && up then q + 1 else q
    | _ => if !neg && up then q + 1 else q
  if neg then -(k : Int) else k

/-- A value rounded and saturated to [lo, hi]; a NaN gives 0. -/
def toIntSat (rm : Nat) (lo hi : Int) : FVal → Int
  | .nan => 0
  | .inf neg => if neg then lo else hi
  | .fin neg m e =>
    -- beyond 2^100 the clamp decides, and the power need not be formed
    if 100 < e + m.log2 ∧ m ≠ 0 then (if neg then lo else hi) else max lo (min hi (roundInt rm neg m e))

/-! ## Square root, reciprocal (R202) -/

/-- The integer square root of n < 4^k. -/
def isqrt (n : Nat) : Nat → Nat → Nat
  | 0, r => r
  | k + 1, r => let t := r + 2 ^ k; isqrt n k (if t * t ≤ n then t else r)

/-- √(m × 2^e) correctly rounded to FP32, m > 0. -/
def sqrtPos (m : Nat) (e : Int) : FVal :=
  let odd := e % 2
  let m' := m * 2 ^ odd.toNat * 2 ^ 60
  let s := isqrt m' 64 0
  .fin false (2 * s + (if s * s = m' then 0 else 1)) ((e - odd) / 2 - 30 - 1)

/-- 1 / (m × 2^e) with a sticky bit, m > 0. -/
def recipPos (neg : Bool) (m : Nat) (e : Int) : FVal :=
  let k := m.log2 + 40
  let q := 2 ^ k / m
  .fin neg (2 * q + (if q * m = 2 ^ k then 0 else 1)) (-e - k - 1)

/-- 1 / √(m × 2^e) with a sticky bit, m > 0. -/
def rsqrtPos (m : Nat) (e : Int) : FVal :=
  let odd := e % 2
  let m' := m * 2 ^ odd.toNat
  let k := m'.log2 / 2 + 40
  let s := isqrt (2 ^ (2 * k) / m') (k + 1) 0
  .fin false (2 * s + (if s * s * m' = 2 ^ (2 * k) then 0 else 1)) (-(e - odd) / 2 - k - 1)

/-- The exponent of an ulp of an exact result whose magnitude has the floor of its binary logarithm `l` (R202). -/
def ulpExp (l : Int) : Int := if -126 ≤ l then l - 23 else -149

/-- Whether |v − 1 / (m × 2^e)| ≤ 1 ulp, for a value v of the sign `neg` (R202). -/
def nearRecip (v : FVal) (neg : Bool) (m : Nat) (e : Int) : Bool :=
  match v with
  | .fin n q f =>
    let pow := m = 2 ^ m.log2
    let l : Int := -(m.log2 : Int) - e - (if pow then 0 else 1)
    -- |q·2^f·m·2^e − 1| ≤ 2^(ulp)·m·2^e, scaled to integers
    let u := ulpExp l
    let lo := min (min (f + e) (u + e)) 0
    let a : Int := (q * m : Nat) * 2 ^ (f + e - lo).toNat
    let b : Int := 2 ^ (-lo).toNat
    let c : Int := (m : Int) * 2 ^ (u + e - lo).toNat
    (n == neg || q == 0) && decide ((a - b).natAbs ≤ c.natAbs)
  | _ => false

/-- Whether |v − 1/√(m × 2^e)| ≤ 2 ulp, v ≥ 0 (R202). -/
def nearRsqrt (v : FVal) (m : Nat) (e : Int) : Bool :=
  match v with
  | .fin false q f =>
    let k : Int := m.log2 + e
    let l : Int := if m = 2 ^ m.log2 then (-k) / 2 else -(k / 2) - 1
    let u := ulpExp l + 1
    let lo := min f u
    let q' : Int := q * 2 ^ (f - lo).toNat
    let u' : Int := 2 ^ (u - lo).toNat
    -- (q' − u')² a ≤ 1 ≤ (q' + u')² a with a = m·2^e, at exponent 2·lo + e
    let x := max (q' - u') 0
    let y := q' + u'
    let t := 2 * lo + e
    if 0 ≤ t then decide (x * x * m * 2 ^ t.toNat ≤ 1) && decide (1 ≤ y * y * m * 2 ^ t.toNat)
    else decide (x * x * m ≤ 2 ^ (-t).toNat) && decide ((2 : Int) ^ (-t).toNat ≤ y * y * m)
  | _ => false

def nan32 : Word := 0x7FC00000#32
def inf32 (neg : Bool) : Word := if neg then 0xFF800000#32 else 0x7F800000#32
def zero32 (neg : Bool) : Word := if neg then 0x80000000#32 else 0x00000000#32
def one32 (neg : Bool) : Word := if neg then 0xBF800000#32 else 0x3F800000#32

/-- FRCP (R202, R203): a value within one ulp that the part fixes for the operand (R204). -/
def frcp (a : Word) : Word :=
  match f32 a with
  | .nan => nan32
  | .inf n => zero32 n
  | .fin n 0 _ => inf32 n
  | .fin n m e => if nearRecip (f32 (Config.frcp a)) n m e then Config.frcp a else toF32 (recipPos n m e)

/-- FRSQ (R202, R203). -/
def frsq (a : Word) : Word :=
  match f32 a with
  | .nan => nan32
  | .inf n => if n then nan32 else zero32 false
  | .fin n 0 _ => inf32 n
  | .fin true _ _ => nan32
  | .fin false m e => if nearRsqrt (f32 (Config.frsq a)) m e then Config.frsq a else toF32 (rsqrtPos m e)

/-- FSQRT (R202, R203): correctly rounded. -/
def fsqrt (a : Word) : Word :=
  match f32 a with
  | .nan => nan32
  | .inf n => if n then nan32 else a
  | .fin _ 0 _ => a
  | .fin true _ _ => nan32
  | .fin false m e => toF32 (sqrtPos m e)

/-- The integer that a finite value is, when it is one. -/
def asInt (neg : Bool) (m : Nat) (e : Int) : Option Int :=
  if 0 ≤ e then (if e ≤ 200 then some (sint neg m e 0) else none)
  else if m % 2 ^ (-e).toNat = 0 then some (sint neg (m / 2 ^ (-e).toNat) 0 0) else none

/-! ## Packed and narrow formats -/

/-- A BF16 code widened to FP32 (R206): exact, a NaN to the canonical one. -/
def widen (f : Fmt) (c : Nat) : Word := toF32 (f.value c)

/-- Each half of a word by a function of BF16 values (R205). -/
def halves (op : FVal → FVal → FVal → FVal) (a b d : Word) : Word :=
  let h (s : Nat) : Nat :=
    Fmt.bf16.round (op (Fmt.bf16.value (a.toNat / 2 ^ s % 65536)) (Fmt.bf16.value (b.toNat / 2 ^ s % 65536))
      (Fmt.bf16.value (d.toNat / 2 ^ s % 65536)))
  BitVec.ofNat 32 (h 16 * 65536 + h 0)

/-! ## Sums whose tree the part does not fix (R46, R103, R104) -/

/-- A list with element `i` and the one after it (cyclically) joined by an addition. -/
def joinAt (add : Word → Word → Word) (i j : Nat) (l : List Word) : List Word :=
  match l[i]?, (l.eraseIdx i)[j]? with
  | some x, some y => (l.eraseIdx i).set j (add x y)
  | _, _ => l

/-- The value of some full binary tree over the leaves, each exactly once, in some order: the free numbers of `seed` choose at each
step which two values are added. -/
def treeSum (add : Word → Word → Word) (seed : Nat) : Nat → List Word → Word
  | _, [] => 0
  | _, [x] => x
  | 0, x :: _ => x
  | n + 1, l =>
    let i := Config.freeTree seed (2 * n) % l.length
    let j := Config.freeTree seed (2 * n + 1) % (l.length - 1)
    treeSum add seed n (joinAt add i j l)

/-- The FP32 sum of the values in some tree (R46). -/
def freeSum (seed : Nat) (l : List Word) : Word := treeSum fadd seed l.length l

end Sys2Proof.Machine
end

