-- ==== Sys2Proof/Machine/Blocks.lean ====
section
/-!
DEFINITION. Scaled elements: tagged blocks (R83, R84), plain scaled groups (R85), quantisation (R122) and staging into planes (R113,
R114). A decoded element is an exact value.
-/
namespace Sys2Proof.Machine

/-- An element format: a floating-point code, or an n-bit two's-complement integer (R111). -/
inductive ElemFmt where
  | fp (f : Fmt)
  | bfp (n : Nat)
  deriving DecidableEq, Repr

/-- Bits of an element. -/
def ElemFmt.width : ElemFmt → Nat
  | .fp f => 1 + f.eb + f.mb
  | .bfp n => n

/-- The value of an element's field under a scale byte other than 0xFF (R111). -/
def ElemFmt.value (k : ElemFmt) (scale code : Nat) : FVal :=
  match k with
  | .fp f => (f.value code).scale (scale - 127)
  | .bfp n =>
    let m : Int := if 2 ^ (n - 1) ≤ code then (code : Int) - 2 ^ n else code
    (FVal.ofInt m).scale ((scale : Int) - 127 - (n - 2))

/-- The least and greatest element values at scale 127 (R122 step 4). -/
def ElemFmt.lo : ElemFmt → FVal
  | .fp f => (f.value f.maxCode).neg
  | .bfp n => .fin true (2 ^ (n - 1)) (2 - n)
def ElemFmt.hi : ElemFmt → FVal
  | .fp f => f.value f.maxCode
  | .bfp n => .fin false (2 ^ (n - 1) - 1) (2 - n)

/-- Whether a value lies in the range of a scale. -/
def ElemFmt.fits (k : ElemFmt) (s : Nat) (x : FVal) : Bool :=
  !x.lt (k.lo.scale (s - 127)) && !(k.hi.scale (s - 127)).lt x

/-- The field of a value under a scale: nearest even, saturated (R122 step 6). -/
def ElemFmt.code (k : ElemFmt) (s : Nat) (x : FVal) : Nat :=
  match k with
  | .fp f => f.roundSat (x.scale (127 - s))
  | .bfp n => ((toIntSat 0 (-(2 ^ (n - 1))) (2 ^ (n - 1) - 1) (x.scale (127 - s + (n - 2)))) % (2 ^ n : Int)).toNat

/-- The tagged formats: element format and tail capacity by code (R83). -/
def taggedFormat : Nat → Option (ElemFmt × Nat)
  | 0x14 => some (.fp .e2m1, 9)
  | 0x16 => some (.fp .e2m3, 4)
  | 0x26 => some (.fp .e3m2, 4)
  | 0x42 => some (.bfp 2, 15)
  | 0x43 => some (.bfp 3, 12)
  | 0x44 => some (.bfp 4, 9)
  | 0x45 => some (.bfp 5, 7)
  | 0x46 => some (.bfp 6, 4)
  | 0x47 => some (.bfp 7, 1)
  | _ => none

/-- The element format of a plain kind (R86): 1 to 6. -/
def plainFormat : Nat → Option ElemFmt
  | 1 => some (.fp .e4m3)
  | 2 => some (.fp .e5m2)
  | 3 => some (.bfp 8)
  | 4 => some (.fp .e2m3)
  | 5 => some (.fp .e3m2)
  | 6 => some (.fp .e2m1)
  | _ => none

/-- Element `j` of `w` bits in the bit stream that a number holds. -/
def streamAt (v w j : Nat) : Nat := v / 2 ^ (j * w) % 2 ^ w
/-- The number that holds a bit stream. -/
def streamOf (w : Nat) : List Nat → Nat
  | [] => 0
  | c :: r => c % 2 ^ w + 2 ^ w * streamOf w r

/-- A decoded block: the elements with the tail in place, the elements as their slots hold them with tailed ones zero, and the tail
entries in order. -/
structure Decoded64 where
  elems : List FVal
  slots : List FVal
  tail : List (Nat × Nat)
  deriving DecidableEq, Repr

def zero64 : List FVal := List.replicate 64 (.fin false 0 0)
def nan64 : List FVal := List.replicate 64 .nan

/-- Tail entries put in place, a later one replacing an earlier one. -/
def placeTail (f : Nat → FVal) : List (Nat × Nat) → List FVal → List FVal
  | [], l => l
  | (i, v) :: r, l => placeTail f r (l.set i (f v))

/-- Tail entries of a block given as a number, from byte `b` on. -/
def tailEntries (v b : Nat) : Nat → List (Nat × Nat)
  | 0 => []
  | n + 1 => (v / 256 ^ b % 256, v / 256 ^ (b + 1) % 65536) :: tailEntries v (b + 3) n

/-- Decodes a tagged block from the number of its 64 bytes (R84); none is the bad-format fault. -/
def decodeBlock (v : Nat) : Option Decoded64 :=
  if v % 256 = 0 then some ⟨zero64, zero64, []⟩ else
  match taggedFormat (v % 256) with
  | none => none
  | some (k, cap) =>
    let w := k.width
    let at_ := 2 + 8 * w
    let t := v / 256 ^ at_ % 256
    if cap < t then none
    else
      let tail := tailEntries v (at_ + 1) t
      if tail.any fun e => decide (63 < e.1) then none
      else if v / 256 % 256 = 255 then some ⟨nan64, nan64, []⟩
      else
        let bits := v / 65536
        let xs := (upto 0 64).map fun j => k.value (v / 256 % 256) (streamAt bits w j)
        some ⟨placeTail Fmt.bf16.value tail xs, placeTail (fun _ => .fin false 0 0) tail xs, tail⟩

/-! ## Quantisation (R122) -/

/-- The magnitude of a value. -/
def FVal.mag : FVal → FVal
  | .fin _ m e => .fin false m e
  | .inf _ => .inf false
  | .nan => .nan

/-- The indices of values by magnitude, largest first, ties to the lower index. -/
def ranking (xs : List FVal) : List Nat :=
  (sortBy (fun (a b : Nat × FVal) => !a.2.mag.lt b.2.mag) ((upto 0 xs.length).zip xs)).map (·.1)

/-- A quantised group: its scale, its fields, its tail. Scale 255 is the NaN group. -/
structure Quantised where
  scale : Nat
  codes : List Nat
  tail : List (Nat × Nat)
  deriving DecidableEq, Repr

def nanGroup (n : Nat) : Quantised := ⟨255, List.replicate n 0, []⟩

/-- Steps 1 to 6 of R122 with tail capacity `cap`. -/
def quantise (k : ElemFmt) (cap : Nat) (xs : List FVal) : Quantised :=
  if xs.any FVal.isNan then nanGroup xs.length else
  let rank := ranking xs
  let xc := xs.getD (rank.getD cap 0) (.fin false 0 0)
  if xc.isInf then nanGroup xs.length else
  let s := ((upto 0 255).find? fun s => k.fits s xc).getD 254
  let tailed := (rank.take cap).filter fun j => !k.fits s (xs.getD j (.fin false 0 0))
  ⟨s, (upto 0 xs.length).map fun j => if tailed.contains j then 0 else k.code s (xs.getD j (.fin false 0 0)),
    (sortNat tailed).map fun j => (j, Fmt.bf16.round (xs.getD j (.fin false 0 0)))⟩

/-- The 64 bytes, as a number, of a tagged block of a code; an all-zero block without tail is the empty block (R122 steps 7, 8). -/
def encodeBlock (code : Nat) (k : ElemFmt) (q : Quantised) : Nat :=
  if q.scale ≠ 255 ∧ q.tail = [] ∧ q.codes.all (· == 0) then 0
  else
    let w := k.width
    let tails := q.tail.foldr (fun e acc => e.1 + 256 * (e.2 + 65536 * acc)) 0
    code + 256 * (q.scale + 256 * (streamOf w q.codes + 2 ^ (64 * w) * (q.tail.length + 256 * tails)))

/-- Quantises 64 values into a tagged block of a code (R122); none for a code that names no format. -/
def quantiseBlock (code : Nat) (xs : List FVal) : Option Nat :=
  (taggedFormat code).map fun f => encodeBlock code f.1 (quantise f.1 f.2 xs)

/-! ## Staging (R113, R114) -/

/-- A staged group: its exponent, whether it is invalid, and its elements. -/
structure Staged where
  g : Int
  invalid : Bool
  q : List Int
  deriving DecidableEq, Repr

/-- Whether −2^(p−1) × 2^k ≤ x < 2^(p−1) × 2^k. -/
def stageFits (p : Nat) (k : Int) (x : FVal) : Bool :=
  !x.lt (.fin true (2 ^ (p - 1)) k) && x.lt (.fin false (2 ^ (p - 1)) k)

/-- Stages 64 slots into `p` planes; `all` holds every decoded value, the tail included. -/
def stageGroup (p : Nat) (all slots : List FVal) : Staged :=
  let zeros := List.replicate slots.length (0 : Int)
  if all.any fun x => x.isNan || x.isInf then ⟨0, true, zeros⟩
  else if slots.all FVal.isZero then ⟨0, false, zeros⟩
  else
    -- valid groups have g in −144 to 142 (R113); the search starts below that
    let i : Nat := ((upto 0 420).find? fun (i : Nat) => slots.all (stageFits p ((i : Int) - 200 - (p - 2)))).getD 0
    let g : Int := (i : Int) - 200
    ⟨g, false, slots.map fun x =>
      min (toIntSat 0 (-(2 ^ (p - 1))) (2 ^ (p - 1)) (x.scale (p - 2 - g))) (2 ^ (p - 1) - 1)⟩

end Sys2Proof.Machine
end

