-- ==== Sys2Proof/Syntax.lean ====
section
/-!
DEFINITION. The syntax of every step of the part: one constructor per row of the opcode table, first those that carry the fields of
their words (R151, R152, R157), then those without fields, among them the steps the part takes without an instruction word. A field that is a register
number, a mask, a tile or a small immediate keeps the value its bits hold; what an entry makes of a value outside its range is
decided by the meaning.
-/
namespace Sys2Proof

/-- The steps of the part. `u` is the uniform bit (R62); `d`, `a`, `b` are register fields; `i`, `o`, `x` immediates and offsets as
their bits stand (R152); `l` the lookahead field. A constructor without fields has its operands, where it has any, in the state: the
instruction word and literal of the issuing agent, or the operands of a step of the part (`Machine.Issue`). The runtime of Lean
allows 244 constructors with fields at most, and the table has 356 rows (log 19). -/
inductive Instr where
  | srd (u : Bool) (d s : Nat)                               -- SRD, R175
  | callr (u : Bool) (d a : Nat)                             -- CALLR, R169
  | ret (u : Bool) (a : Nat)                                 -- RET, R169
  | jmpr (u : Bool) (a : Nat)                                -- JMPR, R169
  | joinm (u : Bool) (m : Nat)                               -- JOINM, R21
  | leavem (u : Bool) (m : Nat)                              -- LEAVEM, R21
  | waitm (u : Bool) (m : Nat)                               -- WAITM, R22
  | mskrd (u : Bool) (d m : Nat)                             -- MSKRD, R178
  | mskwr (u : Bool) (a m : Nat)                             -- MSKWR, R179
  | add (u : Bool) (d a b : Nat)                             -- ADD, R181
  | sub (u : Bool) (d a b : Nat)                             -- SUB, R181
  | mul (u : Bool) (d a b : Nat)                             -- MUL, R181
  | mulhs (u : Bool) (d a b : Nat)                           -- MULHS, R181
  | mulhz (u : Bool) (d a b : Nat)                           -- MULHZ, R181
  | mad (u : Bool) (d a b : Nat)                             -- MAD, R181
  | addc (u : Bool) (d a b : Nat)                            -- ADDC, R182
  | subb (u : Bool) (d a b : Nat)                            -- SUBB, R182
  | abs (u : Bool) (d a : Nat)                               -- ABS, R181
  | neg (u : Bool) (d a : Nat)                               -- NEG, R181
  | mins (u : Bool) (d a b : Nat)                            -- MINS, R181
  | maxs (u : Bool) (d a b : Nat)                            -- MAXS, R181
  | minz (u : Bool) (d a b : Nat)                            -- MINZ, R181
  | maxz (u : Bool) (d a b : Nat)                            -- MAXZ, R181
  | divs (u : Bool) (d a b : Nat)                            -- DIVS, R183
  | divz (u : Bool) (d a b : Nat)                            -- DIVZ, R183
  | rems (u : Bool) (d a b : Nat)                            -- REMS, R183
  | remz (u : Bool) (d a b : Nat)                            -- REMZ, R183
  | cmpi (u : Bool) (f d a i : Nat)                          -- CMPI, R191
  | cmpiWide (u : Bool) (c d a i : Nat)                      -- CMPI_WIDE, R191
  | and (u : Bool) (d a b : Nat)                             -- AND, R184
  | or (u : Bool) (d a b : Nat)                              -- OR, R184
  | xor (u : Bool) (d a b : Nat)                             -- XOR, R184
  | andn (u : Bool) (d a b : Nat)                            -- ANDN, R184
  | not (u : Bool) (d a : Nat)                               -- NOT, R184
  | popc (u : Bool) (d a : Nat)                              -- POPC, R184
  | clz (u : Bool) (d a : Nat)                               -- CLZ, R184
  | ffs (u : Bool) (d a : Nat)                               -- FFS, R184
  | brev (u : Bool) (d a : Nat)                              -- BREV, R184
  | mov (u : Bool) (d a : Nat)                               -- MOV, R184
  | sel (u : Bool) (d a b : Nat)                             -- SEL, R185
  | shl (u : Bool) (d a b : Nat)                             -- SHL, R186
  | shr (u : Bool) (d a b : Nat)                             -- SHR, R186
  | sar (u : Bool) (d a b : Nat)                             -- SAR, R186
  | rot (u : Bool) (d a b : Nat)                             -- ROT, R186
  | bfes (u : Bool) (d a b : Nat)                            -- BFES, R188
  | bfez (u : Bool) (d a b : Nat)                            -- BFEZ, R188
  | bfi (u : Bool) (d a b : Nat)                             -- BFI, R189
  | shli (u : Bool) (d a n : Nat)                            -- SHLI, R187
  | shri (u : Bool) (d a n : Nat)                            -- SHRI, R187
  | sari (u : Bool) (d a n : Nat)                            -- SARI, R187
  | roti (u : Bool) (d a n : Nat)                            -- ROTI, R187
  | cmp (u : Bool) (c d a b : Nat)                           -- CMP, R190
  | addi (u : Bool) (d a i : Nat)                            -- ADDI, R193
  | addiWide (u : Bool) (d a i : Nat)                        -- ADDI_WIDE, R193
  | andi (u : Bool) (d a i : Nat)                            -- ANDI, R193
  | andiWide (u : Bool) (d a i : Nat)                        -- ANDI_WIDE, R193
  | ori (u : Bool) (d a i : Nat)                             -- ORI, R193
  | oriWide (u : Bool) (d a i : Nat)                         -- ORI_WIDE, R193
  | xori (u : Bool) (d a i : Nat)                            -- XORI, R193
  | xoriWide (u : Bool) (d a i : Nat)                        -- XORI_WIDE, R193
  | movi (u : Bool) (d i : Nat)                              -- MOVI, R194
  | moviWide (u : Bool) (d i : Nat)                          -- MOVI_WIDE, R194
  | movhi (u : Bool) (d i : Nat)                             -- MOVHI, R195
  | movhiWide (u : Bool) (d i : Nat)                         -- MOVHI_WIDE, R195
  | lea (u : Bool) (d i : Nat)                               -- LEA, R196
  | leaWide (u : Bool) (d i : Nat)                           -- LEA_WIDE, R196
  | bra (u : Bool) (o : Nat)                                 -- BRA, R166
  | bz (u : Bool) (a o : Nat)                                -- BZ, R166
  | bnz (u : Bool) (a o : Nat)                               -- BNZ, R166
  | call (u : Bool) (d i : Nat)                              -- CALL, R168
  | fadd (u : Bool) (d a b : Nat)                            -- FADD, R199
  | fsub (u : Bool) (d a b : Nat)                            -- FSUB, R199
  | fmul (u : Bool) (d a b : Nat)                            -- FMUL, R199
  | ffma (u : Bool) (d a b : Nat)                            -- FFMA, R199
  | fmin (u : Bool) (d a b : Nat)                            -- FMIN, R199
  | fmax (u : Bool) (d a b : Nat)                            -- FMAX, R199
  | fabs (u : Bool) (d a : Nat)                              -- FABS, R199
  | fneg (u : Bool) (d a : Nat)                              -- FNEG, R199
  | fcmp (u : Bool) (c d a b : Nat)                          -- FCMP, R200
  | fclass (u : Bool) (d a : Nat)                            -- FCLASS, R201
  | frcp (u : Bool) (d a : Nat)                              -- FRCP, R202
  | frsq (u : Bool) (d a : Nat)                              -- FRSQ, R202
  | fsqrt (u : Bool) (d a : Nat)                             -- FSQRT, R202
  | fexp2 (u : Bool) (d a : Nat)                             -- FEXP2, R202
  | flog2 (u : Bool) (d a : Nat)                             -- FLOG2, R202
  | fsin (u : Bool) (d a : Nat)                              -- FSIN, R202
  | fcos (u : Bool) (d a : Nat)                              -- FCOS, R202
  | ftanh (u : Bool) (d a : Nat)                             -- FTANH, R202
  | hadd2 (u : Bool) (d a b : Nat)                           -- HADD2, R205
  | hmul2 (u : Bool) (d a b : Nat)                           -- HMUL2, R205
  | hfma2 (u : Bool) (d a b : Nat)                           -- HFMA2, R205
  | cvtBf16F32Lo (u : Bool) (d a : Nat)                      -- CVT_BF16_F32_LO, R206
  | cvtBf16F32Hi (u : Bool) (d a : Nat)                      -- CVT_BF16_F32_HI, R206
  | cvtF16F32Lo (u : Bool) (d a : Nat)                       -- CVT_F16_F32_LO, R206
  | cvtF16F32Hi (u : Bool) (d a : Nat)                       -- CVT_F16_F32_HI, R206
  | cvtE4m3x2F32Lo (u : Bool) (d a b : Nat)                  -- CVT_E4M3X2_F32_LO, R207
  | cvtE4m3x2F32Hi (u : Bool) (d a b : Nat)                  -- CVT_E4M3X2_F32_HI, R207
  | cvtE5m2x2F32Lo (u : Bool) (d a b : Nat)                  -- CVT_E5M2X2_F32_LO, R207
  | cvtE5m2x2F32Hi (u : Bool) (d a b : Nat)                  -- CVT_E5M2X2_F32_HI, R207
  | cvtF32Bf16 (u : Bool) (d a h : Nat)                      -- CVT_F32_BF16, R206
  | cvtF32F16 (u : Bool) (d a h : Nat)                       -- CVT_F32_F16, R206
  | cvtF32E4m3 (u : Bool) (d a n : Nat)                      -- CVT_F32_E4M3, R206
  | cvtF32E5m2 (u : Bool) (d a n : Nat)                      -- CVT_F32_E5M2, R206
  | cvtS32F32 (u : Bool) (r d a : Nat)                       -- CVT_S32_F32, R208
  | cvtZ32F32 (u : Bool) (r d a : Nat)                       -- CVT_Z32_F32, R208
  | cvtF32S32 (u : Bool) (d a : Nat)                         -- CVT_F32_S32, R208
  | cvtF32Z32 (u : Bool) (d a : Nat)                         -- CVT_F32_Z32, R208
  | cvtF32S64 (u : Bool) (d a : Nat)                         -- CVT_F32_S64, R208
  | cvtF32Z64 (u : Bool) (d a : Nat)                         -- CVT_F32_Z64, R208
  | cvtS64F32Rz (u : Bool) (d a : Nat)                       -- CVT_S64_F32_RZ, R208
  | cvtZ64F32Rz (u : Bool) (d a : Nat)                       -- CVT_Z64_F32_RZ, R208
  | cvtS8S32Sat (u : Bool) (d a : Nat)                       -- CVT_S8_S32_SAT, R209
  | cvtS16S32Sat (u : Bool) (d a : Nat)                      -- CVT_S16_S32_SAT, R209
  | cvtZ8S32Sat (u : Bool) (d a : Nat)                       -- CVT_Z8_S32_SAT, R209
  | cvtZ16S32Sat (u : Bool) (d a : Nat)                      -- CVT_Z16_S32_SAT, R209
  | cvtZ8Z32Sat (u : Bool) (d a : Nat)                       -- CVT_Z8_Z32_SAT, R209
  | cvtZ16Z32Sat (u : Bool) (d a : Nat)                      -- CVT_Z16_Z32_SAT, R209
  | cvtS64S32 (u : Bool) (d a : Nat)                         -- CVT_S64_S32, R209
  | cvtZ64Z32 (u : Bool) (d a : Nat)                         -- CVT_Z64_Z32, R209
  | cvtS32S64Sat (u : Bool) (d a : Nat)                      -- CVT_S32_S64_SAT, R209
  | cvtZ32Z64Sat (u : Bool) (d a : Nat)                      -- CVT_Z32_Z64_SAT, R209
  | qnt (u : Bool) (f d a : Nat)                             -- QNT, R216
  | dqnt (u : Bool) (d a : Nat)                              -- DQNT, R217
  | shfl (d a b : Nat)                                       -- SHFL, R211
  | bcast (d a n : Nat)                                      -- BCAST, R211
  | vote (d a m : Nat)                                       -- VOTE, R212
  | matchLanes (d a : Nat)                                   -- MATCH, R213
  | wred (f d a : Nat)                                       -- WRED, R214
  | wscan (f d a b : Nat)                                    -- WSCAN, R215
  | group (u : Bool) (s l r : Nat)                           -- GROUP, R45
  | groupWide (u : Bool) (s i : Nat)                         -- GROUP_WIDE, R267
  | join (u : Bool) (s a l r : Nat)                          -- JOIN, R50
  | joinWide (u : Bool) (s a i : Nat)                        -- JOIN_WIDE, R267
  | park (u : Bool) (s a : Nat)                              -- PARK, R269
  | parkWide (u : Bool) (s a i : Nat)                        -- PARK_WIDE, R267
  | relopen (u : Bool) (d a : Nat)                           -- RELOPEN, R271
  | relseal (u : Bool) (d a : Nat)                           -- RELSEAL, R271
  | relcnt (u : Bool) (d a : Nat)                            -- RELCNT, R271
  | fork (u : Bool) (a c : Nat)                              -- FORK, R15
  | cpush (u : Bool) (a : Nat)                               -- CPUSH, R274
  | jcdec (u : Bool) (a : Nat)                               -- JCDEC, R275
  | dqpush (u : Bool) (d a : Nat)                            -- DQPUSH, R276
  | dqpop (u : Bool) (d : Nat)                               -- DQPOP, R276
  | dqsteal (u : Bool) (d a : Nat)                           -- DQSTEAL, R276
  | reggrow (u : Bool) (g : Nat)                             -- REGGROW, R277
  | regshrink (u : Bool) (g : Nat)                           -- REGSHRINK, R278
  | launch (u : Bool) (d a : Nat)                            -- LAUNCH, R279
  | ldS8 (u : Bool) (l d a o : Nat)                          -- LD_S8, R223
  | ldZ8 (u : Bool) (l d a o : Nat)                          -- LD_Z8, R223
  | ldS16 (u : Bool) (l d a o : Nat)                         -- LD_S16, R223
  | ldZ16 (u : Bool) (l d a o : Nat)                         -- LD_Z16, R223
  | ld (u : Bool) (l d a o : Nat)                            -- LD, R223
  | ld64 (u : Bool) (l d a o : Nat)                          -- LD_64, R223
  | ld128 (u : Bool) (l d a o : Nat)                         -- LD_128, R223
  | st8 (u : Bool) (l d a o : Nat)                           -- ST_8, R223
  | st16 (u : Bool) (l d a o : Nat)                          -- ST_16, R223
  | st (u : Bool) (l d a o : Nat)                            -- ST, R223
  | st64 (u : Bool) (l d a o : Nat)                          -- ST_64, R223
  | st128 (u : Bool) (l d a o : Nat)                         -- ST_128, R223
  | lds (u : Bool) (l a b x : Nat)                           -- LDS, R224
  | lds64 (u : Bool) (l a b x : Nat)                         -- LDS_64, R224
  | lds128 (u : Bool) (l a b x : Nat)                        -- LDS_128, R224
  | sts (u : Bool) (l a b x : Nat)                           -- STS, R224
  | sts64 (u : Bool) (l a b x : Nat)                         -- STS_64, R224
  | sts128 (u : Bool) (l a b x : Nat)                        -- STS_128, R224
  | lda (u : Bool) (l a b x : Nat)                           -- LDA, R225
  | lda64 (u : Bool) (l a b x : Nat)                         -- LDA_64, R225
  | stl (u : Bool) (l a b x : Nat)                           -- STL, R225
  | stl64 (u : Bool) (l a b x : Nat)                         -- STL_64, R225
  | radd (u : Bool) (l f a b x : Nat)                        -- RADD, R230
  | atomAdd (u : Bool) (l d a b : Nat)                       -- ATOM_ADD, R228
  | atomF32 (u : Bool) (l d a b : Nat)                       -- ATOM_F32, R228
  | atomMins (u : Bool) (l d a b : Nat)                      -- ATOM_MINS, R228
  | atomMaxs (u : Bool) (l d a b : Nat)                      -- ATOM_MAXS, R228
  | atomMinz (u : Bool) (l d a b : Nat)                      -- ATOM_MINZ, R228
  | atomMaxz (u : Bool) (l d a b : Nat)                      -- ATOM_MAXZ, R228
  | atomAnd (u : Bool) (l d a b : Nat)                       -- ATOM_AND, R228
  | atomOr (u : Bool) (l d a b : Nat)                        -- ATOM_OR, R228
  | atomXor (u : Bool) (l d a b : Nat)                       -- ATOM_XOR, R228
  | atomExch (u : Bool) (l d a b : Nat)                      -- ATOM_EXCH, R228
  | atomCas (u : Bool) (l d a b : Nat)                       -- ATOM_CAS, R229
  | xfence (u : Bool) (a b : Nat)                            -- XFENCE, R232
  | lbar (u : Bool) (k : Nat)                                -- LBAR, R233
  | sppin (u : Bool) (a b : Nat)                             -- SPPIN, R235
  | spunpin (u : Bool) (a b : Nat)                           -- SPUNPIN, R235
  | rbpush (u : Bool) (a b : Nat)                            -- RBPUSH, R238
  | rbpop (u : Bool) (d a : Nat)                             -- RBPOP, R238
  | rbfree (u : Bool) (d a b : Nat)                          -- RBFREE, R238
  | tqpop (u : Bool) (d n : Nat)                             -- TQPOP, R240
  | gsig (u : Bool) (a b : Nat)                              -- GSIG, R243
  | gwait (u : Bool) (d a b : Nat)                           -- GWAIT, R243
  | grd (u : Bool) (d a : Nat)                               -- GRD, R243
  | gtry (u : Bool) (d a b : Nat)                            -- GTRY, R243
  | mldr (u : Bool) (l a b x : Nat)                          -- MLDR, R241
  | mst (u : Bool) (l a b x : Nat)                           -- MST, R241
  | csrr (u : Bool) (d c : Nat)                              -- CSRR, R309
  | csrw (u : Bool) (a c : Nat)                              -- CSRW, R309
  | tlbinv (u : Bool) (a b : Nat)                            -- TLBINV, R306
  | cinv (u : Bool) (a b : Nat)                              -- CINV, R307
  | tokxfer (u : Bool) (d a b : Nat)                         -- TOKXFER, R308
  | clklock (u : Bool) (a b : Nat)                           -- CLKLOCK, R308
  | sleep (u : Bool) (a : Nat)                               -- SLEEP, R305
  | watch (u : Bool) (a b : Nat)                             -- WATCH, R304
  | smov (u : Bool) (d a : Nat)                              -- SMOV, R283
  | sadd (u : Bool) (d a b : Nat)                            -- SADD, R283
  | ssig (u : Bool) (a b : Nat)                              -- SSIG, R284
  | ssig64 (u : Bool) (a b : Nat)                            -- SSIG_64, R284
  | ssigAdd64 (u : Bool) (a b : Nat)                         -- SSIG_ADD64, R284
  | slda (u : Bool) (d a : Nat)                              -- SLDA, R284
  | slda64 (u : Bool) (d a : Nat)                            -- SLDA_64, R284
  | sli (u : Bool) (d i : Nat)                               -- SLI, R283
  | sliWide (d i : Nat)                                      -- SLI_WIDE, R283
  | sbnz (u : Bool) (a o : Nat)                              -- SBNZ, R283
  | sloop (u : Bool) (a o : Nat)                             -- SLOOP, R283
  | tcfg (u n : Bool) (d a : Nat)                            -- TCFG, R253
  | tzero (u n : Bool) (d : Nat)                             -- TZERO, R254
  | tzeroRows (u n : Bool) (d b : Nat)                       -- TZERO_ROWS, R254
  | twr (u n : Bool) (d a b : Nat)                           -- TWR, R255
  | mma (u n : Bool) (d a : Nat)                             -- MMA, R256
  | mmas (u n : Bool) (d a : Nat)                            -- MMAS, R257
  | mmao (u n : Bool) (d a : Nat)                            -- MMAO, R259
  | accrd (u n : Bool) (d a b : Nat)                         -- ACCRD, R260
  | accrdClr (u n : Bool) (d a b : Nat)                      -- ACCRD_CLR, R260
  | accnorm (u n : Bool) (d : Nat)                           -- ACCNORM, R261
  | accnormRows (u n : Bool) (d b : Nat)                     -- ACCNORM_ROWS, R261
  | acchrRow (u n : Bool) (d a b : Nat)                      -- ACCHR_ROW, R262
  | acchrExp (u n : Bool) (d a b : Nat)                      -- ACCHR_EXP, R262
  | acchrTile (u n : Bool) (d a : Nat)                       -- ACCHR_TILE, R262
  | msync (u n : Bool) (a : Nat)                             -- MSYNC, R263
  | cpy (u n : Bool) (d a b : Nat)                           -- CPY, R286
  | cpym (u n : Bool) (f d a b : Nat)                        -- CPYM, R287
  | gather (u n : Bool) (d a b : Nat)                        -- GATHER, R288
  | scatter (u n : Bool) (d a b : Nat)                       -- SCATTER, R288
  | stage (u n : Bool) (a b : Nat)                           -- STAGE, R289
  | emblk (u n : Bool) (d a b : Nat)                         -- EMBLK, R290
  | topk (u n : Bool) (d a b : Nat)                          -- TOPK, R291
  | coll (u n : Bool) (a : Nat)                              -- COLL, R293
  | agset (u n : Bool) (a b : Nat)                           -- AGSET, R295
  | egjoin (u n : Bool) (d a : Nat)                          -- EGJOIN, R296
  | egleave (u n : Bool) (d a : Nat)                         -- EGLEAVE, R296
  | ttop (u : Bool) (a : Nat)                                -- TTOP, R297
  | evpop (u : Bool) (d : Nat)                               -- EVPOP, R298
  | evwait (u : Bool) (d : Nat)                              -- EVWAIT, R298
  | nop                                                      -- NOP, R173
  | yield                                                    -- YIELD, R173
  | exit                                                     -- EXIT, R171
  | phase                                                    -- PHASE, R174
  | meet                                                     -- MEET, R176
  | clauseHeader                                             -- CLAUSE_HEADER, R148
  | outputWarpStart                                          -- OUTPUT_WARP_START, R53
  | rdv                                                      -- RDV, R15
  | sequencerStart                                           -- SEQUENCER_START, R142
  | reggrowGrant                                             -- REGGROW_GRANT, R34
  | lookaheadResultWrite                                     -- LOOKAHEAD_RESULT_WRITE, R153
  | storePerformed                                           -- STORE_PERFORMED, R149
  | prefL2                                                   -- PREF_L2, R226
  | prefL1                                                   -- PREF_L1, R226
  | fence                                                    -- FENCE, R231
  | lbarPlacementPreempt                                     -- LBAR_PLACEMENT_PREEMPT, R30
  | gateSignalApply                                          -- GATE_SIGNAL_APPLY, R319
  | trap                                                     -- TRAP, R302
  | trapret                                                  -- TRAPRET, R303
  | bkpt                                                     -- BKPT, R302
  | sleepWake                                                -- SLEEP_WAKE, R305
  | phaseTimerExpiry                                         -- PHASE_TIMER_EXPIRY, R377
  | handlerEntry                                             -- HANDLER_ENTRY, R371
  | swait                                                    -- SWAIT, R283
  | endProg                                                  -- END, R285
  | cpymFollowOn                                             -- CPYM_FOLLOW_ON, R287
  | ttopSlotStart                                            -- TTOP_SLOT_START, R297
  | arrivedTilePush                                          -- ARRIVED_TILE_PUSH, R294
  | engineCommandComplete                                    -- ENGINE_COMMAND_COMPLETE, R281
  | completionRecordPush                                     -- COMPLETION_RECORD_PUSH, R143
  | controlProgramStart                                      -- CONTROL_PROGRAM_START, R144
  | qwptrWrite                                               -- QWPTR_WRITE, R127
  | queueReset                                               -- QUEUE_RESET, R127
  | queueEnable                                              -- QUEUE_ENABLE, R124
  | nopPacket                                                -- NOP_PACKET, R126
  | launchPacket                                             -- LAUNCH_PACKET, R126
  | fencePacket                                              -- FENCE_PACKET, R126
  | fenceCountersMet                                         -- FENCE_COUNTERS_MET, R126
  | fenceTimeout                                             -- FENCE_TIMEOUT, R126
  | writePacket                                              -- WRITE_PACKET, R126
  | timedPacket                                              -- TIMED_PACKET, R126
  | timedReached                                             -- TIMED_REACHED, R126
  | placeItem                                                -- PLACE_ITEM, R136
  | priorityAging                                            -- PRIORITY_AGING, R136
  | placementReserve                                         -- PLACEMENT_RESERVE, R137
  | launchComplete                                           -- LAUNCH_COMPLETE, R134
  | withdrawLaunch                                           -- WITHDRAW_LAUNCH, R135
  | preempt                                                  -- PREEMPT, R420
  | preemptAndHold                                           -- PREEMPT_AND_HOLD, R420
  | preemptRelease                                           -- PREEMPT_RELEASE, R420
  | preemptSwapComplete                                      -- PREEMPT_SWAP_COMPLETE, R379
  | preemptSpillComplete                                     -- PREEMPT_SPILL_COMPLETE, R379
  | activate                                                 -- ACTIVATE, R314
  | freeze                                                   -- FREEZE, R322
  | freezeComplete                                           -- FREEZE_COMPLETE, R322
  | resume                                                   -- RESUME, R323
  | tearDownKeepingGates                                     -- TEAR_DOWN_KEEPING_GATES, R317
  | tearDownExportingGates                                   -- TEAR_DOWN_EXPORTING_GATES, R317
  | teardownComplete                                         -- TEARDOWN_COMPLETE, R317
  | partitionFieldWrite                                      -- PARTITION_FIELD_WRITE, R315
  | gateEntryWrite                                           -- GATE_ENTRY_WRITE, R318
  | gateTokenRefill                                          -- GATE_TOKEN_REFILL, R319
  | ringEnWrite                                              -- RING_EN_WRITE, R237
  | migrationGo                                              -- MIGRATION_GO, R343
  | migrationSwitchOver                                      -- MIGRATION_SWITCH_OVER, R343
  | migrationFailure                                         -- MIGRATION_FAILURE, R413
  | fabricAccessServe                                        -- FABRIC_ACCESS_SERVE, R409
  | parkedRetry                                              -- PARKED_RETRY, R410
  | parkedDrop                                               -- PARKED_DROP, R410
  | parkedExpiry                                             -- PARKED_EXPIRY, R410
  | memberAbsentTimeout                                      -- MEMBER_ABSENT_TIMEOUT, R404
  | agreementRoundStart                                      -- AGREEMENT_ROUND_START, R335
  | agreementAckTimeout                                      -- AGREEMENT_ACK_TIMEOUT, R335
  | agreementRoundEnd                                        -- AGREEMENT_ROUND_END, R335
  | switchReset                                              -- SWITCH_RESET, R406
  | timeDomainLeave                                          -- TIME_DOMAIN_LEAVE, R408
  | timeDomainRejoin                                         -- TIME_DOMAIN_REJOIN, R408
  | tokenReceive                                             -- TOKEN_RECEIVE, R308
  | tokenReturnArrival                                       -- TOKEN_RETURN_ARRIVAL, R308
  | clockLockEffect                                          -- CLOCK_LOCK_EFFECT, R308
  | powerClampAdjust                                         -- POWER_CLAMP_ADJUST, R355
  | energyAttributionInterval                                -- ENERGY_ATTRIBUTION_INTERVAL, R354
  | energyIdleSlotAdd                                        -- ENERGY_IDLE_SLOT_ADD, R354
  | hostMemRead                                              -- HOST_MEM_READ, R108
  | hostMemWrite                                             -- HOST_MEM_WRITE, R108
  | ownerClaim                                               -- OWNER_CLAIM, R347
  | ownerHandOver                                            -- OWNER_HAND_OVER, R347
  | ownerAccept                                              -- OWNER_ACCEPT, R347
  | ownerRelease                                             -- OWNER_RELEASE, R347
  | ownerLinkDown                                            -- OWNER_LINK_DOWN, R347
  | portLimiterWrite                                         -- PORT_LIMITER_WRITE, R349
  | hostWindowWrite                                          -- HOST_WINDOW_WRITE, R350
  | coldReset                                                -- COLD_RESET, R351
  | warmReset                                                -- WARM_RESET, R351
  | bootctlWrite                                             -- BOOTCTL_WRITE, R351
  | bootCheckComplete                                        -- BOOT_CHECK_COMPLETE, R351
  | blackboxSnap                                             -- BLACKBOX_SNAP, R357
  | blackboxSnapComplete                                     -- BLACKBOX_SNAP_COMPLETE, R357
  | getVersion                                               -- GET_VERSION, R353
  | getCapabilities                                          -- GET_CAPABILITIES, R353
  | negotiateAlgorithms                                      -- NEGOTIATE_ALGORITHMS, R353
  | getDigests                                               -- GET_DIGESTS, R353
  | getCertificate                                           -- GET_CERTIFICATE, R353
  | challenge                                                -- CHALLENGE, R353
  | getMeasurements                                          -- GET_MEASUREMENTS, R353
  | patrolScrub                                              -- PATROL_SCRUB, R390
  | uncorrectableError                                       -- UNCORRECTABLE_ERROR, R391
  | genericRegisterWrite                                     -- GENERIC_REGISTER_WRITE, R145
  | relationOperationComplete                                -- RELATION_OPERATION_COMPLETE, R271
  | engineCounterOperationComplete                           -- ENGINE_COUNTER_OPERATION_COMPLETE, R274
  | switchUnreachable                                        -- SWITCH_UNREACHABLE, R406
  | fabricFormation                                          -- FABRIC_FORMATION, R333
  | tokenBrokerMove                                          -- TOKEN_BROKER_MOVE, R355
  deriving DecidableEq, Repr

end Sys2Proof
end

