-- ==== Sys2Proof/Machine/State.lean ====
section
/-!
DEFINITION. The state of one Bluthen 9640 module, as plain data: every piece of state the spec names, from a lane's registers to
the black-box ring, the reasons a step may stop, and the state after cold reset. A list that is empty at reset holds its elements
once an instruction or an event has made them. Fields marked MODEL are the model's own.
-/
namespace Sys2Proof.Machine

/-! ## Threads and warps -/

/-- Where an agent stands (R18, R148). `hdr`: `pc` is a clause header it has not passed. Otherwise `pc` is the next instruction
word, `rem` counts the words left in its clause from `pc` on, and `first` holds the header that it has passed when the word is its
clause's first: the agent also stands at that header, whose wait fields still hold it (R149). -/
structure Cursor where
  pc : VAddr
  hdr : Bool
  rem : Nat
  first : Option Word
  deriving DecidableEq, Repr

/-- What a lane position of a warp holds (R37): no thread, a thread, a thread that exited, one that arrived at a relation point
(R39), one that retired by PARK (R48). -/
inductive LaneStatus where
  | empty | running | exited | arrived | parked
  deriving DecidableEq, Repr

/-- What keeps a lane from issuing. A held lane belongs to no PC group (R19); one that waits in FORK, RDV, REGGROW or CLKLOCK, or
sleeps, keeps its group from being runnable (R24). With `wait` and `pend` a `Waiter` of the partition names the lane. -/
inductive Hold where
  | free
  | waitm (m : Nat) (x : VAddr)     -- held: R22: the mask, and the address at which it meets
  | lbar (k : Nat)                  -- held: R233
  | wait                            -- held: R238, R240, R243
  | pend                            -- R142, R34, R308
  | sleep (wake : Nat)              -- R305: the cycle from which the lane may issue
  deriving DecidableEq, Repr

/-- An outstanding long-latency result of one lane (R153): `window` more instructions of the lane read the old value, then `vals`
is written. `ticket` names the instruction in the load counter (R149). `parts` are the members' values of a multicast read that still
waits for some of them (R411). MODEL: `born` is the cycle in which it issued. -/
structure Result where
  ticket : Nat
  window : Nat
  ready : Bool                      -- false while a member's read is parked (R411)
  vals : List (Nat × Word)
  parts : List (Option Word)
  hm : Bool                         -- issued by a handler (R370)
  born : Nat
  deriving DecidableEq, Repr

/-- One lane position of a warp: its thread's PC, meeting register (R17), holds, outstanding results, lix values (R32), relation
row count (R61). `age`: slots it has been runnable without issuing (R24). -/
structure Lane where
  status : LaneStatus
  cur : Cursor
  mr : VAddr
  hold : Hold
  results : List Result
  lix : List Nat
  relcnt : Nat
  age : Nat
  deriving DecidableEq, Repr

/-- What a register that nothing has written reads as: zero (R138, R34), or the free value of a seed (R129, R68). -/
inductive Fill where
  | zero
  | free (seed : Nat)
  deriving DecidableEq, Repr

/-- Trap state of a warp (R309, R310, R367, R369): pending causes, the TVAL of each, what the handler is handling, the handler's
own PC, the PC edits it has made, SKID, and the step flag's count. -/
structure TrapState where
  cause : Word
  tvals : Map DWord
  cur : Nat
  tval : DWord
  hlane : Nat
  ss : Bool
  ssLeft : Bool                     -- MODEL: the step flag acts after the next instruction
  hm : Bool
  hcur : Cursor
  edits : Map VAddr
  skid : Nat
  deriving DecidableEq, Repr

/-- The phase timer of a warp (R174, R376, R377). -/
structure PhaseTimer where
  count : Nat
  budget : Nat
  armed : Bool
  deriving DecidableEq, Repr

/-- A warp (R19, R21, R26, R33): `wid` modulo 32 is its index within the work-group; a relation's output warp that starts while the
warp of its position still runs (R53) has a larger number with the same index. `regs` is keyed register × 32 + lane;
`poison` lists poisoned registers by the same key (R391); `eng` and `rel` are the open operations of the engine and relation
counters (R149); `turn` is the group that holds the slots (R25); `paid` is RETIRED at the last microsecond boundary (R354). -/
structure Warp where
  wid : Nat
  slot : Nat
  alloc : Nat
  regs : Map Word
  fill : Fill
  zeroed : Nat                      -- MODEL: registers from this number on read zero when unwritten (R34)
  poison : List Nat
  masks : List Word
  lanes : List Lane
  trap : TrapState
  phase : PhaseTimer
  retired : Nat
  paid : Nat
  readyAge : Nat
  turn : List Nat
  turnEnd : Bool
  eng : List Nat
  rel : List Nat
  deriving DecidableEq, Repr

/-! ## Work-groups and waits -/

/-- A region of scratchpad in a work-group's space (R78): for threads of the instance `inst` of level `level` (the lix values above
the level), offsets `base` to `base + size` stand for space number `space`. -/
structure Region where
  base : Nat
  size : Nat
  space : Nat
  level : Nat
  inst : List Nat
  deriving DecidableEq, Repr

/-- A watchpoint (R304). -/
structure Watch where
  kind : Nat
  len : Nat
  addr : Nat
  deriving DecidableEq, Repr

/-- How far a trap of the work-group has gone (R369 to R375): running, warps stopping since the trap of warp `wid`, all of them stopped
and the work-group leaving its core before its handler (R380), or the handler running on warp `wid`. -/
inductive HaltState where
  | running
  | stopping (wid : Nat)
  | stopped (wid : Nat)
  | handling (wid : Nat)
  deriving DecidableEq, Repr

/-- A warp position of a work-group (R52): its wid, and the lix values of its threads, in lane order, when it was placed; `level` is 16, or
the level of the relation of which an output warp stood there (R54). -/
structure Seat where
  wid : Nat
  threads : List (List Nat)
  level : Nat
  deriving DecidableEq, Repr

/-- A resident work-group (R26, R33, R78, R304, R369): `seq` names its launch, `num` is its own launch sequence number (a
continuation has one of its own, R133), `core` is module-wide, `order` says when it was placed, `kept` that its warps have ended and
only its sequencers run (R172), `debug` that a debug halt lasts (R378). -/
structure WorkGroup where
  id : Nat
  seq : Nat
  num : Nat
  priv : Nat
  prio : Nat
  core : Nat
  order : Nat
  cont : Bool
  warps : List Warp
  seats : List Seat
  space : List Region
  watch : List Watch
  halt : HaltState
  debug : Bool
  kept : Bool
  swap : Nat                        -- R379: the cycle from which it may issue
  pre : Nat                         -- R379: a pre-emption waits for it: 0 none, 1 pre-empt, 2 pre-empt and hold (R420)
  deriving DecidableEq, Repr

/-- What a waiting instruction waits to do (R34, R142, R238, R240, R243, R308). -/
inductive WaitKind where
  | rbpush (ring : Nat) (entry : DWord)
  | rbpop (ring d : Nat)
  | gwait (gate d : Nat) (target : DWord)
  | tqpop (q d : Nat)
  | fork (cls : Nat) (sregs : List Word)
  | rdv
  | reggrow (g age : Nat)           -- `age` numbers the requests (R34, R36)
  | clklock (group : Nat)
  deriving DecidableEq, Repr

/-- Lanes that wait at one instruction as one, oldest first in their list (R238). -/
structure Waiter where
  kind : WaitKind
  wg : Nat
  wid : Nat
  lanes : List Nat
  deriving DecidableEq, Repr

/-- A store, reduction or prefetch that has issued and has not been performed (R149): the bytes it writes, in memory or in the
scratchpad. A prefetch or a multicast store holds no bytes here; `parked` counts the member writes that stand parked (R411). `red` is
the operator (RADD's FN) and the operand of a reduction, whose bytes then only say which word it names (R103); `hm` says that a handler
issued it (R303). (log 6, DESIGN CHOICE) -/
structure PendingStore where
  ticket : Nat
  parked : Nat
  wg : Nat
  wid : Nat
  lane : Nat
  level : Nat
  spad : Bool
  poison : Bool
  bytes : List (Nat × Byte)
  red : Option (Nat × Word)
  hm : Bool
  deriving DecidableEq, Repr

/-! ## Matrix array and engines -/

/-- A row of an accumulator tile (R116). The headroom h is derived from the mantissas. -/
structure TileRow where
  m : List Int
  e : Int
  l : Nat
  n : Bool
  deriving DecidableEq, Repr

/-- An accumulator tile with its configuration (R64, R116, R253). -/
structure Tile where
  rows : List TileRow
  h : Nat
  einit : Int
  ofmt : Nat
  deriving DecidableEq, Repr

/-- The commands whose effect comes after their issue (R253 to R263, R286 to R296). -/
inductive CmdOp where
  | tcfg | tzero | twr | mma | mmas | mmao | accrd (clear : Bool) | accnorm
  | cpy | cpym (f : Nat) | gather | scatter | stage | emblk | topk
  | coll | agset | egjoin | egleave
  deriving DecidableEq, Repr

/-- What a command in flight still waits for (R281): nothing but its completion; its effect, with its operands as read at issue; the end
of an access that stands parked (R409); the follow-on of a CPYM with tile and operand block's address (R287); the rest of a product's port
steps: kind, tile, operand block as read, matrix step, what has been read for it, and how many of its port steps each row has had
(R252); the other members of a collective: group, bound version, the command's number among those of its instance, members and descriptor (R293, R336); the end of an
agreement round, with the register of the version (R296); its time slot (R297). -/
inductive CmdWait where
  | done
  | todo (op : CmdOp) (args : List Nat)
  | parked (op : CmdOp) (args : List Nat)
  | follow (f tile block : Nat)
  | product (kind tile block k : Nat) (data done : List Nat)
  | coll (group ver ord : Nat) (members : List (Nat × Nat)) (desc : List Nat)
  | round (group d : Nat)
  | slot (t : Nat) (op : CmdOp) (args : List Nat)
  deriving DecidableEq, Repr

/-- A command in flight (R281, R149): the STAT it completes with, whether it pushes a record and with which tag, its byte offset
from the program pointer (R401), the tiles still to be pushed on an arrived-tile queue and whether it then closes the queue
(R294), the address group it uses (R295), the physical address of the BUSY word of the embedding slot it has bound (R341), and the fabric
time from which it waits for other members (R404). -/
structure Command where
  id : Nat
  stat : Nat
  notify : Bool
  tag : DWord
  pcoff : Nat
  wait : CmdWait
  tiles : List Nat
  queue : Nat
  close : Bool
  group : Option Nat
  bound : Option Nat
  since : Nat
  deriving DecidableEq, Repr

/-- An engine sequencer, or a Guidon's control program (R65, R142, R144): class, owner, privilege (R300), where it stands, its s
registers, its commands in flight, and what it waits for. -/
structure Seq where
  id : Nat
  cls : Nat
  wg : Nat
  cluster : Nat
  seq : Nat
  priv : Nat
  base : VAddr
  cur : Cursor
  regs : List Word
  cmds : List Command
  ending : Bool                     -- END has issued (R285)
  stopped : Bool                    -- R400
  discard : Bool                    -- R135, R374: issues nothing further
  ttop : Option Nat                 -- R297: the time of a TTOP whose command has not issued
  engine : Nat                      -- copy engine or context number
  deriving DecidableEq, Repr

/-- A completion record (R143). -/
structure EventRec where
  src : Nat
  stat : Nat
  tag : DWord
  deriving DecidableEq, Repr

/-- A Guidon (R143, R144): its event queue, oldest first, and the launches whose control programs wait. -/
structure Guidon where
  events : List EventRec
  waiting : List Nat
  deriving DecidableEq, Repr

/-- An arrived-tile queue of a launch at a slice's collective engine (R240, R294). -/
structure TileQueue where
  seq : Nat
  slice : Nat
  n : Nat
  tiles : List Nat
  closed : Bool
  deriving DecidableEq, Repr

/-! ## Cores -/

/-- A core's deque (R140): its owner launch, 0 for none, and its entries from top to bottom. -/
structure Deque where
  owner : Nat
  entries : List DWord
  deriving DecidableEq, Repr

/-- A core (R26, R34, R64, R80, R140, R379): last warp slot of each scheduler, deque, tile owner (a work-group id, 0 for none)
and tiles, scratchpad share, whether a spill is going on, and the cycle at which a swap ends. MODEL: `picks` holds the cycle in which each
scheduler picked last. -/
structure Core where
  last : List Nat
  deque : Deque
  owner : Nat
  tiles : List Tile
  share : Nat
  spill : Bool
  swapEnd : Nat
  picks : List Nat
  deriving DecidableEq, Repr

/-! ## Launches, items, relations -/

/-- A level record (R28). -/
structure Level where
  extent : Nat
  regs : Nat
  scope : Nat
  domain : Nat
  scratch : Nat
  deriving DecidableEq, Repr

/-- A column of a schema (R42): combine operator, width, register. -/
structure Column where
  op : Nat
  wide : Bool
  reg : Nat
  deriving DecidableEq, Repr

/-- A schema: its key, then its columns (R42). -/
structure Schema where
  key : Column
  cols : List Column
  deriving DecidableEq, Repr

/-- A launch record as its snapshot was read (R129). -/
structure LaunchRec where
  code : DWord
  handler : DWord
  livetab : DWord
  phbudget : DWord
  matprog : DWord
  copyprog : DWord
  collprog : DWord
  ctlprog : DWord
  schemas : DWord
  status : DWord
  ctr : DWord
  arg : DWord
  even : Bool
  gcl : Nat
  argv : Bool
  nsch : Nat
  prio : Nat
  phmargin : Nat
  eslot : Nat
  levels : List Level
  deriving DecidableEq, Repr

/-- Why a launch is ending: withdrawn (R135), torn down (R317), faulted (R374, R401). -/
inductive Ending where
  | live | aborted | faulted
  deriving DecidableEq, Repr

/-- A launch that has been accepted and has not completed (R133, R134): its record, level (R300), schemas, and how far it has
gone. `energy` is in thousandths of a microjoule (R354). `enbase` is its partition's ENBASE at acceptance (R315); `slices` holds, by
instance of its outermost slice-bound level, the slice in which the instance stands (R29). -/
structure Launch where
  seq : Nat
  rcd : LaunchRec
  priv : Nat
  schemas : List Schema
  clamp : Bool
  dqdrop : Bool
  started : Bool
  ctlDone : Bool
  energy : Nat
  ending : Ending
  pushing : Bool                    -- R134: steps 1 to 3 taken, the record waits for a slot
  enbase : Nat
  slices : List (List Nat × Nat)
  deriving DecidableEq, Repr

/-- A continuation record (R138); `ring` says that it holds a slot of its priority's ring. -/
structure ContRec where
  code : DWord
  frame : DWord
  join : DWord
  scratch : Nat
  prio : Nat
  granules : Nat
  warps : Nat
  ring : Bool
  deriving DecidableEq, Repr

/-- A row deposited at a relation point (R39, R45, R397): rank and state of the thread, and where it stood. -/
structure Arrived where
  lix : List Nat
  regs : List Word
  poison : List Nat
  at_ : Cursor
  next : Cursor
  mr : VAddr
  relcnt : Nat
  wg : Nat
  wid : Nat
  lane : Nat
  deriving DecidableEq, Repr

/-- A pending relation point (R38, R49): launch, level, instance (the lix values above the level), RID, instruction, schema, and for
JOIN the table and the bound version number. -/
structure Point where
  seq : Nat
  k : Nat
  inst : List Nat
  rid : Nat
  join : Bool
  schema : Nat
  table : Nat
  version : Nat
  rows : List Arrived
  deriving DecidableEq, Repr

/-- A row of a relation table (R47): key and columns. -/
structure Row where
  key : DWord
  cols : List DWord
  deriving DecidableEq, Repr

/-- A version of a table (R47, R269): its number, its shape (key width, column widths) once it holds a row, its rows by build-row
index, and how many pending JOINs are bound to it. -/
structure Version where
  num : Nat
  shape : Option (Bool × List Bool)
  rows : List Row
  binds : Nat
  deriving DecidableEq, Repr

/-- A relation table (R47): its current and pending versions, and older versions that a JOIN still binds. -/
structure Table where
  cur : Option Version
  pend : Option Version
  old : List Version
  deriving DecidableEq, Repr

/-- A thread that starts with given state: an output row of a relation (R45, R50, R51), or a restored probe (R397). -/
structure NewThread where
  lix : List Nat
  regs : List Word
  poison : List Nat
  cur : Cursor
  mr : VAddr
  relcnt : Nat
  deriving DecidableEq, Repr

/-- The output of a relation in a gang-placed instance (R52, R53): its warps still to start, by output warp number, the warp
positions (work-group id, wid), the allocation, and by position the key of the warp started there last. -/
structure Output where
  seq : Nat
  k : Nat
  inst : List Nat
  granules : Nat
  seats : List (Nat × Nat)
  warps : List (Nat × List NewThread)
  started : Map Nat
  deriving DecidableEq, Repr

/-- A saved work-group (R68, R380, R381): the work-group, the tiles it owned, its sequencers, and the warps whose REGGROW request was
withdrawn (R36). `cid` is the core number within its cluster (R428). -/
structure Image where
  wg : WorkGroup
  tiles : Option (List Tile)
  seqs : List Seq
  grow : List (Nat × Nat × Nat)     -- warp, target, and the request's number
  cid : Nat
  spilled : Bool
  deriving DecidableEq, Repr

/-- What a pending item places (R136): fresh units of a launch in rank order, a continuation, saved work-groups, output units of a
relation (R52), or threads restored by a fan-out overflow (R397), by the work-group in which they arrived. -/
inductive ItemKind where
  | units (first count : Nat)
  | cont (rec : ContRec)
  | saved (imgs : List Image)
  | rows (k : Nat) (units : List (List NewThread)) (granules : Nat)
  | restored (k : Nat) (threads : List (Nat × List NewThread)) (tval : DWord) (granules : Nat)
  deriving DecidableEq, Repr

/-- A pending item (R136, R137, R420): launch, own launch sequence number, priority class, cycle at which it entered, class after
aging, whether it is held, whether it reserved its place. -/
structure Item where
  seq : Nat
  num : Nat
  prio : Nat
  since : Nat
  cls : Nat
  held : Bool
  reserved : Bool
  kind : ItemKind
  deriving DecidableEq, Repr

/-! ## Partitions -/

/-- A command queue (R124 to R127): its registers; of a FENCE in progress the counters that are not met, with their targets, and the
slots of its packet; the fabric time that a FENCE or a TIMED in progress waits for. -/
structure Queue where
  qbase : DWord
  qlog : Nat
  state : Nat
  en : Bool
  qrptr : DWord
  qwptr : DWord
  unmet : List (Nat × Nat)
  slots : Nat
  limit : Option Nat
  deriving DecidableEq, Repr

/-- A ring (R236). -/
structure Ring where
  rbase : DWord
  rlog : Nat
  en : Bool
  head : Word
  tail : Word
  free : Nat
  deriving DecidableEq, Repr

/-- A register with a command and a state: launch withdrawal (R135), pre-emption (R420). -/
structure CtlReg where
  arg : Nat
  state : Nat
  deriving DecidableEq, Repr

/-- A migration channel (R338, R343): its registers, and the migration in progress: the copy engine taken (its number + 1), the physical
address of the directory entry + 1, the bytes to copy, whether the copy engine has copied them, and the words of the source, with their
poison, that the mirror has carried over. -/
structure Channel where
  table : Nat
  shard : Nat
  rsvd : Nat
  state : Nat
  dest : DWord
  dmodule : Nat
  dpart : Nat
  stat : Nat
  entry : Nat
  src : Nat
  size : Nat
  copied : Bool
  seen : List (Nat × Bool)
  deriving DecidableEq, Repr

/-- What a fabric access that stands parked or unanswered belongs to (R410): a multicast write, with its poison, and the lane whose
store it holds back; a multicast read of member `i` for one lane of a warp of partition `p` (from 32 on: of lane − 32, for every lane of
its instruction, R62); a command of a sequencer; a migration
channel; an access from another module, with the bytes that it writes. -/
inductive ParkedAct where
  | write (w : Word) (poison : Bool) (p ticket lane : Nat)
  | read (p wg wid lane ticket i : Nat)
  | command (p seq cmd : Nat)
  | channel (p c : Nat)
  | remote (bytes : List Byte)
  deriving DecidableEq, Repr

/-- An entry of the port fault queue (R409). -/
structure Parked where
  addr : DWord
  smodule : Nat
  spart : Nat
  op : Nat
  cause : Nat
  ptime : Nat
  level : Nat                       -- MODEL: the sender's level, for the retry
  act : ParkedAct
  deriving DecidableEq, Repr

/-- A membership request of an elastic group (R335): join or leave, the member, the command that waits (sequencer, command,
destination register), if it is this module's, and the fabric time at which it was made. -/
structure Request where
  join : Bool
  module : Nat
  part : Nat
  who : Option (Nat × Nat × Nat)
  since : Nat
  deriving DecidableEq, Repr

/-- An address group (R295, R329, R330, R335): members, recorded absences, version, reduction slots, requests, the start of the agreement
round in progress with its requests and the members that have not acknowledged, how many COLLs its instance has had here, the numbers
of those that have failed at another member with the STAT that they have here (R407), the time of the first absence recorded in this version (R405), and the time of the
last acknowledgement of the round, or of the end of the last round. -/
structure Group where
  members : List (Nat × Nat)
  absent : List Nat
  ver : Nat
  rslot : Nat
  elastic : Bool
  valid : Bool
  requests : List Request
  round : Option Nat
  taken : List Request
  unacked : List Nat
  colls : Nat
  bad : Map Nat
  lost : Option Nat
  stamp : Nat
  deriving DecidableEq, Repr

/-- A translation held by a die's TLB (R69). -/
structure TlbEntry where
  die : Nat
  base : Nat
  size : Nat
  leaf : DWord
  deriving DecidableEq, Repr

/-- A clock lock (R308, R310): the lock in force, the error bit, and the request that waits. -/
structure ClockLock where
  err : Bool
  group : Nat
  mhz : Nat
  pending : Option (Nat × Nat × Nat)
  deriving DecidableEq, Repr

/-- State of a partition command (R313). -/
inductive PartState where
  | off | running | freezing | frozen | tearing
  deriving DecidableEq, Repr

/-- A partition (R313 and the registers behind QPAGE): `desc` holds its descriptor's dwords by offset / 8, state bits apart. -/
structure Partition where
  desc : Map DWord
  state : PartState
  err : Bool
  errwhy : Nat
  nextSeq : Nat
  queues : Map Queue
  rings : Map Ring
  withdraw : CtlReg
  preempt : CtlReg
  edbase : DWord
  channels : Map Channel
  parkedCount : Nat
  parked : Map Parked
  groups : Map Group
  tlb : List TlbEntry
  clk : ClockLock
  tables : Map Table
  pool : Nat
  crptr : Map (Nat × Nat)           -- read and write pointers of the continuation rings (R138)
  gatebase : DWord                  -- R309
  deriving DecidableEq, Repr

/-- The work of a partition: launches, pending items, resident work-groups, sequencers, relation points and outputs, waiters,
pending stores, Guidons by cluster, arrived-tile queues, pinned scratchpad pages by space × 256 + page (R81), the RELSEALs that have
issued and are not complete, by ticket and table (R270), and what warps that have left their cores issued there since the last microsecond
boundary: core, launch, instructions (R354). -/
structure Work where
  launches : Map Launch
  items : List Item
  wgs : List WorkGroup
  seqs : List Seq
  points : List Point
  outputs : List Output
  waiters : List Waiter
  stores : List PendingStore
  guidons : Map Guidon
  tqs : List TileQueue
  pins : List Nat
  seals : List (Nat × Nat)
  spent : List (Nat × Nat × Nat)
  deriving DecidableEq, Repr

/-- A gate (R318, R319): the directory entry's fields, and the increments queued while
frozen, each with the ticket of its GSIG; faults since the last black-box record, and the time of that record (R416). -/
structure Gate where
  value : DWord
  v : Bool
  frz : Bool
  home : Nat
  rate : Nat
  burst : Nat
  tokens : Nat
  acl : Map Word
  queued : List (Word × Nat)
  faults : Nat
  lastRec : Option Nat
  deriving DecidableEq, Repr

/-- A save image in memory (R322, R323, R324): what a frozen partition holds, and, once its source has been torn down, the gates recorded
or exported with it. The layout in memory is the part's own (log 30). -/
structure SaveImage where
  serial : Nat
  kind : Nat                        -- 0 not closed, 4 closed keeping gates, 5 closed exporting gates
  source : Nat
  part : Partition
  work : Work
  cores : Map Deque
  gates : Map Gate
  deriving DecidableEq, Repr

/-! ## The module -/

/-- One word with FP32 reductions whose order the part does not fix (R103): its address, the initial value, the values added, and
the free number that picks the tree. (log 8, DESIGN CHOICE) -/
structure Run where
  addr : Nat
  init : Word
  adds : List Word
  pick : Nat
  deriving DecidableEq, Repr

/-- Main memory: bytes in canonical form (addresses rising, none equal to what an unlisted address reads as), open RADD.F32 runs
(R103) and poisoned 32-byte sectors (R391). -/
structure Memory where
  cells : List Host.Cell
  runs : List Run
  poison : List Nat
  deriving DecidableEq, Repr

/-- Scratchpad memory: bytes keyed space × 2^20 + offset, and poisoned words (R391). An unlisted byte is unspecified (R54). -/
structure Spad where
  cells : List (Nat × Byte)
  poison : List Nat
  next : Nat                        -- MODEL: the next space number
  deriving DecidableEq, Repr

/-- Eight aligned bytes of memory or of the scratchpad as they stood before they were overwritten: what a read that is not ordered after
the write may still return (R97, R100, R101). `born` numbers the write; `l1` says that only an L1 can hold the old bytes, since threads
of the partition wrote the new ones (R75). `paths` are the paths to which a chain from the write may have been carried, `parts` the
partitions whose own synchronisation carries it (R106), `writers` the lanes that wrote (work-group, warp, lane), and `seen` who reads
the new bytes from now on: a core, for its simt reads, 768 + a path, for the engines on it, or 2048 + a partition, for all its L1s.
(log 84, DESIGN CHOICE) -/
structure Late where
  spad : Bool
  unit : Nat
  old : List Byte
  born : Nat
  l1 : Bool
  paths : List Nat
  parts : List Nat
  writers : List (Nat × Nat × Nat)
  seen : List Nat
  deriving DecidableEq, Repr

/-- A black-box record (R356). -/
structure BbRec where
  time : Nat
  code : Nat
  part : Nat
  die : Nat
  src : Nat
  data : Nat
  deriving DecidableEq, Repr

/-- The black box (R356, R357): at most 4,096 records, newest first, the count ever written, and the snapshot control
block; corrections by die with the time of the last record (R394); the time of the last clamp record (R358). -/
structure BlackBox where
  recs : List BbRec
  count : Nat
  nonce0 : DWord
  nonce1 : DWord
  buf : DWord
  snap : Option (List BbRec × Nat)
  corrected : Map (Nat × Nat)
  lastClamp : Option Nat
  deriving DecidableEq, Repr

/-- Boot control (R351), and the measurement of the image that runs (R353). -/
structure Boot where
  version : Nat
  why : Nat
  state : Nat
  image : DWord
  deriving DecidableEq, Repr

/-- Owner election (R347); 15 stands for none. -/
structure Election where
  owner : Nat
  pend : Nat
  target : Nat
  deriving DecidableEq, Repr

/-- The host side (R345 to R353): election, limiters by partition × 16 + port, host window dwords by window × 2 + half, the host's
memory, and the SPDM mailbox: its progress, and the number of the last answer. -/
structure HostSide where
  elect : Election
  limiters : Map Word
  windows : Map DWord
  mem : List (Nat × Byte)
  spdmVersion : Bool
  spdmCaps : Bool
  spdmAlgs : Bool
  answer : Option (Nat × List DWord)
  lastRead : Option (Bool × Nat)
  deriving DecidableEq, Repr

/-- A partition of another module, as the fabric shows it (R316, R404): whether it answers, the bytes of its virtual memory, and its
poisoned 32-byte sectors (R391), by virtual address. -/
structure Remote where
  module : Nat
  part : Nat
  up : Bool
  mem : List (Nat × Byte)
  poison : List Nat
  deriving DecidableEq, Repr

/-- A multicast access to a member on another module that has not answered (R404): sender, group, member, virtual address, time. -/
structure Sent where
  p : Nat
  group : Nat
  member : Nat × Nat
  va : Nat
  since : Nat
  act : ParkedAct
  deriving DecidableEq, Repr

/-- The fabric edge (R326, R332, R333, R408): module id, slot width, fabric time's offset, whether the module is in the time domain,
the peers it knows, and accesses that wait for an answer. -/
structure Fabric where
  module : Nat
  slot : Nat
  base : Nat
  inDomain : Bool
  remotes : List Remote
  sent : List Sent
  deriving DecidableEq, Repr

/-- Power (R308, R310, R354, R355): tokens held, floor, the clock that the clamp allows in MHz, the fractions of the energy counters, in
thousandths of a microjoule, and the transfers whose return has not arrived, module and tokens, oldest first. -/
structure Power where
  held : Nat
  floor : Nat
  clock : Nat
  idle : Map Nat
  sent : List (Nat × Nat)
  deriving DecidableEq, Repr

/-- MODEL: who takes this step: the PC group of a warp with its lanes in rising order, or a sequencer, each with the word it issues
and the word after it; or the part itself, with the step's operands. -/
inductive Issue where
  | none
  | simt (p wg wid : Nat) (lanes : List Nat) (word lit : Nat)
  | seq (p id word lit : Nat)
  | part (args : List Nat)
  deriving DecidableEq, Repr

/-- A step that comes from outside (`inputs`): its row and its operands. A register's writer is a level 0 to 3 for an agent of the
part, or 16 + m for host master m. (log 18, DESIGN CHOICE) -/
structure Input where
  step : Instr
  args : List Nat
  deriving DecidableEq, Repr

/-- The module. `inputs` holds what the outside world and the other masters do, oldest first. MODEL: `tick` numbers the free
values, `tape` holds scheduling choices (the free choice of `Config` when it is empty), `issue` is the agent of this step, `ids`
numbers work-groups, sequencers, tickets and commands, `follow` holds steps that a step or a passed cycle has brought about (a register
write, a fabric-time boundary, a phase timer's expiry), each a step of its own that comes before anything else. `cycle`
counts arithmetic-clock cycles since reset, `dirty` the spans of memory written since the mirrors of migrations last looked (R343), and `lag` how much longer than nominal they have been, in units of
1 / 5,354,228,880 ns (R6). -/
structure State where
  mem : Memory
  spad : Spad
  late : List Late
  dirty : List (Nat × Nat)
  parts : Map Partition
  works : Map Work
  cores : Map Core
  gates : Map Gate
  images : List SaveImage
  boot : Boot
  bb : BlackBox
  host : HostSide
  fabric : Fabric
  power : Power
  cycle : Nat
  lag : Nat
  tick : Nat
  ids : Nat
  issue : Issue
  inputs : List Input
  follow : List Input
  tape : List Nat
  deriving DecidableEq, Repr

/-- Why a step can stop with a fault. -/
inductive Fault where
  /-- Raised by the meaning of an encoded instruction when the state names no agent of its class that issues it. SAFE: the step
  function never runs an instruction so; only a direct call of `exec` can. -/
  | noIssuer
  deriving DecidableEq, Repr

/-- Why a step can refuse. -/
inductive Refusal where
  /-- Raised by the dispatch for an instruction that has no meaning yet, with its mnemonic. SAFE: nothing can be proved of what
  the instruction does. -/
  | notModelled (mnemonic : String)
  deriving DecidableEq, Repr

/-- Every meaning answers one of the three outcomes of the host's interface. -/
abbrev Out := Host.Outcome State Fault Refusal

/-! ## Values after reset -/

/-- An agent that stands at a clause header (R148). -/
def Cursor.at (pc : VAddr) : Cursor := ⟨pc, true, 0, none⟩

def TileRow.zero : TileRow := ⟨List.replicate 64 0, 0, 0, false⟩

/-- A reset tile (R64): H = 4, initial exponent 0, output format FP32, every row zero. -/
def Tile.zero : Tile := ⟨List.replicate 64 TileRow.zero, 4, 0, 0⟩

/-- A core with nothing on it. -/
def Core.empty : Core := ⟨[0, 1, 2, 3], ⟨0, []⟩, 0, List.replicate 8 Tile.zero, 0, false, 0, [0, 0, 0, 0]⟩

/-- A queue after reset (R124). -/
def Queue.empty : Queue := ⟨0, 6, 0, false, 0, 0, [], 0, none⟩

/-- A ring after reset (R236). -/
def Ring.empty : Ring := ⟨0, 1, false, 0, 0, 0⟩

/-- A migration channel after reset (R338). -/
def Channel.empty : Channel := ⟨0, 0, 0, 0, 0, 0, 0, 0, 0, 0, 0, false, []⟩

/-- A group id that names no group (R329). -/
def Group.empty : Group := ⟨[], [], 0, 0, false, false, [], none, [], [], 0, [], none, 0⟩

/-- A gate directory entry after reset (R318). -/
def Gate.empty : Gate := ⟨0, false, false, 0, 0, 0, 0, [], [], 0, none⟩

/-- A partition after reset (R313): descriptor fields zero, in the state off. (log 13, DESIGN CHOICE) -/
def Partition.empty : Partition :=
  ⟨[], .off, false, 0, 1, [], [], ⟨0, 0⟩, ⟨0, 0⟩, 0, [], 0, [], [], [], ⟨false, 0, 0, none⟩, [], 0, [], 0⟩

/-- No work. -/
def Work.empty : Work := ⟨[], [], [], [], [], [], [], [], [], [], [], [], []⟩

/-- The module right after cold reset (R9, R351, R356): no partition active, memory with nothing listed, boot waiting for an image,
no owner, 320 tokens, the nominal clock, the 250 ns slot. (log 12, DESIGN CHOICE) (log 14, DESIGN CHOICE) -/
def State.reset : State where
  mem := ⟨[], [], []⟩
  spad := ⟨[], [], 1⟩
  late := []
  dirty := []
  parts := []
  works := []
  cores := []
  gates := []
  images := []
  boot := ⟨0, 0, 0, 0⟩
  bb := ⟨[], 0, 0, 0, 0, none, [], none⟩
  host := ⟨⟨15, 15, 0⟩, [], [], [], false, false, false, none, none⟩
  fabric := ⟨0, 250, 0, true, [], []⟩
  power := ⟨320, 0, 2400, [], []⟩
  cycle := 0
  lag := 0
  tick := 0
  ids := 1
  issue := .none
  inputs := []
  follow := []
  tape := []

end Sys2Proof.Machine
end

