-- ==== Sys2Proof/Machine/Mem.lean ====
section
/-!
DEFINITION. Main memory and the scratchpad as bytes: reads, writes, wide values in little-endian order (R7, R91), FP32 reduction runs
(R103), poison (R391). Memory keeps one canonical form, `cellsWf`.
-/
namespace Sys2Proof.Machine

/-- What a byte of memory that nothing has written reads as (log 4). -/
def unwritten : Byte := 0

/-- The canonical form: addresses rise strictly, and no cell equals what an unlisted address reads as. -/
def cellsWf : List Host.Cell → Bool
  | [] => true
  | [(_, v)] => v != unwritten
  | (a, v) :: (b, w) :: r => decide (a < b) && v != unwritten && cellsWf ((b, w) :: r)

/-- The byte that the cells hold at an address. -/
def cellAt : List Host.Cell → Nat → Byte
  | [], _ => unwritten
  | (b, v) :: r, a => if b = a then v else cellAt r a

/-- The cells with a byte written. -/
def writeCell : List Host.Cell → Nat → Byte → List Host.Cell
  | [], a, v => if v = unwritten then [] else [(a, v)]
  | (b, w) :: r, a, v =>
    if a < b then (if v = unwritten then (b, w) :: r else (a, v) :: (b, w) :: r)
    else if a = b then (if v = unwritten then r else (a, v) :: r)
    else (b, w) :: writeCell r a v

/-- The bytes of a number, lowest first. -/
def bytesOf : Nat → Nat → List Byte
  | 0, _ => []
  | n + 1, v => BitVec.ofNat 8 v :: bytesOf n (v / 256)

/-- The number of bytes, lowest first. -/
def ofBytes : List Byte → Nat
  | [] => 0
  | b :: r => b.toNat + 256 * ofBytes r

/-- Bytes with their addresses from `a` on. -/
def located : Nat → List Byte → List (Nat × Byte)
  | _, [] => []
  | a, b :: r => (a, b) :: located (a + 1) r

/-- The value of an open reduction run (R103): the value of some tree over the value before the run and every operand. -/
def Run.value (r : Run) : Word := freeSum r.pick (r.init :: r.adds)

/-- The open run that holds an address. -/
def Memory.runAt (m : Memory) (a : Nat) : Option Run := m.runs.find? fun r => decide (r.addr = a / 4 * 4)

/-- The byte of memory at a physical address. -/
def Memory.byte (m : Memory) (a : Nat) : Byte :=
  match m.runAt a with
  | some r => BitVec.ofNat 8 (r.value.toNat / 256 ^ (a % 4))
  | none => cellAt m.cells a

/-- `n` bytes from an address on. -/
def Memory.bytes (m : Memory) : Nat → Nat → List Byte
  | _, 0 => []
  | a, n + 1 => m.byte a :: m.bytes (a + 1) n

/-- The little-endian value of `n` bytes. -/
def Memory.read (m : Memory) (a n : Nat) : Nat := ofBytes (m.bytes a n)

/-- Cells with located bytes written in order. -/
def writeCells (c : List Host.Cell) : List (Nat × Byte) → List Host.Cell
  | [] => c
  | (a, b) :: r => writeCells (writeCell c a b) r

/-- An open run at the word of an address is closed: its value becomes plain bytes. -/
def Memory.settle (m : Memory) (a : Nat) : Memory :=
  match m.runAt a with
  | some r => { m with cells := writeCells m.cells (located r.addr (bytesOf 4 r.value.toNat)),
                       runs := m.runs.filter fun x => decide (x.addr ≠ r.addr) }
  | none => m

/-- The memory with a byte written. -/
def Memory.writeByte (m : Memory) (a : Nat) (v : Byte) : Memory :=
  let m' := m.settle a
  { m' with cells := writeCell m'.cells a v }

/-- The memory with located bytes written in order. -/
def Memory.writeAll (m : Memory) : List (Nat × Byte) → Memory
  | [] => m
  | (a, v) :: r => (m.writeByte a v).writeAll r

/-- The sectors that a span of bytes covers whole, for the clearing of poison (R391); `unit` is the poisoned unit's size. -/
def wholeUnits (unit a n : Nat) : List Nat :=
  let lo := (a + unit - 1) / unit
  upto lo ((a + n) / unit - lo)

/-- The poisoned unit numbers that a span touches. -/
def touchesPoison (unit : Nat) (poison : List Nat) (a n : Nat) : Bool :=
  poison.any fun u => decide (u * unit < a + n) && decide (a < (u + 1) * unit)

/-- Whether a span of memory touches a poisoned 32-byte sector (R391). -/
def Memory.poisoned (m : Memory) (a n : Nat) : Bool := touchesPoison 32 m.poison a n

/-- A write of consecutive bytes (R391): a sector that it covers whole loses its poison. -/
def Memory.write (m : Memory) (a : Nat) (bs : List Byte) : Memory :=
  let m' := m.writeAll (located a bs)
  let whole := wholeUnits 32 a bs.length
  { m' with poison := m.poison.filter fun u => !whole.contains u }

/-- A span's sectors poisoned (R391). -/
def Memory.poisonSpan (m : Memory) (a n : Nat) : Memory :=
  { m with poison := (upto (a / 32) ((a + n + 31) / 32 - a / 32)).foldl (fun l u => if l.contains u then l else u :: l) m.poison }

/-- The sector at an address is sound (R391). -/
def Memory.sound (m : Memory) (a : Nat) : Memory := { m with poison := m.poison.filter (· != a / 32) }

/-- An FP32 reduction into a word (R103): it joins the run that stands there, or opens one over the word's value. -/
def Memory.raddF32 (m : Memory) (a : Nat) (v : Word) (pick : Nat) : Memory :=
  match m.runAt a with
  | some r => { m with runs := m.runs.map fun x => if x.addr = r.addr then { x with adds := x.adds ++ [v] } else x }
  | none => { m with runs := ⟨a / 4 * 4, BitVec.ofNat 32 (m.read (a / 4 * 4) 4), [v], pick⟩ :: m.runs }

/-- The memory is in canonical form (the guide's invariant), and no run stands twice at one word. -/
def Memory.wf (m : Memory) : Bool := cellsWf m.cells

/-! ## Scratchpad (R78, R81) -/

/-- The key of a scratchpad byte: its space number and offset. -/
def spadKey (space off : Nat) : Nat := space * 1048576 + off

/-- The scratchpad byte under a key; a byte that nothing has written is unspecified (R54). (log 3, DESIGN CHOICE) -/
def Spad.byte (s : Spad) (k : Nat) : Byte :=
  match find s.cells k with
  | some v => v
  | none => Config.freeByte k

def Spad.bytes (s : Spad) : Nat → Nat → List Byte
  | _, 0 => []
  | k, n + 1 => s.byte k :: s.bytes (k + 1) n

def Spad.writeAll (s : Spad) : List (Nat × Byte) → Spad
  | [] => s
  | (k, v) :: r => Spad.writeAll { s with cells := put s.cells k v } r

/-- Whether a span of scratchpad touches a poisoned word (R391). -/
def Spad.poisoned (s : Spad) (k n : Nat) : Bool := touchesPoison 4 s.poison k n

/-- A write of consecutive bytes; a word that it covers whole loses its poison. -/
def Spad.write (s : Spad) (k : Nat) (bs : List Byte) : Spad :=
  let s' := s.writeAll (located k bs)
  let whole := wholeUnits 4 k bs.length
  { s' with poison := s.poison.filter fun u => !whole.contains u }

/-- A word of the scratchpad poisoned. -/
def Spad.poisonWord (s : Spad) (k : Nat) : Spad :=
  if s.poison.contains (k / 4) then s else { s with poison := k / 4 :: s.poison }

/-- The words of a span of the scratchpad poisoned. -/
def Spad.poisonSpan (s : Spad) (k n : Nat) : Spad := (upto (k / 4) ((k + n + 3) / 4 - k / 4)).foldl (fun y u => y.poisonWord (4 * u)) s

/-- Pages of the scratchpad, numbered by space and page, written to their backing: poison takes the whole 32-byte sector (R81, R391). -/
def Spad.backed (s : Spad) (page : Nat → Bool) : Spad :=
  { s with poison := nub (s.poison.flatMap fun u => if page (u / 1024) then upto (u / 8 * 8) 8 else [u]) }

end Sys2Proof.Machine
end

