-- ==== Sys2Proof/Machine/Ops.lean ====
section
/-!
DEFINITION. The named operations over the state: accessors of partitions, work-groups, warps, lanes and registers; who issues; the
end of an issue slot (R19, R23, R153); taking a trap, entering a handler and returning from it (R303, R367 to R375), each once for
every instruction; the black box (R356).
-/
namespace Sys2Proof.Machine

/-! ## Parts of the state -/

def State.part (s : State) (p : Nat) : Partition := findD s.parts p Partition.empty
def State.modPart (s : State) (p : Nat) (f : Partition → Partition) : State :=
  { s with parts := put s.parts p (f (s.part p)) }
def State.work (s : State) (p : Nat) : Work := findD s.works p Work.empty
def State.modWork (s : State) (p : Nat) (f : Work → Work) : State :=
  { s with works := put s.works p (f (s.work p)) }
def State.coreOf (s : State) (c : Nat) : Core := findD s.cores c Core.empty
def State.modCore (s : State) (c : Nat) (f : Core → Core) : State :=
  { s with cores := put s.cores c (f (s.coreOf c)) }
def State.gate (s : State) (n : Nat) : Gate := findD s.gates n Gate.empty
def State.modGate (s : State) (n : Nat) (f : Gate → Gate) : State :=
  { s with gates := put s.gates n (f (s.gate n)) }

def Work.wg (w : Work) (id : Nat) : Option WorkGroup := w.wgs.find? (·.id == id)
def Work.modWg (w : Work) (id : Nat) (f : WorkGroup → WorkGroup) : Work :=
  { w with wgs := updFirst (·.id == id) f w.wgs }
def WorkGroup.warp (g : WorkGroup) (wid : Nat) : Option Warp := g.warps.find? (·.wid == wid)
def WorkGroup.modWarp (g : WorkGroup) (wid : Nat) (f : Warp → Warp) : WorkGroup :=
  { g with warps := updFirst (·.wid == wid) f g.warps }

def State.modWg (s : State) (p wg : Nat) (f : WorkGroup → WorkGroup) : State := s.modWork p fun w => w.modWg wg f
def State.modWarp (s : State) (p wg wid : Nat) (f : Warp → Warp) : State := s.modWg p wg fun g => g.modWarp wid f
def State.warp (s : State) (p wg wid : Nat) : Option Warp := (s.work p).wg wg >>= fun g => g.warp wid

def Work.launch (w : Work) (seq : Nat) : Option Launch := find w.launches seq
def Work.modLaunch (w : Work) (seq : Nat) (f : Launch → Launch) : Work :=
  match find w.launches seq with
  | some l => { w with launches := put w.launches seq (f l) }
  | none => w

def Work.seqOf (w : Work) (id : Nat) : Option Seq := w.seqs.find? (·.id == id)
def Work.modSeq (w : Work) (id : Nat) (f : Seq → Seq) : Work :=
  { w with seqs := updFirst (·.id == id) f w.seqs }
def State.modSeq (s : State) (p id : Nat) (f : Seq → Seq) : State := s.modWork p fun w => w.modSeq id f

/-- The state with the next number taken; the number is the old `ids`. -/
def State.fresh (s : State) : State := { s with ids := s.ids + 1 }

/-! ## Places (R2, R4, R312) -/

def sliceOfCore (c : Nat) : Nat := c / 64
def clusterOfCore (c : Nat) : Nat := c / 32
def dieOfSlice (sl : Nat) : Nat := sl / 3
/-- First slice and length of a partition shape (R312). -/
def shape (p : Nat) : Nat × Nat :=
  if p < 12 then (p, 1) else if p < 18 then (2 * (p - 12), 2) else if p < 22 then (3 * (p - 18), 3)
  else if p < 25 then (4 * (p - 22), 4) else if p < 27 then (6 * (p - 25), 6) else (0, 12)
def firstSlice (p : Nat) : Nat := (shape p).1
def sliceCount (p : Nat) : Nat := (shape p).2
/-- Whether a core is the partition's (R312). -/
def ownsCore (p c : Nat) : Bool := decide (64 * firstSlice p ≤ c) && decide (c < 64 * (firstSlice p + sliceCount p))

/-! ## What a read may still return (R75, R97, R100, R101, R106) -/

/-- The aligned 8-byte units of a span. -/
def unitsIn (a n : Nat) : List Nat := upto (a / 8) ((a + n + 7) / 8 - a / 8)

/-- A reader that from now on reads what has been written. -/
def Late.saw (x : Late) (k : Nat) : Late := if x.seen.contains k then x else { x with seen := k :: x.seen }

/-- An overwritten unit joins the list: while no core has seen the write before it, the older bytes stay, and ordering after either write
ends them; else it takes the place of what stood there. -/
def addLate (e : Late) : List Late → List Late
  | [] => [e]
  | x :: r =>
    if x.spad == e.spad && x.unit == e.unit then
      (if x.seen.all (768 ≤ ·) then
        { x with l1 := x.l1 && e.l1, paths := nub (e.paths ++ x.paths), parts := nub (e.parts ++ x.parts),
                 writers := nub (e.writers ++ x.writers), seen := nub (e.seen ++ x.seen) }
      else e) :: r
    else x :: addLate e r

/-- Whether rows move somewhere, so that writes are mirrored (R343). -/
def State.moving (s : State) : Bool := s.parts.any fun e => e.2.channels.any fun c => c.2.state == 1

/-- A WRITE IS ABOUT TO BE MADE on a path, by a lane, if it is one's: what stands in its units may still be read by those who are not
ordered after it, and mirrors carry it over. -/
def State.wrote (s : State) (spad : Bool) (ps : List Nat) (path : Nat) (who : List (Nat × Nat × Nat)) (a n : Nat) : State :=
  { s with
    dirty := if !spad && s.moving then (a, n) :: s.dirty else s.dirty
    late := (unitsIn a n).foldl (fun l u =>
      addLate ⟨spad, u, if spad then s.spad.bytes (8 * u) 8 else s.mem.bytes (8 * u) 8, s.tick, path == 0, [path], ps, who,
        [768 + path]⟩ l) s.late }

/-- AN ACQUIRE on a core (R101): its threads read from now on what a chain on the simt path may have brought them. -/
def State.acquireOn (s : State) (p core : Nat) : State :=
  { s with late := s.late.map fun x => if x.paths.contains 0 && x.parts.contains p then x.saw core else x }

/-- A BRIDGE from one path to another (R96), passed on a core: chains that one carries go on to the other; one that reaches simt has
brought the core what it carries. -/
def State.bridgeOn (s : State) (p core a b : Nat) : State :=
  let s1 := { s with late := s.late.map fun x => if x.paths.contains a then { x with paths := nub (b :: x.paths) } else x }
  if b = 0 then s1.acquireOn p core else s1

/-- The bridge of a sequencer's SLDA, from every path to its own (R96): its engines read from now on what has been written. -/
def State.bridgeAll (s : State) (path : Nat) : State :=
  { s with late := s.late.map fun x => { x.saw (768 + path) with paths := nub (path :: x.paths) } }

/-- A bridge between the engines of two paths (R96): those on the second read from now on what chains on the first may have brought. -/
def State.bridgePath (s : State) (a b : Nat) : State :=
  { s with late := s.late.map fun x => if x.paths.contains a then { x.saw (768 + b) with paths := nub (b :: x.paths) } else x }

/-- A sequencer on a path starts or passes a bridge to it (R96): its engines read what chains on that path may have brought. -/
def State.startOn (s : State) (p path : Nat) : State :=
  { s with late := s.late.map fun x => if x.paths.contains path && x.parts.contains p then x.saw (768 + path) else x }

/-- An acquire of a gate on a core (R107): what other tenants have written counts from now on as what the partition's own agents have. -/
def State.gateAcquire (s : State) (p core : Nat) : State :=
  ({ s with late := s.late.map fun x => { x with parts := nub (p :: x.parts) } } : State).acquireOn p core

/-- Work comes to a core: nothing that has been overwritten is read there any more. -/
def State.cleanCore (s : State) (core : Nat) : State := { s with late := s.late.map fun x => x.saw core }

/-- The L1s of a partition, of one core or of all, lose lines (R307). -/
def Late.dropped (x : Late) (p : Nat) (core : Option Nat) : Late :=
  if x.l1 && x.parts.contains p then x.saw (match core with
    | some c => c
    | none => 2048 + p)
  else x

/-- Whether a read of a lane on the simt path can find the old bytes: an L1 holds no scratchpad, is bypassed but on pages with CL = 0
(R75), and may have lost the line. -/
def Late.shows (x : Late) (p core : Nat) (who : Nat × Nat × Nat) (cached : Bool) : Bool :=
  !x.seen.contains core && !x.writers.contains who &&
    (!(x.l1 && x.parts.contains p) || (cached && !x.spad && !x.seen.contains (2048 + p)))

/-- The byte that a read finds: the old one of a unit of which a test says so, or the one that stands. -/
def State.lateByte (s : State) (spad : Bool) (t : Late → Bool) (a : Nat) : Byte :=
  match s.late.find? fun x => x.spad == spad && x.unit == a / 8 && t x with
  | some x => x.old.getD (a % 8) 0
  | none => if spad then s.spad.byte a else s.mem.byte a

def State.lateBytes (s : State) (spad : Bool) (t : Late → Bool) : Nat → Nat → List Byte
  | _, 0 => []
  | a, n + 1 => s.lateByte spad t a :: s.lateBytes spad t (a + 1) n

/-- A read on a core has found the new bytes of the units of a span, but where a test says that it found the old ones: no later read there
goes back (R100). -/
def State.hasRead (s : State) (core : Nat) (spad : Bool) (t : Late → Bool) (a n : Nat) : State :=
  { s with late := s.late.map fun x => if x.spad == spad && (unitsIn a n).contains x.unit && !t x then x.saw core else x }

/-- A read of an engine on a path: for every overwritten unit a free value says which bytes the engines on it find, until ordering
decides (R96, R100). -/
def Late.showsEngine (x : Late) (path : Nat) : Bool :=
  !x.seen.contains (768 + path) && Config.keepsWord (2 * (x.born * 2 ^ 40 + x.unit * 8 + path))

/-! ## Time (R6, R332) -/

/-- The arithmetic clock in MHz (R6, R308, R355): what the clamp allows, or the lowest of the locks in force. (log 11, DESIGN CHOICE) -/
def State.clockMhz (s : State) : Nat :=
  s.parts.foldl (fun m e => if e.2.state = .off ∨ e.2.clk.mhz = 0 then m else min m e.2.clk.mhz) s.power.clock

/-- What a cycle takes longer than the nominal 5/12 ns, in units of 1 / 5,354,228,880 ns, which every clock of whole 100 MHz divides. -/
def State.cycleLag (s : State) : Nat := 53542288800 / max 1 (s.clockMhz / 100) - 2230928700

/-- Fabric time in nanoseconds: at the nominal 2.4 GHz twelve cycles in five nanoseconds, longer under a lower clock (R6). -/
def State.time (s : State) : Nat := s.fabric.base + (s.cycle * 2230928700 + s.lag) / 5354228880

/-! ## The black box (R356) -/

def State.bbWrite (s : State) (code part die src data : Nat) : State :=
  { s with bb := { s.bb with recs := (⟨s.time, code, part, die, src, data % 4294967296⟩ :: s.bb.recs).take 4096,
                             count := s.bb.count + 1 } }

/-! ## Cursors (R18, R148) -/

/-- The address of the next instruction word (R19). -/
def Cursor.next (c : Cursor) : VAddr := if c.hdr then c.pc + 4 else c.pc
/-- Whether an agent stands at an address (R18). -/
def Cursor.stands (c : Cursor) (x : VAddr) : Bool :=
  c.pc == x || (c.hdr && c.pc + 4 == x) || (c.first.isSome && x + 4 == c.pc)
/-- The address at which it stands, as HPC shows it (R309). -/
def Cursor.place (c : Cursor) : VAddr := c.pc
/-- The cursor past an instruction of `n` words. -/
def Cursor.past (c : Cursor) (n : Nat) : Cursor :=
  let pc := c.pc + BitVec.ofNat 56 (4 * n)
  if c.rem ≤ n then Cursor.at pc else ⟨pc, false, c.rem - n, none⟩

/-! ## Registers (R57, R58) -/

def regKey (r l : Nat) : Nat := r * 32 + l

/-- What a register reads: the value written, or what unwritten registers read. (log 1, DESIGN CHOICE) -/
def Warp.reg (w : Warp) (r l : Nat) : Word :=
  match find w.regs (regKey r l) with
  | some v => v
  | none =>
    match w.fill with
    | .zero => 0
    | .free seed => if w.zeroed ≤ r then 0 else Config.freeReg seed (regKey r l)

/-- A register written in full; its poison is cleared (R392). -/
def Warp.setReg (w : Warp) (r l : Nat) (v : Word) : Warp :=
  { w with regs := put w.regs (regKey r l) v, poison := w.poison.filter (· != regKey r l) }

def Warp.setRegs (w : Warp) (l : Nat) : List (Nat × Word) → Warp
  | [] => w
  | (r, v) :: rest => (w.setReg r l v).setRegs l rest

/-- The dword of a pair (R58). -/
def Warp.pair (w : Warp) (r l : Nat) : DWord := DWord.ofPair (w.reg r l) (w.reg (r + 1) l)

/-- The registers of a lane below the allocation, in order. -/
def Warp.rowOf (w : Warp) (l : Nat) : List Word := (upto 0 (8 * w.alloc)).map fun r => w.reg r l

/-! ## Lanes -/

def Lane.empty : Lane := ⟨.empty, ⟨0, false, 0, none⟩, 0, .free, [], [], 0, 0⟩

def Warp.lane (w : Warp) (l : Nat) : Lane := w.lanes.getD l Lane.empty

/-- Lanes by number from `i` on, those of `ls` changed. -/
def mapLanes (ls : List Nat) (f : Lane → Lane) : Nat → List Lane → List Lane
  | _, [] => []
  | i, x :: r => (if ls.contains i then f x else x) :: mapLanes ls f (i + 1) r

def Warp.modLanes (w : Warp) (ls : List Nat) (f : Lane → Lane) : Warp := { w with lanes := mapLanes ls f 0 w.lanes }

/-- The numbers of the lanes that a test accepts, in rising order. -/
def lanesFrom (t : Lane → Bool) : Nat → List Lane → List Nat
  | _, [] => []
  | i, x :: r => if t x then i :: lanesFrom t (i + 1) r else lanesFrom t (i + 1) r
def Warp.lanesWhere (w : Warp) (t : Lane → Bool) : List Nat := lanesFrom t 0 w.lanes

/-- Lanes that hold a thread which has neither exited nor retired (R179). -/
def Warp.live (w : Warp) : List Nat := w.lanesWhere (·.status == .running)

/-- A mask with the bits of some lanes. -/
def maskOf (ls : List Nat) : Word := ls.foldl (fun m l => m ||| BitVec.ofNat 32 (2 ^ l)) 0
def maskHas (m : Word) (l : Nat) : Bool := m.getLsbD l
def Warp.mask (w : Warp) (m : Nat) : Word := w.masks.getD m 0
def Warp.setMask (w : Warp) (m : Nat) (v : Word) : Warp := { w with masks := w.masks.set m v }
/-- Lanes leave all twelve masks (R21). -/
def Warp.leaveAll (w : Warp) (ls : List Nat) : Warp := { w with masks := w.masks.map fun m => m &&& ~~~(maskOf ls) }

/-- A lane issues nothing while a result whose window has ended is not written (R153). -/
def Lane.blocked (x : Lane) (hm : Bool) : Bool := x.results.any fun r => r.window == 0 && r.hm == hm

/-! ## Who issues -/

/-- The issuing PC group (R19): partition, work-group, warp, lanes in rising order, word and literal. -/
structure Ctx where
  p : Nat
  wg : Nat
  wid : Nat
  lanes : List Nat
  word : Nat
  lit : Nat
  deriving DecidableEq, Repr

/-- Words of the instruction (R157). -/
def Ctx.size (c : Ctx) : Nat := if c.word / 33554432 % 64 = 63 then 2 else 1
/-- The lowest-numbered lane of the group (R62). -/
def Ctx.l0 (c : Ctx) : Nat := c.lanes.headD 0

/-- Runs a meaning for the issuing PC group. -/
def withGroup (s : State) (k : Ctx → WorkGroup → Warp → Out) : Out :=
  match s.issue with
  | .simt p wg wid lanes word lit =>
    match (s.work p).wg wg with
    | some g =>
      match g.warp wid with
      | some w => k ⟨p, wg, wid, lanes, word, lit⟩ g w
      | none => .fault .noIssuer
    | none => .fault .noIssuer
  | _ => .fault .noIssuer

/-- The address of the instruction that issues (R372: the handler has a PC of its own). -/
def Warp.pcOf (w : Warp) (c : Ctx) : VAddr := if w.trap.hm then w.trap.hcur.next else (w.lane c.l0).cur.next

/-- Words left in the clause from the instruction on (R148). -/
def Warp.remOf (w : Warp) (c : Ctx) : Nat := if w.trap.hm then w.trap.hcur.rem else (w.lane c.l0).cur.rem

/-- The level at which a warp's lanes run (R300). -/
def privOf (g : WorkGroup) (w : Warp) : Nat := if w.trap.hm then max 1 g.priv else g.priv

/-- The operands of a step of the part. -/
def State.args (s : State) : List Nat :=
  match s.issue with
  | .part l => l
  | _ => []
def State.arg (s : State) (n : Nat) : Nat := s.args.getD n 0

/-! ## Taking a trap (R367 to R370) -/

/-- A cause raised in a warp: its bit is set; the TVAL of the first raising stays (R309). -/
def TrapState.raise (t : TrapState) (bit : Nat) (tval : DWord) : TrapState :=
  if t.cause.getLsbD bit then t
  else { t with cause := t.cause ||| BitVec.ofNat 32 (2 ^ bit), tvals := put t.tvals bit tval }

def TrapState.raiseAll (t : TrapState) : List (Nat × DWord) → TrapState
  | [] => t
  | (b, v) :: r => (t.raise b v).raiseAll r

/-- The work-group halts for a trap of warp `wid` (R369), and SKID counts afresh; a trap taken before stands. -/
def WorkGroup.halted (g : WorkGroup) (wid : Nat) : WorkGroup :=
  match g.halt with
  | .running =>
    { g with halt := .stopping wid, warps := g.warps.map fun w => { w with trap := { w.trap with skid := 0 } } }
  | _ => g

/-- Whether a warp issues as a sibling of a warp whose trap was taken (R369). (log 56, DESIGN CHOICE) -/
def WorkGroup.skids (g : WorkGroup) (wid : Nat) : Bool :=
  match g.halt with
  | .stopping k => k != wid
  | _ => false

/-- A cause is raised in a warp from outside its instructions: the work-group halts, and the lanes stand where they stood. -/
def State.raiseWarp (s : State) (p wg wid bit : Nat) (tval : DWord) : State :=
  s.modWg p wg fun g => (g.modWarp wid fun w => { w with trap := w.trap.raise bit tval }).halted wid

/-- A core has consumed poison (R392, R394): the record that goes with a data error. -/
def State.notePoison (s : State) (p wg : Nat) (causes : List (Nat × DWord)) : State :=
  if causes.any fun e => e.1 == 28 then
    s.bbWrite 0x0202 p (match (s.work p).wg wg with
      | some g => dieOfSlice (sliceOfCore g.core)
      | none => 0) 0 28
  else s

/-- The windows of a handler's lane shrink (R153, R372). -/
def Lane.handled (x : Lane) : Lane :=
  { x with results := x.results.map fun r => if r.hm then { r with window := r.window - 1 } else r }

/-- TAKING A TRAP, the one operation of every instruction that raises causes (R367, R369, R373). Outside handler mode the bits are
set, the work-group halts, and the group's lanes stand at the instruction, which has no effect; a sibling's skid counts it. In
handler mode the bits are set in the handling warp and the handler goes on at the next instruction, which its windows count (R153). A word
of two that is its clause's last leaves no second one to pass. -/
def raiseTrap (s : State) (c : Ctx) (causes : List (Nat × DWord)) : State :=
  (s.notePoison c.p c.wg causes).modWg c.p c.wg fun g =>
    (g.modWarp c.wid fun w =>
      if w.trap.hm then { w with
        trap := { w.trap.raiseAll causes with hcur := w.trap.hcur.past (min c.size (max 1 w.trap.hcur.rem)) },
        lanes := mapLanes c.lanes Lane.handled 0 w.lanes }
      else { w with trap := { w.trap.raiseAll causes with skid := w.trap.skid + (if g.skids c.wid then 1 else 0) } }).halted c.wid

def causeIllegal : Nat := 0
def causeOperand : Nat := 1
def causeRange : Nat := 2
def causeAllocation : Nat := 3
def causePrivilege : Nat := 4
def causeSoftware : Nat := 5
def causeBreak : Nat := 6
def causeWatch : Nat := 7
def causeStep : Nat := 8
def causePhase : Nat := 9
def causeConflict : Nat := 10
def causeSchema : Nat := 11
def causeTable : Nat := 12
def causeOverflow : Nat := 13
def causeFanOut : Nat := 14
def causeContFull : Nat := 15
def causeJoin : Nat := 16
def causeAddress : Nat := 17
def causeTranslation : Nat := 18
def causePermission : Nat := 19
def causeWindow : Nat := 20
def causeAlignment : Nat := 21
def causeSpad : Nat := 22
def causeFormat : Nat := 23
def causeRing : Nat := 24
def causeGate : Nat := 25
def causeRate : Nat := 26
def causeSeq : Nat := 27
def causeData : Nat := 28

/-- The TVAL that holds the instruction word (R367). -/
def Ctx.wordTval (c : Ctx) : DWord := BitVec.ofNat 64 (c.word % 4294967296)

/-- One cause with the instruction word as TVAL. -/
def trapWord (s : State) (c : Ctx) (bit : Nat) : Out := .next (raiseTrap s c [(bit, c.wordTval)])

/-- Register-range (R367): the word, and the register number above it. -/
def trapRange (s : State) (c : Ctx) (r : Nat) : Out :=
  .next (raiseTrap s c [(causeRange, BitVec.ofNat 64 (c.word % 4294967296 + r * 4294967296))])

/-! ## The end of an issue slot -/

/-- A lane that has issued an instruction: its open windows shrink (R153), its age ends. -/
def Lane.issued (x : Lane) : Lane :=
  { x with age := 0, results := x.results.map fun r => if r.hm then r else { r with window := r.window - 1 } }

/-- The wait of mask `m` at address `x` is met: every member of the mask stands at `x` (R23). -/
def Warp.met (w : Warp) (m : Nat) (x : VAddr) : Bool :=
  (upto 0 32).all fun l => !maskHas (w.mask m) l || (w.lane l).cur.stands x

/-- The mask and meeting address of a lane held in WAITM. -/
def Lane.waitAt (x : Lane) : Option (Nat × VAddr) :=
  match x.hold with
  | .waitm m a => some (m, a)
  | _ => none

/-- Whether a lane is held, and so belongs to no PC group (R19, R238). -/
def Hold.held : Hold → Bool
  | .waitm _ _ => true
  | .lbar _ => true
  | .wait => true
  | _ => false

/-- A lane after the release of mask `m` at `x` (R23): held lanes go on past the WAITM, and members that stand at `x` without being
held go with them, also one that sleeps there, which goes on from the instruction after it. -/
def Lane.released (m : Nat) (x : VAddr) (to_ : Cursor) (member : Bool) (y : Lane) : Lane :=
  match y.waitAt with
  | some (k, a) => if k == m && a == x then { y with hold := .free, cur := to_ } else y
  | none => if member && y.status == .running && !y.hold.held && y.cur.stands x then { y with cur := to_ } else y

/-- Lanes by number from `i` on after the release. -/
def releaseLanes (mask : Word) (m : Nat) (x : VAddr) (to_ : Cursor) : Nat → List Lane → List Lane
  | _, [] => []
  | i, y :: r => y.released m x to_ (maskHas mask i) :: releaseLanes mask m x to_ (i + 1) r

/-- One WAITM hold, of lane `l`, tested and released (R23). -/
def Warp.testWait (w : Warp) (l : Nat) : Warp :=
  match (w.lane l).waitAt with
  | some (m, x) =>
    if w.met m x then { w with lanes := releaseLanes (w.mask m) m x ((w.lane l).cur.past 1) 0 w.lanes } else w
  | none => w

/-- Every WAITM hold of the warp is tested (R23). The holds met are fixed before any lane moves. -/
def Warp.testWaits (w : Warp) : Warp :=
  ((upto 0 w.lanes.length).filter fun l =>
    match (w.lane l).waitAt with
    | some (m, x) => w.met m x
    | none => false).foldl (fun y l =>
      match (y.lane l).waitAt with
      | some (m, x) => { y with lanes := releaseLanes (y.mask m) m x ((y.lane l).cur.past 1) 0 y.lanes }
      | none => y) w

/-- The step flag acts once the warp has issued one instruction (R310). -/
def Warp.stepFlag (w : Warp) : Warp :=
  if w.trap.ssLeft then { w with trap := { w.trap.raise causeStep 0 with ssLeft := false } } else w

/-- A warp whose group `ls` has issued an instruction of `n` words, and of which the lanes `adv` go on past it (R19, R153, R369). In
handler mode the handler's own PC goes on (R372). -/
def Warp.issued (w : Warp) (ls adv : List Nat) (n : Nat) (skid : Bool) : Warp :=
  if w.trap.hm then
    { w with retired := w.retired + 1, trap := { w.trap with hcur := w.trap.hcur.past n },
             lanes := mapLanes ls Lane.handled 0 w.lanes }
  else
    (Warp.testWaits { w with
      retired := w.retired + 1, readyAge := 0, turn := ls, turnEnd := false,
      trap := { w.trap with skid := w.trap.skid + (if skid then 1 else 0) },
      lanes := mapLanes adv (fun x => { x with cur := x.cur.past n }) 0 (mapLanes ls Lane.issued 0 w.lanes) }).stepFlag

/-- Whether the step flag stops the work-group after this instruction. -/
def Warp.steps (w : Warp) : Bool := w.trap.ssLeft && !w.trap.hm

/-- THE END OF AN ISSUE SLOT: the instruction of the group has completed, and the lanes `adv` of it go on past it. -/
def retireTo (s : State) (c : Ctx) (adv : List Nat) : State :=
  s.modWg c.p c.wg fun g =>
    let g' := g.modWarp c.wid fun w => w.issued c.lanes adv c.size (g.skids c.wid)
    match g.warp c.wid with
    | some w => if w.steps then g'.halted c.wid else g'
    | none => g'

/-- The whole group goes on. -/
def retire (s : State) (c : Ctx) : State := retireTo s c c.lanes

/-- An instruction that cannot issue in this slot (R24): nothing happens, and the group counts as not runnable. -/
def stall (s : State) (c : Ctx) : State := s.modWarp c.p c.wg c.wid fun w => w.modLanes c.lanes fun x => { x with age := 0 }

/-- The issuing group's lanes go to given places: a transfer abandons its clause, and the target is taken as a header (R148). -/
def Warp.jump (w : Warp) (l : Nat) (t : VAddr) : Warp := w.modLanes [l] fun x => { x with cur := Cursor.at t }

/-! ## Handlers (R371 to R375) -/

/-- The lowest set bit of a cause word, below 32. -/
def lowestBit (m : Word) : Option Nat := (upto 0 32).find? fun b => m.getLsbD b

/-- Every result of a warp whose window has ended is written (R370). -/
def Warp.writeEnded (w : Warp) : Warp :=
  (upto 0 w.lanes.length).foldl (fun y l =>
    let x := y.lane l
    let done := x.results.filter fun r => r.window == 0 && r.ready
    (done.foldl (fun z r => z.setRegs l r.vals) y).modLanes [l] fun x =>
      { x with results := x.results.filter fun r => !(r.window == 0 && r.ready) }) w

/-- A warp delivers its lowest pending cause (R371, R303): CUR and TVAL take it, its bit is cleared, and the handler's PC is the
handler's address. -/
def Warp.deliver (w : Warp) (handler : VAddr) : Warp :=
  match lowestBit w.trap.cause with
  | some b =>
    { w with trap := { w.trap with cause := w.trap.cause &&& ~~~(BitVec.ofNat 32 (2 ^ b)), cur := b,
                                   tval := findD w.trap.tvals b 0, tvals := drop w.trap.tvals b, hm := true,
                                   hcur := Cursor.at handler } }
  | none => w

/-- ENTERING THE HANDLER on a warp of a stopped work-group (R371). A debug halt begins with a breakpoint, watch or step cause
(R378). -/
def WorkGroup.enterHandler (g : WorkGroup) (wid : Nat) (handler : VAddr) : WorkGroup :=
  let g' := g.modWarp wid fun w => w.writeEnded.deliver handler
  let dbg := match g.warp wid with
    | some w => (match lowestBit w.trap.cause with
      | some b => b == causeBreak || b == causeWatch || b == causeStep
      | none => false)
    | none => false
  { g' with halt := .handling wid, debug := g.debug || dbg }

/-- Lanes whose PC a handler has changed (R375). -/
def Warp.movedLanes (w : Warp) : List Nat :=
  (w.trap.edits.filter fun e => (w.lane e.1).cur.place != e.2).map (·.1)

/-- The edits of a handler on one warp (R375 items 1, 2 and 4): a moved lane leaves its hold, its windows end, and it stands at its
new address as at the target of a branch; then the WAITM holds are tested. -/
def Warp.applyEdits (w : Warp) : Warp :=
  let moved := w.movedLanes
  let w1 := w.trap.edits.foldl (fun y e =>
    if moved.contains e.1 then y.modLanes [e.1] fun x =>
      { x with cur := Cursor.at e.2, hold := .free, results := x.results.map fun r => { r with window := 0 } } else y) w
  Warp.testWaits { w1 with trap := { w1.trap with edits := [], hm := false, skid := w1.trap.skid, ssLeft := w1.trap.ss } }

/-- The waiter without some lanes; none when none is left. -/
def Waiter.without (x : Waiter) (ls : List Nat) : Option Waiter :=
  let left := x.lanes.filter fun l => !ls.contains l
  if left.isEmpty then none else some { x with lanes := left }

/-- Whether a waiter is a REGGROW request. -/
def Waiter.grows (x : Waiter) : Bool :=
  match x.kind with
  | .reggrow _ _ => true
  | _ => false

/-- Waiters without the lanes that a handler has moved; a REGGROW is withdrawn when any of its lanes has left, and its other lanes issue it
afresh (R375 items 1 and 3). -/
def Work.dropMoved (w : Work) (wg : Nat) (moved : Nat → List Nat) : Work :=
  let gone := w.waiters.filter fun x => x.wg == wg && x.grows && x.lanes.any (moved x.wid).contains
  let w1 := { w with waiters := w.waiters.filterMap fun x =>
    if x.wg == wg && x.lanes.any (moved x.wid).contains then (if x.grows then none else x.without (moved x.wid)) else some x }
  gone.foldl (fun y x => y.modWg wg fun g => g.modWarp x.wid fun v =>
    v.modLanes (x.lanes.filter fun l => !(moved x.wid).contains l) fun z => { z with hold := .free }) w1

/-- RESUMING A WORK-GROUP at the last TRAPRET (R303, R375). -/
def resumeGroup (s : State) (p wg : Nat) : State :=
  s.modWork p fun w =>
    match w.wg wg with
    | some g =>
      let w1 := w.dropMoved wg fun wid => match g.warp wid with
        | some x => x.movedLanes
        | none => []
      w1.modWg wg fun g => { g with warps := g.warps.map Warp.applyEdits, halt := .running, debug := false }
    | none => w

/-- RETURNING FROM A HANDLER (R303, R373): the warp's next pending cause, else the lowest warp with one, else the work-group
resumes. -/
def returnFromHandler (s : State) (p wg wid : Nat) (handler : VAddr) : State :=
  match (s.work p).wg wg with
  | some g =>
    match g.warp wid with
    | some w =>
      if w.trap.cause != 0 then s.modWg p wg fun g => g.enterHandler wid handler
      else
        match ((g.warps.filter fun x => x.trap.cause != 0).map (·.wid)).foldl (fun m x => some (match m with
            | some y => if x % 32 < y % 32 then x else y
            | none => x)) (none : Option Nat) with
        | some k =>
          s.modWg p wg fun g => (g.modWarp wid fun w => { w with trap := { w.trap with hm := false } }).enterHandler k handler
        | none => resumeGroup s p wg
    | none => s
  | none => s

/-! ## Sequencers -/

/-- Runs a meaning for the issuing sequencer. -/
def withSeq (s : State) (k : Nat → Seq → Nat → Nat → Out) : Out :=
  match s.issue with
  | .seq p id word lit =>
    match (s.work p).seqOf id with
    | some q => k p q word lit
    | none => .fault .noIssuer
  | _ => .fault .noIssuer

/-- An s register (R65). -/
def Seq.reg (q : Seq) (r : Nat) : Word := q.regs.getD r 0
def Seq.setReg (q : Seq) (r : Nat) (v : Word) : Seq := { q with regs := q.regs.set r v }
def Seq.pair (q : Seq) (r : Nat) : DWord := DWord.ofPair (q.reg r) (q.reg (r + 1))
def Seq.setPair (q : Seq) (r : Nat) (v : DWord) : Seq := (q.setReg r v.lo).setReg (r + 1) v.hi

end Sys2Proof.Machine
end

