-- ==== Sys2Proof/Machine/Walk.lean ====
section
/-!
DEFINITION. Translation (R69 to R73): the descriptor fields of a partition, the page walk, the TLBs, and the checks of a translation
against permissions, windows and gates (R73, R321, R350).
-/
namespace Sys2Proof.Machine

/-! ## Descriptor fields (R313) -/

/-- The dword of the descriptor at an offset that is a multiple of 8. -/
def Partition.dword (x : Partition) (off : Nat) : Nat := (findD x.desc (off / 8) (0 : DWord)).toNat
/-- Bits [hi:lo] of a number. -/
def bitsOf (v hi lo : Nat) : Nat := v / 2 ^ lo % 2 ^ (hi + 1 - lo)

def Partition.tenant (x : Partition) : Nat := bitsOf (x.dword 0) 63 48
def Partition.ptroot (x : Partition) : Nat := x.dword 8
def Partition.aliastab (x : Partition) : Nat := x.dword 16
def Partition.qpage (x : Partition) : Nat := x.dword 24
def Partition.supq (x : Partition) : Nat := x.dword 32
def Partition.devq (x : Partition) : Nat := x.dword 40
/-- The copy engines assigned (COPYHI above COPYLO). -/
def Partition.copyMask (x : Partition) : Nat := x.dword 48 + bitsOf (x.dword 56) 31 0 * 2 ^ 64
def Partition.crbase (x : Partition) (k : Nat) : Nat := bitsOf (x.dword (64 + 8 * k)) 63 12 * 4096
def Partition.crlog (x : Partition) (k : Nat) : Nat := bitsOf (x.dword (64 + 8 * k)) 4 0
def Partition.enbase (x : Partition) : Nat := x.dword 96
def Partition.encount (x : Partition) : Nat := bitsOf (x.dword 104) 15 0
def Partition.tpbase (x : Partition) : Nat := x.dword 112
def Partition.tpsize (x : Partition) : Nat := x.dword 120
/-- The memory windows in use: base and size. -/
def Partition.windows (x : Partition) : List (Nat × Nat) :=
  (upto 0 8).filterMap fun w =>
    let v := x.dword (128 + 8 * w)
    if bitsOf v 63 58 = 0 then none else some (bitsOf v 51 0, 2 ^ bitsOf v 63 58)
/-- The gate windows in use: base, size, gate, writable. -/
def Partition.gateWindows (x : Partition) : List (Nat × Nat × Nat × Bool) :=
  (upto 0 4).filterMap fun g =>
    let v := x.dword (192 + 8 * g)
    if bitsOf v 63 58 = 0 then none
    else some (bitsOf v 51 16 * 65536, 2 ^ bitsOf v 63 58, bitsOf v 15 4, decide (v % 2 = 1))
def Partition.fedtab (x : Partition) : Nat := x.dword 224
def Partition.fedcount (x : Partition) : Nat := bitsOf (x.dword 232) 5 0
def Partition.gquota (x : Partition) : Nat := bitsOf (x.dword 240) 12 0
def Partition.imageAddr (x : Partition) : Nat := x.dword 248

/-- Whether [base, base + n) lies in one of the partition's memory windows (R73). -/
def Partition.inWindow (x : Partition) (base n : Nat) : Bool :=
  x.windows.any fun w => decide (w.1 ≤ base) && decide (base + n ≤ w.1 + w.2)

/-- A host window whose registers are legal: partition, host base, module base, size (R350). -/
structure HostWin where
  part : Nat
  host : Nat
  base : Nat
  size : Nat
  deriving DecidableEq, Repr

/-- Host window `h`, unless its registers leave it unused. -/
def State.hostWin (s : State) (h : Nat) : Option HostWin :=
  let a := (findD s.host.windows (2 * h) (0 : DWord)).toNat
  let b := (findD s.host.windows (2 * h + 1) (0 : DWord)).toNat
  let size := 2 ^ bitsOf a 11 6
  let hb := bitsOf a 63 12 * 4096
  let mb := bitsOf b 51 12 * 4096
  if 12 ≤ bitsOf a 11 6 ∧ bitsOf a 11 6 ≤ 40 ∧ hb % size = 0 ∧ mb % size = 0 ∧ 2 ^ 41 ≤ mb ∧ bitsOf a 4 0 < 28 then
    some ⟨bitsOf a 4 0, hb, mb, size⟩ else none

def HostWin.overlaps (a b : HostWin) : Bool := decide (a.base < b.base + b.size) && decide (b.base < a.base + a.size)

/-- Windows without those that overlap one before them (R350). -/
def usedWindows : List HostWin → List HostWin → List HostWin
  | _, [] => []
  | before, w :: r => if before.any w.overlaps then usedWindows (w :: before) r else w :: usedWindows (w :: before) r

/-- The host window that a module address falls into for a partition: its offset into host memory (R350). -/
def State.hostWindow (s : State) (p base n : Nat) : Option Nat :=
  ((usedWindows [] ((upto 0 16).filterMap s.hostWin)).find? fun w =>
    w.part == p && decide (w.base ≤ base) && decide (base + n ≤ w.base + w.size)).map fun w => w.host + (base - w.base)

/-! ## Access-list rights (R318) -/

/-- The rights of a tenant on a gate: signal, wait, read. -/
def Gate.rights (g : Gate) (tenant : Nat) : Bool × Bool × Bool :=
  let es := g.acl.filterMap fun e =>
    let v := e.2.toNat
    if bitsOf v 3 3 = 1 ∧ bitsOf v 31 16 = tenant then some v else none
  (es.any fun v => bitsOf v 2 2 == 1, es.any fun v => bitsOf v 1 1 == 1, es.any fun v => bitsOf v 0 0 == 1)

/-- Whether a tenant holds any right on a gate. -/
def Gate.anyRight (g : Gate) (tenant : Nat) : Bool :=
  let r := g.rights tenant
  r.1 || r.2.1 || r.2.2

/-! ## The walk (R70 to R72) -/

/-- A leaf entry's fields (R72). -/
def leafGw (e : Nat) : Bool := decide (bitsOf e 63 63 = 1)
def leafStack (e : Nat) : Nat := bitsOf e 62 58
def leafSl (e : Nat) : Bool := decide (bitsOf e 57 57 = 1)
def leafFmt (e : Nat) : Nat := bitsOf e 56 55
def leafCl (e : Nat) : Nat := bitsOf e 7 6
def leafUsr (e : Nat) : Bool := decide (bitsOf e 5 5 = 1)
def leafX (e : Nat) : Bool := decide (bitsOf e 4 4 = 1)
def leafW (e : Nat) : Bool := decide (bitsOf e 3 3 = 1)
def leafR (e : Nat) : Bool := decide (bitsOf e 2 2 = 1)
def leafPa (e : Nat) : Nat := bitsOf e 51 16 * 65536

/-- The low bit of the VA field that a walk level indexes (R70). -/
def levelShift (level : Nat) : Nat := match level with
  | 4 => 48
  | 3 => 39
  | 2 => 30
  | 1 => 21
  | _ => 16
def levelEntries (level : Nat) : Nat := match level with
  | 4 => 256
  | 0 => 32
  | _ => 512

/-- Whether a leaf entry is well formed at a walk level, for the stacks of partition `p` (R70, R72, R73). An alias page's CL is ignored;
a gate-window page's CL acts as 1 where R72 admits it. (log 82, DEDUCED) -/
def leafOk (p level e : Nat) : Bool :=
  decide (level ≤ 2) && decide (bitsOf e 15 9 = 0) && leafFmt e != 3 && (leafCl e != 3 || leafFmt e == 2) &&
    decide (leafPa e % 2 ^ levelShift level = 0) && !(leafSl e && leafFmt e == 2) &&
    (!leafSl e || (decide (2 * firstSlice p ≤ leafStack e) && decide (leafStack e < 2 * (firstSlice p + sliceCount p)))) &&
    (!leafGw e || leafFmt e == 0)

/-- Whether a table pointer is well formed at a walk level (R71). -/
def pointerOk (level e : Nat) : Bool :=
  decide (1 ≤ level) && decide (bitsOf e 63 52 = 0) && decide (bitsOf e 7 2 = 0) &&
    (level == 1 || decide (bitsOf e 11 8 = 0))

/-- The walk from a table at a level: the leaf and its page size, or a translation fault. `fuel` is the levels left. -/
def walk (m : Memory) (p va : Nat) : Nat → Nat → Nat → Option (Nat × Nat)
  | 0, _, _ => none
  | fuel + 1, level, table =>
    let e := m.read (table + 8 * (va / 2 ^ levelShift level % levelEntries level)) 8
    if e % 2 = 0 then none
    else if e / 2 % 2 = 1 then (if leafOk p level e then some (e, 2 ^ levelShift level) else none)
    else if pointerOk level e then walk m p va fuel (level - 1) (bitsOf e 51 8 * 256) else none

/-- The TLB entry of a die that covers an address (R69). -/
def Partition.tlbHit (x : Partition) (die va : Nat) : Option (Nat × Nat) :=
  (x.tlb.find? fun t => t.die == die && decide (t.base ≤ va) && decide (va < t.base + t.size)).map
    fun t => (t.leaf.toNat, t.size)

/-- The leaf and page size for an address: from the TLB of the die, else by a walk. -/
def State.leafFor (s : State) (p die va : Nat) : Option (Nat × Nat) :=
  match (s.part p).tlbHit die va with
  | some r => some r
  | none => walk s.mem p va 5 4 (s.part p).ptroot

/-- Entries that the one TLB of a die holds, of every partition (R69). -/
def State.tlbUsed (s : State) (die : Nat) : Nat :=
  (s.parts.map fun e => (e.2.tlb.filter (·.die == die)).length).foldl (· + ·) 0

/-- The TLB of the die takes a translation that a walk found (R69, R387); a full TLB takes none. (log 7, DESIGN CHOICE) -/
def State.fillTlb (s : State) (p die va : Nat) : State :=
  match (s.part p).tlbHit die va with
  | some _ => s
  | none =>
    match walk s.mem p va 5 4 (s.part p).ptroot with
    | some (e, size) =>
      if s.tlbUsed die < 16384 then
        s.modPart p fun x => { x with tlb := ⟨die, va / size * size, size, BitVec.ofNat 64 e⟩ :: x.tlb }
      else s
    | none => s

/-! ## Checks (R73, R321) -/

/-- What an access does. -/
inductive Kind where
  | read | write | atomic | fetch
  deriving DecidableEq, Repr

def Kind.reads : Kind → Bool
  | .read => true
  | .atomic => true
  | _ => false
def Kind.writes : Kind → Bool
  | .write => true
  | .atomic => true
  | _ => false

/-- Who accesses: partition, die, privilege level (R300, R145), and whether the access travels on the copy path (R92). -/
structure Agent where
  p : Nat
  die : Nat
  level : Nat
  copy : Bool
  deriving DecidableEq, Repr

/-- A translation: physical address and leaf, or a cause of R367. -/
inductive Xlat where
  | ok (pa leaf : Nat)
  | bad (cause : Nat)
  deriving DecidableEq, Repr

/-- The window checks of a page (R73, R321, R350). A memory window may reach beyond the 1,536 GB of DRAM (R6, R9), and its pages there are
served as others are. (log 99, DESIGN CHOICE) -/
def State.windowCheck (s : State) (g : Agent) (k : Kind) (e base size : Nat) : Option Nat :=
  let x := s.part g.p
  if leafGw e then
    match x.gateWindows.find? fun w => decide (w.1 ≤ base) && decide (base + size ≤ w.1 + w.2.1) with
    | none => some causeWindow
    | some w =>
      let gate := s.gate w.2.2.1
      if !gate.v || !gate.anyRight x.tenant then some causeWindow
      else if k.writes && !w.2.2.2 then some causePermission else none
  else if (s.hostWindow g.p base size).isSome then (if g.copy then none else some causeWindow)
  else if x.inWindow base size then none
  else some causeWindow

/-- The translation and checks of an access at a 64-bit address (R69, R73). -/
def State.xlate (s : State) (g : Agent) (k : Kind) (va : Nat) : Xlat :=
  if 2 ^ 56 ≤ va then .bad causeAddress else
  match s.leafFor g.p g.die va with
  | none => .bad causeTranslation
  | some (e, size) =>
    if (g.level ≤ 1 && !leafUsr e) || (k.reads && !leafR e) || (k.writes && !leafW e) || (k == .fetch && !leafX e) then
      .bad causePermission
    else
      match s.windowCheck g k e (leafPa e) size with
      | some c => .bad c
      | none => .ok (leafPa e + va % size) e

end Sys2Proof.Machine
end

