-- ==== Sys2Proof/Machine/Registers.lean ====
section
/-!
DEFINITION. What a register page of a partition reads (R124, R135, R236, R329, R338, R409, R420, behind QPAGE, R313), and the view of
the gate directory (R309, R318). A write to a page is a step of its own, GENERIC_REGISTER_WRITE.
-/
namespace Sys2Proof.Machine

def Partition.queue (x : Partition) (q : Nat) : Queue := findD x.queues q Queue.empty
def Partition.ring (x : Partition) (q : Nat) : Ring := findD x.rings q Ring.empty
def Partition.channel (x : Partition) (c : Nat) : Channel := findD x.channels c Channel.empty
def Partition.group (x : Partition) (a : Nat) : Group := findD x.groups a Group.empty

def bit (b : Bool) : Nat := if b then 1 else 0

/-! ## The page, by dword offset -/

def Queue.dword (q : Queue) (k : Nat) : Nat :=
  match k with
  | 0 => q.qbase.toNat
  | 1 => q.qlog * 256 + q.state * 16 + bit q.en
  | 2 => q.qrptr.toNat
  | _ => q.qwptr.toNat

def Ring.dword (r : Ring) (k : Nat) : Nat :=
  match k with
  | 0 => r.rbase.toNat
  | 1 => r.rlog * 256 + bit r.en
  | 2 => r.head.toNat * 2 ^ 32 + r.tail.toNat
  | _ => r.free

/-- The status entry of an address group (R329). -/
def Group.dword (g : Group) (k : Nat) : Nat :=
  if k = 0 then g.absent.foldl (fun m i => m ||| 2 ^ i) 0
  else g.ver * 2 ^ 32 + g.rslot * 4 + bit g.elastic * 2 + bit g.valid

/-- Reserved bits read as zero (R8); what has been written there counts at GO alone. -/
def Channel.dword (c : Channel) (k : Nat) : Nat :=
  match k with
  | 0 => c.table * 2 ^ 52 + c.shard * 2 ^ 32 + c.state * 4
  | 1 => c.dest.toNat
  | 2 => c.dmodule * 65536 + c.dpart
  | _ => c.stat

def Parked.dword (e : Parked) (k : Nat) : Nat :=
  match k with
  | 0 => e.addr.toNat
  | 1 => e.smodule * 65536 + e.spart * 2048 + e.op * 256 + e.cause
  | 2 => e.ptime
  | _ => 4

/-- Work-groups held by CMD 2 of the pre-emption register (R420). -/
def Work.heldGroups (w : Work) : Nat :=
  (w.items.map fun i => match i.held, i.kind with
    | true, .saved imgs => imgs.length
    | _, _ => 0).foldl (· + ·) 0

/-- The dword at an offset of the register pages of partition `p`. -/
def State.regDword (s : State) (p off : Nat) : Nat :=
  let x := s.part p
  if off < 0x800 then (x.queue (off / 32)).dword (off / 8 % 4)
  else if off = 0x1000 then x.withdraw.arg
  else if off = 0x1008 then x.withdraw.state * 4
  else if 0x2000 ≤ off ∧ off < 0x4000 then (x.ring ((off - 0x2000) / 32)).dword (off / 8 % 4)
  else if 0x4000 ≤ off ∧ off < 0x5000 then (x.group ((off - 0x4000) / 16)).dword (off / 8 % 2)
  else if off = 0x5000 then x.edbase.toNat
  else if 0x5100 ≤ off ∧ off < 0x5200 then (x.channel ((off - 0x5100) / 32)).dword (off / 8 % 4)
  else if off = 0x6000 then x.parkedCount % 2 ^ 32 * 2 ^ 32 + x.parked.length
  else if 0x6100 ≤ off ∧ off < 0x6900 then
    match find x.parked ((off - 0x6100) / 32) with
    | some e => e.dword (off / 8 % 4)
    | none => 0
  else if off = 0x7000 then x.preempt.arg * 2 ^ 32 + min 63 (s.work p).heldGroups * 16 + x.preempt.state * 4
  else 0

/-! ## Partition descriptors (R313) -/

/-- STATE of a descriptor. -/
def PartState.code : PartState → Nat
  | .off => 0
  | .running => 1
  | .freezing => 2
  | .frozen => 3
  | .tearing => 4

/-- A stored dword as it reads: reserved bits as zero (R8). -/
def shownField (off v : Nat) : Nat :=
  if off = 56 then bitsOf v 31 0
  else if 64 ≤ off ∧ off < 96 then bitsOf v 63 12 * 4096 + bitsOf v 4 0
  else if off = 104 then bitsOf v 15 0
  else if 128 ≤ off ∧ off < 192 then bitsOf v 63 58 * 2 ^ 58 + bitsOf v 51 0
  else if 192 ≤ off ∧ off < 224 then bitsOf v 63 58 * 2 ^ 58 + bitsOf v 51 4 * 16 + bitsOf v 0 0
  else if off = 232 then bitsOf v 5 0
  else if off = 240 then bitsOf v 12 0
  else v

/-- The dword at an offset of a descriptor as it reads; CMD reads 0. -/
def Partition.shown (x : Partition) (off : Nat) : Nat :=
  if off = 0 then x.tenant * 2 ^ 48 + x.errwhy % 16 * 4096 + bit x.err * 2048 + x.state.code * 16 else shownField off (x.dword off)

/-! ## The gate directory (R318) -/

/-- The dword at an offset of a gate's entry. -/
def Gate.dword (g : Gate) (off : Nat) : Nat :=
  if off = 0 then g.value.toNat
  else if off = 8 then bit g.v * 2 ^ 63 + bit g.frz * 2 ^ 62 + g.home * 2 ^ 52 + g.queued.length
  else if off = 16 then g.rate * 2 ^ 44 + g.burst * 2 ^ 28 + g.tokens
  else if 64 ≤ off then
    (findD g.acl ((off - 64) / 4) 0).toNat + (findD g.acl ((off - 64) / 4 + 1) 0).toNat * 2 ^ 32
  else 0

/-- The view of the directory that a partition has: an entry reads as stored when its access list names the tenant. (log 73, DEDUCED) -/
def State.gateView (s : State) (p off : Nat) : Nat :=
  let g := s.gate (off / 128)
  if g.acl.any fun e => bitsOf e.2.toNat 3 3 == 1 && bitsOf e.2.toNat 31 16 == (s.part p).tenant then g.dword (off % 128) else 0

/-! ## Physical addresses that are registers -/

/-- What a physical address is to a partition: memory, one of its register pages, or its view of the gate directory. -/
inductive Place where
  | mem
  | reg (off : Nat)
  | view (off : Nat)
  deriving DecidableEq, Repr

def State.placeOf (s : State) (p pa : Nat) : Place :=
  let x := s.part p
  if x.qpage ≤ pa ∧ pa < x.qpage + 65536 then .reg (pa - x.qpage)
  else if x.gatebase ≠ 0 ∧ x.gatebase.toNat ≤ pa ∧ pa < x.gatebase.toNat + 524288 then .view (pa - x.gatebase.toNat)
  else .mem

/-- Bytes of registers: those of the dwords that a span covers. -/
def dwordBytes (f : Nat → Nat) : Nat → Nat → List Byte
  | _, 0 => []
  | off, n + 1 => BitVec.ofNat 8 (f (off / 8 * 8) / 256 ^ (off % 8)) :: dwordBytes f (off + 1) n

/-- What a partition reads at a physical address, wherever that is. -/
def State.readAt (s : State) (p pa n : Nat) : List Byte :=
  match s.placeOf p pa with
  | .mem => s.mem.bytes pa n
  | .reg off => dwordBytes (s.regDword p) off n
  | .view off => dwordBytes (s.gateView p) off n

/-- A write of a partition on the simt path at a physical address, by some lanes or by an agent that is none: memory, or a step of its own
that writes the register, made before anything else. Writes through the view are ignored (R318). `level` is the writer's level (R145). -/
def State.writeAt (s : State) (p : Nat) (who : List (Nat × Nat × Nat)) (level pa : Nat) (bs : List Byte) : State :=
  match s.placeOf p pa with
  | .mem => { s.wrote false [p] 0 who pa bs.length with mem := s.mem.write pa bs }
  | .reg _ => { s with follow := s.follow ++ [⟨.genericRegisterWrite, [level, pa, ofBytes bs, bs.length]⟩] }
  | .view _ => s

end Sys2Proof.Machine
end

