-- ==== Sys2Proof/Machine/Alias.lean ====
section
/-!
DEFINITION. The BF16 alias window (R86 to R90): its descriptors, the checks made before an access, reads that decode and writes that
requantise.
-/
namespace Sys2Proof.Machine

/-- An alias descriptor (R86). -/
structure AliasDesc where
  reserved : Nat
  defcode : Nat
  g : Nat
  kind : Nat
  origin : Nat
  scalebase : Nat
  deriving DecidableEq, Repr

/-- Descriptor `i` of a partition's table, which stands at a physical address. -/
def State.aliasDesc (s : State) (p i : Nat) : AliasDesc :=
  let a := (s.part p).aliastab + 32 * i
  let w := s.mem.read a 4
  ⟨bitsOf w 31 24, bitsOf w 23 16, bitsOf w 15 8, bitsOf w 7 0, s.mem.read (a + 8) 8, s.mem.read (a + 16) 8⟩

/-- Backing bytes of one alias line (R87). -/
def AliasDesc.lineBytes (d : AliasDesc) : Nat :=
  match d.kind with
  | 4 => 48
  | 5 => 48
  | 6 => 32
  | _ => 64

/-- An alias access: its descriptor, the backing line's address, the first element within the line. -/
structure AliasAt where
  d : AliasDesc
  line : Nat
  elem : Nat
  deriving DecidableEq, Repr

/-- Where an access at page offset `pa − leafPa leaf` lands (R87). -/
def State.aliasAt (s : State) (p leaf pa : Nat) : AliasAt :=
  let d := s.aliasDesc p (leafStack leaf)
  let o := pa - leafPa leaf
  ⟨d, leafPa leaf + o / 128 * d.lineBytes, o / 2 % 64⟩

/-- Width of an element of a plain kind. -/
def AliasDesc.width (d : AliasDesc) : Nat :=
  match plainFormat d.kind with
  | some k => k.width
  | none => 8

/-- Bit from ORIGIN of element `i` of the line (R87). -/
def AliasAt.bitAt (x : AliasAt) (i : Nat) : Nat := (x.line - x.d.origin) * 8 + i * x.d.width

/-- The scale byte's address for the element at a bit from ORIGIN. Where the bit is no multiple of the width, the element keeps its bit
and takes the number below. (log 83, DESIGN CHOICE) -/
def AliasDesc.scaleAt (d : AliasDesc) (b : Nat) : Nat := d.scalebase + b / d.width / d.g

/-- The scale groups of a plain buffer that an access of `n` bytes touches, by number. -/
def AliasAt.groups (x : AliasAt) (n : Nat) : List Nat :=
  let lo := x.bitAt x.elem / x.d.width / x.d.g
  upto lo (x.bitAt (x.elem + n / 2 - 1) / x.d.width / x.d.g + 1 - lo)

/-- First backing byte of a scale group, and its length. -/
def AliasDesc.groupSpan (d : AliasDesc) (grp : Nat) : Nat × Nat :=
  (d.origin + grp * d.g * d.width / 8, d.g * d.width / 8)

/-- The bytes of every unit that an access of `n` bytes touches (R89, R90): the tagged block, or each group's backing and scale byte. -/
def AliasAt.spans (x : AliasAt) (n : Nat) : List (Nat × Nat) :=
  if (plainFormat x.d.kind).isSome then
    (x.groups n).flatMap fun grp => [x.d.groupSpan grp, (x.d.scalebase + grp, 1)]
  else [(x.line, 64)]

/-- An alias write of `n` bytes is about to be made on a path: it writes every byte of its units (R90). -/
def State.aliasWrote (s : State) (p path : Nat) (who : List (Nat × Nat × Nat)) (x : AliasAt) (n : Nat) : State :=
  (x.spans n).foldl (fun st e => st.wrote false [p] path who e.1 e.2) s

/-- The cause found before any access of `n` bytes (R86, R87, R90, R389); `sync` is an access that an alias page does not allow.
(log 40, DEDUCED) -/
def State.aliasCheck (s : State) (p leaf pa n : Nat) (sync : Bool) : Option Nat :=
  let x := s.aliasAt p leaf pa
  let win (a m : Nat) : Bool := (s.part p).inWindow a m
  if sync then some causePermission
  else if pa % 2 ≠ 0 ∨ n % 2 ≠ 0 then some causeAlignment
  else if 6 < x.d.kind ∨ x.d.reserved ≠ 0 ∨ (x.d.kind ≠ 0 ∧ x.d.g ≠ 32 ∧ x.d.g ≠ 64) then some causeFormat
  else if x.d.kind ≠ 0 ∧ x.line < x.d.origin then some causeFormat
  else if !win x.line x.d.lineBytes || !(x.spans n).all fun e => win e.1 e.2 then some causeWindow
  else none

/-- Element at a bit from ORIGIN: its field under its group's scale. -/
def Memory.plainElem (m : Memory) (d : AliasDesc) (k : ElemFmt) (b : Nat) : FVal :=
  let scale := (m.byte (d.scaleAt b)).toNat
  if scale = 255 then .nan else k.value scale (m.read (d.origin + b / 8) 2 / 2 ^ (b % 8) % 2 ^ k.width)

/-- Whether a unit that an access of `n` bytes touches holds poison (R90, R391). -/
def Memory.aliasPoison (m : Memory) (x : AliasAt) (n : Nat) : Bool := (x.spans n).any fun e => m.poisoned e.1 e.2

/-- The values of an alias access of `n` bytes, or the cause found at the home (R386). -/
def Memory.aliasValues (m : Memory) (x : AliasAt) (n : Nat) : Except Nat (List FVal) :=
  if m.aliasPoison x n then .error causeData
  else
    match plainFormat x.d.kind with
    | some k => .ok ((upto 0 (n / 2)).map fun i => m.plainElem x.d k (x.bitAt (x.elem + i)))
    | none =>
      match decodeBlock (m.read x.line 64) with
      | some d => .ok ((upto 0 (n / 2)).map fun i => d.elems.getD (x.elem + i) .nan)
      | none => .error causeFormat

/-- An alias read (R88): each value rounded to BF16. -/
def Memory.aliasRead (m : Memory) (x : AliasAt) (n : Nat) : Except Nat (List Byte) :=
  (m.aliasValues x n).map fun vs => vs.flatMap fun v => bytesOf 2 (Fmt.bf16.round v)

/-- The written halves of an access, by element number. -/
def halvesOf : Nat → List Byte → List (Nat × FVal)
  | i, a :: b :: r => (i, Fmt.bf16.value (a.toNat + 256 * b.toNat)) :: halvesOf (i + 1) r
  | _, _ => []

/-- One scale group of a plain buffer, its elements by number from the start of the group, requantised (R89). -/
def Memory.requantise (m : Memory) (d : AliasDesc) (k : ElemFmt) (grp : Nat) (new : List (Nat × FVal)) : Memory :=
  let first := grp * d.g * k.width
  let xs := (upto 0 d.g).map fun i => match new.find? fun e => e.1 == grp * d.g + i with
    | some e => e.2
    | none => m.plainElem d k (first + i * k.width)
  let q := quantise k 0 xs
  (m.write (d.origin + first / 8) (bytesOf (d.g * k.width / 8) (streamOf k.width q.codes))).write (d.scalebase + grp)
    [BitVec.ofNat 8 q.scale]

/-- An alias write (R89), or the cause found at the home (R389). Where an element's bit is no multiple of the width, the element of the group
in which its bit lies is replaced. (log 83, DESIGN CHOICE) -/
def Memory.aliasWrite (m : Memory) (x : AliasAt) (bs : List Byte) : Except Nat Memory :=
  if m.aliasPoison x bs.length then .error causeData
  else
    match plainFormat x.d.kind with
    | some k =>
      let new := halvesOf (x.bitAt x.elem / k.width) bs
      .ok ((x.groups bs.length).foldl (fun y grp => y.requantise x.d k grp new) m)
    | none =>
      let v := m.read x.line 64
      match decodeBlock v with
      | none => .error causeFormat
      | some d =>
        let xs := (halvesOf x.elem bs).foldl (fun l e => l.set e.1 e.2) d.elems
        match quantiseBlock (if v % 256 = 0 then x.d.defcode else v % 256) xs with
        | some block => .ok (m.write x.line (bytesOf 64 block))
        | none => .error causeFormat

end Sys2Proof.Machine
end

