-- ==== Sys2Proof/WellFormed.lean ====
section
/-!
DEFINITION. Well-formed instructions: every field fits the bits its format gives it (R151, R157), and a field that selects a
variant names an assigned one (R154, R155, R156). A step that has no word carries no field to check.
-/
namespace Sys2Proof

/-- The fields fit their bits and select assigned variants. -/
def Instr.wf : Instr → Bool
  | .nop => true
  | .yield => true
  | .exit => true
  | .phase => true
  | .srd _ d s => decide (d < 128) && decide (s < 32)
  | .callr _ d a => decide (d < 128) && decide (a < 128)
  | .ret _ a => decide (a < 128)
  | .jmpr _ a => decide (a < 128)
  | .joinm _ m => decide (m < 128)
  | .leavem _ m => decide (m < 128)
  | .waitm _ m => decide (m < 128)
  | .mskrd _ d m => decide (d < 128) && decide (m < 128)
  | .mskwr _ a m => decide (a < 128) && decide (m < 128)
  | .add _ d a b => decide (d < 128) && decide (a < 128) && decide (b < 128)
  | .sub _ d a b => decide (d < 128) && decide (a < 128) && decide (b < 128)
  | .mul _ d a b => decide (d < 128) && decide (a < 128) && decide (b < 128)
  | .mulhs _ d a b => decide (d < 128) && decide (a < 128) && decide (b < 128)
  | .mulhz _ d a b => decide (d < 128) && decide (a < 128) && decide (b < 128)
  | .mad _ d a b => decide (d < 128) && decide (a < 128) && decide (b < 128)
  | .addc _ d a b => decide (d < 128) && decide (a < 128) && decide (b < 128)
  | .subb _ d a b => decide (d < 128) && decide (a < 128) && decide (b < 128)
  | .abs _ d a => decide (d < 128) && decide (a < 128)
  | .neg _ d a => decide (d < 128) && decide (a < 128)
  | .mins _ d a b => decide (d < 128) && decide (a < 128) && decide (b < 128)
  | .maxs _ d a b => decide (d < 128) && decide (a < 128) && decide (b < 128)
  | .minz _ d a b => decide (d < 128) && decide (a < 128) && decide (b < 128)
  | .maxz _ d a b => decide (d < 128) && decide (a < 128) && decide (b < 128)
  | .divs _ d a b => decide (d < 128) && decide (a < 128) && decide (b < 128)
  | .divz _ d a b => decide (d < 128) && decide (a < 128) && decide (b < 128)
  | .rems _ d a b => decide (d < 128) && decide (a < 128) && decide (b < 128)
  | .remz _ d a b => decide (d < 128) && decide (a < 128) && decide (b < 128)
  | .cmpi _ f d a i => decide (6 ≤ f) && decide (f < 16) && decide (d < 128) && decide (a < 128) && decide (i < 128)
  | .cmpiWide _ c d a i => decide (6 ≤ c) && decide (c < 16) && decide (d < 128) && decide (a < 128) && decide (i < 4294967296)
  | .and _ d a b => decide (d < 128) && decide (a < 128) && decide (b < 128)
  | .or _ d a b => decide (d < 128) && decide (a < 128) && decide (b < 128)
  | .xor _ d a b => decide (d < 128) && decide (a < 128) && decide (b < 128)
  | .andn _ d a b => decide (d < 128) && decide (a < 128) && decide (b < 128)
  | .not _ d a => decide (d < 128) && decide (a < 128)
  | .popc _ d a => decide (d < 128) && decide (a < 128)
  | .clz _ d a => decide (d < 128) && decide (a < 128)
  | .ffs _ d a => decide (d < 128) && decide (a < 128)
  | .brev _ d a => decide (d < 128) && decide (a < 128)
  | .mov _ d a => decide (d < 128) && decide (a < 128)
  | .sel _ d a b => decide (d < 128) && decide (a < 128) && decide (b < 128)
  | .shl _ d a b => decide (d < 128) && decide (a < 128) && decide (b < 128)
  | .shr _ d a b => decide (d < 128) && decide (a < 128) && decide (b < 128)
  | .sar _ d a b => decide (d < 128) && decide (a < 128) && decide (b < 128)
  | .rot _ d a b => decide (d < 128) && decide (a < 128) && decide (b < 128)
  | .bfes _ d a b => decide (d < 128) && decide (a < 128) && decide (b < 128)
  | .bfez _ d a b => decide (d < 128) && decide (a < 128) && decide (b < 128)
  | .bfi _ d a b => decide (d < 128) && decide (a < 128) && decide (b < 128)
  | .shli _ d a n => decide (d < 128) && decide (a < 128) && decide (n < 128)
  | .shri _ d a n => decide (d < 128) && decide (a < 128) && decide (n < 128)
  | .sari _ d a n => decide (d < 128) && decide (a < 128) && decide (n < 128)
  | .roti _ d a n => decide (d < 128) && decide (a < 128) && decide (n < 128)
  | .cmp _ c d a b => decide (c < 10) && decide (d < 128) && decide (a < 128) && decide (b < 128)
  | .addi _ d a i => decide (d < 128) && decide (a < 128) && decide (i < 2048)
  | .addiWide _ d a i => decide (d < 128) && decide (a < 128) && decide (i < 4294967296)
  | .andi _ d a i => decide (d < 128) && decide (a < 128) && decide (i < 2048)
  | .andiWide _ d a i => decide (d < 128) && decide (a < 128) && decide (i < 4294967296)
  | .ori _ d a i => decide (d < 128) && decide (a < 128) && decide (i < 2048)
  | .oriWide _ d a i => decide (d < 128) && decide (a < 128) && decide (i < 4294967296)
  | .xori _ d a i => decide (d < 128) && decide (a < 128) && decide (i < 2048)
  | .xoriWide _ d a i => decide (d < 128) && decide (a < 128) && decide (i < 4294967296)
  | .movi _ d i => decide (d < 128) && decide (i < 262144)
  | .moviWide _ d i => decide (d < 128) && decide (i < 4294967296)
  | .movhi _ d i => decide (d < 128) && decide (i < 262144)
  | .movhiWide _ d i => decide (d < 128) && decide (i < 4294967296)
  | .lea _ d i => decide (d < 128) && decide (i < 262144)
  | .leaWide _ d i => decide (d < 128) && decide (i < 4294967296)
  | .bra _ o => decide (o < 33554432)
  | .bz _ a o => decide (a < 128) && decide (o < 262144)
  | .bnz _ a o => decide (a < 128) && decide (o < 262144)
  | .meet => true
  | .call _ d i => decide (d < 128) && decide (i < 4294967296)
  | .clauseHeader => true
  | .fadd _ d a b => decide (d < 128) && decide (a < 128) && decide (b < 128)
  | .fsub _ d a b => decide (d < 128) && decide (a < 128) && decide (b < 128)
  | .fmul _ d a b => decide (d < 128) && decide (a < 128) && decide (b < 128)
  | .ffma _ d a b => decide (d < 128) && decide (a < 128) && decide (b < 128)
  | .fmin _ d a b => decide (d < 128) && decide (a < 128) && decide (b < 128)
  | .fmax _ d a b => decide (d < 128) && decide (a < 128) && decide (b < 128)
  | .fabs _ d a => decide (d < 128) && decide (a < 128)
  | .fneg _ d a => decide (d < 128) && decide (a < 128)
  | .fcmp _ c d a b => decide (c < 8) && decide (d < 128) && decide (a < 128) && decide (b < 128)
  | .fclass _ d a => decide (d < 128) && decide (a < 128)
  | .frcp _ d a => decide (d < 128) && decide (a < 128)
  | .frsq _ d a => decide (d < 128) && decide (a < 128)
  | .fsqrt _ d a => decide (d < 128) && decide (a < 128)
  | .fexp2 _ d a => decide (d < 128) && decide (a < 128)
  | .flog2 _ d a => decide (d < 128) && decide (a < 128)
  | .fsin _ d a => decide (d < 128) && decide (a < 128)
  | .fcos _ d a => decide (d < 128) && decide (a < 128)
  | .ftanh _ d a => decide (d < 128) && decide (a < 128)
  | .hadd2 _ d a b => decide (d < 128) && decide (a < 128) && decide (b < 128)
  | .hmul2 _ d a b => decide (d < 128) && decide (a < 128) && decide (b < 128)
  | .hfma2 _ d a b => decide (d < 128) && decide (a < 128) && decide (b < 128)
  | .cvtBf16F32Lo _ d a => decide (d < 128) && decide (a < 128)
  | .cvtBf16F32Hi _ d a => decide (d < 128) && decide (a < 128)
  | .cvtF16F32Lo _ d a => decide (d < 128) && decide (a < 128)
  | .cvtF16F32Hi _ d a => decide (d < 128) && decide (a < 128)
  | .cvtE4m3x2F32Lo _ d a b => decide (d < 128) && decide (a < 128) && decide (b < 128)
  | .cvtE4m3x2F32Hi _ d a b => decide (d < 128) && decide (a < 128) && decide (b < 128)
  | .cvtE5m2x2F32Lo _ d a b => decide (d < 128) && decide (a < 128) && decide (b < 128)
  | .cvtE5m2x2F32Hi _ d a b => decide (d < 128) && decide (a < 128) && decide (b < 128)
  | .cvtF32Bf16 _ d a h => decide (d < 128) && decide (a < 128) && decide (h < 128)
  | .cvtF32F16 _ d a h => decide (d < 128) && decide (a < 128) && decide (h < 128)
  | .cvtF32E4m3 _ d a n => decide (d < 128) && decide (a < 128) && decide (n < 128)
  | .cvtF32E5m2 _ d a n => decide (d < 128) && decide (a < 128) && decide (n < 128)
  | .cvtS32F32 _ r d a => decide (r < 4) && decide (d < 128) && decide (a < 128)
  | .cvtZ32F32 _ r d a => decide (r < 4) && decide (d < 128) && decide (a < 128)
  | .cvtF32S32 _ d a => decide (d < 128) && decide (a < 128)
  | .cvtF32Z32 _ d a => decide (d < 128) && decide (a < 128)
  | .cvtF32S64 _ d a => decide (d < 128) && decide (a < 128)
  | .cvtF32Z64 _ d a => decide (d < 128) && decide (a < 128)
  | .cvtS64F32Rz _ d a => decide (d < 128) && decide (a < 128)
  | .cvtZ64F32Rz _ d a => decide (d < 128) && decide (a < 128)
  | .cvtS8S32Sat _ d a => decide (d < 128) && decide (a < 128)
  | .cvtS16S32Sat _ d a => decide (d < 128) && decide (a < 128)
  | .cvtZ8S32Sat _ d a => decide (d < 128) && decide (a < 128)
  | .cvtZ16S32Sat _ d a => decide (d < 128) && decide (a < 128)
  | .cvtZ8Z32Sat _ d a => decide (d < 128) && decide (a < 128)
  | .cvtZ16Z32Sat _ d a => decide (d < 128) && decide (a < 128)
  | .cvtS64S32 _ d a => decide (d < 128) && decide (a < 128)
  | .cvtZ64Z32 _ d a => decide (d < 128) && decide (a < 128)
  | .cvtS32S64Sat _ d a => decide (d < 128) && decide (a < 128)
  | .cvtZ32Z64Sat _ d a => decide (d < 128) && decide (a < 128)
  | .qnt _ f d a => decide (f < 9) && decide (d < 128) && decide (a < 128)
  | .dqnt _ d a => decide (d < 128) && decide (a < 128)
  | .shfl d a b => decide (d < 128) && decide (a < 128) && decide (b < 128)
  | .bcast d a n => decide (d < 128) && decide (a < 128) && decide (n < 128)
  | .vote d a m => decide (d < 128) && decide (a < 128) && decide (m < 128)
  | .matchLanes d a => decide (d < 128) && decide (a < 128)
  | .wred f d a => decide (4 ≤ f) && decide (f < 10) && decide (d < 128) && decide (a < 128)
  | .wscan f d a b => decide (10 ≤ f) && decide (f < 16) && decide (d < 128) && decide (a < 128) && decide (b < 128)
  | .group _ s l r => decide (s < 128) && decide (l < 8) && decide (r < 256)
  | .groupWide _ s i => decide (s < 128) && decide (i < 4294967296)
  | .join _ s a l r => decide (s < 128) && decide (a < 128) && decide (l < 8) && decide (r < 256)
  | .joinWide _ s a i => decide (s < 128) && decide (a < 128) && decide (i < 4294967296)
  | .park _ s a => decide (s < 128) && decide (a < 128)
  | .parkWide _ s a i => decide (s < 128) && decide (a < 128) && decide (i < 4294967296)
  | .outputWarpStart => true
  | .relopen _ d a => decide (d < 128) && decide (a < 128)
  | .relseal _ d a => decide (d < 128) && decide (a < 128)
  | .relcnt _ d a => decide (d < 128) && decide (a < 128)
  | .fork _ a c => decide (a < 128) && decide (c < 128)
  | .rdv => true
  | .sequencerStart => true
  | .cpush _ a => decide (a < 128)
  | .jcdec _ a => decide (a < 128)
  | .dqpush _ d a => decide (d < 128) && decide (a < 128)
  | .dqpop _ d => decide (d < 128)
  | .dqsteal _ d a => decide (d < 128) && decide (a < 128)
  | .reggrow _ g => decide (g < 128)
  | .regshrink _ g => decide (g < 128)
  | .reggrowGrant => true
  | .launch _ d a => decide (d < 128) && decide (a < 128)
  | .ldS8 _ l d a o => decide (l < 16) && decide (d < 128) && decide (a < 128) && decide (o < 128)
  | .ldZ8 _ l d a o => decide (l < 16) && decide (d < 128) && decide (a < 128) && decide (o < 128)
  | .ldS16 _ l d a o => decide (l < 16) && decide (d < 128) && decide (a < 128) && decide (o < 128)
  | .ldZ16 _ l d a o => decide (l < 16) && decide (d < 128) && decide (a < 128) && decide (o < 128)
  | .ld _ l d a o => decide (l < 16) && decide (d < 128) && decide (a < 128) && decide (o < 128)
  | .ld64 _ l d a o => decide (l < 16) && decide (d < 128) && decide (a < 128) && decide (o < 128)
  | .ld128 _ l d a o => decide (l < 16) && decide (d < 128) && decide (a < 128) && decide (o < 128)
  | .st8 _ l d a o => decide (l < 16) && decide (d < 128) && decide (a < 128) && decide (o < 128)
  | .st16 _ l d a o => decide (l < 16) && decide (d < 128) && decide (a < 128) && decide (o < 128)
  | .st _ l d a o => decide (l < 16) && decide (d < 128) && decide (a < 128) && decide (o < 128)
  | .st64 _ l d a o => decide (l < 16) && decide (d < 128) && decide (a < 128) && decide (o < 128)
  | .st128 _ l d a o => decide (l < 16) && decide (d < 128) && decide (a < 128) && decide (o < 128)
  | .lookaheadResultWrite => true
  | .storePerformed => true
  | .lds _ l a b x => decide (l < 16) && decide (a < 128) && decide (b < 128) && decide (x < 8)
  | .lds64 _ l a b x => decide (l < 16) && decide (a < 128) && decide (b < 128) && decide (x < 8)
  | .lds128 _ l a b x => decide (l < 16) && decide (a < 128) && decide (b < 128) && decide (x < 8)
  | .sts _ l a b x => decide (l < 16) && decide (a < 128) && decide (b < 128) && decide (x < 8)
  | .sts64 _ l a b x => decide (l < 16) && decide (a < 128) && decide (b < 128) && decide (x < 8)
  | .sts128 _ l a b x => decide (l < 16) && decide (a < 128) && decide (b < 128) && decide (x < 8)
  | .lda _ l a b x => decide (l < 16) && decide (a < 128) && decide (b < 128) && decide (x < 8)
  | .lda64 _ l a b x => decide (l < 16) && decide (a < 128) && decide (b < 128) && decide (x < 8)
  | .stl _ l a b x => decide (l < 16) && decide (a < 128) && decide (b < 128) && decide (x < 8)
  | .stl64 _ l a b x => decide (l < 16) && decide (a < 128) && decide (b < 128) && decide (x < 8)
  | .prefL2 => true
  | .prefL1 => true
  | .radd _ l f a b x => decide (l < 16) && decide (f < 9) && decide (a < 128) && decide (b < 128) && decide (x < 8)
  | .atomAdd _ l d a b => decide (l < 16) && decide (d < 128) && decide (a < 128) && decide (b < 128)
  | .atomF32 _ l d a b => decide (l < 16) && decide (d < 128) && decide (a < 128) && decide (b < 128)
  | .atomMins _ l d a b => decide (l < 16) && decide (d < 128) && decide (a < 128) && decide (b < 128)
  | .atomMaxs _ l d a b => decide (l < 16) && decide (d < 128) && decide (a < 128) && decide (b < 128)
  | .atomMinz _ l d a b => decide (l < 16) && decide (d < 128) && decide (a < 128) && decide (b < 128)
  | .atomMaxz _ l d a b => decide (l < 16) && decide (d < 128) && decide (a < 128) && decide (b < 128)
  | .atomAnd _ l d a b => decide (l < 16) && decide (d < 128) && decide (a < 128) && decide (b < 128)
  | .atomOr _ l d a b => decide (l < 16) && decide (d < 128) && decide (a < 128) && decide (b < 128)
  | .atomXor _ l d a b => decide (l < 16) && decide (d < 128) && decide (a < 128) && decide (b < 128)
  | .atomExch _ l d a b => decide (l < 16) && decide (d < 128) && decide (a < 128) && decide (b < 128)
  | .atomCas _ l d a b => decide (l < 16) && decide (d < 128) && decide (a < 128) && decide (b < 128)
  | .fence => true
  | .xfence _ a b => decide (a < 128) && decide (b < 128)
  | .lbar _ k => decide (k < 128)
  | .lbarPlacementPreempt => true
  | .sppin _ a b => decide (a < 128) && decide (b < 128)
  | .spunpin _ a b => decide (a < 128) && decide (b < 128)
  | .rbpush _ a b => decide (a < 128) && decide (b < 128)
  | .rbpop _ d a => decide (d < 128) && decide (a < 128)
  | .rbfree _ d a b => decide (d < 128) && decide (a < 128) && decide (b < 128)
  | .tqpop _ d n => decide (d < 128) && decide (n < 128)
  | .gsig _ a b => decide (a < 128) && decide (b < 128)
  | .gwait _ d a b => decide (d < 128) && decide (a < 128) && decide (b < 128)
  | .grd _ d a => decide (d < 128) && decide (a < 128)
  | .gtry _ d a b => decide (d < 128) && decide (a < 128) && decide (b < 128)
  | .gateSignalApply => true
  | .mldr _ l a b x => decide (l < 16) && decide (a < 128) && decide (b < 128) && decide (x < 8)
  | .mst _ l a b x => decide (l < 16) && decide (a < 128) && decide (b < 128) && decide (x < 8)
  | .trap => true
  | .trapret => true
  | .bkpt => true
  | .csrr _ d c => decide (d < 128) && decide (c < 128)
  | .csrw _ a c => decide (a < 128) && decide (c < 128)
  | .tlbinv _ a b => decide (a < 128) && decide (b < 128)
  | .cinv _ a b => decide (a < 128) && decide (b < 128)
  | .tokxfer _ d a b => decide (d < 128) && decide (a < 128) && decide (b < 128)
  | .clklock _ a b => decide (a < 128) && decide (b < 128)
  | .sleep _ a => decide (a < 128)
  | .watch _ a b => decide (a < 128) && decide (b < 128)
  | .sleepWake => true
  | .phaseTimerExpiry => true
  | .handlerEntry => true
  | .smov _ d a => decide (d < 128) && decide (a < 128)
  | .sadd _ d a b => decide (d < 128) && decide (a < 128) && decide (b < 128)
  | .swait => true
  | .ssig _ a b => decide (a < 128) && decide (b < 128)
  | .ssig64 _ a b => decide (a < 128) && decide (b < 128)
  | .ssigAdd64 _ a b => decide (a < 128) && decide (b < 128)
  | .slda _ d a => decide (d < 128) && decide (a < 128)
  | .slda64 _ d a => decide (d < 128) && decide (a < 128)
  | .endProg => true
  | .sli _ d i => decide (d < 128) && decide (i < 262144)
  | .sliWide d i => decide (d < 128) && decide (i < 4294967296)
  | .sbnz _ a o => decide (a < 128) && decide (o < 262144)
  | .sloop _ a o => decide (a < 128) && decide (o < 262144)
  | .tcfg _ _ d a => decide (d < 128) && decide (a < 128)
  | .tzero _ _ d => decide (d < 128)
  | .tzeroRows _ _ d b => decide (d < 128) && decide (b < 128)
  | .twr _ _ d a b => decide (d < 128) && decide (a < 128) && decide (b < 128)
  | .mma _ _ d a => decide (d < 128) && decide (a < 128)
  | .mmas _ _ d a => decide (d < 128) && decide (a < 128)
  | .mmao _ _ d a => decide (d < 128) && decide (a < 128)
  | .accrd _ _ d a b => decide (d < 128) && decide (a < 128) && decide (b < 128)
  | .accrdClr _ _ d a b => decide (d < 128) && decide (a < 128) && decide (b < 128)
  | .accnorm _ _ d => decide (d < 128)
  | .accnormRows _ _ d b => decide (d < 128) && decide (b < 128)
  | .acchrRow _ _ d a b => decide (d < 128) && decide (a < 128) && decide (b < 128)
  | .acchrExp _ _ d a b => decide (d < 128) && decide (a < 128) && decide (b < 128)
  | .acchrTile _ _ d a => decide (d < 128) && decide (a < 128)
  | .msync _ _ a => decide (a < 128)
  | .cpy _ _ d a b => decide (d < 128) && decide (a < 128) && decide (b < 128)
  | .cpym _ _ f d a b => decide (f < 3) && decide (d < 128) && decide (a < 128) && decide (b < 128)
  | .cpymFollowOn => true
  | .gather _ _ d a b => decide (d < 128) && decide (a < 128) && decide (b < 128)
  | .scatter _ _ d a b => decide (d < 128) && decide (a < 128) && decide (b < 128)
  | .stage _ _ a b => decide (a < 128) && decide (b < 128)
  | .emblk _ _ d a b => decide (d < 128) && decide (a < 128) && decide (b < 128)
  | .topk _ _ d a b => decide (d < 128) && decide (a < 128) && decide (b < 128)
  | .coll _ _ a => decide (a < 128)
  | .agset _ _ a b => decide (a < 128) && decide (b < 128)
  | .egjoin _ _ d a => decide (d < 128) && decide (a < 128)
  | .egleave _ _ d a => decide (d < 128) && decide (a < 128)
  | .ttop _ a => decide (a < 128)
  | .ttopSlotStart => true
  | .arrivedTilePush => true
  | .evpop _ d => decide (d < 128)
  | .evwait _ d => decide (d < 128)
  | .engineCommandComplete => true
  | .completionRecordPush => true
  | .controlProgramStart => true
  | .qwptrWrite => true
  | .queueReset => true
  | .queueEnable => true
  | .nopPacket => true
  | .launchPacket => true
  | .fencePacket => true
  | .fenceCountersMet => true
  | .fenceTimeout => true
  | .writePacket => true
  | .timedPacket => true
  | .timedReached => true
  | .placeItem => true
  | .priorityAging => true
  | .placementReserve => true
  | .launchComplete => true
  | .withdrawLaunch => true
  | .preempt => true
  | .preemptAndHold => true
  | .preemptRelease => true
  | .preemptSwapComplete => true
  | .preemptSpillComplete => true
  | .activate => true
  | .freeze => true
  | .freezeComplete => true
  | .resume => true
  | .tearDownKeepingGates => true
  | .tearDownExportingGates => true
  | .teardownComplete => true
  | .partitionFieldWrite => true
  | .gateEntryWrite => true
  | .gateTokenRefill => true
  | .ringEnWrite => true
  | .migrationGo => true
  | .migrationSwitchOver => true
  | .migrationFailure => true
  | .fabricAccessServe => true
  | .parkedRetry => true
  | .parkedDrop => true
  | .parkedExpiry => true
  | .memberAbsentTimeout => true
  | .agreementRoundStart => true
  | .agreementAckTimeout => true
  | .agreementRoundEnd => true
  | .switchReset => true
  | .timeDomainLeave => true
  | .timeDomainRejoin => true
  | .tokenReceive => true
  | .tokenReturnArrival => true
  | .clockLockEffect => true
  | .powerClampAdjust => true
  | .energyAttributionInterval => true
  | .energyIdleSlotAdd => true
  | .hostMemRead => true
  | .hostMemWrite => true
  | .ownerClaim => true
  | .ownerHandOver => true
  | .ownerAccept => true
  | .ownerRelease => true
  | .ownerLinkDown => true
  | .portLimiterWrite => true
  | .hostWindowWrite => true
  | .coldReset => true
  | .warmReset => true
  | .bootctlWrite => true
  | .bootCheckComplete => true
  | .blackboxSnap => true
  | .blackboxSnapComplete => true
  | .getVersion => true
  | .getCapabilities => true
  | .negotiateAlgorithms => true
  | .getDigests => true
  | .getCertificate => true
  | .challenge => true
  | .getMeasurements => true
  | .patrolScrub => true
  | .uncorrectableError => true
  | .genericRegisterWrite => true
  | .relationOperationComplete => true
  | .engineCounterOperationComplete => true
  | .switchUnreachable => true
  | .fabricFormation => true
  | .tokenBrokerMove => true

end Sys2Proof
end

