-- ==== Sys2Proof/Decode.lean ====
section
/-!
DEFINITION. The decoder and the encoder, from the same tables of the spec (R147, R151, R152, R154 to R157): a decoder of one
instruction from the words of its class, total on any words and rejecting by name, the clause header's fields, and an encoder of
every instruction that has a word. Fields are cut out of the word once, here.
-/
namespace Sys2Proof

/-- Why words are no instruction. All but `operand` raise the illegal-instruction trap (R152, R156, R157). -/
inductive DecodeError where
  | unassignedMajor                 -- R156
  | unassignedFn                    -- R156
  | unusedField                     -- R152
  | wideForm                        -- R157
  | literalMissing                  -- R148
  | empty
  | operand                         -- R283: the illegal-operand trap
  deriving DecidableEq, Repr

/-- What a decoder answers: an instruction with the words it takes, or why there is none. -/
inductive Decoded where
  | instr (i : Instr) (words : Nat)
  | bad (e : DecodeError)
  deriving DecidableEq, Repr

/-- Major 0x00 of class 0 (R154). -/
def decSimt00 (w : Nat) : Decoded :=
  match w / 2097152 % 16 with
  | 0 => if w % 2097152 = 0 then .instr (.nop) 1 else .bad .unusedField
  | 1 => if w % 2097152 = 0 then .instr (.yield) 1 else .bad .unusedField
  | 2 => if w % 2097152 = 0 then .instr (.exit) 1 else .bad .unusedField
  | 3 => if w % 2097152 = 0 then .instr (.phase) 1 else .bad .unusedField
  | 4 => if w / 32 % 512 = 0 then .instr (.srd (decide (w / 2147483648 % 2 = 1)) (w / 16384 % 128) (w % 32)) 1 else .bad .unusedField
  | 5 => if w % 128 = 0 then .instr (.callr (decide (w / 2147483648 % 2 = 1)) (w / 16384 % 128) (w / 128 % 128)) 1 else .bad .unusedField
  | 6 => if w % 128 = 0 ∧ w / 16384 % 128 = 0 then .instr (.ret (decide (w / 2147483648 % 2 = 1)) (w / 128 % 128)) 1 else .bad .unusedField
  | 7 => if w % 128 = 0 ∧ w / 16384 % 128 = 0 then .instr (.jmpr (decide (w / 2147483648 % 2 = 1)) (w / 128 % 128)) 1 else .bad .unusedField
  | 8 => if w / 128 % 16384 = 0 then .instr (.joinm (decide (w / 2147483648 % 2 = 1)) (w % 128)) 1 else .bad .unusedField
  | 9 => if w / 128 % 16384 = 0 then .instr (.leavem (decide (w / 2147483648 % 2 = 1)) (w % 128)) 1 else .bad .unusedField
  | 10 => if w / 128 % 16384 = 0 then .instr (.waitm (decide (w / 2147483648 % 2 = 1)) (w % 128)) 1 else .bad .unusedField
  | 11 => if w / 128 % 128 = 0 then .instr (.mskrd (decide (w / 2147483648 % 2 = 1)) (w / 16384 % 128) (w % 128)) 1 else .bad .unusedField
  | 12 => if w / 16384 % 128 = 0 then .instr (.mskwr (decide (w / 2147483648 % 2 = 1)) (w / 128 % 128) (w % 128)) 1 else .bad .unusedField
  | _ => .bad .unassignedFn

/-- Major 0x01 of class 0 (R154). -/
def decSimt01 (w : Nat) : Decoded :=
  match w / 2097152 % 16 with
  | 0 => .instr (.add (decide (w / 2147483648 % 2 = 1)) (w / 16384 % 128) (w / 128 % 128) (w % 128)) 1
  | 1 => .instr (.sub (decide (w / 2147483648 % 2 = 1)) (w / 16384 % 128) (w / 128 % 128) (w % 128)) 1
  | 2 => .instr (.mul (decide (w / 2147483648 % 2 = 1)) (w / 16384 % 128) (w / 128 % 128) (w % 128)) 1
  | 3 => .instr (.mulhs (decide (w / 2147483648 % 2 = 1)) (w / 16384 % 128) (w / 128 % 128) (w % 128)) 1
  | 4 => .instr (.mulhz (decide (w / 2147483648 % 2 = 1)) (w / 16384 % 128) (w / 128 % 128) (w % 128)) 1
  | 5 => .instr (.mad (decide (w / 2147483648 % 2 = 1)) (w / 16384 % 128) (w / 128 % 128) (w % 128)) 1
  | 6 => .instr (.addc (decide (w / 2147483648 % 2 = 1)) (w / 16384 % 128) (w / 128 % 128) (w % 128)) 1
  | 7 => .instr (.subb (decide (w / 2147483648 % 2 = 1)) (w / 16384 % 128) (w / 128 % 128) (w % 128)) 1
  | 8 => if w % 128 = 0 then .instr (.abs (decide (w / 2147483648 % 2 = 1)) (w / 16384 % 128) (w / 128 % 128)) 1 else .bad .unusedField
  | 9 => if w % 128 = 0 then .instr (.neg (decide (w / 2147483648 % 2 = 1)) (w / 16384 % 128) (w / 128 % 128)) 1 else .bad .unusedField
  | 10 => .instr (.mins (decide (w / 2147483648 % 2 = 1)) (w / 16384 % 128) (w / 128 % 128) (w % 128)) 1
  | 11 => .instr (.maxs (decide (w / 2147483648 % 2 = 1)) (w / 16384 % 128) (w / 128 % 128) (w % 128)) 1
  | 12 => .instr (.minz (decide (w / 2147483648 % 2 = 1)) (w / 16384 % 128) (w / 128 % 128) (w % 128)) 1
  | 13 => .instr (.maxz (decide (w / 2147483648 % 2 = 1)) (w / 16384 % 128) (w / 128 % 128) (w % 128)) 1
  | _ => .bad .unassignedFn

/-- Major 0x02 of class 0 (R154). -/
def decSimt02 (w : Nat) : Decoded :=
  match w / 2097152 % 16 with
  | 0 => .instr (.divs (decide (w / 2147483648 % 2 = 1)) (w / 16384 % 128) (w / 128 % 128) (w % 128)) 1
  | 1 => .instr (.divz (decide (w / 2147483648 % 2 = 1)) (w / 16384 % 128) (w / 128 % 128) (w % 128)) 1
  | 2 => .instr (.rems (decide (w / 2147483648 % 2 = 1)) (w / 16384 % 128) (w / 128 % 128) (w % 128)) 1
  | 3 => .instr (.remz (decide (w / 2147483648 % 2 = 1)) (w / 16384 % 128) (w / 128 % 128) (w % 128)) 1
  | 6 => .instr (.cmpi (decide (w / 2147483648 % 2 = 1)) (w / 2097152 % 16) (w / 16384 % 128) (w / 128 % 128) (w % 128)) 1
  | 7 => .instr (.cmpi (decide (w / 2147483648 % 2 = 1)) (w / 2097152 % 16) (w / 16384 % 128) (w / 128 % 128) (w % 128)) 1
  | 8 => .instr (.cmpi (decide (w / 2147483648 % 2 = 1)) (w / 2097152 % 16) (w / 16384 % 128) (w / 128 % 128) (w % 128)) 1
  | 9 => .instr (.cmpi (decide (w / 2147483648 % 2 = 1)) (w / 2097152 % 16) (w / 16384 % 128) (w / 128 % 128) (w % 128)) 1
  | 10 => .instr (.cmpi (decide (w / 2147483648 % 2 = 1)) (w / 2097152 % 16) (w / 16384 % 128) (w / 128 % 128) (w % 128)) 1
  | 11 => .instr (.cmpi (decide (w / 2147483648 % 2 = 1)) (w / 2097152 % 16) (w / 16384 % 128) (w / 128 % 128) (w % 128)) 1
  | 12 => .instr (.cmpi (decide (w / 2147483648 % 2 = 1)) (w / 2097152 % 16) (w / 16384 % 128) (w / 128 % 128) (w % 128)) 1
  | 13 => .instr (.cmpi (decide (w / 2147483648 % 2 = 1)) (w / 2097152 % 16) (w / 16384 % 128) (w / 128 % 128) (w % 128)) 1
  | 14 => .instr (.cmpi (decide (w / 2147483648 % 2 = 1)) (w / 2097152 % 16) (w / 16384 % 128) (w / 128 % 128) (w % 128)) 1
  | 15 => .instr (.cmpi (decide (w / 2147483648 % 2 = 1)) (w / 2097152 % 16) (w / 16384 % 128) (w / 128 % 128) (w % 128)) 1
  | _ => .bad .unassignedFn

/-- Major 0x03 of class 0 (R154). -/
def decSimt03 (w : Nat) : Decoded :=
  match w / 2097152 % 16 with
  | 0 => .instr (.and (decide (w / 2147483648 % 2 = 1)) (w / 16384 % 128) (w / 128 % 128) (w % 128)) 1
  | 1 => .instr (.or (decide (w / 2147483648 % 2 = 1)) (w / 16384 % 128) (w / 128 % 128) (w % 128)) 1
  | 2 => .instr (.xor (decide (w / 2147483648 % 2 = 1)) (w / 16384 % 128) (w / 128 % 128) (w % 128)) 1
  | 3 => .instr (.andn (decide (w / 2147483648 % 2 = 1)) (w / 16384 % 128) (w / 128 % 128) (w % 128)) 1
  | 4 => if w % 128 = 0 then .instr (.not (decide (w / 2147483648 % 2 = 1)) (w / 16384 % 128) (w / 128 % 128)) 1 else .bad .unusedField
  | 5 => if w % 128 = 0 then .instr (.popc (decide (w / 2147483648 % 2 = 1)) (w / 16384 % 128) (w / 128 % 128)) 1 else .bad .unusedField
  | 6 => if w % 128 = 0 then .instr (.clz (decide (w / 2147483648 % 2 = 1)) (w / 16384 % 128) (w / 128 % 128)) 1 else .bad .unusedField
  | 7 => if w % 128 = 0 then .instr (.ffs (decide (w / 2147483648 % 2 = 1)) (w / 16384 % 128) (w / 128 % 128)) 1 else .bad .unusedField
  | 8 => if w % 128 = 0 then .instr (.brev (decide (w / 2147483648 % 2 = 1)) (w / 16384 % 128) (w / 128 % 128)) 1 else .bad .unusedField
  | 9 => if w % 128 = 0 then .instr (.mov (decide (w / 2147483648 % 2 = 1)) (w / 16384 % 128) (w / 128 % 128)) 1 else .bad .unusedField
  | 10 => .instr (.sel (decide (w / 2147483648 % 2 = 1)) (w / 16384 % 128) (w / 128 % 128) (w % 128)) 1
  | _ => .bad .unassignedFn

/-- Major 0x04 of class 0 (R154). -/
def decSimt04 (w : Nat) : Decoded :=
  match w / 2097152 % 16 with
  | 0 => .instr (.shl (decide (w / 2147483648 % 2 = 1)) (w / 16384 % 128) (w / 128 % 128) (w % 128)) 1
  | 1 => .instr (.shr (decide (w / 2147483648 % 2 = 1)) (w / 16384 % 128) (w / 128 % 128) (w % 128)) 1
  | 2 => .instr (.sar (decide (w / 2147483648 % 2 = 1)) (w / 16384 % 128) (w / 128 % 128) (w % 128)) 1
  | 3 => .instr (.rot (decide (w / 2147483648 % 2 = 1)) (w / 16384 % 128) (w / 128 % 128) (w % 128)) 1
  | 4 => .instr (.bfes (decide (w / 2147483648 % 2 = 1)) (w / 16384 % 128) (w / 128 % 128) (w % 128)) 1
  | 5 => .instr (.bfez (decide (w / 2147483648 % 2 = 1)) (w / 16384 % 128) (w / 128 % 128) (w % 128)) 1
  | 6 => .instr (.bfi (decide (w / 2147483648 % 2 = 1)) (w / 16384 % 128) (w / 128 % 128) (w % 128)) 1
  | 8 => .instr (.shli (decide (w / 2147483648 % 2 = 1)) (w / 16384 % 128) (w / 128 % 128) (w % 128)) 1
  | 9 => .instr (.shri (decide (w / 2147483648 % 2 = 1)) (w / 16384 % 128) (w / 128 % 128) (w % 128)) 1
  | 10 => .instr (.sari (decide (w / 2147483648 % 2 = 1)) (w / 16384 % 128) (w / 128 % 128) (w % 128)) 1
  | 11 => .instr (.roti (decide (w / 2147483648 % 2 = 1)) (w / 16384 % 128) (w / 128 % 128) (w % 128)) 1
  | _ => .bad .unassignedFn

/-- Major 0x05 of class 0 (R154). -/
def decSimt05 (w : Nat) : Decoded :=
  match w / 2097152 % 16 with
  | 0 => .instr (.cmp (decide (w / 2147483648 % 2 = 1)) (w / 2097152 % 16) (w / 16384 % 128) (w / 128 % 128) (w % 128)) 1
  | 1 => .instr (.cmp (decide (w / 2147483648 % 2 = 1)) (w / 2097152 % 16) (w / 16384 % 128) (w / 128 % 128) (w % 128)) 1
  | 2 => .instr (.cmp (decide (w / 2147483648 % 2 = 1)) (w / 2097152 % 16) (w / 16384 % 128) (w / 128 % 128) (w % 128)) 1
  | 3 => .instr (.cmp (decide (w / 2147483648 % 2 = 1)) (w / 2097152 % 16) (w / 16384 % 128) (w / 128 % 128) (w % 128)) 1
  | 4 => .instr (.cmp (decide (w / 2147483648 % 2 = 1)) (w / 2097152 % 16) (w / 16384 % 128) (w / 128 % 128) (w % 128)) 1
  | 5 => .instr (.cmp (decide (w / 2147483648 % 2 = 1)) (w / 2097152 % 16) (w / 16384 % 128) (w / 128 % 128) (w % 128)) 1
  | 6 => .instr (.cmp (decide (w / 2147483648 % 2 = 1)) (w / 2097152 % 16) (w / 16384 % 128) (w / 128 % 128) (w % 128)) 1
  | 7 => .instr (.cmp (decide (w / 2147483648 % 2 = 1)) (w / 2097152 % 16) (w / 16384 % 128) (w / 128 % 128) (w % 128)) 1
  | 8 => .instr (.cmp (decide (w / 2147483648 % 2 = 1)) (w / 2097152 % 16) (w / 16384 % 128) (w / 128 % 128) (w % 128)) 1
  | 9 => .instr (.cmp (decide (w / 2147483648 % 2 = 1)) (w / 2097152 % 16) (w / 16384 % 128) (w / 128 % 128) (w % 128)) 1
  | _ => .bad .unassignedFn

/-- Major 0x06 of class 0 (R154). -/
def decSimt06 (w : Nat) : Decoded :=
  .instr (.addi (decide (w / 2147483648 % 2 = 1)) (w / 262144 % 128) (w / 2048 % 128) (w % 2048)) 1

/-- Major 0x07 of class 0 (R154). -/
def decSimt07 (w : Nat) : Decoded :=
  .instr (.andi (decide (w / 2147483648 % 2 = 1)) (w / 262144 % 128) (w / 2048 % 128) (w % 2048)) 1

/-- Major 0x08 of class 0 (R154). -/
def decSimt08 (w : Nat) : Decoded :=
  .instr (.ori (decide (w / 2147483648 % 2 = 1)) (w / 262144 % 128) (w / 2048 % 128) (w % 2048)) 1

/-- Major 0x09 of class 0 (R154). -/
def decSimt09 (w : Nat) : Decoded :=
  .instr (.xori (decide (w / 2147483648 % 2 = 1)) (w / 262144 % 128) (w / 2048 % 128) (w % 2048)) 1

/-- Major 0x0A of class 0 (R154). -/
def decSimt0A (w : Nat) : Decoded :=
  .instr (.movi (decide (w / 2147483648 % 2 = 1)) (w / 262144 % 128) (w % 262144)) 1

/-- Major 0x0B of class 0 (R154). -/
def decSimt0B (w : Nat) : Decoded :=
  .instr (.movhi (decide (w / 2147483648 % 2 = 1)) (w / 262144 % 128) (w % 262144)) 1

/-- Major 0x0C of class 0 (R154). -/
def decSimt0C (w : Nat) : Decoded :=
  .instr (.lea (decide (w / 2147483648 % 2 = 1)) (w / 262144 % 128) (w % 262144)) 1

/-- Major 0x0D of class 0 (R154). -/
def decSimt0D (w : Nat) : Decoded :=
  .instr (.bra (decide (w / 2147483648 % 2 = 1)) (w % 33554432)) 1

/-- Major 0x0E of class 0 (R154). -/
def decSimt0E (w : Nat) : Decoded :=
  .instr (.bz (decide (w / 2147483648 % 2 = 1)) (w / 262144 % 128) (w % 262144)) 1

/-- Major 0x0F of class 0 (R154). -/
def decSimt0F (w : Nat) : Decoded :=
  .instr (.bnz (decide (w / 2147483648 % 2 = 1)) (w / 262144 % 128) (w % 262144)) 1

/-- Major 0x10 of class 0 (R154). -/
def decSimt10 (w : Nat) : Decoded :=
  match w / 2097152 % 16 with
  | 0 => .instr (.fadd (decide (w / 2147483648 % 2 = 1)) (w / 16384 % 128) (w / 128 % 128) (w % 128)) 1
  | 1 => .instr (.fsub (decide (w / 2147483648 % 2 = 1)) (w / 16384 % 128) (w / 128 % 128) (w % 128)) 1
  | 2 => .instr (.fmul (decide (w / 2147483648 % 2 = 1)) (w / 16384 % 128) (w / 128 % 128) (w % 128)) 1
  | 3 => .instr (.ffma (decide (w / 2147483648 % 2 = 1)) (w / 16384 % 128) (w / 128 % 128) (w % 128)) 1
  | 4 => .instr (.fmin (decide (w / 2147483648 % 2 = 1)) (w / 16384 % 128) (w / 128 % 128) (w % 128)) 1
  | 5 => .instr (.fmax (decide (w / 2147483648 % 2 = 1)) (w / 16384 % 128) (w / 128 % 128) (w % 128)) 1
  | 6 => if w % 128 = 0 then .instr (.fabs (decide (w / 2147483648 % 2 = 1)) (w / 16384 % 128) (w / 128 % 128)) 1 else .bad .unusedField
  | 7 => if w % 128 = 0 then .instr (.fneg (decide (w / 2147483648 % 2 = 1)) (w / 16384 % 128) (w / 128 % 128)) 1 else .bad .unusedField
  | _ => .bad .unassignedFn

/-- Major 0x11 of class 0 (R154). -/
def decSimt11 (w : Nat) : Decoded :=
  match w / 2097152 % 16 with
  | 0 => .instr (.fcmp (decide (w / 2147483648 % 2 = 1)) (w / 2097152 % 8) (w / 16384 % 128) (w / 128 % 128) (w % 128)) 1
  | 1 => .instr (.fcmp (decide (w / 2147483648 % 2 = 1)) (w / 2097152 % 8) (w / 16384 % 128) (w / 128 % 128) (w % 128)) 1
  | 2 => .instr (.fcmp (decide (w / 2147483648 % 2 = 1)) (w / 2097152 % 8) (w / 16384 % 128) (w / 128 % 128) (w % 128)) 1
  | 3 => .instr (.fcmp (decide (w / 2147483648 % 2 = 1)) (w / 2097152 % 8) (w / 16384 % 128) (w / 128 % 128) (w % 128)) 1
  | 4 => .instr (.fcmp (decide (w / 2147483648 % 2 = 1)) (w / 2097152 % 8) (w / 16384 % 128) (w / 128 % 128) (w % 128)) 1
  | 5 => .instr (.fcmp (decide (w / 2147483648 % 2 = 1)) (w / 2097152 % 8) (w / 16384 % 128) (w / 128 % 128) (w % 128)) 1
  | 6 => .instr (.fcmp (decide (w / 2147483648 % 2 = 1)) (w / 2097152 % 8) (w / 16384 % 128) (w / 128 % 128) (w % 128)) 1
  | 7 => .instr (.fcmp (decide (w / 2147483648 % 2 = 1)) (w / 2097152 % 8) (w / 16384 % 128) (w / 128 % 128) (w % 128)) 1
  | 8 => if w % 128 = 0 then .instr (.fclass (decide (w / 2147483648 % 2 = 1)) (w / 16384 % 128) (w / 128 % 128)) 1 else .bad .unusedField
  | _ => .bad .unassignedFn

/-- Major 0x12 of class 0 (R154). -/
def decSimt12 (w : Nat) : Decoded :=
  match w / 2097152 % 16 with
  | 0 => if w % 128 = 0 then .instr (.frcp (decide (w / 2147483648 % 2 = 1)) (w / 16384 % 128) (w / 128 % 128)) 1 else .bad .unusedField
  | 1 => if w % 128 = 0 then .instr (.frsq (decide (w / 2147483648 % 2 = 1)) (w / 16384 % 128) (w / 128 % 128)) 1 else .bad .unusedField
  | 2 => if w % 128 = 0 then .instr (.fsqrt (decide (w / 2147483648 % 2 = 1)) (w / 16384 % 128) (w / 128 % 128)) 1 else .bad .unusedField
  | 3 => if w % 128 = 0 then .instr (.fexp2 (decide (w / 2147483648 % 2 = 1)) (w / 16384 % 128) (w / 128 % 128)) 1 else .bad .unusedField
  | 4 => if w % 128 = 0 then .instr (.flog2 (decide (w / 2147483648 % 2 = 1)) (w / 16384 % 128) (w / 128 % 128)) 1 else .bad .unusedField
  | 5 => if w % 128 = 0 then .instr (.fsin (decide (w / 2147483648 % 2 = 1)) (w / 16384 % 128) (w / 128 % 128)) 1 else .bad .unusedField
  | 6 => if w % 128 = 0 then .instr (.fcos (decide (w / 2147483648 % 2 = 1)) (w / 16384 % 128) (w / 128 % 128)) 1 else .bad .unusedField
  | 7 => if w % 128 = 0 then .instr (.ftanh (decide (w / 2147483648 % 2 = 1)) (w / 16384 % 128) (w / 128 % 128)) 1 else .bad .unusedField
  | _ => .bad .unassignedFn

/-- Major 0x13 of class 0 (R154). -/
def decSimt13 (w : Nat) : Decoded :=
  match w / 2097152 % 16 with
  | 0 => .instr (.hadd2 (decide (w / 2147483648 % 2 = 1)) (w / 16384 % 128) (w / 128 % 128) (w % 128)) 1
  | 1 => .instr (.hmul2 (decide (w / 2147483648 % 2 = 1)) (w / 16384 % 128) (w / 128 % 128) (w % 128)) 1
  | 2 => .instr (.hfma2 (decide (w / 2147483648 % 2 = 1)) (w / 16384 % 128) (w / 128 % 128) (w % 128)) 1
  | _ => .bad .unassignedFn

/-- Major 0x14 of class 0 (R154). -/
def decSimt14 (w : Nat) : Decoded :=
  match w / 2097152 % 16 with
  | 0 => if w % 128 = 0 then .instr (.cvtBf16F32Lo (decide (w / 2147483648 % 2 = 1)) (w / 16384 % 128) (w / 128 % 128)) 1 else .bad .unusedField
  | 1 => if w % 128 = 0 then .instr (.cvtBf16F32Hi (decide (w / 2147483648 % 2 = 1)) (w / 16384 % 128) (w / 128 % 128)) 1 else .bad .unusedField
  | 2 => if w % 128 = 0 then .instr (.cvtF16F32Lo (decide (w / 2147483648 % 2 = 1)) (w / 16384 % 128) (w / 128 % 128)) 1 else .bad .unusedField
  | 3 => if w % 128 = 0 then .instr (.cvtF16F32Hi (decide (w / 2147483648 % 2 = 1)) (w / 16384 % 128) (w / 128 % 128)) 1 else .bad .unusedField
  | 4 => .instr (.cvtE4m3x2F32Lo (decide (w / 2147483648 % 2 = 1)) (w / 16384 % 128) (w / 128 % 128) (w % 128)) 1
  | 5 => .instr (.cvtE4m3x2F32Hi (decide (w / 2147483648 % 2 = 1)) (w / 16384 % 128) (w / 128 % 128) (w % 128)) 1
  | 6 => .instr (.cvtE5m2x2F32Lo (decide (w / 2147483648 % 2 = 1)) (w / 16384 % 128) (w / 128 % 128) (w % 128)) 1
  | 7 => .instr (.cvtE5m2x2F32Hi (decide (w / 2147483648 % 2 = 1)) (w / 16384 % 128) (w / 128 % 128) (w % 128)) 1
  | 8 => .instr (.cvtF32Bf16 (decide (w / 2147483648 % 2 = 1)) (w / 16384 % 128) (w / 128 % 128) (w % 128)) 1
  | 9 => .instr (.cvtF32F16 (decide (w / 2147483648 % 2 = 1)) (w / 16384 % 128) (w / 128 % 128) (w % 128)) 1
  | 10 => .instr (.cvtF32E4m3 (decide (w / 2147483648 % 2 = 1)) (w / 16384 % 128) (w / 128 % 128) (w % 128)) 1
  | 11 => .instr (.cvtF32E5m2 (decide (w / 2147483648 % 2 = 1)) (w / 16384 % 128) (w / 128 % 128) (w % 128)) 1
  | _ => .bad .unassignedFn

/-- Major 0x15 of class 0 (R154). -/
def decSimt15 (w : Nat) : Decoded :=
  match w / 2097152 % 16 with
  | 0 => if w % 128 = 0 then .instr (.cvtS32F32 (decide (w / 2147483648 % 2 = 1)) (w / 2097152 % 4) (w / 16384 % 128) (w / 128 % 128)) 1 else .bad .unusedField
  | 1 => if w % 128 = 0 then .instr (.cvtS32F32 (decide (w / 2147483648 % 2 = 1)) (w / 2097152 % 4) (w / 16384 % 128) (w / 128 % 128)) 1 else .bad .unusedField
  | 2 => if w % 128 = 0 then .instr (.cvtS32F32 (decide (w / 2147483648 % 2 = 1)) (w / 2097152 % 4) (w / 16384 % 128) (w / 128 % 128)) 1 else .bad .unusedField
  | 3 => if w % 128 = 0 then .instr (.cvtS32F32 (decide (w / 2147483648 % 2 = 1)) (w / 2097152 % 4) (w / 16384 % 128) (w / 128 % 128)) 1 else .bad .unusedField
  | 4 => if w % 128 = 0 then .instr (.cvtZ32F32 (decide (w / 2147483648 % 2 = 1)) (w / 2097152 % 4) (w / 16384 % 128) (w / 128 % 128)) 1 else .bad .unusedField
  | 5 => if w % 128 = 0 then .instr (.cvtZ32F32 (decide (w / 2147483648 % 2 = 1)) (w / 2097152 % 4) (w / 16384 % 128) (w / 128 % 128)) 1 else .bad .unusedField
  | 6 => if w % 128 = 0 then .instr (.cvtZ32F32 (decide (w / 2147483648 % 2 = 1)) (w / 2097152 % 4) (w / 16384 % 128) (w / 128 % 128)) 1 else .bad .unusedField
  | 7 => if w % 128 = 0 then .instr (.cvtZ32F32 (decide (w / 2147483648 % 2 = 1)) (w / 2097152 % 4) (w / 16384 % 128) (w / 128 % 128)) 1 else .bad .unusedField
  | 8 => if w % 128 = 0 then .instr (.cvtF32S32 (decide (w / 2147483648 % 2 = 1)) (w / 16384 % 128) (w / 128 % 128)) 1 else .bad .unusedField
  | 9 => if w % 128 = 0 then .instr (.cvtF32Z32 (decide (w / 2147483648 % 2 = 1)) (w / 16384 % 128) (w / 128 % 128)) 1 else .bad .unusedField
  | 10 => if w % 128 = 0 then .instr (.cvtF32S64 (decide (w / 2147483648 % 2 = 1)) (w / 16384 % 128) (w / 128 % 128)) 1 else .bad .unusedField
  | 11 => if w % 128 = 0 then .instr (.cvtF32Z64 (decide (w / 2147483648 % 2 = 1)) (w / 16384 % 128) (w / 128 % 128)) 1 else .bad .unusedField
  | 12 => if w % 128 = 0 then .instr (.cvtS64F32Rz (decide (w / 2147483648 % 2 = 1)) (w / 16384 % 128) (w / 128 % 128)) 1 else .bad .unusedField
  | 13 => if w % 128 = 0 then .instr (.cvtZ64F32Rz (decide (w / 2147483648 % 2 = 1)) (w / 16384 % 128) (w / 128 % 128)) 1 else .bad .unusedField
  | _ => .bad .unassignedFn

/-- Major 0x16 of class 0 (R154). -/
def decSimt16 (w : Nat) : Decoded :=
  match w / 2097152 % 16 with
  | 0 => if w % 128 = 0 then .instr (.cvtS8S32Sat (decide (w / 2147483648 % 2 = 1)) (w / 16384 % 128) (w / 128 % 128)) 1 else .bad .unusedField
  | 1 => if w % 128 = 0 then .instr (.cvtS16S32Sat (decide (w / 2147483648 % 2 = 1)) (w / 16384 % 128) (w / 128 % 128)) 1 else .bad .unusedField
  | 2 => if w % 128 = 0 then .instr (.cvtZ8S32Sat (decide (w / 2147483648 % 2 = 1)) (w / 16384 % 128) (w / 128 % 128)) 1 else .bad .unusedField
  | 3 => if w % 128 = 0 then .instr (.cvtZ16S32Sat (decide (w / 2147483648 % 2 = 1)) (w / 16384 % 128) (w / 128 % 128)) 1 else .bad .unusedField
  | 4 => if w % 128 = 0 then .instr (.cvtZ8Z32Sat (decide (w / 2147483648 % 2 = 1)) (w / 16384 % 128) (w / 128 % 128)) 1 else .bad .unusedField
  | 5 => if w % 128 = 0 then .instr (.cvtZ16Z32Sat (decide (w / 2147483648 % 2 = 1)) (w / 16384 % 128) (w / 128 % 128)) 1 else .bad .unusedField
  | 6 => if w % 128 = 0 then .instr (.cvtS64S32 (decide (w / 2147483648 % 2 = 1)) (w / 16384 % 128) (w / 128 % 128)) 1 else .bad .unusedField
  | 7 => if w % 128 = 0 then .instr (.cvtZ64Z32 (decide (w / 2147483648 % 2 = 1)) (w / 16384 % 128) (w / 128 % 128)) 1 else .bad .unusedField
  | 8 => if w % 128 = 0 then .instr (.cvtS32S64Sat (decide (w / 2147483648 % 2 = 1)) (w / 16384 % 128) (w / 128 % 128)) 1 else .bad .unusedField
  | 9 => if w % 128 = 0 then .instr (.cvtZ32Z64Sat (decide (w / 2147483648 % 2 = 1)) (w / 16384 % 128) (w / 128 % 128)) 1 else .bad .unusedField
  | _ => .bad .unassignedFn

/-- Major 0x17 of class 0 (R154). -/
def decSimt17 (w : Nat) : Decoded :=
  match w / 2097152 % 16 with
  | 0 => if w % 128 = 0 then .instr (.qnt (decide (w / 2147483648 % 2 = 1)) (w / 2097152 % 16) (w / 16384 % 128) (w / 128 % 128)) 1 else .bad .unusedField
  | 1 => if w % 128 = 0 then .instr (.qnt (decide (w / 2147483648 % 2 = 1)) (w / 2097152 % 16) (w / 16384 % 128) (w / 128 % 128)) 1 else .bad .unusedField
  | 2 => if w % 128 = 0 then .instr (.qnt (decide (w / 2147483648 % 2 = 1)) (w / 2097152 % 16) (w / 16384 % 128) (w / 128 % 128)) 1 else .bad .unusedField
  | 3 => if w % 128 = 0 then .instr (.qnt (decide (w / 2147483648 % 2 = 1)) (w / 2097152 % 16) (w / 16384 % 128) (w / 128 % 128)) 1 else .bad .unusedField
  | 4 => if w % 128 = 0 then .instr (.qnt (decide (w / 2147483648 % 2 = 1)) (w / 2097152 % 16) (w / 16384 % 128) (w / 128 % 128)) 1 else .bad .unusedField
  | 5 => if w % 128 = 0 then .instr (.qnt (decide (w / 2147483648 % 2 = 1)) (w / 2097152 % 16) (w / 16384 % 128) (w / 128 % 128)) 1 else .bad .unusedField
  | 6 => if w % 128 = 0 then .instr (.qnt (decide (w / 2147483648 % 2 = 1)) (w / 2097152 % 16) (w / 16384 % 128) (w / 128 % 128)) 1 else .bad .unusedField
  | 7 => if w % 128 = 0 then .instr (.qnt (decide (w / 2147483648 % 2 = 1)) (w / 2097152 % 16) (w / 16384 % 128) (w / 128 % 128)) 1 else .bad .unusedField
  | 8 => if w % 128 = 0 then .instr (.qnt (decide (w / 2147483648 % 2 = 1)) (w / 2097152 % 16) (w / 16384 % 128) (w / 128 % 128)) 1 else .bad .unusedField
  | _ => .bad .unassignedFn

/-- Major 0x18 of class 0 (R154). -/
def decSimt18 (w : Nat) : Decoded :=
  match w / 2097152 % 16 with
  | 0 => if w % 128 = 0 then .instr (.dqnt (decide (w / 2147483648 % 2 = 1)) (w / 16384 % 128) (w / 128 % 128)) 1 else .bad .unusedField
  | _ => .bad .unassignedFn

/-- Major 0x1A of class 0 (R154). -/
def decSimt1A (w : Nat) : Decoded :=
  match w / 2097152 % 16 with
  | 0 => if w / 2147483648 % 2 = 0 then .instr (.shfl (w / 16384 % 128) (w / 128 % 128) (w % 128)) 1 else .bad .unusedField
  | 1 => if w / 2147483648 % 2 = 0 then .instr (.bcast (w / 16384 % 128) (w / 128 % 128) (w % 128)) 1 else .bad .unusedField
  | 2 => if w / 2147483648 % 2 = 0 then .instr (.vote (w / 16384 % 128) (w / 128 % 128) (w % 128)) 1 else .bad .unusedField
  | 3 => if w % 128 = 0 ∧ w / 2147483648 % 2 = 0 then .instr (.matchLanes (w / 16384 % 128) (w / 128 % 128)) 1 else .bad .unusedField
  | 4 => if w % 128 = 0 ∧ w / 2147483648 % 2 = 0 then .instr (.wred (w / 2097152 % 16) (w / 16384 % 128) (w / 128 % 128)) 1 else .bad .unusedField
  | 5 => if w % 128 = 0 ∧ w / 2147483648 % 2 = 0 then .instr (.wred (w / 2097152 % 16) (w / 16384 % 128) (w / 128 % 128)) 1 else .bad .unusedField
  | 6 => if w % 128 = 0 ∧ w / 2147483648 % 2 = 0 then .instr (.wred (w / 2097152 % 16) (w / 16384 % 128) (w / 128 % 128)) 1 else .bad .unusedField
  | 7 => if w % 128 = 0 ∧ w / 2147483648 % 2 = 0 then .instr (.wred (w / 2097152 % 16) (w / 16384 % 128) (w / 128 % 128)) 1 else .bad .unusedField
  | 8 => if w % 128 = 0 ∧ w / 2147483648 % 2 = 0 then .instr (.wred (w / 2097152 % 16) (w / 16384 % 128) (w / 128 % 128)) 1 else .bad .unusedField
  | 9 => if w % 128 = 0 ∧ w / 2147483648 % 2 = 0 then .instr (.wred (w / 2097152 % 16) (w / 16384 % 128) (w / 128 % 128)) 1 else .bad .unusedField
  | 10 => if w / 2147483648 % 2 = 0 then .instr (.wscan (w / 2097152 % 16) (w / 16384 % 128) (w / 128 % 128) (w % 128)) 1 else .bad .unusedField
  | 11 => if w / 2147483648 % 2 = 0 then .instr (.wscan (w / 2097152 % 16) (w / 16384 % 128) (w / 128 % 128) (w % 128)) 1 else .bad .unusedField
  | 12 => if w / 2147483648 % 2 = 0 then .instr (.wscan (w / 2097152 % 16) (w / 16384 % 128) (w / 128 % 128) (w % 128)) 1 else .bad .unusedField
  | 13 => if w / 2147483648 % 2 = 0 then .instr (.wscan (w / 2097152 % 16) (w / 16384 % 128) (w / 128 % 128) (w % 128)) 1 else .bad .unusedField
  | 14 => if w / 2147483648 % 2 = 0 then .instr (.wscan (w / 2097152 % 16) (w / 16384 % 128) (w / 128 % 128) (w % 128)) 1 else .bad .unusedField
  | _ => if w / 2147483648 % 2 = 0 then .instr (.wscan (w / 2097152 % 16) (w / 16384 % 128) (w / 128 % 128) (w % 128)) 1 else .bad .unusedField

/-- Major 0x1B of class 0 (R154). -/
def decSimt1B (w : Nat) : Decoded :=
  if w / 2048 % 128 = 0 then .instr (.group (decide (w / 2147483648 % 2 = 1)) (w / 262144 % 128) (w / 256 % 8) (w % 256)) 1 else .bad .unusedField

/-- Major 0x1C of class 0 (R154). -/
def decSimt1C (w : Nat) : Decoded :=
  .instr (.join (decide (w / 2147483648 % 2 = 1)) (w / 262144 % 128) (w / 2048 % 128) (w / 256 % 8) (w % 256)) 1

/-- Major 0x1D of class 0 (R154). -/
def decSimt1D (w : Nat) : Decoded :=
  if w % 2048 = 0 then .instr (.park (decide (w / 2147483648 % 2 = 1)) (w / 262144 % 128) (w / 2048 % 128)) 1 else .bad .unusedField

/-- Major 0x1E of class 0 (R154). -/
def decSimt1E (w : Nat) : Decoded :=
  match w / 2097152 % 16 with
  | 0 => if w % 128 = 0 then .instr (.relopen (decide (w / 2147483648 % 2 = 1)) (w / 16384 % 128) (w / 128 % 128)) 1 else .bad .unusedField
  | 1 => if w % 128 = 0 then .instr (.relseal (decide (w / 2147483648 % 2 = 1)) (w / 16384 % 128) (w / 128 % 128)) 1 else .bad .unusedField
  | 2 => if w % 128 = 0 then .instr (.relcnt (decide (w / 2147483648 % 2 = 1)) (w / 16384 % 128) (w / 128 % 128)) 1 else .bad .unusedField
  | 3 => if w / 16384 % 128 = 0 then .instr (.fork (decide (w / 2147483648 % 2 = 1)) (w / 128 % 128) (w % 128)) 1 else .bad .unusedField
  | 4 => if w % 2097152 = 0 then .instr (.rdv) 1 else .bad .unusedField
  | _ => .bad .unassignedFn

/-- Major 0x1F of class 0 (R154). -/
def decSimt1F (w : Nat) : Decoded :=
  match w / 2097152 % 16 with
  | 0 => if w % 128 = 0 ∧ w / 16384 % 128 = 0 then .instr (.cpush (decide (w / 2147483648 % 2 = 1)) (w / 128 % 128)) 1 else .bad .unusedField
  | 1 => if w % 128 = 0 ∧ w / 16384 % 128 = 0 then .instr (.jcdec (decide (w / 2147483648 % 2 = 1)) (w / 128 % 128)) 1 else .bad .unusedField
  | 2 => if w % 128 = 0 then .instr (.dqpush (decide (w / 2147483648 % 2 = 1)) (w / 16384 % 128) (w / 128 % 128)) 1 else .bad .unusedField
  | 3 => if w % 16384 = 0 then .instr (.dqpop (decide (w / 2147483648 % 2 = 1)) (w / 16384 % 128)) 1 else .bad .unusedField
  | 4 => if w % 128 = 0 then .instr (.dqsteal (decide (w / 2147483648 % 2 = 1)) (w / 16384 % 128) (w / 128 % 128)) 1 else .bad .unusedField
  | 5 => if w / 128 % 16384 = 0 then .instr (.reggrow (decide (w / 2147483648 % 2 = 1)) (w % 128)) 1 else .bad .unusedField
  | 6 => if w / 128 % 16384 = 0 then .instr (.regshrink (decide (w / 2147483648 % 2 = 1)) (w % 128)) 1 else .bad .unusedField
  | 7 => if w % 128 = 0 then .instr (.launch (decide (w / 2147483648 % 2 = 1)) (w / 16384 % 128) (w / 128 % 128)) 1 else .bad .unusedField
  | _ => .bad .unassignedFn

/-- Major 0x20 of class 0 (R154). -/
def decSimt20 (w : Nat) : Decoded :=
  .instr (.ldS8 (decide (w / 2147483648 % 2 = 1)) (w / 2097152 % 16) (w / 16384 % 128) (w / 128 % 128) (w % 128)) 1

/-- Major 0x21 of class 0 (R154). -/
def decSimt21 (w : Nat) : Decoded :=
  .instr (.ldZ8 (decide (w / 2147483648 % 2 = 1)) (w / 2097152 % 16) (w / 16384 % 128) (w / 128 % 128) (w % 128)) 1

/-- Major 0x22 of class 0 (R154). -/
def decSimt22 (w : Nat) : Decoded :=
  .instr (.ldS16 (decide (w / 2147483648 % 2 = 1)) (w / 2097152 % 16) (w / 16384 % 128) (w / 128 % 128) (w % 128)) 1

/-- Major 0x23 of class 0 (R154). -/
def decSimt23 (w : Nat) : Decoded :=
  .instr (.ldZ16 (decide (w / 2147483648 % 2 = 1)) (w / 2097152 % 16) (w / 16384 % 128) (w / 128 % 128) (w % 128)) 1

/-- Major 0x24 of class 0 (R154). -/
def decSimt24 (w : Nat) : Decoded :=
  .instr (.ld (decide (w / 2147483648 % 2 = 1)) (w / 2097152 % 16) (w / 16384 % 128) (w / 128 % 128) (w % 128)) 1

/-- Major 0x25 of class 0 (R154). -/
def decSimt25 (w : Nat) : Decoded :=
  .instr (.ld64 (decide (w / 2147483648 % 2 = 1)) (w / 2097152 % 16) (w / 16384 % 128) (w / 128 % 128) (w % 128)) 1

/-- Major 0x26 of class 0 (R154). -/
def decSimt26 (w : Nat) : Decoded :=
  .instr (.ld128 (decide (w / 2147483648 % 2 = 1)) (w / 2097152 % 16) (w / 16384 % 128) (w / 128 % 128) (w % 128)) 1

/-- Major 0x27 of class 0 (R154). -/
def decSimt27 (w : Nat) : Decoded :=
  .instr (.st8 (decide (w / 2147483648 % 2 = 1)) (w / 2097152 % 16) (w / 16384 % 128) (w / 128 % 128) (w % 128)) 1

/-- Major 0x28 of class 0 (R154). -/
def decSimt28 (w : Nat) : Decoded :=
  .instr (.st16 (decide (w / 2147483648 % 2 = 1)) (w / 2097152 % 16) (w / 16384 % 128) (w / 128 % 128) (w % 128)) 1

/-- Major 0x29 of class 0 (R154). -/
def decSimt29 (w : Nat) : Decoded :=
  .instr (.st (decide (w / 2147483648 % 2 = 1)) (w / 2097152 % 16) (w / 16384 % 128) (w / 128 % 128) (w % 128)) 1

/-- Major 0x2A of class 0 (R154). -/
def decSimt2A (w : Nat) : Decoded :=
  .instr (.st64 (decide (w / 2147483648 % 2 = 1)) (w / 2097152 % 16) (w / 16384 % 128) (w / 128 % 128) (w % 128)) 1

/-- Major 0x2B of class 0 (R154). -/
def decSimt2B (w : Nat) : Decoded :=
  .instr (.st128 (decide (w / 2147483648 % 2 = 1)) (w / 2097152 % 16) (w / 16384 % 128) (w / 128 % 128) (w % 128)) 1

/-- Major 0x2C of class 0 (R154). -/
def decSimt2C (w : Nat) : Decoded :=
  match w / 131072 % 16 with
  | 0 => .instr (.lds (decide (w / 2147483648 % 2 = 1)) (w / 2097152 % 16) (w / 1024 % 128) (w / 8 % 128) (w % 8)) 1
  | 1 => .instr (.lds64 (decide (w / 2147483648 % 2 = 1)) (w / 2097152 % 16) (w / 1024 % 128) (w / 8 % 128) (w % 8)) 1
  | 2 => .instr (.lds128 (decide (w / 2147483648 % 2 = 1)) (w / 2097152 % 16) (w / 1024 % 128) (w / 8 % 128) (w % 8)) 1
  | 4 => .instr (.sts (decide (w / 2147483648 % 2 = 1)) (w / 2097152 % 16) (w / 1024 % 128) (w / 8 % 128) (w % 8)) 1
  | 5 => .instr (.sts64 (decide (w / 2147483648 % 2 = 1)) (w / 2097152 % 16) (w / 1024 % 128) (w / 8 % 128) (w % 8)) 1
  | 6 => .instr (.sts128 (decide (w / 2147483648 % 2 = 1)) (w / 2097152 % 16) (w / 1024 % 128) (w / 8 % 128) (w % 8)) 1
  | _ => .bad .unassignedFn

/-- Major 0x2D of class 0 (R154). -/
def decSimt2D (w : Nat) : Decoded :=
  match w / 131072 % 16 with
  | 0 => .instr (.lda (decide (w / 2147483648 % 2 = 1)) (w / 2097152 % 16) (w / 1024 % 128) (w / 8 % 128) (w % 8)) 1
  | 1 => .instr (.lda64 (decide (w / 2147483648 % 2 = 1)) (w / 2097152 % 16) (w / 1024 % 128) (w / 8 % 128) (w % 8)) 1
  | 4 => .instr (.stl (decide (w / 2147483648 % 2 = 1)) (w / 2097152 % 16) (w / 1024 % 128) (w / 8 % 128) (w % 8)) 1
  | 5 => .instr (.stl64 (decide (w / 2147483648 % 2 = 1)) (w / 2097152 % 16) (w / 1024 % 128) (w / 8 % 128) (w % 8)) 1
  | _ => .bad .unassignedFn

/-- Major 0x2E of class 0 (R154). -/
def decSimt2E (w : Nat) : Decoded :=
  match w / 131072 % 16 with
  | 0 => if w / 8 % 128 = 0 then .instr (.prefL2) 1 else .bad .unusedField
  | 1 => if w / 8 % 128 = 0 then .instr (.prefL2) 1 else .bad .unusedField
  | 2 => if w / 8 % 128 = 0 then .instr (.prefL2) 1 else .bad .unusedField
  | 3 => if w / 8 % 128 = 0 then .instr (.prefL2) 1 else .bad .unusedField
  | 4 => if w / 8 % 128 = 0 then .instr (.prefL1) 1 else .bad .unusedField
  | 5 => if w / 8 % 128 = 0 then .instr (.prefL1) 1 else .bad .unusedField
  | 6 => if w / 8 % 128 = 0 then .instr (.prefL1) 1 else .bad .unusedField
  | 7 => if w / 8 % 128 = 0 then .instr (.prefL1) 1 else .bad .unusedField
  | _ => .bad .unassignedFn

/-- Major 0x2F of class 0 (R154). -/
def decSimt2F (w : Nat) : Decoded :=
  match w / 131072 % 16 with
  | 0 => .instr (.radd (decide (w / 2147483648 % 2 = 1)) (w / 2097152 % 16) (w / 131072 % 16) (w / 1024 % 128) (w / 8 % 128) (w % 8)) 1
  | 1 => .instr (.radd (decide (w / 2147483648 % 2 = 1)) (w / 2097152 % 16) (w / 131072 % 16) (w / 1024 % 128) (w / 8 % 128) (w % 8)) 1
  | 2 => .instr (.radd (decide (w / 2147483648 % 2 = 1)) (w / 2097152 % 16) (w / 131072 % 16) (w / 1024 % 128) (w / 8 % 128) (w % 8)) 1
  | 3 => .instr (.radd (decide (w / 2147483648 % 2 = 1)) (w / 2097152 % 16) (w / 131072 % 16) (w / 1024 % 128) (w / 8 % 128) (w % 8)) 1
  | 4 => .instr (.radd (decide (w / 2147483648 % 2 = 1)) (w / 2097152 % 16) (w / 131072 % 16) (w / 1024 % 128) (w / 8 % 128) (w % 8)) 1
  | 5 => .instr (.radd (decide (w / 2147483648 % 2 = 1)) (w / 2097152 % 16) (w / 131072 % 16) (w / 1024 % 128) (w / 8 % 128) (w % 8)) 1
  | 6 => .instr (.radd (decide (w / 2147483648 % 2 = 1)) (w / 2097152 % 16) (w / 131072 % 16) (w / 1024 % 128) (w / 8 % 128) (w % 8)) 1
  | 7 => .instr (.radd (decide (w / 2147483648 % 2 = 1)) (w / 2097152 % 16) (w / 131072 % 16) (w / 1024 % 128) (w / 8 % 128) (w % 8)) 1
  | 8 => .instr (.radd (decide (w / 2147483648 % 2 = 1)) (w / 2097152 % 16) (w / 131072 % 16) (w / 1024 % 128) (w / 8 % 128) (w % 8)) 1
  | _ => .bad .unassignedFn

/-- Major 0x30 of class 0 (R154). -/
def decSimt30 (w : Nat) : Decoded :=
  .instr (.atomAdd (decide (w / 2147483648 % 2 = 1)) (w / 2097152 % 16) (w / 16384 % 128) (w / 128 % 128) (w % 128)) 1

/-- Major 0x31 of class 0 (R154). -/
def decSimt31 (w : Nat) : Decoded :=
  .instr (.atomF32 (decide (w / 2147483648 % 2 = 1)) (w / 2097152 % 16) (w / 16384 % 128) (w / 128 % 128) (w % 128)) 1

/-- Major 0x32 of class 0 (R154). -/
def decSimt32 (w : Nat) : Decoded :=
  .instr (.atomMins (decide (w / 2147483648 % 2 = 1)) (w / 2097152 % 16) (w / 16384 % 128) (w / 128 % 128) (w % 128)) 1

/-- Major 0x33 of class 0 (R154). -/
def decSimt33 (w : Nat) : Decoded :=
  .instr (.atomMaxs (decide (w / 2147483648 % 2 = 1)) (w / 2097152 % 16) (w / 16384 % 128) (w / 128 % 128) (w % 128)) 1

/-- Major 0x34 of class 0 (R154). -/
def decSimt34 (w : Nat) : Decoded :=
  .instr (.atomMinz (decide (w / 2147483648 % 2 = 1)) (w / 2097152 % 16) (w / 16384 % 128) (w / 128 % 128) (w % 128)) 1

/-- Major 0x35 of class 0 (R154). -/
def decSimt35 (w : Nat) : Decoded :=
  .instr (.atomMaxz (decide (w / 2147483648 % 2 = 1)) (w / 2097152 % 16) (w / 16384 % 128) (w / 128 % 128) (w % 128)) 1

/-- Major 0x36 of class 0 (R154). -/
def decSimt36 (w : Nat) : Decoded :=
  .instr (.atomAnd (decide (w / 2147483648 % 2 = 1)) (w / 2097152 % 16) (w / 16384 % 128) (w / 128 % 128) (w % 128)) 1

/-- Major 0x37 of class 0 (R154). -/
def decSimt37 (w : Nat) : Decoded :=
  .instr (.atomOr (decide (w / 2147483648 % 2 = 1)) (w / 2097152 % 16) (w / 16384 % 128) (w / 128 % 128) (w % 128)) 1

/-- Major 0x38 of class 0 (R154). -/
def decSimt38 (w : Nat) : Decoded :=
  .instr (.atomXor (decide (w / 2147483648 % 2 = 1)) (w / 2097152 % 16) (w / 16384 % 128) (w / 128 % 128) (w % 128)) 1

/-- Major 0x39 of class 0 (R154). -/
def decSimt39 (w : Nat) : Decoded :=
  .instr (.atomExch (decide (w / 2147483648 % 2 = 1)) (w / 2097152 % 16) (w / 16384 % 128) (w / 128 % 128) (w % 128)) 1

/-- Major 0x3A of class 0 (R154). -/
def decSimt3A (w : Nat) : Decoded :=
  .instr (.atomCas (decide (w / 2147483648 % 2 = 1)) (w / 2097152 % 16) (w / 16384 % 128) (w / 128 % 128) (w % 128)) 1

/-- Major 0x3B of class 0 (R154). -/
def decSimt3B (w : Nat) : Decoded :=
  match w / 2097152 % 16 with
  | 0 => if w % 2097152 = 0 then .instr (.fence) 1 else .bad .unusedField
  | 1 => if w / 16384 % 128 = 0 then .instr (.xfence (decide (w / 2147483648 % 2 = 1)) (w / 128 % 128) (w % 128)) 1 else .bad .unusedField
  | 2 => if w / 128 % 16384 = 0 then .instr (.lbar (decide (w / 2147483648 % 2 = 1)) (w % 128)) 1 else .bad .unusedField
  | 3 => if w / 16384 % 128 = 0 then .instr (.sppin (decide (w / 2147483648 % 2 = 1)) (w / 128 % 128) (w % 128)) 1 else .bad .unusedField
  | 4 => if w / 16384 % 128 = 0 then .instr (.spunpin (decide (w / 2147483648 % 2 = 1)) (w / 128 % 128) (w % 128)) 1 else .bad .unusedField
  | 5 => if w / 16384 % 128 = 0 then .instr (.rbpush (decide (w / 2147483648 % 2 = 1)) (w / 128 % 128) (w % 128)) 1 else .bad .unusedField
  | 6 => if w % 128 = 0 then .instr (.rbpop (decide (w / 2147483648 % 2 = 1)) (w / 16384 % 128) (w / 128 % 128)) 1 else .bad .unusedField
  | 7 => .instr (.rbfree (decide (w / 2147483648 % 2 = 1)) (w / 16384 % 128) (w / 128 % 128) (w % 128)) 1
  | 8 => if w / 128 % 128 = 0 then .instr (.tqpop (decide (w / 2147483648 % 2 = 1)) (w / 16384 % 128) (w % 128)) 1 else .bad .unusedField
  | _ => .bad .unassignedFn

/-- Major 0x3C of class 0 (R154). -/
def decSimt3C (w : Nat) : Decoded :=
  match w / 2097152 % 16 with
  | 0 => if w / 16384 % 128 = 0 then .instr (.gsig (decide (w / 2147483648 % 2 = 1)) (w / 128 % 128) (w % 128)) 1 else .bad .unusedField
  | 1 => .instr (.gwait (decide (w / 2147483648 % 2 = 1)) (w / 16384 % 128) (w / 128 % 128) (w % 128)) 1
  | 2 => if w % 128 = 0 then .instr (.grd (decide (w / 2147483648 % 2 = 1)) (w / 16384 % 128) (w / 128 % 128)) 1 else .bad .unusedField
  | 3 => .instr (.gtry (decide (w / 2147483648 % 2 = 1)) (w / 16384 % 128) (w / 128 % 128) (w % 128)) 1
  | _ => .bad .unassignedFn

/-- Major 0x3D of class 0 (R154). -/
def decSimt3D (w : Nat) : Decoded :=
  match w / 131072 % 16 with
  | 0 => .instr (.mldr (decide (w / 2147483648 % 2 = 1)) (w / 2097152 % 16) (w / 1024 % 128) (w / 8 % 128) (w % 8)) 1
  | 1 => .instr (.mst (decide (w / 2147483648 % 2 = 1)) (w / 2097152 % 16) (w / 1024 % 128) (w / 8 % 128) (w % 8)) 1
  | _ => .bad .unassignedFn

/-- Major 0x3E of class 0 (R154). -/
def decSimt3E (w : Nat) : Decoded :=
  match w / 2097152 % 16 with
  | 0 => if w / 128 % 16384 = 0 then .instr (.trap) 1 else .bad .unusedField
  | 1 => if w % 2097152 = 0 then .instr (.trapret) 1 else .bad .unusedField
  | 2 => if w % 2097152 = 0 then .instr (.bkpt) 1 else .bad .unusedField
  | 3 => if w / 128 % 128 = 0 then .instr (.csrr (decide (w / 2147483648 % 2 = 1)) (w / 16384 % 128) (w % 128)) 1 else .bad .unusedField
  | 4 => if w / 16384 % 128 = 0 then .instr (.csrw (decide (w / 2147483648 % 2 = 1)) (w / 128 % 128) (w % 128)) 1 else .bad .unusedField
  | 5 => if w / 16384 % 128 = 0 then .instr (.tlbinv (decide (w / 2147483648 % 2 = 1)) (w / 128 % 128) (w % 128)) 1 else .bad .unusedField
  | 6 => if w / 16384 % 128 = 0 then .instr (.cinv (decide (w / 2147483648 % 2 = 1)) (w / 128 % 128) (w % 128)) 1 else .bad .unusedField
  | 7 => .instr (.tokxfer (decide (w / 2147483648 % 2 = 1)) (w / 16384 % 128) (w / 128 % 128) (w % 128)) 1
  | 8 => if w / 16384 % 128 = 0 then .instr (.clklock (decide (w / 2147483648 % 2 = 1)) (w / 128 % 128) (w % 128)) 1 else .bad .unusedField
  | 9 => if w % 128 = 0 ∧ w / 16384 % 128 = 0 then .instr (.sleep (decide (w / 2147483648 % 2 = 1)) (w / 128 % 128)) 1 else .bad .unusedField
  | 10 => if w / 16384 % 128 = 0 then .instr (.watch (decide (w / 2147483648 % 2 = 1)) (w / 128 % 128) (w % 128)) 1 else .bad .unusedField
  | _ => .bad .unassignedFn

/-- SWAIT and END with a nonzero field: A is unused (R152), D and B have the one value of their columns (R283). -/
def decUnusedShared (w : Nat) : Decoded := if w / 128 % 128 = 0 then .bad .operand else .bad .unusedField

/-- Major 0x00 of classes 1 to 4 (R155). -/
def decShared00 (w : Nat) : Decoded :=
  match w / 2097152 % 16 with
  | 0 => if w % 128 = 0 then .instr (.smov (decide (w / 2147483648 % 2 = 1)) (w / 16384 % 128) (w / 128 % 128)) 1 else .bad .operand
  | 1 => .instr (.sadd (decide (w / 2147483648 % 2 = 1)) (w / 16384 % 128) (w / 128 % 128) (w % 128)) 1
  | 2 => if w % 2097152 = 0 then .instr (.swait) 1 else decUnusedShared w
  | 3 => if w / 16384 % 128 = 0 then .instr (.ssig (decide (w / 2147483648 % 2 = 1)) (w / 128 % 128) (w % 128)) 1 else if w / 16384 % 128 = 1 then .instr (.ssig64 (decide (w / 2147483648 % 2 = 1)) (w / 128 % 128) (w % 128)) 1 else if w / 16384 % 128 = 2 then .instr (.ssigAdd64 (decide (w / 2147483648 % 2 = 1)) (w / 128 % 128) (w % 128)) 1 else .bad .operand
  | 4 => if w % 128 = 0 then .instr (.slda (decide (w / 2147483648 % 2 = 1)) (w / 16384 % 128) (w / 128 % 128)) 1 else if w % 128 = 1 then .instr (.slda64 (decide (w / 2147483648 % 2 = 1)) (w / 16384 % 128) (w / 128 % 128)) 1 else .bad .operand
  | 5 => if w % 2097152 = 0 then .instr (.endProg) 1 else decUnusedShared w
  | _ => .bad .unassignedFn

/-- Major 0x01 of classes 1 to 4 (R155). -/
def decShared01 (w : Nat) : Decoded :=
  .instr (.sli (decide (w / 2147483648 % 2 = 1)) (w / 262144 % 128) (w % 262144)) 1

/-- Major 0x02 of classes 1 to 4 (R155). -/
def decShared02 (w : Nat) : Decoded :=
  .instr (.sbnz (decide (w / 2147483648 % 2 = 1)) (w / 262144 % 128) (w % 262144)) 1

/-- Major 0x03 of classes 1 to 4 (R155). -/
def decShared03 (w : Nat) : Decoded :=
  .instr (.sloop (decide (w / 2147483648 % 2 = 1)) (w / 262144 % 128) (w % 262144)) 1

/-- Major 0x10 of class 1 (R155). -/
def decMatrix10 (w : Nat) : Decoded :=
  match w / 2097152 % 16 with
  | 0 => if w % 128 = 0 then .instr (.tcfg (decide (w / 2147483648 % 2 = 1)) (decide (w / 16777216 % 2 = 1)) (w / 16384 % 128) (w / 128 % 128)) 1 else .bad .unusedField
  | 8 => if w % 128 = 0 then .instr (.tcfg (decide (w / 2147483648 % 2 = 1)) (decide (w / 16777216 % 2 = 1)) (w / 16384 % 128) (w / 128 % 128)) 1 else .bad .unusedField
  | _ => .bad .unassignedFn

/-- Major 0x11 of class 1 (R155). -/
def decMatrix11 (w : Nat) : Decoded :=
  match w / 2097152 % 16 with
  | 0 => if w % 16384 = 0 then .instr (.tzero (decide (w / 2147483648 % 2 = 1)) (decide (w / 16777216 % 2 = 1)) (w / 16384 % 128)) 1 else .bad .unusedField
  | 1 => if w / 128 % 128 = 0 then .instr (.tzeroRows (decide (w / 2147483648 % 2 = 1)) (decide (w / 16777216 % 2 = 1)) (w / 16384 % 128) (w % 128)) 1 else .bad .unusedField
  | 8 => if w % 16384 = 0 then .instr (.tzero (decide (w / 2147483648 % 2 = 1)) (decide (w / 16777216 % 2 = 1)) (w / 16384 % 128)) 1 else .bad .unusedField
  | 9 => if w / 128 % 128 = 0 then .instr (.tzeroRows (decide (w / 2147483648 % 2 = 1)) (decide (w / 16777216 % 2 = 1)) (w / 16384 % 128) (w % 128)) 1 else .bad .unusedField
  | _ => .bad .unassignedFn

/-- Major 0x12 of class 1 (R155). -/
def decMatrix12 (w : Nat) : Decoded :=
  match w / 2097152 % 16 with
  | 0 => .instr (.twr (decide (w / 2147483648 % 2 = 1)) (decide (w / 16777216 % 2 = 1)) (w / 16384 % 128) (w / 128 % 128) (w % 128)) 1
  | 8 => .instr (.twr (decide (w / 2147483648 % 2 = 1)) (decide (w / 16777216 % 2 = 1)) (w / 16384 % 128) (w / 128 % 128) (w % 128)) 1
  | _ => .bad .unassignedFn

/-- Major 0x13 of class 1 (R155). -/
def decMatrix13 (w : Nat) : Decoded :=
  match w / 2097152 % 16 with
  | 0 => if w % 128 = 0 then .instr (.mma (decide (w / 2147483648 % 2 = 1)) (decide (w / 16777216 % 2 = 1)) (w / 16384 % 128) (w / 128 % 128)) 1 else .bad .unusedField
  | 8 => if w % 128 = 0 then .instr (.mma (decide (w / 2147483648 % 2 = 1)) (decide (w / 16777216 % 2 = 1)) (w / 16384 % 128) (w / 128 % 128)) 1 else .bad .unusedField
  | _ => .bad .unassignedFn

/-- Major 0x14 of class 1 (R155). -/
def decMatrix14 (w : Nat) : Decoded :=
  match w / 2097152 % 16 with
  | 0 => if w % 128 = 0 then .instr (.mmas (decide (w / 2147483648 % 2 = 1)) (decide (w / 16777216 % 2 = 1)) (w / 16384 % 128) (w / 128 % 128)) 1 else .bad .unusedField
  | 8 => if w % 128 = 0 then .instr (.mmas (decide (w / 2147483648 % 2 = 1)) (decide (w / 16777216 % 2 = 1)) (w / 16384 % 128) (w / 128 % 128)) 1 else .bad .unusedField
  | _ => .bad .unassignedFn

/-- Major 0x15 of class 1 (R155). -/
def decMatrix15 (w : Nat) : Decoded :=
  match w / 2097152 % 16 with
  | 0 => if w % 128 = 0 then .instr (.mmao (decide (w / 2147483648 % 2 = 1)) (decide (w / 16777216 % 2 = 1)) (w / 16384 % 128) (w / 128 % 128)) 1 else .bad .unusedField
  | 8 => if w % 128 = 0 then .instr (.mmao (decide (w / 2147483648 % 2 = 1)) (decide (w / 16777216 % 2 = 1)) (w / 16384 % 128) (w / 128 % 128)) 1 else .bad .unusedField
  | _ => .bad .unassignedFn

/-- Major 0x16 of class 1 (R155). -/
def decMatrix16 (w : Nat) : Decoded :=
  match w / 2097152 % 16 with
  | 0 => .instr (.accrd (decide (w / 2147483648 % 2 = 1)) (decide (w / 16777216 % 2 = 1)) (w / 16384 % 128) (w / 128 % 128) (w % 128)) 1
  | 1 => .instr (.accrdClr (decide (w / 2147483648 % 2 = 1)) (decide (w / 16777216 % 2 = 1)) (w / 16384 % 128) (w / 128 % 128) (w % 128)) 1
  | 8 => .instr (.accrd (decide (w / 2147483648 % 2 = 1)) (decide (w / 16777216 % 2 = 1)) (w / 16384 % 128) (w / 128 % 128) (w % 128)) 1
  | 9 => .instr (.accrdClr (decide (w / 2147483648 % 2 = 1)) (decide (w / 16777216 % 2 = 1)) (w / 16384 % 128) (w / 128 % 128) (w % 128)) 1
  | _ => .bad .unassignedFn

/-- Major 0x17 of class 1 (R155). -/
def decMatrix17 (w : Nat) : Decoded :=
  match w / 2097152 % 16 with
  | 0 => if w % 16384 = 0 then .instr (.accnorm (decide (w / 2147483648 % 2 = 1)) (decide (w / 16777216 % 2 = 1)) (w / 16384 % 128)) 1 else .bad .unusedField
  | 1 => if w / 128 % 128 = 0 then .instr (.accnormRows (decide (w / 2147483648 % 2 = 1)) (decide (w / 16777216 % 2 = 1)) (w / 16384 % 128) (w % 128)) 1 else .bad .unusedField
  | 8 => if w % 16384 = 0 then .instr (.accnorm (decide (w / 2147483648 % 2 = 1)) (decide (w / 16777216 % 2 = 1)) (w / 16384 % 128)) 1 else .bad .unusedField
  | 9 => if w / 128 % 128 = 0 then .instr (.accnormRows (decide (w / 2147483648 % 2 = 1)) (decide (w / 16777216 % 2 = 1)) (w / 16384 % 128) (w % 128)) 1 else .bad .unusedField
  | _ => .bad .unassignedFn

/-- Major 0x18 of class 1 (R155). -/
def decMatrix18 (w : Nat) : Decoded :=
  match w / 2097152 % 16 with
  | 0 => .instr (.acchrRow (decide (w / 2147483648 % 2 = 1)) (decide (w / 16777216 % 2 = 1)) (w / 16384 % 128) (w / 128 % 128) (w % 128)) 1
  | 1 => .instr (.acchrExp (decide (w / 2147483648 % 2 = 1)) (decide (w / 16777216 % 2 = 1)) (w / 16384 % 128) (w / 128 % 128) (w % 128)) 1
  | 2 => if w % 128 = 0 then .instr (.acchrTile (decide (w / 2147483648 % 2 = 1)) (decide (w / 16777216 % 2 = 1)) (w / 16384 % 128) (w / 128 % 128)) 1 else .bad .unusedField
  | 8 => .instr (.acchrRow (decide (w / 2147483648 % 2 = 1)) (decide (w / 16777216 % 2 = 1)) (w / 16384 % 128) (w / 128 % 128) (w % 128)) 1
  | 9 => .instr (.acchrExp (decide (w / 2147483648 % 2 = 1)) (decide (w / 16777216 % 2 = 1)) (w / 16384 % 128) (w / 128 % 128) (w % 128)) 1
  | 10 => if w % 128 = 0 then .instr (.acchrTile (decide (w / 2147483648 % 2 = 1)) (decide (w / 16777216 % 2 = 1)) (w / 16384 % 128) (w / 128 % 128)) 1 else .bad .unusedField
  | _ => .bad .unassignedFn

/-- Major 0x19 of class 1 (R155). -/
def decMatrix19 (w : Nat) : Decoded :=
  match w / 2097152 % 16 with
  | 0 => if w % 128 = 0 ∧ w / 16384 % 128 = 0 then .instr (.msync (decide (w / 2147483648 % 2 = 1)) (decide (w / 16777216 % 2 = 1)) (w / 128 % 128)) 1 else .bad .unusedField
  | 8 => if w % 128 = 0 ∧ w / 16384 % 128 = 0 then .instr (.msync (decide (w / 2147483648 % 2 = 1)) (decide (w / 16777216 % 2 = 1)) (w / 128 % 128)) 1 else .bad .unusedField
  | _ => .bad .unassignedFn

/-- Major 0x10 of class 2 (R155). -/
def decCopy10 (w : Nat) : Decoded :=
  match w / 2097152 % 16 with
  | 0 => .instr (.cpy (decide (w / 2147483648 % 2 = 1)) (decide (w / 16777216 % 2 = 1)) (w / 16384 % 128) (w / 128 % 128) (w % 128)) 1
  | 8 => .instr (.cpy (decide (w / 2147483648 % 2 = 1)) (decide (w / 16777216 % 2 = 1)) (w / 16384 % 128) (w / 128 % 128) (w % 128)) 1
  | _ => .bad .unassignedFn

/-- Major 0x11 of class 2 (R155). -/
def decCopy11 (w : Nat) : Decoded :=
  match w / 2097152 % 16 with
  | 0 => .instr (.cpym (decide (w / 2147483648 % 2 = 1)) (decide (w / 16777216 % 2 = 1)) (w / 2097152 % 4) (w / 16384 % 128) (w / 128 % 128) (w % 128)) 1
  | 1 => .instr (.cpym (decide (w / 2147483648 % 2 = 1)) (decide (w / 16777216 % 2 = 1)) (w / 2097152 % 4) (w / 16384 % 128) (w / 128 % 128) (w % 128)) 1
  | 2 => .instr (.cpym (decide (w / 2147483648 % 2 = 1)) (decide (w / 16777216 % 2 = 1)) (w / 2097152 % 4) (w / 16384 % 128) (w / 128 % 128) (w % 128)) 1
  | 8 => .instr (.cpym (decide (w / 2147483648 % 2 = 1)) (decide (w / 16777216 % 2 = 1)) (w / 2097152 % 4) (w / 16384 % 128) (w / 128 % 128) (w % 128)) 1
  | 9 => .instr (.cpym (decide (w / 2147483648 % 2 = 1)) (decide (w / 16777216 % 2 = 1)) (w / 2097152 % 4) (w / 16384 % 128) (w / 128 % 128) (w % 128)) 1
  | 10 => .instr (.cpym (decide (w / 2147483648 % 2 = 1)) (decide (w / 16777216 % 2 = 1)) (w / 2097152 % 4) (w / 16384 % 128) (w / 128 % 128) (w % 128)) 1
  | _ => .bad .unassignedFn

/-- Major 0x12 of class 2 (R155). -/
def decCopy12 (w : Nat) : Decoded :=
  match w / 2097152 % 16 with
  | 0 => .instr (.gather (decide (w / 2147483648 % 2 = 1)) (decide (w / 16777216 % 2 = 1)) (w / 16384 % 128) (w / 128 % 128) (w % 128)) 1
  | 8 => .instr (.gather (decide (w / 2147483648 % 2 = 1)) (decide (w / 16777216 % 2 = 1)) (w / 16384 % 128) (w / 128 % 128) (w % 128)) 1
  | _ => .bad .unassignedFn

/-- Major 0x13 of class 2 (R155). -/
def decCopy13 (w : Nat) : Decoded :=
  match w / 2097152 % 16 with
  | 0 => .instr (.scatter (decide (w / 2147483648 % 2 = 1)) (decide (w / 16777216 % 2 = 1)) (w / 16384 % 128) (w / 128 % 128) (w % 128)) 1
  | 8 => .instr (.scatter (decide (w / 2147483648 % 2 = 1)) (decide (w / 16777216 % 2 = 1)) (w / 16384 % 128) (w / 128 % 128) (w % 128)) 1
  | _ => .bad .unassignedFn

/-- Major 0x14 of class 2 (R155). -/
def decCopy14 (w : Nat) : Decoded :=
  match w / 2097152 % 16 with
  | 0 => if w / 16384 % 128 = 0 then .instr (.stage (decide (w / 2147483648 % 2 = 1)) (decide (w / 16777216 % 2 = 1)) (w / 128 % 128) (w % 128)) 1 else .bad .unusedField
  | 8 => if w / 16384 % 128 = 0 then .instr (.stage (decide (w / 2147483648 % 2 = 1)) (decide (w / 16777216 % 2 = 1)) (w / 128 % 128) (w % 128)) 1 else .bad .unusedField
  | _ => .bad .unassignedFn

/-- Major 0x15 of class 2 (R155). -/
def decCopy15 (w : Nat) : Decoded :=
  match w / 2097152 % 16 with
  | 0 => .instr (.emblk (decide (w / 2147483648 % 2 = 1)) (decide (w / 16777216 % 2 = 1)) (w / 16384 % 128) (w / 128 % 128) (w % 128)) 1
  | 8 => .instr (.emblk (decide (w / 2147483648 % 2 = 1)) (decide (w / 16777216 % 2 = 1)) (w / 16384 % 128) (w / 128 % 128) (w % 128)) 1
  | _ => .bad .unassignedFn

/-- Major 0x16 of class 2 (R155). -/
def decCopy16 (w : Nat) : Decoded :=
  match w / 2097152 % 16 with
  | 0 => .instr (.topk (decide (w / 2147483648 % 2 = 1)) (decide (w / 16777216 % 2 = 1)) (w / 16384 % 128) (w / 128 % 128) (w % 128)) 1
  | 8 => .instr (.topk (decide (w / 2147483648 % 2 = 1)) (decide (w / 16777216 % 2 = 1)) (w / 16384 % 128) (w / 128 % 128) (w % 128)) 1
  | _ => .bad .unassignedFn

/-- Major 0x10 of class 3 (R155). -/
def decColl10 (w : Nat) : Decoded :=
  match w / 2097152 % 16 with
  | 0 => if w % 128 = 0 ∧ w / 16384 % 128 = 0 then .instr (.coll (decide (w / 2147483648 % 2 = 1)) (decide (w / 16777216 % 2 = 1)) (w / 128 % 128)) 1 else .bad .unusedField
  | 8 => if w % 128 = 0 ∧ w / 16384 % 128 = 0 then .instr (.coll (decide (w / 2147483648 % 2 = 1)) (decide (w / 16777216 % 2 = 1)) (w / 128 % 128)) 1 else .bad .unusedField
  | _ => .bad .unassignedFn

/-- Major 0x11 of class 3 (R155). -/
def decColl11 (w : Nat) : Decoded :=
  match w / 2097152 % 16 with
  | 0 => if w / 16384 % 128 = 0 then .instr (.agset (decide (w / 2147483648 % 2 = 1)) (decide (w / 16777216 % 2 = 1)) (w / 128 % 128) (w % 128)) 1 else .bad .unusedField
  | 8 => if w / 16384 % 128 = 0 then .instr (.agset (decide (w / 2147483648 % 2 = 1)) (decide (w / 16777216 % 2 = 1)) (w / 128 % 128) (w % 128)) 1 else .bad .unusedField
  | _ => .bad .unassignedFn

/-- Major 0x12 of class 3 (R155). -/
def decColl12 (w : Nat) : Decoded :=
  match w / 2097152 % 16 with
  | 0 => if w % 128 = 0 then .instr (.egjoin (decide (w / 2147483648 % 2 = 1)) (decide (w / 16777216 % 2 = 1)) (w / 16384 % 128) (w / 128 % 128)) 1 else .bad .unusedField
  | 8 => if w % 128 = 0 then .instr (.egjoin (decide (w / 2147483648 % 2 = 1)) (decide (w / 16777216 % 2 = 1)) (w / 16384 % 128) (w / 128 % 128)) 1 else .bad .unusedField
  | _ => .bad .unassignedFn

/-- Major 0x13 of class 3 (R155). -/
def decColl13 (w : Nat) : Decoded :=
  match w / 2097152 % 16 with
  | 0 => if w % 128 = 0 then .instr (.egleave (decide (w / 2147483648 % 2 = 1)) (decide (w / 16777216 % 2 = 1)) (w / 16384 % 128) (w / 128 % 128)) 1 else .bad .unusedField
  | 8 => if w % 128 = 0 then .instr (.egleave (decide (w / 2147483648 % 2 = 1)) (decide (w / 16777216 % 2 = 1)) (w / 16384 % 128) (w / 128 % 128)) 1 else .bad .unusedField
  | _ => .bad .unassignedFn

/-- Major 0x14 of class 3 (R155). -/
def decColl14 (w : Nat) : Decoded :=
  match w / 2097152 % 16 with
  | 0 => if w % 128 = 0 ∧ w / 16384 % 128 = 0 then .instr (.ttop (decide (w / 2147483648 % 2 = 1)) (w / 128 % 128)) 1 else .bad .unusedField
  | _ => .bad .unassignedFn

/-- Major 0x10 of class 4 (R155). -/
def decCtl10 (w : Nat) : Decoded :=
  match w / 2097152 % 16 with
  | 0 => if w % 16384 = 0 then .instr (.evpop (decide (w / 2147483648 % 2 = 1)) (w / 16384 % 128)) 1 else .bad .unusedField
  | _ => .bad .unassignedFn

/-- Major 0x11 of class 4 (R155). -/
def decCtl11 (w : Nat) : Decoded :=
  match w / 2097152 % 16 with
  | 0 => if w % 16384 = 0 then .instr (.evwait (decide (w / 2147483648 % 2 = 1)) (w / 16384 % 128)) 1 else .bad .unusedField
  | _ => .bad .unassignedFn

/-- The wide forms of class 0 (R157): `lit` is the literal word. -/
def decSimtWide (w : Nat) (lit : Nat) : Decoded :=
  let wfn := w / 32768 % 16
  let d := w / 256 % 128
  let a := w / 2 % 128
  let u := decide (w / 2147483648 % 2 = 1)
  if w % 2 = 1 then .bad .unusedField else
  match w / 524288 % 64 with
  | 2 => if 6 ≤ wfn then .instr (.cmpiWide u wfn d a lit) 2 else .bad .wideForm
  | 6 => if wfn = 0 then .instr (.addiWide u d a lit) 2 else .bad .wideForm
  | 7 => if wfn = 0 then .instr (.andiWide u d a lit) 2 else .bad .wideForm
  | 8 => if wfn = 0 then .instr (.oriWide u d a lit) 2 else .bad .wideForm
  | 9 => if wfn = 0 then .instr (.xoriWide u d a lit) 2 else .bad .wideForm
  | 10 => if wfn = 0 then if a = 0 then .instr (.moviWide u d lit) 2 else .bad .unusedField else .bad .wideForm
  | 11 => if wfn = 0 then if a = 0 then .instr (.movhiWide u d lit) 2 else .bad .unusedField else .bad .wideForm
  | 12 => if wfn = 0 then if a = 0 then .instr (.leaWide u d lit) 2 else .bad .unusedField else .bad .wideForm
  | 27 => if wfn = 0 then if a = 0 then .instr (.groupWide u d lit) 2 else .bad .unusedField else .bad .wideForm
  | 28 => if wfn = 0 then .instr (.joinWide u d a lit) 2 else .bad .wideForm
  | 29 => if wfn = 0 then .instr (.parkWide u d a lit) 2 else .bad .wideForm
  | 63 =>
    match wfn with
    | 0 => if d = 0 ∧ a = 0 then .instr .meet 2 else .bad .unusedField
    | 1 => if a = 0 then .instr (.call u d lit) 2 else .bad .unusedField
    | _ => .bad .wideForm
  | _ => .bad .wideForm

/-- The wide forms of classes 1 to 4 (R157, R283): SLI alone. -/
def decSharedWide (w : Nat) (lit : Nat) : Decoded :=
  if w % 2 = 1 then .bad .unusedField else
  if w / 524288 % 64 = 1 ∧ w / 32768 % 16 = 0 then
    if w / 2 % 128 = 0 then .instr (.sliWide (w / 256 % 128) lit) 2 else .bad .unusedField
  else .bad .wideForm

/-- A SIMT instruction from its word and the word after it (R154). -/
def decodeSimt (w : Nat) (lit : Option Nat) : Decoded :=
  match w / 33554432 % 64 with
  | 0 => decSimt00 w
  | 1 => decSimt01 w
  | 2 => decSimt02 w
  | 3 => decSimt03 w
  | 4 => decSimt04 w
  | 5 => decSimt05 w
  | 6 => decSimt06 w
  | 7 => decSimt07 w
  | 8 => decSimt08 w
  | 9 => decSimt09 w
  | 10 => decSimt0A w
  | 11 => decSimt0B w
  | 12 => decSimt0C w
  | 13 => decSimt0D w
  | 14 => decSimt0E w
  | 15 => decSimt0F w
  | 16 => decSimt10 w
  | 17 => decSimt11 w
  | 18 => decSimt12 w
  | 19 => decSimt13 w
  | 20 => decSimt14 w
  | 21 => decSimt15 w
  | 22 => decSimt16 w
  | 23 => decSimt17 w
  | 24 => decSimt18 w
  | 26 => decSimt1A w
  | 27 => decSimt1B w
  | 28 => decSimt1C w
  | 29 => decSimt1D w
  | 30 => decSimt1E w
  | 31 => decSimt1F w
  | 32 => decSimt20 w
  | 33 => decSimt21 w
  | 34 => decSimt22 w
  | 35 => decSimt23 w
  | 36 => decSimt24 w
  | 37 => decSimt25 w
  | 38 => decSimt26 w
  | 39 => decSimt27 w
  | 40 => decSimt28 w
  | 41 => decSimt29 w
  | 42 => decSimt2A w
  | 43 => decSimt2B w
  | 44 => decSimt2C w
  | 45 => decSimt2D w
  | 46 => decSimt2E w
  | 47 => decSimt2F w
  | 48 => decSimt30 w
  | 49 => decSimt31 w
  | 50 => decSimt32 w
  | 51 => decSimt33 w
  | 52 => decSimt34 w
  | 53 => decSimt35 w
  | 54 => decSimt36 w
  | 55 => decSimt37 w
  | 56 => decSimt38 w
  | 57 => decSimt39 w
  | 58 => decSimt3A w
  | 59 => decSimt3B w
  | 60 => decSimt3C w
  | 61 => decSimt3D w
  | 62 => decSimt3E w
  | 63 =>
    match lit with
    | some l => decSimtWide w l
    | none => .bad .literalMissing
  | _ => .bad .unassignedMajor

/-- A matrix-class instruction (R155). -/
def decodeMatrix (w : Nat) (lit : Option Nat) : Decoded :=
  match w / 33554432 % 64 with
  | 0 => decShared00 w
  | 1 => decShared01 w
  | 2 => decShared02 w
  | 3 => decShared03 w
  | 16 => decMatrix10 w
  | 17 => decMatrix11 w
  | 18 => decMatrix12 w
  | 19 => decMatrix13 w
  | 20 => decMatrix14 w
  | 21 => decMatrix15 w
  | 22 => decMatrix16 w
  | 23 => decMatrix17 w
  | 24 => decMatrix18 w
  | 25 => decMatrix19 w
  | 63 =>
    match lit with
    | some l => decSharedWide w l
    | none => .bad .literalMissing
  | _ => .bad .unassignedMajor

/-- A copy-class instruction (R155). -/
def decodeCopy (w : Nat) (lit : Option Nat) : Decoded :=
  match w / 33554432 % 64 with
  | 0 => decShared00 w
  | 1 => decShared01 w
  | 2 => decShared02 w
  | 3 => decShared03 w
  | 16 => decCopy10 w
  | 17 => decCopy11 w
  | 18 => decCopy12 w
  | 19 => decCopy13 w
  | 20 => decCopy14 w
  | 21 => decCopy15 w
  | 22 => decCopy16 w
  | 63 =>
    match lit with
    | some l => decSharedWide w l
    | none => .bad .literalMissing
  | _ => .bad .unassignedMajor

/-- A collective-class instruction (R155). -/
def decodeColl (w : Nat) (lit : Option Nat) : Decoded :=
  match w / 33554432 % 64 with
  | 0 => decShared00 w
  | 1 => decShared01 w
  | 2 => decShared02 w
  | 3 => decShared03 w
  | 16 => decColl10 w
  | 17 => decColl11 w
  | 18 => decColl12 w
  | 19 => decColl13 w
  | 20 => decColl14 w
  | 63 =>
    match lit with
    | some l => decSharedWide w l
    | none => .bad .literalMissing
  | _ => .bad .unassignedMajor

/-- A control-class instruction (R155). -/
def decodeCtl (w : Nat) (lit : Option Nat) : Decoded :=
  match w / 33554432 % 64 with
  | 0 => decShared00 w
  | 1 => decShared01 w
  | 2 => decShared02 w
  | 3 => decShared03 w
  | 16 => decCtl10 w
  | 17 => decCtl11 w
  | 63 =>
    match lit with
    | some l => decSharedWide w l
    | none => .bad .literalMissing
  | _ => .bad .unassignedMajor

/-- The decoder of a class (R147): 0 SIMT, 1 MATRIX, 2 COPY, 3 COLLECTIVE, 4 CONTROL. -/
def decodeWord (cls w : Nat) (lit : Option Nat) : Decoded :=
  match cls with
  | 0 => decodeSimt w lit
  | 1 => decodeMatrix w lit
  | 2 => decodeCopy w lit
  | 3 => decodeColl w lit
  | 4 => decodeCtl w lit
  | _ => .bad .unassignedMajor

/-- The first instruction of a list of words. -/
def decode (cls : Nat) : List Nat → Decoded
  | [] => .bad .empty
  | [w] => decodeWord cls w none
  | w :: l :: _ => decodeWord cls w (some l)

/-- A word from four bytes, the lowest address first (R7). -/
def wordOfBytes (b0 b1 b2 b3 : Byte) : Nat := b0.toNat + 256 * b1.toNat + 65536 * b2.toNat + 16777216 * b3.toNat

/-- The words of a list of bytes; a part of a word at the end is dropped. -/
def wordsOfBytes : List Byte → List Nat
  | b0 :: b1 :: b2 :: b3 :: rest => wordOfBytes b0 b1 b2 b3 :: wordsOfBytes rest
  | _ => []

/-- The first instruction of a list of bytes. -/
def decodeBytes (cls : Nat) (bs : List Byte) : Decoded := decode cls (wordsOfBytes bs)

/-! ## Clause headers -/

/-- The fields of a clause header (R147). -/
structure Header where
  rsvd : Nat
  phase : Bool
  yld : Bool
  wrl : Nat
  wen : Nat
  wst : Nat
  wld : Nat
  cls : Nat
  count : Nat
  deriving DecidableEq, Repr

/-- The fields of a header word (R147). -/
def decodeHeader (w : Nat) : Header :=
  ⟨w / 33554432 % 128, decide (w / 16777216 % 2 = 1), decide (w / 8388608 % 2 = 1), w / 524288 % 16, w / 32768 % 16,
    w / 2048 % 16, w / 128 % 16, w / 16 % 8, w % 16⟩

/-- The header check of R147 for a program of class `cls`: `true` when the clause may issue. -/
def Header.ok (h : Header) (cls : Nat) : Bool :=
  h.rsvd == 0 && h.cls == cls && h.count != 0 && (cls == 0 || (h.wrl == 15 && h.wst == 15 && h.wld == 15))

/-- The word of a header (R147). -/
def encodeHeader (h : Header) : Nat :=
  h.rsvd * 33554432 + (if h.phase then 16777216 else 0) + (if h.yld then 8388608 else 0) + h.wrl * 524288 + h.wen * 32768
    + h.wst * 2048 + h.wld * 128 + h.cls * 16 + h.count

/-! ## The encoder -/

/-- The uniform bit in place (R151). -/
def ubit (u : Bool) : Nat := if u then 2147483648 else 0
/-- The notify bit in place (R281). -/
def nbit (n : Bool) : Nat := if n then 16777216 else 0
/-- A wide word (R157): WOP, WFN, D, A. -/
def wideWord (u : Bool) (wop wfn d a : Nat) : Nat := ubit u + 2113929216 + wop * 524288 + wfn * 32768 + d * 256 + a * 2

/-- The words of an instruction, first word first; none for a step that has no word. `own` gives the bits that the constructor does
not carry: the uniform bit of an instruction that has no other field, the operand of TRAP, the fields of PREF, the literal of MEET
with the uniform bit above it. -/
def encode (i : Instr) (own : Nat) : List Nat :=
  match i with
  | .nop => [0 + own % 2 * 2147483648]
  | .yield => [2097152 + own % 2 * 2147483648]
  | .exit => [4194304 + own % 2 * 2147483648]
  | .phase => [6291456 + own % 2 * 2147483648]
  | .srd u d s => [8388608 + ubit u + d * 16384 + s]
  | .callr u d a => [10485760 + ubit u + d * 16384 + a * 128]
  | .ret u a => [12582912 + ubit u + a * 128]
  | .jmpr u a => [14680064 + ubit u + a * 128]
  | .joinm u m => [16777216 + ubit u + m]
  | .leavem u m => [18874368 + ubit u + m]
  | .waitm u m => [20971520 + ubit u + m]
  | .mskrd u d m => [23068672 + ubit u + d * 16384 + m]
  | .mskwr u a m => [25165824 + ubit u + a * 128 + m]
  | .add u d a b => [33554432 + ubit u + d * 16384 + a * 128 + b]
  | .sub u d a b => [35651584 + ubit u + d * 16384 + a * 128 + b]
  | .mul u d a b => [37748736 + ubit u + d * 16384 + a * 128 + b]
  | .mulhs u d a b => [39845888 + ubit u + d * 16384 + a * 128 + b]
  | .mulhz u d a b => [41943040 + ubit u + d * 16384 + a * 128 + b]
  | .mad u d a b => [44040192 + ubit u + d * 16384 + a * 128 + b]
  | .addc u d a b => [46137344 + ubit u + d * 16384 + a * 128 + b]
  | .subb u d a b => [48234496 + ubit u + d * 16384 + a * 128 + b]
  | .abs u d a => [50331648 + ubit u + d * 16384 + a * 128]
  | .neg u d a => [52428800 + ubit u + d * 16384 + a * 128]
  | .mins u d a b => [54525952 + ubit u + d * 16384 + a * 128 + b]
  | .maxs u d a b => [56623104 + ubit u + d * 16384 + a * 128 + b]
  | .minz u d a b => [58720256 + ubit u + d * 16384 + a * 128 + b]
  | .maxz u d a b => [60817408 + ubit u + d * 16384 + a * 128 + b]
  | .divs u d a b => [67108864 + ubit u + d * 16384 + a * 128 + b]
  | .divz u d a b => [69206016 + ubit u + d * 16384 + a * 128 + b]
  | .rems u d a b => [71303168 + ubit u + d * 16384 + a * 128 + b]
  | .remz u d a b => [73400320 + ubit u + d * 16384 + a * 128 + b]
  | .cmpi u f d a i => [67108864 + ubit u + f * 2097152 + d * 16384 + a * 128 + i]
  | .cmpiWide u c d a i => [wideWord u 2 c d a, i]
  | .and u d a b => [100663296 + ubit u + d * 16384 + a * 128 + b]
  | .or u d a b => [102760448 + ubit u + d * 16384 + a * 128 + b]
  | .xor u d a b => [104857600 + ubit u + d * 16384 + a * 128 + b]
  | .andn u d a b => [106954752 + ubit u + d * 16384 + a * 128 + b]
  | .not u d a => [109051904 + ubit u + d * 16384 + a * 128]
  | .popc u d a => [111149056 + ubit u + d * 16384 + a * 128]
  | .clz u d a => [113246208 + ubit u + d * 16384 + a * 128]
  | .ffs u d a => [115343360 + ubit u + d * 16384 + a * 128]
  | .brev u d a => [117440512 + ubit u + d * 16384 + a * 128]
  | .mov u d a => [119537664 + ubit u + d * 16384 + a * 128]
  | .sel u d a b => [121634816 + ubit u + d * 16384 + a * 128 + b]
  | .shl u d a b => [134217728 + ubit u + d * 16384 + a * 128 + b]
  | .shr u d a b => [136314880 + ubit u + d * 16384 + a * 128 + b]
  | .sar u d a b => [138412032 + ubit u + d * 16384 + a * 128 + b]
  | .rot u d a b => [140509184 + ubit u + d * 16384 + a * 128 + b]
  | .bfes u d a b => [142606336 + ubit u + d * 16384 + a * 128 + b]
  | .bfez u d a b => [144703488 + ubit u + d * 16384 + a * 128 + b]
  | .bfi u d a b => [146800640 + ubit u + d * 16384 + a * 128 + b]
  | .shli u d a n => [150994944 + ubit u + d * 16384 + a * 128 + n]
  | .shri u d a n => [153092096 + ubit u + d * 16384 + a * 128 + n]
  | .sari u d a n => [155189248 + ubit u + d * 16384 + a * 128 + n]
  | .roti u d a n => [157286400 + ubit u + d * 16384 + a * 128 + n]
  | .cmp u c d a b => [167772160 + ubit u + c * 2097152 + d * 16384 + a * 128 + b]
  | .addi u d a i => [201326592 + ubit u + d * 262144 + a * 2048 + i]
  | .addiWide u d a i => [wideWord u 6 0 d a, i]
  | .andi u d a i => [234881024 + ubit u + d * 262144 + a * 2048 + i]
  | .andiWide u d a i => [wideWord u 7 0 d a, i]
  | .ori u d a i => [268435456 + ubit u + d * 262144 + a * 2048 + i]
  | .oriWide u d a i => [wideWord u 8 0 d a, i]
  | .xori u d a i => [301989888 + ubit u + d * 262144 + a * 2048 + i]
  | .xoriWide u d a i => [wideWord u 9 0 d a, i]
  | .movi u d i => [335544320 + ubit u + d * 262144 + i]
  | .moviWide u d i => [wideWord u 10 0 d 0, i]
  | .movhi u d i => [369098752 + ubit u + d * 262144 + i]
  | .movhiWide u d i => [wideWord u 11 0 d 0, i]
  | .lea u d i => [402653184 + ubit u + d * 262144 + i]
  | .leaWide u d i => [wideWord u 12 0 d 0, i]
  | .bra u o => [436207616 + ubit u + o]
  | .bz u a o => [469762048 + ubit u + a * 262144 + o]
  | .bnz u a o => [503316480 + ubit u + a * 262144 + o]
  | .meet => [wideWord (decide (own / 4294967296 % 2 = 1)) 63 0 0 0, own % 4294967296]
  | .call u d i => [wideWord u 63 1 d 0, i]
  | .clauseHeader => []
  | .fadd u d a b => [536870912 + ubit u + d * 16384 + a * 128 + b]
  | .fsub u d a b => [538968064 + ubit u + d * 16384 + a * 128 + b]
  | .fmul u d a b => [541065216 + ubit u + d * 16384 + a * 128 + b]
  | .ffma u d a b => [543162368 + ubit u + d * 16384 + a * 128 + b]
  | .fmin u d a b => [545259520 + ubit u + d * 16384 + a * 128 + b]
  | .fmax u d a b => [547356672 + ubit u + d * 16384 + a * 128 + b]
  | .fabs u d a => [549453824 + ubit u + d * 16384 + a * 128]
  | .fneg u d a => [551550976 + ubit u + d * 16384 + a * 128]
  | .fcmp u c d a b => [570425344 + ubit u + c * 2097152 + d * 16384 + a * 128 + b]
  | .fclass u d a => [587202560 + ubit u + d * 16384 + a * 128]
  | .frcp u d a => [603979776 + ubit u + d * 16384 + a * 128]
  | .frsq u d a => [606076928 + ubit u + d * 16384 + a * 128]
  | .fsqrt u d a => [608174080 + ubit u + d * 16384 + a * 128]
  | .fexp2 u d a => [610271232 + ubit u + d * 16384 + a * 128]
  | .flog2 u d a => [612368384 + ubit u + d * 16384 + a * 128]
  | .fsin u d a => [614465536 + ubit u + d * 16384 + a * 128]
  | .fcos u d a => [616562688 + ubit u + d * 16384 + a * 128]
  | .ftanh u d a => [618659840 + ubit u + d * 16384 + a * 128]
  | .hadd2 u d a b => [637534208 + ubit u + d * 16384 + a * 128 + b]
  | .hmul2 u d a b => [639631360 + ubit u + d * 16384 + a * 128 + b]
  | .hfma2 u d a b => [641728512 + ubit u + d * 16384 + a * 128 + b]
  | .cvtBf16F32Lo u d a => [671088640 + ubit u + d * 16384 + a * 128]
  | .cvtBf16F32Hi u d a => [673185792 + ubit u + d * 16384 + a * 128]
  | .cvtF16F32Lo u d a => [675282944 + ubit u + d * 16384 + a * 128]
  | .cvtF16F32Hi u d a => [677380096 + ubit u + d * 16384 + a * 128]
  | .cvtE4m3x2F32Lo u d a b => [679477248 + ubit u + d * 16384 + a * 128 + b]
  | .cvtE4m3x2F32Hi u d a b => [681574400 + ubit u + d * 16384 + a * 128 + b]
  | .cvtE5m2x2F32Lo u d a b => [683671552 + ubit u + d * 16384 + a * 128 + b]
  | .cvtE5m2x2F32Hi u d a b => [685768704 + ubit u + d * 16384 + a * 128 + b]
  | .cvtF32Bf16 u d a h => [687865856 + ubit u + d * 16384 + a * 128 + h]
  | .cvtF32F16 u d a h => [689963008 + ubit u + d * 16384 + a * 128 + h]
  | .cvtF32E4m3 u d a n => [692060160 + ubit u + d * 16384 + a * 128 + n]
  | .cvtF32E5m2 u d a n => [694157312 + ubit u + d * 16384 + a * 128 + n]
  | .cvtS32F32 u r d a => [704643072 + ubit u + r * 2097152 + d * 16384 + a * 128]
  | .cvtZ32F32 u r d a => [713031680 + ubit u + r * 2097152 + d * 16384 + a * 128]
  | .cvtF32S32 u d a => [721420288 + ubit u + d * 16384 + a * 128]
  | .cvtF32Z32 u d a => [723517440 + ubit u + d * 16384 + a * 128]
  | .cvtF32S64 u d a => [725614592 + ubit u + d * 16384 + a * 128]
  | .cvtF32Z64 u d a => [727711744 + ubit u + d * 16384 + a * 128]
  | .cvtS64F32Rz u d a => [729808896 + ubit u + d * 16384 + a * 128]
  | .cvtZ64F32Rz u d a => [731906048 + ubit u + d * 16384 + a * 128]
  | .cvtS8S32Sat u d a => [738197504 + ubit u + d * 16384 + a * 128]
  | .cvtS16S32Sat u d a => [740294656 + ubit u + d * 16384 + a * 128]
  | .cvtZ8S32Sat u d a => [742391808 + ubit u + d * 16384 + a * 128]
  | .cvtZ16S32Sat u d a => [744488960 + ubit u + d * 16384 + a * 128]
  | .cvtZ8Z32Sat u d a => [746586112 + ubit u + d * 16384 + a * 128]
  | .cvtZ16Z32Sat u d a => [748683264 + ubit u + d * 16384 + a * 128]
  | .cvtS64S32 u d a => [750780416 + ubit u + d * 16384 + a * 128]
  | .cvtZ64Z32 u d a => [752877568 + ubit u + d * 16384 + a * 128]
  | .cvtS32S64Sat u d a => [754974720 + ubit u + d * 16384 + a * 128]
  | .cvtZ32Z64Sat u d a => [757071872 + ubit u + d * 16384 + a * 128]
  | .qnt u f d a => [771751936 + ubit u + f * 2097152 + d * 16384 + a * 128]
  | .dqnt u d a => [805306368 + ubit u + d * 16384 + a * 128]
  | .shfl d a b => [872415232 + d * 16384 + a * 128 + b]
  | .bcast d a n => [874512384 + d * 16384 + a * 128 + n]
  | .vote d a m => [876609536 + d * 16384 + a * 128 + m]
  | .matchLanes d a => [878706688 + d * 16384 + a * 128]
  | .wred f d a => [872415232 + f * 2097152 + d * 16384 + a * 128]
  | .wscan f d a b => [872415232 + f * 2097152 + d * 16384 + a * 128 + b]
  | .group u s l r => [905969664 + ubit u + s * 262144 + l * 256 + r]
  | .groupWide u s i => [wideWord u 27 0 s 0, i]
  | .join u s a l r => [939524096 + ubit u + s * 262144 + a * 2048 + l * 256 + r]
  | .joinWide u s a i => [wideWord u 28 0 s a, i]
  | .park u s a => [973078528 + ubit u + s * 262144 + a * 2048]
  | .parkWide u s a i => [wideWord u 29 0 s a, i]
  | .outputWarpStart => []
  | .relopen u d a => [1006632960 + ubit u + d * 16384 + a * 128]
  | .relseal u d a => [1008730112 + ubit u + d * 16384 + a * 128]
  | .relcnt u d a => [1010827264 + ubit u + d * 16384 + a * 128]
  | .fork u a c => [1012924416 + ubit u + a * 128 + c]
  | .rdv => [1015021568 + own % 2 * 2147483648]
  | .sequencerStart => []
  | .cpush u a => [1040187392 + ubit u + a * 128]
  | .jcdec u a => [1042284544 + ubit u + a * 128]
  | .dqpush u d a => [1044381696 + ubit u + d * 16384 + a * 128]
  | .dqpop u d => [1046478848 + ubit u + d * 16384]
  | .dqsteal u d a => [1048576000 + ubit u + d * 16384 + a * 128]
  | .reggrow u g => [1050673152 + ubit u + g]
  | .regshrink u g => [1052770304 + ubit u + g]
  | .reggrowGrant => []
  | .launch u d a => [1054867456 + ubit u + d * 16384 + a * 128]
  | .ldS8 u l d a o => [1073741824 + ubit u + l * 2097152 + d * 16384 + a * 128 + o]
  | .ldZ8 u l d a o => [1107296256 + ubit u + l * 2097152 + d * 16384 + a * 128 + o]
  | .ldS16 u l d a o => [1140850688 + ubit u + l * 2097152 + d * 16384 + a * 128 + o]
  | .ldZ16 u l d a o => [1174405120 + ubit u + l * 2097152 + d * 16384 + a * 128 + o]
  | .ld u l d a o => [1207959552 + ubit u + l * 2097152 + d * 16384 + a * 128 + o]
  | .ld64 u l d a o => [1241513984 + ubit u + l * 2097152 + d * 16384 + a * 128 + o]
  | .ld128 u l d a o => [1275068416 + ubit u + l * 2097152 + d * 16384 + a * 128 + o]
  | .st8 u l d a o => [1308622848 + ubit u + l * 2097152 + d * 16384 + a * 128 + o]
  | .st16 u l d a o => [1342177280 + ubit u + l * 2097152 + d * 16384 + a * 128 + o]
  | .st u l d a o => [1375731712 + ubit u + l * 2097152 + d * 16384 + a * 128 + o]
  | .st64 u l d a o => [1409286144 + ubit u + l * 2097152 + d * 16384 + a * 128 + o]
  | .st128 u l d a o => [1442840576 + ubit u + l * 2097152 + d * 16384 + a * 128 + o]
  | .lookaheadResultWrite => []
  | .storePerformed => []
  | .lds u l a b x => [1476395008 + ubit u + l * 2097152 + a * 1024 + b * 8 + x]
  | .lds64 u l a b x => [1476526080 + ubit u + l * 2097152 + a * 1024 + b * 8 + x]
  | .lds128 u l a b x => [1476657152 + ubit u + l * 2097152 + a * 1024 + b * 8 + x]
  | .sts u l a b x => [1476919296 + ubit u + l * 2097152 + a * 1024 + b * 8 + x]
  | .sts64 u l a b x => [1477050368 + ubit u + l * 2097152 + a * 1024 + b * 8 + x]
  | .sts128 u l a b x => [1477181440 + ubit u + l * 2097152 + a * 1024 + b * 8 + x]
  | .lda u l a b x => [1509949440 + ubit u + l * 2097152 + a * 1024 + b * 8 + x]
  | .lda64 u l a b x => [1510080512 + ubit u + l * 2097152 + a * 1024 + b * 8 + x]
  | .stl u l a b x => [1510473728 + ubit u + l * 2097152 + a * 1024 + b * 8 + x]
  | .stl64 u l a b x => [1510604800 + ubit u + l * 2097152 + a * 1024 + b * 8 + x]
  | .prefL2 => [1543503872 + own % 8 + own / 8 % 128 * 1024 + own / 1024 % 4 * 131072 + own / 4096 % 16 * 2097152 + own / 65536 % 2 * 2147483648]
  | .prefL1 => [1544028160 + own % 8 + own / 8 % 128 * 1024 + own / 1024 % 4 * 131072 + own / 4096 % 16 * 2097152 + own / 65536 % 2 * 2147483648]
  | .radd u l f a b x => [1577058304 + ubit u + l * 2097152 + f * 131072 + a * 1024 + b * 8 + x]
  | .atomAdd u l d a b => [1610612736 + ubit u + l * 2097152 + d * 16384 + a * 128 + b]
  | .atomF32 u l d a b => [1644167168 + ubit u + l * 2097152 + d * 16384 + a * 128 + b]
  | .atomMins u l d a b => [1677721600 + ubit u + l * 2097152 + d * 16384 + a * 128 + b]
  | .atomMaxs u l d a b => [1711276032 + ubit u + l * 2097152 + d * 16384 + a * 128 + b]
  | .atomMinz u l d a b => [1744830464 + ubit u + l * 2097152 + d * 16384 + a * 128 + b]
  | .atomMaxz u l d a b => [1778384896 + ubit u + l * 2097152 + d * 16384 + a * 128 + b]
  | .atomAnd u l d a b => [1811939328 + ubit u + l * 2097152 + d * 16384 + a * 128 + b]
  | .atomOr u l d a b => [1845493760 + ubit u + l * 2097152 + d * 16384 + a * 128 + b]
  | .atomXor u l d a b => [1879048192 + ubit u + l * 2097152 + d * 16384 + a * 128 + b]
  | .atomExch u l d a b => [1912602624 + ubit u + l * 2097152 + d * 16384 + a * 128 + b]
  | .atomCas u l d a b => [1946157056 + ubit u + l * 2097152 + d * 16384 + a * 128 + b]
  | .fence => [1979711488 + own % 2 * 2147483648]
  | .xfence u a b => [1981808640 + ubit u + a * 128 + b]
  | .lbar u k => [1983905792 + ubit u + k]
  | .lbarPlacementPreempt => []
  | .sppin u a b => [1986002944 + ubit u + a * 128 + b]
  | .spunpin u a b => [1988100096 + ubit u + a * 128 + b]
  | .rbpush u a b => [1990197248 + ubit u + a * 128 + b]
  | .rbpop u d a => [1992294400 + ubit u + d * 16384 + a * 128]
  | .rbfree u d a b => [1994391552 + ubit u + d * 16384 + a * 128 + b]
  | .tqpop u d n => [1996488704 + ubit u + d * 16384 + n]
  | .gsig u a b => [2013265920 + ubit u + a * 128 + b]
  | .gwait u d a b => [2015363072 + ubit u + d * 16384 + a * 128 + b]
  | .grd u d a => [2017460224 + ubit u + d * 16384 + a * 128]
  | .gtry u d a b => [2019557376 + ubit u + d * 16384 + a * 128 + b]
  | .gateSignalApply => []
  | .mldr u l a b x => [2046820352 + ubit u + l * 2097152 + a * 1024 + b * 8 + x]
  | .mst u l a b x => [2046951424 + ubit u + l * 2097152 + a * 1024 + b * 8 + x]
  | .trap => [2080374784 + own % 128 + own / 128 % 2 * 2147483648]
  | .trapret => [2082471936 + own % 2 * 2147483648]
  | .bkpt => [2084569088 + own % 2 * 2147483648]
  | .csrr u d c => [2086666240 + ubit u + d * 16384 + c]
  | .csrw u a c => [2088763392 + ubit u + a * 128 + c]
  | .tlbinv u a b => [2090860544 + ubit u + a * 128 + b]
  | .cinv u a b => [2092957696 + ubit u + a * 128 + b]
  | .tokxfer u d a b => [2095054848 + ubit u + d * 16384 + a * 128 + b]
  | .clklock u a b => [2097152000 + ubit u + a * 128 + b]
  | .sleep u a => [2099249152 + ubit u + a * 128]
  | .watch u a b => [2101346304 + ubit u + a * 128 + b]
  | .sleepWake => []
  | .phaseTimerExpiry => []
  | .handlerEntry => []
  | .smov u d a => [ubit u + d * 16384 + a * 128]
  | .sadd u d a b => [2097152 + ubit u + d * 16384 + a * 128 + b]
  | .swait => [4194304 + own % 2 * 2147483648]
  | .ssig u a b => [6291456 + ubit u + a * 128 + b]
  | .ssig64 u a b => [6307840 + ubit u + a * 128 + b]
  | .ssigAdd64 u a b => [6324224 + ubit u + a * 128 + b]
  | .slda u d a => [8388608 + ubit u + d * 16384 + a * 128]
  | .slda64 u d a => [8388609 + ubit u + d * 16384 + a * 128]
  | .endProg => [10485760 + own % 2 * 2147483648]
  | .sli u d i => [33554432 + ubit u + d * 262144 + i]
  | .sliWide d i => [wideWord false 1 0 d 0, i]
  | .sbnz u a o => [67108864 + ubit u + a * 262144 + o]
  | .sloop u a o => [100663296 + ubit u + a * 262144 + o]
  | .tcfg u n d a => [536870912 + ubit u + nbit n + d * 16384 + a * 128]
  | .tzero u n d => [570425344 + ubit u + nbit n + d * 16384]
  | .tzeroRows u n d b => [572522496 + ubit u + nbit n + d * 16384 + b]
  | .twr u n d a b => [603979776 + ubit u + nbit n + d * 16384 + a * 128 + b]
  | .mma u n d a => [637534208 + ubit u + nbit n + d * 16384 + a * 128]
  | .mmas u n d a => [671088640 + ubit u + nbit n + d * 16384 + a * 128]
  | .mmao u n d a => [704643072 + ubit u + nbit n + d * 16384 + a * 128]
  | .accrd u n d a b => [738197504 + ubit u + nbit n + d * 16384 + a * 128 + b]
  | .accrdClr u n d a b => [740294656 + ubit u + nbit n + d * 16384 + a * 128 + b]
  | .accnorm u n d => [771751936 + ubit u + nbit n + d * 16384]
  | .accnormRows u n d b => [773849088 + ubit u + nbit n + d * 16384 + b]
  | .acchrRow u n d a b => [805306368 + ubit u + nbit n + d * 16384 + a * 128 + b]
  | .acchrExp u n d a b => [807403520 + ubit u + nbit n + d * 16384 + a * 128 + b]
  | .acchrTile u n d a => [809500672 + ubit u + nbit n + d * 16384 + a * 128]
  | .msync u n a => [838860800 + ubit u + nbit n + a * 128]
  | .cpy u n d a b => [536870912 + ubit u + nbit n + d * 16384 + a * 128 + b]
  | .cpym u n f d a b => [570425344 + ubit u + nbit n + f * 2097152 + d * 16384 + a * 128 + b]
  | .cpymFollowOn => []
  | .gather u n d a b => [603979776 + ubit u + nbit n + d * 16384 + a * 128 + b]
  | .scatter u n d a b => [637534208 + ubit u + nbit n + d * 16384 + a * 128 + b]
  | .stage u n a b => [671088640 + ubit u + nbit n + a * 128 + b]
  | .emblk u n d a b => [704643072 + ubit u + nbit n + d * 16384 + a * 128 + b]
  | .topk u n d a b => [738197504 + ubit u + nbit n + d * 16384 + a * 128 + b]
  | .coll u n a => [536870912 + ubit u + nbit n + a * 128]
  | .agset u n a b => [570425344 + ubit u + nbit n + a * 128 + b]
  | .egjoin u n d a => [603979776 + ubit u + nbit n + d * 16384 + a * 128]
  | .egleave u n d a => [637534208 + ubit u + nbit n + d * 16384 + a * 128]
  | .ttop u a => [671088640 + ubit u + a * 128]
  | .ttopSlotStart => []
  | .arrivedTilePush => []
  | .evpop u d => [536870912 + ubit u + d * 16384]
  | .evwait u d => [570425344 + ubit u + d * 16384]
  | .engineCommandComplete => []
  | .completionRecordPush => []
  | .controlProgramStart => []
  | .qwptrWrite => []
  | .queueReset => []
  | .queueEnable => []
  | .nopPacket => []
  | .launchPacket => []
  | .fencePacket => []
  | .fenceCountersMet => []
  | .fenceTimeout => []
  | .writePacket => []
  | .timedPacket => []
  | .timedReached => []
  | .placeItem => []
  | .priorityAging => []
  | .placementReserve => []
  | .launchComplete => []
  | .withdrawLaunch => []
  | .preempt => []
  | .preemptAndHold => []
  | .preemptRelease => []
  | .preemptSwapComplete => []
  | .preemptSpillComplete => []
  | .activate => []
  | .freeze => []
  | .freezeComplete => []
  | .resume => []
  | .tearDownKeepingGates => []
  | .tearDownExportingGates => []
  | .teardownComplete => []
  | .partitionFieldWrite => []
  | .gateEntryWrite => []
  | .gateTokenRefill => []
  | .ringEnWrite => []
  | .migrationGo => []
  | .migrationSwitchOver => []
  | .migrationFailure => []
  | .fabricAccessServe => []
  | .parkedRetry => []
  | .parkedDrop => []
  | .parkedExpiry => []
  | .memberAbsentTimeout => []
  | .agreementRoundStart => []
  | .agreementAckTimeout => []
  | .agreementRoundEnd => []
  | .switchReset => []
  | .timeDomainLeave => []
  | .timeDomainRejoin => []
  | .tokenReceive => []
  | .tokenReturnArrival => []
  | .clockLockEffect => []
  | .powerClampAdjust => []
  | .energyAttributionInterval => []
  | .energyIdleSlotAdd => []
  | .hostMemRead => []
  | .hostMemWrite => []
  | .ownerClaim => []
  | .ownerHandOver => []
  | .ownerAccept => []
  | .ownerRelease => []
  | .ownerLinkDown => []
  | .portLimiterWrite => []
  | .hostWindowWrite => []
  | .coldReset => []
  | .warmReset => []
  | .bootctlWrite => []
  | .bootCheckComplete => []
  | .blackboxSnap => []
  | .blackboxSnapComplete => []
  | .getVersion => []
  | .getCapabilities => []
  | .negotiateAlgorithms => []
  | .getDigests => []
  | .getCertificate => []
  | .challenge => []
  | .getMeasurements => []
  | .patrolScrub => []
  | .uncorrectableError => []
  | .genericRegisterWrite => []
  | .relationOperationComplete => []
  | .engineCounterOperationComplete => []
  | .switchUnreachable => []
  | .fabricFormation => []
  | .tokenBrokerMove => []

/-- The classes in which an instruction may stand (R154, R155); none for a step that has no word. -/
def Instr.classes : Instr → List Nat
  | .nop => [0]
  | .yield => [0]
  | .exit => [0]
  | .phase => [0]
  | .srd _ _ _ => [0]
  | .callr _ _ _ => [0]
  | .ret _ _ => [0]
  | .jmpr _ _ => [0]
  | .joinm _ _ => [0]
  | .leavem _ _ => [0]
  | .waitm _ _ => [0]
  | .mskrd _ _ _ => [0]
  | .mskwr _ _ _ => [0]
  | .add _ _ _ _ => [0]
  | .sub _ _ _ _ => [0]
  | .mul _ _ _ _ => [0]
  | .mulhs _ _ _ _ => [0]
  | .mulhz _ _ _ _ => [0]
  | .mad _ _ _ _ => [0]
  | .addc _ _ _ _ => [0]
  | .subb _ _ _ _ => [0]
  | .abs _ _ _ => [0]
  | .neg _ _ _ => [0]
  | .mins _ _ _ _ => [0]
  | .maxs _ _ _ _ => [0]
  | .minz _ _ _ _ => [0]
  | .maxz _ _ _ _ => [0]
  | .divs _ _ _ _ => [0]
  | .divz _ _ _ _ => [0]
  | .rems _ _ _ _ => [0]
  | .remz _ _ _ _ => [0]
  | .cmpi _ _ _ _ _ => [0]
  | .cmpiWide _ _ _ _ _ => [0]
  | .and _ _ _ _ => [0]
  | .or _ _ _ _ => [0]
  | .xor _ _ _ _ => [0]
  | .andn _ _ _ _ => [0]
  | .not _ _ _ => [0]
  | .popc _ _ _ => [0]
  | .clz _ _ _ => [0]
  | .ffs _ _ _ => [0]
  | .brev _ _ _ => [0]
  | .mov _ _ _ => [0]
  | .sel _ _ _ _ => [0]
  | .shl _ _ _ _ => [0]
  | .shr _ _ _ _ => [0]
  | .sar _ _ _ _ => [0]
  | .rot _ _ _ _ => [0]
  | .bfes _ _ _ _ => [0]
  | .bfez _ _ _ _ => [0]
  | .bfi _ _ _ _ => [0]
  | .shli _ _ _ _ => [0]
  | .shri _ _ _ _ => [0]
  | .sari _ _ _ _ => [0]
  | .roti _ _ _ _ => [0]
  | .cmp _ _ _ _ _ => [0]
  | .addi _ _ _ _ => [0]
  | .addiWide _ _ _ _ => [0]
  | .andi _ _ _ _ => [0]
  | .andiWide _ _ _ _ => [0]
  | .ori _ _ _ _ => [0]
  | .oriWide _ _ _ _ => [0]
  | .xori _ _ _ _ => [0]
  | .xoriWide _ _ _ _ => [0]
  | .movi _ _ _ => [0]
  | .moviWide _ _ _ => [0]
  | .movhi _ _ _ => [0]
  | .movhiWide _ _ _ => [0]
  | .lea _ _ _ => [0]
  | .leaWide _ _ _ => [0]
  | .bra _ _ => [0]
  | .bz _ _ _ => [0]
  | .bnz _ _ _ => [0]
  | .meet => [0]
  | .call _ _ _ => [0]
  | .clauseHeader => []
  | .fadd _ _ _ _ => [0]
  | .fsub _ _ _ _ => [0]
  | .fmul _ _ _ _ => [0]
  | .ffma _ _ _ _ => [0]
  | .fmin _ _ _ _ => [0]
  | .fmax _ _ _ _ => [0]
  | .fabs _ _ _ => [0]
  | .fneg _ _ _ => [0]
  | .fcmp _ _ _ _ _ => [0]
  | .fclass _ _ _ => [0]
  | .frcp _ _ _ => [0]
  | .frsq _ _ _ => [0]
  | .fsqrt _ _ _ => [0]
  | .fexp2 _ _ _ => [0]
  | .flog2 _ _ _ => [0]
  | .fsin _ _ _ => [0]
  | .fcos _ _ _ => [0]
  | .ftanh _ _ _ => [0]
  | .hadd2 _ _ _ _ => [0]
  | .hmul2 _ _ _ _ => [0]
  | .hfma2 _ _ _ _ => [0]
  | .cvtBf16F32Lo _ _ _ => [0]
  | .cvtBf16F32Hi _ _ _ => [0]
  | .cvtF16F32Lo _ _ _ => [0]
  | .cvtF16F32Hi _ _ _ => [0]
  | .cvtE4m3x2F32Lo _ _ _ _ => [0]
  | .cvtE4m3x2F32Hi _ _ _ _ => [0]
  | .cvtE5m2x2F32Lo _ _ _ _ => [0]
  | .cvtE5m2x2F32Hi _ _ _ _ => [0]
  | .cvtF32Bf16 _ _ _ _ => [0]
  | .cvtF32F16 _ _ _ _ => [0]
  | .cvtF32E4m3 _ _ _ _ => [0]
  | .cvtF32E5m2 _ _ _ _ => [0]
  | .cvtS32F32 _ _ _ _ => [0]
  | .cvtZ32F32 _ _ _ _ => [0]
  | .cvtF32S32 _ _ _ => [0]
  | .cvtF32Z32 _ _ _ => [0]
  | .cvtF32S64 _ _ _ => [0]
  | .cvtF32Z64 _ _ _ => [0]
  | .cvtS64F32Rz _ _ _ => [0]
  | .cvtZ64F32Rz _ _ _ => [0]
  | .cvtS8S32Sat _ _ _ => [0]
  | .cvtS16S32Sat _ _ _ => [0]
  | .cvtZ8S32Sat _ _ _ => [0]
  | .cvtZ16S32Sat _ _ _ => [0]
  | .cvtZ8Z32Sat _ _ _ => [0]
  | .cvtZ16Z32Sat _ _ _ => [0]
  | .cvtS64S32 _ _ _ => [0]
  | .cvtZ64Z32 _ _ _ => [0]
  | .cvtS32S64Sat _ _ _ => [0]
  | .cvtZ32Z64Sat _ _ _ => [0]
  | .qnt _ _ _ _ => [0]
  | .dqnt _ _ _ => [0]
  | .shfl _ _ _ => [0]
  | .bcast _ _ _ => [0]
  | .vote _ _ _ => [0]
  | .matchLanes _ _ => [0]
  | .wred _ _ _ => [0]
  | .wscan _ _ _ _ => [0]
  | .group _ _ _ _ => [0]
  | .groupWide _ _ _ => [0]
  | .join _ _ _ _ _ => [0]
  | .joinWide _ _ _ _ => [0]
  | .park _ _ _ => [0]
  | .parkWide _ _ _ _ => [0]
  | .outputWarpStart => []
  | .relopen _ _ _ => [0]
  | .relseal _ _ _ => [0]
  | .relcnt _ _ _ => [0]
  | .fork _ _ _ => [0]
  | .rdv => [0]
  | .sequencerStart => []
  | .cpush _ _ => [0]
  | .jcdec _ _ => [0]
  | .dqpush _ _ _ => [0]
  | .dqpop _ _ => [0]
  | .dqsteal _ _ _ => [0]
  | .reggrow _ _ => [0]
  | .regshrink _ _ => [0]
  | .reggrowGrant => []
  | .launch _ _ _ => [0]
  | .ldS8 _ _ _ _ _ => [0]
  | .ldZ8 _ _ _ _ _ => [0]
  | .ldS16 _ _ _ _ _ => [0]
  | .ldZ16 _ _ _ _ _ => [0]
  | .ld _ _ _ _ _ => [0]
  | .ld64 _ _ _ _ _ => [0]
  | .ld128 _ _ _ _ _ => [0]
  | .st8 _ _ _ _ _ => [0]
  | .st16 _ _ _ _ _ => [0]
  | .st _ _ _ _ _ => [0]
  | .st64 _ _ _ _ _ => [0]
  | .st128 _ _ _ _ _ => [0]
  | .lookaheadResultWrite => []
  | .storePerformed => []
  | .lds _ _ _ _ _ => [0]
  | .lds64 _ _ _ _ _ => [0]
  | .lds128 _ _ _ _ _ => [0]
  | .sts _ _ _ _ _ => [0]
  | .sts64 _ _ _ _ _ => [0]
  | .sts128 _ _ _ _ _ => [0]
  | .lda _ _ _ _ _ => [0]
  | .lda64 _ _ _ _ _ => [0]
  | .stl _ _ _ _ _ => [0]
  | .stl64 _ _ _ _ _ => [0]
  | .prefL2 => [0]
  | .prefL1 => [0]
  | .radd _ _ _ _ _ _ => [0]
  | .atomAdd _ _ _ _ _ => [0]
  | .atomF32 _ _ _ _ _ => [0]
  | .atomMins _ _ _ _ _ => [0]
  | .atomMaxs _ _ _ _ _ => [0]
  | .atomMinz _ _ _ _ _ => [0]
  | .atomMaxz _ _ _ _ _ => [0]
  | .atomAnd _ _ _ _ _ => [0]
  | .atomOr _ _ _ _ _ => [0]
  | .atomXor _ _ _ _ _ => [0]
  | .atomExch _ _ _ _ _ => [0]
  | .atomCas _ _ _ _ _ => [0]
  | .fence => [0]
  | .xfence _ _ _ => [0]
  | .lbar _ _ => [0]
  | .lbarPlacementPreempt => []
  | .sppin _ _ _ => [0]
  | .spunpin _ _ _ => [0]
  | .rbpush _ _ _ => [0]
  | .rbpop _ _ _ => [0]
  | .rbfree _ _ _ _ => [0]
  | .tqpop _ _ _ => [0]
  | .gsig _ _ _ => [0]
  | .gwait _ _ _ _ => [0]
  | .grd _ _ _ => [0]
  | .gtry _ _ _ _ => [0]
  | .gateSignalApply => []
  | .mldr _ _ _ _ _ => [0]
  | .mst _ _ _ _ _ => [0]
  | .trap => [0]
  | .trapret => [0]
  | .bkpt => [0]
  | .csrr _ _ _ => [0]
  | .csrw _ _ _ => [0]
  | .tlbinv _ _ _ => [0]
  | .cinv _ _ _ => [0]
  | .tokxfer _ _ _ _ => [0]
  | .clklock _ _ _ => [0]
  | .sleep _ _ => [0]
  | .watch _ _ _ => [0]
  | .sleepWake => []
  | .phaseTimerExpiry => []
  | .handlerEntry => []
  | .smov _ _ _ => [1, 2, 3, 4]
  | .sadd _ _ _ _ => [1, 2, 3, 4]
  | .swait => [1, 2, 3, 4]
  | .ssig _ _ _ => [1, 2, 3, 4]
  | .ssig64 _ _ _ => [1, 2, 3, 4]
  | .ssigAdd64 _ _ _ => [1, 2, 3, 4]
  | .slda _ _ _ => [1, 2, 3, 4]
  | .slda64 _ _ _ => [1, 2, 3, 4]
  | .endProg => [1, 2, 3, 4]
  | .sli _ _ _ => [1, 2, 3, 4]
  | .sliWide _ _ => [1, 2, 3, 4]
  | .sbnz _ _ _ => [1, 2, 3, 4]
  | .sloop _ _ _ => [1, 2, 3, 4]
  | .tcfg _ _ _ _ => [1]
  | .tzero _ _ _ => [1]
  | .tzeroRows _ _ _ _ => [1]
  | .twr _ _ _ _ _ => [1]
  | .mma _ _ _ _ => [1]
  | .mmas _ _ _ _ => [1]
  | .mmao _ _ _ _ => [1]
  | .accrd _ _ _ _ _ => [1]
  | .accrdClr _ _ _ _ _ => [1]
  | .accnorm _ _ _ => [1]
  | .accnormRows _ _ _ _ => [1]
  | .acchrRow _ _ _ _ _ => [1]
  | .acchrExp _ _ _ _ _ => [1]
  | .acchrTile _ _ _ _ => [1]
  | .msync _ _ _ => [1]
  | .cpy _ _ _ _ _ => [2]
  | .cpym _ _ _ _ _ _ => [2]
  | .cpymFollowOn => []
  | .gather _ _ _ _ _ => [2]
  | .scatter _ _ _ _ _ => [2]
  | .stage _ _ _ _ => [2]
  | .emblk _ _ _ _ _ => [2]
  | .topk _ _ _ _ _ => [2]
  | .coll _ _ _ => [3]
  | .agset _ _ _ _ => [3]
  | .egjoin _ _ _ _ => [3]
  | .egleave _ _ _ _ => [3]
  | .ttop _ _ => [3]
  | .ttopSlotStart => []
  | .arrivedTilePush => []
  | .evpop _ _ => [4]
  | .evwait _ _ => [4]
  | .engineCommandComplete => []
  | .completionRecordPush => []
  | .controlProgramStart => []
  | .qwptrWrite => []
  | .queueReset => []
  | .queueEnable => []
  | .nopPacket => []
  | .launchPacket => []
  | .fencePacket => []
  | .fenceCountersMet => []
  | .fenceTimeout => []
  | .writePacket => []
  | .timedPacket => []
  | .timedReached => []
  | .placeItem => []
  | .priorityAging => []
  | .placementReserve => []
  | .launchComplete => []
  | .withdrawLaunch => []
  | .preempt => []
  | .preemptAndHold => []
  | .preemptRelease => []
  | .preemptSwapComplete => []
  | .preemptSpillComplete => []
  | .activate => []
  | .freeze => []
  | .freezeComplete => []
  | .resume => []
  | .tearDownKeepingGates => []
  | .tearDownExportingGates => []
  | .teardownComplete => []
  | .partitionFieldWrite => []
  | .gateEntryWrite => []
  | .gateTokenRefill => []
  | .ringEnWrite => []
  | .migrationGo => []
  | .migrationSwitchOver => []
  | .migrationFailure => []
  | .fabricAccessServe => []
  | .parkedRetry => []
  | .parkedDrop => []
  | .parkedExpiry => []
  | .memberAbsentTimeout => []
  | .agreementRoundStart => []
  | .agreementAckTimeout => []
  | .agreementRoundEnd => []
  | .switchReset => []
  | .timeDomainLeave => []
  | .timeDomainRejoin => []
  | .tokenReceive => []
  | .tokenReturnArrival => []
  | .clockLockEffect => []
  | .powerClampAdjust => []
  | .energyAttributionInterval => []
  | .energyIdleSlotAdd => []
  | .hostMemRead => []
  | .hostMemWrite => []
  | .ownerClaim => []
  | .ownerHandOver => []
  | .ownerAccept => []
  | .ownerRelease => []
  | .ownerLinkDown => []
  | .portLimiterWrite => []
  | .hostWindowWrite => []
  | .coldReset => []
  | .warmReset => []
  | .bootctlWrite => []
  | .bootCheckComplete => []
  | .blackboxSnap => []
  | .blackboxSnapComplete => []
  | .getVersion => []
  | .getCapabilities => []
  | .negotiateAlgorithms => []
  | .getDigests => []
  | .getCertificate => []
  | .challenge => []
  | .getMeasurements => []
  | .patrolScrub => []
  | .uncorrectableError => []
  | .genericRegisterWrite => []
  | .relationOperationComplete => []
  | .engineCounterOperationComplete => []
  | .switchUnreachable => []
  | .fabricFormation => []
  | .tokenBrokerMove => []

/-! ## The words of the opcode table -/

/-- The classes of an answer in the order they are tried. -/
def firstDecoded (w : Nat) (lit : Option Nat) : List Nat → Option Instr
  | [] => none
  | c :: cs =>
    match decodeWord c w lit with
    | .instr i _ => some i
    | .bad _ => firstDecoded w lit cs

/-- The instruction of the word `w` of `nbits` bits as the opcode table numbers its bits: the first word is the low 32 bits, a
literal the next. A table word does not say its class, so the classes are tried from 0 to 4 (log 16). -/
def decodeTableWord (nbits w : Nat) : Option Instr :=
  let v := w % 2 ^ nbits
  firstDecoded (v % 4294967296) (some (v / 4294967296 % 4294967296)) [0, 1, 2, 3, 4]

end Sys2Proof
end

