-- ==== Sys2Proof/Machine/Operands.lean ====
section
/-!
DEFINITION. Operand forms of the SIMT class: the checks of register operands (R58, R152, R368), poisoned sources (R392), the uniform
bit (R62), immediates (R151, R152), and the shapes that most instructions have: a result per lane, a transfer of control.
-/
namespace Sys2Proof.Machine

/-! ## Immediates -/

/-- A field of `n` bits read as a signed number (R152). -/
def signed (n v : Nat) : Int := if 2 ^ (n - 1) ≤ v then (v : Int) - 2 ^ n else v
/-- A field of `n` bits sign-extended to a word. -/
def signWord (n v : Nat) : Word := BitVec.ofInt 32 (signed n v)
/-- An address displaced by a signed number of bytes, modulo 2^56 (R168). -/
def displaced (a : VAddr) (off : Int) : VAddr := a + BitVec.ofInt 56 off
/-- The literal of a format W instruction as a signed number. -/
def signedLit (v : Nat) : Int := signed 32 (v % 4294967296)

/-! ## Checks 4 and 5 of R368 -/

/-- A register operand: its number, and how many consecutive registers it stands for (1, a pair, a quad of four). -/
abbrev RegUse := Nat × Nat

/-- The first check that register operands fail, taken in field order: a pair or quad that is not aligned, then a register at or
above the allocation. (log 32, DEDUCED) -/
def regCheck (c : Ctx) (w : Warp) (us : List RegUse) : Option (Nat × DWord) :=
  if us.any fun u => u.1 % u.2 != 0 then some (causeOperand, c.wordTval)
  else (us.find? fun u => decide (8 * w.alloc < u.1 + u.2)).map fun u =>
    (causeRange, BitVec.ofNat 64 (c.word % 4294967296 + u.1 * 4294967296))

/-- TVAL of a data error (R392). -/
def dataTval (kind lane where_ : Nat) : DWord := BitVec.ofNat 64 (kind * 2 ^ 62 + lane * 2 ^ 57 + where_ % 2 ^ 56)

/-- The first poisoned register that a lane reads. -/
def Warp.poisonedReg (w : Warp) (l : Nat) (us : List RegUse) : Option Nat :=
  (us.flatMap fun u => upto u.1 u.2).find? fun r => w.poison.contains (regKey r l)

/-- The data error of register sources that some lanes read (R392): the lowest lane names it. -/
def poisonCheck (w : Warp) (ls : List Nat) (us : List RegUse) : Option (Nat × DWord) :=
  if w.poison.isEmpty then none
  else (ls.findSome? fun l => (w.poisonedReg l us).map fun r => (l, r)).map fun x => (causeData, dataTval 2 x.1 x.2)

/-- The lanes whose operands an instruction reads (R62). -/
def Ctx.readers (c : Ctx) (u : Bool) : List Nat := if u then [c.l0] else c.lanes
/-- The lane whose operands a lane uses (R62). -/
def Ctx.readerOf (c : Ctx) (u : Bool) (l : Nat) : Nat := if u then c.l0 else l

/-- Register operands of an instruction: those it writes, and those it reads on given lanes. -/
def operandCheck (c : Ctx) (w : Warp) (ls : List Nat) (writes reads : List RegUse) : Option (Nat × DWord) :=
  match regCheck c w (writes ++ reads) with
  | some t => some t
  | none => poisonCheck w ls reads

/-- Runs a meaning once its register operands pass their checks; else takes the trap. -/
def withRegs (s : State) (c : Ctx) (w : Warp) (ls : List Nat) (writes reads : List RegUse) (k : Unit → Out) : Out :=
  match operandCheck c w ls writes reads with
  | some t => .next (raiseTrap s c [t])
  | none => k ()

/-! ## A result per lane -/

/-- The registers of lanes written. -/
def Warp.setLanes (w : Warp) : List (Nat × List (Nat × Word)) → Warp
  | [] => w
  | (l, vs) :: r => (w.setRegs l vs).setLanes r

/-- The state with registers of the issuing warp written. -/
def writeLanes (s : State) (c : Ctx) (vs : List (Nat × List (Nat × Word))) : State :=
  s.modWarp c.p c.wg c.wid fun w => w.setLanes vs

/-- Register `d` of the issuing warp's lanes with new contents, of which the instruction writes a part: poison stays (R60, R392). -/
def writePart (s : State) (c : Ctx) (d : Nat) (f : Nat → Word) : State :=
  s.modWarp c.p c.wg c.wid fun w => { w.setLanes (c.lanes.map fun l => (l, [(d, f l)])) with poison := w.poison }

/-- An instruction that computes registers of each lane from registers of that lane, or of lane0 (R58 to R62). -/
def laneOp (u : Bool) (writes reads : List RegUse) (f : Ctx → Warp → Nat → List (Nat × Word)) (s : State) : Out :=
  withGroup s fun c _ w =>
    withRegs s c w (c.readers u) writes reads fun _ =>
      .next (retire (writeLanes s c (c.lanes.map fun l => (l, f c w (c.readerOf u l)))) c)

/-- One source, one destination. -/
def unary (u : Bool) (d a : Nat) (f : Word → Word) (s : State) : Out :=
  laneOp u [(d, 1)] [(a, 1)] (fun _ w l => [(d, f (w.reg a l))]) s

/-- Two sources, one destination. -/
def binary (u : Bool) (d a b : Nat) (f : Word → Word → Word) (s : State) : Out :=
  laneOp u [(d, 1)] [(a, 1), (b, 1)] (fun _ w l => [(d, f (w.reg a l) (w.reg b l))]) s

/-- Three sources, of which the third is the destination's old value (R152). -/
def ternary (u : Bool) (d a b : Nat) (f : Word → Word → Word → Word) (s : State) : Out :=
  laneOp u [(d, 1)] [(d, 1), (a, 1), (b, 1)] (fun _ w l => [(d, f (w.reg a l) (w.reg b l) (w.reg d l))]) s

/-- No source, one destination. -/
def constant (u : Bool) (d : Nat) (v : Word) (s : State) : Out :=
  laneOp u [(d, 1)] [] (fun _ _ _ => [(d, v)]) s

/-- Two registers of a dword. -/
def pairOf (d : Nat) (v : DWord) : List (Nat × Word) := [(d, v.lo), (d + 1, v.hi)]

/-- An instruction that traps whatever its operands: an encoding whose form its entry rejects. -/
def reject (bit : Nat) (s : State) : Out := withGroup s fun c _ _ => trapWord s c bit

/-! ## Transfers of control (R148, R166, R372) -/

/-- The group issues a transfer: the lanes of `targets` go to theirs, the others go on. In handler mode the handler's PC goes to the
first target, if any lane has one. -/
def transfer (s : State) (c : Ctx) (w : Warp) (targets : List (Nat × VAddr)) : State :=
  if w.trap.hm then
    let s' := retire s c
    match targets with
    | [] => s'
    | (_, t) :: _ => s'.modWarp c.p c.wg c.wid fun w => { w with trap := { w.trap with hcur := Cursor.at t } }
  else
    let s' := s.modWarp c.p c.wg c.wid fun w => targets.foldl (fun y e => y.jump e.1 e.2) w
    retireTo s' c (c.lanes.filter fun l => !(targets.map (·.1)).contains l)

/-- Whether one lane decides for the group: U = 1, or handler mode (R62, R372). -/
def oneDecides (w : Warp) (u : Bool) : Bool := u || w.trap.hm

/-! ## Operation counters of a warp (R149) -/

/-- Long-latency results outstanding, by ticket. -/
def Warp.loadCount (w : Warp) : Nat := (nub (w.lanes.flatMap fun x => x.results.map (·.ticket))).length
/-- Stores, reductions and prefetches not performed, by ticket. -/
def Work.storeCount (x : Work) (wg wid : Nat) : Nat :=
  (nub ((x.stores.filter fun y => y.wg == wg && y.wid == wid).map (·.ticket))).length
/-- Open operations of the engine counter: a FORK that waits is one of them. -/
def Work.engCountOf (x : Work) (wg : Nat) (w : Warp) : Nat :=
  w.eng.length + (x.waiters.filter fun y => y.wg == wg && y.wid == w.wid && (match y.kind with
    | .fork _ _ => true
    | _ => false)).length
def Warp.relCount (w : Warp) : Nat := w.rel.length

end Sys2Proof.Machine
end

