-- ==== Sys2Proof/Machine/Flags.lean ====
section
/-!
DEFINITION. Conditions. The part keeps no flags (R164): a comparison writes 1 or 0 into a register. The condition codes of CMP and
CMPI (R165), of FCMP (R200), the bits of FCLASS (R201), and the test of a branch (R166).
-/
namespace Sys2Proof.Machine

/-- A truth as a word (R190). -/
def truth (b : Bool) : Word := if b then 1 else 0

/-- The condition codes 0 to 9 (R165). -/
def condition (c : Nat) (a b : Word) : Bool :=
  match c with
  | 0 => a == b
  | 1 => a != b
  | 2 => decide (a.toInt < b.toInt)
  | 3 => decide (a.toInt ≤ b.toInt)
  | 4 => decide (b.toInt < a.toInt)
  | 5 => decide (b.toInt ≤ a.toInt)
  | 6 => decide (a.toNat < b.toNat)
  | 7 => decide (a.toNat ≤ b.toNat)
  | 8 => decide (b.toNat < a.toNat)
  | _ => decide (b.toNat ≤ a.toNat)

/-- Nonzero is true (R166). -/
def nonzero (a : Word) : Bool := a != 0

end Sys2Proof.Machine
end

