-- ==== Sys2Proof/Machine/Integer.lean ====
section
/-!
DEFINITION. Integer arithmetic, logic, shifts, bit fields, comparisons and immediates (R181 to R196). Each result is one function of
words; each instruction is one line over a shared operand form.
-/
namespace Sys2Proof.Machine

/-! ## Results -/

/-- Bits [63:32] of the signed product (R181). -/
def mulHighS (a b : Word) : Word := BitVec.ofInt 32 (a.toInt * b.toInt / 4294967296)
/-- Bits [63:32] of the unsigned product (R181). -/
def mulHighZ (a b : Word) : Word := BitVec.ofNat 32 (a.toNat * b.toNat / 4294967296)
def absWord (a : Word) : Word := if 0 ≤ a.toInt then a else 0 - a
def minS (a b : Word) : Word := if a.toInt ≤ b.toInt then a else b
def maxS (a b : Word) : Word := if a.toInt ≤ b.toInt then b else a
def minZ (a b : Word) : Word := if a.toNat ≤ b.toNat then a else b
def maxZ (a b : Word) : Word := if a.toNat ≤ b.toNat then b else a

/-- Division truncates toward zero; a zero divisor gives all ones; the one quotient out of range wraps (R183). -/
def divS (a b : Word) : Word := if b = 0 then 0xFFFFFFFF#32 else BitVec.ofInt 32 (a.toInt.tdiv b.toInt)
def divZ (a b : Word) : Word := if b = 0 then 0xFFFFFFFF#32 else BitVec.ofNat 32 (a.toNat / b.toNat)
/-- A remainder has the sign of the dividend; a zero divisor gives the dividend (R183). -/
def remS (a b : Word) : Word := if b = 0 then a else BitVec.ofInt 32 (a.toInt.tmod b.toInt)
def remZ (a b : Word) : Word := if b = 0 then a else BitVec.ofNat 32 (a.toNat % b.toNat)

/-- The numbers of the bits that are 1, in rising order. -/
def onesOf (a : Word) : List Nat := (upto 0 32).filter fun i => a.getLsbD i
def popCount (a : Word) : Word := BitVec.ofNat 32 (onesOf a).length
def leadingZeros (a : Word) : Word :=
  match (onesOf a).getLast? with
  | some i => BitVec.ofNat 32 (31 - i)
  | none => 32
def firstSet (a : Word) : Word :=
  match (onesOf a).head? with
  | some i => BitVec.ofNat 32 i
  | none => 32
def bitReverse (a : Word) : Word := maskOf ((onesOf a).map fun i => 31 - i)

/-- Shifts by a whole word read as Z32 (R186). -/
def shiftLeft (a : Word) (n : Nat) : Word := if n ≤ 31 then a <<< n else 0
def shiftRight (a : Word) (n : Nat) : Word := if n ≤ 31 then a >>> n else 0
def shiftArith (a : Word) (n : Nat) : Word := a.sshiftRight (min n 31)
def rotate (a : Word) (n : Nat) : Word := a.rotateLeft (n % 32)

/-- Position and clamped width of a bit field; none when it is empty (R188). -/
def fieldOf (b : Word) : Option (Nat × Nat) :=
  let pos := b.toNat % 256
  let wid := min (b.toNat / 256 % 256) 32
  if 32 ≤ pos ∨ wid = 0 then none else some (pos, min wid (32 - pos))
def fieldZ (a b : Word) : Word :=
  match fieldOf b with
  | some (pos, wid) => BitVec.ofNat 32 (a.toNat / 2 ^ pos % 2 ^ wid)
  | none => 0
def fieldS (a b : Word) : Word :=
  match fieldOf b with
  | some (pos, wid) => signWord wid (a.toNat / 2 ^ pos % 2 ^ wid)
  | none => 0
/-- R189. -/
def fieldInsert (a b d : Word) : Word :=
  match fieldOf b with
  | some (pos, wid) =>
    let mask := BitVec.ofNat 32 ((2 ^ wid - 1) * 2 ^ pos)
    (d &&& ~~~mask) ||| (BitVec.ofNat 32 (a.toNat * 2 ^ pos) &&& mask)
  | none => d

/-- A pair operation on three even registers (R182). -/
def pairOp (u : Bool) (d a b : Nat) (f : DWord → DWord → DWord) (s : State) : Out :=
  laneOp u [(d, 2)] [(a, 2), (b, 2)] (fun _ w l => pairOf d (f (w.pair a l) (w.pair b l))) s

/-! ## Major 0x01 (R181, R182) -/

def execAdd (u : Bool) (d a b : Nat) (s : State) : Out := binary u d a b (· + ·) s
def execSub (u : Bool) (d a b : Nat) (s : State) : Out := binary u d a b (· - ·) s
def execMul (u : Bool) (d a b : Nat) (s : State) : Out := binary u d a b (· * ·) s
def execMulhs (u : Bool) (d a b : Nat) (s : State) : Out := binary u d a b mulHighS s
def execMulhz (u : Bool) (d a b : Nat) (s : State) : Out := binary u d a b mulHighZ s
def execMad (u : Bool) (d a b : Nat) (s : State) : Out := ternary u d a b (fun x y z => x * y + z) s
def execAddc (u : Bool) (d a b : Nat) (s : State) : Out := pairOp u d a b (· + ·) s
def execSubb (u : Bool) (d a b : Nat) (s : State) : Out := pairOp u d a b (· - ·) s
def execAbs (u : Bool) (d a : Nat) (s : State) : Out := unary u d a absWord s
def execNeg (u : Bool) (d a : Nat) (s : State) : Out := unary u d a (fun x => 0 - x) s
def execMins (u : Bool) (d a b : Nat) (s : State) : Out := binary u d a b minS s
def execMaxs (u : Bool) (d a b : Nat) (s : State) : Out := binary u d a b maxS s
def execMinz (u : Bool) (d a b : Nat) (s : State) : Out := binary u d a b minZ s
def execMaxz (u : Bool) (d a b : Nat) (s : State) : Out := binary u d a b maxZ s

/-! ## Major 0x02 (R183, R191) -/

def execDivs (u : Bool) (d a b : Nat) (s : State) : Out := binary u d a b divS s
def execDivz (u : Bool) (d a b : Nat) (s : State) : Out := binary u d a b divZ s
def execRems (u : Bool) (d a b : Nat) (s : State) : Out := binary u d a b remS s
def execRemz (u : Bool) (d a b : Nat) (s : State) : Out := binary u d a b remZ s
/-- `f` is FN, 6 + c; `i` the immediate's seven bits (R191). -/
def execCmpi (u : Bool) (f d a i : Nat) (s : State) : Out :=
  unary u d a (fun x => truth (condition (f - 6) x (signWord 7 i))) s
/-- `c` is WFN, 6 + c; `i` the literal (R191). -/
def execCmpiWide (u : Bool) (c d a i : Nat) (s : State) : Out :=
  unary u d a (fun x => truth (condition (c - 6) x (BitVec.ofNat 32 i))) s

/-! ## Major 0x03 (R184, R185) -/

def execAnd (u : Bool) (d a b : Nat) (s : State) : Out := binary u d a b (· &&& ·) s
def execOr (u : Bool) (d a b : Nat) (s : State) : Out := binary u d a b (· ||| ·) s
def execXor (u : Bool) (d a b : Nat) (s : State) : Out := binary u d a b (· ^^^ ·) s
def execAndn (u : Bool) (d a b : Nat) (s : State) : Out := binary u d a b (fun x y => x &&& ~~~y) s
def execNot (u : Bool) (d a : Nat) (s : State) : Out := unary u d a (fun x => ~~~x) s
def execPopc (u : Bool) (d a : Nat) (s : State) : Out := unary u d a popCount s
def execClz (u : Bool) (d a : Nat) (s : State) : Out := unary u d a leadingZeros s
def execFfs (u : Bool) (d a : Nat) (s : State) : Out := unary u d a firstSet s
def execBrev (u : Bool) (d a : Nat) (s : State) : Out := unary u d a bitReverse s
def execMov (u : Bool) (d a : Nat) (s : State) : Out := unary u d a (fun x => x) s
def execSel (u : Bool) (d a b : Nat) (s : State) : Out :=
  ternary u d a b (fun x y z => if nonzero z then x else y) s

/-! ## Major 0x04 (R186 to R189) -/

def execShl (u : Bool) (d a b : Nat) (s : State) : Out := binary u d a b (fun x y => shiftLeft x y.toNat) s
def execShr (u : Bool) (d a b : Nat) (s : State) : Out := binary u d a b (fun x y => shiftRight x y.toNat) s
def execSar (u : Bool) (d a b : Nat) (s : State) : Out := binary u d a b (fun x y => shiftArith x y.toNat) s
def execRot (u : Bool) (d a b : Nat) (s : State) : Out := binary u d a b (fun x y => rotate x y.toNat) s
def execBfes (u : Bool) (d a b : Nat) (s : State) : Out := binary u d a b fieldS s
def execBfez (u : Bool) (d a b : Nat) (s : State) : Out := binary u d a b fieldZ s
def execBfi (u : Bool) (d a b : Nat) (s : State) : Out := ternary u d a b fieldInsert s

/-- A shift by an immediate, 0 to 31 (R187). -/
def shiftImm (u : Bool) (d a n : Nat) (f : Word → Nat → Word) (s : State) : Out :=
  if 31 < n then reject causeOperand s else unary u d a (fun x => f x n) s
def execShli (u : Bool) (d a n : Nat) (s : State) : Out := shiftImm u d a n shiftLeft s
def execShri (u : Bool) (d a n : Nat) (s : State) : Out := shiftImm u d a n shiftRight s
def execSari (u : Bool) (d a n : Nat) (s : State) : Out := shiftImm u d a n shiftArith s
def execRoti (u : Bool) (d a n : Nat) (s : State) : Out := shiftImm u d a n rotate s

/-! ## Major 0x05 (R190) -/

def execCmp (u : Bool) (c d a b : Nat) (s : State) : Out :=
  binary u d a b (fun x y => truth (condition c x y)) s

/-! ## Immediates and addresses (R193 to R196) -/

def execAddi (u : Bool) (d a i : Nat) (s : State) : Out := unary u d a (fun x => x + signWord 11 i) s
def execAddiWide (u : Bool) (d a i : Nat) (s : State) : Out := unary u d a (fun x => x + BitVec.ofNat 32 i) s
def execAndi (u : Bool) (d a i : Nat) (s : State) : Out := unary u d a (fun x => x &&& BitVec.ofNat 32 i) s
def execAndiWide (u : Bool) (d a i : Nat) (s : State) : Out := unary u d a (fun x => x &&& BitVec.ofNat 32 i) s
def execOri (u : Bool) (d a i : Nat) (s : State) : Out := unary u d a (fun x => x ||| BitVec.ofNat 32 i) s
def execOriWide (u : Bool) (d a i : Nat) (s : State) : Out := unary u d a (fun x => x ||| BitVec.ofNat 32 i) s
def execXori (u : Bool) (d a i : Nat) (s : State) : Out := unary u d a (fun x => x ^^^ BitVec.ofNat 32 i) s
def execXoriWide (u : Bool) (d a i : Nat) (s : State) : Out := unary u d a (fun x => x ^^^ BitVec.ofNat 32 i) s
def execMovi (u : Bool) (d i : Nat) (s : State) : Out := constant u d (signWord 18 i) s
def execMoviWide (u : Bool) (d i : Nat) (s : State) : Out := constant u d (BitVec.ofNat 32 i) s
def execMovhi (u : Bool) (d i : Nat) (s : State) : Out := constant u d (BitVec.ofNat 32 (i * 2 ^ 14)) s
def execMovhiWide (u : Bool) (d i : Nat) (s : State) : Out := constant u d (BitVec.ofNat 32 i) s

/-- The address of the word plus a signed byte offset, into a pair (R196). -/
def addressOf (u : Bool) (d : Nat) (off : Int) (s : State) : Out :=
  laneOp u [(d, 2)] [] (fun c w _ => pairOf d ((w.pcOf c).setWidth 64 + BitVec.ofInt 64 off)) s
def execLea (u : Bool) (d i : Nat) (s : State) : Out := addressOf u d (4 * signed 18 i) s
def execLeaWide (u : Bool) (d i : Nat) (s : State) : Out := addressOf u d (signedLit i) s

end Sys2Proof.Machine
end

