-- ==== Sys2Proof/Machine/Relate.lean ====
section
/-!
DEFINITION. Level instances and their members (R27 to R32, R37), the end of warps and work-groups (R171, R172, R382), the level
barrier's rounds (R233), and relation points: rows, completion, output (R38 to R54, R397), tables and their pool (R47, R426).
-/
namespace Sys2Proof.Machine

/-! ## Levels -/

/-- Whether a domain is gang-placed (R29). -/
def gangDomain (d : Nat) : Bool := decide (d ≤ 4) || d == 8
/-- Whether a domain holds a work-group's scratchpad: work-group, core, corrected core. -/
def coreDomain (d : Nat) : Bool := d == 2 || d == 3 || d == 8

/-- The one level of a continuation (R138). -/
def contLevel (warps : Nat) : Level := ⟨32 * warps, 0, 2, 2, 0⟩

/-- The instance of a continuation's level: a number no lix value takes. -/
def contInstance (wg : Nat) : Nat := 2 ^ 40 + wg

/-- The levels that the threads of a work-group have. -/
def levelsOf (l : Launch) (g : WorkGroup) : List Level := if g.cont then [contLevel g.seats.length] else l.rcd.levels

/-- The outermost gang-placed level: how many levels up to it, 0 when there is none. -/
def gangLevels (ls : List Level) : Nat := (ls.takeWhile fun x => gangDomain x.domain).length

def productOf (l : List Nat) : Nat := l.foldl (· * ·) 1
def extentsOf (ls : List Level) : List Nat := ls.map (·.extent)

/-- rank_k from the extents of levels 0 to k − 1 and the lix values 0 to k (R32). -/
def rankOf : List Nat → List Nat → Nat
  | e :: es, x :: xs => x + e * rankOf es xs
  | [], x :: _ => x
  | _, [] => 0

/-- The mixed-radix digits of a number; the last takes what is left (R51). -/
def digitsOf : List Nat → Nat → List Nat
  | [], n => [n]
  | e :: es, n => n % e :: digitsOf es (n / e)

/-- The instance of level `k` that encloses a thread: the lix values above the level. -/
def instanceOf (lix : List Nat) (k : Nat) : List Nat := lix.drop (k + 1)

/-! ## Members (R37) -/

/-- The threads of a work-group that run: their lanes with the holding warp. -/
def WorkGroup.running (g : WorkGroup) : List Lane := (g.warps.flatMap (·.lanes)).filter (·.status == .running)

/-- Every saved image of the partition. -/
def Work.images (w : Work) : List Image := w.items.flatMap fun i =>
  match i.kind with
  | .saved imgs => imgs
  | _ => []

/-- The work-groups of a launch, resident or saved. -/
def Work.groupsOf (w : Work) (seq : Nat) : List WorkGroup :=
  (w.wgs ++ w.images.map (·.wg)).filter (·.seq == seq)

/-- Whether unit `u` of a launch, in rank order, lies in an instance of level `k`, or the instance lies in it. -/
def unitIn (ls : List Level) (u k : Nat) (inst : List Nat) : Bool :=
  let n := gangLevels ls
  let outer := (digitsOf (extentsOf (ls.drop n)) u).take (ls.length - n)
  -- the lix values from level max(k+1, n) on agree
  let from_ := max (k + 1) n
  outer.drop (from_ - n) == inst.drop (from_ - (k + 1))

/-- The lix values of the threads that a pending item would start, other than fresh units and images. -/
def Item.rowLix (i : Item) : List (List Nat) :=
  match i.kind with
  | .rows _ units _ => units.flatMap fun u => u.map (·.lix)
  | .restored _ ts _ _ => ts.flatMap fun x => x.2.map (·.lix)
  | _ => []

/-- Whether a pending item holds threads of an instance that have not started. -/
def Item.holds (i : Item) (ls : List Level) (k : Nat) (inst : List Nat) : Bool :=
  match i.kind with
  | .units first count => (upto first count).any fun u => unitIn ls u k inst
  | _ => i.rowLix.any fun x => instanceOf x k == inst

/-- Whether threads of an instance have not started: fresh units, output rows, restored probes (R37, R53). -/
def Work.unstarted (w : Work) (seq k : Nat) (inst : List Nat) : Bool :=
  (w.outputs.any fun o => o.seq == seq && o.warps.any fun x => x.2.any fun t => instanceOf t.lix k == inst) ||
  (w.items.any fun i => i.seq == seq &&
    (match find w.launches seq with
     | some l => i.holds l.rcd.levels k inst
     | none => false))

/-- Whether threads of an instance have arrived at a pending point of a narrower level: still members (R37, R39). -/
def Work.arrivedNarrower (w : Work) (seq k : Nat) (inst : List Nat) : Bool :=
  w.points.any fun pt => pt.seq == seq && decide (pt.k < k) && pt.rows.any fun r => instanceOf r.lix k == inst

/-- Whether a thread of an instance runs, in a resident or saved work-group, and fails a test. -/
def Work.runningWho (w : Work) (seq k : Nat) (inst : List Nat) (t : Lane → Bool) : Bool :=
  (w.groupsOf seq).any fun g => g.running.any fun x => instanceOf x.lix k == inst && t x

/-- A pending point is complete: every member has arrived there or exited (R40). (log 27, DEDUCED) -/
def Work.complete (w : Work) (pt : Point) : Bool :=
  !w.runningWho pt.seq pt.k pt.inst (fun _ => true) && !w.unstarted pt.seq pt.k pt.inst &&
  !w.arrivedNarrower pt.seq pt.k pt.inst

/-- Whether a member of an instance for which an LBAR round waits has not been placed: output rows that have not started count as exited
for it (R233). -/
def Work.unplaced (w : Work) (seq k : Nat) (inst : List Nat) : Bool :=
  w.items.any fun i => i.seq == seq &&
    match i.kind, find w.launches seq with
    | .rows _ _ _, _ => false
    | _, some l => i.holds l.rcd.levels k inst
    | _, none => false

/-- An LBAR round of level `k` releases: every member has arrived or exited; rows that have arrived at a relation point and output rows
that have not started count as exited (R233). -/
def Work.roundMet (w : Work) (seq k : Nat) (inst : List Nat) : Bool :=
  !w.runningWho seq k inst (fun x => x.hold != (.lbar k)) && !w.unplaced seq k inst

/-! ## The end of threads, warps and work-groups -/

/-- Lanes of a warp that stop being threads: they take a status and leave every mask (R21). -/
def Warp.retireLanes (w : Warp) (ls : List Nat) (st : LaneStatus) : Warp :=
  (w.modLanes ls fun x => { x with status := st, hold := .free, results := [] }).leaveAll ls

/-- Whether any lane of a warp runs a thread. -/
def Warp.alive (w : Warp) : Bool := w.lanes.any (·.status == .running)

/-- Warps leave their cores: the launches keep a share in the cores' energy for the instructions issued since the last boundary (R354). -/
def Work.spend (w : Work) (leaves : WorkGroup → Warp → Bool) : Work :=
  { w with spent := w.spent ++ w.wgs.flatMap fun g => (g.warps.filter fun v => leaves g v && decide (v.paid < v.retired)).map fun v =>
      (g.core, g.seq, v.retired - v.paid) }

/-- A work-group without its ended warps: their slots and granules are free (R171). -/
def WorkGroup.sweep (g : WorkGroup) : WorkGroup := { g with warps := g.warps.filter Warp.alive }

/-- A store of a warp that has ended, or of a work-group that is gone: it is no warp's any more (`wg` = 0) and still performs, in its
lane's order (R94, R171); `wid` then is its launch, and `lane` tells the lanes apart. -/
def PendingStore.orphan (x : PendingStore) (seq : Nat) : PendingStore :=
  { x with wg := 0, wid := seq, lane := (x.wg * 1024 + x.wid) * 32 + x.lane }

/-- Stores of warps that have ended still perform (R171). -/
def Work.orphan (w : Work) (g : WorkGroup) : Work :=
  let alive := (g.warps.filter Warp.alive).map (·.wid)
  { w with stores := w.stores.map fun x => if x.wg == g.id && !alive.contains x.wid then x.orphan g.seq else x }

/-- The lix values of some thread of a work-group as it was placed. -/
def WorkGroup.someLix (g : WorkGroup) : List Nat := (g.seats.flatMap (·.threads)).headD []

/-- How many levels up to the innermost one bound to work-group, core or corrected core (R427). -/
def groupLevels (ls : List Level) : Option Nat := (indexOf (fun x => coreDomain x.domain) ls).map (· + 1)

/-- The instance of the innermost enclosing level bound to cluster, if there is one (R78). -/
def clusterInstance (l : Launch) (g : WorkGroup) : Option (List Nat) :=
  if g.cont then none else (indexOf (fun x => x.domain == 4) l.rcd.levels).map fun k => instanceOf g.someLix k

/-- The unit of placement of a work-group whose levels hold a work-group, core or cluster level: its instance of the outermost gang-placed
level (R136). -/
def unitInstance (l : Launch) (g : WorkGroup) : Option (List Nat) :=
  let ls := l.rcd.levels
  if g.cont || !(ls.take (gangLevels ls)).any (fun x => coreDomain x.domain || x.domain == 4) then none
  else some (instanceOf g.someLix (gangLevels ls - 1))

/-- The work-groups that stand and leave together with one (R29, R30, R428): those of its unit of placement, or itself alone. -/
def Work.peers (w : Work) (g : WorkGroup) : List WorkGroup :=
  match find w.launches g.seq with
  | some l =>
    match unitInstance l g with
    | some i => (w.groupsOf g.seq).filter fun h => unitInstance l h == some i
    | none => [g]
  | none => [g]

/-- The work-groups of one instance of the innermost cluster level (R78). -/
def Work.clusterPeers (w : Work) (g : WorkGroup) : List WorkGroup :=
  match find w.launches g.seq with
  | some l =>
    match clusterInstance l g with
    | some i => (w.groupsOf g.seq).filter fun h => clusterInstance l h == some i
    | none => []
  | none => []

/-- Whether a work-group may still run a thread: one of its own runs, has arrived at a pending point, or is output to start; the same
of its peers, whose relations place rows on it. -/
def Work.inUse (w : Work) (g : WorkGroup) : Bool :=
  (w.peers g).any fun h =>
    !h.running.isEmpty ||
    (w.points.any fun pt => pt.rows.any fun r => r.wg == h.id) ||
    (w.outputs.any fun o => o.seats.any fun x => x.1 == h.id) ||
    (w.items.any fun i => match i.kind with
      | .restored _ ts _ _ => ts.any fun x => x.1 == h.id
      | _ => false)

/-- Sequencers that a work-group forked and that have not executed END. -/
def Work.seqsOf (w : Work) (wg : Nat) : List Seq := w.seqs.filter fun q => q.wg == wg && q.cls != 4

/-- Four watchpoints that are off (R304). -/
def noWatch : List Watch := List.replicate 4 ⟨0, 0, 0⟩

/-- The work with the images that pass a test. -/
def Work.keepImages (w : Work) (t : Image → Bool) : Work :=
  { w with items := w.items.filterMap fun i =>
      match i.kind with
      | .saved imgs => if (imgs.filter t).isEmpty then none else some { i with kind := .saved (imgs.filter t) }
      | _ => some i }

/-- Whether nothing of a saved work-group is left to run: every thread has exited or retired, and it has no sequencer. -/
def Image.empty (m : Image) : Bool := m.spilled && m.wg.running.isEmpty && m.seqs.isEmpty

/-- Ended work-groups leave; one whose sequencers still run is kept for them alone (R172). Watchpoints end with the last warp (R304). An
image with nothing left to run is discarded (R41), but for one on which a pending relation may still place rows (R52). -/
def Work.finishGroups (w : Work) : Work :=
  let gone := w.wgs.filter fun g => !w.inUse g && (w.seqsOf g.id).isEmpty
  let kept := w.wgs.filter fun g => !w.inUse g && !(w.seqsOf g.id).isEmpty
  let w1 : Work := { w with wgs := (w.wgs.filter fun g => !(gone.map (·.id)).contains g.id).map fun g =>
      if (kept.map (·.id)).contains g.id then { g with kept := true, warps := [], watch := noWatch }
      else if g.warps.isEmpty then { g with watch := noWatch } else g }
  w1.keepImages fun m => !m.empty || w.inUse m.wg

/-- A deque that holds nothing while no work-group of its owner stands on the core has no owner (R140). -/
def State.freeDeques (s : State) (p : Nat) : State :=
  { s with cores := s.cores.map fun e =>
      if ownsCore p e.1 && e.2.deque.entries.isEmpty &&
          !((s.work p).wgs.any fun g => g.core == e.1 && g.seq == e.2.deque.owner) then
        (e.1, { e.2 with deque := ⟨0, []⟩ })
      else e }

/-! ## The level barrier (R233) -/

/-- The rounds at which lanes are held: launch, level, instance. -/
def Work.rounds (w : Work) : List (Nat × Nat × List Nat) :=
  (w.wgs ++ w.images.map (·.wg)).flatMap fun g => g.running.filterMap fun x =>
    match x.hold with
    | .lbar k => some (g.seq, k, instanceOf x.lix k)
    | _ => none

/-- A work-group with the lanes of a round released: they stand at the instruction after their LBAR. -/
def WorkGroup.releaseRound (g : WorkGroup) (k : Nat) (inst : List Nat) : WorkGroup :=
  { g with warps := g.warps.map fun w => { w with lanes := w.lanes.map fun x =>
      if x.status == .running && x.hold == (.lbar k) && instanceOf x.lix k == inst then { x with hold := .free, cur := x.cur.past 1 }
      else x } }

/-- Every resident and saved work-group of a launch changed. -/
def Work.modGroups (w : Work) (seq : Nat) (f : WorkGroup → WorkGroup) : Work :=
  { w with wgs := updAll (·.seq == seq) f w.wgs,
           items := w.items.map fun i =>
             if i.seq == seq then
               match i.kind with
               | .saved imgs => { i with kind := .saved (imgs.map fun m => { m with wg := f m.wg }) }
               | _ => i
             else i }

/-- The rounds that are met. -/
def Work.metRounds (w : Work) : List (Nat × Nat × List Nat) := w.rounds.filter fun r => w.roundMet r.1 r.2.1 r.2.2

/-- Rounds that are met release. -/
def Work.releaseRounds (w : Work) : Work :=
  w.metRounds.foldl (fun x r => x.modGroups r.1 fun g => g.releaseRound r.2.1 r.2.2) w

/-- Cores on which lanes of a met round are held: their departure is an acquire (R234). -/
def Work.departing (w : Work) : List Nat :=
  let met := w.metRounds
  nub ((w.wgs.filter fun g => g.running.any fun x =>
    match x.hold with
    | .lbar k => met.contains (g.seq, k, instanceOf x.lix k)
    | _ => false).map (·.core))

/-! ## Schemas and rows (R42 to R46) -/

/-- The registers that a schema names. -/
def Column.uses (c : Column) : List Nat := if c.wide then [c.reg, c.reg + 1] else [c.reg]
def Schema.uses (x : Schema) : List Nat := (x.key :: x.cols).flatMap Column.uses

/-- A key or column value of a row of registers. -/
def Column.value (c : Column) (regs : List Word) : DWord :=
  if c.wide then DWord.ofPair (regs.getD c.reg 0) (regs.getD (c.reg + 1) 0) else (regs.getD c.reg 0).setWidth 64

/-- The registers of a row with a column's value written. -/
def Column.write (c : Column) (regs : List Word) (v : DWord) : List Word :=
  if c.wide then (regs.set c.reg v.lo).set (c.reg + 1) v.hi else regs.set c.reg v.lo

/-- The combined value of a column for the members of a key, the representative first (R43, R46). -/
def combine (op seed : Nat) (vs : List DWord) : DWord :=
  let lows := vs.map DWord.lo
  let fold (f : Word → Word → Word) : DWord := (lows.tail.foldl f (lows.headD 0)).setWidth 64
  match op with
  | 1 => fold (· + ·)
  | 2 => (freeSum seed lows).setWidth 64
  | 3 => fold minS
  | 4 => fold maxS
  | 5 => fold minZ
  | 6 => fold maxZ
  | 7 => (match lows with
    | [x] => (fmin x x).setWidth 64
    | _ => fold fmin)
  | 8 => (match lows with
    | [x] => (fmax x x).setWidth 64
    | _ => fold fmax)
  | 9 => vs.tail.foldl (· &&& ·) (vs.headD 0)
  | 10 => vs.tail.foldl (· ||| ·) (vs.headD 0)
  | 11 => vs.tail.foldl (· ^^^ ·) (vs.headD 0)
  | 12 => BitVec.ofNat 64 vs.length
  | _ => vs.headD 0

/-- The distinct keys of rows in rising order (R44). -/
def keysOf (x : Schema) (rows : List Arrived) : List Nat := sortNat (nub (rows.map fun r => (x.key.value r.regs).toNat))

/-- Rows in the order of their ranks at a level. -/
def byRank (exts : List Nat) (rows : List Arrived) : List Arrived :=
  sortBy (fun a b => decide (rankOf exts a.lix ≤ rankOf exts b.lix)) rows

/-- An output thread before it has its place: it starts where its source row goes on. -/
def Arrived.output (r : Arrived) (regs : List Word) : NewThread := ⟨r.lix, regs, r.poison, r.next, r.mr, 0⟩

/-- The output rows of GROUP (R45), by key. -/
def groupRows (x : Schema) (exts : List Nat) (seed : Nat) (rows : List Arrived) : List NewThread :=
  (keysOf x rows).filterMap fun key =>
    let ms := byRank exts (rows.filter fun r => (x.key.value r.regs).toNat == key)
    match ms with
    | [] => none
    | rep :: _ =>
      some (rep.output (((upto 0 x.cols.length).zip x.cols).foldl (fun regs e =>
        e.2.write regs (combine e.2.op (seed + 16 * key + e.1) (ms.map fun r => e.2.value r.regs))) rep.regs))

/-- The build rows that match a key, in build-row order (R50). -/
def Version.matching (v : Version) (key : DWord) : List Row := v.rows.filter fun r => r.key == key

/-- The output rows of JOIN (R50), by key, probe rank and build-row index. -/
def joinRows (x : Schema) (exts : List Nat) (v : Version) (rows : List Arrived) : List NewThread :=
  (keysOf x rows).flatMap fun key =>
    (byRank exts (rows.filter fun r => (x.key.value r.regs).toNat == key)).flatMap fun r =>
      (v.matching (BitVec.ofNat 64 key)).map fun b =>
        r.output ((x.cols.zip b.cols).foldl (fun regs e => e.1.write regs e.2) r.regs)

/-- Whether a JOIN exceeds its limits (R50), and TVAL's EXTRA (R398): the lowest probe rank with too many matches, or all ones. -/
def fanOut (x : Schema) (exts : List Nat) (v : Version) (rows : List Arrived) : Option Nat :=
  let counts := (byRank exts rows).map fun r => (rankOf exts r.lix, (v.matching (x.key.value r.regs)).length)
  match counts.find? fun c => decide (65536 < c.2) with
  | some c => some c.1
  | none => if 4294967295 < (counts.map (·.2)).foldl (· + ·) 0 then some 4294967295 else none

/-! ## Tables and their pool (R47, R426) -/

/-- The bytes of a row of a version. -/
def rowBytes (shape : Bool × List Bool) : Nat :=
  let one (w : Bool) : Nat := if w then 8 else 4
  (8 + one shape.1 + (shape.2.map one).foldl (· + ·) 0 + 7) / 8 * 8

/-- The bytes of a version with its rows. -/
def Version.poolBytes (v : Version) : Nat :=
  match v.shape with
  | some sh => 256 + v.rows.length * rowBytes sh
  | none => 256

/-- A table without the old versions that no JOIN binds, and the bytes they return (R47). -/
def Table.reclaim (t : Table) : Table × Nat :=
  let gone := t.old.filter (·.binds == 0)
  ({ t with old := t.old.filter (·.binds != 0) }, (gone.map Version.poolBytes).foldl (· + ·) 0)

/-- The version of a table with a number. -/
def Table.version (t : Table) (n : Nat) : Option Version :=
  match t.cur with
  | some v => if v.num == n then some v else t.old.find? (·.num == n)
  | none => t.old.find? (·.num == n)

/-- The table with a version changed. -/
def Table.modVersion (t : Table) (n : Nat) (f : Version → Version) : Table :=
  { t with cur := t.cur.map fun v => if v.num == n then f v else v, old := updAll (·.num == n) f t.old }

/-- A binding of a JOIN to a version ends; the version is reclaimed when that was the last and it is not current. -/
def Partition.unbind (x : Partition) (table num : Nat) : Partition :=
  match find x.tables table with
  | some t =>
    let r := (t.modVersion num fun v => { v with binds := v.binds - 1 }).reclaim
    { x with tables := put x.tables table r.1, pool := x.pool - r.2 }
  | none => x

/-! ## Arrival (R38, R39, R49, R268) -/

/-- A relation instruction's operands: JOIN or GROUP, level, RID, schema number, table id (JOIN). -/
structure RelOp where
  join : Bool
  k : Nat
  rid : Nat
  schema : Nat
  table : Nat
  deriving DecidableEq, Repr

/-- Key and column widths of a schema, as a version's shape (R269). -/
def Schema.shape (x : Schema) : Bool × List Bool := (x.key.wide, x.cols.map (·.wide))

/-- Whether a schema passes against a version: equal widths, or a version without rows (R50). -/
def Version.accepts (v : Version) (x : Schema) : Bool :=
  match v.shape with
  | some sh => sh == x.shape
  | none => true

/-- The pending point of an instance (R38: at most one). -/
def Work.pointAt (w : Work) (seq k : Nat) (inst : List Nat) : Option Point :=
  w.points.find? fun pt => pt.seq == seq && pt.k == k && pt.inst == inst

/-- Checks 3 to 5 of R268 for one lane: the cause, or the number of the version it is bound to (0 for GROUP). -/
def arrivalCheck (x : Partition) (w : Work) (sch : Schema) (seq : Nat) (inst : List Nat) (op : RelOp) : Except Nat Nat :=
  match w.pointAt seq op.k inst with
  | some pt =>
    if pt.rid ≠ op.rid ∨ pt.join ≠ op.join ∨ pt.schema ≠ op.schema ∨ (op.join = true ∧ pt.table ≠ op.table) then .error causeConflict
    else if !op.join then .ok 0
    else
      match (find x.tables op.table) >>= fun t => t.version pt.version with
      | some v => if v.accepts sch then .ok pt.version else .error causeSchema
      | none => .error causeTable
  | none =>
    if !op.join then .ok 0
    else
      match (find x.tables op.table) >>= fun t => t.cur with
      | some v => if v.accepts sch then .ok v.num else .error causeSchema
      | none => .error causeTable

/-- A lane that has passed its checks arrives (R39): its row joins the pending point, or opens one; the first arrival of a JOIN binds
the version (R49). -/
def State.arrive (s : State) (p seq : Nat) (inst : List Nat) (op : RelOp) (version : Nat) (row : Arrived) : State :=
  match (s.work p).pointAt seq op.k inst with
  | some _ =>
    let here := fun pt : Point => pt.seq == seq && pt.k == op.k && pt.inst == inst
    s.modWork p fun w => { w with points := updFirst here (fun pt => { pt with rows := pt.rows ++ [row] }) w.points }
  | none =>
    let s1 := s.modWork p fun w => { w with points := w.points ++
      [⟨seq, op.k, inst, op.rid, op.join, op.schema, op.table, version, [row]⟩] }
    if !op.join then s1
    else s1.modPart p fun x =>
      match find x.tables op.table with
      | some t => { x with tables := put x.tables op.table (t.modVersion version fun v => { v with binds := v.binds + 1 }) }
      | none => x

/-- The row that a lane deposits: its registers below the allocation with their poison, where it stood and where it goes on. -/
def Warp.rowAt (w : Warp) (wg l size : Nat) : Arrived :=
  let x := w.lane l
  ⟨x.lix, w.rowOf l, (upto 0 (8 * w.alloc)).filter fun r => w.poison.contains (regKey r l), x.cur, x.cur.past size, x.mr, x.relcnt,
    wg, w.wid, l⟩

/-! ## Completion (R40, R51 to R54, R397) -/

/-- Rows numbered and placed: lix from the row's number, relcnt the total (R51). -/
def numbered (exts inst : List Nat) (total : Nat) : Nat → List NewThread → List NewThread
  | _, [] => []
  | i, t :: r => { t with lix := digitsOf exts i ++ inst, relcnt := total } :: numbered exts inst total (i + 1) r

/-- The largest allocation that an input warp of the population holds at completion (R52); a warp that has ended counts with what it held
when its last row arrived. (log 85, DEDUCED) -/
def Work.inputGranules (w : Work) (rows : List Arrived) : Nat :=
  let warps := nub (rows.map fun r => (r.wg, r.wid))
  (warps.map fun e =>
    match (w.wgs ++ w.images.map (·.wg)).find? (·.id == e.1) >>= fun g => g.warp e.2 with
    | some x => x.alloc
    | none => ((rows.filter fun r => r.wg == e.1 && r.wid == e.2).getLast?.map fun r => r.regs.length / 8).getD 0).foldl max 1

/-- The warp positions of an instance, in the order of the rank of its lowest-ranked thread there: work-group and index (R52). An instance
that output rows have formed (R54) has the positions at which their warps stand. (log 91, DEDUCED) -/
def Work.positions (w : Work) (exts : List Nat) (seq k : Nat) (inst : List Nat) : List (Nat × Nat) :=
  let here := (w.groupsOf seq).flatMap fun g => (g.seats.filter fun st => decide (k < st.level)).filterMap fun st =>
    match (st.threads.filter fun x => instanceOf x k == inst).map (rankOf exts) with
    | [] => none
    | r :: rs => some (st.level, rs.foldl min r, g.id, st.wid)
  let latest := here.foldl (fun m e => min m e.1) 16
  nub ((sortBy (fun (a b : Nat × Nat × Nat × Nat) => decide (a.2.1 ≤ b.2.1)) (here.filter (·.1 == latest))).map (·.2.2))

/-- The position of output warp `j` (R52). -/
def Output.seat (o : Output) (j : Nat) : Option (Nat × Nat) := o.seats[j % max 1 o.seats.length]?

/-- Work with the positions at which the output warps of a relation will stand: those of the instances that they form. -/
def Work.seatRows (w : Work) (o : Output) : Work :=
  if o.k = 0 then w
  else w.modGroups o.seq fun g =>
    let mine : List Seat := o.warps.filterMap fun e => (o.seat e.1).bind fun q =>
      if q.1 = g.id then some ⟨q.2, e.2.map (·.lix), o.k⟩ else none
    { g with seats := g.seats ++ mine }

/-- Units of output rows of an instance that is not gang-placed: the threads of one instance of the outermost gang-placed level, in the
order of their first row (R52). -/
def rowUnits (ls : List Level) (ts : List NewThread) : List (List NewThread) :=
  let n := gangLevels ls
  let keys := ts.foldl (fun (acc : List (List Nat)) t =>
    let key := t.lix.drop n
    if acc.contains key then acc else acc ++ [key]) []
  keys.map fun key => ts.filter fun t => t.lix.drop n == key

/-- Work with the rows of a completed relation placed to start (R52, R53). -/
def Work.placeRows (w : Work) (l : Launch) (now : Nat) (pt : Point) (gran : Nat) (ts : List NewThread)
    (ls : List Level) : Work :=
  if ts.isEmpty then w
  else if gangDomain ((ls.getD pt.k (contLevel 1)).domain) then
    let o : Output := ⟨pt.seq, pt.k, pt.inst, gran, w.positions ((extentsOf ls).take pt.k) pt.seq pt.k pt.inst,
      (upto 0 ((ts.length + 31) / 32)).zip (pieces 32 ts.length ts), []⟩
    { w.seatRows o with outputs := w.outputs ++ [o] }
  else
    { w with items := w.items ++
        [⟨pt.seq, pt.seq, l.rcd.prio, now, l.rcd.prio, false, false, .rows pt.k (rowUnits ls ts) gran⟩] }

/-- The levels that apply at a point: those of the continuation when its instance is one. -/
def pointLevels (l : Launch) (pt : Point) : List Level :=
  match pt.inst with
  | [i] => if 2 ^ 40 ≤ i then [contLevel 1] else l.rcd.levels
  | _ => l.rcd.levels

/-- TVAL of a relation cause (R398). -/
def relTval (extra table schema level rid : Nat) : DWord :=
  BitVec.ofNat 64 (extra * 2 ^ 32 + table * 2 ^ 16 + schema * 2 ^ 12 + level * 2 ^ 8 + rid)

/-- A work-group without the scratchpad of the instances that a relation at level `k` dissolves, and without their warp positions (R54);
where the level is not gang-placed, the instance itself has none on it either. -/
def WorkGroup.dissolve (g : WorkGroup) (k : Nat) (inst : List Nat) (gang : Bool) : WorkGroup :=
  { g with space := g.space.filter fun r => !(decide (r.level < k) && r.inst.drop (k - r.level) == inst),
           seats := g.seats.map fun st =>
             if gang && decide (k < st.level) then st else { st with threads := st.threads.filter fun x => instanceOf x k != inst } }

/-- The rows that stand at points of wider levels read the count of a relation that an instance enclosing them has completed (R10, R61). -/
def Work.noteCount (w : Work) (seq k : Nat) (inst : List Nat) (total : Nat) : Work :=
  { w with points := w.points.map fun pt =>
      if pt.seq = seq then
        { pt with rows := pt.rows.map fun r => if instanceOf r.lix k == inst then { r with relcnt := total } else r }
      else pt }

/-- A probe as it stood at its JOIN (R397). -/
def Arrived.again (r : Arrived) : NewThread := ⟨r.lix, r.regs, r.poison, r.at_, r.mr, r.relcnt⟩

/-- The probes of a JOIN beyond its limits by the work-group that takes them, in ascending rank (R397): 32 to a warp over the positions of
their instance; where levels inside it hold scratchpad, or it is not gang-placed, each stays in the work-group in which it arrived. (log
74, DEDUCED) -/
def Work.backTo (w : Work) (ls : List Level) (exts : List Nat) (pt : Point) : List (Nat × List NewThread) :=
  let probes := byRank exts pt.rows
  let seats := w.positions exts pt.seq pt.k pt.inst
  if !gangDomain ((ls.getD pt.k (contLevel 1)).domain) || (ls.take pt.k).any (fun x => coreDomain x.domain) || seats.isEmpty then
    (nub (probes.map (·.wg))).map fun g => (g, (probes.filter (·.wg == g)).map Arrived.again)
  else
    let warps := (upto 0 ((probes.length + 31) / 32)).zip (pieces 32 probes.length (probes.map Arrived.again))
    let home (j : Nat) : Nat := ((seats[j % seats.length]?).map (·.1)).getD 0
    (nub (warps.map fun e => home e.1)).map fun g => (g, (warps.filter fun e => home e.1 == g).flatMap (·.2))

/-- A pending point of partition `p` completes: GROUP produces its rows, JOIN its matches, or, beyond its limits, the probes again with
the fan-out cause pending (R397). -/
def State.completePoint (s : State) (p : Nat) (pt : Point) : State :=
  let w := s.work p
  let w0 := { w with points := w.points.filter fun x => x != pt }
  match find w.launches pt.seq with
  | none => s.modWork p fun _ => w0
  | some l =>
    let ls := pointLevels l pt
    let exts := (extentsOf ls).take pt.k
    let gran := w.inputGranules pt.rows
    match l.schemas[pt.schema]? with
    | none => s.modWork p fun _ => w0
    | some x =>
      let gang := gangDomain ((ls.getD pt.k (contLevel 1)).domain)
      let made (ts : List NewThread) : Work := ((w0.modGroups pt.seq fun g => g.dissolve pt.k pt.inst gang).noteCount pt.seq pt.k pt.inst
        ts.length).placeRows l s.cycle pt gran (numbered exts pt.inst ts.length 0 ts) ls
      if !pt.join then s.modWork p fun _ => made (groupRows x exts (s.tick * 4294967296) pt.rows)
      else
        let s' := s.modPart p fun y => y.unbind pt.table pt.version
        match (find (s.part p).tables pt.table) >>= fun t => t.version pt.version with
        | none => s'.modWork p fun _ => w0
        | some v =>
          match fanOut x exts v pt.rows with
          | some extra =>
            let back := w.backTo ls exts pt
            let prio := (((w.groupsOf pt.seq).find? fun g => pt.rows.any fun r => r.wg == g.id).map (·.prio)).getD l.rcd.prio
            s'.modWork p fun _ => { w0 with items :=
              ⟨pt.seq, pt.seq, prio, s.cycle, prio, false, false,
                .restored pt.k back (relTval extra pt.table pt.schema pt.k pt.rid) gran⟩ :: w0.items }
          | none => s'.modWork p fun _ => made (joinRows x exts v pt.rows)

/-! ## Sealing (R270, R271) -/

/-- RELSEAL of a table. -/
def Partition.relseal (x : Partition) (table : Nat) : Except (Nat × DWord) (Partition × Nat) :=
  let bad : Nat × DWord := (causeTable, relTval 0 table 0 0 0)
  match find x.tables table with
  | none => .error bad
  | some t =>
    match t.pend with
    | none => .error bad
    | some v =>
      if 2 ^ 32 ≤ v.num then .error bad
      else
        let r := ({ t with cur := some v, pend := none, old := t.cur.toList ++ t.old } : Table).reclaim
        .ok ({ x with pool := x.pool - r.2, tables := put x.tables table r.1 }, v.num)

/-- The RELSEALs in progress of which a test says so complete, in their order. (log 92, DEDUCED) -/
def State.sealWhere (s : State) (p : Nat) (t : Nat × Nat → Bool) : State :=
  (((s.work p).seals.filter t).foldl (fun st e =>
    match (st.part p).relseal e.2 with
    | .ok r => st.modPart p fun _ => r.1
    | .error _ => st) s).modWork p fun w => { w with seals := w.seals.filter fun e => !t e }

/-- The RELSEALs of warps that stand on no core any more complete. -/
def State.sealLost (s : State) (p : Nat) : State :=
  s.sealWhere p fun e => !((s.work p).wgs.any fun g => g.warps.any fun w => w.rel.contains e.1)

/-- Complete points, one after another: a completion can complete another (R40). -/
def State.completePoints (s : State) (p : Nat) : Nat → State
  | 0 => s
  | n + 1 =>
    match (s.work p).points.find? (s.work p).complete with
    | some pt => (s.completePoint p pt).completePoints p n
    | none => s

/-- The pre-emption register is done once nothing is left to leave its core or to spill (R420). -/
def State.preemptDone (s : State) (p : Nat) : State :=
  if (s.part p).preempt.state = 1 ∧ (s.work p).images.all (·.spilled) ∧ (s.work p).wgs.all (·.pre == 0) then
    s.modPart p fun x => { x with preempt := { x.preempt with state := 2 } }
  else s

/-- THE END OF A SLOT in which threads of partition `p` have exited, retired or arrived (R40, R171, R172, R233): ended warps leave,
relation points complete, barrier rounds release, ended work-groups leave. -/
def State.settle (s : State) (p : Nat) : State :=
  let s1 := (s.modWork p fun w => w.wgs.foldl Work.orphan
    { w.spend fun _ v => !v.alive with wgs := w.wgs.map WorkGroup.sweep }).sealLost p
  let s2 := s1.completePoints p (s1.work p).points.length
  let s3 := (s2.work p).departing.foldl (fun st c => st.acquireOn p c) s2
  ((s3.modWork p fun w => w.releaseRounds.finishGroups).freeDeques p).preemptDone p

end Sys2Proof.Machine
end

