-- ==== Sys2Proof/Machine/Stores.lean ====
section
/-!
DEFINITION. Stores and reductions that have issued and wait to be performed (R94, R101, R103, R149, R221): their order, how they are
performed, what a release performs, and what a lane sees of its own.
-/
namespace Sys2Proof.Machine

/-! ## Performing stores -/

/-- Whether two waiting stores touch a common byte. -/
def PendingStore.overlaps (a b : PendingStore) : Bool :=
  a.spad == b.spad && a.bytes.any fun x => b.bytes.any fun y => x.1 == y.1

/-- The lane whose store it is. -/
def PendingStore.who (x : PendingStore) : Nat × Nat × Nat := (x.wg, x.wid, x.lane)

/-- Whether a store waits for an earlier one (R94, R101, R221): one of its lane, or of a lower lane of its instruction, into a common byte;
and a reduction for each earlier reduction of its lane. -/
def PendingStore.after (b a : PendingStore) : Bool :=
  (b.overlaps a && (a.ticket == b.ticket || a.who == b.who)) || (a.red.isSome && b.red.isSome && a.who == b.who)

/-- The operator of RADD by FN; none is the FP32 sum (R103, R230). -/
def raddOperator (f : Nat) : Option (Word → Word → Word) :=
  match f with
  | 0 => some (· + ·)
  | 1 => none
  | 2 => some minS
  | 3 => some maxS
  | 4 => some minZ
  | 5 => some maxZ
  | 6 => some (· &&& ·)
  | 7 => some (· ||| ·)
  | _ => some (· ^^^ ·)

/-- A reduction into a word of memory (R103): an FP32 sum joins the run at its word, the others are exact. -/
def Memory.reduce (m : Memory) (a f : Nat) (v : Word) (pick : Nat) : Memory :=
  match raddOperator f with
  | some op => m.write a (bytesOf 4 (op (BitVec.ofNat 32 (m.read a 4)) v).toNat)
  | none => m.raddF32 a v pick

/-- The core on which a work-group stands; 768 names none. -/
def State.coreOfWg (s : State) (p wg : Nat) : Nat := (((s.work p).wg wg).map (·.core)).getD 768

/-- A store or reduction is performed: its bytes are written, with the poison it carries. Every reduction has a tree of its own number. -/
def State.perform (s : State) (p : Nat) (x : PendingStore) : State :=
  match x.bytes with
  | [] => s
  | (a, _) :: _ =>
    let bs := x.bytes.map (·.2)
    let s1 := s.wrote x.spad [p] 0 [x.who] a bs.length
    if x.spad then
      let sp := s.spad.write a bs
      { s1 with spad := if x.poison then sp.poisonWord a else sp }
    else
      { s1 with mem := match x.red with
        | some (f, v) => s.mem.reduce a f v (x.ticket * 32 + x.lane)
        | none => if x.poison then (s.mem.write a bs).poisonSpan a bs.length else s.mem.write a bs }

/-- The stores of a list that some stores must come after, together with them. -/
def closure : List PendingStore → List PendingStore → List PendingStore
  | [], acc => acc
  | x :: r, acc => closure r (if acc.any fun y => y.after x then x :: acc else acc)

/-- Store number `n` of the list of waiting stores is performed, and before it those it comes after. One that still has member writes
parked stays (R411). -/
def State.performStore (s : State) (p n : Nat) : State :=
  match (s.work p).stores[n]? with
  | none => s
  | some x =>
    if x.parked ≠ 0 then s
    else
      let due := closure ((s.work p).stores.take n).reverse [x]
      (due.foldl (fun st y => st.perform p y) s).modWork p fun w => { w with stores := w.stores.filter fun y => !due.contains y }

/-- The waiting stores on which a test holds are performed, oldest first. -/
def State.drainWhere (s : State) (p : Nat) (t : PendingStore → Bool) : State :=
  ((s.work p).stores.filter t).foldl (fun st x =>
    match indexOf (· == x) (st.work p).stores with
    | some n => st.performStore p n
    | none => st) s

/-- The lane's stores with bytes are performed, oldest first: what a release does (R101). -/
def State.drainLane (s : State) (p wg wid lane : Nat) : State :=
  s.drainWhere p fun x => x.wg == wg && x.wid == wid && x.lane == lane && !x.bytes.isEmpty

/-- Whether a lane has a multicast store, for TRAPRET one of the handler's, that a member has not performed yet (R410, R411). -/
def State.storeOpen (s : State) (p wg wid lane : Nat) (hm : Bool) : Bool :=
  (s.work p).stores.any fun x => x.wg == wg && x.wid == wid && x.lane == lane && x.parked != 0 && (x.hm || !hm)

/-- Whether a lane has a multicast access that a member has not performed yet: a release waits for it (R101). -/
def State.laneOpen (s : State) (p wg wid lane : Nat) : Bool :=
  s.storeOpen p wg wid lane false ||
  (match s.warp p wg wid with
   | some w => (w.lane lane).results.any fun r => !r.ready
   | none => false)

/-- Runs the meaning of a release once no multicast access of its lanes is open; else the group cannot issue in this slot. -/
def releasing (s : State) (c : Ctx) (ls : List Nat) (k : Unit → Out) : Out :=
  if ls.any (s.laneOpen c.p c.wg c.wid) then .next (stall s c) else k ()

/-- The stores of one instruction are performed. -/
def State.drainTicket (s : State) (p t : Nat) : State := s.drainWhere p fun x => x.ticket == t && !x.bytes.isEmpty

def State.drainLanes (s : State) (c : Ctx) (ls : List Nat) : State := ls.foldl (fun st l => st.drainLane c.p c.wg c.wid l) s

/-- A store that waits. -/
def State.addStore (s : State) (c : Ctx) (x : PendingStore) : State :=
  s.modWork c.p fun w => { w with stores := w.stores ++ [x] }

/-- The units of a store that are performed each as one: the aligned 8-byte halves of a 16-byte store (R91). -/
def unitsOf (bs : List (Nat × Byte)) : List (List (Nat × Byte)) := if bs.length = 16 then [bs.take 8, bs.drop 8] else [bs]

/-- A lane's store waits, unit by unit. -/
def State.addUnits (s : State) (c : Ctx) (g : WorkGroup) (w : Warp) (lane : Nat) (spad : Bool) (bs : List (Nat × Byte)) : State :=
  (unitsOf bs).foldl (fun st u => st.addStore c ⟨s.ids, 0, c.wg, c.wid, lane, privOf g w, spad, false, u, none, w.trap.hm⟩) s

/-- The byte that a lane sees: that of its youngest own store, or the one that stands. -/
def overlay (mine : List PendingStore) (a : Nat) (b : Byte) : Byte :=
  mine.foldl (fun acc x => match x.bytes.find? fun y => y.1 == a with
    | some y => y.2
    | none => acc) b

/-- The waiting stores of a lane into memory, or into the scratchpad. -/
def Work.ownStores (w : Work) (wg wid lane : Nat) (spad : Bool) : List PendingStore :=
  w.stores.filter fun x => x.wg == wg && x.wid == wid && x.lane == lane && x.spad == spad

/-- Memory with a waiting store or reduction made. -/
def Memory.made (m : Memory) (x : PendingStore) : Memory :=
  match x.bytes, x.red with
  | [], _ => m
  | (a, _) :: _, some (f, v) => m.reduce a f v (x.ticket * 32 + x.lane)
  | (a, _) :: _, none => m.write a (x.bytes.map (·.2))

/-- The state that the page walks of a lane's access read: what the lane's earlier instructions have stored stands in memory, also what
still waits (R384, R388). -/
def State.walkView (s : State) (c : Ctx) (lane : Nat) : State :=
  { s with mem := (((s.work c.p).ownStores c.wg c.wid lane false).filter (·.ticket != s.ids)).foldl Memory.made s.mem }

/-- Bytes that a lane sees from an address on. -/
def seen (mine : List PendingStore) : Nat → List Byte → List Byte
  | _, [] => []
  | a, b :: r => overlay mine a b :: seen mine (a + 1) r

end Sys2Proof.Machine
end

