-- ==== Sys2Proof/Machine/Part.lean ====
section
/-!
DEFINITION. What the part does of its own: its reads and writes of memory (R132, R134), room on cores and the forming of work-groups
from launches (R33, R78, R80, R427, R428), and the placing of pending work (R136, R137).
-/
namespace Sys2Proof.Machine

/-! ## Accesses outside the SIMT lanes -/

/-- A span cut at the multiples of 8: no piece crosses a page or an alias line. -/
def pieces8 : Nat → Nat → Nat → List (Nat × Nat)
  | 0, _, _ => []
  | fuel + 1, a, n => if n = 0 then [] else (a, min n (8 - a % 8)) :: pieces8 fuel (a + min n (8 - a % 8)) (n - min n (8 - a % 8))

/-- One piece of an agent's read, as a plain simt load reads it (R87, R88, R145): its bytes, or the cause that stops it. -/
def State.agentPiece (s : State) (g : Agent) (va n : Nat) : Except Nat (List Byte) :=
  match s.xlate g .read va with
  | .bad c => .error c
  | .ok pa leaf =>
    if leafFmt leaf = 2 then
      match s.aliasCheck g.p leaf pa n false with
      | some c => .error c
      | none => s.mem.aliasRead (s.aliasAt g.p leaf pa) n
    else if s.mem.poisoned pa n then .error causeData else .ok (s.readAt g.p pa n)

/-- Pieces read one after another. -/
def State.agentPieces (s : State) (g : Agent) : List (Nat × Nat) → Except Nat (List Byte)
  | [] => .ok []
  | (a, n) :: r =>
    match s.agentPiece g a n with
    | .error c => .error c
    | .ok b => (s.agentPieces g r).map (b ++ ·)

/-- A read of an agent: the value, or the cause that stops it; poison is a data error. -/
def State.agentRead (s : State) (g : Agent) (va n : Nat) : Except Nat Nat := (s.agentPieces g (pieces8 n va n)).map ofBytes

/-- The die at which the part makes its own accesses for a partition. -/
def homeDie (p : Nat) : Nat := dieOfSlice (firstSlice p)

/-- The part itself as an agent: its level passes every level check. (log 26, DEDUCED) -/
def partAgent (p : Nat) : Agent := ⟨p, homeDie p, 3, false⟩

/-- A write that the part makes for a launch, as a plain simt store makes it, or as a reduction (`red`); it is skipped, with a record,
when it cannot be performed (R132): an alias page requantises a store (R89) and takes no reduction (R90). -/
def State.launchWrite (s : State) (p seq va n : Nat) (red : Bool) (f : Nat → Nat) : State :=
  let skip := s.bbWrite 0x0704 p (homeDie p) 2 seq
  match s.xlate (partAgent p) (if red then .atomic else .write) va with
  | .bad _ => skip
  | .ok pa leaf =>
    if leafFmt leaf = 2 then
      match s.aliasCheck p leaf pa n red with
      | some _ => skip
      | none =>
        match s.mem.aliasWrite (s.aliasAt p leaf pa) (bytesOf n (f 0)) with
        | .ok m => { s.aliasWrote p 0 [] (s.aliasAt p leaf pa) n with mem := m }
        | .error _ => skip
    else if s.placeOf p pa = .mem then
      { s.wrote false [p] 0 [] pa n with mem := s.mem.write pa (bytesOf n (f (s.mem.read pa n))) }
    else skip

/-- The status word of a launch written (R132). -/
def State.writeStatus (s : State) (p seq addr state why : Nat) (clamp dqdrop : Bool) : State :=
  if addr = 0 then s
  else if addr % 8 ≠ 0 then s.bbWrite 0x0704 p (homeDie p) 2 seq
  else s.launchWrite p seq addr 8 false fun _ =>
    state + why * 2 ^ 8 + (if clamp then 2 ^ 16 else 0) + (if dqdrop then 2 ^ 17 else 0) + seq % 2 ^ 32 * 2 ^ 32

/-! ## Units, work-groups and warps of a launch (R427) -/

/-- Threads of one unit of placement: the product of the extents of the gang-placed levels. -/
def unitThreads (ls : List Level) : Nat := productOf (extentsOf (ls.take (gangLevels ls)))
/-- Units of a launch: the product of the other extents. -/
def unitCount (ls : List Level) : Nat := productOf (extentsOf (ls.drop (gangLevels ls)))

/-- The lix values of thread `t` of unit `u` (R32). -/
def lixOf (ls : List Level) (u t : Nat) : List Nat :=
  let n := gangLevels ls
  let inner := (digitsOf (extentsOf (ls.take n)) t).take n
  inner ++ (digitsOf (extentsOf (ls.drop n)) u).take (ls.length - n)

/-- The outermost level bound to work-group, core or corrected core within the unit: the work-groups of one instance of it share a core (R29,
R131). A level bound to work-group around others gives each inner instance a work-group of its own (R427). (log 93, DEDUCED) -/
def sharedLevel (ls : List Level) : Option Nat :=
  ((upto 0 (gangLevels ls)).filter fun k => coreDomain (ls.getD k (contLevel 1)).domain).getLast?

/-- Threads of one work-group of a unit (R427). -/
def groupThreads (ls : List Level) : Nat :=
  match groupLevels ls with
  | some n => productOf (extentsOf (ls.take n))
  | none => min 1024 (unitThreads ls)

/-- Lists of equal keys that stand together, in order. -/
def runsOf {α : Type} (key : α → List Nat) : List α → List (List α)
  | [] => []
  | x :: r =>
    match runsOf key r with
    | (y :: ys) :: rest => if key x == key y then (x :: y :: ys) :: rest else [x] :: (y :: ys) :: rest
    | rest => [x] :: rest

/-- The warps of a work-group, as the lix values of their lanes: an instance of the outermost level bound to warp takes a warp of its
own, else 32 threads fill one (R427). -/
def warpsOf (ls : List Level) (threads : List (List Nat)) : List (List (List Nat)) :=
  let inside := ls.take ((groupLevels ls).getD (gangLevels ls))
  match ((upto 0 inside.length).filter fun k => (inside.getD k (contLevel 1)).domain == 1).getLast? with
  | some k => (runsOf (fun x => instanceOf x k) threads).flatMap fun ts => pieces 32 ts.length ts
  | none => pieces 32 threads.length threads

/-- The work-groups of units, each a list of warps (R427). Units without a work-group, core or cluster level are gathered into one. -/
def groupsOfUnits (ls : List Level) (units : List Nat) : List (List (List (List Nat))) :=
  let each := units.map fun u => (upto 0 (unitThreads ls)).map (lixOf ls u)
  match groupLevels ls with
  | some _ => each.flatMap fun ts => (pieces (groupThreads ls) ts.length ts).map (warpsOf ls)
  | none =>
    if (ls.take (gangLevels ls)).any (·.domain == 4) then
      each.flatMap fun ts => (pieces 1024 ts.length ts).map (warpsOf ls)
    else
      -- thread and warp levels alone: warp instances keep warps of their own, threads fill warps
      [warpsOf ls each.flatten]

/-! ## Room on a core (R33, R78, R80, R137) -/

/-- The work-groups of a partition on a core. -/
def Work.onCore (w : Work) (c : Nat) : List WorkGroup := w.wgs.filter (·.core == c)
def Work.usedSlots (w : Work) (c : Nat) : List Nat := (w.onCore c).flatMap fun g => g.warps.map (·.slot)
def Work.usedGranules (w : Work) (c : Nat) : Nat :=
  (((w.onCore c).flatMap fun g => g.warps.map (·.alloc))).foldl (· + ·) 0
/-- The bytes of some regions, each once. -/
def regionBytes (rs : List Region) : Nat :=
  ((nub (rs.map (·.space))).map fun n => ((rs.find? (·.space == n)).map (·.size)).getD 0).foldl (· + ·) 0

/-- Scratchpad in use: each region once, and the frames of pinned pages of work-groups that are not resident, but for some that are to
return (R80, R81). -/
def Work.usedSpace (w : Work) (c : Nat) (back : List Nat) : Nat :=
  let rs := (w.onCore c).flatMap (·.space)
  let away := (w.images.filter fun m => m.wg.core == c && !back.contains m.wg.id).flatMap (·.wg.space)
  regionBytes rs + 4096 * (w.pins.filter fun x => (away.any (·.space == x / 256)) && !(rs.any (·.space == x / 256))).length

/-- What an item asks of one core: warps, granules, bytes, core numbers allowed within a cluster (empty: any), whether it brings
tiles (R64, R137), and the saved work-groups that it brings back. -/
structure Need where
  warps : Nat
  granules : Nat
  bytes : Nat
  cids : List Nat
  tiles : Bool
  back : List Nat
  deriving DecidableEq, Repr

/-- Whether a matrix sequencer runs on a core, or is kept there (R137). -/
def Work.matrixOn (w : Work) (c : Nat) : Bool :=
  (w.onCore c).any fun g => (w.seqsOf g.id).any (·.cls == 1)

/-- Whether a work-group that has left a core has not been saved yet: its tiles stand there still (R64, R381). -/
def Work.spilling (w : Work) (c : Nat) : Bool := w.images.any fun m => m.wg.core == c && !m.spilled

def Work.fits (w : Work) (n : Need) (c : Nat) : Bool :=
  decide (n.warps + (w.usedSlots c).length ≤ 32) && decide (n.granules + w.usedGranules c ≤ 256) &&
  decide (n.bytes + w.usedSpace c n.back ≤ 720896) && (n.cids.isEmpty || n.cids.contains (c % 32)) &&
  (!n.tiles || !(w.matrixOn c || w.spilling c))

/-- The cores of a partition in ascending order. -/
def coresOf (p : Nat) : List Nat := upto (64 * firstSlice p) (64 * sliceCount p)

/-- Distinct cores of one cluster for needs in order, each the lowest that fits. -/
def Work.assign (w : Work) : List Need → List Nat → Option (List Nat)
  | [], _ => some []
  | n :: r, free =>
    match free.find? (w.fits n) with
    | some c => (w.assign r (free.filter (· != c))).map (c :: ·)
    | none => none

/-- The cores of a partition, or those of the one slice in which an instance has to stand (R29). -/
def coresIn (p : Nat) (slice : Option Nat) : List Nat :=
  match slice with
  | some sl => (coresOf p).filter fun c => sliceOfCore c == sl
  | none => coresOf p

/-- Cores for an item: one need takes the lowest core; a cluster-bound item takes distinct cores of the lowest cluster. -/
def Work.coresFor (w : Work) (p : Nat) (slice : Option Nat) (cluster : Bool) (ns : List Need) : Option (List Nat) :=
  if cluster then
    ((upto (2 * firstSlice p) (2 * sliceCount p)).filter fun k => slice.all (· == k / 2)).findSome? fun k =>
      w.assign ns (upto (32 * k) 32)
  else w.assign ns (coresIn p slice)

/-! ## The slice of a slice-bound instance (R29) -/

/-- The instance of the outermost slice-bound level that encloses a thread. -/
def sliceInstance (ls : List Level) (lix : List Nat) : Option (List Nat) :=
  ((upto 0 ls.length).filter fun k => (ls.getD k (contLevel 1)).domain == 5).getLast?.map (instanceOf lix)

/-- The slice in which a thread of a launch has to stand, once its instance has one. -/
def Launch.sliceOf (l : Launch) (lix : List Nat) : Option Nat :=
  match sliceInstance l.rcd.levels lix with
  | some i => (l.slices.find? fun e => e.1 == i).map (·.2)
  | none => none

/-- A slice-bound instance stands in the slice where its first thread is placed. -/
def Launch.standIn (l : Launch) (lix : List Nat) (core : Nat) : Launch :=
  match sliceInstance l.rcd.levels lix with
  | some i => if l.slices.any fun e => e.1 == i then l else { l with slices := (i, sliceOfCore core) :: l.slices }
  | none => l

/-! ## Making warps and work-groups -/

/-- mr at launch: unspecified, with bits [1:0] not both zero (R17). (log 2, DESIGN CHOICE) -/
def freshMr (n : Nat) : VAddr := (Config.freeMr n).setWidth 56 <<< 2 ||| BitVec.ofNat 56 (1 + Config.freeMrLow n % 3)

/-- A lane that starts a thread. -/
def startLane (t : NewThread) : Lane := ⟨.running, t.cur, t.mr, .free, [], t.lix, t.relcnt, 0⟩

def TrapState.clear : TrapState := ⟨0, [], 0, 0, 0, false, false, false, Cursor.at 0, [], 0⟩

/-- A warp of threads in lanes 0 upwards. -/
def mkWarp (wid slot alloc : Nat) (fill : Fill) (ts : List NewThread) : Warp :=
  let w : Warp := ⟨wid, slot, alloc, [], fill, 128, [], List.replicate 12 0,
    ts.map startLane ++ List.replicate (32 - ts.length) Lane.empty, TrapState.clear, ⟨0, 0, false⟩, 0, 0, 0, [], false, [], []⟩
  ((upto 0 ts.length).zip ts).foldl (fun y e =>
    { y.setRegs e.1 ((upto 0 (min (8 * alloc) e.2.regs.length)).zip e.2.regs) with
      poison := (e.2.poison.filter (· < 8 * alloc)).map (fun r => regKey r e.1) ++ y.poison }) w

/-- Free warp slots of a core, lowest first. (log 20, DESIGN CHOICE) -/
def Work.freeSlots (w : Work) (c : Nat) : List Nat := (upto 0 32).filter fun k => !(w.usedSlots c).contains k

/-- The regions of a thread of a launch (R78): those of every enclosing level bound to work-group, core or corrected core, in order,
each at the next 4 KiB boundary. A region of an instance that stands already, on any of the given work-groups, keeps its space. -/
def regionsFor (ls : List Level) (lix : List Nat) (have_ : List Region) (next : Nat) : List Region × Nat :=
  (((upto 0 ls.length).filter fun k => coreDomain (ls.getD k (contLevel 1)).domain).foldl
    (fun (acc : List Region × Nat × Nat) k =>
      let size := ((ls.getD k (contLevel 1)).scratch + 4095) / 4096 * 4096
      let inst := instanceOf lix k
      match have_.find? fun r => r.level == k && r.inst == inst with
      | some r => (acc.1 ++ [{ r with base := acc.2.1 }], acc.2.1 + size, acc.2.2)
      | none => (acc.1 ++ [⟨acc.2.1, size, acc.2.2, k, inst⟩], acc.2.1 + size, acc.2.2 + 1))
    ([], 0, next)).1 |> fun rs => (rs, next + (rs.filter fun r => !(have_.any fun h => h.space == r.space)).length)

/-- A work-group with the regions that the instances of some threads need (R54). -/
def WorkGroup.addRegions (g : WorkGroup) (ls : List Level) (lixs : List (List Nat)) (others : List Region) (next : Nat) :
    WorkGroup × Nat :=
  lixs.foldl (fun acc x =>
    let r := regionsFor ls x (acc.1.space ++ others) acc.2
    ({ acc.1 with space := acc.1.space ++ r.1.filter fun y => !acc.1.space.contains y }, r.2)) (g, next)

/-- A new work-group on a core, its warps given by their threads, with the free slots of the core. -/
def mkGroup (id seq num priv prio core order : Nat) (cont : Bool) (alloc : Nat) (slots : List Nat) (fill : Fill)
    (warps : List (List NewThread)) : WorkGroup :=
  { id := id, seq := seq, num := num, priv := priv, prio := prio, core := core, order := order, cont := cont,
    warps := ((upto 0 warps.length).zip warps).map fun e => mkWarp e.1 (slots.getD e.1 0) alloc
      (match fill with
       | .zero => .zero
       | .free seed => .free (seed * 32 + e.1)) e.2,
    seats := ((upto 0 warps.length).zip warps).map fun e => ⟨e.1, e.2.map (·.lix), 16⟩,
    space := [], watch := noWatch, halt := .running, debug := false, kept := false, swap := 0,
    pre := 0 }

/-- A fresh thread of a launch (R17, R129). -/
def freshThread (rcd : LaunchRec) (seed : Nat) (lix : List Nat) : NewThread :=
  ⟨lix, if rcd.argv then [rcd.arg.lo, rcd.arg.hi] else [], [], Cursor.at (rcd.code.setWidth 56),
    freshMr (seed + rankOf [2 ^ 32, 2 ^ 32, 2 ^ 32, 2 ^ 32, 2 ^ 32, 2 ^ 32, 2 ^ 32] lix), 0⟩

/-- The scratchpad share of a core after a placement (R80): set on an empty core, grown in 64 KiB steps otherwise. -/
def shareAfter (old used : Nat) (empty : Bool) : Nat :=
  let want := (used + 65535) / 65536 * 65536
  if empty then want else max old want

/-- A core with the scratchpad share that its work-groups need (R80); no L1 line of what stood there before is left (log 84). -/
def State.settleShare (s : State) (p c : Nat) (empty : Bool) : State :=
  (s.modCore c fun k => { k with share := shareAfter k.share ((s.work p).usedSpace c []) empty }).cleanCore c

/-- A work-group put on a core of the partition, with its regions (R78) and the core's share (R80). -/
def State.putGroup (s : State) (p : Nat) (ls : List Level) (g : WorkGroup) : State :=
  let w := s.work p
  let others := ((w.peers g).flatMap (·.space)) ++ ((w.onCore g.core).filter (·.seq == g.seq)).flatMap (·.space)
  let r := g.addRegions ls (g.seats.map fun st => st.threads.headD []) others s.spad.next
  let empty := (w.onCore g.core).isEmpty
  let s1 := { s with spad := { s.spad with next := r.2 } }.modWork p fun x =>
    { x with wgs := x.wgs ++ [{ r.1 with swap := (s.coreOf g.core).swapEnd }] }
  (s1.modWork p fun x => x.modLaunch g.seq fun l => if g.cont then l else l.standIn g.someLix g.core).settleShare p g.core empty

/-- The first thread of a launch starts (R132, R143): STATE 2 is written, and its control program becomes due. -/
def State.startLaunch (s : State) (p seq : Nat) : State :=
  match (s.work p).launch seq with
  | none => s
  | some l =>
    if l.started then s
    else
      let s1 := s.modWork p fun w => w.modLaunch seq fun l => { l with started := true }
      let s2 := s1.writeStatus p seq l.rcd.status.toNat 2 0 l.clamp l.dqdrop
      if l.rcd.ctlprog = 0 then s2
      else s2.modWork p fun w =>
        let cl := 2 * firstSlice p + l.rcd.gcl
        let gu := findD w.guidons cl ⟨[], []⟩
        { w with guidons := put w.guidons cl { gu with waiting := sortNat (seq :: gu.waiting) } }

/-! ## What an item needs, and placing it (R136, R137) -/

/-- The core numbers that a corrected-core level allows (R29); empty: any. -/
def correctedCids (ls : List Level) : List Nat := if ls.any (·.domain == 8) then (upto 0 8).map (4 * ·) else []

/-- Work-groups, by a thread of each, that stand on one core (R29). -/
def coreRuns {α : Type} (ls : List Level) (lix : α → List Nat) (gs : List α) : List (List α) :=
  match sharedLevel ls with
  | some k => runsOf (fun g => instanceOf (lix g) k) gs
  | none => gs.map fun g => [g]

/-- The scratchpad that fresh work-groups of one core take together: the region of every instance that they hold, once (R78, R80). -/
def freshBytes (ls : List Level) (lixs : List (List Nat)) : Nat :=
  (((upto 0 ls.length).filter fun k => coreDomain (ls.getD k (contLevel 1)).domain).map fun k =>
    ((ls.getD k (contLevel 1)).scratch + 4095) / 4096 * 4096 * (nub (lixs.map fun x => instanceOf x k)).length).foldl (· + ·) 0

/-- What the fresh work-groups of one core need, given by their warps. -/
def coreNeed (ls : List Level) (gran : Nat) (gs : List (List (List (List Nat)))) : Need :=
  let warps := (gs.map (·.length)).foldl (· + ·) 0
  ⟨warps, gran * warps, freshBytes ls (gs.map fun g => (g.headD []).headD []), correctedCids ls, false, []⟩

/-- What saved work-groups of one core need: their warps, with the REGGROW requests they had (R36), their spaces, their tiles, and their
core number when their instance is cluster-bound (R428) or corrected (R29). -/
def imagesNeed (ms : List Image) (bound : Bool) (corrected : List Nat) : Need :=
  let gran (m : Image) : Nat := (m.wg.warps.map (·.alloc)).foldl (· + ·) 0 + (m.grow.map fun q => q.2.1 - match m.wg.warp q.1 with
    | some x => x.alloc
    | none => 0).foldl (· + ·) 0
  ⟨(ms.map (·.wg.warps.length)).foldl (· + ·) 0, (ms.map gran).foldl (· + ·) 0, regionBytes (ms.flatMap (·.wg.space)),
    if bound then nub (ms.map (·.cid)) else corrected, ms.any (·.tiles.isSome), ms.map (·.wg.id)⟩

/-- A group of work-groups to place together, as needs per core and the levels' placing: whether cores of one cluster are required. -/
def Launch.clusterBound (l : Launch) : Bool :=
  match l.rcd.levels[gangLevels l.rcd.levels - 1]? with
  | some x => x.domain == 4
  | none => false

/-- Work-groups of fresh threads created, those of each list on a core of its own. -/
def State.putFresh (s : State) (p : Nat) (l : Launch) (num prio alloc : Nat) (fill : Bool)
    (groups : List (List (List (List NewThread)))) (cores : List Nat) : State :=
  (groups.zip cores).foldl (fun st e => e.1.foldl (fun st warps =>
    let g := mkGroup st.ids l.seq num l.priv prio e.2 st.ids false alloc ((st.work p).freeSlots e.2)
      (if fill then .free st.ids else .zero) warps
    st.fresh.putGroup p l.rcd.levels g) st) s

/-- Work-groups per core: those of one instance of a core-bound level stand together. -/
def perCoreOf (ls : List Level) : Nat :=
  match sharedLevel ls, groupLevels ls with
  | some k, some n => max 1 (productOf (extentsOf (ls.take (k + 1))) / max 1 (productOf (extentsOf (ls.take n))))
  | _, _ => 1

/-- Whether units stand without a work-group, core or cluster level, so that one work-group gathers several (R427): also those of a launch
without any gang-placed level, whose units are its threads. (log 20, DESIGN CHOICE) -/
def gathers (ls : List Level) : Bool := (groupLevels ls).isNone && !(ls.take (gangLevels ls)).any (·.domain == 4)

/-- The most warps of an allocation that some core has room for. -/
def Work.roomWarps (w : Work) (p : Nat) (slice : Option Nat) (gran : Nat) : Nat :=
  ((coresIn p slice).map fun c => min (32 - (w.usedSlots c).length) ((256 - w.usedGranules c) / max 1 gran)).foldl max 0

/-- How many of `count` units the part places as one: one, or, gathered, as many as it likes of those that fit in 32 warps and in a core's
room (R427). (log 20, DESIGN CHOICE) -/
def State.gathered (s : State) (p : Nat) (ls : List Level) (slice : Option Nat) (gran count : Nat) : Nat :=
  if gathers ls then
    let warps := (s.work p).roomWarps p slice gran
    let most := if (ls.take (gangLevels ls)).any (·.domain == 1) then warps else 32 * warps
    1 + Config.freeNat s.tick % max 1 (min count most)
  else 1

/-- Units of one instance of the outermost slice-bound level; 0 when there is none. -/
def sliceUnits (ls : List Level) : Nat :=
  match ((upto 0 ls.length).filter fun k => (ls.getD k (contLevel 1)).domain == 5).getLast? with
  | some k => productOf (extentsOf ((ls.take (k + 1)).drop (gangLevels ls)))
  | none => 0

/-- The units of a run that can differ in whether they fit (R29, R136): its first, and the first of each slice-bound instance that stands in
a slice already, or that follows one; every other unit fits where one of these does. -/
def Launch.unitsToTry (l : Launch) (first count : Nat) : List Nat :=
  let ls := l.rcd.levels
  let m := sliceUnits ls
  if m = 0 then [first]
  else
    let standing := l.slices.map fun e => rankOf (extentsOf (ls.drop (ls.length - e.1.length))) e.1
    first :: sortNat (nub (((standing ++ standing.map (· + 1)).map (· * m)).filter fun u =>
      decide (first < u) && decide (u < first + count)))

/-- Fresh units placed: the first of the item that fits, with those gathered with it, which are of one slice-bound instance (R136, R427). Of
an item that has reserved its place only the first is tried (R137). -/
def State.placeUnits (s : State) (p : Nat) (l : Launch) (i : Item) (first count : Nat) : Option (State × List Item) :=
  let ls := l.rcd.levels
  let gran := (ls.getD 0 (contLevel 1)).regs
  (if i.reserved then [first] else l.unitsToTry first count).findSome? fun u =>
    let slice := l.sliceOf (lixOf ls u 0)
    let like := ((upto u (min (first + count - u) 1024)).takeWhile fun v =>
      sliceInstance ls (lixOf ls v 0) == sliceInstance ls (lixOf ls u 0)).length
    let n := s.gathered p ls slice gran like
    let gs := coreRuns ls (fun g => (g.headD []).headD []) (groupsOfUnits ls (upto u n))
    match (s.work p).coresFor p slice l.clusterBound (gs.map (coreNeed ls gran)) with
    | none => none
    | some cores =>
      let ws := gs.map fun e => e.map fun g => g.map fun w => w.map (freshThread l.rcd s.ids)
      let rest (a n : Nat) : List Item := if n = 0 then [] else [{ i with kind := .units a n }]
      some (s.putFresh p l i.num i.prio gran true ws cores, rest first (u - first) ++ rest (u + n) (first + count - (u + n)))

/-- A continuation leaves its priority's ring (R138). -/
def State.leaveRing (s : State) (p : Nat) (r : ContRec) : State :=
  if r.ring then s.modPart p fun x =>
    let e := findD x.crptr r.prio (0, 0)
    { x with crptr := put x.crptr r.prio (e.1 + 1, e.2) }
  else s

/-- A continuation placed (R138): one work-group, its registers zero but v0 to v3. -/
def State.placeCont (s : State) (p : Nat) (l : Launch) (i : Item) (r : ContRec) : Option State :=
  let need : Need := ⟨r.warps, r.granules * r.warps, r.scratch * 4096, [], false, []⟩
  match (s.work p).coresFor p none false [need] with
  | some [c] =>
    let id := s.ids
    let thread (t : Nat) : NewThread :=
      ⟨[t, contInstance id], [r.frame.lo, r.frame.hi, r.join.lo, r.join.hi], [], Cursor.at (r.code.setWidth 56), freshMr (id + t), 0⟩
    let warps := (upto 0 r.warps).map fun k => (upto (32 * k) 32).map thread
    let g := mkGroup id l.seq i.num l.priv i.prio c id true r.granules ((s.work p).freeSlots c) .zero warps
    let lv : List Level := [{ contLevel r.warps with scratch := 4096 * r.scratch }]
    some (s.fresh.putGroup p lv g)
  | _ => none

/-- Copy engines of a partition's assignment that no sequencer holds. -/
def State.freeEngines (s : State) (p : Nat) : List Nat :=
  (upto 0 96).filter fun i => (s.part p).copyMask.testBit i &&
    !((s.work p).seqs.any fun q => q.cls == 2 && q.engine == i) &&
    !((s.part p).channels.any fun c => c.2.state == 1 && c.2.entry == i + 1)

/-- Contexts of a slice's collective engine that no sequencer holds. -/
def State.freeContexts (s : State) (p slice : Nat) : List Nat :=
  (upto 0 32).filter fun i => !((s.work p).seqs.any fun q => q.cls == 3 && q.cluster / 2 == slice && q.engine == i)

/-- A saved sequencer runs again on a core: a copy sequencer takes a free engine, a collective one a free context (R142, R381); none while
there is none. -/
def State.putSeq (s : State) (p core : Nat) (q : Seq) : Option State :=
  let engine := match q.cls with
    | 2 => (s.freeEngines p)[Config.freeNat s.tick % max 1 (s.freeEngines p).length]?
    | 3 => (s.freeContexts p (sliceOfCore core)).head?
    | _ => some q.engine
  engine.map fun e => s.modWork p fun w => { w with seqs := w.seqs ++ [{ q with cluster := clusterOfCore core, engine := e }] }

/-- A REGGROW request joins the waiters before every younger one (R34, R36). -/
def Work.addGrow (w : Work) (x : Waiter) (age : Nat) : Work :=
  let younger (y : Waiter) : Bool := match y.kind with
    | .reggrow _ a => decide (age < a)
    | _ => false
  let n := (indexOf younger w.waiters).getD w.waiters.length
  { w with waiters := w.waiters.take n ++ x :: w.waiters.drop n }

/-- A saved work-group on a core again (R64, R380, R381): slots afresh, its tiles into the core's array, its sequencers running again,
its REGGROW requests made again before younger ones (R36), its results' windows as they stood. None while its sequencers find no engine
or context. -/
def State.putImage (s : State) (p : Nat) (m : Image) (c : Nat) : Option State :=
  let slots := (s.work p).freeSlots c
  let g := { m.wg with core := c, order := s.ids, swap := (s.coreOf c).swapEnd, warps := ((upto 0 m.wg.warps.length).zip m.wg.warps).map fun e =>
    { e.2 with slot := slots.getD e.1 0, readyAge := 0 } }
  let empty := ((s.work p).onCore c).isEmpty
  let s1 := s.fresh.modWork p fun w =>
    m.grow.foldl (fun v r => v.addGrow ⟨.reggrow r.2.1 r.2.2, g.id, r.1,
      (match g.warp r.1 with
       | some x => x.lanesWhere fun y => y.hold == .pend
       | none => [])⟩ r.2.2) { w with wgs := w.wgs ++ [g] }
  let s2 := s1.settleShare p c empty
  let s3 := match m.tiles with
    | some ts => s2.modCore c fun k => { k with owner := g.id, tiles := ts }
    | none => s2
  (m.seqs.foldlM (fun (st : State) q => st.putSeq p c q) s3).map fun st =>
    st.modWork p fun w => w.modLaunch g.seq fun l => if g.cont then l else l.standIn g.someLix c

/-- Saved work-groups placed together (R29, R428): those that left one core return to one core. (log 29, DEDUCED) -/
def State.placeSaved (s : State) (p : Nat) (l : Launch) (imgs : List Image) : Option State :=
  let fresh := imgs.all fun m => !m.wg.cont
  let bound := l.clusterBound && fresh
  let runs := (nub (imgs.map (·.wg.core))).map fun c => imgs.filter (·.wg.core == c)
  let slice := if fresh then (imgs.head?.map fun m => l.sliceOf m.wg.someLix).join else none
  match (s.work p).coresFor p slice bound (runs.map fun ms => imagesNeed ms bound (if fresh then correctedCids l.rcd.levels else [])) with
  | some cores => (runs.zip cores).foldlM (fun (st : State) e => e.1.foldlM (fun (st : State) m => st.putImage p m e.2) st) s
  | none => none

/-- The work-groups, each a list of warps, of output threads of some units (R52, R427). -/
def outputGroups (ls : List Level) (units : List (List NewThread)) : List (List (List NewThread)) :=
  let u := units.flatten
  let back (r : List (List Nat)) : List (List NewThread) := (warpsOf ls r).map fun w => w.filterMap fun x => u.find? (·.lix == x)
  match groupLevels ls with
  | some n => (runsOf (fun x => x.drop n) (u.map (·.lix))).map back
  | none => if gathers ls then [back (u.map (·.lix))] else (pieces 1024 u.length u).map fun r => back (r.map (·.lix))

/-- Output units of a relation placed: the first that fits, or, where thread and warp levels stand alone, several gathered (R52), of one
slice-bound instance and inside its slice (R29). Of an item that has reserved its place only the first is tried (R137). -/
def State.placeOutput (s : State) (p : Nat) (l : Launch) (i : Item) (k : Nat) (units : List (List NewThread)) (gran : Nat) :
    Option (State × List Item) :=
  let ls := l.rcd.levels
  let lixOf (u : List NewThread) : List Nat := (u.head?.map (·.lix)).getD []
  (upto 0 (if i.reserved then 1 else units.length)).findSome? fun m =>
    let lix := lixOf (units.getD m [])
    let slice := l.sliceOf lix
    let like := ((units.drop m).takeWhile fun u => sliceInstance ls (lixOf u) == sliceInstance ls lix).length
    let n := s.gathered p ls slice gran like
    let gs := coreRuns ls (fun g => ((g.headD []).head?.map (·.lix)).getD []) (outputGroups ls ((units.drop m).take n))
    match (s.work p).coresFor p slice l.clusterBound (gs.map fun e => coreNeed ls gran (e.map fun g => g.map fun w => w.map (·.lix))) with
    | none => none
    | some cores =>
      let rest (us : List (List NewThread)) : List Item := if us.isEmpty then [] else [{ i with kind := .rows k us gran }]
      some (s.putFresh p l i.num i.prio gran false gs cores, rest (units.take m) ++ rest (units.drop (m + n)))

/-- Numbers that no warp of a work-group has. -/
def WorkGroup.freeKeys (g : WorkGroup) : List Nat := (upto 0 256).filter fun k => !(g.warps.map (·.wid)).contains k

/-- Restored threads back in their work-group, 32 to a warp, every warp with the fan-out cause pending; the group enters its handler
before it issues (R397). -/
def WorkGroup.restore (g : WorkGroup) (slots : List Nat) (ts : List NewThread) (tval : DWord) (gran : Nat) : WorkGroup :=
  let ps := pieces 32 ts.length ts
  let ws := ((upto 0 ps.length).zip ps).map fun e =>
    let x := mkWarp (g.freeKeys.getD e.1 0) (slots.getD e.1 0) gran .zero e.2
    { x with trap := x.trap.raise causeFanOut tval }
  let g' := { g with warps := g.warps ++ ws }
  match ws with
  | x :: _ => g'.halted x.wid
  | [] => g'

/-- Work with a saved work-group changed. -/
def Work.modImage (w : Work) (id : Nat) (f : Image → Image) : Work :=
  { w with items := w.items.map fun i =>
      match i.kind with
      | .saved imgs => { i with kind := .saved (updAll (fun m => m.wg.id == id) f imgs) }
      | _ => i }

/-- Whether a resident work-group and its peers are all without a running thread and a sequencer. -/
def Work.idle (w : Work) (g : WorkGroup) : Bool :=
  (w.peers g).all fun h => h.running.isEmpty && (w.seqsOf h.id).isEmpty && w.wgs.any (·.id == h.id)

/-- A resident work-group without running threads, as it is requeued: its tiles go with it (R64). -/
def State.shellOf (s : State) (g : WorkGroup) : Image :=
  ⟨{ g with pre := 0 }, if (s.coreOf g.core).owner = g.id then some (s.coreOf g.core).tiles else none, [], [],
    g.core % 32, true⟩

/-- A unit without any other thread placed again with restored threads, on cores chosen afresh, as a requeued one is (R397). -/
def State.restoreUnit (s : State) (p : Nat) (l : Launch) (unit : List WorkGroup) (back : WorkGroup → WorkGroup) : Option State :=
  let away := unit.foldl (fun (st : State) h => st.modCore h.core fun k => if k.owner = h.id then { k with owner := 0 } else k)
    (s.modWork p fun v => { v with wgs := v.wgs.filter fun h => !(unit.any (·.id == h.id)) })
  away.placeSaved p l (unit.map fun h => s.shellOf (back h))

/-- Probes of a JOIN beyond its limits placed again (R397), by work-group: into the image of one that is saved; with its unit when that has
no other thread, all of the unit at once; else on the core where it stands, once there is room. (log 74, DEDUCED) -/
def State.placeRestored (s : State) (p : Nat) (l : Launch) (ts : List (Nat × List NewThread)) (tval : DWord) (gran : Nat) : Option State :=
  let w := s.work p
  let back (h : WorkGroup) : WorkGroup := match ts.find? fun e => e.1 == h.id with
    | some e => h.restore (upto 0 32) e.2 tval gran
    | none => h
  ts.foldlM (fun (st : State) e =>
    match w.wg e.1 with
    | none => some (st.modWork p fun v => v.modImage e.1 fun m => { m with wg := back m.wg })
    | some g =>
      if w.idle g then
        (if ((ts.map (·.1)).find? fun i => (w.peers g).any (·.id == i)) = some e.1 then st.restoreUnit p l (w.peers g) back else some st)
      else if (st.work p).fits ⟨(e.2.length + 31) / 32, (e.2.length + 31) / 32 * gran, 0, [], false, []⟩ g.core then
        some ((st.modWg p e.1 fun x => x.restore ((st.work p).freeSlots g.core) e.2 tval gran).cleanCore g.core)
      else none) s

/-- An item placed, and what is left of it; none when it fits nowhere now. -/
def State.placeOne (s : State) (p : Nat) (i : Item) : Option (State × List Item) :=
  match (s.work p).launch i.seq with
  | none => none
  | some l =>
    let r : Option (State × List Item) :=
      match i.kind with
      | .units first count => s.placeUnits p l i first count
      | .cont r => (s.placeCont p l i r).map fun t => (t.leaveRing p r, [])
      | .saved imgs => (s.placeSaved p l imgs).map fun t => (t, [])
      | .rows k us gran => s.placeOutput p l i k us gran
      | .restored _ ts tval gran => (s.placeRestored p l ts tval gran).map fun t => (t, [])
    r.map fun e => (e.1.startLaunch p i.seq, e.2)

/-- Whether an item holds a member of a pending relation point: it stands at the head of class 0; members whose work-group is halted, in a
debug halt or for any cause, change no priority (R41, R395). (log 37, DEDUCED) -/
def Work.urgent (w : Work) (i : Item) : Bool :=
  w.points.any fun pt => pt.seq == i.seq &&
    match i.kind with
    | .saved imgs => imgs.any fun m => m.wg.halt == .running && !m.wg.debug && m.wg.running.any fun x => instanceOf x.lix pt.k == pt.inst
    | _ =>
      match find w.launches i.seq with
      | some l => i.holds l.rcd.levels pt.k pt.inst
      | none => false

/-- The class in which an item stands: its class after aging, or 0 for an urgent one. -/
def Work.classOf (w : Work) (i : Item) : Nat := if w.urgent i then 0 else i.cls

/-- Its place among the classes: the urgent ones stand before the rest of class 0. -/
def Work.rankOfItem (w : Work) (i : Item) : Nat := if w.urgent i then 0 else i.cls + 1

/-- Whether an item could be placed at all: it is not held (R420); saved work-groups have been written, and one of them has something to
run, or is to take output rows (R41, R52). -/
def Work.ready (w : Work) (i : Item) : Bool :=
  !i.held && match i.kind with
    | .saved imgs => imgs.all (·.spilled) &&
        !(imgs.all fun m => m.empty && !(w.outputs.any fun o => o.seats.any fun x => x.1 == m.wg.id))
    | _ => true

/-- Pending items in the order in which the part tries them, with their places in the list (R136): by class, and in a class in the order
of entry; items that are not ready are not tried, nor items of the same or a lower class than the first that has reserved its place
(R137). (log 86, DESIGN CHOICE) -/
def Work.tryOrder (w : Work) : List (Nat × Item) :=
  let all := (upto 0 w.items.length).zip w.items
  let sorted := (sortBy (fun (a b : Nat × Item) => decide (w.rankOfItem a.2 ≤ w.rankOfItem b.2)) all).filter fun e => w.ready e.2
  match sorted.find? fun e => e.2.reserved with
  | some r => sorted.filter fun e => e.1 == r.1 || decide (w.classOf e.2 < w.classOf r.2)
  | none => sorted

end Sys2Proof.Machine
end

