-- ==== Sys2Proof/Machine/Control.lean ====
section
/-!
DEFINITION. Branches, calls and returns (R166 to R170), NOP, YIELD and PHASE (R173, R174, R376), SRD (R175), MEET and the mask
instructions (R176 to R179).
-/
namespace Sys2Proof.Machine

/-! ## Direct transfers (R166) -/

/-- The target of a branch whose word offset is a field of `n` bits. -/
def branchTarget (c : Ctx) (w : Warp) (n o : Nat) : VAddr := displaced (w.pcOf c) (4 * signed n o)

/-- BRA takes every lane to one target, so U has no visible effect. -/
def execBra (_u : Bool) (o : Nat) (s : State) : Out :=
  withGroup s fun c _ w => .next (transfer s c w (c.lanes.map fun l => (l, branchTarget c w 25 o)))

/-- BZ and BNZ: the lanes whose register passes the test are taken. -/
def branchIf (u : Bool) (a o : Nat) (test : Word → Bool) (s : State) : Out :=
  withGroup s fun c _ w =>
    let one := oneDecides w u
    withRegs s c w (c.readers one) [] [(a, 1)] fun _ =>
      let taken := c.lanes.filter fun l => test (w.reg a (c.readerOf one l))
      .next (transfer s c w (taken.map fun l => (l, branchTarget c w 18 o)))
def execBz (u : Bool) (a o : Nat) (s : State) : Out := branchIf u a o (fun x => !nonzero x) s
def execBnz (u : Bool) (a o : Nat) (s : State) : Out := branchIf u a o nonzero s

/-- The address of the word after the clause, for an instruction that ends it (R168, R169). -/
def returnAddress (c : Ctx) (w : Warp) : DWord := (w.pcOf c + BitVec.ofNat 56 (4 * c.size)).setWidth 64

/-- CALL must end its clause (R148); its literal is a multiple of 4 (R157). (log 35, DEDUCED) -/
def execCall (_u : Bool) (d i : Nat) (s : State) : Out :=
  withGroup s fun c _ w =>
    if w.remOf c ≠ 2 then trapWord s c causeIllegal
    else if i % 4 ≠ 0 then trapWord s c causeOperand
    else withRegs s c w [] [(d, 2)] [] fun _ =>
      let t := displaced (w.pcOf c) (signedLit i)
      .next (transfer (writeLanes s c (c.lanes.map fun l => (l, pairOf d (returnAddress c w)))) c w (c.lanes.map fun l => (l, t)))

/-! ## Indirect transfers (R169, R170) -/

/-- The first check that targets fail: beyond 56 bits, then not a multiple of 4. -/
def targetCheck (c : Ctx) (ts : List DWord) : Option (Nat × DWord) :=
  match ts.find? fun t => decide (2 ^ 56 ≤ t.toNat) with
  | some t => some (causeAddress, t)
  | none => if ts.any fun t => t.toNat % 4 != 0 then some (causeOperand, c.wordTval) else none

/-- A transfer to the pair `a` of each lane, with the link written into the pair `link`, if any. -/
def indirect (u : Bool) (link : List Nat) (a : Nat) (s : State) : Out :=
  withGroup s fun c _ w =>
    let one := oneDecides w u
    if !link.isEmpty && w.remOf c != 1 then trapWord s c causeIllegal
    else withRegs s c w (c.readers one) (link.map fun d => (d, 2)) [(a, 2)] fun _ =>
      match targetCheck c ((c.readers one).map (w.pair a)) with
      | some t => .next (raiseTrap s c [t])
      | none =>
        let s' := if link.isEmpty then s
          else writeLanes s c (c.lanes.map fun l => (l, link.flatMap fun d => pairOf d (returnAddress c w)))
        .next (transfer s' c w (c.lanes.map fun l => (l, (w.pair a (c.readerOf one l)).setWidth 56)))
def execCallr (u : Bool) (d a : Nat) (s : State) : Out := indirect u [d] a s
def execRet (u : Bool) (a : Nat) (s : State) : Out := indirect u [] a s
def execJmpr (u : Bool) (a : Nat) (s : State) : Out := indirect u [] a s

/-! ## NOP, YIELD, PHASE -/

def execNop (s : State) : Out := withGroup s fun c _ _ => .next (retire s c)

/-- YIELD ends the group's turn (R25). -/
def execYield (s : State) : Out :=
  withGroup s fun c _ _ => .next ((retire s c).modWarp c.p c.wg c.wid fun w => { w with turnEnd := true })

/-- Reads bytes of a table that the part walks for itself, on the simt path; none when a page does not translate, lacks R, lies outside
the windows, or holds poison (R67, R376). -/
def State.tableRead (s : State) (p die va n : Nat) : Option Nat :=
  match s.agentRead ⟨p, die, 2, false⟩ va n with
  | .ok v => some v
  | .error _ => none

/-- Entries of the phase-budget table from `n` on, until the offset is found: the budget. A table out of order counts as absent
(R376). `prev` is the offset before. -/
def State.budgetScan (s : State) (p die tab off : Nat) : Nat → Nat → Option Nat → Option Nat → Option Nat
  | 0, _, _, found => found
  | fuel + 1, n, prev, found =>
    match s.tableRead p die (tab + 16 + 8 * n) 4, s.tableRead p die (tab + 20 + 8 * n) 4 with
    | some o, some cyc =>
      if o % 4 ≠ 0 then none
      else if prev.any fun q => decide (o ≤ q) then none
      else s.budgetScan p die tab off fuel (n + 1) (some o) (if o = off then some cyc else found)
    | _, _ => none

/-- The budget of the launch's phase-budget table for an address; none when the timer is to be disarmed (R174, R376). -/
def State.phaseBudget (s : State) (p core : Nat) (l : Launch) (at_ : VAddr) : Option Nat :=
  let tab := l.rcd.phbudget.toNat
  let die := dieOfSlice (sliceOfCore core)
  if tab = 0 then none
  else
    match s.tableRead p die tab 4 with
    | some n =>
      if 2 ^ 20 < n then none
      else
        let off := (at_.setWidth 64 - l.rcd.code).toNat
        match s.budgetScan p die tab off n 0 none none with
        | some 0 => none
        | r => r
    | none => none

/-- A PHASE at an address (R174): the warp's count restarts and its budget is looked up. -/
def State.startPhase (s : State) (p wg wid : Nat) (at_ : VAddr) : State :=
  match (s.work p).wg wg with
  | some g =>
    let b := match (s.work p).launch g.seq with
      | some l => s.phaseBudget p g.core l at_
      | none => none
    s.modWarp p wg wid fun w => { w with phase := ⟨0, b.getD 0, b.isSome⟩ }
  | none => s

def execPhase (s : State) : Out :=
  withGroup s fun c _ w => .next (retire (s.startPhase c.p c.wg c.wid (w.pcOf c)) c)

/-! ## SRD (R61, R175) -/

/-- The special value of a selector in one lane. -/
def specialValue (g : WorkGroup) (w : Warp) (sel l : Nat) : Nat :=
  match sel with
  | 0 => 32 * (w.wid % 32) + l
  | 1 => l
  | 2 => w.wid % 32
  | 3 => g.core % 32
  | 4 => sliceOfCore g.core
  | 5 => (w.lane l).relcnt
  | k => if g.cont && k != 8 then 0 else (w.lane l).lix.getD (k - 8) 0

/-- The selectors that are not reserved. -/
def selectorOk (sel : Nat) : Bool := decide (sel ≤ 5) || (decide (8 ≤ sel) && decide (sel ≤ 15))

def execSrd (u : Bool) (d sel : Nat) (s : State) : Out :=
  withGroup s fun c g w =>
    if !selectorOk sel then trapWord s c causeIllegal
    else withRegs s c w [] [(d, 1)] [] fun _ =>
      .next (retire (writeLanes s c (c.lanes.map fun l =>
        (l, [(d, BitVec.ofNat 32 (specialValue g w sel (c.readerOf u l)))]))) c)

/-! ## MEET and masks (R176 to R179) -/

/-- The literal is a multiple of 4; mr of every lane takes the label's address. -/
def execMeet (s : State) : Out :=
  withGroup s fun c _ w =>
    if c.lit % 4 ≠ 0 then trapWord s c causeOperand
    else .next (retire (s.modWarp c.p c.wg c.wid fun w' =>
      w'.modLanes c.lanes fun x => { x with mr := displaced (w.pcOf c) (signedLit c.lit) }) c)

/-- A mask instruction that writes mask `m` at the end of the slot (R21), given its number is in range. -/
def maskOp (m : Nat) (f : Ctx → Warp → Word) (s : State) : Out :=
  withGroup s fun c _ w =>
    if 11 < m then trapWord s c causeOperand
    else .next (retire (s.modWarp c.p c.wg c.wid fun w' => w'.setMask m (f c w)) c)
def execJoinm (_u : Bool) (m : Nat) (s : State) : Out := maskOp m (fun c w => w.mask m ||| maskOf c.lanes) s
def execLeavem (_u : Bool) (m : Nat) (s : State) : Out := maskOp m (fun c w => w.mask m &&& ~~~(maskOf c.lanes)) s

/-- MSKWR is single-issue: vA of lane0, restricted to live lanes (R179). -/
def execMskwr (_u : Bool) (a m : Nat) (s : State) : Out :=
  withGroup s fun c _ w =>
    if 11 < m then trapWord s c causeOperand
    else withRegs s c w [c.l0] [] [(a, 1)] fun _ =>
      .next (retire (s.modWarp c.p c.wg c.wid fun w' => w'.setMask m (w.reg a c.l0 &&& maskOf w.live)) c)

/-- Every lane receives the mask as it stands at the start of the slot (R178). -/
def execMskrd (u : Bool) (d m : Nat) (s : State) : Out :=
  withGroup s fun c _ _ =>
    if 11 < m then trapWord s c causeOperand else laneOp u [(d, 1)] [] (fun _ w _ => [(d, w.mask m)]) s

/-- Whether a lane that executes WAITM m at the address where it stands is held (R22). It stands at the word, and at the header
before it when the word is its clause's first. -/
def Warp.heldBy (w : Warp) (l m : Nat) : Bool := maskHas (w.mask m) l && (w.lane l).cur.stands (w.lane l).mr

/-- WAITM (R22, R23): lanes that are held stay, the others go on; then every hold of the warp is tested. In handler mode it has no
effect and raises illegal-instruction (R372). -/
def execWaitm (_u : Bool) (m : Nat) (s : State) : Out :=
  withGroup s fun c _ w =>
    if w.trap.hm then trapWord s c causeIllegal
    else if 11 < m then trapWord s c causeOperand
    else
      let held := c.lanes.filter fun l => w.heldBy l m
      let s' := s.modWarp c.p c.wg c.wid fun w' => w'.modLanes held fun x => { x with hold := .waitm m x.mr }
      .next (retireTo s' c (c.lanes.filter fun l => !held.contains l))

end Sys2Proof.Machine
end

