-- ==== Sys2Proof/Machine/Preempt.lean ====
section
/-!
DEFINITION. Pre-emption (R36, R41, R68, R379 to R382, R428): leaving the core, the save image with the liveness table, the arrival of
members whose saved PC is the relation instruction, and the pre-emption register's commands (R420).
-/
namespace Sys2Proof.Machine

/-! ## Leaving the core (R379 to R381) -/

/-- What a lane's hold becomes in a save: WAITM holds and LBAR arrivals stand; a lane that waits or sleeps runs on resume, at its
instruction or after its SLEEP (R238, R243, R305, R380). -/
def Hold.saved : Hold → Hold
  | .waitm m x => .waitm m x
  | .lbar k => .lbar k
  | _ => .free

/-- Whether a work-group can leave its core now: no halt is in progress (R380), no spill is going on there (R379). -/
def State.canLeave (s : State) (g : WorkGroup) : Bool :=
  (match g.halt with
   | .stopping _ => false
   | _ => true) && !(s.coreOf g.core).spill

/-- The REGGROW requests of a work-group: warp, target, number, lanes. -/
def Work.growsOf (w : Work) (wg : Nat) : List (Nat × Nat × Nat × List Nat) :=
  w.waiters.filterMap fun x =>
    match x.kind with
    | .reggrow n age => if x.wg == wg then some (x.wid, n, age, x.lanes) else none
    | _ => none

/-- The image of a work-group that leaves: its waits withdrawn, its REGGROW requests remembered (R36). -/
def Work.imageOf (w : Work) (g : WorkGroup) : Image :=
  let grow := w.growsOf g.id
  { wg := { g with pre := 0, warps := g.warps.map fun x =>
      { x with readyAge := 0, turn := [], paid := x.retired, lanes := ((upto 0 x.lanes.length).zip x.lanes).map fun e =>
        if grow.any fun r => r.1 == x.wid && r.2.2.2.contains e.1 then e.2 else { e.2 with hold := e.2.hold.saved, age := 0 } } },
    tiles := none, seqs := [], grow := grow.map fun r => (r.1, r.2.1, r.2.2.1), cid := g.core % 32, spilled := false }

/-- Work-groups that are placed together leave their cores together (R428): the registers' swap and the spill begin, and they stand in
one item at their launch's priority (R36, R420). (log 80, DESIGN CHOICE) -/
def State.leave (s : State) (p : Nat) (gs : List WorkGroup) (hold : Bool) : State :=
  match gs with
  | [] => s
  | g :: _ =>
    let ids := gs.map (·.id)
    let s1 := s.modWork p fun w =>
      let prio := ((w.launch g.seq).map (·.rcd.prio)).getD g.prio
      { w.spend fun x _ => ids.contains x.id with
               wgs := w.wgs.filter fun x => !ids.contains x.id, waiters := w.waiters.filter fun x => !ids.contains x.wg,
               items := w.items ++ [⟨g.seq, g.num, prio, s.cycle, prio, hold, false, .saved (gs.map w.imageOf)⟩] }
    (gs.foldl (fun st x => st.modCore x.core fun c => { c with spill := true, swapEnd := s.cycle + 64 }) s1).freeDeques p

/-- A work-group and its peers pre-empted (R379, R428), or marked to be when a halt or a spill is going on. One that is to be held is held
whatever it waits for already (R420). -/
def State.preemptGroup (s : State) (p : Nat) (g : WorkGroup) (hold : Bool) : State :=
  let w := s.work p
  let gs := (w.peers g).filter fun h => w.wgs.any (·.id == h.id)
  if gs.all s.canLeave then s.leave p gs (hold || gs.any (·.pre == 2))
  else
    let mine := fun h : WorkGroup => (gs.map (·.id)).contains h.id
    s.modWork p fun w => { w with wgs := updAll mine (fun h => { h with pre := if hold then 2 else max h.pre 1 }) w.wgs }

/-- Every work-group of a list that still stands on its core pre-empted. -/
def State.preemptEach (s : State) (p : Nat) (ids : List Nat) (hold : Bool) : State :=
  ids.foldl (fun st id =>
    match (st.work p).wg id with
    | some g => st.preemptGroup p g hold
    | none => st) s

/-- Pre-emptions that waited for a halt or a spill take effect (R379, R380). -/
def State.preemptWaiting (s : State) (p : Nat) : State :=
  (s.work p).wgs.foldl (fun st g =>
    match (st.work p).wg g.id with
    | some h => if h.pre ≠ 0 ∧ ((st.work p).peers h).all (fun x => !((st.work p).wgs.any (·.id == x.id)) || st.canLeave x) then
        st.preemptGroup p h (h.pre == 2) else st
    | none => st) s

/-! ## Liveness tables (R67, R68) -/

/-- The entry that covers an offset: `some (some n)`, `some none` when none does, none when the table counts as absent. -/
def State.liveScan (s : State) (p die tab off : Nat) : Nat → Nat → Option Nat → Option Nat → Option (Option Nat)
  | 0, _, _, found => some found
  | fuel + 1, n, prev, found =>
    match s.tableRead p die (tab + 16 + 24 * n) 4 with
    | some o =>
      if o % 4 ≠ 0 then none
      else if prev.any fun q => decide (o ≤ q) then none
      else s.liveScan p die tab off fuel (n + 1) (some o) (if o ≤ off then some n else found)
    | none => none

/-- The registers that a save keeps for a lane whose next instruction word stands at an address: all (`some none`), or a bit per register;
none when the table counts as absent for the save (R67). Of the entries' LIVE words only the covering one is read. A table without entries
covers nothing, and everything is kept. (log 85, DEDUCED) -/
def State.liveAt (s : State) (p core : Nat) (l : Launch) (pc : VAddr) : Option (Option Nat) :=
  let tab := l.rcd.livetab.toNat
  let die := dieOfSlice (sliceOfCore core)
  match s.tableRead p die tab 4 with
  | some n =>
    if tab = 0 ∨ 2 ^ 20 < n then none
    else if pc.toNat < l.rcd.code.toNat then some none
    else
      match s.liveScan p die tab (pc.toNat - l.rcd.code.toNat) n 0 none none with
      | none => none
      | some none => some none
      | some (some k) => (s.tableRead p die (tab + 24 + 24 * k) 16).map some
  | none => none

/-- The address of the next instruction word that a lane will issue: one held in WAITM or LBAR goes on at the word after it (R23, R233). -/
def Lane.nextIssue (x : Lane) : VAddr :=
  match x.hold with
  | .waitm _ _ => (x.cur.past 1).next
  | .lbar _ => (x.cur.past 1).next
  | _ => x.cur.next

/-- Whether the liveness table serves the save of a work-group: every part of it that its lanes need can be read (R67). -/
def State.liveTable (s : State) (p : Nat) (l : Launch) (g : WorkGroup) : Bool :=
  g.warps.all fun w => w.live.all fun k => (s.liveAt p g.core l (w.lane k).nextIssue).isSome

/-- A warp as its save keeps it (R68): a register that the table does not mark live is a free value. -/
def State.keepLive (s : State) (p core : Nat) (l : Launch) (w : Warp) : Warp :=
  (w.live).foldl (fun y k =>
    match s.liveAt p core l (w.lane k).nextIssue with
    | none => y
    | some none => y
    | some (some live) =>
      (upto 0 (8 * w.alloc)).foldl (fun z r =>
        if live.testBit r then z else z.setReg r k (Config.freeReg (s.tick * 64 + w.wid) (regKey r k))) y) w

/-! ## Arrival from the image (R41, R399) -/

/-- A code word that the part reads for itself. -/
def State.codeWord (s : State) (p core : Nat) (va : VAddr) : Nat :=
  match s.xlate ⟨p, dieOfSlice (sliceOfCore core), 3, false⟩ .fetch va.toNat with
  | .ok pa _ => s.mem.read pa 4
  | .bad _ => 0

/-- A warp with every result of one lane written, as the relation instruction at which the lane stands would await them (R153). -/
def Warp.flush (w : Warp) (l : Nat) : Warp :=
  ((w.lane l).results.foldl (fun z r => z.setRegs l r.vals) w).modLanes [l] fun x => { x with results := [] }

/-- The relation instruction at which a saved lane stands, if it stands at one, and its words. -/
def State.relationAt (s : State) (p core : Nat) (w : Warp) (l : Nat) : Option (RelOp × Nat) :=
  let x := w.lane l
  if x.cur.hdr || x.hold != .free then none
  else
    match decode 0 [s.codeWord p core x.cur.pc, s.codeWord p core (x.cur.pc + 4)] with
    | .instr (.group _ sc k r) _ => some (⟨false, k, r, sc, 0⟩, 1)
    | .instr (.groupWide _ sc i) _ => if i < 2 ^ 11 then some (⟨false, i / 256, i % 256, sc, 0⟩, 2) else none
    | .instr (.join _ sc a k r) _ => some (⟨true, k, r, sc, (w.reg a l).toNat⟩, 1)
    | .instr (.joinWide _ sc a i) _ => if i < 2 ^ 11 then some (⟨true, i / 256, i % 256, sc, (w.reg a l).toNat⟩, 2) else none
    | _ => none

/-- A saved lane counts as arrived at the pending point of its instance when it stands at that point's instruction (R41); a poisoned
schema register keeps it from arriving (R399), and so does a handler's edit of its PC that is still to come. The arrival is a release
(R56). -/
def State.arriveSaved (s : State) (p : Nat) (l : Launch) (g : WorkGroup) (w : Warp) (k : Nat) : Option State :=
  match s.relationAt p g.core w k with
  | none => none
  | some (op, size) =>
    let inst := instanceOf (w.lane k).lix op.k
    match (s.work p).pointAt g.seq op.k inst, l.schemas[op.schema]? with
    | some _, some sch =>
      if w.trap.edits.any (·.1 == k) || sch.uses.any fun r => decide (8 * w.alloc ≤ r) || w.poison.contains (regKey r k) then none
      else
        match arrivalCheck (s.part p) (s.work p) sch g.seq inst op with
        | .ok v => some ((s.drainLane p g.id w.wid k).arrive p g.seq inst op v (w.rowAt g.id k size))
        | .error _ => none
    | _, _ => none

/-- The lanes of a saved warp that arrive, taken in order: the state with their rows, and the warp without them, its holds tested (R23). -/
def State.arriveWarp (s : State) (p : Nat) (l : Launch) (g : WorkGroup) (w : Warp) : State × Warp :=
  let r := w.live.foldl (fun acc k =>
    match acc.1.arriveSaved p l g (w.flush k) k with
    | some s' => (s', acc.2.retireLanes [k] .arrived)
    | none => acc) (s, w)
  (r.1, r.2.testWaits)

/-! ## The spill (R379, R380, R381) -/

/-- Whether a saved work-group's image can be completed: no result and no multicast store of it is outstanding, no command of its sequencers
is in flight (R380, R381). -/
def State.spillable (s : State) (p : Nat) (m : Image) : Bool :=
  (m.wg.warps.all fun x => x.lanes.all fun y => y.results.all (·.ready)) && ((s.work p).seqsOf m.wg.id).all (·.cmds.isEmpty) &&
    !((s.work p).stores.any fun x => x.wg == m.wg.id && x.parked != 0)

/-- Pages of a work-group off its core that the part writes to their backing: it may take any that is not pinned (R81). (log 3, DESIGN
CHOICE) -/
def State.backPages (s : State) (g : WorkGroup) (pins : List Nat) : State :=
  { s with spad := s.spad.backed fun x =>
      g.space.any (·.space == x / 256) && !pins.contains x && Config.freeNat (s.tick * 2 ^ 40 + x) % 2 == 1 }

/-- An image completed: its pages (R81), results whose window has ended (R380), registers by the liveness table (a work-group in a handler or with a pending cause keeps all, R380), arrivals
(R41; members in a debug halt are waited for), tiles and sequencers (R381). -/
def State.spillImage (s : State) (p : Nat) (m : Image) : State × Image :=
  let g := { m.wg with warps := m.wg.warps.map Warp.writeEnded }
  let w := s.work p
  let keepAll := g.halt != .running || g.warps.any fun x => x.trap.cause != 0
  let c := s.coreOf g.core
  let tiles := if c.owner = g.id then some c.tiles else none
  let s1 := ((s.backPages g w.pins).modCore g.core fun c => if c.owner = g.id then { c with owner := 0 } else c).modWork p fun w =>
    { w with seqs := w.seqs.filter fun q => !(q.wg == g.id && q.cls != 4) }
  match w.launch g.seq with
  | none => (s1, { m with wg := g, tiles := tiles, seqs := w.seqsOf g.id, spilled := true })
  | some l =>
    let warps := if keepAll || !s.liveTable p l g then g.warps else g.warps.map (s.keepLive p g.core l)
    let r := if g.debug then (s1, warps) else warps.foldl (fun acc x =>
      let e := acc.1.arriveWarp p l g x
      (e.1, acc.2 ++ [e.2])) (s1, [])
    (r.1, { m with wg := { g with warps := r.2 }, tiles := tiles, seqs := w.seqsOf g.id, spilled := true })

/-- The images of item `i` whose work-group left core `core`, completed. -/
def State.spillItem (s : State) (p core : Nat) (i : Item) : State × Item :=
  match i.kind with
  | .saved imgs =>
    let r := imgs.foldl (fun acc m =>
      if m.wg.core = core ∧ !m.spilled ∧ acc.1.spillable p m = true then
        let e := acc.1.spillImage p m
        (e.1, acc.2 ++ [e.2])
      else (acc.1, acc.2 ++ [m])) (s, [])
    (r.1, { i with kind := .saved r.2 })
  | _ => (s, i)

/-- THE SPILL OF A CORE completes as far as it can: images are written, members arrive, relation points complete; a pre-emption that
waited begins. -/
def State.spillCore (s : State) (p core : Nat) : State :=
  let r := (s.work p).items.foldl (fun (acc : State × List Item) i =>
    let e := acc.1.spillItem p core i
    (e.1, acc.2 ++ [e.2])) (s, [])
  let s1 := r.1.modWork p fun w => { w with items := r.2 }
  let left := (s1.work p).images.any fun m => m.wg.core == core && !m.spilled
  let s2 := if left then s1 else s1.modCore core fun c => { c with spill := false }
  ((s2.settle p).preemptWaiting p).preemptDone p

/-! ## The pre-emption register (R420) -/

/-- CMD 1 or 2 for a core of the partition: every work-group there is pre-empted; a core that is none of its own is refused. -/
def State.preemptCommand (s : State) (p core : Nat) (hold : Bool) : State :=
  if (s.part p).preempt.state = 1 then s
  else if !ownsCore p core then s.modPart p fun x => { x with preempt := ⟨core, 3⟩ }
  else
    let s1 := s.modPart p fun x => { x with preempt := ⟨core, 1⟩ }
    (s1.preemptEach p ((((s1.work p).onCore core).filter fun g => !g.kept).map (·.id)) hold).preemptDone p

/-- CMD 3: every held work-group is released. -/
def State.preemptReleaseAll (s : State) (p : Nat) : State :=
  s.modWork p fun w => { w with items := w.items.map fun i => { i with held := false } }

/-! ## Room for a barrier's unplaced member (R30), and the REGGROW deadlock (R36) -/

/-- Whether one work-group is younger than another: a higher launch sequence number, then placed later. -/
def younger (a b : WorkGroup) : Bool := decide (b.num < a.num) || (a.num == b.num && decide (b.order < a.order))

/-- The youngest of some work-groups. -/
def youngest (gs : List WorkGroup) : Option WorkGroup :=
  gs.foldl (fun m g => match m with
    | some x => if younger g x then some g else some x
    | none => some g) none

/-- Whether every resident warp of a core waits in REGGROW, and none of its work-groups is leaving already (R36). -/
def Work.growStuck (w : Work) (core : Nat) : Bool :=
  let gs := w.onCore core
  let waiting (g : WorkGroup) (x : Warp) : Bool := (w.growsOf g.id).any fun r => r.1 == x.wid
  (gs.any fun g => !g.warps.isEmpty) && gs.all fun g => g.pre == 0 && g.warps.all (waiting g)

/-- When every resident warp of a core waits in REGGROW, the youngest waiting work-group is pre-empted (R36). -/
def State.growDeadlock (s : State) (p core : Nat) : State :=
  let gs := (s.work p).onCore core
  if (s.work p).growStuck core then
    match youngest (gs.filter fun g => !g.warps.isEmpty) with
    | some g => s.preemptGroup p g false
    | none => s
  else s

end Sys2Proof.Machine
end

