-- ==== Sys2Proof/Machine/Launch.lean ====
section
/-!
DEFINITION. Launches: the checks of a launch record (R28 to R31, R42, R43, R129 to R131), acceptance and rejection (R132, R133),
completion (R134), and the ending of a launch from outside (R135, R317, R374); continuation records (R138); the end of a sequencer
(R142, R285).
-/
namespace Sys2Proof.Machine

/-! ## Fields of a record given as the number of its bytes -/

def recDword (v off : Nat) : Nat := v / 2 ^ (8 * off) % 2 ^ 64
def recWord (v off : Nat) : Nat := v / 2 ^ (8 * off) % 2 ^ 32

/-- The level record at an offset (R28). -/
def levelAt (v off : Nat) : Level :=
  let w := recWord v (off + 4)
  ⟨recWord v off, bitsOf w 23 16, bitsOf w 15 12, bitsOf w 3 0, recWord v (off + 8)⟩

/-- A launch record (R129). -/
def launchRec (v : Nat) : LaunchRec :=
  let d (off : Nat) : DWord := BitVec.ofNat 64 (recDword v off)
  let c := recWord v 96
  { code := d 0, handler := d 8, livetab := d 16, phbudget := d 24, matprog := d 32, copyprog := d 40, collprog := d 48, ctlprog := d 56,
    schemas := d 64, status := d 72, ctr := d 80, arg := d 88, even := bitsOf c 23 23 == 1, gcl := bitsOf c 22 18,
    argv := bitsOf c 17 17 == 1, nsch := bitsOf c 16 12, prio := bitsOf c 9 8, phmargin := bitsOf (recWord v 100) 31 24,
    eslot := bitsOf (recWord v 100) 15 0, levels := (upto 0 (bitsOf c 2 0 + 1)).map fun k => levelAt v (128 + 16 * k) }

/-! ## The fields at offsets 0 to 127 (R129, R130) -/

/-- The WHY of the first field that fails. -/
def fieldsWhy (x : Partition) (p v : Nat) : Option Nat :=
  let r := launchRec v
  let c := recWord v 96
  let bad (off align : Nat) : Bool := decide (2 ^ 56 ≤ recDword v off) || recDword v off % align != 0
  if bad 0 4 || bad 8 4 || bad 16 8 || bad 24 8 || bad 32 4 || bad 40 4 || bad 48 4 || bad 56 4 ||
      bad 64 (if r.nsch = 0 then 1 else 64) || bad 72 8 || bad 80 8 then some 3
  else if bitsOf c 31 24 ≠ 0 ∨ ((r.even = true ∨ r.ctlprog ≠ 0) ∧ 2 * sliceCount p ≤ r.gcl) ∨ 16 < r.nsch ∨ bitsOf c 11 10 ≠ 0 ∨
      bitsOf c 7 3 ≠ 0 ∨ bitsOf (recWord v 100) 23 16 ≠ 0 then some 4
  else if r.eslot ≠ 65535 ∧ x.encount ≤ r.eslot then some 5
  else if v / 2 ^ (8 * 104) % 2 ^ 192 ≠ 0 then some 4
  else none

/-! ## Level records (R28, R29, R131) -/

/-- The width of a domain: corrected core counts as core. -/
def domainWidth (d : Nat) : Nat := if d = 8 then 3 else d

/-- Whether a domain admits a number of threads per instance. -/
def threadsOk (k d n : Nat) : Bool :=
  match d with
  | 0 => k == 0 && n == 1
  | 1 => decide (n ≤ 32)
  | 4 => decide (n ≤ 32768)
  | 5 => true
  | 6 => true
  | 7 => true
  | _ => decide (n ≤ 1024)

/-- The rules of one level record (R28, R29). -/
def levelOk (x : Partition) (v : Nat) (ls : List Level) (k : Nat) : Bool :=
  let w := recWord v (128 + 16 * k + 4)
  let l := ls.getD k (contLevel 1)
  decide (1 ≤ l.extent) && bitsOf w 31 24 == 0 && (if k = 0 then decide (1 ≤ l.regs) && decide (l.regs ≤ 16) else l.regs == 0) &&
  decide (l.scope ≤ 8) && bitsOf w 11 4 == 0 && decide (l.domain ≤ 8) && recWord v (128 + 16 * k + 12) == 0 &&
  threadsOk k l.domain (productOf (extentsOf (ls.take (k + 1)))) &&
  decide (l.scratch ≤ if coreDomain l.domain then 720896 else 0) &&
  (k == 0 || decide (domainWidth (ls.getD (k - 1) l).domain ≤ domainWidth l.domain)) &&
  (l.domain != 7 || decide (0 < x.fedcount))

/-- Warps of one work-group of a launch (R427). (log 38, DEDUCED) -/
def groupWarps (ls : List Level) : Nat :=
  match groupLevels ls with
  | some _ => (warpsOf ls ((upto 0 (groupThreads ls)).map (lixOf ls 0))).length
  | none =>
    if (ls.take (gangLevels ls)).any (·.domain == 4) then
      (warpsOf ls ((upto 0 (min 1024 (unitThreads ls))).map (lixOf ls 0))).length
    else 1

/-- Work-groups of one unit. -/
def unitGroups (ls : List Level) : Nat := (unitThreads ls + groupThreads ls - 1) / groupThreads ls

/-- The scratchpad of the work-groups of one core: each level's region once per instance there. -/
def coreBytes (ls : List Level) : Nat :=
  let top := (sharedLevel ls).getD 0
  (((upto 0 ls.length).filter fun k => coreDomain (ls.getD k (contLevel 1)).domain).map fun k =>
    ((ls.getD k (contLevel 1)).scratch + 4095) / 4096 * 4096 *
      (productOf (extentsOf (ls.take (top + 1))) / max 1 (productOf (extentsOf (ls.take (min k top + 1)))))).foldl (· + ·) 0

/-- Whether a unit of placement fits an empty core or cluster (R131). A work-group holds at most 32 warps (R26). (log 38, DEDUCED) -/
def unitFits (ls : List Level) : Bool :=
  let bytes := if (sharedLevel ls).isSome then coreBytes ls
    else ((ls.filter fun x => coreDomain x.domain).map fun x => (x.scratch + 4095) / 4096 * 4096).foldl (· + ·) 0
  let warps := groupWarps ls
  let perCore := perCoreOf ls * warps
  decide (perCore * (ls.getD 0 (contLevel 1)).regs ≤ 256) && decide (perCore ≤ 32) && decide (bytes ≤ 720896) &&
  (!(ls.take (gangLevels ls)).any (·.domain == 4) ||
    decide (unitGroups ls ≤ if ls.any (·.domain == 8) then 8 else 32))

/-- The level records pass (WHY 1). -/
def levelsOk (x : Partition) (v : Nat) : Bool :=
  let ls := (launchRec v).levels
  (upto 0 ls.length).all (levelOk x v ls) && unitFits ls

/-! ## Schemas (R42, R43) -/

def columnOf (e : Nat) : Column := ⟨bitsOf e 15 12, bitsOf e 8 8 == 1, bitsOf e 6 0⟩

/-- Whether an operator admits a width. -/
def opOk (c : Column) : Bool :=
  decide (c.op ≤ 13) && (!c.wide || c.op == 0 || c.op == 9 || c.op == 10 || c.op == 11 || c.op == 13)

/-- A list without repeated elements. -/
def distinct : List Nat → Bool
  | [] => true
  | x :: r => !r.contains x && distinct r

/-- The schema of a descriptor given as the number of its 64 bytes; none when it is invalid. (log 39, DEDUCED) -/
def schemaOf (v : Nat) : Option Schema :=
  let es := (upto 0 16).map fun i => recWord v (4 * i)
  let used (e : Nat) : Bool := bitsOf e 31 31 == 1
  let key := columnOf (es.getD 0 0)
  let cols := es.tail.takeWhile used
  let x : Schema := ⟨key, cols.map columnOf⟩
  if used (es.getD 0 0) && !(es.drop (cols.length + 1)).any used &&
      (es.all fun e => bitsOf e 30 16 == 0 && bitsOf e 11 9 == 0 && bitsOf e 7 7 == 0) &&
      key.op == 0 && x.cols.all opOk && ((key :: x.cols).all fun c => !c.wide || c.reg % 2 == 0) && distinct x.uses
  then some x else none

/-- The schema table read by an agent; none when one cannot be read or is invalid (WHY 2). -/
def State.schemasOf (s : State) (g : Agent) (tab : Nat) : Nat → Nat → Option (List Schema)
  | _, 0 => some []
  | i, n + 1 =>
    match s.agentRead g (tab + 64 * i) 64 with
    | .ok v =>
      match schemaOf v, s.schemasOf g tab (i + 1) n with
      | some x, some r => some (x :: r)
      | _, _ => none
    | .error _ => none

/-- Every column of a schema has an operator (GROUP), or none has (JOIN, PARK). -/
def Schema.groups (x : Schema) : Bool := x.cols.all (·.op != 0)
def Schema.joins (x : Schema) : Bool := x.cols.all (·.op == 0)

/-! ## Acceptance and rejection (R130, R132, R133) -/

/-- The schemas of a record that passes, or its WHY. -/
def State.checkRecord (s : State) (g : Agent) (v : Nat) : Except Nat (List Schema) :=
  match fieldsWhy (s.part g.p) g.p v with
  | some why => .error why
  | none =>
    if !levelsOk (s.part g.p) v then .error 1
    else
      match s.schemasOf g (recDword v 64) 0 (launchRec v).nsch with
      | some l => .ok l
      | none => .error 2

/-- Whether a scope is clamped to the partition (R31). -/
def clamped (ls : List Level) : Bool := ls.any fun x => x.scope == 7 || x.domain == 7

/-- A LAUNCH is accepted or rejected (R133): it takes the next number, its status word is written, and an accepted launch's units
stand in its class (R136). -/
def State.accept (s : State) (g : Agent) (priv v : Nat) : State :=
  let p := g.p
  let seq := (s.part p).nextSeq
  let r := launchRec v
  let s1 := s.modPart p fun x => { x with nextSeq := seq + 1 }
  match s.checkRecord g v with
  | .error why => s1.writeStatus p seq r.status.toNat 4 why false false
  | .ok schemas =>
    let l : Launch := { seq := seq, rcd := r, priv := priv, schemas := schemas, clamp := clamped r.levels, dqdrop := false,
                        started := false, ctlDone := r.ctlprog == 0, energy := 0, ending := .live, pushing := false,
                        enbase := (s.part p).enbase, slices := [] }
    let s2 := s1.modWork p fun w =>
      { w with launches := put w.launches seq l,
               items := w.items ++ [⟨seq, seq, r.prio, s.cycle, r.prio, false, false, .units 0 (unitCount r.levels)⟩] }
    s2.writeStatus p seq r.status.toNat 1 0 l.clamp false

/-! ## Continuations (R138) -/

/-- A continuation record given as the number of its 32 bytes; none when it breaks R138. -/
def contRec (v : Nat) (ring : Bool) : Option ContRec :=
  let c := recWord v 24
  let r : ContRec := ⟨BitVec.ofNat 64 (recDword v 0), BitVec.ofNat 64 (recDword v 8), BitVec.ofNat 64 (recDword v 16),
    bitsOf c 31 16, bitsOf c 15 14, bitsOf c 11 8 + 1, bitsOf c 4 0 + 1, ring⟩
  if recDword v 0 % 4 = 0 ∧ recDword v 16 % 64 = 0 ∧ recWord v 28 = 0 ∧ r.scratch ≤ 176 ∧ bitsOf c 13 12 = 0 ∧
      bitsOf c 7 5 = 0 ∧ r.warps * r.granules ≤ 256 then some r else none

/-- Whether the ring of a priority is full. -/
def Partition.ringFull (x : Partition) (k : Nat) : Bool :=
  let e := findD x.crptr k (0, 0)
  decide (2 ^ x.crlog k ≤ e.2 - e.1)

/-- A continuation pushed under a launch (R133, R138): it takes the next number and stands in its class; one that takes a ring slot is
written to the ring's tail. -/
def State.pushCont (s : State) (p seq : Nat) (r : ContRec) (bytes : Nat) : State :=
  let x := s.part p
  let e := findD x.crptr r.prio (0, 0)
  let s1 := s.modPart p fun x => { x with nextSeq := x.nextSeq + 1,
                                          crptr := if r.ring then put x.crptr r.prio (e.1, e.2 + 1) else x.crptr }
  let s2 := if r.ring then
    { s1 with mem := s1.mem.write (x.crbase r.prio + 64 * (e.2 % 2 ^ x.crlog r.prio)) (bytesOf 32 bytes) } else s1
  s2.modWork p fun w => { w with items := w.items ++ [⟨seq, x.nextSeq, r.prio, s.cycle, r.prio, false, false, .cont r⟩] }

/-! ## Waiters -/

/-- Whether an instruction that waits issues only when its wait ends: FORK, RDV, REGGROW, CLKLOCK. Lanes held at a ring, a gate or a
queue have issued. -/
def WaitKind.pends : WaitKind → Bool
  | .fork _ _ => true
  | .rdv => true
  | .reggrow _ _ => true
  | .clklock _ => true
  | _ => false

/-- A warp whose group has issued an instruction for which it waited: the instruction counts (R309), the windows of its lanes shrink
(R153), the WAITM holds are tested (R23), the step flag acts (R310). -/
def Warp.waited (w : Warp) (ls : List Nat) : Warp :=
  (Warp.testWaits { w with retired := w.retired + 1, lanes := mapLanes ls Lane.issued 0 w.lanes }).stepFlag

/-- The lanes of a waiter go on past their instruction, with registers written. -/
def State.releaseWaiter (s : State) (p : Nat) (x : Waiter) (vals : List (Nat × Word)) : State :=
  (s.modWork p fun w => { w with waiters := w.waiters.filter fun y => y != x }).modWg p x.wg fun g =>
    let g' := g.modWarp x.wid fun v =>
      let v' := (v.setLanes (x.lanes.map fun l => (l, vals))).modLanes x.lanes fun y => { y with hold := .free, cur := y.cur.past 1 }
      if x.kind.pends then v'.waited x.lanes else v'
    if x.kind.pends && (g.warp x.wid).any Warp.steps then g'.halted x.wid else g'

/-- The lanes of a waiter stand at their instruction and its warp takes a cause (R237, R320). -/
def State.faultWaiter (s : State) (p : Nat) (x : Waiter) (bit : Nat) (tval : DWord) : State :=
  ((s.modWork p fun w => { w with waiters := w.waiters.filter fun y => y != x }).modWarp p x.wg x.wid fun v =>
    v.modLanes x.lanes fun y => { y with hold := .free }).raiseWarp p x.wg x.wid bit tval

/-! ## The end of a sequencer (R142, R172, R285) -/

/-- RDV waits that are met release (R142). -/
def State.releaseRdv (s : State) (p : Nat) : State :=
  ((s.work p).waiters.filter fun x => x.kind == .rdv && ((s.work p).seqsOf x.wg).isEmpty).foldl (fun st x => st.releaseWaiter p x []) s

/-- A sequencer retires: it leaves, its copy engine or context is free, RDV waits release, a work-group kept for it leaves. A Guidon's
program that retires is done. -/
def State.retireSeq (s : State) (p id : Nat) : State :=
  match (s.work p).seqOf id with
  | none => s
  | some q =>
    let s1 := s.modWork p fun w => { w with seqs := w.seqs.filter (·.id != id) }
    if q.cls = 4 then s1.modWork p fun w => w.modLaunch q.seq fun l => { l with ctlDone := true }
    else
      let s2 := s1.releaseRdv p
      (s2.modWork p Work.finishGroups).freeDeques p

/-- Sequencers that are discarded leave once their commands have ended (R135, R374). -/
def State.dropSeqs (s : State) (p : Nat) : State :=
  ((s.work p).seqs.filter fun q => q.discard && q.cmds.isEmpty).foldl (fun st q => st.retireSeq p q.id) s

/-! ## Ending a launch from outside (R135, R317, R374) -/

/-- Deque entries of a launch discarded (R141). -/
def State.dropDeques (s : State) (p seq : Nat) : State :=
  let mine (e : Nat × Core) : Bool := ownsCore p e.1 && e.2.deque.owner == seq
  let any_ := s.cores.any fun e => mine e && !e.2.deque.entries.isEmpty
  let s1 := { s with cores := s.cores.map fun e => if mine e then (e.1, { e.2 with deque := ⟨0, []⟩ }) else e }
  if any_ then s1.modWork p fun w => w.modLaunch seq fun l => { l with dqdrop := true } else s1

/-- Continuations of a launch that leave their rings unplaced. -/
def State.dropRings (s : State) (p seq : Nat) : State :=
  ((s.work p).items.filter (·.seq == seq)).foldl (fun st i =>
    match i.kind with
    | .cont r => st.leaveRing p r
    | _ => st) s

/-- The work-groups of a launch that ends: one whose sequencers have commands in flight stays, kept for them, until they have ended (R374). -/
def Work.endGroups (w : Work) (seq : Nat) : List WorkGroup :=
  (w.wgs.filter fun g => g.seq != seq || (w.seqsOf g.id).any fun q => !q.cmds.isEmpty).map fun g =>
    if g.seq = seq then { g with kept := true, warps := [], watch := noWatch, pre := 0, halt := .running, debug := false } else g

/-- A launch ends: its items, output rows, work-groups, relation points and deque entries are discarded; its sequencers and its control
program issue nothing further. -/
def State.endLaunch (s : State) (p seq : Nat) (why : Ending) : State :=
  let s0 := (s.dropRings p seq).dropDeques p seq
  let w := s0.work p
  let ids := (w.groupsOf seq).map (·.id)
  let s1 := (w.points.filter (·.seq == seq)).foldl (fun st pt =>
    if pt.join then st.modPart p fun y => y.unbind pt.table pt.version else st) s0
  let s2 := s1.modWork p fun w => Work.modLaunch
    { w.spend fun g _ => g.seq == seq with
             items := w.items.filter (·.seq != seq), wgs := w.endGroups seq, points := w.points.filter (·.seq != seq),
             outputs := w.outputs.filter (·.seq != seq), waiters := w.waiters.filter fun x => !ids.contains x.wg,
             stores := w.stores.map fun x => if ids.contains x.wg then x.orphan seq else x,
             seqs := w.seqs.map fun q => if q.seq == seq then { q with discard := true } else q,
             tqs := w.tqs.filter (·.seq != seq),
             guidons := w.guidons.map fun e => (e.1, { e.2 with waiting := e.2.waiting.filter (· != seq) }) } seq
    fun l => { l with ending := why, ctlDone := l.ctlDone || !(w.seqs.any fun q => q.cls == 4 && q.seq == seq) }
  ((s2.sealLost p).dropSeqs p).preemptDone p

/-- R374: the launch of a work-group that cannot take its trap is faulted, with its record. -/
def State.faultLaunch (s : State) (p seq code core data : Nat) : State :=
  match (s.work p).launch seq with
  | some l =>
    if l.ending = .aborted then s else (s.endLaunch p seq .faulted).bbWrite code p (dieOfSlice (sliceOfCore core)) 0 data
  | none => s

/-! ## Completion (R134) -/

/-- Nothing of a launch is left to run; of one that was ended from outside, every write has been performed (R317). -/
def Work.launchDone (w : Work) (l : Launch) : Bool :=
  (l.ending == .live || !(w.stores.any fun x => x.wg == 0 && x.wid == l.seq)) &&
  (w.groupsOf l.seq).isEmpty && !(w.items.any (·.seq == l.seq)) && !(w.points.any (·.seq == l.seq)) &&
  !(w.outputs.any (·.seq == l.seq)) && !(w.seqs.any (·.seq == l.seq)) && l.ctlDone

/-- A record pushed on the event queue of a Guidon (R143); none when it is full. -/
def Work.pushEvent (w : Work) (cluster : Nat) (r : EventRec) : Option Work :=
  let g := findD w.guidons cluster ⟨[], []⟩
  if g.events.length < 256 then some { w with guidons := put w.guidons cluster { g with events := g.events ++ [r] } } else none

/-- Energy added to a slot of an array at a physical address (R134, R354); fractions of a microjoule stay with the slot. -/
def State.addEnergy (s : State) (p seq base slot milli : Nat) : State :=
  if slot = 65535 then s
  else
    let key := 65536 * (p + 1) + slot
    let total := findD s.power.idle key 0 + milli
    let s1 := { s with power := { s.power with idle := put s.power.idle key (total % 1000) } }
    let pa := base + 8 * slot
    if (s.part p).inWindow pa 8 then
      { s1 with mem := s1.mem.write pa (bytesOf 8 ((s1.mem.read pa 8 + total / 1000) % 2 ^ 64)) }
    else s1.bbWrite 0x0704 p (homeDie p) 2 seq

/-- Energy drawn in the interval that ends now: of kind 0 by a core, 1 by an engine for a sequencer, 2 by a partition with no launch. -/
def State.drawn (s : State) (kind id : Nat) : Nat := Config.freeEnergy ((s.tick * 4 + kind) * 2 ^ 64 + id)

/-- An amount split in proportion to numbers that add up to `total`; `before` of them have had their share. Nothing is dropped. -/
def sharesOf (amount total : Nat) : Nat → List (Nat × Nat) → List (Nat × Nat)
  | _, [] => []
  | before, (l, n) :: r =>
    (l, amount * (before + n) / total - amount * before / total) :: sharesOf amount total (before + n) r

/-- Instructions that a work-group's warps have issued since the last boundary. -/
def WorkGroup.issuedNow (g : WorkGroup) : Nat := (g.warps.map fun v => v.retired - v.paid).foldl (· + ·) 0

/-- A core's energy by launch, in proportion to the instructions that its work-groups issued since the last boundary, those that have left
it among them (R354). -/
def State.coreShares (s : State) (w : Work) (core : Nat) : List (Nat × Nat) :=
  let gs := ((w.spent.filter (·.1 == core)).map (·.2)) ++ (w.wgs.filter (·.core == core)).map fun g => (g.seq, g.issuedNow)
  let total := (gs.map (·.2)).foldl (· + ·) 0
  if total = 0 then [] else sharesOf (s.drawn 0 core) total 0 gs

/-- What a launch has of some shares. -/
def shareIn (seq : Nat) (due : List (Nat × Nat)) : Nat := ((due.filter (·.1 == seq)).map (·.2)).foldl (· + ·) 0

/-- The energy of a launch that completes: its running total, and its share of the interval that has begun (R134, R354). (log 90,
DEDUCED) -/
def State.finalEnergy (s : State) (p : Nat) (l : Launch) : Nat :=
  let w := s.work p
  l.energy + shareIn l.seq ((nub ((w.spent.filter (·.2.1 == l.seq)).map (·.1))).flatMap (s.coreShares w))

/-- The status word's STATE at the end. -/
def Ending.code : Ending → Nat
  | .live => 3
  | .aborted => 5
  | .faulted => 6

/-- Steps 1 to 3 of R134, and the withdrawal register's end (R135). -/
def State.endSteps (s : State) (p : Nat) (l : Launch) : State :=
  let s0 := s.dropDeques p l.seq
  let l := ((s0.work p).launch l.seq).getD l
  let s1 := (s0.addEnergy p l.seq l.enbase l.rcd.eslot (s0.finalEnergy p l)).modWork p fun w =>
    { w with spent := w.spent.filter (·.2.1 != l.seq) }
  let s2 := s1.writeStatus p l.seq l.rcd.status.toNat l.ending.code 0 l.clamp l.dqdrop
  let s3 := if l.rcd.ctr = 0 then s2 else s2.launchWrite p l.seq l.rcd.ctr.toNat 8 true fun v => (v + 1) % 2 ^ 64
  if (s3.part p).withdraw.state = 1 ∧ (s3.part p).withdraw.arg = l.seq ∧ l.ending = .aborted ∧ (s3.part p).state = .running then
    (s3.modPart p fun x => { x with withdraw := { x.withdraw with state := 2 } }).bbWrite 0x0702 p 0 6 l.seq
  else s3

/-- Step 4 of R134: the record is pushed, or waits for a slot; then the launch is gone. A tear-down skips it (R317). -/
def State.pushLaunch (s : State) (p : Nat) (l : Launch) : State :=
  let gone (w : Work) : Work := { w with launches := drop w.launches l.seq }
  if !l.rcd.even || (s.part p).state == .tearing then s.modWork p gone
  else
    match (s.work p).pushEvent (2 * firstSlice p + l.rcd.gcl) ⟨0, 0, BitVec.ofNat 64 l.seq⟩ with
    | some w => s.modWork p fun _ => gone w
    | none => s.modWork p fun w => w.modLaunch l.seq fun l => { l with pushing := true }

/-- A launch completes when it can (R134). -/
def State.completeLaunch (s : State) (p seq : Nat) : State :=
  match (s.work p).launch seq with
  | none => s
  | some l =>
    if l.pushing then s.pushLaunch p l
    else if (s.work p).launchDone l then (s.endSteps p l).pushLaunch p l
    else s

/-! ## The launch withdrawal register (R135) -/

/-- CMD 1 of the withdrawal register. (log 77, DEDUCED) -/
def State.withdraw (s : State) (p : Nat) : State :=
  let r := (s.part p).withdraw
  if r.state = 1 then s
  else
    match (s.work p).launch r.arg with
    | some l =>
      if l.pushing then s.modPart p fun x => { x with withdraw := { x.withdraw with state := 3 } }
      else (s.modPart p fun x => { x with withdraw := { x.withdraw with state := 1 } }).endLaunch p r.arg .aborted
    | none => s.modPart p fun x => { x with withdraw := { x.withdraw with state := 3 } }

end Sys2Proof.Machine
end

