-- ==== Sys2Proof/Machine/Access.lean ====
section
/-!
DEFINITION. Accesses of SIMT lanes: their checks (R219, R220, R304, R385, R387), what the home of the data finds (R386, R392), the
scratchpad (R78, R79, R224), and results with a lookahead window (R153).
-/
namespace Sys2Proof.Machine

/-! ## Checks (R385) -/

/-- One access of one lane. `sync`: acquire, release, atomic or reduction. -/
structure Acc where
  lane : Nat
  va : Nat
  n : Nat
  kind : Kind
  sync : Bool
  deriving DecidableEq, Repr

/-- The group as an agent (R300). -/
def agentOf (c : Ctx) (g : WorkGroup) (w : Warp) : Agent := ⟨c.p, dieOfSlice (sliceOfCore g.core), privOf g w, false⟩

/-- Whether a watchpoint's kind takes an access. -/
def Watch.takes (x : Watch) (k : Kind) : Bool :=
  match x.kind with
  | 1 => k.reads
  | 2 => k.writes
  | 3 => true
  | _ => false

/-- TVAL of the first watchpoint that an access meets (R304). (log 79, DEDUCED) -/
def WorkGroup.watchHit (g : WorkGroup) (k : Kind) (va n : Nat) : Option DWord :=
  (((upto 0 g.watch.length).zip g.watch).find? fun e =>
    e.2.takes k && decide (va < e.2.addr + 2 ^ e.2.len) && decide (e.2.addr < va + n)).map fun e =>
      BitVec.ofNat 64 (e.1 * 2 ^ 56 + va % 2 ^ 56)

/-- The first check that an access fails (R368 step 7): watchpoints, then the checks of R385. -/
def State.accCheck (s : State) (c : Ctx) (g : WorkGroup) (w : Warp) (a : Acc) : Option (Nat × DWord) :=
  let t : DWord := BitVec.ofNat 64 a.va
  match if w.trap.hm then none else g.watchHit a.kind a.va a.n with
  | some tv => some (causeWatch, tv)
  | none =>
    if 2 ^ 56 ≤ a.va then some (causeAddress, t)
    else if a.va % a.n ≠ 0 then some (causeAlignment, t)
    else
      match (s.walkView c a.lane).xlate (agentOf c g w) a.kind a.va with
      | .bad k => some (k, t)
      | .ok pa leaf => if leafFmt leaf = 2 then (s.aliasCheck c.p leaf pa a.n a.sync).map fun k => (k, t) else none

/-- The TLB takes the translations of accesses. -/
def State.fillAll (s : State) (c : Ctx) (g : WorkGroup) (as : List Acc) : State :=
  as.foldl (fun st a =>
    if a.va < 2 ^ 56 then
      { (st.walkView c a.lane).fillTlb c.p (dieOfSlice (sliceOfCore g.core)) a.va with mem := st.mem }
    else st) s

/-- Runs a meaning once every access passes its checks; else the trap is taken, and nothing is performed (R385). -/
def withAccs (s : State) (c : Ctx) (g : WorkGroup) (w : Warp) (as : List Acc) (k : State → Out) : Out :=
  let faults := as.filterMap (s.accCheck c g w)
  let s' := s.fillAll c g as
  if faults.isEmpty then k s' else .next (raiseTrap s' c faults)

/-! ## At the home (R386) -/

/-- Where a checked access lands: the physical address and the leaf. -/
def State.landing (s : State) (c : Ctx) (g : WorkGroup) (w : Warp) (a : Acc) : Nat × Nat :=
  match (s.walkView c a.lane).xlate (agentOf c g w) a.kind a.va with
  | .ok pa leaf => (pa, leaf)
  | .bad _ => (0, 0)

/-- TVAL of a cause found at the home. -/
def homeTval (a : Acc) (cause : Nat) : DWord :=
  if cause = causeData then dataTval 0 a.lane a.va else BitVec.ofNat 64 a.va

/-- A lane's reductions into a span are performed: its own later accesses find them (R100, R103). -/
def State.drainReds (s : State) (c : Ctx) (lane pa n : Nat) : State :=
  s.drainWhere c.p fun x => x.wg == c.wg && x.wid == c.wid && x.lane == lane && x.red.isSome && !x.spad &&
    x.bytes.any fun b => decide (pa ≤ b.1) && decide (b.1 < pa + n)

/-- A lane's reductions are performed: what a later synchronisation of the lane comes after (R101). -/
def State.drainRadds (s : State) (c : Ctx) (lane : Nat) : State :=
  s.drainWhere c.p fun x => x.wg == c.wg && x.wid == c.wid && x.lane == lane && x.red.isSome

/-- Whether a plain load of a lane finds the old bytes of an overwritten unit: a free value for each load and unit. A page with CL = 0
goes through the core's L1, a gate-window page's CL acts as 1 (R73, R75). -/
def State.findsOld (s : State) (c : Ctx) (g : WorkGroup) (lane leaf : Nat) (x : Late) : Bool :=
  x.shows c.p g.core (c.wg, c.wid, lane) (leafCl leaf == 0 && !leafGw leaf) &&
    Config.keepsWord (2 * ((s.tick * 32 + lane) * 2 + x.unit % 2) + 1)

/-- A load of a lane: its bytes, or the cause found at the home. A read of an alias page comes after the lane's own stores have been
performed. A plain load may find what stood there before a write that it is not ordered after; one that synchronises finds what stands
there, after the lane's reductions, and is an acquire (R97, R100, R101, R225). -/
def State.loadAcc (s : State) (c : Ctx) (g : WorkGroup) (w : Warp) (a : Acc) : Except (Nat × DWord) (State × List Byte) :=
  let at_ := s.landing c g w a
  if leafFmt at_.2 = 2 then
    let s' := s.drainLane c.p c.wg c.wid a.lane
    match s'.mem.aliasRead (s'.aliasAt c.p at_.2 at_.1) a.n with
    | .ok bs => .ok (s', bs)
    | .error k => .error (k, homeTval a k)
  else if s.placeOf c.p at_.1 ≠ .mem then
    let s' := if a.sync then (s.drainRadds c a.lane).acquireOn c.p g.core else s
    .ok (s', s'.readAt c.p at_.1 a.n)
  else if s.mem.poisoned at_.1 a.n then .error (causeData, homeTval a causeData)
  else
    let s1 := if a.sync then s.drainRadds c a.lane else s.drainReds c a.lane at_.1 a.n
    let old (x : Late) : Bool := !a.sync && s.findsOld c g a.lane at_.2 x
    let s2 := s1.hasRead g.core false old at_.1 a.n
    .ok (if a.sync then s2.acquireOn c.p g.core else s2,
      seen ((s1.work c.p).ownStores c.wg c.wid a.lane false) at_.1 (s1.lateBytes false old at_.1 a.n))

/-- A store of a lane. One to an alias page, and a release, is performed at once, after the lane's earlier stores; one to a register is
made at once, and no release (R101). -/
def State.storeAcc (s : State) (c : Ctx) (g : WorkGroup) (w : Warp) (a : Acc) (bs : List Byte) : Except (Nat × DWord) State :=
  let at_ := s.landing c g w a
  if leafFmt at_.2 = 2 then
    let s' := s.drainLane c.p c.wg c.wid a.lane
    match s'.mem.aliasWrite (s'.aliasAt c.p at_.2 at_.1) bs with
    | .ok m => .ok { s'.aliasWrote c.p 0 [(c.wg, c.wid, a.lane)] (s'.aliasAt c.p at_.2 at_.1) a.n with mem := m }
    | .error k => .error (k, homeTval a k)
  else if a.sync || s.placeOf c.p at_.1 != .mem then
    .ok ((if a.sync then s.drainLane c.p c.wg c.wid a.lane else s).writeAt c.p [(c.wg, c.wid, a.lane)] (privOf g w) at_.1 bs)
  else .ok (s.addUnits c g w a.lane false (located at_.1 bs))

/-- An atomic of a lane (R102): the old word, and the state with the new one. It is a release and an acquire: every earlier store of
the lane has been performed. -/
def State.atomAcc (s : State) (c : Ctx) (g : WorkGroup) (w : Warp) (a : Acc) (f : Word → Option Word) :
    Except (Nat × DWord) (State × Word) :=
  let at_ := s.landing c g w a
  let s' := ((s.drainLane c.p c.wg c.wid a.lane).hasRead g.core false (fun _ => false) at_.1 4).acquireOn c.p g.core
  if s'.placeOf c.p at_.1 = .mem ∧ s'.mem.poisoned at_.1 4 = true then .error (causeData, homeTval a causeData)
  else
    let o : Word := BitVec.ofNat 32 (ofBytes (s'.readAt c.p at_.1 4))
    match f o with
    | some v => .ok (s'.writeAt c.p [(c.wg, c.wid, a.lane)] (privOf g w) at_.1 (bytesOf 4 v.toNat), o)
    | none => .ok (s', o)

/-- A reduction of a lane (R103), no release and no acquire: it waits to be performed as a store does. Into a register it is made at
once. (log 8, DESIGN CHOICE) -/
def State.raddAcc (s : State) (c : Ctx) (g : WorkGroup) (w : Warp) (a : Acc) (v : Word) (f : Nat) : Except (Nat × DWord) State :=
  let at_ := s.landing c g w a
  if s.placeOf c.p at_.1 ≠ .mem then
    let o : Word := BitVec.ofNat 32 (ofBytes (s.readAt c.p at_.1 4))
    .ok (s.writeAt c.p [(c.wg, c.wid, a.lane)] (privOf g w) at_.1 (bytesOf 4 (((raddOperator f).getD fadd) o v).toNat))
  else if s.mem.poisoned at_.1 4 then .error (causeData, homeTval a causeData)
  else .ok (s.addStore c ⟨s.ids, 0, c.wg, c.wid, a.lane, privOf g w, false, false, located at_.1 (bytesOf 4 0), some (f, v),
    w.trap.hm⟩)

/-! ## Lanes in ascending order (R221, R386) -/

/-- Accesses that return values, one after another, until the home finds a cause: the state so far, and the values or the cause.
(log 10, DESIGN CHOICE) -/
def loadAll (f : State → Acc → Except (Nat × DWord) (State × α)) :
    State → List Acc → State × Except (Nat × DWord) (List (Nat × α))
  | s, [] => (s, .ok [])
  | s, a :: r =>
    match f s a with
    | .error t => (s, .error t)
    | .ok (s', v) =>
      match loadAll f s' r with
      | (s'', .ok vs) => (s'', .ok ((a.lane, v) :: vs))
      | (s'', .error t) => (s'', .error t)

/-- Accesses that return nothing. -/
def storeAll (f : State → Acc → Except (Nat × DWord) State) : State → List Acc → State × Option (Nat × DWord)
  | s, [] => (s, none)
  | s, a :: r =>
    match f s a with
    | .error t => (s, some t)
    | .ok s' => storeAll f s' r

/-! ## Results with a window (R153) -/

/-- The group issues, and its lanes have outstanding results of one instruction. -/
def giveResults (s : State) (c : Ctx) (la : Nat) (vals : List (Nat × List (Nat × Word))) : State :=
  let t := s.ids
  (retire s c).fresh.modWarp c.p c.wg c.wid fun w => vals.foldl (fun y e =>
    y.modLanes [e.1] fun x => { x with results := x.results ++ [⟨t, la, true, e.2, [], w.trap.hm, s.cycle⟩] }) w

/-- The values of a load for every lane of the group, from the lanes that made accesses (R62). -/
def spread (c : Ctx) (u : Bool) (vs : List (Nat × α)) : List (Nat × α) :=
  if u then
    match vs with
    | (_, v) :: _ => c.lanes.map fun l => (l, v)
    | [] => []
  else vs

/-! ## The scratchpad (R78, R79) -/

/-- The region of a work-group that covers an offset for a thread. (log 75, DEDUCED) -/
def WorkGroup.regionFor (g : WorkGroup) (lix : List Nat) (off n : Nat) : Option Region :=
  g.space.find? fun r => r.inst == instanceOf lix r.level && decide (r.base ≤ off) && decide (off + n ≤ r.base + r.size)

/-- The key of a scratchpad access: none is the scratchpad-range fault. -/
def State.spadAt (s : State) (c : Ctx) (g : WorkGroup) (w : Warp) (l a n : Nat) : Option Nat :=
  let core := a / 1048576
  let off := a % 1048576
  let key (r : Region) : Nat := spadKey r.space (off - r.base)
  if core = g.core % 32 then (g.regionFor (w.lane l).lix off n).map key
  else
    match ((s.work c.p).clusterPeers g).find? fun h => h.core % 32 == core && (s.work c.p).wgs.any (·.id == h.id) with
    | some h => (h.space.find? fun r => decide (r.base ≤ off) && decide (off + n ≤ r.base + r.size)).map key
    | none => none

/-- The checks of R224: the fault of one lane's access. -/
def State.spadCheck (s : State) (c : Ctx) (g : WorkGroup) (w : Warp) (k : Kind) (l a n : Nat) : Option (Nat × DWord) :=
  let t : DWord := BitVec.ofNat 64 a
  match if w.trap.hm then none else g.watchHit k a n with
  | some tv => some (causeWatch, tv)
  | none =>
  if 2 ^ 25 ≤ a then some (causeSpad, t)
  else if a % n ≠ 0 then some (causeAlignment, t)
  else if (s.spadAt c g w l a n).isNone then some (causeSpad, t)
  else none

end Sys2Proof.Machine
end

