-- ==== Sys2Proof/Machine/Relations.lean ====
section
/-!
DEFINITION. EXIT (R171), GROUP, JOIN and PARK (R267 to R269, R395, R396, R398), RELOPEN, RELSEAL and RELCNT (R271), and the shape of
instructions whose lanes act one by one.
-/
namespace Sys2Proof.Machine

/-! ## Lanes that act one by one (R238, R243, R266, R396) -/

/-- What one lane's operation gives: a fault, or the state and the registers it writes. -/
abbrev LaneStep := State → Nat → Except (Nat × DWord) (State × List (Nat × Word))

/-- The operation of each lane in order, up to the first that faults. -/
def laneSteps (f : LaneStep) : State → List Nat → State × List (Nat × List (Nat × Word)) × Option (Nat × DWord)
  | s, [] => (s, [], none)
  | s, l :: r =>
    match f s l with
    | .error t => (s, [], some t)
    | .ok (s', v) =>
      let e := laneSteps f s' r
      (e.1, (l, v) :: e.2.1, e.2.2)

/-- Lanes that have acted go on past the instruction, while the rest of their group stands (R396). The handler's lanes have one PC. -/
def advance (s : State) (c : Ctx) (ls : List Nat) : State :=
  s.modWarp c.p c.wg c.wid fun w =>
    if w.trap.hm then w else (w.modLanes ls fun x => { x.issued with cur := x.cur.past c.size }).testWaits

/-- An instruction whose lanes act one by one: the lanes below a fault have completed, the others stand at it. With one operation for the
group (R62) its result goes to every lane. `fin` is what follows when no lane faults. (log 41, DEDUCED) -/
def laneByLane (s : State) (c : Ctx) (u : Bool) (fin : State → State) (f : LaneStep) : Out :=
  match laneSteps f s (c.readers u) with
  | (s1, vs, none) => .next (fin (retire (writeLanes s1 c (spread c u vs)) c))
  | (s1, vs, some t) => .next (raiseTrap (advance (writeLanes s1 c vs) c (vs.map (·.1))) c [t])

/-! ## Waiting for results (R153) -/

/-- Whether a lane of the group has an outstanding result. -/
def pendingResults (c : Ctx) (w : Warp) : Bool := c.lanes.any fun l => !(w.lane l).results.isEmpty

/-- The group waits until every outstanding result of its lanes has been written; their windows end. (log 31, DEDUCED) -/
def awaitOwn (s : State) (c : Ctx) : State :=
  (stall s c).modWarp c.p c.wg c.wid fun w => w.modLanes c.lanes fun x =>
    { x with results := x.results.map fun r => { r with window := 0 } }

/-! ## EXIT (R171, R172, R382) -/

def execExit (s : State) : Out :=
  withGroup s fun c _ w =>
    if w.trap.hm then trapWord s c causeIllegal
    else if pendingResults c w then .next (awaitOwn s c)
    else
      let s1 := s.modWarp c.p c.wg c.wid fun w => w.retireLanes c.lanes .exited
      .next ((retireTo s1 c []).settle c.p)

/-! ## GROUP and JOIN (R267, R268, R395) -/

/-- The schema of a relation instruction's operand, once its operand fields pass R267. -/
def schemaFor (x : Launch) (g : WorkGroup) (sc : Nat) (k : Option Nat) : Option Schema :=
  let ls := levelsOf x g
  let levelOk := match k with
    | some k => decide (k < ls.length) && (ls.getD k (contLevel 1)).domain != 7
    | none => true
  if sc ≤ 15 ∧ sc < x.rcd.nsch ∧ levelOk = true then x.schemas[sc]? else none

/-- The first register of a schema beyond the allocation. -/
def Schema.beyond (x : Schema) (w : Warp) : Option Nat := x.uses.find? fun r => decide (8 * w.alloc ≤ r)

/-- One lane arrives, or faults (R268 checks 1 to 5, R392); `a` is the register of the table id. The binding of a JOIN is an acquire (R56). -/
def arriveLane (c : Ctx) (g : WorkGroup) (w : Warp) (x : Schema) (a : Option Nat) (op : RelOp) (s : State) (l : Nat) :
    Except (Nat × DWord) State :=
  let inst := instanceOf (w.lane l).lix op.k
  let t := relTval 0 (if op.join then op.table else 0) op.schema op.k op.rid
  match ((a.toList ++ x.uses).map fun r => (r, 1)) |> w.poisonedReg l with
  | some r => .error (causeData, dataTval 2 l r)
  | none =>
    if op.join && decide (4095 < op.table) then .error (causeOperand, c.wordTval)
    else if (if op.join then !x.joins else !x.groups) then .error (causeSchema, t)
    else
      match arrivalCheck (s.part c.p) (s.work c.p) x g.seq inst op with
      | .error k => .error (k, t)
      | .ok v =>
        let s1 := (s.drainLane c.p c.wg c.wid l).arrive c.p g.seq inst op v (w.rowAt c.wg l c.size)
        .ok (if op.join then s1.acquireOn c.p g.core else s1)

/-- The lanes of a group in order: the state, the lanes that arrived, the faults of the others. -/
def arriveAll (f : State → Nat → Except (Nat × DWord) State) :
    State → List Nat → State × List Nat × List (Nat × DWord)
  | s, [] => (s, [], [])
  | s, l :: r =>
    match f s l with
    | .ok s' =>
      let e := arriveAll f s' r
      (e.1, l :: e.2.1, e.2.2)
    | .error t =>
      let e := arriveAll f s r
      (e.1, e.2.1, t :: e.2.2)

/-- GROUP or JOIN: every lane that passes arrives and retires, the others stand with their faults (R395). `bad`: the cause of a literal
that R267 does not allow, found like the other operands after the wait for results. -/
def relationOp (join : Bool) (bad : Option Nat) (sc : Nat) (a : Option Nat) (k rid : Nat) (s : State) : Out :=
  withGroup s fun c g w =>
    if w.trap.hm then trapWord s c causeIllegal
    else if pendingResults c w then .next (awaitOwn s c)
    else if bad.isSome then trapWord s c (bad.getD causeOperand)
    else
      match (s.work c.p).launch g.seq with
      | none => .fault .noIssuer
      | some x =>
        match schemaFor x g sc (some k) with
        | none => trapWord s c causeOperand
        | some sch =>
          withRegs s c w [] [] (a.toList.map fun r => (r, 1)) fun _ =>
            match sch.beyond w with
            | some r => trapRange s c r
            | none =>
              let op (l : Nat) : RelOp := ⟨join, k, rid, sc, match a with
                | some r => (w.reg r l).toNat
                | none => 0⟩
              releasing s c c.lanes fun _ =>
                let e := arriveAll (fun st l => arriveLane c g w sch a (op l) st l) s c.lanes
                let s1 := e.1.modWarp c.p c.wg c.wid fun w => w.retireLanes e.2.1 .arrived
                let s2 := if e.2.2.isEmpty then retireTo s1 c []
                  else (raiseTrap s1 c e.2.2).modWarp c.p c.wg c.wid Warp.testWaits
                .next (s2.settle c.p)

def execGroup (_u : Bool) (sc l r : Nat) (s : State) : Out := relationOp false none sc none l r s
def execJoin (_u : Bool) (sc a l r : Nat) (s : State) : Out := relationOp true none sc (some a) l r s
/-- The cause of a literal with bits [31:11] set (R267). -/
def wideBits (i : Nat) : Option Nat := if 2 ^ 11 ≤ i then some causeOperand else none
/-- The wide forms take level and relation id from the literal (R267). -/
def execGroupWide (_u : Bool) (sc i : Nat) (s : State) : Out := relationOp false (wideBits i) sc none (i / 256) (i % 256) s
def execJoinWide (_u : Bool) (sc a i : Nat) (s : State) : Out := relationOp true (wideBits i) sc (some a) (i / 256) (i % 256) s

/-! ## PARK (R269, R396) -/

/-- A row appended to the pending version of a table, or the fault. -/
def Partition.park (x : Partition) (sch : Schema) (table sc : Nat) (regs : List Word) : Except (Nat × DWord) Partition :=
  let t (extra : Nat) : DWord := relTval extra table sc 0 0
  match find x.tables table with
  | none => .error (causeTable, t 0)
  | some tb =>
    match tb.pend with
    | none => .error (causeTable, t 0)
    | some v =>
      if v.shape.any fun sh => sh != sch.shape then .error (causeSchema, t 0)
      else
        let need := rowBytes sch.shape
        if v.rows.length = 2 ^ 32 - 1 ∨ x.tpsize - x.pool < need then .error (causeOverflow, t v.rows.length)
        else
          let row : Row := ⟨sch.key.value regs, sch.cols.map fun c => c.value regs⟩
          .ok { x with pool := x.pool + need,
                       tables := put x.tables table { tb with pend := some { v with shape := some sch.shape, rows := v.rows ++ [row] } } }

/-- One lane parks its row. -/
def parkLane (c : Ctx) (w : Warp) (sch : Schema) (sc a : Nat) (s : State) (l : Nat) : Except (Nat × DWord) State :=
  let table := (w.reg a l).toNat
  match ((a :: sch.uses).map fun r => (r, 1)) |> w.poisonedReg l with
  | some r => .error (causeData, dataTval 2 l r)
  | none =>
    if 4095 < table then .error (causeOperand, c.wordTval)
    else if !sch.joins then .error (causeSchema, relTval 0 table sc 0 0)
    else
      match (s.part c.p).park sch table sc (w.rowOf l) with
      | .ok x => .ok ((s.drainLane c.p c.wg c.wid l).modPart c.p fun _ => x)
      | .error t => .error t

/-- Lanes in order up to the first that faults: those that parked, and the fault. -/
def parkAll (f : State → Nat → Except (Nat × DWord) State) : State → List Nat → State × List Nat × Option (Nat × DWord)
  | s, [] => (s, [], none)
  | s, l :: r =>
    match f s l with
    | .ok s' =>
      let e := parkAll f s' r
      (e.1, l :: e.2.1, e.2.2)
    | .error t => (s, [], some t)

/-- PARK: its lanes in order up to the first that faults; the wait and `bad` as in `relationOp`. -/
def parkOp (bad : Option Nat) (sc a : Nat) (s : State) : Out :=
  withGroup s fun c g w =>
    if w.trap.hm then trapWord s c causeIllegal
    else if pendingResults c w then .next (awaitOwn s c)
    else if bad.isSome then trapWord s c (bad.getD causeOperand)
    else
      match (s.work c.p).launch g.seq with
      | none => .fault .noIssuer
      | some x =>
        match schemaFor x g sc none with
        | none => trapWord s c causeOperand
        | some sch =>
          withRegs s c w [] [] [(a, 1)] fun _ =>
            match sch.beyond w with
            | some r => trapRange s c r
            | none =>
              releasing s c c.lanes fun _ =>
                let e := parkAll (parkLane c w sch sc a) s c.lanes
                let s1 := e.1.modWarp c.p c.wg c.wid fun w => w.retireLanes e.2.1 .parked
                let s2 := match e.2.2 with
                  | none => retireTo s1 c []
                  | some t => (raiseTrap s1 c [t]).modWarp c.p c.wg c.wid Warp.testWaits
                .next (s2.settle c.p)

def execPark (_u : Bool) (sc a : Nat) (s : State) : Out := parkOp none sc a s
/-- The literal of the wide form has no field (R267). (log 34, DEDUCED) -/
def execParkWide (_u : Bool) (sc a i : Nat) (s : State) : Out :=
  parkOp (if 2 ^ 11 ≤ i then some causeOperand else if i ≠ 0 then some causeIllegal else none) sc a s

/-! ## Tables (R47, R271, R426) -/

/-- An instruction that counts in the relation counter: it waits while the counter is full (R149), and is open until it completes. A
poisoned table id stops its lane alone (R396). -/
def relationCounted (u release : Bool) (writes : List RegUse) (a : Nat) (f : Ctx → WorkGroup → Warp → LaneStep) (s : State) : Out :=
  withGroup s fun c g w =>
    if 63 ≤ w.relCount then .next (stall s c)
    else withRegs s c w [] writes [(a, 1)] fun _ =>
      releasing s c (if release then c.readers u else []) fun _ =>
        laneByLane s.fresh c u (fun t => t.modWarp c.p c.wg c.wid fun w => { w with rel := w.rel ++ [s.ids] }) fun st l =>
          match w.poisonedReg l [(a, 1)] with
          | some r => .error (causeData, dataTval 2 l r)
          | none => f c g w st l

/-- A table id (R266), or the fault. -/
def tableId (c : Ctx) (w : Warp) (a l : Nat) : Except (Nat × DWord) Nat :=
  let v := (w.reg a l).toNat
  if 4095 < v then .error (causeOperand, c.wordTval) else .ok v

/-- The number that a table's next version takes. -/
def Table.nextNum (t : Table) : Nat :=
  match t.cur with
  | some v => v.num + 1
  | none => 1

def emptyVersion (num : Nat) : Version := ⟨num, none, [], 0⟩

/-- RELOPEN of a table: the partition and the number of its pending version, or the fault. -/
def Partition.relopen (x : Partition) (table : Nat) : Except (Nat × DWord) (Partition × Nat) :=
  let full : Nat × DWord := (causeOverflow, relTval 0 table 0 0 0)
  match find x.tables table with
  | some t =>
    match t.pend with
    | some v => .ok (x, v.num)
    | none =>
      if x.tpsize - x.pool < 256 then .error full
      else .ok ({ x with pool := x.pool + 256, tables := put x.tables table { t with pend := some (emptyVersion t.nextNum) } }, t.nextNum)
  | none =>
    if 4096 ≤ x.tables.length ∨ x.tpsize - x.pool < 512 then .error full
    else .ok ({ x with pool := x.pool + 512, tables := put x.tables table ⟨none, some (emptyVersion 1), []⟩ }, 1)

def execRelopen (u : Bool) (d a : Nat) (s : State) : Out :=
  relationCounted u false [(d, 1)] a (fun c _ w st l => do
    let t ← tableId c w a l
    let r ← (st.part c.p).relopen t
    return (st.modPart c.p fun _ => r.1, [(d, BitVec.ofNat 32 r.2)])) s

/-- RELSEAL is a release (R272). It is checked, and its version has its number, as it issues; the version becomes current when the
operation completes (R270, R271), or a later RELSEAL of the table issues. (log 92, DEDUCED) -/
def execRelseal (u : Bool) (d a : Nat) (s : State) : Out :=
  relationCounted u true [(d, 1)] a (fun c _ w st l => do
    let t ← tableId c w a l
    let s1 := st.sealWhere c.p (·.2 == t)
    let r ← (s1.part c.p).relseal t
    return ((s1.drainLane c.p c.wg c.wid l).modWork c.p fun v => { v with seals := v.seals ++ [(s.ids, t)] },
      [(d, BitVec.ofNat 32 r.2)])) s

/-- RELCNT is an acquire (R272). -/
def execRelcnt (u : Bool) (d a : Nat) (s : State) : Out :=
  relationCounted u false [(d, 2)] a (fun c g w st l => do
    let t ← tableId c w a l
    match find (st.part c.p).tables t with
    | none => .error (causeTable, relTval 0 t 0 0 0)
    | some tb =>
      match tb.cur with
      | some v => return (st.acquireOn c.p g.core, [(d, BitVec.ofNat 32 v.rows.length), (d + 1, BitVec.ofNat 32 v.num)])
      | none => return (st.acquireOn c.p g.core, [(d, 0), (d + 1, 0)])) s

end Sys2Proof.Machine
end

