-- ==== Sys2Proof/Machine/Workers.lean ====
section
/-!
DEFINITION. FORK and RDV (R15, R64, R142, R273), CPUSH and JCDEC (R138, R139, R274, R275), the deques (R140, R141, R276), REGGROW and
REGSHRINK (R34 to R36, R277, R278), the device-side LAUNCH (R279), and the steps in which what they began comes to its end.
-/
namespace Sys2Proof.Machine

/-! ## FORK and RDV -/

/-- The program pointer of a class (R129). -/
def LaunchRec.program (r : LaunchRec) (cls : Nat) : DWord :=
  match cls with
  | 1 => r.matprog
  | 2 => r.copyprog
  | 3 => r.collprog
  | _ => 0

/-- Whether tiles of another work-group still stand in a core's array, to be saved (R64, R381). -/
def State.tilesUnsaved (s : State) (p core wg : Nat) : Bool :=
  let o := (s.coreOf core).owner
  o != 0 && o != wg && (s.work p).images.any fun m => m.wg.id == o && !m.spilled

/-- The engine that a FORK would take now: none while it waits (R64, R142). -/
def State.forkEngine (s : State) (p : Nat) (g : WorkGroup) (cls : Nat) : Option Nat :=
  let w := s.work p
  if (w.seqsOf g.id).any (·.cls == cls) then none
  else
    match cls with
    | 1 => if w.matrixOn g.core || s.tilesUnsaved p g.core g.id then none else some 0
    | 2 => (s.freeEngines p)[Config.freeNat s.tick % max 1 (s.freeEngines p).length]?
    | _ => (s.freeContexts p (sliceOfCore g.core)).head?

/-- Ownership of a core's tiles passes to a work-group; the tiles of another are reset (R64). -/
def Core.own (k : Core) (wg : Nat) : Core :=
  if k.owner = wg then k else { k with owner := wg, tiles := List.replicate 8 Tile.zero }

/-- A sequencer starts for a work-group (R15, R65), after the bridges that its thread has passed to its path (R96). -/
def State.startSeq (s : State) (p : Nat) (g : WorkGroup) (cls priv : Nat) (sregs : List Word) (engine : Nat) : State :=
  match (s.work p).launch g.seq with
  | none => s
  | some x =>
    let base := (x.rcd.program cls).setWidth 56
    let q : Seq := { id := s.ids, cls := cls, wg := g.id, cluster := clusterOfCore g.core, seq := g.seq, priv := priv, base := base,
                     cur := Cursor.at base, regs := sregs ++ List.replicate 24 0, cmds := [], ending := false, stopped := false,
                     discard := false, ttop := none, engine := engine }
    let s1 := s.fresh.modWork p fun w => { w with seqs := w.seqs ++ [q] }
    (if cls = 1 then s1.modCore g.core fun k => k.own g.id else s1).startOn p cls

/-- The group waits at its instruction as one, and is not runnable meanwhile (R24, R34, R142, R308). -/
def pendAt (s : State) (c : Ctx) (k : WaitKind) : State :=
  ((stall s c).modWarp c.p c.wg c.wid fun v => v.modLanes c.lanes fun y => { y with hold := .pend }).modWork c.p
    fun v => { v with waiters := v.waiters ++ [⟨k, c.wg, c.wid, c.lanes⟩] }

/-- Whether a partition holds no copy engine: none is assigned to it, and no copy sequencer holds one that was taken from it (R142,
R315). (log 87, DEDUCED) -/
def State.noCopyEngine (s : State) (p : Nat) : Bool := (s.part p).copyMask == 0 && !(s.work p).seqs.any (·.cls == 2)

def execFork (_u : Bool) (a cls : Nat) (s : State) : Out :=
  withGroup s fun c g w =>
    if w.trap.hm then trapWord s c causeIllegal
    else if 63 ≤ (s.work c.p).engCountOf c.wg w then .next (stall s c)
    else
      match (s.work c.p).launch g.seq with
      | none => .fault .noIssuer
      | some x =>
        if cls = 0 ∨ 3 < cls ∨ 120 < a ∨ x.rcd.program cls = 0 ∨ (cls = 2 ∧ s.noCopyEngine c.p = true) then trapWord s c causeOperand
        else
          withRegs s c w [c.l0] [] ((upto a 8).map fun r => (r, 1)) fun _ =>
            let sregs := (upto a 8).map fun r => w.reg r c.l0
            match s.forkEngine c.p g cls with
            | some e => .next (retire (s.startSeq c.p g cls g.priv sregs e) c)
            | none => .next (pendAt s c (.fork cls sregs))

/-- A FORK that waited starts its sequencer (SEQUENCER_START); its group goes on. -/
def execSequencerStart (s : State) : Out :=
  let p := s.arg 0
  .next (match (s.work p).waiters[s.arg 1]? with
    | some x =>
      match x.kind, (s.work p).wg x.wg with
      | .fork cls sregs, some g =>
        match s.forkEngine p g cls with
        | some e => (s.startSeq p g cls g.priv sregs e).releaseWaiter p x []
        | none => s
      | _, _ => s
    | none => s)

def execRdv (s : State) : Out :=
  withGroup s fun c _ w =>
    if w.trap.hm then trapWord s c causeIllegal
    else if ((s.work c.p).seqsOf c.wg).isEmpty then .next (retire s c)
    else .next (pendAt s c .rdv)

/-! ## The engine counter of a warp (R149) -/

/-- Runs the meaning of a release that counts in the engine counter, once the counter has room and its registers pass. -/
def engineRelease (s : State) (c : Ctx) (u : Bool) (w : Warp) (writes reads : List RegUse) (k : Unit → Out) : Out :=
  if 63 ≤ (s.work c.p).engCountOf c.wg w then .next (stall s c)
  else withRegs s c w (c.readers u) writes reads fun _ => releasing s c (c.readers u) k

/-- An operation of the engine counter opens. -/
def State.openEngine (s : State) (c : Ctx) (t : Nat) : State := s.modWarp c.p c.wg c.wid fun w => { w with eng := w.eng ++ [t] }

/-- A release that counts in the engine counter, lane by lane. -/
def engineCounted (s : State) (c : Ctx) (u : Bool) (w : Warp) (writes reads : List RegUse) (f : LaneStep) : Out :=
  engineRelease s c u w writes reads fun _ => laneByLane s.fresh c u (fun t => t.openEngine c s.ids) f

/-- Tickets of gate signals that stand queued at a frozen gate. -/
def State.queuedTickets (s : State) : List Nat := s.gates.flatMap fun e => e.2.queued.map (·.2)

/-- The oldest open operation of an engine counter completes. -/
def execEngineCounterOperationComplete (s : State) : Out :=
  .next (s.modWarp (s.arg 0) (s.arg 1) (s.arg 2) fun w =>
    match w.eng.find? fun t => !s.queuedTickets.contains t with
    | some t => { w with eng := w.eng.filter (· != t) }
    | none => w)

/-- The oldest open operation of a relation counter completes; a RELSEAL makes its version current (R271). -/
def execRelationOperationComplete (s : State) : Out :=
  .next (match (s.warp (s.arg 0) (s.arg 1) (s.arg 2)).bind fun w => w.rel.head? with
    | some t => (s.sealWhere (s.arg 0) fun e => e.1 == t).modWarp (s.arg 0) (s.arg 1) (s.arg 2) fun w => { w with rel := w.rel.tail }
    | none => s)

/-! ## Records in memory -/

/-- The accesses by which a lane reads a record: its 8-byte words, of which none crosses an alias line (R87). -/
def recordAccs (l va n : Nat) : List Acc := (pieces8 n va n).map fun e => ⟨l, e.1, e.2, .read, false⟩

/-- The first check that a lane's read of a record fails (R274, R279, R385): of the record as a whole, then of its words. -/
def State.recordCheck (s : State) (c : Ctx) (g : WorkGroup) (w : Warp) (l va n : Nat) : Option (Nat × DWord) :=
  let t : DWord := BitVec.ofNat 64 va
  match if w.trap.hm then none else g.watchHit .read va n with
  | some tv => some (causeWatch, tv)
  | none =>
    if 2 ^ 56 ≤ va then some (causeAddress, t)
    else if va % n ≠ 0 then some (causeAlignment, t)
    else (((recordAccs l va n).filterMap (s.accCheck c g w)).head?).map fun e => (e.1, t)

/-- A read of a record by one lane: checks, then its bytes as a number. -/
def State.laneRead (s : State) (c : Ctx) (g : WorkGroup) (w : Warp) (l va n : Nat) : Except (Nat × DWord) (State × Nat) :=
  match s.recordCheck c g w l va n with
  | some t => .error t
  | none =>
    let as := recordAccs l va n
    match loadAll (fun st x => st.loadAcc c g w x) (s.fillAll c g as) as with
    | (s1, .ok vs) => .ok (s1, ofBytes (vs.flatMap (·.2)))
    | (_, .error t) => .error t

/-- CPUSH (R274) is a release. -/
def execCpush (u : Bool) (a : Nat) (s : State) : Out :=
  withGroup s fun c g w =>
    engineCounted s c u w [] [(a, 2)] fun st l => do
      let r ← st.laneRead c g w l (w.pair a l).toNat 32
      match contRec r.2 true with
      | none => .error (causeOperand, c.wordTval)
      | some rc =>
        if (r.1.part c.p).ringFull rc.prio then .error (causeContFull, BitVec.ofNat 64 rc.prio)
        else return ((r.1.drainLane c.p c.wg c.wid l).pushCont c.p g.seq rc r.2, [])

/-- JCDEC (R139, R275), an atomic on simt, acquire and release: the count falls by one; at zero the parent is pushed through the block,
with no ring slot. Poison in the count, or in the record of a parent that it would push, is a data error (R392). -/
def State.jcdec (s : State) (c : Ctx) (g : WorkGroup) (w : Warp) (l va : Nat) : Except (Nat × DWord) State :=
  let a : Acc := ⟨l, va, 64, .atomic, true⟩
  match s.accCheck c g w a with
  | some t => .error t
  | none =>
    let s1 := (s.fillAll c g [a]).drainLane c.p c.wg c.wid l
    let pa := (s1.landing c g w a).1
    if s1.mem.poisoned pa 8 then .error (causeData, homeTval a causeData)
    else
      let n : Int := (BitVec.ofNat 64 (ofBytes (s1.readAt c.p pa 8)) : DWord).toInt
      if n ≤ 0 then .error (causeJoin, BitVec.ofNat 64 va)
      else if n = 1 ∧ s1.mem.poisoned (pa + 32) 32 = true then .error (causeData, homeTval a causeData)
      else
        let s2 := ((s1.hasRead g.core false (fun _ => false) pa 8).acquireOn c.p g.core).writeAt c.p [(c.wg, c.wid, l)] (privOf g w) pa
          (bytesOf 8 (n - 1).toNat)
        if n ≠ 1 then .ok s2
        else
          let v := ofBytes (s2.readAt c.p (pa + 32) 32)
          match contRec v false with
          | some r => .ok (s2.pushCont c.p g.seq r v)
          | none => .ok s2

/-- Whether a JCDEC that passes finds a parent record that breaks R138. -/
def State.badParent (s : State) (c : Ctx) (g : WorkGroup) (w : Warp) (l va : Nat) : Bool :=
  let pa := (s.landing c g w ⟨l, va, 64, .atomic, true⟩).1
  (ofBytes (s.readAt c.p pa 8) == 1) && (contRec (ofBytes (s.readAt c.p (pa + 32) 32)) false).isNone

/-- The lanes of a JCDEC in order. One that finds a bad parent has decremented, and faults (R275). -/
def jcdecAll (c : Ctx) (g : WorkGroup) (w : Warp) (a : Nat) : State → List Nat → State × List Nat × Option (Nat × DWord)
  | s, [] => (s, [], none)
  | s, l :: r =>
    let va := (w.pair a l).toNat
    match s.jcdec c g w l va with
    | .error t => (s, [], some t)
    | .ok s' =>
      if (s.drainLane c.p c.wg c.wid l).badParent c g w l va then (s', [], some (causeOperand, c.wordTval))
      else
        let e := jcdecAll c g w a s' r
        (e.1, l :: e.2.1, e.2.2)

def execJcdec (u : Bool) (a : Nat) (s : State) : Out :=
  withGroup s fun c g w =>
    engineRelease s c u w [] [(a, 2)] fun _ =>
      match jcdecAll c g w a s.fresh (c.readers u) with
      | (s1, _, none) => .next ((retire s1 c).openEngine c s.ids)
      | (s1, done, some t) => .next (raiseTrap (advance s1 c done) c [t])

/-! ## Deques (R140, R141, R276) -/

def emptyMark : DWord := 0xFFFFFFFFFFFFFFFF#64

/-- DQPUSH: the deque with an entry at its bottom; none on failure. -/
def Deque.push (d : Deque) (seq : Nat) (e : DWord) : Option Deque :=
  if (d.owner = 0 ∨ d.owner = seq) ∧ d.entries.length < 8192 then some ⟨seq, d.entries ++ [e]⟩ else none

/-- DQPOP: the bottom entry. -/
def Deque.pop (d : Deque) (seq : Nat) : Option (Deque × DWord) :=
  if d.owner = seq then d.entries.getLast?.map fun e => ({ d with entries := d.entries.dropLast }, e) else none

/-- DQSTEAL: the top entry. -/
def Deque.steal (d : Deque) (seq : Nat) : Option (Deque × DWord) :=
  if d.owner = seq then d.entries.head?.map fun e => ({ d with entries := d.entries.tail }, e) else none

/-- DQPUSH is a release; a push of the empty mark is no entry. -/
def execDqpush (u : Bool) (d a : Nat) (s : State) : Out :=
  withGroup s fun c g w =>
    engineCounted s c u w [(d, 1)] [(a, 2)] fun st l =>
      let e := w.pair a l
      if e = emptyMark then .error (causeOperand, c.wordTval)
      else
        match (st.coreOf g.core).deque.push g.seq e with
        | some q => .ok ((st.drainLane c.p c.wg c.wid l).modCore g.core fun k => { k with deque := q }, [(d, 1)])
        | none => .ok (st, [(d, 0)])

/-- A DQPOP or DQSTEAL that succeeds is an acquire (R141). -/
def execDqpop (u : Bool) (d : Nat) (s : State) : Out :=
  withGroup s fun c g w =>
    withRegs s c w [] [(d, 2)] [] fun _ =>
      laneByLane s c u id fun st _ =>
        match (st.coreOf g.core).deque.pop g.seq with
        | some q => .ok ((st.modCore g.core fun k => { k with deque := q.1 }).acquireOn c.p g.core, pairOf d q.2)
        | none => .ok (st, pairOf d emptyMark)

def execDqsteal (u : Bool) (d a : Nat) (s : State) : Out :=
  withGroup s fun c g w =>
    withRegs s c w (c.readers u) [(d, 2)] [(a, 1)] fun _ =>
      laneByLane s c u id fun st l =>
        let k := (w.reg a l).toNat
        match if ownsCore c.p k then (st.coreOf k).deque.steal g.seq else none with
        | some q => .ok (((st.modCore k fun x => { x with deque := q.1 }).freeDeques c.p).acquireOn c.p g.core, pairOf d q.2)
        | none => .ok (st, pairOf d emptyMark)

/-! ## Register allocation (R34, R35, R277, R278) -/

/-- Granules of a work-group and of its waiting requests (R35). -/
def Work.groupGranules (w : Work) (g : WorkGroup) : Nat :=
  (g.warps.map (·.alloc)).foldl (· + ·) 0 +
  ((w.growsOf g.id).map fun r => r.2.1 - match g.warp r.1 with
    | some x => x.alloc
    | none => 0).foldl (· + ·) 0

/-- A warp with a larger allocation: the added registers read zero (R34). -/
def Warp.grow (w : Warp) (n : Nat) : Warp := { w with alloc := n, zeroed := min w.zeroed (8 * w.alloc) }

/-- A warp without its registers from 8n up (R278); should they come back, they read zero. -/
def Warp.shrink (w : Warp) (n : Nat) : Warp :=
  { w with alloc := n, regs := w.regs.filter (fun e => decide (e.1 < 256 * n)), poison := w.poison.filter (fun k => decide (k < 256 * n)),
           zeroed := min w.zeroed (8 * n) }

/-- The REGGROW requests that wait on a core, oldest first: waiter and target. -/
def Work.growQueue (w : Work) (core : Nat) : List (Waiter × Nat) :=
  w.waiters.filterMap fun x =>
    match x.kind, w.wg x.wg with
    | .reggrow n _, some g => if g.core = core then some (x, n) else none
    | _, _ => none

/-- Whether a core has room for a warp's larger allocation. -/
def Work.growFits (w : Work) (core wg wid n : Nat) : Bool :=
  match w.wg wg >>= fun g => g.warp wid with
  | some x => decide (w.usedGranules core + (n - x.alloc) ≤ 256)
  | none => true

/-- The requests of a core granted, oldest first, until one does not fit (R34). -/
def State.grantGrows (s : State) (p core : Nat) : Nat → State
  | 0 => s
  | fuel + 1 =>
    match (s.work p).growQueue core with
    | (x, n) :: _ =>
      if (s.work p).growFits core x.wg x.wid n then
        ((s.modWarp p x.wg x.wid fun w => w.grow n).releaseWaiter p x []).grantGrows p core fuel
      else s
    | [] => s

def execReggrow (_u : Bool) (n : Nat) (s : State) : Out :=
  withGroup s fun c g w =>
    if w.trap.hm then trapWord s c causeIllegal
    else if n = 0 then trapWord s c causeOperand
    else if n ≤ w.alloc then .next (retire s c)
    else
      let held := (s.work c.p).groupGranules g
      if 16 < n ∨ 256 < held + (n - w.alloc) then
        .next (raiseTrap s c [(causeAllocation, BitVec.ofNat 64 (n % 256 + held % 512 * 65536))])
      else if ((s.work c.p).growQueue g.core).isEmpty ∧ (s.work c.p).growFits g.core c.wg c.wid n = true then
        .next (retire (s.modWarp c.p c.wg c.wid fun v => v.grow n) c)
      else .next (((pendAt s c (.reggrow n s.ids)).fresh).growDeadlock c.p g.core)

/-- Free granules of a core serve its queue (REGGROW_GRANT); when every resident warp still waits, one work-group makes room (R36). -/
def execReggrowGrant (s : State) : Out :=
  .next ((s.grantGrows (s.arg 0) (s.arg 1) ((s.work (s.arg 0)).growQueue (s.arg 1)).length).growDeadlock (s.arg 0) (s.arg 1))

/-- Whether any lane of a warp has an outstanding result into a register from `r` up. -/
def Warp.awaitsAbove (w : Warp) (r : Nat) : Bool := w.lanes.any fun x => x.results.any fun y => y.vals.any fun v => decide (r ≤ v.1)

/-- The group waits until the results into registers from `r` up of every lane of the warp have been written: the windows of its own lanes
end, which issue nothing before. (log 31, DEDUCED) -/
def awaitAbove (s : State) (c : Ctx) (r : Nat) : State :=
  (stall s c).modWarp c.p c.wg c.wid fun w => w.modLanes c.lanes fun x =>
    { x with results := x.results.map fun y => if y.vals.any fun v => decide (r ≤ v.1) then { y with window := 0 } else y }

def execRegshrink (_u : Bool) (n : Nat) (s : State) : Out :=
  withGroup s fun c g w =>
    if w.trap.hm then trapWord s c causeIllegal
    else if n = 0 ∨ 16 < n then trapWord s c causeOperand
    else if w.alloc ≤ n then .next (retire s c)
    else if w.awaitsAbove (8 * n) then .next (awaitAbove s c (8 * n))
    else
      let s1 := retire (s.modWarp c.p c.wg c.wid fun v => v.shrink n) c
      .next (s1.grantGrows c.p g.core ((s1.work c.p).growQueue g.core).length)

/-! ## Device-side LAUNCH (R279) -/

/-- The lanes' records accepted or rejected in order: the state, and every lane's sequence number. -/
def launchAll (c : Ctx) (g : WorkGroup) (w : Warp) (d : Nat) : State → List (Nat × Nat) → State × List (Nat × List (Nat × Word))
  | s, [] => (s, [])
  | s, (l, v) :: r =>
    let seq := (s.part c.p).nextSeq
    let e := launchAll c g w d ((s.drainLane c.p c.wg c.wid l).accept (agentOf c g w) g.priv v) r
    (e.1, (l, pairOf d (BitVec.ofNat 64 seq)) :: e.2)

/-- LAUNCH is a release; it runs at the issuing thread's level outside handler mode (R300). Every lane's record is read before any is
accepted, so that a fault of one lane leaves no number taken and no register written (R58, R222). (log 41, DEDUCED) -/
def execLaunch (u : Bool) (d a : Nat) (s : State) : Out :=
  withGroup s fun c g w =>
    engineRelease s c u w [(d, 2)] [(a, 2)] fun _ =>
      let as := (c.readers u).map fun l => (⟨l, (w.pair a l).toNat, 256, .read, false⟩ : Acc)
      let faults := as.filterMap fun x => s.recordCheck c g w x.lane x.va x.n
      if !faults.isEmpty then .next (raiseTrap s c faults)
      else
        match loadAll (fun st x => st.laneRead c g w x.lane x.va x.n) s.fresh as with
        | (_, .error t) => .next (raiseTrap s c [t])
        | (s1, .ok vs) =>
          let e := launchAll c g w d s1 vs
          .next ((retire (writeLanes e.1 c (spread c u e.2)) c).openEngine c s.ids)

end Sys2Proof.Machine
end

