-- ==== Sys2Proof/Machine/Sync.lean ====
section
/-!
DEFINITION. Fences and bridges (R231, R232), the level barrier (R233), pinning (R235), rings (R236 to R239), the arrived-tile queue
(R240), and gates (R243, R244, R318 to R320, R414).
-/
namespace Sys2Proof.Machine

/-! ## FENCE, XFENCE -/

/-- FENCE: every earlier store of each lane is performed before it completes, and later reads of the lane do not find older values
(R101, R231). -/
def execFence (s : State) : Out :=
  withGroup s fun c g _ => releasing s c c.lanes fun _ => .next (retire ((s.drainLanes c c.lanes).acquireOn c.p g.core) c)

/-- XFENCE waits until the accesses of the path it leaves have been performed, and carries them to the path it enters (R96, R232). Paths:
0 simt, 3 collective. (log 44, DEDUCED) -/
def execXfence (_u : Bool) (a b : Nat) (s : State) : Out :=
  withGroup s fun c g _ =>
    if 5 < a ∨ 5 < b then trapWord s c causeOperand
    else if a = b then .next (retire s c)
    else
      releasing s c (if a = 3 then c.lanes else []) fun _ =>
        let s1 := if a = 0 then s.drainLanes c c.lanes else s
        .next (retire (s1.bridgeOn c.p g.core a b) c)

/-! ## LBAR (R233) -/

/-- LBAR k: the lanes arrive at their rounds, which is a release, and are held; rounds that are met release. -/
def execLbar (_u : Bool) (k : Nat) (s : State) : Out :=
  withGroup s fun c g w =>
    if w.trap.hm then trapWord s c causeIllegal
    else
      match (s.work c.p).launch g.seq with
      | none => .fault .noIssuer
      | some x =>
        let ls := levelsOf x g
        if ls.length ≤ k ∨ (ls.getD k (contLevel 1)).domain = 7 then trapWord s c causeOperand
        else
          releasing s c c.lanes fun _ =>
            let s1 := (s.drainLanes c c.lanes).modWarp c.p c.wg c.wid fun v =>
              v.modLanes c.lanes fun y => { y with hold := .lbar k }
            .next ((retireTo s1 c []).settle c.p)

/-! ## Pinning (R235) -/

/-- The size of a work-group's own space. -/
def WorkGroup.ownSpace (g : WorkGroup) : Nat := (g.space.map fun r => r.base + r.size).foldl max 0

/-- A page of a thread's own space, named by its space number and its place there, so that a pin ends with the space (R54). -/
def WorkGroup.pageKey (g : WorkGroup) (lix : List Nat) (page : Nat) : Option Nat :=
  (g.regionFor lix (4096 * page) 4096).map fun r => r.space * 256 + (4096 * page - r.base) / 4096

/-- SPPIN and SPUNPIN, single-issue: the pages of the own space that a range touches. A page that several work-groups share is pinned and
unpinned for all of them (R78). -/
def pinOp (a b : Nat) (f : List Nat → List Nat → List Nat) (s : State) : Out :=
  withGroup s fun c g w =>
    withRegs s c w [c.l0] [] [(a, 1), (b, 1)] fun _ =>
      let x := (w.reg a c.l0).toNat
      let n := (w.reg b c.l0).toNat
      if n = 0 then .next (retire s c)
      else if 2 ^ 25 ≤ x ∨ x / 1048576 ≠ g.core % 32 ∨ g.ownSpace < x % 1048576 + n then
        .next (raiseTrap s c [(causeSpad, BitVec.ofNat 64 x)])
      else
        let lo := x % 1048576 / 4096
        let pages := (upto lo ((x % 1048576 + n - 1) / 4096 + 1 - lo)).filterMap (g.pageKey (w.lane c.l0).lix)
        .next (retire (s.modWork c.p fun v => { v with pins := f v.pins pages }) c)
def execSppin (_u : Bool) (a b : Nat) (s : State) : Out := pinOp a b (fun old new => nub (old ++ new)) s
def execSpunpin (_u : Bool) (a b : Nat) (s : State) : Out := pinOp a b (fun old new => old.filter fun x => !new.contains x) s

/-! ## Lanes that may wait (R238) -/

/-- What one lane's operation gives: a fault, nothing yet (the lane waits), or the state and the registers it writes. -/
abbrev WaitStep := State → Nat → Except (Nat × DWord) (Option (State × List (Nat × Word)))

/-- The lanes in order: the state with waiters added, the lanes that acted with their values, the lanes that wait, the fault. -/
def waitSteps (kind : Nat → WaitKind) (group : Nat → List Nat) (c : Ctx) (f : WaitStep) :
    State → List Nat → State × List (Nat × List (Nat × Word)) × List Nat × Option (Nat × DWord)
  | s, [] => (s, [], [], none)
  | s, l :: r =>
    match f s l with
    | .error t => (s, [], [], some t)
    | .ok (some (s', v)) =>
      let e := waitSteps kind group c f s' r
      (e.1, (l, v) :: e.2.1, e.2.2.1, e.2.2.2)
    | .ok none =>
      let s' := s.modWork c.p fun w => { w with waiters := w.waiters ++ [⟨kind l, c.wg, c.wid, group l⟩] }
      let e := waitSteps kind group c f s' r
      (e.1, e.2.1, group l ++ e.2.2.1, e.2.2.2)

/-- An instruction whose lanes may wait: those that acted go on, those that wait are held and have issued it (R153), a fault stops the lanes
from it on. In handler mode nothing is done until every lane can act (R372). `fin` is what follows the lanes' operations. -/
def laneWaits (s : State) (c : Ctx) (w : Warp) (u : Bool) (kind : Nat → WaitKind) (f : WaitStep) (fin : State → State) : Out :=
  let e := waitSteps kind (fun l => if u then c.lanes else [l]) c f s (c.readers u)
  let vs := spread c (u && !e.2.1.isEmpty) e.2.1
  if w.trap.hm && !e.2.2.1.isEmpty then .next (stall s c)
  else
    let s0 := writeLanes e.1 c vs
    let s1 := if e.2.2.1.isEmpty then s0
      else s0.modWarp c.p c.wg c.wid fun v => v.modLanes e.2.2.1 fun y => { y with hold := .wait }
    match e.2.2.2 with
    | none => .next (fin (retireTo s1 c (vs.map (·.1))))
    | some t =>
      let s2 := if w.trap.hm then s1 else s1.modWarp c.p c.wg c.wid fun v => v.modLanes e.2.2.1 Lane.issued
      .next (fin (raiseTrap (advance s2 c (vs.map (·.1))) c [t]))

/-! ## Rings (R236 to R239) -/

def Ring.size (r : Ring) : Nat := 2 ^ r.rlog
/-- Entries between HEAD and TAIL. -/
def Ring.count (r : Ring) : Nat := (r.tail - r.head).toNat

/-- A ring that an instruction names, or the ring-state fault. -/
def Partition.ringFor (x : Partition) (q : Nat) : Except (Nat × DWord) Ring :=
  let r := x.ring q
  if 255 < q ∨ r.en = false ∨ r.rbase.toNat % (8 * r.size) ≠ 0 then .error (causeRing, BitVec.ofNat 64 q) else .ok r

/-- Whether lanes wait on a ring to push, or to pop. -/
def Work.ringWaits (w : Work) (q : Nat) (push : Bool) : Bool :=
  w.waiters.any fun x => match x.kind with
    | .rbpush k _ => push && k == q
    | .rbpop k _ => !push && k == q
    | _ => false

/-- A push by a lane when the ring has room and credit: none when it has not. RBPUSH is a release. -/
def State.ringPush (s : State) (c : Ctx) (g : WorkGroup) (w : Warp) (l q : Nat) (e : DWord) : Except (Nat × DWord) (Option State) := do
  let r ← (s.part c.p).ringFor q
  if r.free = 0 ∨ r.size ≤ r.count then return none
  let a : Acc := ⟨l, (r.rbase + BitVec.ofNat 64 (8 * (r.tail.toNat % r.size))).toNat, 8, .write, true⟩
  match s.accCheck c g w a with
  | some t => .error t
  | none =>
    let s1 ← (s.fillAll c g [a]).storeAcc c g w a (bytesOf 8 e.toNat)
    return some (s1.modPart c.p fun x => { x with rings := put x.rings q { r with tail := r.tail + 1, free := r.free - 1 } })

/-- A pop by a lane when the ring holds an entry. -/
def State.ringPop (s : State) (c : Ctx) (g : WorkGroup) (w : Warp) (l q : Nat) : Except (Nat × DWord) (Option (State × DWord)) := do
  let r ← (s.part c.p).ringFor q
  if r.count = 0 then return none
  let a : Acc := ⟨l, (r.rbase + BitVec.ofNat 64 (8 * (r.head.toNat % r.size))).toNat, 8, .read, true⟩
  match s.accCheck c g w a with
  | some t => .error t
  | none =>
    let e ← (s.fillAll c g [a]).loadAcc c g w a
    return some (e.1.modPart c.p fun x => { x with rings := put x.rings q { r with head := r.head + 1 } }, BitVec.ofNat 64 (ofBytes e.2))

/-- The first waiter of a ring and kind is served, if the ring can act for it: none when nothing could be done. -/
def State.serveOne (s : State) (p q : Nat) (push : Bool) : Option State := do
  let x ← (s.work p).waiters.find? fun x => match x.kind with
    | .rbpush k _ => push && k == q
    | .rbpop k _ => !push && k == q
    | _ => false
  let g ← (s.work p).wg x.wg
  let w ← g.warp x.wid
  let c : Ctx := ⟨p, x.wg, x.wid, x.lanes, 0, 0⟩
  match x.kind with
  | .rbpush _ e =>
    match s.ringPush c g w c.l0 q e with
    | .ok (some s') => some (s'.releaseWaiter p x [])
    | .ok none => none
    | .error t => some (s.faultWaiter p x t.1 t.2)
  | .rbpop _ d =>
    match s.ringPop c g w c.l0 q with
    | .ok (some (s', e)) => some (s'.releaseWaiter p x (pairOf d e))
    | .ok none => none
    | .error t => some (s.faultWaiter p x t.1 t.2)
  | _ => none

/-- The waiters of a ring served in their orders while it can act (R238). -/
def State.serveRing (s : State) (p q : Nat) : Nat → State
  | 0 => s
  | n + 1 =>
    match s.serveOne p q true with
    | some s' => s'.serveRing p q n
    | none =>
      match s.serveOne p q false with
      | some s' => s'.serveRing p q n
      | none => s

/-- The rings that lanes name served. (log 28, DEDUCED) -/
def State.serveRings (p : Nat) (qs : List Nat) (s : State) : State :=
  (nub qs).foldl (fun st q => st.serveRing p q (st.work p).waiters.length) s

/-- RBPUSH: the lanes push their entries, or wait (R237, R238). (log 42, DEDUCED) -/
def execRbpush (u : Bool) (a b : Nat) (s : State) : Out :=
  withGroup s fun c g w =>
    withRegs s c w (c.readers u) [] [(a, 1), (b, 2)] fun _ =>
      let q (l : Nat) : Nat := (w.reg a l).toNat
      releasing s c (c.readers u) fun _ =>
        laneWaits s c w u (fun l => .rbpush (q l) (w.pair b l)) (fun st l => do
          let _ ← (st.part c.p).ringFor (q l)
          if (st.work c.p).ringWaits (q l) true then return none
          let r ← st.ringPush c g w l (q l) (w.pair b l)
          return r.map fun s' => (s', [])) (State.serveRings c.p ((c.readers u).map q))

def execRbpop (u : Bool) (d a : Nat) (s : State) : Out :=
  withGroup s fun c g w =>
    if w.trap.hm then trapWord s c causeIllegal
    else withRegs s c w (c.readers u) [(d, 2)] [(a, 1)] fun _ =>
      let q (l : Nat) : Nat := (w.reg a l).toNat
      laneWaits s c w u (fun l => .rbpop (q l) d) (fun st l => do
        let _ ← (st.part c.p).ringFor (q l)
        if (st.work c.p).ringWaits (q l) false then return none
        let r ← st.ringPop c g w l (q l)
        return r.map fun e => (e.1, pairOf d e.2)) (State.serveRings c.p ((c.readers u).map q))

/-- RBFREE returns credits, and is never held. -/
def execRbfree (u : Bool) (d a b : Nat) (s : State) : Out :=
  withGroup s fun c _ w =>
    withRegs s c w (c.readers u) [(d, 1)] [(a, 1), (b, 1)] fun _ =>
      let q (l : Nat) : Nat := (w.reg a l).toNat
      laneWaits s c w u (fun l => .rbpop (q l) d) (fun st l => do
        let r ← (st.part c.p).ringFor (q l)
        let free := min (r.free + (w.reg b l).toNat) r.size
        return some (st.modPart c.p fun x => { x with rings := put x.rings (q l) { r with free := free } }, [(d, BitVec.ofNat 32 free)]))
        (State.serveRings c.p ((c.readers u).map q))

/-! ## The arrived-tile queue (R240) -/

/-- A queue of a launch at a slice: empty and open until a command has filled it. -/
def Work.tileQueue (w : Work) (seq slice n : Nat) : TileQueue :=
  (w.tqs.find? fun t => t.seq == seq && t.slice == slice && t.n == n).getD ⟨seq, slice, n, [], false⟩

/-- The work with a queue changed. -/
def Work.setTileQueue (w : Work) (t : TileQueue) : Work :=
  { w with tqs := t :: w.tqs.filter fun x => !(x.seq == t.seq && x.slice == t.slice && x.n == t.n) }

/-- The oldest identifier, or all ones from a closed queue that is empty; none while a lane must wait. -/
def TileQueue.take (t : TileQueue) : Option (TileQueue × Nat) :=
  match t.tiles with
  | x :: r => some ({ t with tiles := r }, x)
  | [] => if t.closed then some (t, 4294967295) else none

/-- Whether a waiter waits at a queue. -/
def Work.atQueue (w : Work) (seq slice n : Nat) (x : Waiter) : Bool :=
  match x.kind, w.wg x.wg with
  | .tqpop k _, some g => k == n && g.seq == seq && sliceOfCore g.core == slice
  | _, _ => false

/-- A TQPOP that returns an identifier is the bridge from collective to simt on its core (R96, R240). -/
def State.tileBridge (s : State) (p core v : Nat) : State := if v = 4294967295 then s else s.bridgeOn p core 3 0

/-- The waiters of a queue served in order. -/
def State.serveTiles (s : State) (p seq slice n : Nat) : Nat → State
  | 0 => s
  | fuel + 1 =>
    match (s.work p).waiters.find? ((s.work p).atQueue seq slice n), ((s.work p).tileQueue seq slice n).take with
    | some x, some (t, v) =>
      let d := match x.kind with
        | .tqpop _ d => d
        | _ => 0
      (((s.modWork p fun w => w.setTileQueue t).tileBridge p (s.coreOfWg p x.wg) v).releaseWaiter p x
        [(d, BitVec.ofNat 32 v)]).serveTiles p seq slice n fuel
    | _, _ => s

/-- TQPOP takes identifiers of arrived tiles, or waits (R240). (log 43, DEDUCED) -/
def execTqpop (u : Bool) (d n : Nat) (s : State) : Out :=
  withGroup s fun c g w =>
    if w.trap.hm then trapWord s c causeIllegal
    else if 7 < n then trapWord s c causeOperand
    else withRegs s c w [] [(d, 1)] [] fun _ =>
      let slice := sliceOfCore g.core
      laneWaits s c w u (fun _ => .tqpop n d) (fun st _ =>
        if (st.work c.p).waiters.any ((st.work c.p).atQueue g.seq slice n) then .ok none
        else
          match ((st.work c.p).tileQueue g.seq slice n).take with
          | some (t, v) => .ok (some ((st.modWork c.p fun y => y.setTileQueue t).tileBridge c.p g.core v, [(d, BitVec.ofNat 32 v)]))
          | none => .ok none) id

/-! ## Gates (R318, R319, R414) -/

/-- Rights of an agent on a gate: a level 3 agent holds every right (R318). -/
def Gate.rightsAt (g : Gate) (tenant level : Nat) : Bool × Bool × Bool := if 3 ≤ level then (true, true, true) else g.rights tenant

/-- A fault at a gate counted, and recorded at most once a millisecond (R416). -/
def State.gateFault (s : State) (n : Nat) : State :=
  let g := s.gate n
  let due := match g.lastRec with
    | none => true
    | some t => decide (t + 1000000 ≤ s.time)
  let part := if g.v then g.home else 31
  if due then
    (s.modGate n fun g => { g with faults := 0, lastRec := some s.time }).bbWrite 0x0400 part
      (if part = 31 then 0 else homeDie part) 8 (n * 2 ^ 20 + (g.faults + 1) % 2 ^ 20)
  else s.modGate n fun g => { g with faults := g.faults + 1 }

/-- The waits on a gate that are met release, in every partition, each an acquire (R243, R244); a frozen gate releases none. -/
def State.serveGate (s : State) (n : Nat) : State :=
  let g := s.gate n
  if g.frz then s
  else s.works.foldl (fun st e =>
    (e.2.waiters.foldl (fun st x =>
      match x.kind with
      | .gwait k d target =>
        if k == n && decide (target.toNat ≤ g.value.toNat) then
          (st.gateAcquire e.1 (st.coreOfWg e.1 x.wg)).releaseWaiter e.1 x (pairOf d g.value)
        else st
      | _ => st) st)) s

/-- A signal at the home of a gate (R319, R414): the cause that refuses it, or the state with the add applied or queued under a
ticket. -/
def State.signal (s : State) (n tenant level : Nat) (inc : Word) (ticket : Nat) : Except Nat State :=
  let g := s.gate n
  if !g.v || !(g.rightsAt tenant level).1 then .error causeGate
  else if g.frz && decide (65535 ≤ g.queued.length) then .error causeRate
  else if g.burst ≠ 0 ∧ g.tokens < 1024 then .error causeRate
  else
    let tokens := if g.burst ≠ 0 then g.tokens - 1024 else g.tokens
    if g.frz then .ok (s.modGate n fun g => { g with tokens := tokens, queued := g.queued ++ [(inc, ticket)] })
    else .ok ((s.modGate n fun g => { g with tokens := tokens, value := g.value + inc.setWidth 64 }).serveGate n)

/-- The gate that a register names, or the fault (R243). -/
def gateNumber (v : Nat) : Except (Nat × DWord) Nat := if 4095 < v then .error (causeGate, BitVec.ofNat 64 v) else .ok v

/-- Whether a ticket's signal stands queued at some gate. -/
def State.queuedAt (s : State) (t : Nat) : Bool := s.gates.any fun e => e.2.queued.any fun q => q.2 == t

/-- A fault at a gate that exists by number is counted there. -/
def State.noteGate (s : State) (t : Nat × DWord) : State := if t.2.toNat ≤ 4095 then s.gateFault t.2.toNat else s

/-- GSIG: an accepted signal is a release; a queued one keeps the engine counter up (R149, R243). -/
def execGsig (u : Bool) (a b : Nat) (s : State) : Out :=
  withGroup s fun c g w =>
    engineRelease s c u w [] [(a, 1), (b, 1)] fun _ =>
      let e := laneSteps (fun st l => do
        let n ← gateNumber (w.reg a l).toNat
        match (st.drainLane c.p c.wg c.wid l).signal n (s.part c.p).tenant (privOf g w) (w.reg b l) s.ids with
        | .ok s' => return (s', [])
        | .error k => .error (k, BitVec.ofNat 64 n)) s.fresh (c.readers u)
      let s1 := e.1.openEngine c s.ids
      match e.2.2 with
      | none => .next (retire s1 c)
      | some t =>
        let s2 := if e.2.1.isEmpty then e.1 else s1
        .next (raiseTrap (advance (s2.noteGate t) c (e.2.1.map (·.1))) c [t])

/-- A gate that a lane names and on which it holds the wait right, or the wait or read right (R319). -/
def State.gateFor (s : State) (c : Ctx) (g : WorkGroup) (w : Warp) (read : Bool) (v : Nat) : Except (Nat × DWord) (Nat × Gate) := do
  let n ← gateNumber v
  let x := s.gate n
  let r := x.rightsAt (s.part c.p).tenant (privOf g w)
  if x.v && (r.2.1 || (read && r.2.2)) then return (n, x) else .error (causeGate, BitVec.ofNat 64 n)

/-- GWAIT: held until the value reaches the target (R243). -/
def execGwait (u : Bool) (d a b : Nat) (s : State) : Out :=
  withGroup s fun c g w =>
    if w.trap.hm then trapWord s c causeIllegal
    else withRegs s c w (c.readers u) [(d, 2)] [(a, 1), (b, 2)] fun _ =>
      let bad := (c.readers u).findSome? fun l => match s.gateFor c g w false (w.reg a l).toNat with
        | .error t => some t
        | .ok _ => none
      laneWaits s c w u (fun l => .gwait (w.reg a l).toNat d (w.pair b l)) (fun st l => do
        let x ← st.gateFor c g w false (w.reg a l).toNat
        if x.2.frz || decide (x.2.value.toNat < (w.pair b l).toNat) then return none
        return some (st.gateAcquire c.p g.core, pairOf d x.2.value)) (fun st => match bad with
          | some t => st.noteGate t
          | none => st)

/-- An instruction that reads a gate once for each lane, with the wait or the read right: an acquire (R244). -/
def gateRead (u : Bool) (d n a : Nat) (reads : List RegUse) (f : Warp → Nat → DWord → List (Nat × Word)) (s : State) : Out :=
  withGroup s fun c g w =>
    withRegs s c w (c.readers u) [(d, n)] ((a, 1) :: reads) fun _ =>
      let e := laneSteps (fun st l => do
        let x ← st.gateFor c g w true (w.reg a l).toNat
        return (st.gateAcquire c.p g.core, f w l x.2.value)) s (c.readers u)
      match e.2.2 with
      | none => .next (retire (writeLanes e.1 c (spread c u e.2.1)) c)
      | some t => .next (raiseTrap (advance ((writeLanes e.1 c e.2.1).noteGate t) c (e.2.1.map (·.1))) c [t])

def execGrd (u : Bool) (d a : Nat) (s : State) : Out := gateRead u d 2 a [] (fun _ _ v => pairOf d v) s
def execGtry (u : Bool) (d a b : Nat) (s : State) : Out :=
  gateRead u d 1 a [(b, 2)] (fun w l v => [(d, if (w.pair b l).toNat ≤ v.toNat then 1 else 0)]) s

/-- Signals queued at a gate are applied in their order once it is thawed (R107, R323). -/
def State.applyQueued (s : State) (n : Nat) : State :=
  let g := s.gate n
  if g.frz then s
  else (s.modGate n fun g =>
    { g with value := g.queued.foldl (fun v q => v + q.1.setWidth 64) g.value, queued := [] }).serveGate n

/-- GATE_SIGNAL_APPLY: a signal of a tenant arrives at the gate's home; refused, it counts as a fault there (R319, R416). -/
def execGateSignalApply (s : State) : Out :=
  .next (match s.signal (s.arg 0) (s.arg 1) 1 (BitVec.ofNat 32 (s.arg 2)) 0 with
    | .ok s' => s'
    | .error _ => s.gateFault (s.arg 0))

/-- GATE_TOKEN_REFILL: a microsecond boundary of fabric time at one gate (R319). -/
def execGateTokenRefill (s : State) : Out :=
  .next (s.modGate (s.arg 0) fun g => if g.frz then g else { g with tokens := min (g.tokens + g.rate) (g.burst * 1024) })

end Sys2Proof.Machine
end

