-- ==== Sys2Proof/Machine/Seqs.lean ====
section
/-!
DEFINITION. Engine sequencers and Guidon programs: issue, traps and failing commands (R281, R282, R400, R401), their accesses (R280), the
scalar set (R283 to R285), and the end of a command (R143, R281).
-/
namespace Sys2Proof.Machine

/-! ## Issue -/

/-- Words of an instruction (R157). -/
def wordSize (word : Nat) : Nat := if word / 33554432 % 64 = 63 then 2 else 1

/-- The sequencer goes on past its instruction. -/
def State.seqNext (s : State) (p : Nat) (q : Seq) (word : Nat) : State :=
  s.modSeq p q.id fun y => { y with cur := y.cur.past (wordSize word) }

/-- The sequencer goes to the target of a branch, which is taken as a header (R148). -/
def State.seqJump (s : State) (p : Nat) (q : Seq) (t : VAddr) : State := s.modSeq p q.id fun y => { y with cur := Cursor.at t }

/-- The byte offset of where a sequencer stands from its program pointer (R401): its instruction, or a header that fails (R148). -/
def Seq.pcoff (q : Seq) : Nat := (q.cur.pc - q.base).toNat

/-- The path on which a sequencer's accesses travel (R92): a Guidon's are on simt. -/
def Seq.path (q : Seq) : Nat := if q.cls = 4 then 0 else q.cls

/-- The die at which a sequencer works: a copy sequencer on that of its engine (R3). -/
def Seq.die (q : Seq) : Nat := if q.cls = 2 then q.engine / 24 else dieOfSlice (q.cluster / 2)

/-- A work-group that is resident or saved. -/
def Work.anyWg (w : Work) (id : Nat) : Option WorkGroup := (w.wgs ++ w.images.map (·.wg)).find? (·.id == id)

/-- A resident or saved work-group changed. -/
def Work.modAnyWg (w : Work) (id : Nat) (f : WorkGroup → WorkGroup) : Work :=
  match w.anyWg id with
  | some g => w.modGroups g.seq fun x => if x.id == id then f x else x
  | none => w

/-! ## A sequencer that stops (R400, R401) -/

/-- TVAL of the sequencer cause. -/
def seqTval (cls : Nat) (trap : Bool) (code pcoff : Nat) : DWord :=
  BitVec.ofNat 64 (cls * 2 ^ 62 + bit trap * 2 ^ 61 + code % 256 * 2 ^ 48 + pcoff % 2 ^ 32)

/-- The cause raised in the lowest-numbered warp of a work-group that holds a thread. -/
def WorkGroup.raiseLowest (g : WorkGroup) (bit : Nat) (tval : DWord) : WorkGroup :=
  match ((g.warps.filter Warp.alive).map (·.wid)).foldl (fun m x => some (match m with
      | some y => if x % 32 < y % 32 then x else y
      | none => x)) (none : Option Nat) with
  | some k => (g.modWarp k fun w => { w with trap := w.trap.raise bit tval }).halted k
  | none => g

/-- The STAT of a command that fails because its engine consumed poison, 6, told apart from the other causes of it (R282, R394). MODEL:
`% 256` gives the STAT that is shown. -/
def statPoison : Nat := 262

/-- An engine has consumed poison (R394): the record with its STAT, or the cause bit of a fetch. -/
def State.enginePoison (s : State) (p : Nat) (q : Seq) (what : Nat) : State := s.bbWrite 0x0202 p q.die 1 what

/-- The record that goes with a STAT of consumed poison. -/
def State.consumed (s : State) (p : Nat) (q : Seq) (stat : Nat) : State := if stat = statPoison then s.enginePoison p q 6 else s

/-- The black-box record of a sequencer's stop (R416). -/
def State.noteStop (s : State) (p : Nat) (q : Seq) (trap : Bool) (code : Nat) : State :=
  if q.cls = 4 then s.bbWrite 0x0302 p q.die 1 (q.cluster * 65536 + code)
  else
    let core := match (s.work p).anyWg q.wg with
      | some g => g.core
      | none => 32 * q.cluster
    s.bbWrite (if trap then 0x0301 else 0x0300) p q.die 1 (core * 65536 + q.cls * 256 + code)

/-- A stopped sequencer's work-group learns of it (R401): the sequencer cause, or the end of a launch that cannot take it. A Guidon
program's launch ends with STATE 6 when nothing else of it runs. -/
def State.tellStop (s : State) (p : Nat) (q : Seq) (trap : Bool) (code pcoff : Nat) : State :=
  if q.discard then s
  else if q.cls = 4 then
    s.modWork p fun w => w.modLaunch q.seq fun l => if l.ending = .live then { l with ending := .faulted } else l
  else
    let handler : DWord := match (s.work p).launch q.seq with
      | some l => l.rcd.handler
      | none => 0
    match (s.work p).anyWg q.wg with
    | some g =>
      if handler = 0 ∨ !g.warps.any Warp.alive then s.faultLaunch p q.seq (0x0100 + causeSeq) g.core pcoff
      else s.modWork p fun w => w.modAnyWg q.wg fun x => x.raiseLowest causeSeq (seqTval q.cls trap code pcoff)
    | none => s.faultLaunch p q.seq (0x0100 + causeSeq) (32 * q.cluster) pcoff

/-- A sequencer that issues nothing further retires once its commands have ended. -/
def State.endIfDone (s : State) (p id : Nat) : State :=
  match (s.work p).seqOf id with
  | some q => if (q.ending || q.stopped || q.discard) && q.cmds.isEmpty then s.retireSeq p id else s
  | none => s

/-- THE STOP OF A SEQUENCER: by a trap of its own, or by a command that failed. -/
def State.stopSeq (s : State) (p : Nat) (q : Seq) (trap : Bool) (code pcoff : Nat) : State :=
  let s1 := (s.consumed p q code).noteStop p q trap (code % 256)
  if q.stopped then s1
  else ((s1.modSeq p q.id fun y => { y with stopped := true }).tellStop p q trap (code % 256) pcoff).endIfDone p q.id

/-- A trap cause of a sequencer's own instruction; a poisoned fetch is recorded with it (R394). -/
def State.seqTrap (s : State) (p : Nat) (q : Seq) (cause : Nat) : State :=
  (if cause = causeData then s.enginePoison p q cause else s).stopSeq p q true cause q.pcoff

/-- An s register operand: its number, how many registers it stands for, and their alignment (R65, R281). -/
abbrev SUse := Nat × Nat × Nat
def sregsOk (us : List SUse) : Bool := us.all fun u => u.1 % u.2.2 == 0 && decide (u.1 + u.2.1 ≤ 32)

/-- Runs a meaning of a sequencer once its register fields pass (R281); else the sequencer traps. -/
def withSregs (s : State) (us : List SUse) (k : Nat → Seq → Nat → Nat → Out) : Out :=
  withSeq s fun p q word lit => if sregsOk us then k p q word lit else .next (s.seqTrap p q causeOperand)

/-! ## Commands (R281) -/

/-- A command issued: its number is the old `ids`. -/
def State.issueCmd (s : State) (p : Nat) (q : Seq) (word : Nat) (wait : CmdWait) (stat : Nat) (group bound : Option Nat) :
    State :=
  let c : Command := { id := s.ids, stat := stat % 256, notify := bitsOf word 24 24 == 1, tag := q.pair 30, pcoff := q.pcoff, wait := wait,
                       tiles := [], queue := 0, close := false, group := group, bound := bound, since := s.time }
  (s.consumed p q stat).fresh.modSeq p q.id fun y => { y with cmds := y.cmds ++ [c], ttop := none, cur := y.cur.past (wordSize word) }

def Seq.cmd (q : Seq) (id : Nat) : Option Command := q.cmds.find? (·.id == id)
def State.modCmd (s : State) (p id cid : Nat) (f : Command → Command) : State :=
  s.modSeq p id fun q => { q with cmds := updFirst (·.id == cid) f q.cmds }

/-- A command's effect has ended, with its STAT. -/
def State.endCmd (s : State) (p id cid stat : Nat) : State :=
  (match (s.work p).seqOf id with
    | some q => s.consumed p q stat
    | none => s).modCmd p id cid fun c => { c with wait := .done, stat := stat % 256 }

/-- The command that the sequencer issues, unless its engine counter is full (R149). -/
def Seq.full (q : Seq) : Bool := decide (63 ≤ q.cmds.length)

/-! ## Accesses of engines (R280) -/

/-- The STAT of a cause (R282). -/
def statOf (cause : Nat) : Nat :=
  match cause with
  | 19 => 3
  | 20 => 3
  | 21 => 4
  | 22 => 5
  | 23 => 6
  | 28 => statPoison
  | _ => 2

/-- A sequencer as an agent (R300). -/
def Seq.agent (p : Nat) (q : Seq) : Agent := ⟨p, q.die, q.priv, q.cls == 2⟩

/-- Where an access of an engine lands: memory with its leaf, host memory (R350), the scratchpad. -/
inductive Loc where
  | mem (pa leaf : Nat)
  | host (off : Nat)
  | spad (key : Nat)
  deriving DecidableEq, Repr

/-- The place of an agent's access in memory, or the cause (R69, R73, R86, R350). -/
def State.memLoc (s : State) (g : Agent) (k : Kind) (va n : Nat) (sync : Bool) : Except Nat Loc :=
  match s.xlate g k va with
  | .bad c => .error c
  | .ok pa leaf =>
    if leafFmt leaf = 2 then
      match s.aliasCheck g.p leaf pa n sync with
      | some c => .error c
      | none => .ok (.mem pa leaf)
    else if g.copy && !leafGw leaf then
      match s.hostWindow g.p pa n with
      | some off => .ok (.host off)
      | none => .ok (.mem pa leaf)
    else .ok (.mem pa leaf)

/-- The key of a scratchpad address of a sequencer's work-group: on its own core, or, when allowed, in its cluster instance (R78, R79). -/
def State.seqSpad (s : State) (p wg : Nat) (own : Bool) (a n : Nat) : Option Nat :=
  match (s.work p).anyWg wg with
  | none => none
  | some g =>
    let off := a % 1048576
    let key (h : WorkGroup) : Option Nat :=
      (h.space.find? fun r => decide (r.base ≤ off) && decide (off + n ≤ r.base + r.size)).map fun r => spadKey r.space (off - r.base)
    if 2 ^ 25 ≤ a then none
    else if a / 1048576 = g.core % 32 then key g
    else if own then none
    else (((s.work p).clusterPeers g).find? fun h => h.core % 32 == a / 1048576) >>= key

/-- Where an address operand leads (R280), or the STAT. -/
def State.resolve (s : State) (p : Nat) (q : Seq) (k : Kind) (addr n : Nat) : Except Nat Loc :=
  if addr / 2 ^ 56 = 0 then
    match s.memLoc (q.agent p) k addr n false with
    | .ok l => .ok l
    | .error c => .error (statOf c)
  else if addr / 2 ^ 25 = 0x80 * 2 ^ 31 then
    match if q.cls = 4 then none else s.seqSpad p q.wg false (addr % 2 ^ 25) n with
    | some key => .ok (.spad key)
    | none => .error 5
  else .error 2

/-- Host memory: what has been written, or what stands there (R350). (log 15, DESIGN CHOICE) -/
def HostSide.byte (h : HostSide) (a : Nat) : Byte :=
  match find h.mem a with
  | some v => v
  | none => Config.hostByte a
def HostSide.bytes (h : HostSide) : Nat → Nat → List Byte
  | _, 0 => []
  | a, n + 1 => h.byte a :: h.bytes (a + 1) n
def HostSide.write (h : HostSide) (a : Nat) (bs : List Byte) : HostSide :=
  { h with mem := h.mem.filter (fun e => decide (e.1 < a)) ++ located a bs ++ h.mem.filter (fun e => decide (a + bs.length ≤ e.1)) }

/-- Which overwritten units an access on a path still finds: none, for one that synchronises (R100). -/
def findsOn (on : Option Nat) (x : Late) : Bool :=
  match on with
  | some path => x.showsEngine path
  | none => false

/-- What an access on a path, or one that synchronises, finds at a place, and whether it is poisoned; an alias page may fail its decode. -/
def State.fetchLoc (s : State) (p : Nat) (on : Option Nat) (l : Loc) (n : Nat) : Except Nat (List Byte × Bool) :=
  match l with
  | .spad k => .ok (s.lateBytes true (findsOn on) k n, s.spad.poisoned k n)
  | .host off => .ok (s.host.bytes off n, false)
  | .mem pa leaf =>
    if leafFmt leaf = 2 then
      match s.mem.aliasRead (s.aliasAt p leaf pa) n with
      | .ok bs => .ok (bs, false)
      | .error c => .error c
    else if s.placeOf p pa = .mem then .ok (s.lateBytes false (findsOn on) pa n, s.mem.poisoned pa n)
    else .ok (s.readAt p pa n, false)

/-- Bytes put at a place on a path, with their poison; in an alias page it takes every unit that the write touches (R90, R391). `level` is
the writer's. -/
def State.putLoc (s : State) (p level path : Nat) (l : Loc) (bs : List Byte) (poison : Bool) : Except Nat State :=
  match l with
  | .spad k =>
    let sp := s.spad.write k bs
    .ok { s.wrote true [p] path [] k bs.length with spad := if poison then sp.poisonSpan k bs.length else sp }
  | .host off => .ok { s with host := s.host.write off bs }
  | .mem pa leaf =>
    if leafFmt leaf = 2 then
      let x := s.aliasAt p leaf pa
      (s.mem.aliasWrite x bs).map fun m => { s.aliasWrote p path [] x bs.length with
        mem := if poison then (x.spans bs.length).foldl (fun y e => y.poisonSpan e.1 e.2) m else m }
    else if s.placeOf p pa = .mem then
      let m := s.mem.write pa bs
      .ok { s.wrote false [p] path [] pa bs.length with mem := if poison then m.poisonSpan pa bs.length else m }
    else .ok (s.writeAt p [] level pa bs)

/-- A read of an engine inside one page: bytes and poison, or the STAT. -/
def State.fetchPiece (s : State) (p : Nat) (q : Seq) (addr n : Nat) : Except Nat (List Byte × Bool) := do
  let l ← s.resolve p q .read addr n
  match s.fetchLoc p (some q.path) l n with
  | .ok r => .ok r
  | .error c => .error (statOf c)

/-- Pieces of an engine's read, one after another. -/
def State.fetchPieces (s : State) (p : Nat) (q : Seq) : List (Nat × Nat) → Except Nat (List Byte × Bool)
  | [] => .ok ([], false)
  | (a, n) :: r => do
    let x ← s.fetchPiece p q a n
    let y ← s.fetchPieces p q r
    return (x.1 ++ y.1, x.2 || y.2)

/-- A read of an engine: every piece is translated for itself, so that it may cross pages (R16, R69). -/
def State.fetch (s : State) (p : Nat) (q : Seq) (addr n : Nat) : Except Nat (List Byte × Bool) := s.fetchPieces p q (pieces8 n addr n)

/-- A write of an engine inside one page. -/
def State.depositPiece (s : State) (p : Nat) (q : Seq) (addr : Nat) (bs : List Byte) (poison : Bool) : Except Nat State := do
  let l ← s.resolve p q .write addr bs.length
  match s.putLoc p q.priv q.path l bs poison with
  | .ok s' => .ok s'
  | .error c => .error (statOf c)

/-- A write of an engine, piece by piece; when one piece fails, nothing is written. -/
def State.deposit (s : State) (p : Nat) (q : Seq) (addr : Nat) (bs : List Byte) (poison : Bool) : Except Nat State :=
  (pieces8 bs.length addr bs.length).foldlM (fun (st : State) e => st.depositPiece p q e.1 ((bs.drop (e.1 - addr)).take e.2) poison) s

/-- A read of a record whose bytes the engine uses: poison is a failure (R403). -/
def State.fetchNat (s : State) (p : Nat) (q : Seq) (addr n : Nat) : Except Nat Nat := do
  let r ← s.fetch p q addr n
  if r.2 then .error statPoison else .ok (ofBytes r.1)

/-! ## The end of a command (R143, R281) -/

/-- The BUSY count at a physical address changed by the part's atomic (R341). -/
def State.busy (s : State) (p pa : Nat) (up : Bool) : State :=
  let v := s.mem.read pa 4
  { s.wrote false [p] 2 [] pa 4 with mem := s.mem.write pa (bytesOf 4 ((if up then v + 1 else v + 2 ^ 32 - 1) % 2 ^ 32)) }

/-- A queue of arrived tiles that closes; its waiters are served (R240, R294). -/
def State.closeQueue (s : State) (p seq slice n : Nat) : State :=
  let s1 := s.modWork p fun w => w.setTileQueue { w.tileQueue seq slice n with closed := true }
  s1.serveTiles p seq slice n (s1.work p).waiters.length

/-- A COMMAND COMPLETES, once its effect has ended and its tiles are pushed: its record is pushed, or it waits for a slot; it leaves the
engine counter; one with a STAT stops its sequencer. -/
def State.finishCmd (s : State) (p id cid : Nat) : State :=
  match (s.work p).seqOf id with
  | none => s
  | some q =>
    match q.cmd cid with
    | none => s
    | some c =>
      if c.wait ≠ .done ∨ !c.tiles.isEmpty then s
      else
        match if c.notify then (s.work p).pushEvent q.cluster ⟨q.cls, c.stat, c.tag⟩ else some (s.work p) with
        | none => s
        | some w =>
          let s1 := (s.modWork p fun _ => w).modSeq p id fun y => { y with cmds := y.cmds.filter (·.id != cid) }
          let s2 := match c.bound with
            | some pa => s1.busy p pa false
            | none => s1
          let s3 := if c.close then s2.closeQueue p q.seq (q.cluster / 2) c.queue else s2
          (if c.stat = 0 then s3 else s3.stopSeq p q false c.stat c.pcoff).endIfDone p id

/-! ## The scalar set (R283) -/

def execSmov (_u : Bool) (d a : Nat) (s : State) : Out :=
  withSregs s [(d, 1, 1), (a, 1, 1)] fun p q word _ => .next ((s.modSeq p q.id fun y => y.setReg d (q.reg a)).seqNext p q word)

def execSadd (_u : Bool) (d a b : Nat) (s : State) : Out :=
  withSregs s [(d, 1, 1), (a, 1, 1), (b, 1, 1)] fun p q word _ =>
    .next ((s.modSeq p q.id fun y => y.setReg d (q.reg a + q.reg b)).seqNext p q word)

def execSli (_u : Bool) (d i : Nat) (s : State) : Out :=
  withSregs s [(d, 1, 1)] fun p q word _ => .next ((s.modSeq p q.id fun y => y.setReg d (signWord 18 i)).seqNext p q word)

def execSliWide (d i : Nat) (s : State) : Out :=
  withSregs s [(d, 1, 1)] fun p q word _ => .next ((s.modSeq p q.id fun y => y.setReg d (BitVec.ofNat 32 i)).seqNext p q word)

/-- The target of a branch of a sequencer. -/
def Seq.target (q : Seq) (o : Nat) : VAddr := displaced q.cur.next (4 * signed 18 o)

def execSbnz (_u : Bool) (a o : Nat) (s : State) : Out :=
  withSregs s [(a, 1, 1)] fun p q word _ => .next (if q.reg a ≠ 0 then s.seqJump p q (q.target o) else s.seqNext p q word)

def execSloop (_u : Bool) (a o : Nat) (s : State) : Out :=
  withSregs s [(a, 1, 1)] fun p q word _ =>
    let v := q.reg a - 1
    let s1 := s.modSeq p q.id fun y => y.setReg a v
    .next (if v ≠ 0 then s1.seqJump p q (q.target o) else s1.seqNext p q word)

/-- SWAIT holds until every earlier command has completed. -/
def execSwait (s : State) : Out := withSeq s fun p q word _ => .next (if q.cmds.isEmpty then s.seqNext p q word else s)

/-- END retires the program once every earlier command has completed (R285). -/
def execEndProg (s : State) : Out :=
  withSeq s fun p q _ _ => .next ((s.modSeq p q.id fun y => { y with ending := true }).endIfDone p q.id)

/-- The memory address of SSIG and SLDA (R284), or the STAT; a scratchpad form of a Guidon program has its own (R280). -/
def State.flagLoc (s : State) (p : Nat) (q : Seq) (k : Kind) (addr n : Nat) : Except Nat Loc :=
  if addr / 2 ^ 56 ≠ 0 then .error (if q.cls = 4 ∧ addr / 2 ^ 25 = 0x80 * 2 ^ 31 then 5 else 2)
  else if addr % n ≠ 0 then .error 4
  else
    match s.memLoc (q.agent p) k addr n true with
    | .ok l => .ok l
    | .error c => .error (statOf c)

/-- SSIG, a release: it waits until every earlier command has completed. -/
def ssigOp (a n : Nat) (us : List SUse) (k : Kind) (f : Seq → Nat → Nat) (s : State) : Out :=
  withSregs s ((a, 2, 2) :: us) fun p q word _ =>
    if !q.cmds.isEmpty then .next s
    else
      match s.flagLoc p q k (q.pair a).toNat n with
      | .error t => .next (s.stopSeq p q false t q.pcoff)
      | .ok l =>
        match s.fetchLoc p none l n with
        | .error c => .next (s.stopSeq p q false (statOf c) q.pcoff)
        | .ok old =>
          if old.2 && k.reads then .next (s.stopSeq p q false statPoison q.pcoff)
          else
            match s.putLoc p q.priv q.path l (bytesOf n (f q (ofBytes old.1))) false with
            | .ok s' => .next (s'.seqNext p q word)
            | .error c => .next (s.stopSeq p q false (statOf c) q.pcoff)

def execSsig (_u : Bool) (a b : Nat) (s : State) : Out := ssigOp a 4 [(b, 1, 1)] .write (fun q _ => (q.reg b).toNat) s
def execSsig64 (_u : Bool) (a b : Nat) (s : State) : Out := ssigOp a 8 [(b, 2, 2)] .write (fun q _ => (q.pair b).toNat) s
def execSsigAdd64 (_u : Bool) (a b : Nat) (s : State) : Out :=
  ssigOp a 8 [(b, 2, 2)] .atomic (fun q v => (v + (q.pair b).toNat) % 2 ^ 64) s

/-- SLDA, an acquire, and the bridge from every path to its sequencer's (R96). -/
def sldaOp (d a n : Nat) (us : List SUse) (s : State) : Out :=
  withSregs s ((a, 2, 2) :: us) fun p q word _ =>
    match s.flagLoc p q .read (q.pair a).toNat n with
    | .error t => .next (s.stopSeq p q false t q.pcoff)
    | .ok l =>
      match s.fetchLoc p none l n with
      | .error c => .next (s.stopSeq p q false (statOf c) q.pcoff)
      | .ok v =>
        if v.2 then .next (s.stopSeq p q false statPoison q.pcoff)
        else
          let x : DWord := BitVec.ofNat 64 (ofBytes v.1)
          .next (((s.bridgeAll q.path).modSeq p q.id fun y => if n = 8 then y.setPair d x else y.setReg d x.lo).seqNext p q word)

def execSlda (_u : Bool) (d a : Nat) (s : State) : Out := sldaOp d a 4 [(d, 1, 1)] s
def execSlda64 (_u : Bool) (d a : Nat) (s : State) : Out := sldaOp d a 8 [(d, 2, 2)] s

end Sys2Proof.Machine
end

