-- ==== Sys2Proof/Machine/Fabric.lean ====
section
/-!
DEFINITION. The fabric edge: members and who is reachable (R316, R404, R405, R408), accesses that a partition serves for others and its
port fault queue (R409 to R411), multicast reads and writes (R241, R242, R327), collectives that fail (R407), switches, the time domain
and the forming of the fabric (R333, R406, R408).
-/
namespace Sys2Proof.Machine

/-! ## Members -/

/-- A partition in the fabric: module id and number (R326). -/
abbrev Member := Nat × Nat

/-- A member word of R295. -/
def memberOf (w : Nat) : Member := (bitsOf w 31 16, bitsOf w 7 0)

/-- The peers that a partition's descriptor lists (R313, R316). -/
def State.fedPeers (s : State) (p : Nat) : List Member :=
  (upto 0 (s.part p).fedcount).map fun i => memberOf (s.mem.read ((s.part p).fedtab + 4 * i) 4)

def State.isLocal (s : State) (m : Member) : Bool := m.1 == s.fabric.module
def State.remote (s : State) (m : Member) : Option Remote := s.fabric.remotes.find? fun r => r.module == m.1 && r.part == m.2

/-- The limiter of a partition at a port as written; after reset BURST 64 and RATE 450 (R349). -/
def State.limiter (s : State) (p q : Nat) : Word := findD s.host.limiters (16 * p + q) (BitVec.ofNat 32 (64 * 65536 + 450))

/-- Whether some port carries a partition's traffic (R349). -/
def State.carries (s : State) (p : Nat) : Bool := (upto 0 16).any fun q => (s.limiter p q).toNat % 512 != 0

/-- Whether a partition reaches a member (R316, R404, R408): itself always; another of this module when its descriptor answers; one of
another module when that answers. -/
def State.reaches (s : State) (p : Nat) (m : Member) : Bool :=
  if m == (s.fabric.module, p) then true
  else if s.isLocal m then
    s.fabric.inDomain && (s.part m.2).state == .running && (s.part m.2).tenant == (s.part p).tenant &&
      (s.fedPeers m.2).contains (s.fabric.module, p)
  else
    match s.remote m with
    | some r => r.up && s.carries p
    | none => false

/-- Whether a partition's traffic to a member waits at this module, because no port carries it (R349). -/
def State.holdsBack (s : State) (p : Nat) (m : Member) : Bool := !s.isLocal m && !s.carries p

/-- Whether a member does not answer (R404): it is not reached, and the traffic to it does not wait here. -/
def State.lost (s : State) (p : Nat) (m : Member) : Bool := !s.reaches p m && !s.holdsBack p m

/-- The memory of a partition on another module. -/
def Remote.byte (r : Remote) (a : Nat) : Byte :=
  match find r.mem a with
  | some v => v
  | none => Config.remoteByte r.module r.part a
/-- What another module's memory holds, where nothing has been written through the fabric a free value (R327). (log 45, DEDUCED) -/
def State.remoteBytes (s : State) (m : Member) (a n : Nat) : List Byte :=
  match s.remote m with
  | some r => (upto a n).map r.byte
  | none => (upto a n).map fun _ => 0
/-- Whether a span of it touches a poisoned sector (R391). -/
def State.remotePoison (s : State) (m : Member) (a n : Nat) : Bool := (s.remote m).any fun r => touchesPoison 32 r.poison a n
/-- Bytes written there, with their poison; a sector that sound ones cover whole loses its poison (R391). -/
def Remote.write (r : Remote) (a : Nat) (bs : List Byte) (poison : Bool) : Remote :=
  let whole := wholeUnits 32 a bs.length
  { r with mem := (located a bs).foldl (fun x e => put x e.1 e.2) r.mem
           poison := if poison then nub (upto (a / 32) ((a + bs.length + 31) / 32 - a / 32) ++ r.poison)
             else r.poison.filter fun u => !whole.contains u }
def State.remoteWrite (s : State) (m : Member) (a : Nat) (bs : List Byte) (poison : Bool) : State :=
  { s with fabric := { s.fabric with remotes := s.fabric.remotes.map fun r =>
      if r.module == m.1 && r.part == m.2 then r.write a bs poison else r } }

/-! ## Accesses in a serving partition (R409) -/

/-- A serving partition as the agent of an access at a level. -/
def serving (p level : Nat) : Agent := ⟨p, homeDie p, level, false⟩

/-- A read on behalf of another, of which page walks read the state `v`: bytes and poison as the path finds them, or the cause. -/
def State.serveRead (s v : State) (p level : Nat) (on : Option Nat) (va n : Nat) : Except Nat (List Byte × Bool) := do
  let l ← v.memLoc (serving p level) .read va n false
  s.fetchLoc p on l n

/-- A write on behalf of another, on a path. -/
def State.serveWrite (s v : State) (p level path va : Nat) (bs : List Byte) (poison : Bool) : Except Nat State := do
  let l ← v.memLoc (serving p level) .write va bs.length false
  s.putLoc p level path l bs poison

/-- The die of the fabric port at which a partition's traffic is seen. (log 94, DESIGN CHOICE) -/
def portDie (p : Nat) : Nat := homeDie p

/-! ## Absence (R404, R405) -/

/-- The partitions of this module that hold an instance: the same id, members and version. -/
def State.instances (s : State) (p a : Nat) : List Nat :=
  let g := (s.part p).group a
  (s.parts.map (·.1)).filter fun k =>
    let h := (s.part k).group a
    k == p || (h.valid && h.members == g.members && h.ver == g.ver && h.members.contains (s.fabric.module, k))

/-- A member of the current version recorded absent in one partition's group, with the record. -/
def State.markAbsent (s : State) (p a : Nat) (m : Member) : State :=
  let g := (s.part p).group a
  match indexOf (· == m) g.members with
  | none => s
  | some i =>
    if g.absent.contains i then s
    else
      (s.modPart p fun x => { x with groups := put x.groups a { g with
        absent := sortNat (i :: g.absent), lost := some (g.lost.getD s.time) } }).bbWrite 0x0310 p (portDie p) 3
          (m.1 * 65536 + a * 256 + m.2)

/-! ## Multicast results (R241, R411) -/

/-- A pass of the tree of R241: neighbours are added, an odd last one is carried up. -/
def pairUp : List Word → List Word
  | a :: b :: r => fadd a b :: pairUp r
  | l => l
/-- The FP32 sum of the members' values (R241). -/
def memberSum : Nat → List Word → Word
  | 0, l => l.headD 0
  | n + 1, l =>
    match l with
    | _ :: _ :: _ => memberSum n (pairUp l)
    | _ => l.headD 0

/-- A waiting result with a member's value; with none, the lane receives the NaN of R242. -/
def Result.giveMember (r : Result) (i : Nat) (v : Option Word) : Result :=
  match v with
  | none => { r with ready := true, parts := [], vals := r.vals.map fun e => (e.1, nan32) }
  | some x =>
    let ps := r.parts.set i (some x)
    if ps.all Option.isSome then
      { r with ready := true, parts := [], vals := r.vals.map fun e => (e.1, memberSum ps.length (ps.map fun y => y.getD 0)) }
    else { r with parts := ps }

/-- A member's value given to a lane's waiting result, or to those of every lane of the instruction (R62). -/
def State.giveMember (s : State) (p wg wid lane ticket i : Nat) (v : Option Word) : State :=
  s.modWork p fun w => w.modAnyWg wg fun g => g.modWarp wid fun y => y.modLanes (if lane < 32 then [lane] else upto 0 32) fun x =>
    { x with results := x.results.map fun r => if r.ticket == ticket && !r.ready then r.giveMember i v else r }

/-- A member's write of a multicast store has been performed, or dropped: the store counter may fall. An orphan's lane keeps its number
modulo 32 (R171). -/
def State.writeDone (s : State) (p ticket lane : Nat) : State :=
  let mine (x : PendingStore) : Bool := x.ticket == ticket && x.lane % 32 == lane && x.parked != 0
  s.modWork p fun w => { w with stores := updFirst mine (fun x => { x with parked := x.parked - 1 }) w.stores }

/-! ## Collectives that fail (R407) -/

/-- Whether a descriptor enables the arrived-tile queue. -/
def tqen (desc : List Nat) : Bool := (desc.getD 3 0).testBit 55

/-- The collective that a command belongs to: group, version, number, members and descriptor, while it waits for its slot or for the
others. The operands of a waiting slot are group, version, number, how many members, the members, the descriptor. -/
def Command.collOf (c : Command) : Option (Nat × Nat × Nat × List (Nat × Nat) × List Nat) :=
  match c.wait with
  | .coll a v o ms d => some (a, v, o, ms, d)
  | .slot _ .coll args =>
    let n := args.getD 3 0
    some (args.getD 0 0, args.getD 1 0, args.getD 2 0, (pieces 2 n ((args.drop 4).take (2 * n))).map fun l => (l.getD 0 0, l.getD 1 0),
      args.drop (4 + 2 * n))
  | _ => none

/-- A COLL ends with a STAT; an enabled queue then closes, but where nothing was begun (R402). -/
def Command.failColl (c : Command) (stat : Nat) : Command :=
  match c.collOf with
  | some (_, _, _, _, desc) =>
    { c with wait := .done, stat := stat, tiles := [], close := (c.close || tqen desc) && stat != 12 && stat != 13 }
  | none => c

/-- Whether a command is one of a COLL's: group, version, number and members. -/
def Command.isColl (c : Command) (a ver ord : Nat) (ms : List Member) : Bool :=
  match c.collOf with
  | some (x, v, o, l, _) => x == a && v == ver && o == ord && l == ms
  | none => false

/-- The commands of a partition. -/
def Work.commands (w : Work) : List (Nat × Command) := w.seqs.flatMap fun q => q.cmds.map fun c => (q.id, c)

/-- The commands of a partition that a test accepts, changed. -/
def Work.modCmds (w : Work) (t : Command → Bool) (f : Command → Command) : Work :=
  { w with seqs := w.seqs.map fun q => { q with cmds := updAll t f q.cmds } }

/-- A COLL that fails at partition `p` with a STAT fails with 10 at the other members, and with 13 where descriptors differ or one is
wrong: at those where it waits, and at those where it has not issued yet, when it does (R407). -/
def State.failColl (s : State) (p a ver ord : Nat) (ms : List Member) (stat : Nat) : State :=
  ((ms.filter s.isLocal).map (·.2)).foldl (fun st k =>
    let own := k == p
    let other := if stat = 13 then 13 else 10
    if (st.work k).commands.any fun e => e.2.isColl a ver ord ms then
      st.modWork k fun w => w.modCmds (fun c => c.isColl a ver ord ms) fun c => c.failColl (if own then stat else other)
    else if own then st
    else
      let g := (st.part k).group a
      if g.ver == ver && g.members == ms then
        st.modPart k fun x => { x with groups := put x.groups a { g with bad := put g.bad ord other } }
      else st) s

/-- Whether a command is an EGJOIN or EGLEAVE on a group that waits for its slot. -/
def Command.slotElastic (c : Command) (a : Nat) : Bool :=
  match c.wait with
  | .slot _ op args => (op == .egjoin || op == .egleave) && args.headD 0 == a
  | _ => false

/-- Every COLL that waits in a partition and is bound to a version of a group with a member fails, at every member; one bound to a
version without that member goes on (R336, R404). A join or leave of the group that has not begun fails too. -/
def State.failColls (s : State) (p a : Nat) (m : Member) : State :=
  let now := ((s.part p).group a).members.contains m
  (s.work p).commands.foldl (fun st e =>
    match e.2.collOf with
    | some (x, v, o, ms, _) => if x == a && ms.contains m then st.failColl p a v o ms 10 else st
    | none => if now && e.2.slotElastic a then st.endCmd p e.1 e.2.id 10 else st) s

/-- A MEMBER RECORDED ABSENT (R404): in every partition of this module that holds the instance; COLLs that wait for it fail. One that has
left the group stands in no current version, and only the commands bound to earlier versions fail (R336). -/
def State.recordAbsent (s : State) (p a : Nat) (m : Member) : State :=
  (s.instances p a).foldl (fun st k => (st.markAbsent k a m).failColls k a m) s

/-- The members of a group at a partition: those of its current version, then those of earlier versions for which a COLL or an access still
waits. -/
def State.boundMembers (s : State) (p a : Nat) : List Member :=
  let now := ((s.part p).group a).members
  now ++ (nub (((s.work p).commands.flatMap fun e => match e.2.collOf with
    | some (x, _, _, ms, _) => if x == a then ms else []
    | none => []) ++ (s.fabric.sent.filter fun x => x.p == p && x.group == a).map (·.member))).filter fun m => !now.contains m

/-! ## The port fault queue (R409, R410) -/

/-- The record of a parking or a drop. -/
def State.noteParked (s : State) (p code : Nat) (e : Parked) : State :=
  s.bbWrite code p (portDie p) 3 (e.smodule * 65536 + e.op * 256 + e.cause)

/-- Location 1 − SEL of the directory entry at a physical address: the address and member to which a migration goes (R340, R343). -/
def State.otherLocation (s : State) (pa : Nat) : Nat × Member :=
  let y := 1 - s.mem.read (pa + 32) 4 % 2
  let l := s.mem.read (pa + 8 + 16 * y) 4
  (s.mem.read (pa + 16 * y) 8, (bitsOf l 31 16, bitsOf l 4 0))

/-- The destination of a migration that fails holds unspecified bytes (R413): a free value for every word that can be written there. -/
def State.spoil (s : State) (to_ : Nat × Member) (size : Nat) : State :=
  (upto 0 (size / 4)).foldl (fun st k =>
    let bs := (upto 0 4).map fun i => Config.freeFail (s.tick * 2 ^ 40 + 4 * k + i)
    if s.isLocal to_.2 then
      match st.serveWrite st to_.2.2 3 2 (to_.1 + 4 * k) bs false with
      | .ok s' => s'
      | .error _ => st
    else st.remoteWrite to_.2 (to_.1 + 4 * k) bs false) s

/-- A migration channel fails (R413): MIG is cleared at its entry, its destination is unspecified, and the record is written, on the die of
the copy engine that it had taken (R3). (log 94, DESIGN CHOICE) -/
def State.failChannel (s : State) (p c stat : Nat) : State :=
  let x := (s.part p).channel c
  let s1 := if x.src = 0 then s else
    let pa := x.src - 1
    let s0 := s.spoil (s.otherLocation pa) x.size
    { s0.wrote false [p] 2 [] (pa + 32) 4 with
      mem := s0.mem.write (pa + 32) (bytesOf 4 (s.mem.read (pa + 32) 4 / 8 * 8 + s.mem.read (pa + 32) 4 % 4)) }
  let die := if x.entry = 0 then homeDie p else (x.entry - 1) / 24
  let s2 := if stat = statPoison then s1.bbWrite 0x0202 p die 1 6 else s1
  (s2.modPart p fun y => { y with channels := put y.channels c { x with
    state := 3, stat := stat % 256, entry := 0, src := 0, copied := false, seen := [] } }).bbWrite 0x0320 p die 2
      (c * 256 + stat % 256)

/-- What a dropped access does to its sender (R410). -/
def State.dropAct (s : State) (act : ParkedAct) : State :=
  match act with
  | .write _ _ sp ticket lane => s.writeDone sp ticket lane
  | .read sp wg wid lane ticket i => s.giveMember sp wg wid lane ticket i none
  | .command sp q c =>
    match (s.work sp).seqOf q >>= fun x => x.cmd c with
    | some cmd =>
      match cmd.collOf with
      | some (a, v, o, ms, _) => s.failColl sp a v o ms 2
      | none => s.endCmd sp q c 2
    | none => s
  | .channel sp c => s.failChannel sp c 2
  | .remote _ => s

/-- Whether a partition's port fault queue has no free entry. -/
def State.queueFull (s : State) (p : Nat) : Bool := ((upto 0 64).find? fun k => (find (s.part p).parked k).isNone).isNone

/-- A faulting access is parked in the lowest free entry, or dropped when the queue is full. -/
def State.parkAccess (s : State) (p : Nat) (e : Parked) : State :=
  match (upto 0 64).find? fun k => (find (s.part p).parked k).isNone with
  | some k => (s.modPart p fun x => { x with parked := put x.parked k e, parkedCount := x.parkedCount + 1 }).noteParked p 0x0311 e
  | none => (s.noteParked p 0x0312 e).dropAct e.act

/-- An entry dropped. -/
def State.dropParked (s : State) (p k : Nat) : State :=
  match find (s.part p).parked k with
  | some e => ((s.modPart p fun x => { x with parked := drop x.parked k }).noteParked p 0x0312 e).dropAct e.act
  | none => s

/-- Every entry dropped: a freeze or a tear-down of the serving partition. -/
def State.dropAllParked (s : State) (p : Nat) : State := (s.part p).parked.foldl (fun st e => st.dropParked p e.1) s

/-- Whether a cause parks (R409). -/
def parks (cause : Nat) : Bool := decide (18 ≤ cause) && decide (cause ≤ 23)

/-- An entry for an access that partition `sp` of this module makes. -/
def State.parkedOf (s : State) (sp level va op cause : Nat) (act : ParkedAct) : Parked :=
  ⟨BitVec.ofNat 64 va, s.fabric.module, sp, op, cause, s.time, level, act⟩

/-! ## MLDR and MST -/

/-- An access that waits for the answer of a member on another module. -/
def State.addSent (s : State) (p a va : Nat) (m : Member) (act : ParkedAct) : State :=
  { s with fabric := { s.fabric with sent := s.fabric.sent ++ [⟨p, a, m, va, s.time, act⟩] } }

/-- One member's read for a lane: a value, none while it waits, or the cause that the lane takes: a data error, or what the issuing
partition's own page shows at its home; a fault in another partition parks, or is dropped where the queue is full, which leaves the NaN of
R410 (R385, R386, R409). Page walks read the state `v` (R388). -/
def State.memberRead (s v : State) (p level a va : Nat) (m : Member) (act : ParkedAct) : Except Nat (State × Option Word) :=
  if s.isLocal m then
    match s.serveRead v m.2 level (some 3) va 2 with
    | .ok (bs, false) => .ok (s, some (widen .bf16 (ofBytes bs)))
    | .ok (_, true) => .error causeData
    | .error c =>
      let e := s.parkedOf p level va 1 c act
      if m.2 == p || !parks c then .error c
      else if s.queueFull m.2 then .ok (s.noteParked m.2 0x0312 e, some nan32)
      else .ok (s.parkAccess m.2 e, none)
  else if s.reaches p m then
    if s.remotePoison m va 2 then .error causeData else .ok (s, some (widen .bf16 (ofBytes (s.remoteBytes m va 2))))
  else .ok (s.addSent p a va m act, none)

/-- The reads of every member for a lane, in order. -/
def State.memberReads (s v : State) (p level a va : Nat) (act : Nat → ParkedAct) :
    Nat → List Member → Except Nat (State × List (Option Word))
  | _, [] => .ok (s, [])
  | i, m :: r => do
    let e ← s.memberRead v p level a va m (act i)
    let f ← e.1.memberReads v p level a va act (i + 1) r
    return (f.1, e.2 :: f.2)

/-- One member's write for a lane: 1 while it waits; or the cause that the lane takes, as for a read. -/
def State.memberWrite (s v : State) (p level a va : Nat) (m : Member) (x : Word) (poison : Bool) (act : ParkedAct) :
    Except Nat (State × Nat) :=
  if s.isLocal m then
    match s.serveWrite v m.2 level 3 va (bytesOf 4 x.toNat) poison with
    | .ok s' => .ok (s', 0)
    | .error c =>
      let e := s.parkedOf p level va 0 c act
      if m.2 == p || !parks c then .error c
      else if s.queueFull m.2 then .ok (s.noteParked m.2 0x0312 e, 0)
      else .ok (s.parkAccess m.2 e, 1)
  else if s.reaches p m then .ok (s.remoteWrite m va (bytesOf 4 x.toNat) poison, 0)
  else .ok (s.addSent p a va m act, 1)

/-- The present members' writes for a lane: how many wait. -/
def State.memberWrites (s v : State) (p level a va : Nat) (absent : List Nat) (x : Word) (poison : Bool) (act : ParkedAct) :
    Nat → List Member → Except Nat (State × Nat)
  | _, [] => .ok (s, 0)
  | i, m :: r => do
    let e ← if absent.contains i then pure (s, 0) else s.memberWrite v p level a va m x poison act
    let f ← e.1.memberWrites v p level a va absent x poison act (i + 1) r
    return (f.1, e.2 + f.2)

/-- An address-group address (R219, R295): the group id, and the virtual address displaced within it. -/
def groupAddr (base : DWord) (off : Nat) : Nat × Nat := (base.toNat / 2 ^ 56, (base.toNat + off) % 2 ^ 56)

/-- The checks of one lane's multicast access (R385, R418): the group, the alignment, and those of the member that is the issuing
partition itself. -/
def State.groupCheck (s : State) (c : Ctx) (g : WorkGroup) (w : Warp) (at_ : Nat × Nat) (n : Nat) (k : Kind) (l : Nat) :
    Option (Nat × DWord) :=
  let t : DWord := BitVec.ofNat 64 (at_.1 * 2 ^ 56 + at_.2)
  let x := (s.part c.p).group at_.1
  if !x.valid then some (causeAddress, t)
  else if at_.2 % n ≠ 0 then some (causeAlignment, t)
  else if x.members.contains (s.fabric.module, c.p) then
    (s.accCheck c g w ⟨l, at_.2, n, k, false⟩).map fun e => (e.1, if e.1 = causeWatch then e.2 else t)
  else none

/-- Members of an instance that cannot be reached are recorded absent before the access: those on this module at once (R404). -/
def State.findAbsent (s : State) (p a : Nat) : State :=
  let g := (s.part p).group a
  ((upto 0 g.members.length).zip g.members).foldl (fun st e =>
    if s.isLocal e.2 && !s.reaches p e.2 then st.recordAbsent p a e.2 else st) s

/-- TVAL of a cause that a multicast access finds at the issuing partition's own page. -/
def memberTval (at_ : Nat × Nat) (l cause : Nat) : DWord :=
  if cause = causeData then dataTval 0 l at_.2 else BitVec.ofNat 64 (at_.1 * 2 ^ 56 + at_.2)

/-- Whether a group has an absent member. -/
def State.hasAbsent (s : State) (p a : Nat) : Bool := !((s.part p).group a).absent.isEmpty

/-- The result of an MLDR for one lane, or with `u` for all (R241, R242): the state, and its value or the parts that wait. -/
def State.mldrLane (s : State) (c : Ctx) (g : WorkGroup) (w : Warp) (absent u : Bool) (at_ : Nat × Nat) (l : Nat) :
    Except (Nat × DWord) (State × List (Option Word)) :=
  if absent then .ok (s, [some nan32])
  else
    let x := (s.part c.p).group at_.1
    match s.memberReads (s.walkView c l) c.p (privOf g w) at_.1 at_.2 (fun i => .read c.p c.wg c.wid (if u then l + 32 else l) s.ids i) 0 x.members with
    | .ok r => .ok r
    | .error k => .error (k, memberTval at_ l k)

/-- A lane's result: written in its window, or waiting for members. (log 46, DEDUCED) -/
def mldrResult (t la d : Nat) (hm : Bool) (born : Nat) (ps : List (Option Word)) : Result :=
  if ps.all Option.isSome then ⟨t, la, true, [(d, memberSum ps.length (ps.map fun y => y.getD 0))], [], hm, born⟩
  else ⟨t, la, false, [(d, 0)], ps, hm, born⟩

def execMldr (u : Bool) (l a b x : Nat) (s : State) : Out :=
  withGroup s fun c g w =>
    if 63 ≤ w.loadCount then .next (stall s c)
    else withRegs s c w (c.readers u) [(b, 1)] [(a, 2)] fun _ =>
      let at_ (k : Nat) := groupAddr (w.pair a k) (2 * x)
      let faults := (c.readers u).filterMap fun k => s.groupCheck c g w (at_ k) 2 .read k
      if !faults.isEmpty then .next (raiseTrap s c faults)
      else
        let s0 := (nub ((c.readers u).map fun k => (at_ k).1)).foldl (fun st a => st.findAbsent c.p a) s
        let absent := (c.readers u).any fun k => s0.hasAbsent c.p (at_ k).1
        match loadAll (fun st y => (st.mldrLane c g w absent u (at_ y.lane) y.lane)) s0
            ((c.readers u).map fun k => (⟨k, (at_ k).2, 2, .read, false⟩ : Acc)) with
        | (s1, .ok vs) =>
          .next ((retire s1 c).fresh.modWarp c.p c.wg c.wid fun v => (spread c u vs).foldl (fun y e =>
            y.modLanes [e.1] fun z => { z with results := z.results ++ [mldrResult s.ids l b w.trap.hm s.cycle e.2] }) v)
        | (s1, .error t) => .next (raiseTrap s1.fresh c [t])

/-- MST moves bytes: a poisoned value travels with its poison (R403). -/
def execMst (u : Bool) (_l a b x : Nat) (s : State) : Out :=
  withGroup s fun c g w =>
    if 63 ≤ (s.work c.p).storeCount c.wg c.wid then .next (stall s c)
    else
      match (match regCheck c w [(a, 2), (b, 1)] with
        | some t => some t
        | none => poisonCheck w (c.readers u) [(a, 2)]) with
      | some t => .next (raiseTrap s c [t])
      | none =>
        let at_ (k : Nat) := groupAddr (w.pair a k) (4 * x)
        let faults := (c.readers u).filterMap fun k => s.groupCheck c g w (at_ k) 4 .write k
        if !faults.isEmpty then .next (raiseTrap s c faults)
        else
          let s0 := (nub ((c.readers u).map fun k => (at_ k).1)).foldl (fun st a => st.findAbsent c.p a) s
          match storeAll (fun st y =>
              let k := y.lane
              let gr := (st.part c.p).group (at_ k).1
              let poison := w.poison.contains (regKey b k)
              match st.memberWrites (st.walkView c k) c.p (privOf g w) (at_ k).1 (at_ k).2 gr.absent (w.reg b k) poison
                  (.write (w.reg b k) poison c.p s.ids k) 0 gr.members with
              | .ok e => .ok (e.1.addStore c ⟨s.ids, e.2, c.wg, c.wid, k, privOf g w, false, false, [], none, w.trap.hm⟩)
              | .error t => .error (t, memberTval (at_ k) k t)) s0
              ((c.readers u).map fun k => (⟨k, (at_ k).2, 4, .write, false⟩ : Acc)) with
          | (s1, none) => .next (retire s1.fresh c)
          | (s1, some t) => .next (raiseTrap s1.fresh c [t])

/-! ## Answers, expiry, timeouts (R404, R410) -/

/-- A member's word that an MLDR waited for, with its poison, given to the lane's result, or to those of every lane (R62): poison raises the
data error (R403). -/
def State.giveRead (s : State) (sp wg wid lane ticket i va : Nat) (r : List Byte × Bool) : State :=
  if r.2 then
    ((s.notePoison sp wg [(causeData, 0)]).giveMember sp wg wid lane ticket i none).modWork sp fun w => w.modAnyWg wg fun g =>
      (g.modWarp wid fun y => { y with trap := y.trap.raise causeData (dataTval 0 (lane % 32) va) }).halted wid
  else s.giveMember sp wg wid lane ticket i (some (widen .bf16 (ofBytes r.1)))

/-- An access that has stood parked for a millisecond of fabric time is dropped. -/
def execParkedExpiry (s : State) : Out :=
  .next (match find (s.part (s.arg 0)).parked (s.arg 1) with
    | some e => if e.ptime + 1000000 ≤ s.time then s.dropParked (s.arg 0) (s.arg 1) else s
    | none => s)

/-- What an access does once a member on another module answers. -/
def State.answerSent (s : State) (x : Sent) : State :=
  match x.act with
  | .write v poison sp ticket lane => (s.remoteWrite x.member x.va (bytesOf 4 v.toNat) poison).writeDone sp ticket lane
  | .read sp wg wid lane ticket i =>
    s.giveRead sp wg wid lane ticket i x.va (s.remoteBytes x.member x.va 2, s.remotePoison x.member x.va 2)
  | _ => s

/-- The accesses that wait are performed at the members that are reached again: a port carries the partition's traffic once more (R349), or
the module answers. -/
def State.resumeSent (s : State) : State :=
  let due (x : Sent) : Bool := s.reaches x.p x.member
  (s.fabric.sent.filter due).foldl State.answerSent { s with fabric := { s.fabric with sent := s.fabric.sent.filter fun x => !due x } }

/-- Accesses that wait for a member's answer fail. -/
def State.failSent (s : State) (p a : Nat) (m : Member) : State :=
  let mine (x : Sent) : Bool := x.p == p && x.group == a && x.member == m
  (s.fabric.sent.filter mine).foldl (fun st x => st.dropAct x.act)
    { s with fabric := { s.fabric with sent := s.fabric.sent.filter fun x => !mine x } }

/-- MEMBER_ABSENT_TIMEOUT: a member that does not answer, of the current version or of one to which a waiting COLL is bound, is recorded
absent; one on another module once an access or a COLL has gone 16 µs without an answer (R336, R404). -/
def execMemberAbsentTimeout (s : State) : Out :=
  let p := s.arg 0
  let a := s.arg 1
  let i := s.arg 2
  .next (match (s.boundMembers p a)[i]? with
    | none => s
    | some m =>
      let waits := (s.fabric.sent.any fun x => x.p == p && x.group == a && x.member == m && decide (x.since + 16000 ≤ s.time)) ||
        (s.work p).commands.any fun e => match e.2.wait with
          | .coll x _ _ ms _ => x == a && ms.contains m && decide (e.2.since + 16000 ≤ s.time)
          | _ => false
      if !s.lost p m || !(s.isLocal m || waits) then s else (s.recordAbsent p a m).failSent p a m)

/-- SWITCH_UNREACHABLE: a member whose only path crossed the switch is made absent (R406). -/
def execSwitchUnreachable (s : State) : Out :=
  let p := s.arg 0
  let a := s.arg 1
  .next (match ((s.part p).group a).members[s.arg 2]? with
    | some m => (s.recordAbsent p a m).failSent p a m
    | none => s)

/-- SWITCH_RESET: instances that lose their slots keep RSLOT; the record counts them (R406). -/
def execSwitchReset (s : State) : Out :=
  let held := (s.parts.map fun e => (e.2.groups.filter fun g => g.2.rslot == 1).length).foldl (· + ·) 0
  .next (s.bbWrite 0x0314 31 0 3 (min (s.arg 0) held % 65536))

/-! ## The fabric itself (R333, R408) -/

/-- FABRIC_FORMATION: the module's id and the slot width, a multiple of 125 ns up to 8,000; further operands list, two by two, the
partitions of other modules that answer. Ids go up to 0xFFFE, and no other module has this one's (R326). Accesses that wait for a member
which answers now are performed. -/
def execFabricFormation (s : State) : Out :=
  let w := s.arg 1
  let peer (x : List Nat) : Remote :=
    match s.remote (x.getD 0 0, x.getD 1 0) with
    | some r => { r with up := true }
    | none => ⟨x.getD 0 0, x.getD 1 0, true, [], []⟩
  let peers := (pieces 2 s.args.length (s.args.drop 2)).map peer
  let names := peers.map fun r => (r.module, r.part)
  let fine := decide (s.arg 0 < 0xFFFF) && (names.all fun m => decide (m.1 < 0xFFFF) && m.1 != s.arg 0 && decide (m.2 < 28)) &&
    (nub names).length == names.length
  .next (if !fine ∨ w = 0 ∨ w % 125 ≠ 0 ∨ 8000 < w then s
    else ({ s with fabric := { s.fabric with module := s.arg 0, slot := w, remotes := peers } }).resumeSent)

/-- A CLKLOCK that waited completes: the handler's own, with a waiter of no lanes, goes on past it, and its windows shrink (R153). -/
def State.endClock (s : State) (p : Nat) (x : Waiter) : State :=
  if x.lanes.isEmpty then
    (s.modWork p fun w => { w with waiters := w.waiters.filter fun y => y != x }).modWarp p x.wg x.wid fun v =>
      { v with trap := { v.trap with hcur := v.trap.hcur.past 1 }, retired := v.retired + 1,
               lanes := mapLanes (upto 0 32) Lane.handled 0 v.lanes }
  else s.releaseWaiter p x []

/-- The CLKLOCKs of a partition that wait. -/
def Work.clocks (w : Work) : List Waiter :=
  w.waiters.filter fun x => match x.kind with
    | .clklock _ => true
    | _ => false

/-- The CLKLOCKs of a partition complete. -/
def State.endClocks (s : State) (p : Nat) : State := (s.work p).clocks.foldl (fun st x => st.endClock p x) s

/-- Clock locks and their requests are lost: a CLKLOCK that waited completes with the error (R308, R408). -/
def State.loseLocks (s : State) : State :=
  s.parts.foldl (fun st e =>
    let lost := e.2.clk.mhz != 0 || !(st.work e.1).clocks.isEmpty
    (st.modPart e.1 fun x => { x with clk := ⟨x.clk.err || lost, x.clk.group, 0, none⟩ }).endClocks e.1) s

/-- Whether a command waits for its slot. -/
def Command.slotted (c : Command) : Bool :=
  match c.wait with
  | .slot _ _ _ => true
  | _ => false

/-- The commands that wait for a slot fail with STAT 11, a COLL at the other members with 10 (R407, R408). -/
def State.missSlots (s : State) : State :=
  let colls := s.works.flatMap fun e => e.2.commands.filterMap fun c =>
    if c.2.slotted then c.2.collOf.map fun y => (e.1, y) else none
  let s1 := s.works.foldl (fun st e => e.2.commands.foldl (fun st c =>
    if !c.2.slotted then st
    else if c.2.collOf.isSome then st.modCmd e.1 c.1 c.2.id fun y => y.failColl 11
    else st.endCmd e.1 c.1 c.2.id 11) st) s
  colls.foldl (fun st e => st.failColl e.1 e.2.1 e.2.2.1 e.2.2.2.1 e.2.2.2.2.1 11) s1

/-- TIME_DOMAIN_LEAVE (R408). -/
def execTimeDomainLeave (s : State) : Out :=
  .next (if s.fabric.inDomain then
    (({ s with fabric := { s.fabric with inDomain := false } }.loseLocks).missSlots).bbWrite 0x0313 31 0 3 1 else s)

/-- TIME_DOMAIN_REJOIN (R408). -/
def execTimeDomainRejoin (s : State) : Out :=
  .next (if s.fabric.inDomain then s else ({ s with fabric := { s.fabric with inDomain := true } }).bbWrite 0x0313 31 0 3 0)

end Sys2Proof.Machine
end

