-- ==== Sys2Proof/Machine/Tiles.lean ====
section
/-!
DEFINITION. Accumulator tiles (R116 to R119): add events with renormalisation, readout, headroom, and the staged operands in the scratchpad
(R245 to R249).
-/
namespace Sys2Proof.Machine

/-! ## Rows (R116, R118, R119) -/

/-- Bits of a natural number. -/
def natLen (n : Nat) : Nat := if n = 0 then 0 else Nat.log2 n + 1
/-- The smallest b with −2^b ≤ x < 2^b (R116). -/
def sigBits (x : Int) : Nat := if 0 ≤ x then natLen x.toNat else natLen (-x - 1).toNat

/-- 39 minus the largest SigBits (R116). -/
def headroom (m : List Int) : Int := 39 - ((m.map sigBits).foldl max 0 : Nat)
def TileRow.headroom (r : TileRow) : Nat := (Machine.headroom r.m).toNat

/-- x / 2^n rounded to the nearest integer, ties to even. -/
def rneShift (x : Int) (n : Nat) : Int :=
  let q := x / 2 ^ n
  let r := x % 2 ^ n
  if 2 * r < 2 ^ n then q else if 2 ^ n < 2 * r then q + 1 else if q % 2 = 0 then q else q + 1

/-- One column of an add event: an exact integer and its exponent (R117). -/
abbrev Pair := Int × Int

/-- The addend of a column under the row's exponent, and whether bits are lost. -/
def addend (e : Int) (x : Pair) : Int × Bool :=
  if e ≤ x.2 then (x.1 * 2 ^ (x.2 - e).toNat, false)
  else
    let k := (e - x.2).toNat
    (x.1 / 2 ^ k, decide (x.1 % 2 ^ k ≠ 0))

/-- An add event (R118). Every pass that shifts raises E, so the passes are bounded; `fuel` is that bound. -/
def TileRow.addEvent (h : Nat) (xs : List Pair) : Nat → TileRow → TileRow
  | 0, r => r
  | fuel + 1, r =>
    if r.n then r
    else
      let as := xs.map (addend r.e)
      let sums := (r.m.zip as).map fun y => y.1 + y.2.1
      let hr := Machine.headroom sums
      if (h : Int) ≤ hr then { r with m := sums, l := if as.any (·.2) then min (r.l + 1) 65535 else r.l }
      else
        let n := (h - hr).toNat
        if 2047 < r.e + n then { r with n := true }
        else TileRow.addEvent h xs fuel { r with m := r.m.map fun x => rneShift x n, e := r.e + n }

/-- A port step on a row: an invalid group's, or an add event (R117). -/
inductive Event where
  | invalid
  | add (xs : List Pair)
  deriving DecidableEq, Repr

def TileRow.apply (h : Nat) (r : TileRow) : Event → TileRow
  | .invalid => { r with n := true }
  | .add xs => r.addEvent h xs 5000

/-- A reset row (R254). -/
def TileRow.reset (einit : Int) : TileRow := { TileRow.zero with e := einit }

/-- An element as ACCRD reads it, in the output format (R119). -/
def TileRow.read (r : TileRow) (ofmt j : Nat) : Nat :=
  let f := if ofmt = 1 then Fmt.bf16 else Fmt.f32
  if r.n then f.nanCode else f.round ((FVal.ofInt (r.m.getD j 0)).scale r.e)

/-- A row normalised (R261). -/
def TileRow.norm (h : Nat) (r : TileRow) : TileRow :=
  if r.n then r
  else
    let n : Nat := if h < r.headroom then min (r.headroom - h) (r.e + 2048).toNat else 0
    { r with m := r.m.map fun x => x * 2 ^ n, e := r.e - n }

/-- The rows of a tile from `lo` on, `n` of them, changed. -/
def Tile.modRows (t : Tile) (lo n : Nat) (f : Nat → TileRow → TileRow) : Tile :=
  { t with rows := ((upto 0 t.rows.length).zip t.rows).map fun e =>
      if lo ≤ e.1 ∧ e.1 < lo + n then f (e.1 - lo) e.2 else e.2 }

/-- A configuration word (R253), whose fields have passed. -/
def Tile.config (t : Tile) (w : Nat) : Tile :=
  let einit := signed 12 (bitsOf w 27 16)
  { t with h := bitsOf w 4 0, einit := einit, ofmt := bitsOf w 29 28,
           rows := t.rows.map fun r => if !r.n && r.m.all (· == 0) then { r with e := einit } else r }

/-! ## Operand blocks (R249) -/

structure OpBlock where
  nstep : Nat
  pa : Nat
  pb : Nat
  abase : Nat
  bbase : Nat
  aexp : Nat
  bexp : Nat
  aout : Nat
  bout : Nat
  spd : Nat
  astep : Nat
  bstep : Nat
  deriving DecidableEq, Repr

/-- The formats of R249, and whether one is plain. -/
def blockFormat (c : Nat) : Bool := [0x14, 0x16, 0x26, 0x42, 0x43, 0x44, 0x45, 0x46, 0x47, 0x48, 0x81, 0x82].contains c
def plainFormatCode (c : Nat) : Bool := c == 0x48 || c == 0x81 || c == 0x82

/-- The block of 64 bytes given as a number; none is the operand-block fault. -/
def opBlock (v : Nat) (sparse : Bool) : Option OpBlock :=
  let w (off : Nat) : Nat := recWord v off
  let fa := bitsOf (w 0) 31 24
  let fb := bitsOf (w 0) 23 16
  let b : OpBlock := ⟨bitsOf (w 0) 15 8, bitsOf (w 0) 7 4, bitsOf (w 0) 3 0, w 4, w 8, w 12, w 16, w 20, w 24, w 28, w 32, w 36⟩
  if blockFormat fa && blockFormat fb && b.nstep != 0 && decide (2 ≤ b.pa) && decide (b.pa ≤ 8) && decide (2 ≤ b.pb) &&
      decide (b.pb ≤ 8) && ([b.abase, b.bbase, b.aexp, b.bexp, b.aout, b.bout, b.spd].all fun x => decide (x < 2 ^ 25)) &&
      b.abase % 128 == 0 && b.bbase % 128 == 0 && b.aexp % 4 == 0 && b.bexp % 4 == 0 && b.aout % 64 == 0 && b.bout % 64 == 0 &&
      (b.aout == 0 || !plainFormatCode fa) && (b.bout == 0 || !plainFormatCode fb) && b.spd % 8 == 0 && (!sparse || b.spd != 0) &&
      b.astep % 128 == 0 && b.bstep % 128 == 0 && v / 2 ^ 320 == 0 then some b else none

/-! ## Staged operands (R245 to R248) -/

/-- The integer of an element from its planes, given as numbers; `i` is its bit in each (R245). -/
def stagedInt : List Nat → Nat → Int
  | [], _ => 0
  | [p], i => if p.testBit i then -1 else 0
  | p :: r, i => (if p.testBit i then 1 else 0) + 2 * stagedInt r i

/-- An exponent entry: invalid, and its exponent; none is a bad format (R246). -/
def expEntry (v : Nat) : Option (Bool × Int) :=
  let g := signed 9 (bitsOf v 8 0)
  if bitsOf v 14 9 ≠ 0 then none
  else if v.testBit 15 then some (true, 0)
  else if g < -144 ∨ 142 < g then none else some (false, g)

/-- An outlier: its value m × 2^x, none when it is not finite (R259). -/
abbrev Outlier := Option (Int × Int)
def outlierOf (c : Nat) : Outlier :=
  let e := c / 128 % 256
  let sign (m : Nat) : Int := if c / 32768 % 2 = 1 then -(m : Int) else m
  if e = 255 then none
  else if e = 0 then some (sign (c % 128), -133) else some (sign (128 + c % 128), (e : Int) - 134)

/-- An outlier record: values by index, later entries replacing earlier ones; none is a bad format (R247). -/
def outlierRecord (v : Nat) : Option (Map Outlier) :=
  let byte (i : Nat) : Nat := v / 2 ^ (8 * i) % 256
  let c := byte 0
  if 15 < c ∨ (upto 0 c).any (fun i => decide (63 < byte (4 + 4 * i))) = true then none
  else some ((upto 0 c).foldl (fun m i => put m (byte (4 + 4 * i)) (outlierOf (byte (6 + 4 * i) + 256 * byte (7 + 4 * i)))) [])

/-- What one matrix step reads: planes, exponent entries by 2r + h, outlier records by 2r + h, the sparsity descriptor. -/
structure Step where
  a : List Nat
  b : List Nat
  ga : List (Bool × Int)
  gb : List (Bool × Int)
  oa : List (Map Outlier)
  ob : List (Map Outlier)
  spd : Option Nat
  deriving DecidableEq, Repr

def Step.live (x : Step) (j v : Nat) : Bool :=
  match x.spd with
  | some d => d.testBit (8 * j + v)
  | none => true
/-- Pos(j, v, i) of a descriptor (R248). -/
def spdPos (d j v i : Nat) : Nat := d / 2 ^ (8 * (64 + 16 * j + 2 * v) + 2 * i) % 4
/-- Whether the pairs of every live vector rise (R248). -/
def spdOk (d : Nat) : Bool :=
  (upto 0 64).all fun j => (upto 0 8).all fun v =>
    !d.testBit (8 * j + v) || (upto 0 4).all fun g => decide (spdPos d j v (2 * g) < spdPos d j v (2 * g + 1))

/-! ## Products (R256, R257, R259) -/

/-- The sum of staged products for row r and column j over half h (R256). -/
def Step.dense (x : Step) (h r j : Nat) : Int :=
  ((upto (64 * h) 64).map fun k =>
    if x.live j (k / 16) then stagedInt x.a (128 * r + k) * stagedInt x.b (128 * j + k) else 0).foldl (· + ·) 0

/-- The same with compressed B (R257). -/
def Step.sparse (x : Step) (h r j : Nat) : Int :=
  ((upto (4 * h) 4).flatMap fun v => (upto 0 8).map fun i =>
    match x.spd with
    | some d =>
      if d.testBit (8 * j + v) then
        stagedInt x.a (128 * r + (16 * v + 4 * (i / 2) + spdPos d j v i)) * stagedInt x.b (64 * j + (8 * v + i))
      else 0
    | none => 0).foldl (· + ·) 0

/-- The main event of row r over half h. -/
def Step.main (x : Step) (comp : Bool) (h r : Nat) : Event :=
  let ga := x.ga.getD (2 * r + h) (false, 0)
  let gbs := (upto 0 64).map fun j => x.gb.getD (2 * j + h) (false, 0)
  if ga.1 || gbs.any (·.1) then .invalid
  else .add (((upto 0 64).zip gbs).map fun e =>
    (if comp then x.sparse h r e.1 else x.dense h r e.1,
      ga.2 - ((x.a.length : Int) - 2) + e.2.2 - ((x.b.length : Int) - 2)))

/-- The A-outlier events of row r over half h, in rising index (R259). (log 53, DEDUCED) -/
def Step.aEvents (x : Step) (h r : Nat) : List Event :=
  (x.oa.getD (2 * r + h) []).map fun o =>
    match o.2 with
    | none => .invalid
    | some (m, e) => .add ((upto 0 64).map fun j =>
        let gb := x.gb.getD (2 * j + h) (false, 0)
        let k := 64 * h + o.1
        if !x.live j (k / 16) then (0, 0)
        else
          match find (x.ob.getD (2 * j + h) []) o.1 with
          | some (some (mb, eb)) => (m * mb, e + eb)
          | some none => (0, 0)
          | none => (m * stagedInt x.b (128 * j + k), e + gb.2 - ((x.b.length : Int) - 2)))

/-- The B-outlier events that row r sees over half h, in rising column and index (R252, R259). -/
def Step.bEvents (x : Step) (h r : Nat) : List Event :=
  (upto 0 64).flatMap fun j => (x.ob.getD (2 * j + h) []).filterMap fun o =>
    let k := 64 * h + o.1
    match o.2 with
    | none => some .invalid
    | some (m, e) =>
      if (find (x.oa.getD (2 * r + h) []) o.1).isSome then none
      else
        let p := if x.live j (k / 16) then stagedInt x.a (128 * r + k) * m else 0
        let ga := x.ga.getD (2 * r + h) (false, 0)
        some (.add ((upto 0 64).map fun c => if c = j then (p, ga.2 - ((x.a.length : Int) - 2) + e) else (0, 0)))

/-- The port steps of row r for a step, in their order (R252). `kind`: 0 MMA, 1 MMAS, 2 MMAO. -/
def Step.events (x : Step) (kind r : Nat) : List Event :=
  (upto 0 2).flatMap fun h =>
    x.main (kind == 1) h r :: (if kind = 2 then x.aEvents h r ++ x.bEvents h r else [])

end Sys2Proof.Machine
end

