-- ==== Sys2Proof/Machine/Matrix.lean ====
section
/-!
DEFINITION. The commands of the matrix class (R250 to R264): their checks at issue, what they read of the scratchpad, and their effect on
the tiles.
-/
namespace Sys2Proof.Machine

/-! ## The owning work-group's space (R250) -/

/-- The core of a sequencer's work-group. -/
def State.seqCore (s : State) (p : Nat) (q : Seq) : Nat :=
  match (s.work p).anyWg q.wg with
  | some g => g.core
  | none => 32 * q.cluster

/-- `n` bytes of the own space in units of `unit`, as the matrix path finds them, with whether any is poisoned; none is the
scratchpad-range fault. -/
def State.ownBytes (s : State) (p wg unit : Nat) : Nat → Nat → Option (List Byte × Bool)
  | _, 0 => some ([], false)
  | a, n + 1 =>
    match s.seqSpad p wg true a unit, s.ownBytes p wg unit (a + unit) n with
    | some k, some r => some (s.lateBytes true (findsOn (some 1)) k unit ++ r.1, s.spad.poisoned k unit || r.2)
    | _, _ => none

/-- A number of `n` bytes of the own space, aligned to `unit`. -/
def State.ownNat (s : State) (p wg unit a n : Nat) : Option (Nat × Bool) :=
  (s.ownBytes p wg unit a (n / unit)).map fun r => (ofBytes r.1, r.2)

/-- Several numbers, one after another. -/
def State.ownNats (s : State) (p wg unit : Nat) (l : List (Nat × Nat)) : Option (List Nat × Bool) :=
  l.foldr (fun e acc =>
    match s.ownNat p wg unit e.1 e.2, acc with
    | some v, some r => some (v.1 :: r.1, v.2 || r.2)
    | _, _ => none) (some ([], false))

/-! ## Reading a step (R245 to R248, R264) -/

/-- Bytes of one B plane. -/
def bPlane (kind : Nat) : Nat := if kind = 1 then 512 else 1024

/-- The planes of step k, A's then B's, as address and length. -/
def OpBlock.planes (b : OpBlock) (kind k : Nat) : List (Nat × Nat) :=
  ((upto 0 b.pa).map fun i => (b.abase + k * b.astep + 1024 * i, 1024)) ++
  ((upto 0 b.pb).map fun i => (b.bbase + k * b.bstep + bPlane kind * i, bPlane kind))
/-- The exponent arrays of step k. -/
def OpBlock.arrays (b : OpBlock) (k : Nat) : List (Nat × Nat) := [(b.aexp + 256 * k, 256), (b.bexp + 256 * k, 256)]
/-- The outlier records that step k reads. -/
def OpBlock.records (b : OpBlock) (kind k : Nat) : List (Nat × Nat) :=
  let one (base : Nat) : List (Nat × Nat) :=
    if kind = 2 ∧ base ≠ 0 then (upto 0 128).map fun i => (base + 8192 * k + 64 * i, 64) else []
  one b.aout ++ one b.bout
/-- The sparsity descriptor of step k. -/
def OpBlock.sparsity (b : OpBlock) (k : Nat) : List (Nat × Nat) := if b.spd = 0 then [] else [(b.spd + 1088 * k, 1088)]
/-- What step k reads of it: MMAS the whole of it, MMA and MMAO its LIVE bytes only (R248, R256). -/
def OpBlock.sparsityRead (b : OpBlock) (kind k : Nat) : List (Nat × Nat) :=
  if b.spd = 0 then [] else [(b.spd + 1088 * k, if kind = 1 then 1088 else 64)]

/-- Whether every byte of every step lies in the own space: of the descriptor all 1,088 bytes, also those that MMA and MMAO do not read,
and outlier records only for MMAO. (log 95, DEDUCED) -/
def State.stepsInSpace (s : State) (p wg kind : Nat) (b : OpBlock) : Bool :=
  (upto 0 b.nstep).all fun k =>
    (s.ownNats p wg 64 (b.planes kind k ++ b.records kind k)).isSome && (s.ownNats p wg 4 (b.arrays k)).isSome &&
      (s.ownNats p wg 8 (b.sparsity k)).isSome

/-- The entries of an exponent array, when all are well formed. -/
def entriesOf (v : Nat) : Option (List (Bool × Int)) :=
  (upto 0 128).foldr (fun i acc =>
    match expEntry (v / 2 ^ (16 * i) % 65536), acc with
    | some e, some r => some (e :: r)
    | _, _ => none) (some [])

/-- The records of a list, when all are well formed. -/
def recordsOf (l : List Nat) : Option (List (Map Outlier)) :=
  l.foldr (fun v acc =>
    match outlierRecord v, acc with
    | some e, some r => some (e :: r)
    | _, _ => none) (some [])

/-- What the array reads for step k, as numbers: planes, exponent arrays, outlier records, sparsity descriptor; and whether any of it is
poisoned (R403). -/
def State.readStep (s : State) (p wg kind : Nat) (b : OpBlock) (k : Nat) : Option (List Nat × Bool) := do
  let planes ← s.ownNats p wg 64 (b.planes kind k)
  let arrays ← s.ownNats p wg 4 (b.arrays k)
  let recs ← s.ownNats p wg 64 (b.records kind k)
  let sp ← s.ownNats p wg 8 (b.sparsityRead kind k)
  return (planes.1 ++ arrays.1 ++ recs.1 ++ sp.1, planes.2 || arrays.2 || recs.2 || sp.2)

/-- The step in what has been read for it; none is a bad format (R246 to R248, R264). -/
def OpBlock.stepOf (b : OpBlock) (kind : Nat) (data : List Nat) : Option Step := do
  let planes := data.take (b.pa + b.pb)
  let rest := data.drop (b.pa + b.pb)
  let recs := (rest.drop 2).take (b.records kind 0).length
  let ga ← entriesOf (rest.getD 0 0)
  let gb ← entriesOf (rest.getD 1 0)
  let na := if b.aout = 0 then 0 else 128
  let oa ← recordsOf (recs.take na)
  let ob ← recordsOf (recs.drop na)
  let spd := rest[2 + recs.length]?
  if kind = 1 ∧ !(spd.all spdOk) then none
  else some ⟨planes.take b.pa, planes.drop b.pa, ga, gb, oa, ob, spd⟩

/-! ## Tiles of a core -/

def State.tile (s : State) (core t : Nat) : Tile := (s.coreOf core).tiles.getD t Tile.zero
def State.setTile (s : State) (core t : Nat) (x : Tile) : State := s.modCore core fun c => { c with tiles := c.tiles.set t x }

/-- Whether a work-group owns the tiles of its core (R64). -/
def State.ownsTiles (s : State) (p : Nat) (q : Seq) : Bool := (s.coreOf (s.seqCore p q)).owner == q.wg

/-- Step k of a product is read, and none of its port steps has been applied; or the command ends: it has no more steps, the step does
not read, or its issuer does not own the tiles (R264). -/
def State.productStep (s : State) (p : Nat) (q : Seq) (cid kind t v k : Nat) : State :=
  match opBlock v (kind == 1) with
  | none => s.endCmd p q.id cid 14
  | some b =>
    if b.nstep ≤ k then s.endCmd p q.id cid 0
    else
      match s.readStep p q.wg kind b k with
      | none => s.endCmd p q.id cid 5
      | some (_, true) => s.endCmd p q.id cid statPoison
      | some (data, false) =>
        if (b.stepOf kind data).isNone then s.endCmd p q.id cid 6
        else if k = 0 ∧ s.ownsTiles p q = false then s.endCmd p q.id cid 9
        else s.modCmd p q.id cid fun c => { c with wait := .product kind t v k data (List.replicate 64 0) }

/-- MMA, MMAS and MMAO by kind, from the sequencer or as a follow-on (R256, R257, R259), up to the first port step: the checks in the order
of their table, and the reading of step 0 (R264). -/
def State.productBegin (s : State) (p : Nat) (q : Seq) (cid kind t block : Nat) : State :=
  if block % 64 ≠ 0 then s.endCmd p q.id cid 14
  else
    match s.ownNat p q.wg 64 block 64 with
    | none => s.endCmd p q.id cid 5
    | some (_, true) => s.endCmd p q.id cid statPoison
    | some (v, false) =>
      match opBlock v (kind == 1) with
      | none => s.endCmd p q.id cid 14
      | some b => if !s.stepsInSpace p q.wg kind b then s.endCmd p q.id cid 5 else s.productStep p q cid kind t v 0

/-- How many of the port steps that are left a row takes in one turn, given by the number left for every row: any number, and all of them
where the free values give none to any row (R120, R252). (log 22, DESIGN CHOICE) -/
def portSteps (seed : Nat) (left : List Nat) : List Nat :=
  let some_ := ((upto 0 left.length).zip left).map fun e => min e.2 (Config.freeNat (seed * 64 + e.1))
  if some_.all (· == 0) then left else some_

/-- A turn of a product: every row takes some of its port steps of the step that has been read, in their order; after the last the next
step is read. -/
def State.productTurn (s : State) (p : Nat) (q : Seq) (cid kind t v k : Nat) (data done : List Nat) : State :=
  match (opBlock v (kind == 1)) >>= fun b => b.stepOf kind data with
  | none => s.endCmd p q.id cid 6
  | some x =>
    let core := s.seqCore p q
    let y := s.tile core t
    let left := ((upto 0 64).zip done).map fun e => (x.events kind e.1).drop e.2
    let n := portSteps s.tick (left.map (·.length))
    let rows := (y.rows.zip (left.zip n)).map fun e => (e.2.1.take e.2.2).foldl (TileRow.apply y.h) e.1
    let s1 := s.setTile core t { y with rows := rows }
    let over_ := (left.zip n).all fun e => decide (e.1.length ≤ e.2)
    if over_ then s1.productStep p q cid kind t v (k + 1)
    else s1.modCmd p q.id cid fun c => { c with wait := .product kind t v k data ((done.zip n).map fun e => e.1 + e.2) }

/-! ## Effects of the other tile commands -/

/-- A rows word's fields (R250): first row and count, when it passes. -/
def rowsOf (w : Nat) : Option (Nat × Nat) :=
  let row := bitsOf w 5 0
  let n := bitsOf w 14 8
  if w / 2 ^ 15 ≠ 0 ∨ bitsOf w 7 6 ≠ 0 ∨ n = 0 ∨ 64 < row + n then none else some (row, n)

/-- An FP32 value as an add event's column (R255). -/
def twrPair (v : Nat) : Pair :=
  let e : Nat := v / 2 ^ 23 % 256
  let sign (m : Nat) : Int := if v / 2 ^ 31 % 2 = 1 then -(m : Int) else m
  if e = 0 then (sign (v % 2 ^ 23), -149) else (sign (2 ^ 23 + v % 2 ^ 23), (e : Int) - 150)

/-- A row written from 64 values (R255). -/
def twrRow (t : Tile) (vs : List Nat) : TileRow :=
  if vs.any fun v => v / 2 ^ 23 % 256 == 255 then { TileRow.reset t.einit with n := true }
  else (TileRow.reset t.einit).apply t.h (.add (vs.map twrPair))

/-- TWR of rows from `lo`, `n` of them: the state and the STAT. -/
def State.tileWrite (s : State) (p : Nat) (q : Seq) (t base lo n : Nat) : State × Nat :=
  let core := s.seqCore p q
  match s.ownNats p q.wg 4 ((upto 0 (64 * n)).map fun i => (base + 4 * i, 4)) with
  | none => (s, 5)
  | some (_, true) => (s, statPoison)
  | some (vs, false) =>
    let x := s.tile core t
    let rows := pieces 64 (64 * n) vs
    (s.setTile core t (x.modRows lo n fun i _ => twrRow x (rows.getD i [])), 0)

/-- ACCRD of rows from `lo`, `n` of them, and the reset of ACCRD.CLR in the same port step (R260). -/
def State.tileRead (s : State) (p : Nat) (q : Seq) (clear : Bool) (t base lo n : Nat) : State × Nat :=
  let core := s.seqCore p q
  let x := s.tile core t
  let size := if x.ofmt = 1 then 2 else 4
  match s.ownNats p q.wg 4 ((upto 0 (16 * size * n)).map fun i => (base + 4 * i, 4)) with
  | none => (s, 5)
  | some _ =>
    let bytes := ((x.rows.drop lo).take n).flatMap fun r => (upto 0 64).flatMap fun j => bytesOf size (r.read x.ofmt j)
    let s1 := ((upto 0 (16 * size * n)).zip (pieces 4 bytes.length bytes)).foldl (fun st e =>
      match st.seqSpad p q.wg true (base + 4 * e.1) 4 with
      | some k => { st.wrote true [p] 1 [] k 4 with spad := st.spad.write k e.2 }
      | none => st) s
    (if clear then s1.setTile core t (x.modRows lo n fun _ _ => TileRow.reset x.einit) else s1, 0)

/-- THE EFFECT of a matrix command with its operands as read at issue, the tile first: the state and the STAT. Products take turns of their
own (`productTurn`). -/
def State.matrixRun (s : State) (p : Nat) (q : Seq) (op : CmdOp) (args : List Nat) : State × Nat :=
  let core := s.seqCore p q
  let t := args.getD 0 0
  let a := args.getD 1 0
  let lo := args.getD 2 0
  let n := args.getD 3 64
  let x := s.tile core t
  if !s.ownsTiles p q then (s, 9)
  else
    match op with
    | .tcfg => (s.setTile core t (x.config a), 0)
    | .tzero => (s.setTile core t (x.modRows lo n fun _ _ => TileRow.reset x.einit), 0)
    | .twr => s.tileWrite p q t a lo n
    | .accrd clear => s.tileRead p q clear t a lo n
    | .accnorm => (s.setTile core t (x.modRows lo n fun _ r => r.norm x.h), 0)
    | _ => (s, 0)

/-! ## Issue -/

/-- The tile that a matrix command of a sequencer names. -/
def Command.tile (c : Command) : Option Nat :=
  match c.wait with
  | .todo op args =>
    match op with
    | .tcfg => args.head?
    | .tzero => args.head?
    | .twr => args.head?
    | .mma => args.head?
    | .mmas => args.head?
    | .mmao => args.head?
    | .accrd _ => args.head?
    | .accnorm => args.head?
    | _ => none
  | .product _ t _ _ _ _ => some t
  | _ => none

/-- Whether a command comes before another of its sequencer on the same tile (R252). -/
def Seq.tileBefore (q : Seq) (cid t : Nat) : Bool := (q.cmds.takeWhile (·.id != cid)).any fun c => c.tile == some t

/-- Runs a tile command's issue once its fields pass (R250, R264); a full engine counter holds it. -/
def withTile (s : State) (t : Nat) (us : List SUse) (k : Nat → Seq → Nat → Out) : Out :=
  withSeq s fun p q word _ =>
    if q.full then .next s
    else if !sregsOk us || decide (8 ≤ t) then .next (s.seqTrap p q causeOperand)
    else k p q word

/-- A tile command issued, its effect to come. -/
def State.issueTile (s : State) (p : Nat) (q : Seq) (word : Nat) (op : CmdOp) (args : List Nat) : State :=
  s.issueCmd p q word (.todo op args) 0 none none

/-- A rows operand in an s register: a word that breaks R250 traps. -/
def withRows (s : State) (p : Nat) (q : Seq) (b : Nat) (k : Nat × Nat → Out) : Out :=
  match rowsOf (q.reg b).toNat with
  | some r => k r
  | none => .next (s.seqTrap p q causeOperand)

/-- Whether a configuration word passes (R253). -/
def configOk (w : Nat) : Bool :=
  w / 2 ^ 30 == 0 && decide (bitsOf w 29 28 ≤ 1) && bitsOf w 15 5 == 0 && decide (1 ≤ bitsOf w 4 0) && decide (bitsOf w 4 0 ≤ 16)

def execTcfg (_u _n : Bool) (d a : Nat) (s : State) : Out :=
  withTile s d [(a, 1, 1)] fun p q word =>
    if configOk (q.reg a).toNat then .next (s.issueTile p q word .tcfg [d, (q.reg a).toNat]) else .next (s.seqTrap p q causeOperand)

def execTzero (_u _n : Bool) (d : Nat) (s : State) : Out :=
  withTile s d [] fun p q word => .next (s.issueTile p q word .tzero [d])
def execTzeroRows (_u _n : Bool) (d b : Nat) (s : State) : Out :=
  withTile s d [(b, 1, 1)] fun p q word => withRows s p q b fun r => .next (s.issueTile p q word .tzero [d, 0, r.1, r.2])

/-- Whether an ACCRD's output lies outside the own space. -/
def State.readOutside (s : State) (p : Nat) (q : Seq) (op : CmdOp) (args : List Nat) : Bool :=
  let size := if (s.tile (s.seqCore p q) (args.getD 0 0)).ofmt = 1 then 2 else 4
  match op with
  | .accrd _ => (s.ownNats p q.wg 1 [(args.getD 1 0, 64 * size * args.getD 3 0)]).isNone
  | _ => false

/-- A command whose scratchpad address must be a multiple of 4, else STAT 4, after the range of its output, STAT 5 (R264).
(log 95, DEDUCED) -/
def State.issueAligned (s : State) (p : Nat) (q : Seq) (word : Nat) (op : CmdOp) (args : List Nat) : State :=
  if args.getD 1 0 % 4 ≠ 0 then s.issueCmd p q word .done (if s.readOutside p q op args then 5 else 4) none none
  else s.issueTile p q word op args

def execTwr (_u _n : Bool) (d a b : Nat) (s : State) : Out :=
  withTile s d [(a, 1, 1), (b, 1, 1)] fun p q word =>
    withRows s p q b fun r => .next (s.issueAligned p q word .twr [d, (q.reg a).toNat, r.1, r.2])

def execMma (_u _n : Bool) (d a : Nat) (s : State) : Out :=
  withTile s d [(a, 1, 1)] fun p q word => .next (s.issueTile p q word .mma [d, (q.reg a).toNat])
def execMmas (_u _n : Bool) (d a : Nat) (s : State) : Out :=
  withTile s d [(a, 1, 1)] fun p q word => .next (s.issueTile p q word .mmas [d, (q.reg a).toNat])

/-- Whether a core is corrected (R29, R259). -/
def corrected (core : Nat) : Bool := core % 32 % 4 == 0

def execMmao (_u _n : Bool) (d a : Nat) (s : State) : Out :=
  withTile s d [(a, 1, 1)] fun p q word =>
    if corrected (s.seqCore p q) then .next (s.issueTile p q word .mmao [d, (q.reg a).toNat])
    else .next (s.seqTrap p q causeIllegal)

def execAccrd (_u _n : Bool) (d a b : Nat) (s : State) : Out :=
  withTile s d [(a, 1, 1), (b, 1, 1)] fun p q word =>
    withRows s p q b fun r => .next (s.issueAligned p q word (.accrd false) [d, (q.reg a).toNat, r.1, r.2])
def execAccrdClr (_u _n : Bool) (d a b : Nat) (s : State) : Out :=
  withTile s d [(a, 1, 1), (b, 1, 1)] fun p q word =>
    withRows s p q b fun r => .next (s.issueAligned p q word (.accrd true) [d, (q.reg a).toNat, r.1, r.2])

def execAccnorm (_u _n : Bool) (d : Nat) (s : State) : Out :=
  withTile s d [] fun p q word => .next (s.issueTile p q word .accnorm [d])
def execAccnormRows (_u _n : Bool) (d b : Nat) (s : State) : Out :=
  withTile s d [(b, 1, 1)] fun p q word => withRows s p q b fun r => .next (s.issueTile p q word .accnorm [d, 0, r.1, r.2])

/-! ## ACCHR and MSYNC (R262, R263) -/

/-- ACCHR reads in one port step, after those of the sequencer's earlier commands on the tile (R252). -/
def hrOp (d a : Nat) (us : List SUse) (ok : Seq → Bool) (f : Seq → Tile → Word) (s : State) : Out :=
  withTile s a ((d, 1, 1) :: us) fun p q word =>
    if !ok q then .next (s.seqTrap p q causeOperand)
    else if q.cmds.any fun c => c.tile == some a then .next s
    else
      let v := f q (s.tile (s.seqCore p q) a)
      .next ((s.issueCmd p q word .done 0 none none).modSeq p q.id fun y => y.setReg d v)

def rowBitsClear (q : Seq) (b : Nat) : Bool := decide ((q.reg b).toNat < 64)
def Tile.row (t : Tile) (i : Nat) : TileRow := t.rows.getD i TileRow.zero

def execAcchrRow (_u _n : Bool) (d a b : Nat) (s : State) : Out :=
  hrOp d a [(b, 1, 1)] (rowBitsClear · b) (fun q t =>
    let r := t.row (q.reg b).toNat
    BitVec.ofNat 32 (r.l * 65536 + bit r.n * 128 + r.headroom)) s

def execAcchrExp (_u _n : Bool) (d a b : Nat) (s : State) : Out :=
  hrOp d a [(b, 1, 1)] (rowBitsClear · b) (fun q t => BitVec.ofInt 32 (t.row (q.reg b).toNat).e) s

def execAcchrTile (_u _n : Bool) (d a : Nat) (s : State) : Out :=
  hrOp d a [] (fun _ => true) (fun _ t =>
    BitVec.ofNat 32 ((t.rows.map (·.l)).foldl max 0 * 65536 + bit (t.rows.any (·.n)) * 128 +
      ((t.rows.filter fun r => !r.n).map TileRow.headroom).foldl min 39)) s

/-- MSYNC: every earlier command has completed; port steps are applied as they arrive. -/
def execMsync (_u _n : Bool) (a : Nat) (s : State) : Out :=
  withSeq s fun p q word _ =>
    if !sregsOk [(a, 1, 1)] || decide (256 ≤ (q.reg a).toNat) then .next (s.seqTrap p q causeOperand)
    else if !q.cmds.isEmpty then .next s
    else .next (s.issueCmd p q word .done 0 none none)

end Sys2Proof.Machine
end

