-- ==== Sys2Proof/Machine/Copy.lean ====
section
/-!
DEFINITION. The copy commands (R286 to R291, R337), the embedding directory (R338 to R342, R412) and its migration (R343, R413).
-/
namespace Sys2Proof.Machine

/-! ## Shape records (R16) -/

structure Shape where
  rows : Nat
  len : Nat
  sstride : Nat
  dstride : Nat
  bound : Nat
  deriving DecidableEq, Repr

/-- A read of a record that lies in memory: a scratchpad form is STAT 2. (log 47, DEDUCED) -/
def State.fetchRecord (s : State) (p : Nat) (q : Seq) (addr n : Nat) : Except Nat Nat :=
  if addr / 2 ^ 56 ≠ 0 then .error 2 else s.fetchNat p q addr n

def State.fetchShape (s : State) (p : Nat) (q : Seq) (addr : Nat) : Except Nat Shape := do
  let v ← s.fetchRecord p q addr 32
  return ⟨recWord v 0, recWord v 4, recWord v 8, recWord v 12, recWord v 16⟩

/-! ## Moving words (R286, R403) -/

/-- A sector that a command's sound words have covered whole is sound (R391). (log 47, DEDUCED) -/
def State.soundAt (s : State) (p : Nat) (q : Seq) (a : Nat) : State :=
  match s.resolve p q .write a 32 with
  | .ok (.mem pa leaf) => if leafFmt leaf ≠ 2 ∧ s.placeOf p pa = .mem then { s with mem := s.mem.sound pa } else s
  | _ => s

/-- A row moved from `src` to `dst` word by word, each word with its poison: the state and the STAT. `run` counts the sound words written
without a break. (log 81, DESIGN CHOICE) -/
def State.moveSpan (s : State) (p : Nat) (q : Seq) : Nat → Nat → Nat → Nat → State × Nat
  | 0, _, _, _ => (s, 0)
  | left + 1, run, src, dst =>
    match s.fetch p q src 4 with
    | .error e => (s, e)
    | .ok x =>
      match s.deposit p q dst x.1 x.2 with
      | .error e => (s, e)
      | .ok s' =>
        let n := if x.2 then 0 else run + 1
        (if (dst + 4) % 32 = 0 ∧ 8 ≤ n then s'.soundAt p q (dst - 28) else s').moveSpan p q left n (src + 4) (dst + 4)

/-- Rows moved in order, given by source and destination. -/
def State.moveRows (s : State) (p : Nat) (q : Seq) (len : Nat) : List (Nat × Nat) → State × Nat
  | [] => (s, 0)
  | r :: rest =>
    match s.moveSpan p q (len / 4) 0 r.1 r.2 with
    | (s', 0) => s'.moveRows p q len rest
    | (s', e) => (s', e)

/-- CPY, and the copy part of CPYM: destination, source, shape record. -/
def State.copyRun (s : State) (p : Nat) (q : Seq) (dst src shape : Nat) : State × Nat :=
  match s.fetchShape p q shape with
  | .error e => (s, e)
  | .ok x =>
    if x.len % 4 ≠ 0 ∨ x.sstride % 4 ≠ 0 ∨ x.dstride % 4 ≠ 0 ∨ src % 4 ≠ 0 ∨ dst % 4 ≠ 0 then (s, 4)
    else if 0 < x.rows ∧ x.bound < (x.rows - 1) * x.dstride + x.len then (s, 1)
    else s.moveRows p q x.len ((upto 0 x.rows).map fun r => (src + r * x.sstride, dst + r * x.dstride))

/-! ## Index lists (R288) -/

/-- The entries of an index list. -/
def State.fetchIndices (s : State) (p : Nat) (q : Seq) (list : Nat) : Nat → Nat → Except Nat (List Nat)
  | _, 0 => .ok []
  | i, n + 1 => do
    let x ← s.fetchNat p q (list + 4 * i) 4
    let r ← s.fetchIndices p q list (i + 1) n
    return x :: r

/-- GATHER, or SCATTER: destination, source, shape record, index list. -/
def State.indexRun (s : State) (p : Nat) (q : Seq) (scatter : Bool) (dst src shape list : Nat) : State × Nat :=
  match s.fetchShape p q shape with
  | .error e => (s, e)
  | .ok x =>
    if x.len % 4 ≠ 0 ∨ x.sstride % 4 ≠ 0 ∨ x.dstride % 4 ≠ 0 ∨ src % 4 ≠ 0 ∨ dst % 4 ≠ 0 ∨ list % 4 ≠ 0 then (s, 4)
    else
      match s.fetchIndices p q list 0 x.rows with
      | .error e => (s, e)
      | .ok idx =>
        let rows := (upto 0 x.rows).zip idx
        let to_ (e : Nat × Nat) : Nat := (if scatter then e.2 else e.1) * x.dstride
        if rows.any fun e => decide (x.bound < to_ e + x.len) then (s, 1)
        else s.moveRows p q x.len (rows.map fun e => (src + (if scatter then e.1 else e.2) * x.sstride, dst + to_ e))

/-! ## STAGE (R289) -/

/-- The element format of a code of R249. -/
def codeFormat (c : Nat) : Option ElemFmt :=
  match c with
  | 0x48 => some (.bfp 8)
  | 0x81 => some (.fp .e4m3)
  | 0x82 => some (.fp .e5m2)
  | _ => (taggedFormat c).map (·.1)

structure StageDesc where
  fmt : Nat
  g : Nat
  p : Nat
  nstep : Nat
  pbase : Nat
  expbase : Nat
  outbase : Nat
  pstep : Nat
  scalebase : Nat
  deriving DecidableEq, Repr

/-- A stage descriptor of 32 bytes given as a number, or the STAT. (log 48, DEDUCED) -/
def stageDesc (v : Nat) : Except Nat StageDesc :=
  let w := recWord v 0
  let x : StageDesc := ⟨bitsOf w 31 24, bitsOf w 23 16, bitsOf w 11 8, bitsOf (recWord v 4) 7 0, recWord v 8, recWord v 12, recWord v 16,
    recWord v 20, recDword v 24⟩
  if (x.fmt ≠ 0 ∧ ((codeFormat x.fmt).isNone ∨ (x.g ≠ 32 ∧ x.g ≠ 64))) ∨ bitsOf w 15 12 ≠ 0 ∨ x.p < 2 ∨ 8 < x.p ∨ bitsOf w 7 1 ≠ 0 ∨
      bitsOf (recWord v 4) 31 8 ≠ 0 ∨ x.nstep = 0 ∨ 2 ^ 25 ≤ x.pbase ∨ 2 ^ 25 ≤ x.expbase ∨ 2 ^ 25 ≤ x.outbase then .error 13
  else if x.pbase % 128 ≠ 0 ∨ x.expbase % 4 ≠ 0 ∨ x.outbase % 64 ≠ 0 ∨ x.pstep % 128 ≠ 0 then .error 4
  else .ok x

/-- The group with index n of a plain source: its values (R85). -/
def State.plainGroup (s : State) (p : Nat) (q : Seq) (k : ElemFmt) (x : StageDesc) (src n : Nat) : Except Nat (List FVal) := do
  let bits ← s.fetchNat p q (src + 8 * k.width * n) (8 * k.width)
  let s0 ← s.fetchRecord p q (x.scalebase + 64 * n / x.g) 1
  let s1 ← s.fetchRecord p q (x.scalebase + (64 * n + 63) / x.g) 1
  return (upto 0 64).map fun j =>
    let sc := if (64 * n + j) / x.g = 64 * n / x.g then s0 else s1
    if sc = 255 then .nan else k.value sc (streamAt bits k.width j)

/-- A converted group: the staged integers and the tail that passes into its record. -/
def State.stageSource (s : State) (p : Nat) (q : Seq) (x : StageDesc) (src n : Nat) : Except Nat (Staged × List (Nat × Nat)) :=
  match codeFormat x.fmt with
  | some k => do
    let vs ← s.plainGroup p q k x src n
    return (stageGroup x.p vs vs, [])
  | none => do
    let v ← s.fetchNat p q (src + 64 * n) 64
    match decodeBlock v with
    | some d => return (stageGroup x.p d.elems d.slots, d.tail)
    | none => .error 6

/-- Plane b of 64 staged integers: 8 bytes (R245). -/
def planeBytes (qs : List Int) (b : Nat) : List Byte :=
  bytesOf 8 (((upto 0 64).zip qs).foldl (fun acc e => acc + (if e.2 / 2 ^ b % 2 = 0 then 0 else 2 ^ e.1)) 0)

/-- A group's exponent entry (R246). -/
def Staged.entry (x : Staged) : Nat := if x.invalid then 32768 else (x.g % 512).toNat

/-- The bytes of an outlier record that STAGE writes (R247). -/
def tailRecord (tail : List (Nat × Nat)) : List Byte :=
  [BitVec.ofNat 8 tail.length, 0, 0, 0] ++ tail.flatMap fun e => [BitVec.ofNat 8 e.1, 0] ++ bytesOf 2 e.2

/-- Bytes written into the own space. -/
def State.ownPut (s : State) (p wg a : Nat) (bs : List Byte) : State :=
  match s.seqSpad p wg true a bs.length with
  | some k => { s.wrote true [p] 2 [] k bs.length with spad := s.spad.write k bs }
  | none => s

/-- Group n = (step × 64 + x) × 2 + h written. -/
def State.stagePut (s : State) (p wg : Nat) (x : StageDesc) (n : Nat) (g : Staged) (tail : List (Nat × Nat)) : State :=
  let st := n / 128
  let i := n % 128
  let s1 := (upto 0 x.p).foldl (fun y b => y.ownPut p wg (x.pbase + st * x.pstep + 1024 * b + 8 * i) (planeBytes g.q b)) s
  let s2 := s1.ownPut p wg (x.expbase + 256 * st + 2 * i) (bytesOf 2 g.entry)
  if x.outbase = 0 then s2 else s2.ownPut p wg (x.outbase + 8192 * st + 64 * i) (tailRecord tail)

/-- Groups converted in order. -/
def State.stageGroups (s : State) (p : Nat) (q : Seq) (x : StageDesc) (src : Nat) : Nat → Nat → State × Nat
  | _, 0 => (s, 0)
  | n, k + 1 =>
    match s.stageSource p q x src n with
    | .ok e => (s.stagePut p q.wg x n e.1 e.2).stageGroups p q x src (n + 1) k
    | .error e => (s, e)

/-- Whether every destination of a STAGE lies in the own space. -/
def State.stageFits (s : State) (p wg : Nat) (x : StageDesc) : Bool :=
  (upto 0 x.nstep).all fun st =>
    (s.ownNats p wg 64 ((upto 0 x.p).map fun b => (x.pbase + st * x.pstep + 1024 * b, 1024))).isSome &&
    (s.ownNats p wg 4 [(x.expbase + 256 * st, 256)]).isSome &&
    (x.outbase == 0 || (s.ownNats p wg 64 [(x.outbase + 8192 * st, 8192)]).isSome)

def State.stageRun (s : State) (p : Nat) (q : Seq) (src desc : Nat) : State × Nat :=
  match (s.fetchRecord p q desc 32) >>= stageDesc with
  | .error e => (s, e)
  | .ok x => if !s.stageFits p q.wg x then (s, 5) else s.stageGroups p q x src 0 (128 * x.nstep)

/-! ## TOPK (R291) -/

/-- The order of TOPK: whether a stands before b. -/
def above (a b : Word) : Bool :=
  if (f32 a).isNan then false else if (f32 b).isNan then true else (f32 b).lt (f32 a)

/-- An entry put among the best, after those it does not stand before; at most k stay. -/
def insertTop (k : Nat) (x : Nat × Word) (l : List (Nat × Word)) : List (Nat × Word) :=
  let keep := l.takeWhile fun y => !above x.2 y.2
  (keep ++ x :: l.drop keep.length).take k

/-- The output entries of a row, filled up (R291). -/
def topEntries (k : Nat) (vs : List Word) : List (Nat × Word) :=
  let best := ((upto 0 vs.length).zip vs).foldl (fun l x => insertTop k x l) []
  best ++ List.replicate (k - best.length) (0xFFFFFFFF, 0xFF800000#32)

/-- Whether a row lies wholly in stack-local pages of one stack; whether they can be read is found when they are. -/
def State.stackLocal (s : State) (p : Nat) (q : Seq) (a n : Nat) : Bool :=
  let pages := (upto (a / 65536) ((a + n - 1) / 65536 + 1 - a / 65536)).map fun k => (s.leafFor p q.die (k * 65536)).map (·.1)
  decide (a + n ≤ 2 ^ 56) && pages.all fun x => x.any fun e => leafSl e && leafStack e == leafStack ((pages.filterMap id).headD 0)

/-- One row of TOPK. -/
def State.topRow (s : State) (p : Nat) (q : Seq) (n k src dst : Nat) : Except Nat State := do
  let v ← s.fetchNat p q src (4 * n)
  let vs := (upto 0 n).map fun i => BitVec.ofNat 32 (v / 2 ^ (32 * i))
  (topEntries k vs).zip (upto 0 k) |>.foldlM (fun st e => st.deposit p q (dst + 8 * e.2) (bytesOf 4 e.1.1 ++ bytesOf 4 e.1.2.toNat) false) s

def State.topRows (s : State) (p : Nat) (q : Seq) (n k src dst : Nat) : Nat → Nat → State × Nat
  | _, 0 => (s, 0)
  | i, m + 1 =>
    match s.topRow p q n k (src + 4 * n * i) (dst + 8 * k * i) with
    | .ok s' => s'.topRows p q n k src dst (i + 1) m
    | .error e => (s, e)

/-- TOPK: destination, source, row length, control word. -/
def State.topkRun (s : State) (p : Nat) (q : Seq) (dst src n ctl : Nat) : State × Nat :=
  let k := bitsOf ctl 5 0
  let rows := bitsOf ctl 21 6
  if n = 0 ∨ 2 ^ 20 < n ∨ k = 0 ∨ 32 < k ∨ rows = 0 ∨ bitsOf ctl 31 22 ≠ 0 then (s, 13)
  else
    if (upto 0 rows).all fun i => s.stackLocal p q (src + 4 * n * i) (4 * n) then s.topRows p q n k src dst 0 rows else (s, 8)

/-! ## The embedding directory (R338 to R341, R412) -/

/-- A table's current version as EMBLK binds it: slot, rows, shard logarithm, directory, row length. -/
structure Binding where
  slot : Nat
  rows : Nat
  shardlog : Nat
  dirbase : Nat
  rowlen : Nat
  deriving DecidableEq, Repr

/-- The current version of a table, or the STAT (R339). -/
def State.binding (s : State) (p table : Nat) : Except Nat Binding :=
  let ed := (s.part p).edbase.toNat
  if ed = 0 ∨ ed % 64 ≠ 0 then .error 13
  else
    match s.agentRead (partAgent p) (ed + 64 * table) 64 with
    | .error c => .error (statOf c)
    | .ok v =>
      let slot := recWord v 4 / 2 ^ 31
      let x : Binding := ⟨slot, recWord v (8 + 24 * slot), bitsOf (recWord v (12 + 24 * slot)) 4 0, recDword v (16 + 24 * slot), recWord v 0⟩
      if recWord v 4 % 2 ^ 31 = 0 ∨ x.rowlen % 4 ≠ 0 ∨ x.rowlen < 4 ∨ 65536 < x.rowlen ∨ 20 < x.shardlog ∨ x.dirbase % 64 ≠ 0 then .error 13
      else .ok x

/-- A directory entry: its physical address, its selected location and its migration bit (R340). -/
structure DirEntry where
  pa : Nat
  addr : Nat
  member : Nat × Nat
  sel : Nat
  mig : Bool
  deriving DecidableEq, Repr

def State.dirEntry (s : State) (p : Nat) (b : Binding) (n : Nat) : Except Nat DirEntry :=
  match s.xlate (partAgent p) .atomic (b.dirbase + 64 * n) with
  | .bad c => .error (statOf c)
  | .ok pa _ =>
    if s.mem.poisoned pa 64 then .error statPoison
    else
      let w := s.mem.read (pa + 32) 4
      let y := w % 2
      let l := s.mem.read (pa + 8 + 16 * y) 4
      .ok ⟨pa, s.mem.read (pa + 16 * y) 8, (bitsOf l 31 16, bitsOf l 4 0), y, w.testBit 2⟩

/-- LOAD of an entry rises by one (R341). -/
def State.countLookup (s : State) (p : Nat) (e : DirEntry) : State :=
  { s.wrote false [p] 2 [] (e.pa + 40) 8 with mem := s.mem.write (e.pa + 40) (bytesOf 8 ((s.mem.read (e.pa + 40) 8 + 1) % 2 ^ 64)) }

/-- How a row's fetch ends: its words, each with its poison; a STAT; an access to be parked in a peer, with the row's first byte and the
cause (R409); or a wait at this module, whose ports carry none of the traffic (R349). -/
inductive RowEnd where
  | row (ws : List (List Byte × Bool))
  | fail (stat : Nat)
  | park (part va cause : Nat)
  | wait
  deriving DecidableEq, Repr

/-- The words of a row at a member, which starts at `row`. -/
def State.memberRow (s : State) (p : Nat) (q : Seq) (m : Member) (row : Nat) : Nat → Nat → List (List Byte × Bool) → RowEnd
  | _, 0, acc => .row acc
  | a, n + 1, acc =>
    if m == (s.fabric.module, p) then
      match if a / 2 ^ 56 ≠ 0 then .error 2 else s.fetch p q a 4 with
      | .ok x => s.memberRow p q m row (a + 4) n (acc ++ [x])
      | .error e => .fail e
    else if s.isLocal m then
      match s.serveRead s m.2 q.priv (some 2) a 4 with
      | .ok x => s.memberRow p q m row (a + 4) n (acc ++ [x])
      | .error c => if parks c then .park m.2 row c else .fail (statOf c)
    else s.memberRow p q m row (a + 4) n (acc ++ [(s.remoteBytes m a 4, s.remotePoison m a 4)])

/-- A row that a lookup resolves to (R341): the state with LOAD counted, and how the fetch ends. -/
def State.lookupRow (s : State) (p : Nat) (q : Seq) (b : Binding) (i : Nat) : State × RowEnd :=
  match s.dirEntry p b (i / 2 ^ b.shardlog) with
  | .error e => (s, .fail e)
  | .ok e =>
    if e.member ≠ (s.fabric.module, p) ∧ !(s.fedPeers p).contains e.member then (s, .fail 3)
    else if s.lost p e.member then (s, .fail 10)
    else if !s.reaches p e.member then (s, .wait)
    else
      let a := e.addr + i % 2 ^ b.shardlog * b.rowlen
      match s.memberRow p q e.member a a (b.rowlen / 4) [] with
      | .park m va c => (s, .park m va c)
      | r => (s.countLookup p e, r)

/-- Words put at an address one by one, each with its poison; `run` counts the sound ones written without a break. -/
def State.depositWords (s : State) (p : Nat) (q : Seq) : Nat → Nat → List (List Byte × Bool) → Except Nat State
  | _, _, [] => .ok s
  | run, dst, x :: r => do
    let s' ← s.deposit p q dst x.1 x.2
    let n := if x.2 then 0 else run + 1
    (if (dst + 4) % 32 = 0 ∧ 8 ≤ n then s'.soundAt p q (dst - 28) else s').depositWords p q n (dst + 4) r

/-- How far EMBLK got: done with a STAT, or parked or waiting at a row. (log 23, DESIGN CHOICE) -/
def State.lookups (s : State) (p : Nat) (q : Seq) (cid : Nat) (b : Binding) (dst dstride : Nat) (args : List Nat) :
    List (Nat × Nat) → State
  | [] => s.endCmd p q.id cid 0
  | (i, ix) :: r =>
    let left := args.take 9 ++ [1, dstride] ++ ((i, ix) :: r).flatMap fun e => [e.1, e.2]
    match s.lookupRow p q b ix with
    | (s1, .row ws) =>
      match s1.depositWords p q 0 (dst + i * dstride) ws with
      | .ok s2 => s2.lookups p q cid b dst dstride args r
      | .error e => s1.endCmd p q.id cid e
    | (s1, .fail e) => s1.endCmd p q.id cid e
    | (s1, .wait) => s1.modCmd p q.id cid fun x => { x with wait := .todo .emblk left }
    | (s1, .park m va c) =>
      (s1.modCmd p q.id cid fun x => { x with wait := .parked .emblk left }).parkAccess m
        (s1.parkedOf p q.priv va 4 c (.command p q.id cid))

/-- EMBLK's effect: destination, shape, list, table, then the binding; after a row that stood parked or waited, 1, the stride and the rows
still to come with their indices, which are not read again. -/
def State.emblkRun (s : State) (p : Nat) (q : Seq) (cid : Nat) (args : List Nat) : State :=
  let dst := args.getD 0 0
  let list := args.getD 2 0
  let b : Binding := ⟨args.getD 4 0, args.getD 5 0, args.getD 6 0, args.getD 7 0, args.getD 8 0⟩
  if args.getD 9 0 = 1 then
    s.lookups p q cid b dst (args.getD 10 0) args ((pieces 2 args.length (args.drop 11)).map fun l => (l.getD 0 0, l.getD 1 0))
  else
  match s.fetchShape p q (args.getD 1 0) with
  | .error e => s.endCmd p q.id cid e
  | .ok x =>
    if dst % 4 ≠ 0 ∨ x.dstride % 4 ≠ 0 ∨ list % 4 ≠ 0 then s.endCmd p q.id cid 4
    else if x.len ≠ b.rowlen then s.endCmd p q.id cid 13
    else
      match s.fetchIndices p q list 0 x.rows with
      | .error e => s.endCmd p q.id cid e
      | .ok idx =>
        if idx.any fun i => decide (b.rows ≤ i) then s.endCmd p q.id cid 7
        else if 0 < x.rows ∧ x.bound < (x.rows - 1) * x.dstride + x.len then s.endCmd p q.id cid 1
        else s.lookups p q cid b dst x.dstride args ((upto 0 x.rows).zip idx)

/-! ## Issue -/

/-- A copy command's issue: register fields, then the engine counter. -/
def copyCmd (us : List SUse) (k : Nat → Seq → Nat → State) (s : State) : Out :=
  withSregs s us fun p q word _ => if q.full then .next s else .next (k p q word)

def execCpy (_u _n : Bool) (d a b : Nat) (s : State) : Out :=
  copyCmd [(d, 2, 2), (a, 2, 2), (b, 2, 2)] (fun p q word =>
    s.issueCmd p q word (.todo .cpy [(q.pair d).toNat, (q.pair a).toNat, (q.pair b).toNat]) 0 none none) s

/-- CPYM: the form bits and the control words are checked at issue (R287). -/
def execCpym (_u _n : Bool) (f d a b : Nat) (s : State) : Out :=
  withSregs s [(d, 2, 2), (a, 2, 2), (b, 4, 2)] fun p q word _ =>
    let w := (q.reg (b + 2)).toNat
    if q.full then .next s
    else if f = 2 ∧ corrected (s.seqCore p q) = false then .next (s.seqTrap p q causeIllegal)
    else if bitsOf w 31 28 ≠ 0 ∨ q.reg (b + 3) ≠ 0 then .next (s.issueCmd p q word .done 13 none none)
    else if w % 64 ≠ 0 then .next (s.issueCmd p q word .done 14 none none)
    else .next (s.issueCmd p q word
      (.todo (.cpym f) [(q.pair d).toNat, (q.pair a).toNat, (q.pair b).toNat, bitsOf w 27 25, bitsOf w 24 0]) 0 none none)

def execGather (_u _n : Bool) (d a b : Nat) (s : State) : Out :=
  copyCmd [(d, 2, 2), (a, 2, 2), (b, 4, 2)] (fun p q word =>
    s.issueCmd p q word (.todo .gather [(q.pair d).toNat, (q.pair a).toNat, (q.pair b).toNat, (q.pair (b + 2)).toNat]) 0 none none) s
def execScatter (_u _n : Bool) (d a b : Nat) (s : State) : Out :=
  copyCmd [(d, 2, 2), (a, 2, 2), (b, 4, 2)] (fun p q word =>
    s.issueCmd p q word (.todo .scatter [(q.pair d).toNat, (q.pair a).toNat, (q.pair b).toNat, (q.pair (b + 2)).toNat]) 0 none none) s
def execStage (_u _n : Bool) (a b : Nat) (s : State) : Out :=
  copyCmd [(a, 2, 2), (b, 2, 2)] (fun p q word => s.issueCmd p q word (.todo .stage [(q.pair a).toNat, (q.pair b).toNat]) 0 none none) s
def execTopk (_u _n : Bool) (d a b : Nat) (s : State) : Out :=
  copyCmd [(d, 2, 2), (a, 2, 2), (b, 2, 2)] (fun p q word =>
    s.issueCmd p q word (.todo .topk [(q.pair d).toNat, (q.pair a).toNat, (q.reg b).toNat, (q.reg (b + 1)).toNat]) 0 none none) s

/-- The physical address of the BUSY word of a table's slot, for the part's atomic; or the STAT (R339, R341). -/
def State.busyAt (s : State) (p table slot : Nat) : Except Nat Nat :=
  match s.xlate (partAgent p) .atomic ((s.part p).edbase.toNat + 64 * table + 48 + 4 * slot) with
  | .ok pa _ => .ok pa
  | .bad c => .error (statOf c)

/-- EMBLK binds to the current version at issue, and BUSY of its slot rises (R341, R412). -/
def execEmblk (_u _n : Bool) (d a b : Nat) (s : State) : Out :=
  copyCmd [(d, 2, 2), (a, 1, 1), (b, 4, 2)] (fun p q word =>
    let t := (q.reg a).toNat
    if 4096 ≤ t then s.issueCmd p q word .done 13 none none
    else
      match (s.binding p t) >>= fun x => (s.busyAt p t x.slot).map fun pa => (x, pa) with
      | .error e => s.issueCmd p q word .done e none none
      | .ok (x, pa) =>
        (s.busy p pa true).issueCmd p q word (.todo .emblk
          [(q.pair d).toNat, (q.pair b).toNat, (q.pair (b + 2)).toNat, t, x.slot, x.rows, x.shardlog, x.dirbase, x.rowlen]) 0 none
          (some pa)) s

/-! ## Effects -/

/-- THE EFFECT of a copy command that ends at once: the state and the STAT. -/
def State.copyEffect (s : State) (p : Nat) (q : Seq) (op : CmdOp) (args : List Nat) : State × Nat :=
  let x (i : Nat) : Nat := args.getD i 0
  match op with
  | .cpy => s.copyRun p q (x 0) (x 1) (x 2)
  | .gather => s.indexRun p q false (x 0) (x 1) (x 2) (x 3)
  | .scatter => s.indexRun p q true (x 0) (x 1) (x 2) (x 3)
  | .stage => s.stageRun p q (x 0) (x 1)
  | .topk => s.topkRun p q (x 0) (x 1) (x 2) (x 3)
  | _ => s.matrixRun p q op args

/-- CPYM_FOLLOW_ON: first the copy part of a CPYM, then, over the bridge from copy to matrix (R96), its follow-on on the tiles (R287). -/
def execCpymFollowOn (s : State) : Out :=
  let p := s.arg 0
  .next (match (s.work p).seqOf (s.arg 1) with
    | none => s
    | some q =>
      match q.cmd (s.arg 2) with
      | none => s
      | some c =>
        match c.wait with
        | .todo (.cpym f) args =>
          let r := s.copyRun p q (args.getD 0 0) (args.getD 1 0) (args.getD 2 0)
          if r.2 = 0 then r.1.modCmd p q.id c.id fun y => { y with wait := .follow f (args.getD 3 0) (args.getD 4 0) }
          else r.1.endCmd p q.id c.id r.2
        | .follow f t block => (s.bridgePath 2 1).productBegin p q c.id f t block
        | _ => s)

/-! ## Migration (R343, R413) -/

/-- The checks of GO: the entry to move, the bytes of its rows, or the STAT. -/
def State.migrationCheck (s : State) (p : Nat) (x : Channel) : Except Nat (DirEntry × Nat) := do
  if x.rsvd ≠ 0 then .error 13 else pure ()
  let b ← s.binding p x.table
  let first := x.shard * 2 ^ b.shardlog
  if b.rows ≤ first then .error 13 else pure ()
  let e ← s.dirEntry p b x.shard
  if e.mig then .error 13 else pure ()
  if 2 ^ 56 ≤ x.dest.toNat then .error 2 else pure ()
  if x.dest.toNat % 4 ≠ 0 then .error 4 else pure ()
  if (x.dmodule, x.dpart) ≠ (s.fabric.module, p) ∧ !(s.fedPeers p).contains (x.dmodule, x.dpart) then .error 3 else pure ()
  if s.lost p (x.dmodule, x.dpart) then .error 10 else pure ()
  return (e, min (2 ^ b.shardlog) (b.rows - first) * b.rowlen)

/-- A copy engine taken by a channel, when one is free (R142). -/
def State.takeEngine (s : State) (p : Nat) : Nat :=
  match (s.freeEngines p)[Config.freeNat s.tick % max 1 (s.freeEngines p).length]? with
  | some e => e + 1
  | none => 0

/-- The selected location of the directory entry at a physical address + 1: member and address of its rows (R340). -/
def State.sourceOf (s : State) (src : Nat) : Member × Nat :=
  let y := s.mem.read (src - 1 + 32) 4 % 2
  let l := s.mem.read (src - 1 + 8 + 16 * y) 4
  ((bitsOf l 31 16, bitsOf l 4 0), s.mem.read (src - 1 + 16 * y) 8)

/-- A word of a migration's source with its poison; cause 0 is an absent peer, 1 a wait at this module (R349). -/
def State.sourceWord (s : State) (p : Nat) (m : Member) (a : Nat) : Except Nat (List Byte × Bool) :=
  if !s.reaches p m then .error (if s.holdsBack p m then 1 else 0)
  else if s.isLocal m then s.serveRead s m.2 3 none a 4
  else .ok (s.remoteBytes m a 4, s.remotePoison m a 4)

/-- The words of a migration's source as they stand; one that does not read counts as poisoned. -/
def State.sourceWords (s : State) (p : Nat) (at_ : Member × Nat) (n : Nat) : List (Nat × Bool) :=
  (upto 0 n).map fun k => match s.sourceWord p at_.1 (at_.2 + 4 * k) with
    | .ok w => (ofBytes w.1, w.2)
    | .error _ => (0, true)

/-- GO of a channel: location 1 − SEL is written and MIG set, or the channel fails. -/
def State.migrationGo (s : State) (p c : Nat) : State :=
  let x := (s.part p).channel c
  if x.state = 1 then s
  else
    match s.migrationCheck p x with
    | .error e => (s.modPart p fun y => { y with channels := put y.channels c { x with src := 0 } }).failChannel p c e
    | .ok (e, size) =>
      let y := 1 - e.sel
      let m1 := s.mem.write (e.pa + 16 * y) (bytesOf 8 x.dest.toNat)
      let m2 := m1.write (e.pa + 8 + 16 * y) (bytesOf 4 (x.dmodule * 65536 + x.dpart))
      let m3 := m2.write (e.pa + 32) (bytesOf 4 (s.mem.read (e.pa + 32) 4 / 8 * 8 + 4 + s.mem.read (e.pa + 32) 4 % 4))
      { (s.wrote false [p] 2 [] (e.pa + 16 * y) 16).wrote false [p] 2 [] (e.pa + 32) 4 with mem := m3 }.modPart p fun z =>
        { z with channels := put z.channels c { x with state := 1, stat := 0, entry := s.takeEngine p, src := e.pa + 1, size := size, copied := false,
                                                          seen := s.sourceWords p (s.sourceOf (e.pa + 1)) (size / 4) } }

/-- A sector of a member's memory that sound words have covered whole is sound (R391). -/
def State.soundServed (s : State) (m : Member) (a : Nat) : State :=
  if s.isLocal m then
    match s.memLoc (serving m.2 3) .write a 32 false with
    | .ok (.mem pa leaf) => if leafFmt leaf ≠ 2 ∧ s.placeOf m.2 pa = .mem then { s with mem := s.mem.sound pa } else s
    | _ => s
  else { s with fabric := { s.fabric with remotes := s.fabric.remotes.map fun r =>
      if r.module == m.1 && r.part == m.2 then { r with poison := r.poison.filter (· != a / 32) } else r } }

/-- One word of a migration's destination written. -/
def State.migrationPut (s : State) (p : Nat) (m : Member) (a : Nat) (bs : List Byte) (poison : Bool) : Except Nat State :=
  if !s.reaches p m then .error (if s.holdsBack p m then 1 else 0)
  else if s.isLocal m then s.serveWrite s m.2 3 2 a bs poison
  else .ok (s.remoteWrite m a bs poison)

/-- What a migration does when an access of it fails (R409, R413): it waits at this module, parks in the destination, or fails. -/
def State.migrationStop (s : State) (p c : Nat) (to_ : Member) (writing : Bool) (a cause : Nat) : State :=
  if cause = 1 then s
  else if cause = 0 then s.failChannel p c 10
  else if writing && parks cause && to_ != (s.fabric.module, p) then
    if (s.part to_.2).parked.any fun e => e.2.act == .channel p c && e.2.addr == BitVec.ofNat 64 a then s
    else s.parkAccess to_.2 (s.parkedOf p 3 a 5 cause (.channel p c))
  else s.failChannel p c (min (statOf cause) 3)

/-- Whether a word of a partition's memory lies in a span that has been written since the mirrors last looked. -/
def State.dirtyAt (s : State) (at_ : Member × Nat) (k : Nat) : Bool :=
  !s.dirty.isEmpty && s.isLocal at_.1 &&
    match s.memLoc (serving at_.1.2 3) .read (at_.2 + 4 * k) 4 false with
    | .ok (.mem pa _) => s.dirty.any fun e => decide (e.1 < pa + 4) && decide (pa < e.1 + e.2)
    | _ => false

/-- THE MIRROR of a channel that moves rows (R343 step 3): every word of the source that has been written is carried to its destination; one
that faults there parks (R409). (log 23, DESIGN CHOICE) -/
def State.mirrorChannel (s : State) (p c : Nat) : State :=
  let x := (s.part p).channel c
  if x.state ≠ 1 then s
  else
    let from_ := s.sourceOf x.src
    let dst := s.otherLocation (x.src - 1)
    let now := s.sourceWords p from_ (x.size / 4)
    if now == x.seen && s.dirty.isEmpty then s
    else
      (((upto 0 now.length).zip (now.zip x.seen)).foldl (fun (st : State) e =>
        if e.2.1 == e.2.2 && !s.dirtyAt from_ e.1 then st
        else
          match st.migrationPut p dst.2 (dst.1 + 4 * e.1) (bytesOf 4 e.2.1.1) e.2.1.2 with
          | .ok st' => st'
          | .error k => st.migrationStop p c dst.2 true (dst.1 + 4 * e.1) k) s).modPart p fun z =>
          let y := z.channel c
          if y.state = 1 then { z with channels := put z.channels c { y with seen := now } } else z

/-- The mirrors of every channel of the module. -/
def State.mirror (s : State) : State :=
  ({ s.parts.foldl (fun st e => e.2.channels.foldl (fun y k => y.mirrorChannel e.1 k.1) st) s with dirty := [] } : State)

/-- The words of a migration copied with their poison: the state, or the address and the cause of the first that fails; cause 0 is an
absent peer, 1 a wait. Sound words that cover a sector whole leave it sound (R391); `run` counts them. -/
def State.migrationCopy (s : State) (p : Nat) (src dst : Member) (run a b : Nat) : Nat → Except (Bool × Nat × Nat) State
  | 0 => .ok s
  | n + 1 =>
    match s.sourceWord p src a with
    | .error c => .error (false, a, c)
    | .ok (bs, poison) =>
      match s.migrationPut p dst b bs poison with
      | .error c => .error (true, b, c)
      | .ok s' =>
        let k := if poison then 0 else run + 1
        let s'' := if (b + 4) % 32 = 0 ∧ 8 ≤ k then s'.soundServed dst (b - 28) else s'
        s''.migrationCopy p src dst k (a + 4) (b + 4) n

/-- The stores into the rows of a migration's source that wait are performed: none is ordered after the switch-over and lands at the old
location (R344). -/
def State.drainRows (s : State) (at_ : Member × Nat) (n : Nat) : State :=
  let pas := if s.isLocal at_.1 then (upto 0 (n / 4)).filterMap fun k =>
    match s.memLoc (serving at_.1.2 3) .read (at_.2 + 4 * k) 4 false with
    | .ok (.mem pa _) => some pa
    | _ => none else []
  s.works.foldl (fun st e => st.drainWhere e.1 fun x =>
    !x.spad && x.bytes.any fun b => pas.any fun a => decide (a ≤ b.1) && decide (b.1 < a + 4)) s

/-- MIGRATION_SWITCH_OVER, in turns: a channel that has no copy engine yet takes one; the engine copies the rows; at the switch-over the
rows as they stand, with the stores that waited, are at the destination, SEL flips and MIG clears, in one step (R343). -/
def State.switchOver (s : State) (p c : Nat) : State :=
  let x := (s.part p).channel c
  let set (st : State) (y : Channel) : State := st.modPart p fun z => { z with channels := put z.channels c y }
  if x.state ≠ 1 ∨ (s.parts.any fun e => e.2.parked.any fun k => k.2.act == .channel p c) = true then s
  else if x.entry = 0 then set s { x with entry := s.takeEngine p }
  else
    let pa := x.src - 1
    let w := s.mem.read (pa + 32) 4
    let from_ := s.sourceOf x.src
    let dst := s.otherLocation pa
    let to_ := dst.2
    let s0 := if x.copied then s.drainRows from_ x.size else s
    match s0.migrationCopy p from_.1 to_ 0 from_.2 dst.1 (x.size / 4) with
    | .ok s1 =>
      if x.copied then
        set { s1.wrote false [p] 2 [] (pa + 32) 4 with mem := s1.mem.write (pa + 32) (bytesOf 4 (w / 8 * 8 + w / 2 % 2 * 2 + (1 - w % 2))) }
          { x with state := 2, entry := 0, src := 0, copied := false, seen := [] }
      else set s1 { x with copied := true, seen := s.sourceWords p from_ (x.size / 4) }
    | .error (writing, a, k) => s.migrationStop p c to_ writing a k

/-- GO is written by the partition's supervisor: level 2 or above. -/
def execMigrationGo (s : State) : Out := .next (if 2 ≤ s.arg 0 ∧ s.arg 0 < 4 then s.migrationGo (s.arg 1) (s.arg 2) else s)
def execMigrationSwitchOver (s : State) : Out := .next (s.switchOver (s.arg 0) (s.arg 1))

/-- MIGRATION_FAILURE: a migration fails before its switch-over with STAT 2, 3 or 10. -/
def execMigrationFailure (s : State) : Out :=
  let stat := s.arg 2
  .next (if ((s.part (s.arg 0)).channel (s.arg 1)).state = 1 ∧ (stat = 2 ∨ stat = 3 ∨ stat = 10) then
    s.failChannel (s.arg 0) (s.arg 1) stat else s)

end Sys2Proof.Machine
end

