-- ==== Sys2Proof/Machine/Collect.lean ====
section
/-!
DEFINITION. The commands of the collective class: COLL (R292 to R294, R334, R407), AGSET (R295, R330), EGJOIN and EGLEAVE with agreement
rounds (R296, R335, R336, R405), TTOP (R297); the control commands (R298); and how commands end and programs start (R143, R144, R281).
-/
namespace Sys2Proof.Machine

/-! ## The collective descriptor (R292) -/

structure CollDesc where
  ndim : Nat
  scope : Nat
  dtype : Nat
  op : Nat
  ag : Nat
  mesh : List Nat
  srclay : List Nat
  dstlay : List Nat
  spart : Nat
  tqen : Bool
  tqclose : Bool
  tq : Nat
  tile : Nat
  ext : List Nat
  src : Nat
  dst : Nat
  deriving DecidableEq, Repr

/-- A descriptor of 64 bytes given as a number. -/
def collDesc (v : Nat) : CollDesc :=
  let w (off : Nat) : Nat := recWord v off
  let half (off : Nat) : Nat := v / 2 ^ (8 * off) % 65536
  let byte (off : Nat) : Nat := v / 2 ^ (8 * off) % 256
  ⟨bitsOf (w 0) 31 28, bitsOf (w 0) 27 24, bitsOf (w 0) 23 16, bitsOf (w 0) 15 8, bitsOf (w 0) 7 0,
    [half 8, half 10, half 12, half 14], [byte 16, byte 17, byte 18, byte 19], [byte 20, byte 21, byte 22, byte 23],
    bitsOf (w 24) 7 4, bitsOf (w 28) 23 23 == 1, bitsOf (w 28) 22 22 == 1, bitsOf (w 28) 18 16, bitsOf (w 28) 15 0,
    [w 32, w 36, w 40, w 44], recDword v 48, recDword v 56⟩

/-- A mesh dimension's extent. -/
def CollDesc.extent (x : CollDesc) (d : Nat) : Nat := if d < x.ndim then x.mesh.getD d 1 else 1

/-- A layout whose bytes name mesh dimensions, each at most once, that divide their tensor dimensions. -/
def CollDesc.layoutOk (x : CollDesc) (lay : List Nat) : Bool :=
  let used := lay.filter (· != 255)
  used.all (fun d => decide (d < x.ndim)) && distinct used &&
    ((lay.zip x.ext).all fun e => e.1 == 255 || e.2 % max 1 (x.extent e.1) == 0)

/-- The checks of R292 that need the descriptor alone. -/
def CollDesc.ok (x : CollDesc) (v : Nat) : Bool :=
  let w (off : Nat) : Nat := recWord v off
  decide (1 ≤ x.ndim) && decide (x.ndim ≤ 4) && decide (x.scope ≤ 8) && decide (x.dtype ≤ 3) && decide (x.op ≤ 3) &&
    (x.op == 0 || x.dtype != 3) && w 4 == 0 && x.layoutOk x.srclay && x.layoutOk x.dstlay && bitsOf (w 24) 31 8 == 0 &&
    bitsOf (w 24) 3 0 == 0 && (x.spart == 0 || x.op != 0) && bitsOf (w 28) 31 24 == 0 && bitsOf (w 28) 21 19 == 0 &&
    (!x.tqen || x.tile != 0)

/-- Bytes of an element. -/
def CollDesc.size (x : CollDesc) : Nat :=
  match x.dtype with
  | 2 => 2
  | 3 => 1
  | _ => 4

/-- Extents of a shard under a layout; an unused dimension counts once. -/
def CollDesc.shard (x : CollDesc) (lay : List Nat) : List Nat :=
  (lay.zip x.ext).map fun e => if e.2 = 0 then 1 else if e.1 = 255 then e.2 else e.2 / max 1 (x.extent e.1)
def CollDesc.bytes (x : CollDesc) (lay : List Nat) : Nat := x.size * productOf (x.shard lay)

/-- Mesh coordinates of a member (R292). -/
def CollDesc.coords (x : CollDesc) (m : Nat) : List Nat := (digitsOf ((upto 0 4).map x.extent) m).take 4
/-- The member with given coordinates. -/
def CollDesc.memberAt (x : CollDesc) (c : List Nat) : Nat := rankOf ((upto 0 3).map x.extent) c

/-- Global indices of element `i` of a member's shard under a layout. -/
def CollDesc.globalOf (x : CollDesc) (lay c : List Nat) (i : Nat) : List Nat :=
  let sh := x.shard lay
  ((digitsOf (sh.take 3) i).zip (lay.zip sh)).map fun e =>
    if e.2.1 = 255 then e.1 else c.getD e.2.1 0 * e.2.2 + e.1

/-- The element of a member's source shard that holds global indices. -/
def CollDesc.sourceIndex (x : CollDesc) (g : List Nat) : Nat :=
  let sh := x.shard x.srclay
  rankOf (sh.take 3) ((g.zip (x.srclay.zip sh)).map fun e => if e.2.1 = 255 then e.1 else e.1 % max 1 e.2.2)

/-- The members whose source shards combine into a global element for a member (R293): any coordinate of a dimension over which the
source is partial, the one that holds the element where the source is sharded, else the member's own. -/
def CollDesc.sources (x : CollDesc) (c g : List Nat) : List Nat :=
  let sh := x.shard x.srclay
  let choices := (upto 0 4).map fun d =>
    if x.spart.testBit d then upto 0 (x.extent d)
    else
      match ((upto 0 4).zip x.srclay).find? fun e => e.2 == d with
      | some e => [g.getD e.1 0 / max 1 (sh.getD e.1 1)]
      | none => [c.getD d 0]
  (choices.foldr (fun l acc => l.flatMap fun y => acc.map fun r => y :: r) [[]]).map x.memberAt

/-- The combined value of an element (R103, R104, R293). -/
def CollDesc.reduce (x : CollDesc) (seed : Nat) (vs : List Nat) : Nat :=
  let ws : List Word := vs.map fun v => if x.dtype = 2 then BitVec.ofNat 32 (v * 65536) else BitVec.ofNat 32 v
  let fold (f : Word → Word → Word) : Word := ws.tail.foldl f (ws.headD 0)
  let bf (f : Word → Word → Word) (a b : Word) : Word := BitVec.ofNat 32 (Fmt.bf16.round (f32 (f a b)) * 65536)
  let add : Word → Word → Word := match x.dtype with
    | 0 => (· + ·)
    | 2 => fun a b => BitVec.ofNat 32 (Fmt.bf16.round ((f32 a).add (f32 b)) * 65536)
    | _ => fadd
  let r : Word := match x.op with
    | 1 => treeSum add seed ws.length ws
    | 2 => fold (match x.dtype with
      | 0 => minZ
      | 2 => bf fmin
      | _ => fmin)
    | 3 => fold (match x.dtype with
      | 0 => maxZ
      | 2 => bf fmax
      | _ => fmax)
    | _ => ws.headD 0
  if x.dtype = 2 then r.toNat / 65536 else r.toNat

/-! ## Buffers -/

/-- The first place of a buffer of elements of `size` bytes that fails for a sequencer, of those that are probed: its first byte, each page,
and in an alias page each line; with the cause. -/
def State.bufferFault (s : State) (p : Nat) (q : Seq) (k : Kind) (a n size : Nat) : Option (Nat × Nat) :=
  ((upto 0 ((a % 65536 + n + 65535) / 65536)).map fun i => if i = 0 then a else (a / 65536 + i) * 65536).findSome? fun va =>
    match s.memLoc (q.agent p) k va size false with
    | .error c => some (va, c)
    | .ok (.mem _ leaf) =>
      if leafFmt leaf = 2 then
        let end_ := min (a + n) ((va / 65536 + 1) * 65536)
        ((upto 1 ((end_ + 127) / 128 - va / 128 - 1)).map fun i => (va / 128 + i) * 128).findSome? fun x =>
          match s.memLoc (q.agent p) k x size false with
          | .error c => some (x, c)
          | .ok _ => none
      else none
    | .ok _ => none

/-- One element of a member's source shard: its value and whether it is poisoned; or the STAT. -/
def State.collElem (s : State) (p : Nat) (q : Seq) (x : CollDesc) (i : Nat) : Except Nat (Nat × Bool) :=
  (s.fetch p q (x.src + x.size * i) x.size).map fun r => (ofBytes r.1, r.2)

/-- A member of an exchange on this module: its index, partition, sequencer, command and descriptor. -/
structure Party where
  index : Nat
  p : Nat
  q : Seq
  cid : Nat
  desc : List Nat
  deriving DecidableEq, Repr

/-- The number that descriptor dwords hold. -/
def ofDwords : List Nat → Nat
  | [] => 0
  | d :: r => d + 2 ^ 64 * ofDwords r
def Party.x (y : Party) : CollDesc := collDesc (ofDwords y.desc)

/-- The commands of an instance's COLL on this module that have begun. -/
def State.parties (s : State) (a ver ord : Nat) (ms : List Member) : List Party :=
  (((upto 0 ms.length).zip ms).filter fun e => s.isLocal e.2).flatMap fun e =>
    (s.work e.2.2).seqs.flatMap fun q => q.cmds.filterMap fun c =>
      match c.wait with
      | .coll x v o l d => if x == a && v == ver && o == ord && l == ms then some ⟨e.1, e.2.2, q, c.id, d⟩ else none
      | _ => none

/-- An element of any member's source: of one on this module as its shard holds it, of another a value of its own; or the party at which
it fails, with the STAT. -/
def State.sourceElem (s : State) (ps : List Party) (ms : List Member) (m i size : Nat) : Except (Party × Nat) (Nat × Bool) :=
  match ps.find? fun y => y.index == m with
  | some y => (s.collElem y.p y.q y.x i).mapError fun t => (y, t)
  | none =>
    let k := ms.getD m (0, 0)
    .ok (ofBytes ((upto 0 size).map fun b => Config.remoteByte k.1 k.2 (2 ^ 60 + s.tick * 2 ^ 40 + i * size + b)), false)

/-- The destination shard of a party: values with poison, in order; or the party at which a source fails. -/
def State.destShard (s : State) (ps : List Party) (ms : List Member) (y : Party) : Except (Party × Nat) (List (Nat × Bool)) :=
  let x := y.x
  let c := x.coords y.index
  (upto 0 (productOf (x.shard x.dstlay))).mapM fun i => do
    let g := x.globalOf x.dstlay c i
    let vs ← (x.sources c g).mapM fun m => s.sourceElem ps ms m (x.sourceIndex g) x.size
    return (x.reduce (s.tick * 2 ^ 32 + i) (vs.map (·.1)), vs.any (·.2))

/-- A party's shard written, element by element from place `i` on, until one fails: the state and the STAT. -/
def State.putShard (s : State) (y : Party) : Nat → List (Nat × Bool) → State × Nat
  | _, [] => (s, 0)
  | i, v :: r =>
    match s.deposit y.p y.q (y.x.dst + y.x.size * i) (bytesOf y.x.size v.1) v.2 with
    | .ok s' => s'.putShard y (i + 1) r
    | .error t => (s, t)

/-- The shards of parties written one after another, until one fails: the state, and the party with the STAT. -/
def State.putShards (s : State) : List (Party × List (Nat × Bool)) → State × Option (Party × Nat)
  | [] => (s, none)
  | e :: r =>
    match s.putShard e.1 0 e.2 with
    | (s', 0) => s'.putShards r
    | (s', t) => (s', some (e.1, t))

/-- The tiles of a destination (R294). -/
def CollDesc.tiles (x : CollDesc) : List Nat :=
  if x.tqen then upto 0 ((x.bytes x.dstlay + 4096 * x.tile - 1) / (4096 * max 1 x.tile)) else []

/-- A COLL fails at one of its parties with a STAT, and so at every member (R407). -/
def State.failParty (s : State) (a ver ord : Nat) (ms : List Member) (y : Party) (stat : Nat) : State :=
  (s.consumed y.p y.q stat).failColl y.p a ver ord ms (stat % 256)

/-- THE EXCHANGE of a COLL whose every member has come: sources are read, destinations written, and each member's command ends. Poison that
is reduced, and an access that fails, fail it (R402, R403). -/
def State.exchange (s : State) (a ver ord : Nat) (ms : List Member) (ps : List Party) : State :=
  match ps.mapM fun y => (s.destShard ps ms y).map fun v => (y, v) with
  | .error f => s.failParty a ver ord ms f.1 f.2
  | .ok shards =>
    match shards.find? fun e => e.1.x.op != 0 && e.2.any (·.2) with
    | some e => s.failParty a ver ord ms e.1 statPoison
    | none =>
      match s.putShards shards with
      | (s', some f) => s'.failParty a ver ord ms f.1 f.2
      | (s', none) => ps.foldl (fun st y => st.modCmd y.p y.q.id y.cid fun c => { c with wait := .done, tiles := y.x.tiles }) s'

/-- Whether an access of a COLL stands parked for one of its parties. -/
def State.collParked (s : State) (ps : List Party) : Bool :=
  ps.any fun y => s.parts.any fun e => e.2.parked.any fun k => k.2.act == .command y.p y.q.id y.cid

/-- The first party with a buffer that no longer translates: address, cause, and whether it is written. -/
def State.partyFault (s : State) (ps : List Party) : Option (Party × Nat × Nat × Bool) :=
  ps.findSome? fun y =>
    match s.bufferFault y.p y.q .read y.x.src (y.x.bytes y.x.srclay) y.x.size,
      s.bufferFault y.p y.q .write y.x.dst (y.x.bytes y.x.dstlay) y.x.size with
    | some e, _ => some (y, e.1, e.2, false)
    | none, some e => some (y, e.1, e.2, true)
    | none, none => none

/-- Descriptors that disagree fail every member with the same STAT (R407). -/
def State.failAll (s : State) (p a ver ord : Nat) (ms : List Member) (stat : Nat) : State :=
  ((ms.filter s.isLocal).map (·.2)).foldl (fun st k => st.modWork k fun w =>
    w.modCmds (fun c => c.isColl a ver ord ms) fun c => c.failColl stat) s |>.failColl p a ver ord ms stat

/-- A COLL goes on as far as it can (R293, R334, R407, R409): it waits until every member of this module has begun it and those of others
answer; descriptors that differ fail it; a buffer that faults is parked in its partition. (log 78, DEDUCED) -/
def State.tryColl (s : State) (p a ver ord : Nat) (ms : List Member) : State :=
  let ps := s.parties a ver ord ms
  let here := (ms.filter s.isLocal).length
  if ps.length < here ∨ (ms.all fun m => s.reaches p m) = false ∨ s.collParked ps = true then s
  else if ps.any fun y => y.desc.take 6 != (ps.head?.map (·.desc.take 6)).getD [] then s.failAll p a ver ord ms 13
  else
    let others := ms.any fun m => !s.isLocal m
    let fate := Config.freeNat s.tick % 3
    if others && fate == 1 then s.failAll p a ver ord ms 10
    else if others && fate == 2 then s.failAll p a ver ord ms 13
    else
      match s.partyFault ps with
      | some (y, va, c, wr) =>
        let sender := (ms.filter fun m => m != (s.fabric.module, y.p)).headD (s.fabric.module, y.p)
        if parks c && sender != (s.fabric.module, y.p) then
          s.parkAccess y.p ⟨BitVec.ofNat 64 va, sender.1, sender.2, if wr then 2 else 3, c, s.time, y.q.priv, .command y.p y.q.id y.cid⟩
        else s.failColl y.p a ver ord ms (statOf c)
      | none => s.exchange a ver ord ms ps

/-! ## COLL and TTOP (R292, R293, R297, R333) -/

/-- The start of the slot at or after a time. -/
def slotAt (w t : Nat) : Nat := (t + w - 1) / max 1 w * w

/-- When a command begins: at once, at a later slot, or never (R297, R408). -/
inductive Begin where
  | now
  | later (t : Nat)
  | late
  deriving DecidableEq, Repr

/-- A sequencer's next collective command under the TTOP before it. -/
def State.begins (s : State) (q : Seq) : Begin :=
  match q.ttop with
  | none => .now
  | some t =>
    let b := slotAt s.fabric.slot t
    if !s.fabric.inDomain || decide (b + s.fabric.slot ≤ s.time) then .late else if s.time < b then .later b else .now

/-- The dwords of a record of `n` dwords given as a number. -/
def dwordsOf : Nat → Nat → List Nat
  | 0, _ => []
  | n + 1, v => v % 2 ^ 64 :: dwordsOf n (v / 2 ^ 64)

/-- The operands of a COLL that waits for its slot. -/
def slotArgs (a ver ord : Nat) (ms : List Member) (desc : List Nat) : List Nat :=
  [a, ver, ord, ms.length] ++ ms.flatMap (fun m => [m.1, m.2]) ++ desc

/-- The STAT with which a COLL whose group stands fails at issue, if any (R292, R293, R297, R404, R407). -/
def State.collStat (s : State) (p : Nat) (q : Seq) (v : Nat) (x : CollDesc) (g : Group) : Option Nat :=
  if x.ok v = false ∨ productOf ((upto 0 4).map x.extent) ≠ g.members.length then some 13
  else if s.begins q = .late then some 11
  else if (find g.bad g.colls).isSome then find g.bad g.colls
  else if s.hasAbsent p x.ag then some 10
  else
    match s.bufferFault p q .read x.src (x.bytes x.srclay) x.size, s.bufferFault p q .write x.dst (x.bytes x.dstlay) x.size with
    | some e, _ => some (statOf e.2)
    | none, some e => some (statOf e.2)
    | none, none => none

/-- The arrived-tile queue that a COLL names is open again (R294). (log 49, DEDUCED) -/
def State.openQueue (s : State) (p : Nat) (q : Seq) (n : Nat) : State :=
  s.modWork p fun w => w.setTileQueue { w.tileQueue q.seq (q.cluster / 2) n with closed := false }

/-- A COLL issued on a group of which the partition is a member; one whose descriptor is wrong fails at the other members too (R407). -/
def State.collStart (s : State) (p : Nat) (q : Seq) (word v : Nat) (x : CollDesc) : State :=
  let s0 := s.findAbsent p x.ag
  let g := (s0.part p).group x.ag
  let s1 := s0.modPart p fun y => { y with groups := put y.groups x.ag { g with colls := g.colls + 1 } }
  let s2 := if x.scope = 7 ∧ x.ok v = true then s1.modWork p fun w => w.modLaunch q.seq fun l => { l with clamp := true } else s1
  let desc := dwordsOf 8 v
  match s0.collStat p q v x g with
  | some t =>
    ((s2.issueCmd p q word .done t (some x.ag) none).modCmd p q.id s2.ids fun c =>
      { c with queue := x.tq, close := x.tqen && t != 13 }).failColl p x.ag g.ver g.colls g.members t
  | none =>
    let s3 := if x.tqen || x.tqclose then s2.openQueue p q x.tq else s2
    let wait : CmdWait := match s.begins q with
      | .later t => .slot t .coll (slotArgs x.ag g.ver g.colls g.members desc)
      | _ => .coll x.ag g.ver g.colls g.members desc
    ((s3.issueCmd p q word wait 0 (some x.ag) none).modCmd p q.id s3.ids fun c =>
      { c with queue := x.tq, close := x.tqclose }).tryColl p x.ag g.ver g.colls g.members

/-- Whether a partition is a member of a group of its own. -/
def State.member (s : State) (p : Nat) (g : Group) : Bool := g.valid && g.members.contains (s.fabric.module, p)

def execColl (_u _n : Bool) (a : Nat) (s : State) : Out :=
  copyCmd [(a, 2, 2)] (fun p q word =>
    match s.fetchRecord p q (q.pair a).toNat 64 with
    | .error e => s.issueCmd p q word .done e none none
    | .ok v =>
      let x := collDesc v
      if !s.member p ((s.part p).group x.ag) then s.issueCmd p q word .done (if x.ok v then 12 else 13) none none
      else s.collStart p q word v x) s

/-- TTOP looks at the sequencer's next instruction. -/
def State.nextIsCollective (s : State) (p : Nat) (q : Seq) : Bool :=
  let c := q.cur.past 1
  let a := c.next.toNat
  match s.xlate (q.agent p) .fetch a with
  | .bad _ => false
  | .ok pa _ =>
    match decode 3 [s.mem.read pa 4] with
    | .instr (.coll _ _ _) _ => true
    | .instr (.egjoin _ _ _ _) _ => true
    | .instr (.egleave _ _ _ _) _ => true
    | _ => false

/-- TTOP delays the next command to its time slot (R297). (log 50, DEDUCED) -/
def execTtop (_u : Bool) (a : Nat) (s : State) : Out :=
  withSregs s [(a, 2, 2)] fun p q word _ =>
    .next (if s.nextIsCollective p q then (s.modSeq p q.id fun y => { y with ttop := some (q.pair a).toNat }).seqNext p q word
      else s.seqTrap p q causeIllegal)

/-! ## AGSET (R295, R330) -/

/-- RSLOT of an instance of a group that starts: each group requests its slots for itself (R330). (log 24, DESIGN CHOICE) -/
def State.grant (s : State) (a : Nat) : Nat := if Config.freeGrant (s.tick * 256 + a) then 1 else 2

/-- The members of a list at a sequencer's address. -/
def State.fetchMembers (s : State) (p : Nat) (q : Seq) (a : Nat) : Nat → Except Nat (List Nat)
  | 0 => .ok []
  | n + 1 => do
    let v ← s.fetchNat p q a 4
    let r ← s.fetchMembers p q (a + 4) n
    return v :: r

/-- AGSET's effect: the group's id word, and the address of the list: the state and the STAT. (log 51, DEDUCED) -/
def State.agsetRun (s : State) (p : Nat) (q : Seq) (id list : Nat) : State × Nat :=
  if 256 ≤ id then (s, 13)
  else
    match s.fetchNat p q list 4 with
    | .error e => (s, e)
    | .ok h =>
      let n := bitsOf h 6 0
      if bitsOf h 31 16 ≠ 0 ∨ bitsOf h 14 7 ≠ 0 ∨ n = 0 ∨ 64 < n then (s, 13)
      else
        match s.fetchMembers p q (list + 4) n with
        | .error e => (s, e)
        | .ok ws =>
          let ms := ws.map memberOf
          if ws.any fun w => bitsOf w 15 8 != 0 || decide (28 ≤ bitsOf w 7 0) then (s, 13)
          else if ms.any fun m => m != (s.fabric.module, p) && !(s.fedPeers p).contains m then (s, 3)
          else if (s.work p).commands.any fun e => e.2.group == some id then (s, 12)
          else
            let g : Group := { Group.empty with
              members := ms, ver := 1, rslot := if n < 2 then 0 else s.grant id, elastic := bitsOf h 15 15 == 1, valid := true }
            (s.modPart p fun x => { x with groups := put x.groups id g }, 0)

def execAgset (_u _n : Bool) (a b : Nat) (s : State) : Out :=
  withSregs s [(a, 1, 1), (b, 2, 2)] fun p q word _ =>
    if q.priv < 2 then .next (s.seqTrap p q causePrivilege)
    else if q.full then .next s
    else .next (s.issueCmd p q word (.todo .agset [(q.reg a).toNat, (q.pair b).toNat]) 0 none none)

/-! ## Elastic groups and agreement rounds (R296, R335, R405) -/

/-- A request made by a command of this partition. -/
def State.request (s : State) (p q cid d a : Nat) (join : Bool) : State :=
  let g := (s.part p).group a
  let r : Request := ⟨join, s.fabric.module, p, some (q, cid, d), s.time⟩
  s.modPart p fun x => { x with groups := put x.groups a { g with requests := g.requests ++ [r] } }

/-- The STAT with which a join or a leave fails at issue, if any. -/
def State.elasticStat (s : State) (p : Nat) (q : Seq) (a : Nat) (join : Bool) : Option Nat :=
  let g := (s.part p).group a
  if !g.valid || !g.elastic || g.members.contains (s.fabric.module, p) == join then some 12
  else if s.begins q = .late then some 11
  else if s.hasAbsent p a then some 10
  else none

/-- EGJOIN and EGLEAVE. -/
def elasticOp (join : Bool) (d a : Nat) (s : State) : Out :=
  copyCmd [(d, 1, 1), (a, 1, 1)] (fun p q word =>
    let id := (q.reg a).toNat % 256
    let s0 := s.findAbsent p id
    match s0.elasticStat p q id join with
    | some t => s0.issueCmd p q word .done t (some id) none
    | none =>
      match s.begins q with
      | .later t => s0.issueCmd p q word (.slot t (if join then .egjoin else .egleave) [id, d]) 0 (some id) none
      | _ => (s0.issueCmd p q word (.round id d) 0 (some id) none).request p q.id s0.ids d id join) s

def execEgjoin (_u _n : Bool) (d a : Nat) (s : State) : Out := elasticOp true d a s
def execEgleave (_u _n : Bool) (d a : Nat) (s : State) : Out := elasticOp false d a s

/-- The partitions of this module that take part in a round: members of the instance, and those that ask to join it. -/
def State.roundParts (s : State) (p a : Nat) : List Nat :=
  let g := (s.part p).group a
  (s.parts.map (·.1)).filter fun k =>
    let h := (s.part k).group a
    k == p || (h.valid && h.elastic && h.members == g.members &&
      (h.ver == g.ver || !h.members.contains (s.fabric.module, k) || !g.members.contains (s.fabric.module, p)))

/-- Requests in order of arrival, ties to the lower module. -/
def Request.before (x y : Request) : Bool := decide (x.since < y.since) || (x.since == y.since && decide (x.module ≤ y.module))

/-- The coordinator's module: that of the present member with the lowest index (R335). -/
def State.coordinator (s : State) (p a : Nat) : Nat :=
  let g := (s.part p).group a
  match ((upto 0 g.members.length).zip g.members).find? fun e => !g.absent.contains e.1 with
  | some e => e.2.1
  | none => s.fabric.module

/-- The boundary at which a round starts: the first after its earliest request or absence here, and none before the last round's end; a
coordinator of another module starts it at a boundary of its own. (log 52, DEDUCED) -/
def State.roundBoundary (s : State) (p a : Nat) : Option Nat :=
  let w := max 1 s.fabric.slot
  if s.coordinator p a ≠ s.fabric.module then some (s.time / w * w)
  else
    let gs := (s.roundParts p a).map fun k => (s.part k).group a
    match sortNat (gs.flatMap fun g => g.requests.map (·.since) ++ g.lost.toList) with
    | [] => none
    | t :: _ => some (max ((t / w + 1) * w) ((s.part p).group a).stamp)

/-- Whether the boundary has come at which a round of a group starts: none is in progress at any of those that take part. -/
def State.roundDue (s : State) (p a : Nat) : Bool :=
  let g := (s.part p).group a
  g.valid && g.elastic && (s.roundParts p a).all (fun k => ((s.part k).group a).round.isNone) && match s.roundBoundary p a with
    | some b => decide (b ≤ s.time)
    | none => false

/-- A round starts at its boundary, with the requests made before it and those of other modules that a coordinator there takes in, or for
an absence (R335, R405). Members that do not answer have not acknowledged yet. -/
def State.roundStart (s : State) (p a : Nat) (more : List Request) : State :=
  match s.roundBoundary p a with
  | none => s
  | some b =>
    let g := (s.part p).group a
    let ks := s.roundParts p a
    let due (r : Request) : Bool := decide (r.since < b)
    let taken := sortBy Request.before ((ks.flatMap fun k => ((s.part k).group a).requests.filter due) ++ more)
    let lost := ks.any fun k => ((s.part k).group a).lost.any fun t => decide (t < b)
    if s.roundDue p a = false ∨ (taken.isEmpty && !lost) = true then s
    else
      let quiet := ((upto 0 g.members.length).zip g.members).filterMap fun e =>
        if g.absent.contains e.1 || s.reaches p e.2 then none else some e.1
      ks.foldl (fun st k => st.modPart k fun x =>
        let h := x.group a
        { x with groups := put x.groups a { h with round := some b, taken := taken, unacked := quiet, stamp := b,
                                                   requests := h.requests.filter fun r => !due r } }) s

/-- AGREEMENT_ROUND_START: the group at a partition; further operands, three by three, are requests of other modules: 1 to join, module,
partition. A coordinator of this module has them from now on; one elsewhere has taken them in. -/
def execAgreementRoundStart (s : State) : Out :=
  let p := s.arg 0
  let a := s.arg 1
  let more := (pieces 3 s.args.length (s.args.drop 2)).map fun l =>
    (⟨l.getD 0 0 == 1, l.getD 1 0, l.getD 2 0, none, s.time⟩ : Request)
  .next (if s.coordinator p a ≠ s.fabric.module then s.roundStart p a more
    else if !((s.part p).group a).valid then s
    else
      (s.modPart p fun x => { x with groups := put x.groups a { x.group a with requests := (x.group a).requests ++ more } }).roundStart p a [])

/-- Members that answer acknowledge the round in progress; the last to do so is what its end waits for. -/
def State.acknowledge (s : State) (p a : Nat) : State :=
  let g := (s.part p).group a
  let left := g.unacked.filter fun i => !((g.members[i]?).any (s.reaches p))
  if left == g.unacked then s
  else s.modPart p fun x => { x with groups := put x.groups a { g with unacked := left, stamp := s.time } }

/-- The acknowledgements of every round in progress. -/
def State.acknowledges (s : State) : State :=
  s.parts.foldl (fun st e => e.2.groups.foldl (fun y g => if g.2.round.isNone then y else y.acknowledge e.1 g.1) st) s

/-- AGREEMENT_ACK_TIMEOUT: a member that has not acknowledged four slots after the start is recorded absent. -/
def execAgreementAckTimeout (s : State) : Out :=
  let p := s.arg 0
  let a := s.arg 1
  let i := s.arg 2
  let g := (s.part p).group a
  .next (match g.round with
    | none => s
    | some t =>
      if !g.unacked.contains i ∨ s.time < t + 4 * s.fabric.slot then s
      else
        (s.roundParts p a).foldl (fun st k => st.modPart k fun x =>
          let h := x.group a
          { x with groups := put x.groups a { h with unacked := h.unacked.filter (· != i) } })
          (s.recordAbsent p a (g.members.getD i (0, 0))))

/-- The members after a round: leavers and absent members go, joiners follow, up to 64; and the joins that found no room. -/
def nextMembers (g : Group) (taken : List Request) : List Member × List Request :=
  let stay := (((upto 0 g.members.length).zip g.members).filter fun e =>
    !g.absent.contains e.1 && !(taken.any fun r => !r.join && (r.module, r.part) == e.2)).map (·.2)
  taken.foldl (fun acc r =>
    if !r.join || acc.1.contains (r.module, r.part) then acc
    else if 64 ≤ acc.1.length then (acc.1, acc.2 ++ [r])
    else (acc.1 ++ [(r.module, r.part)], acc.2)) (stay, [])

/-- The command of a request ends: with the version, or with STAT 12. -/
def State.answer (s : State) (ver : Nat) (full : List Request) (r : Request) : State :=
  match r.who with
  | none => s
  | some (q, c, d) =>
    if full.contains r then s.endCmd r.part q c 12
    else (s.modSeq r.part q fun y => y.setReg d (BitVec.ofNat 32 ver)).endCmd r.part q c 0

/-- A group after a round that changes it. -/
def Group.renewed (h : Group) (members : List Member) (ver rslot : Nat) : Group :=
  { h with members := members, absent := [], ver := ver, rslot := rslot, colls := 0, bad := [], lost := none }

/-- AGREEMENT_ROUND_END: at the first boundary after the last acknowledgement. The version is the coordinator's plus one; a further
operand gives it where no member is on this module. A round of nothing but joins that fail leaves the group and its version (R402). -/
def State.roundEnd (s : State) (p a told : Nat) : State :=
  let g := (s.part p).group a
  match g.round with
  | none => s
  | some _ =>
    let w := max 1 s.fabric.slot
    if !g.unacked.isEmpty ∨ s.time / w ≤ g.stamp / w then s
    else
      let ks := s.roundParts p a
      let inside := ks.filter fun k => g.members.contains (s.fabric.module, k)
      let old := match inside with
        | k :: _ => ((s.part k).group a).ver
        | [] => if told = 0 then g.ver else told - 1
      let r := nextMembers g g.taken
      let rslot := s.grant a
      let changed := !(g.absent.isEmpty && g.taken.all r.2.contains)
      let s1 := ks.foldl (fun st k => st.modPart k fun x =>
        let h := x.group a
        let h' := if changed then h.renewed r.1 (old + 1) (if r.1.contains (s.fabric.module, k) then rslot else 3) else h
        { x with groups := put x.groups a { h' with round := none, taken := [], unacked := [], stamp := s.time / w * w } }) s
      g.taken.foldl (fun st x => st.answer (old + 1) r.2 x) s1

def execAgreementRoundEnd (s : State) : Out := .next (s.roundEnd (s.arg 0) (s.arg 1) (s.arg 2))

/-! ## Slots, tiles and the end of commands -/

/-- TTOP_SLOT_START: a command that waits for its slot begins in it (R297, R333); one that finds it ended fails with STAT 11. -/
def execTtopSlotStart (s : State) : Out :=
  let p := s.arg 0
  let id := s.arg 1
  .next (match (s.work p).seqOf id >>= fun q => q.cmd (s.arg 2) with
    | none => s
    | some c =>
      match c.wait with
      | .slot t op args =>
        if s.time < t then s
        else
          let missed := decide (t + s.fabric.slot ≤ s.time)
          match c.collOf with
          | some (a, v, o, ms, d) =>
            if missed then s.failColl p a v o ms 11
            else (s.modCmd p id c.id fun y => { y with wait := .coll a v o ms d, since := s.time }).tryColl p a v o ms
          | none =>
            if missed then s.endCmd p id c.id 11
            else if s.hasAbsent p (args.getD 0 0) then s.endCmd p id c.id 10
            else (s.modCmd p id c.id fun y => { y with wait := .round (args.getD 0 0) (args.getD 1 0) }).request p id c.id (args.getD 1 0)
              (args.getD 0 0) (op == .egjoin)
      | _ => s)

/-- ARRIVED_TILE_PUSH: a tile of a COLL that has been written is pushed on its queue, unless the queue is full (R294). -/
def execArrivedTilePush (s : State) : Out :=
  let p := s.arg 0
  let id := s.arg 1
  .next (match (s.work p).seqOf id with
    | none => s
    | some q =>
      match q.cmd (s.arg 2) with
      | none => s
      | some c =>
        let sl := q.cluster / 2
        let t := (s.work p).tileQueue q.seq sl c.queue
        match c.tiles[Config.freeNat s.tick % max 1 c.tiles.length]? with
        | none => s
        | some x =>
          if c.wait ≠ .done ∨ 1024 ≤ t.tiles.length then s
          else
            let s1 := (s.modCmd p id c.id fun y => { y with tiles := y.tiles.filter (· != x) }).modWork p fun w =>
              w.setTileQueue { t with tiles := t.tiles ++ [x] }
            s1.serveTiles p q.seq sl c.queue (s1.work p).waiters.length)

/-- THE EFFECT of a command, or its next turn. (log 22, DESIGN CHOICE) -/
def State.runCmd (s : State) (p : Nat) (q : Seq) (c : Command) : State :=
  match c.wait with
  | .todo op args =>
    if (c.tile.map (q.tileBefore c.id)).getD false then s
    else
      match op with
      | .mma => s.productBegin p q c.id 0 (args.getD 0 0) (args.getD 1 0)
      | .mmas => s.productBegin p q c.id 1 (args.getD 0 0) (args.getD 1 0)
      | .mmao => s.productBegin p q c.id 2 (args.getD 0 0) (args.getD 1 0)
      | .emblk => s.emblkRun p q c.id args
      | .cpym _ => s
      | .agset =>
        let r := s.agsetRun p q (args.getD 0 0) (args.getD 1 0)
        r.1.endCmd p q.id c.id r.2
      | _ =>
        let r := s.copyEffect p q op args
        r.1.endCmd p q.id c.id r.2
  | .product kind t v k data done => s.productTurn p q c.id kind t v k data done
  | .coll a v o ms _ => s.tryColl p a v o ms
  | _ => s

/-- ENGINE_COMMAND_COMPLETE: a command has its effect, a product in turns, and completes (R281). -/
def execEngineCommandComplete (s : State) : Out :=
  let p := s.arg 0
  .next (match (s.work p).seqOf (s.arg 1) with
    | none => s
    | some q =>
      match q.cmd (s.arg 2) with
      | none => s
      | some c => (s.runCmd p q c).finishCmd p q.id c.id)

/-! ## Parked accesses settled, and accesses from other modules (R327, R409 to R411) -/

/-- A row of an EMBLK that stood parked is read and moved at the retry, and the rest of the command goes on; or the cause that parks it
again. -/
def State.retryRow (s : State) (p : Nat) (e : Parked) (sp : Nat) (q : Seq) (cid : Nat) (args : List Nat) : Except Nat State :=
  let a := e.addr.toNat
  let go (st : State) (rest : List Nat) : State := st.modCmd sp q.id cid fun x => { x with wait := .todo .emblk (args.take 11 ++ rest) }
  match args.drop 11 with
  | i :: ix :: rest =>
    match s.memberRow sp q (s.fabric.module, p) a a (args.getD 8 0 / 4) [] with
    | .park _ _ k => .error k
    | .fail t => .ok (s.endCmd sp q.id cid t)
    | .wait => .ok s
    | .row ws =>
      let s1 := match s.dirEntry sp ⟨args.getD 4 0, args.getD 5 0, args.getD 6 0, args.getD 7 0, args.getD 8 0⟩ (ix / 2 ^ args.getD 6 0) with
        | .ok d => s.countLookup sp d
        | .error _ => s
      match s1.depositWords sp q 0 (args.getD 0 0 + i * args.getD 10 0) ws with
      | .ok s2 => .ok (go s2 rest)
      | .error t => .ok (s1.endCmd sp q.id cid t)
  | _ => .ok (go s [])

/-- A word of a migration that stood parked is written at the retry, as its source now stands; or the cause that parks it again. -/
def State.retryWord (s : State) (p : Nat) (e : Parked) (sp c : Nat) : Except Nat State :=
  let x := (s.part sp).channel c
  if x.state ≠ 1 then .ok s
  else
    let from_ := s.sourceOf x.src
    let dst := s.otherLocation (x.src - 1)
    match s.sourceWord sp from_.1 (from_.2 + (e.addr.toNat - dst.1)) with
    | .error _ => .ok s
    | .ok w => s.serveWrite s p e.level 2 e.addr.toNat w.1 w.2

/-- A parked access of MST, MLDR or another module, a row of an EMBLK or a word of a migration performed; an element of a COLL translated and
checked again, whose exchange follows; or the cause. -/
def State.performParked (s : State) (p : Nat) (e : Parked) : Except Nat State :=
  let a := e.addr.toNat
  match e.act with
  | .write v poison sp ticket lane => (s.serveWrite s p e.level 3 a (bytesOf 4 v.toNat) poison).map fun st => st.writeDone sp ticket lane
  | .read sp wg wid lane ticket i =>
    match s.serveRead s p e.level (some 3) a 2 with
    | .ok r => .ok (s.giveRead sp wg wid lane ticket i a r)
    | .error k => if k = causeData then .ok (s.giveRead sp wg wid lane ticket i a ([], true)) else .error k
  | .remote bs => if bs.isEmpty then (s.serveRead s p e.level (some 3) a 2).map fun _ => s else s.serveWrite s p e.level 3 a bs false
  | .command sp id cid =>
    match (s.work sp).seqOf id >>= fun q => (q.cmd cid).map fun c => (q, c) with
    | none => .ok s
    | some (q, c) =>
      match c.wait with
      | .parked .emblk args => s.retryRow p e sp q cid args
      | .coll _ _ _ _ d => (s.memLoc (q.agent sp) (if e.op = 2 then .write else .read) a (collDesc (ofDwords d)).size false).map fun _ => s
      | _ => .ok s
  | .channel sp c => s.retryWord p e sp c

/-- A COLL whose access no longer stands parked goes on. -/
def State.goOn (s : State) (act : ParkedAct) : State :=
  match act with
  | .command sp id cid =>
    match ((s.work sp).seqOf id >>= fun q => q.cmd cid) >>= Command.collOf with
    | some (a, v, o, ms, _) => s.tryColl sp a v o ms
    | none => s
  | _ => s

/-- A RETRY (R410): the access is performed and its entry frees, or it stays parked with the new cause. -/
def State.retryParked (s : State) (p k : Nat) : State :=
  match find (s.part p).parked k with
  | none => s
  | some e =>
    match s.performParked p e with
    | .ok s' => (s'.modPart p fun x => { x with parked := drop x.parked k }).goOn e.act
    | .error c =>
      if parks c then s.modPart p fun x => { x with parked := put x.parked k { e with cause := c } } else s.dropParked p k

/-- CTL of an entry is written at level 2 and above; the row's writer comes first. -/
def execParkedRetry (s : State) : Out :=
  .next (if 2 ≤ s.arg 0 ∧ s.arg 0 < 4 then s.retryParked (s.arg 1) (s.arg 2) else s)
def execParkedDrop (s : State) : Out :=
  .next (if 2 ≤ s.arg 0 ∧ s.arg 0 < 4 then s.dropParked (s.arg 1) (s.arg 2) else s)

/-- FABRIC_ACCESS_SERVE: an access of partition `q` of module `m` arrives at partition `p` at a level: op 0 writes a word, 2 and 5 a word
of a collective or a migration, 1, 3 and 4 read; there are no others (R409). One from a partition that is no peer is not performed
(R316). -/
def execFabricAccessServe (s : State) : Out :=
  let p := s.arg 0
  let op := s.arg 1
  let va := s.arg 2 % 2 ^ 56
  let writes := op == 0 || op == 2 || op == 5
  let bs := if writes then bytesOf 4 (s.arg 3) else []
  let peer := s.fabric.inDomain && (s.part p).state == .running && (s.fedPeers p).contains (s.arg 4, s.arg 5)
  if !peer ∨ 6 ≤ op then .next s
  else
    let e : Parked := ⟨BitVec.ofNat 64 va, s.arg 4, s.arg 5, op, 0, s.time, s.arg 6, .remote bs⟩
    .next (match s.performParked p e with
      | .ok s' => s'
      | .error c => if parks c then s.parkAccess p { e with cause := c } else s)

/-- COMPLETION_RECORD_PUSH: a launch whose record waits for a slot of the event queue pushes it (R134, R143). -/
def execCompletionRecordPush (s : State) : Out :=
  .next (match (s.work (s.arg 0)).launch (s.arg 1) with
    | some l => if l.pushing then s.pushLaunch (s.arg 0) l else s
    | none => s)

/-! ## Guidon programs (R143, R144, R298) -/

/-- CONTROL_PROGRAM_START: an idle Guidon starts the waiting program of the lowest launch sequence number. -/
def execControlProgramStart (s : State) : Out :=
  let p := s.arg 0
  let cl := s.arg 1
  let g := findD (s.work p).guidons cl ⟨[], []⟩
  .next (match g.waiting with
    | [] => s
    | n :: r =>
      if (s.work p).seqs.any fun q => q.cls == 4 && q.cluster == cl then s
      else
        match (s.work p).launch n with
        | none => s.modWork p fun w => { w with guidons := put w.guidons cl { g with waiting := r } }
        | some l =>
          let at_ : VAddr := l.rcd.ctlprog.setWidth 56
          let q : Seq := { id := s.ids, cls := 4, wg := 0, cluster := cl, seq := n, priv := l.priv, base := at_, cur := Cursor.at at_,
                           regs := List.replicate 32 0, cmds := [], ending := false, stopped := false, discard := false, ttop := none,
                           engine := 0 }
          s.fresh.modWork p fun w => { w with guidons := put w.guidons cl { g with waiting := r }, seqs := w.seqs ++ [q] })

/-- A record in the registers of a Guidon. -/
def Seq.takeRecord (q : Seq) (d : Nat) (e : EventRec) : Seq :=
  ((q.setReg d (BitVec.ofNat 32 (e.stat * 256 + e.src))).setReg (d + 1) 0).setPair (d + 2) e.tag

/-- EVPOP and EVWAIT, from the oldest record. -/
def eventOp (d : Nat) (empty : State → Nat → Seq → Nat → State) (s : State) : Out :=
  withSregs s [(d, 4, 4)] fun p q word _ =>
    let g := findD (s.work p).guidons q.cluster ⟨[], []⟩
    match g.events with
    | [] => .next (empty s p q word)
    | e :: r =>
      .next (((s.modWork p fun w => { w with guidons := put w.guidons q.cluster { g with events := r } }).modSeq p q.id fun y =>
        y.takeRecord d e).seqNext p q word)

def execEvpop (_u : Bool) (d : Nat) (s : State) : Out :=
  eventOp d (fun s p q word => (s.modSeq p q.id fun y => y.setReg d 0xFFFFFFFF).seqNext p q word) s
def execEvwait (_u : Bool) (d : Nat) (s : State) : Out := eventOp d (fun s _ _ _ => s) s

end Sys2Proof.Machine
end

