-- ==== Sys2Proof/Machine/Elementary.lean ====
section
/-!
DEFINITION. FEXP2, FLOG2, FSIN, FCOS and FTANH (R202 to R204): a value that the part fixes for the operand, within the error bound of R202.
The exact function is enclosed between two fixed-point numbers that differ by far less than a bound; a free value is taken when it meets
the bound for every number between them, and else the value in the middle, rounded.
-/
namespace Sys2Proof.Machine

/-! ## Fixed-point numbers -/

/-- m × 2^e in units of 2^−p, rounded down. -/
def fixed (m e : Int) (p : Nat) : Int :=
  if 0 ≤ e + p then m * 2 ^ (e + p).toNat else m / 2 ^ (-(e + p)).toNat

/-- π, ln 2 and log2 e, each × 2^400 and rounded down. -/
def piFixed : Nat :=
  0x3243f6a8885a308d313198a2e03707344a4093822299f31d0082efa98ec4e6c89452821e638d01377be5466cf34e90c6cc0ac
def ln2Fixed : Nat :=
  0xb17217f7d1cf79abc9e3b39803f2f6af40f343267298b62d8a0d175b8baafa2be7b876206debac98559552fb4afa1b10ed2e
def log2eFixed : Nat :=
  0x171547652b82fe1777d0ffda0d23a7d11d6aef551bad2b4b1164a2cd9a342648fbc3887eeaa2ed9ac49b25eeb82d7c167d521

/-- The terms t^k / k! of an exponential from `k` on, summed, in units of 2^−360; `term` is the last before them.
Never above the exact sum. -/
def expTerms (t : Nat) : Nat → Nat → Nat → Nat → Nat
  | 0, _, _, acc => acc
  | n + 1, k, term, acc =>
    let x := term * t / 2 ^ 360 / k
    expTerms t n (k + 1) x (acc + x)

/-- 2^(f / 2^360) for f < 2^360, less than 2^10 units below the exact value. -/
def exp2Frac (f : Nat) : Nat := expTerms (f * ln2Fixed / 2 ^ 400) 80 1 (2 ^ 360) (2 ^ 360)

/-- The next `i` bits of the binary logarithm of y / 2^320, 1 ≤ y / 2^320 < 2, after those of `acc`. -/
def log2Bits : Nat → Nat → Nat → Nat
  | 0, _, acc => acc
  | i + 1, y, acc =>
    let z := y * y / 2 ^ 320
    if 2 ^ 321 ≤ z then log2Bits i (z / 2) (2 * acc + 1) else log2Bits i z (2 * acc)

/-- The Taylor terms r^k / k! with alternating signs from one of them on, two powers at a time, summed: units of 2^−340. -/
def taylor (r : Int) : Nat → Nat → Int → Int → Int
  | 0, _, _, acc => acc
  | n + 1, k, term, acc => taylor r n (k + 2) (-(term * r / 2 ^ 340 * r / 2 ^ 340 / ((k + 1) * (k + 2) : Nat))) (acc + term)

/-- |a| modulo 2π in units of 2^−340, for |a| = m × 2^e ≤ 2^15. -/
def turnFixed (m : Nat) (e : Int) : Nat := (fixed m e 400).toNat % (2 * piFixed) / 2 ^ 60

/-! ## Choosing a value -/

/-- Whether a finite value lies within bound × 2^be of every number between lo × 2^e and hi × 2^e. (log 9, DESIGN CHOICE) -/
def nearEnough (v : FVal) (lo hi e : Int) (bound : Nat) (be : Int) : Bool :=
  match v with
  | .fin n m f =>
    let z := min (min e be) f
    let x := sint n m f z
    let b : Int := bound * 2 ^ (be - z).toNat
    decide (hi * 2 ^ (e - z).toNat - b ≤ x) && decide (x ≤ lo * 2 ^ (e - z).toNat + b)
  | _ => false

/-- The free value when it is near enough, else the middle of the enclosure. -/
def choose (free : Word) (lo hi e : Int) (bound : Nat) (be : Int) : Word :=
  if nearEnough (f32 free) lo hi e bound be then free
  else toF32 (.fin (decide (lo + hi < 0)) (lo + hi).natAbs (e - 1))

/-- A value in [−1, 1] (R203): the given one, or ±1 when it lies outside, which no exact result is farther from. -/
def within1 (w : Word) : Word :=
  match f32 w with
  | .fin n m e => if (FVal.ofInt 1).lt (.fin false m e) then one32 n else w
  | _ => zero32 false

/-! ## The functions -/

/-- 2^x for x = ±m × 2^e between −150 and 128, within two ulp (R202). -/
def exp2Value (free : Word) (neg : Bool) (m : Nat) (e : Int) : Word :=
  let x := fixed (sint neg m 0 0) e 360
  let n := x / 2 ^ 360
  let r : Int := exp2Frac (x % 2 ^ 360).toNat
  choose free r (r + 1024) (n - 360) 2 (ulpExp n)

/-- FEXP2 (R202, R203). -/
def fexp2 (a : Word) : Word :=
  match f32 a with
  | .nan => nan32
  | .inf n => if n then zero32 false else inf32 false
  | .fin neg m e =>
    let v := FVal.fin neg m e
    if !v.lt (.ofInt 128) then inf32 false
    else if v.lt (.ofInt (-150)) then zero32 false
    else
      match asInt neg m e with
      | some i => if -149 ≤ i then toF32 (.fin false 1 i) else exp2Value (Config.fexp2 a) neg m e
      | none => exp2Value (Config.fexp2 a) neg m e

/-- log2 of m × 2^e, within two ulp outside [0.5, 2], within 2^−22 inside (R202). -/
def log2Value (free : Word) (m : Nat) (e : Int) : Word :=
  let l := m.log2
  let r : Int := (e + l) * 2 ^ 128 + log2Bits 128 (m * 2 ^ (320 - l)) 0
  let wide := (FVal.fin false m e).lt (.fin false 1 (-1)) || (FVal.ofInt 2).lt (.fin false m e)
  let size : Int := (r.natAbs + 2).log2 - 128
  if wide then choose free (r - 1) (r + 2) (-128) 2 (ulpExp size) else choose free (r - 1) (r + 2) (-128) 1 (-22)

/-- FLOG2 (R202, R203). -/
def flog2 (a : Word) : Word :=
  match f32 a with
  | .nan => nan32
  | .inf n => if n then nan32 else inf32 false
  | .fin _ 0 _ => inf32 true
  | .fin true _ _ => nan32
  | .fin false m e =>
    if m = 2 ^ m.log2 then toF32 (.ofInt (e + m.log2)) else log2Value (Config.flog2 a) m e

/-- Whether |a| = m × 2^e lies in the range in which FSIN and FCOS have an error bound (R202). -/
def inTurns (m : Nat) (e : Int) : Bool := !(FVal.ofInt 32768).lt (.fin false m e)

/-- FSIN (R202, R203): within 2^−21 up to 2^15, beyond that a value in [−1, 1]. -/
def fsin (a : Word) : Word :=
  match f32 a with
  | .nan => nan32
  | .inf _ => nan32
  | .fin n 0 _ => zero32 n
  | .fin n m e =>
    if inTurns m e then
      let r : Int := turnFixed m e
      let y := taylor r 70 1 r 0
      let x := if n then -y else y
      within1 (choose (Config.fsin a) (x - 2 ^ 20) (x + 2 ^ 20) (-340) 1 (-21))
    else within1 (Config.fsin a)

/-- FCOS (R202, R203). -/
def fcos (a : Word) : Word :=
  match f32 a with
  | .nan => nan32
  | .inf _ => nan32
  | .fin _ 0 _ => one32 false
  | .fin _ m e =>
    if inTurns m e then
      let x := taylor (turnFixed m e) 70 0 (2 ^ 340) 0
      within1 (choose (Config.fcos a) (x - 2 ^ 20) (x + 2 ^ 20) (-340) 1 (-21))
    else within1 (Config.fcos a)

/-- tanh of m × 2^e below 9 in units of 2^−360: (E − 1) / (E + 1) for E = 2^(2 m × 2^e log2 e). -/
def tanhFixed (m : Nat) (e : Int) : Nat :=
  let t := (fixed (2 * m * log2eFixed : Nat) (e - 400) 360).toNat
  let x := exp2Frac (t % 2 ^ 360) * 2 ^ (t / 2 ^ 360)
  (x - 2 ^ 360) * 2 ^ 360 / (x + 2 ^ 360)

/-- FTANH (R202, R203). -/
def ftanh (a : Word) : Word :=
  match f32 a with
  | .nan => nan32
  | .inf n => one32 n
  | .fin n 0 _ => zero32 n
  | .fin n m e =>
    if (FVal.fin false m e).lt (.ofInt 9) then
      let y : Int := tanhFixed m e
      let x := if n then -y else y
      within1 (choose (Config.ftanh a) (x - 4096) (x + 4096) (-360) 1 (-21))
    else one32 n

end Sys2Proof.Machine
end

