-- ==== Sys2Proof/Machine/Float.lean ====
section
/-!
DEFINITION. Floating point, packed BF16, transcendental functions and conversions (R199 to R209).
-/
namespace Sys2Proof.Machine

/-! ## FP32 (R199) -/

def execFadd (u : Bool) (d a b : Nat) (s : State) : Out := binary u d a b fadd s
def execFsub (u : Bool) (d a b : Nat) (s : State) : Out := binary u d a b fsub s
def execFmul (u : Bool) (d a b : Nat) (s : State) : Out := binary u d a b fmul s
def execFfma (u : Bool) (d a b : Nat) (s : State) : Out := ternary u d a b ffma s
def execFmin (u : Bool) (d a b : Nat) (s : State) : Out := binary u d a b fmin s
def execFmax (u : Bool) (d a b : Nat) (s : State) : Out := binary u d a b fmax s
def execFabs (u : Bool) (d a : Nat) (s : State) : Out := unary u d a (fun x => x &&& 0x7FFFFFFF#32) s
def execFneg (u : Bool) (d a : Nat) (s : State) : Out := unary u d a (fun x => x ^^^ 0x80000000#32) s

/-- The conditions of FCMP (R200). -/
def fcondition (c : Nat) (a b : Word) : Bool :=
  let x := f32 a
  let y := f32 b
  let un := x.isNan || y.isNan
  match c with
  | 0 => x.eq y
  | 1 => !x.eq y
  | 2 => x.lt y
  | 3 => x.lt y || x.eq y
  | 4 => y.lt x
  | 5 => y.lt x || x.eq y
  | 6 => un
  | _ => !un
def execFcmp (u : Bool) (c d a b : Nat) (s : State) : Out := binary u d a b (fun x y => truth (fcondition c x y)) s

/-- The class bit of an FP32 code (R201). -/
def fclassBit (a : Word) : Nat :=
  let neg := a.msb
  match f32 a with
  | .nan => if a.getLsbD 22 then 8 else 9
  | .inf _ => if neg then 0 else 7
  | .fin _ m _ => if m = 0 then (if neg then 3 else 4) else if m < 2 ^ 23 then (if neg then 2 else 5) else if neg then 1 else 6
def execFclass (u : Bool) (d a : Nat) (s : State) : Out := unary u d a (fun x => BitVec.ofNat 32 (2 ^ fclassBit x)) s

/-! ## Transcendental functions (R202 to R204) -/

def execFrcp (u : Bool) (d a : Nat) (s : State) : Out := unary u d a frcp s
def execFrsq (u : Bool) (d a : Nat) (s : State) : Out := unary u d a frsq s
def execFsqrt (u : Bool) (d a : Nat) (s : State) : Out := unary u d a fsqrt s
def execFexp2 (u : Bool) (d a : Nat) (s : State) : Out := unary u d a fexp2 s
def execFlog2 (u : Bool) (d a : Nat) (s : State) : Out := unary u d a flog2 s
def execFsin (u : Bool) (d a : Nat) (s : State) : Out := unary u d a fsin s
def execFcos (u : Bool) (d a : Nat) (s : State) : Out := unary u d a fcos s
def execFtanh (u : Bool) (d a : Nat) (s : State) : Out := unary u d a ftanh s

/-! ## Packed BF16 (R205) -/

def execHadd2 (u : Bool) (d a b : Nat) (s : State) : Out :=
  binary u d a b (fun x y => halves (fun p q _ => p.add q) x y 0) s
def execHmul2 (u : Bool) (d a b : Nat) (s : State) : Out :=
  binary u d a b (fun x y => halves (fun p q _ => p.mul q) x y 0) s
def execHfma2 (u : Bool) (d a b : Nat) (s : State) : Out :=
  ternary u d a b (halves fun p q r => (p.mul q).add r) s

/-! ## Conversions between floating-point formats (R206, R207) -/

/-- A word with its low or high half replaced (R60). -/
def withLow (d : Word) (v : Nat) : Word := (d &&& 0xFFFF0000#32) ||| BitVec.ofNat 32 (v % 65536)
def withHigh (d : Word) (v : Nat) : Word := (d &&& 0x0000FFFF#32) ||| BitVec.ofNat 32 (v % 65536 * 65536)

/-- Part of register `d` written in every lane of the group, from the operands of that lane or of lane0; the kept bits are the lane's
own (R60, R62). What is poisoned stays so: only a full write clears it (R392). (log 33, DEDUCED) -/
def partOp (u : Bool) (d : Nat) (reads : List RegUse) (f : Warp → Nat → Nat) (put_ : Word → Nat → Word) (s : State) : Out :=
  withGroup s fun c _ w =>
    withRegs s c w (c.readers u) [(d, 1)] reads fun _ =>
      .next (retire (writePart s c d fun l => put_ (w.reg d l) (f w (c.readerOf u l))) c)

/-- A narrowing into one half of vD. -/
def narrowHalf (u : Bool) (d a : Nat) (put_ : Word → Nat → Word) (f : Fmt) (s : State) : Out :=
  partOp u d [(a, 1)] (fun w l => f.round (f32 (w.reg a l))) put_ s
def execCvtBf16F32Lo (u : Bool) (d a : Nat) (s : State) : Out := narrowHalf u d a withLow .bf16 s
def execCvtBf16F32Hi (u : Bool) (d a : Nat) (s : State) : Out := narrowHalf u d a withHigh .bf16 s
def execCvtF16F32Lo (u : Bool) (d a : Nat) (s : State) : Out := narrowHalf u d a withLow .f16 s
def execCvtF16F32Hi (u : Bool) (d a : Nat) (s : State) : Out := narrowHalf u d a withHigh .f16 s

/-- Two FP8 codes in a half: of a below, of b above (R207). -/
def fp8Pair (f : Fmt) (a b : Word) : Nat := f.roundSat (f32 a) + 256 * f.roundSat (f32 b)
def narrowPair (u : Bool) (d a b : Nat) (put_ : Word → Nat → Word) (f : Fmt) (s : State) : Out :=
  partOp u d [(a, 1), (b, 1)] (fun w l => fp8Pair f (w.reg a l) (w.reg b l)) put_ s
def execCvtE4m3x2F32Lo (u : Bool) (d a b : Nat) (s : State) : Out := narrowPair u d a b withLow .e4m3 s
def execCvtE4m3x2F32Hi (u : Bool) (d a b : Nat) (s : State) : Out := narrowPair u d a b withHigh .e4m3 s
def execCvtE5m2x2F32Lo (u : Bool) (d a b : Nat) (s : State) : Out := narrowPair u d a b withLow .e5m2 s
def execCvtE5m2x2F32Hi (u : Bool) (d a b : Nat) (s : State) : Out := narrowPair u d a b withHigh .e5m2 s

/-- A widening of part `n` of vA, of `bits` bits; the selector is below `limit` (R206). -/
def widenPart (u : Bool) (d a n bits limit : Nat) (f : Fmt) (s : State) : Out :=
  if limit ≤ n then reject causeOperand s
  else unary u d a (fun x => widen f (x.toNat / 2 ^ (n * bits) % 2 ^ bits)) s
def execCvtF32Bf16 (u : Bool) (d a h : Nat) (s : State) : Out := widenPart u d a h 16 2 .bf16 s
def execCvtF32F16 (u : Bool) (d a h : Nat) (s : State) : Out := widenPart u d a h 16 2 .f16 s
def execCvtF32E4m3 (u : Bool) (d a n : Nat) (s : State) : Out := widenPart u d a n 8 4 .e4m3 s
def execCvtF32E5m2 (u : Bool) (d a n : Nat) (s : State) : Out := widenPart u d a n 8 4 .e5m2 s

/-! ## FP32 and integers (R208) -/

/-- The rounding mode is FN's offset: 0 RN, 1 RZ, 2 RM, 3 RP. -/
def execCvtS32F32 (u : Bool) (r d a : Nat) (s : State) : Out :=
  unary u d a (fun x => BitVec.ofInt 32 (toIntSat (r % 4) (-2147483648) 2147483647 (f32 x))) s
def execCvtZ32F32 (u : Bool) (r d a : Nat) (s : State) : Out :=
  unary u d a (fun x => BitVec.ofInt 32 (toIntSat (r % 4) 0 4294967295 (f32 x))) s
def execCvtF32S32 (u : Bool) (d a : Nat) (s : State) : Out := unary u d a (fun x => toF32 (.ofInt x.toInt)) s
def execCvtF32Z32 (u : Bool) (d a : Nat) (s : State) : Out := unary u d a (fun x => toF32 (.ofInt x.toNat)) s

/-- A pair source and a word destination; a word source and a pair destination. -/
def fromPair (u : Bool) (d a : Nat) (f : DWord → Word) (s : State) : Out :=
  laneOp u [(d, 1)] [(a, 2)] (fun _ w l => [(d, f (w.pair a l))]) s
def toPair (u : Bool) (d a : Nat) (f : Word → DWord) (s : State) : Out :=
  laneOp u [(d, 2)] [(a, 1)] (fun _ w l => pairOf d (f (w.reg a l))) s

def execCvtF32S64 (u : Bool) (d a : Nat) (s : State) : Out := fromPair u d a (fun x => toF32 (.ofInt x.toInt)) s
def execCvtF32Z64 (u : Bool) (d a : Nat) (s : State) : Out := fromPair u d a (fun x => toF32 (.ofInt x.toNat)) s
def execCvtS64F32Rz (u : Bool) (d a : Nat) (s : State) : Out :=
  toPair u d a (fun x => BitVec.ofInt 64 (toIntSat 1 (-(2 ^ 63)) (2 ^ 63 - 1) (f32 x))) s
def execCvtZ64F32Rz (u : Bool) (d a : Nat) (s : State) : Out :=
  toPair u d a (fun x => BitVec.ofInt 64 (toIntSat 1 0 (2 ^ 64 - 1) (f32 x))) s

/-! ## Integer widths (R209) -/

/-- An integer clamped to a range. -/
def clampWord (lo hi x : Int) : Word := BitVec.ofInt 32 (max lo (min hi x))
def execCvtS8S32Sat (u : Bool) (d a : Nat) (s : State) : Out := unary u d a (fun x => clampWord (-128) 127 x.toInt) s
def execCvtS16S32Sat (u : Bool) (d a : Nat) (s : State) : Out := unary u d a (fun x => clampWord (-32768) 32767 x.toInt) s
def execCvtZ8S32Sat (u : Bool) (d a : Nat) (s : State) : Out := unary u d a (fun x => clampWord 0 255 x.toInt) s
def execCvtZ16S32Sat (u : Bool) (d a : Nat) (s : State) : Out := unary u d a (fun x => clampWord 0 65535 x.toInt) s
def execCvtZ8Z32Sat (u : Bool) (d a : Nat) (s : State) : Out := unary u d a (fun x => clampWord 0 255 x.toNat) s
def execCvtZ16Z32Sat (u : Bool) (d a : Nat) (s : State) : Out := unary u d a (fun x => clampWord 0 65535 x.toNat) s
def execCvtS64S32 (u : Bool) (d a : Nat) (s : State) : Out := toPair u d a (fun x => x.signExtend 64) s
def execCvtZ64Z32 (u : Bool) (d a : Nat) (s : State) : Out := toPair u d a (fun x => x.setWidth 64) s
def execCvtS32S64Sat (u : Bool) (d a : Nat) (s : State) : Out :=
  fromPair u d a (fun x => clampWord (-2147483648) 2147483647 x.toInt) s
def execCvtZ32Z64Sat (u : Bool) (d a : Nat) (s : State) : Out := fromPair u d a (fun x => clampWord 0 4294967295 x.toNat) s

end Sys2Proof.Machine
end

