-- ==== Sys2Proof/Machine/System.lean ====
section
/-!
DEFINITION. The system instructions: TRAP, TRAPRET and BKPT (R302, R303), CSRR and CSRW (R309, R310), TLBINV and CINV (R306, R307),
TOKXFER and CLKLOCK (R308), SLEEP (R305), WATCH (R304); clause headers (R147 to R150); and the steps that end sleeps, windows, phases and
halts (R153, R369 to R374, R377).
-/
namespace Sys2Proof.Machine

/-! ## Shapes -/

/-- Runs a single-issue instruction of a level (R301): privilege, then register operands, read on lane0. -/
def systemOp (level : Nat) (writes reads : List RegUse) (k : Ctx → WorkGroup → Warp → Out) (s : State) : Out :=
  withGroup s fun c g w =>
    if privOf g w < level then trapWord s c causePrivilege else withRegs s c w [c.l0] writes reads fun _ => k c g w

/-- Whether a lane of the group has an outstanding result: the handler's own in handler mode. -/
def owesResults (c : Ctx) (w : Warp) : Bool := c.lanes.any fun l => (w.lane l).results.any fun r => r.hm == w.trap.hm

/-- The group waits until those results are written; their windows end. -/
def awaitResults (s : State) (c : Ctx) : State :=
  (stall s c).modWarp c.p c.wg c.wid fun w => w.modLanes c.lanes fun x =>
    { x with results := x.results.map fun r => if r.hm == w.trap.hm then { r with window := 0 } else r }

/-- A value written into a register of every lane of the group. -/
def giveAll (s : State) (c : Ctx) (vs : List (Nat × Word)) : State := writeLanes s c (c.lanes.map fun l => (l, vs))

/-! ## TRAP, BKPT, TRAPRET -/

/-- TRAP completes, then raises its cause. -/
def execTrap (s : State) : Out :=
  withGroup s fun c _ w =>
    if owesResults c w then .next (awaitResults s c)
    else .next ((retire s c).raiseWarp c.p c.wg c.wid causeSoftware (BitVec.ofNat 64 (c.word % 128)))

/-- BKPT raises its cause and does not complete. -/
def execBkpt (s : State) : Out :=
  withGroup s fun c _ w =>
    if owesResults c w then .next (awaitResults s c)
    else .next (raiseTrap s c [(causeBreak, (w.pcOf c).setWidth 64)])

/-- The handler address of a work-group's launch. -/
def State.handlerOf (s : State) (p : Nat) (g : WorkGroup) : VAddr :=
  match (s.work p).launch g.seq with
  | some l => l.rcd.handler.setWidth 56
  | none => 0

/-- TRAPRET: the handler's results and stores come first, those that other members perform too; it is no release. -/
def execTrapret (s : State) : Out :=
  withGroup s fun c g w =>
    if !w.trap.hm then trapWord s c causeIllegal
    else if owesResults c w then .next (awaitResults s c)
    else if c.lanes.any fun l => s.storeOpen c.p c.wg c.wid l true then .next (stall s c)
    else
      let mine (x : PendingStore) : Bool := x.hm && x.wg == c.wg && x.wid == c.wid && !x.bytes.isEmpty
      let s1 := (s.drainWhere c.p mine).modWarp c.p c.wg c.wid fun w => { w with retired := w.retired + 1 }
      .next ((returnFromHandler s1 c.p c.wg c.wid (s.handlerOf c.p g)).settle c.p)

/-! ## Control and status registers (R309, R310) -/

/-- The level that a read of a register needs. -/
def readLevel (n : Nat) : Nat :=
  match n with
  | 2 => 0
  | 8 => 0
  | 9 => 0
  | 10 => 2
  | 11 => 2
  | 12 => 0
  | _ => 1

/-- The level that a write of a register needs; none when it has no write level. -/
def writeLevel (n : Nat) : Option Nat :=
  match n with
  | 0 => some 1
  | 2 => some 1
  | 3 => some 1
  | 6 => some 1
  | 10 => some 3
  | 11 => some 3
  | _ => none

/-- Registers that describe the warp being handled. -/
def handlerReg (n : Nat) : Bool := n == 0 || n == 1 || n == 3 || n == 4

/-- HSTATE as an agent of a level reads it. -/
def TrapState.hstate (t : TrapState) (level : Nat) : Nat := t.cur * 65536 + t.hlane * 256 + bit t.ss * 16 + bit t.hm * 4 + level

/-- The PC of a lane as HPC shows it: the handler's edit, or where the lane stands. -/
def Warp.hpc (w : Warp) (l : Nat) : VAddr := findD w.trap.edits l (w.lane l).cur.place

/-- The value of a register. -/
def State.csrValue (s : State) (c : Ctx) (g : WorkGroup) (w : Warp) (n : Nat) : DWord :=
  let t := w.trap
  let l := (s.work c.p).launch g.seq
  let v : Nat := match n with
    | 0 => t.cause.toNat
    | 1 => t.tval.toNat
    | 2 => t.hstate (privOf g w)
    | 3 => (w.hpc t.hlane).toNat
    | 4 => t.skid
    | 5 => w.retired
    | 6 => w.phase.count % 2 ^ 32 * 2 ^ 32 + w.phase.budget
    | 7 => (l.map fun x => x.rcd.livetab.toNat).getD 0
    | 8 => (l.map fun x => x.energy / 1000).getD 0
    | 9 => s.time
    | 10 => s.power.floor * 2 ^ 32 + s.power.held
    | 11 => (s.part c.p).gatebase.toNat
    | _ => let k := (s.part c.p).clk; bit k.err * 2 ^ 31 + k.group * 65536 + k.mhz
  if handlerReg n && !t.hm then 0 else BitVec.ofNat 64 v

def execCsrr (_u : Bool) (d n : Nat) (s : State) : Out :=
  withGroup s fun c g w =>
    if 13 ≤ n then trapWord s c causeOperand
    else systemOp (readLevel n) [(d, 2)] [] (fun c _ _ =>
      .next (retire (giveAll s c (pairOf d (s.csrValue c g w n))) c)) s

/-- A write to HSTATE: HLANE and SS; none when a reserved field is set. -/
def TrapState.writeHstate (t : TrapState) (v : Nat) : Option TrapState :=
  if bitsOf v 63 21 ≠ 0 ∨ bitsOf v 15 13 ≠ 0 ∨ bitsOf v 7 5 ≠ 0 ∨ bitsOf v 3 3 ≠ 0 then none
  else some { t with hlane := bitsOf v 12 8, ss := bitsOf v 4 4 == 1 }

/-- A write of a register by the issuing group: the state, or none for an illegal operand. (log 54, DEDUCED) (log 55, DEDUCED) -/
def State.csrWrite (s : State) (c : Ctx) (w : Warp) (n : Nat) (v : DWord) : Option State :=
  let set (f : Warp → Warp) : State := s.modWarp c.p c.wg c.wid f
  if handlerReg n && !w.trap.hm then none
  else
    match n with
    | 0 => some (set fun y => { y with trap := { y.trap with
        cause := y.trap.cause &&& ~~~v.lo, tvals := y.trap.tvals.filter fun e => !v.lo.getLsbD e.1 } })
    | 2 => (w.trap.writeHstate v.toNat).map fun t => set fun y => { y with trap := t }
    | 3 =>
      if v.toNat % 4 ≠ 0 ∨ 2 ^ 56 ≤ v.toNat then none
      else some (set fun y => if (y.lane y.trap.hlane).status = .running then
        { y with trap := { y.trap with edits := put y.trap.edits y.trap.hlane (v.setWidth 56) } } else y)
    | 6 => some (set fun y => { y with phase := { y.phase with budget := v.lo.toNat } })
    | 10 => some (if 320 < bitsOf v.toNat 47 32 then s else { s with power := { s.power with floor := bitsOf v.toNat 47 32 } })
    | 11 => some (s.modPart c.p fun x => { x with gatebase := v })
    | _ => none

def execCsrw (_u : Bool) (a n : Nat) (s : State) : Out :=
  withGroup s fun c _ w =>
    if 13 ≤ n then trapWord s c causeOperand
    else
      match writeLevel n with
      | none => trapWord s c causeOperand
      | some k => systemOp k [] [(a, 2)] (fun c _ _ =>
        match s.csrWrite c w n (w.pair a c.l0) with
        | some s' => .next (retire s' c)
        | none => trapWord s c causeOperand) s

/-! ## Translations and caches (R306, R307) -/

/-- Whether a TLB entry maps a page of the alias descriptor table: 32 descriptors of 32 bytes. -/
def TlbEntry.ofTable (t : TlbEntry) (tab : Nat) : Bool :=
  decide (leafPa t.leaf.toNat < tab + 1024) && decide (tab < leafPa t.leaf.toNat + t.size)

/-- Whether a physical address lies in a TLB entry's page. -/
def TlbEntry.holds (t : TlbEntry) (pa : Nat) : Bool :=
  decide (leafPa t.leaf.toNat ≤ pa) && decide (pa < leafPa t.leaf.toNat + t.size)

/-- TLBINV (in modes 0 and 2 a nonzero A is an illegal operand, log 96, DEDUCED): the earlier stores of the issuing lane are performed, the entries go, and every access that stands waiting under one of them
is performed: in mode 0 every waiting store of the partition. -/
def execTlbinv (_u : Bool) (a b : Nat) (s : State) : Out :=
  systemOp 2 [] [(a, 2), (b, 1)] (fun c _ w =>
    let ctl := (w.reg b c.l0).toNat
    if 2 < ctl ∨ (ctl ≠ 1 ∧ a ≠ 0) then trapWord s c causeOperand
    else if s.storeOpen c.p c.wg c.wid c.l0 false then .next (stall s c)
    else
      let va := (w.pair a c.l0).toNat
      let gone (x : Partition) (t : TlbEntry) : Bool :=
        match ctl with
        | 0 => true
        | 1 => decide (t.base ≤ va) && decide (va < t.base + t.size)
        | _ => t.ofTable x.aliastab
      let lost := (s.part c.p).tlb.filter (gone (s.part c.p))
      let held (x : PendingStore) : Bool := !x.spad && x.bytes.any fun e => ctl == 0 || lost.any fun t => t.holds e.1
      .next (retire (((s.drainLanes c [c.l0]).modPart c.p fun x => { x with tlb := x.tlb.filter fun t => !gone x t }).drainWhere c.p held)
        c)) s

/-- The first answer that a test gives on pages of 64 KiB, of which `n` stand from page `k` on. -/
def firstPage {α : Type} (f : Nat → Option α) : Nat → Nat → Option α
  | 0, _ => none
  | n + 1, k =>
    match f k with
    | some x => some x
    | none => firstPage f n (k + 1)

/-- The first page of a range that CINV cannot maintain: the cause, and the page's first address within the range. (log 58, DEDUCED) -/
def State.cinvFault (s : State) (c : Ctx) (g : WorkGroup) (va n : Nat) : Option (Nat × DWord) :=
  let agent : Agent := ⟨c.p, dieOfSlice (sliceOfCore g.core), 2, false⟩
  firstPage (fun k =>
    let x := max va (k * 65536)
    if 2 ^ 56 ≤ x then some (causeAddress, BitVec.ofNat 64 x)
    else
      match (s.walkView c c.l0).leafFor c.p agent.die x with
      | none => some (causeTranslation, BitVec.ofNat 64 x)
      | some (e, size) =>
        if s.windowCheck agent .fetch e (leafPa e) size = some causeWindow then some (causeWindow, BitVec.ofNat 64 x) else none)
    (if n = 0 then 0 else (va % 65536 + n + 65535) / 65536) (va / 65536)

/-- The physical spans of a range of `n` bytes, page by page, as the walks of a state find them. -/
def State.spansOf (s : State) (p die va n : Nat) : List (Nat × Nat) :=
  ((upto (va / 65536) (if n = 0 then 0 else (va % 65536 + n + 65535) / 65536)).filterMap fun k =>
    let x := max va (k * 65536)
    (s.leafFor p die x).map fun e => (leafPa e.1 + x % e.2, min (va + n) ((k + 1) * 65536) - x))

/-- What CINV does to L1s (R307): modes 1 and 2 invalidate lines in every L1 of the partition, mode 3 all of the executing core's. -/
def State.dropLines (s : State) (p core mode : Nat) (spans : List (Nat × Nat)) : State :=
  let hit (x : Late) : Bool := spans.any fun e => (unitsIn e.1 e.2).contains x.unit
  match mode with
  | 0 => s
  | 1 => { s with late := s.late.map fun x => if !x.spad && hit x then x.dropped p none else x }
  | 2 => { s with late := s.late.map fun x => x.dropped p none }
  | _ => { s with late := s.late.map fun x => x.dropped p (some core) }

/-- CINV: L2 and DRAM are one memory here (log 6), so that only the L1s' lines go. -/
def execCinv (_u : Bool) (a b : Nat) (s : State) : Out :=
  systemOp 2 [] [(a, 2), (b, 1)] (fun c g w =>
    let ctl := (w.reg b c.l0).toNat
    let mode := bitsOf ctl 29 28
    let count := bitsOf ctl 27 0
    if bitsOf ctl 31 30 ≠ 0 ∨ (2 ≤ mode ∧ (a ≠ 0 ∨ count ≠ 0)) then trapWord s c causeOperand
    else if 2 ≤ mode then .next (retire (s.dropLines c.p g.core mode []) c)
    else
      let va := (w.pair a c.l0).toNat
      if va % 128 ≠ 0 then .next (raiseTrap s c [(causeAlignment, BitVec.ofNat 64 va)])
      else
        match s.cinvFault c g va (128 * count) with
        | some t => .next (raiseTrap s c [t])
        | none =>
          let die := dieOfSlice (sliceOfCore g.core)
          .next (retire (s.dropLines c.p g.core mode ((s.walkView c c.l0).spansOf c.p die va (128 * count))) c)) s

/-! ## Power (R308, R355) -/

/-- A partition whose lock lies above the clamp's clock leaves it. -/
def State.clampLock (s : State) (mhz p : Nat) : State :=
  let k := (s.part p).clk
  if k.mhz ≤ mhz then s
  else (s.modPart p fun x => { x with clk := { k with err := true, mhz := 0 } }).bbWrite 0x0601 p 0 4 k.group

/-- The highest clock, in steps of 100 MHz, at which the module draws no more than 10 W for each token held, or the lowest.
(log 88, DESIGN CHOICE) -/
def State.clampClock (s : State) : Nat :=
  (((upto 1 24).reverse.map (100 * ·)).find? fun c => decide (Config.freeDraw s.tick c ≤ 10 * s.power.held)).getD 100

/-- The clamp sets the clock: a change is recorded, once in 100 µs, and prevails over clock locks. -/
def State.setClock (s : State) (mhz : Nat) : State :=
  if mhz = s.power.clock then s
  else
    let s1 := { s with power := { s.power with clock := mhz } }
    let due := match s.bb.lastClamp with
      | none => true
      | some t => decide (t + 100000 ≤ s.time)
    let s2 := if due then { s1 with bb := { s1.bb with lastClamp := some s.time } }.bbWrite 0x0600 31 0 4 mhz else s1
    (s2.parts.map (·.1)).foldl (fun st p => st.clampLock mhz p) s2

/-- POWER_CLAMP_ADJUST. -/
def execPowerClampAdjust (s : State) : Out := .next (s.setClock s.clampClock)

/-- Tokens are sent to another module: the held count falls, and the clamp follows it. The transfer stays open until its return. -/
def State.sendTokens (s : State) (p module n : Nat) : State :=
  let s1 := { s with power := { s.power with held := s.power.held - n, sent := s.power.sent ++ [(module, n)] } }.bbWrite 0x0602 p 0 4
    (module % 65536 * 65536 + n)
  s1.setClock (min s1.power.clock s1.clampClock)

/-- Whether tokens can be sent: some, and no more than stand above the floor. -/
def State.sendable (s : State) (n : Nat) : Bool := n != 0 && decide (n ≤ s.power.held - s.power.floor)

def execTokxfer (_u : Bool) (d a b : Nat) (s : State) : Out :=
  systemOp 3 [(d, 1)] [(a, 1), (b, 1)] (fun c _ w =>
    let n := (w.reg b c.l0).toNat
    if 65536 ≤ (w.reg a c.l0).toNat then trapWord s c causeOperand
    else if !s.sendable n then .next (retire (giveAll s c [(d, 0)]) c)
    else .next (retire (giveAll (s.sendTokens c.p (w.reg a c.l0).toNat n) c [(d, w.reg b c.l0)]) c)) s

/-- A clock that CLKLOCK names: 0, or 600 to 2,400 in steps of 100. -/
def clockOk (v : Nat) : Bool := v == 0 || (decide (600 ≤ v) && decide (v ≤ 2400) && v % 100 == 0)

/-- A CLKLOCK waits; the handler waits as one, with a waiter of no lanes. (log 57, DEDUCED) (log 66, DEDUCED) -/
def State.awaitClock (s : State) (c : Ctx) (w : Warp) (group : Nat) : State :=
  if w.trap.hm then (stall s c).modWork c.p fun v => { v with waiters := v.waiters ++ [⟨.clklock group, c.wg, c.wid, []⟩] }
  else pendAt s c (.clklock group)

/-- CLKLOCK joins the partition's request, or makes it; while another request is open it waits its turn. -/
def execClklock (_u : Bool) (a b : Nat) (s : State) : Out :=
  systemOp 2 [] [(a, 1), (b, 1)] (fun c _ w =>
    let group := (w.reg a c.l0).toNat
    let mhz := (w.reg b c.l0).toNat
    let k := (s.part c.p).clk
    if 256 ≤ group ∨ 4096 ≤ mhz ∨ clockOk mhz = false then trapWord s c causeOperand
    else if !s.fabric.inDomain || !((s.part c.p).group group).valid then
      .next (retire (s.modPart c.p fun x => { x with clk := { k with err := true } }) c)
    else
      match k.pending with
      | none => .next ((s.modPart c.p fun x => { x with clk := { k with pending := some (group, mhz, s.time) } }).awaitClock c w group)
      | some (g0, m0, _) => .next (if g0 = group ∧ m0 = mhz then s.awaitClock c w group else stall s c)) s

/-- The partitions of this module that a clock lock of a group concerns: the members, and the one that holds the group. -/
def State.lockParts (s : State) (p a : Nat) : List Nat :=
  nub (p :: ((((s.part p).group a).members.filter s.isLocal).map (·.2)))

/-- What those that have asked asked for: the clock, and the time. -/
def State.lockAsks (s : State) (p a : Nat) : List (Nat × Nat) :=
  let ms := ((s.part p).group a).members
  (s.lockParts p a).filterMap fun k =>
    match (s.part k).clk.pending with
    | some (g, m, t) => if g = a ∧ ((s.part k).group a).members = ms then some (m, t) else none
    | none => none

/-- Whether every member of this module has asked, and the first slot boundary at least 1 µs later has come. -/
def State.lockDue (s : State) (p a : Nat) : Bool :=
  let asks := s.lockAsks p a
  asks.length == (s.lockParts p a).length && decide (slotAt s.fabric.slot ((asks.map (·.2)).foldl max 0 + 1000) ≤ s.time)

/-- Whether a group has a member on another module. -/
def State.elsewhere (s : State) (p a : Nat) : Bool := ((s.part p).group a).members.any fun m => !s.isLocal m

/-- CLOCK_LOCK_EFFECT (R308): the lock is in force in each member, or has failed where two name different clocks; a module whose clamp
needs a lower clock leaves it at once (R355). Members on another module may not all have asked yet, or may name another clock; the
boundary is then one after their last CLKLOCK, and a cycle takes 10 ns at most. (log 57, DEDUCED) -/
def State.clockEffect (s : State) (p a : Nat) : State :=
  let asks := s.lockAsks p a
  let fate := if s.elsewhere p a then Config.freeNat s.tick % 3 else 0
  if s.lockDue p a = false ∨ fate = 1 ∨ (s.elsewhere p a = true ∧ 10 ≤ s.time % max 1 s.fabric.slot) then s
  else
    let mhz := (asks.map (·.1)).headD 0
    let agree := fate == 0 && asks.all fun e => e.1 == mhz
    (s.lockParts p a).foldl (fun st k =>
      let st1 := st.modPart k fun x => { x with clk := if agree then ⟨false, a, mhz, none⟩ else { x.clk with err := true, pending := none } }
      (st1.clampLock st1.power.clock k).endClocks k) s

def execClockLockEffect (s : State) : Out := .next (s.clockEffect (s.arg 0) (s.arg 1))

/-! ## SLEEP and WATCH (R304, R305) -/

/-- SLEEP: the lanes issue again after the time named, or before (R305). (log 76, DEDUCED) -/
def execSleep (_u : Bool) (a : Nat) (s : State) : Out :=
  withGroup s fun c _ w =>
    if w.trap.hm then trapWord s c causeIllegal
    else withRegs s c w [c.l0] [] [(a, 1)] fun _ =>
      let n := min (w.reg a c.l0).toNat (2 ^ 24)
      if n = 0 then .next (retire s c)
      else .next ((retire s c).modWarp c.p c.wg c.wid fun v => v.modLanes c.lanes fun x => { x with hold := .sleep (s.cycle + n) })

/-- SLEEP_WAKE: the group that slept with a lane is free, once its cycles have passed. -/
def execSleepWake (s : State) : Out :=
  .next (s.modWarp (s.arg 0) (s.arg 1) (s.arg 2) fun w =>
    match (w.lane (s.arg 3)).hold with
    | .sleep t =>
      if t ≤ s.cycle then { w with lanes := w.lanes.map fun x => if x.hold = .sleep t then { x with hold := .free } else x } else w
    | _ => w)

def execWatch (_u : Bool) (a b : Nat) (s : State) : Out :=
  systemOp 1 [] [(a, 2), (b, 1)] (fun c _ w =>
    let ctl := (w.reg b c.l0).toNat
    let len := bitsOf ctl 7 4
    let va := (w.pair a c.l0).toNat
    if bitsOf ctl 31 8 ≠ 0 ∨ 12 < len then trapWord s c causeOperand
    else if va % 2 ^ len ≠ 0 then .next (raiseTrap s c [(causeAlignment, BitVec.ofNat 64 va)])
    else .next (retire (s.modWg c.p c.wg fun g => { g with watch := g.watch.set (bitsOf ctl 1 0) ⟨bitsOf ctl 3 2, len, va⟩ }) c)) s

/-! ## Clause headers (R147 to R150, R373) -/

/-- Whether a clause's wait fields hold a warp (R149). (log 36, DEDUCED) -/
def headerWaits (h : Header) (load store eng rel : Nat) : Bool :=
  let held (w n : Nat) : Bool := decide (w < 15) && decide (w < n)
  held h.wld load || held h.wst store || held h.wen eng || held h.wrl rel

/-- A group goes on into its clause, whose wait fields hold its first instruction (R149). -/
def Warp.enterClause (w : Warp) (ls : List Nat) (h : Header) (word : Nat) : Warp :=
  let into (x : Cursor) : Cursor := ⟨x.next, false, h.count, some (BitVec.ofNat 32 word)⟩
  if w.trap.hm then { w with trap := { w.trap with hcur := into w.trap.hcur } }
  else w.modLanes ls fun x => { x with cur := into x.cur }

/-- The header of the group is checked and its effects happen (R19, R150): the trap, or the clause; YIELD = 1 ends the turn of the group that
has it (R25). It costs no slot (log 89, DEDUCED). -/
def headerStep (s : State) : Out :=
  withGroup s fun c _ w =>
    let h := decodeHeader c.word
    if !h.ok 0 then
      if w.trap.hm then
        .next (s.modWarp c.p c.wg c.wid fun v => { v with trap :=
          { v.trap.raise causeIllegal c.wordTval with hcur := Cursor.at (v.trap.hcur.pc + BitVec.ofNat 56 (4 * (h.count + 1))) } })
      else trapWord s c causeIllegal
    else
      let s1 := if h.phase then s.startPhase c.p c.wg c.wid (w.pcOf c - 4) else s
      .next (s1.modWarp c.p c.wg c.wid fun v =>
        let y := v.enterClause c.lanes h c.word
        if h.yld && !v.trap.hm && c.lanes.any v.turn.contains then { y with turnEnd := true, turn := c.lanes } else y)

/-- The header of a sequencer. -/
def seqHeader (s : State) : Out :=
  withSeq s fun p q word _ =>
    let h := decodeHeader word
    if !h.ok q.cls then .next (s.seqTrap p q causeIllegal)
    else if headerWaits h 0 0 q.cmds.length 0 then .next s
    else .next (s.modSeq p q.id fun y => { y with cur := ⟨y.cur.next, false, h.count, some (BitVec.ofNat 32 word)⟩ })

def execClauseHeader (s : State) : Out :=
  match s.issue with
  | .seq _ _ _ _ => seqHeader s
  | _ => headerStep s

/-! ## Results, stores, phases (R153, R149, R377) -/

/-- LOOKAHEAD_RESULT_WRITE: a ticket's results whose windows have ended are written. -/
def execLookaheadResultWrite (s : State) : Out :=
  let t := s.arg 3
  .next (s.modWarp (s.arg 0) (s.arg 1) (s.arg 2) fun w =>
    (upto 0 w.lanes.length).foldl (fun y l =>
      let due (r : Result) : Bool := r.ticket == t && r.window == 0 && r.ready
      let z := ((y.lane l).results.filter due).foldl (fun v r => v.setRegs l r.vals) y
      z.modLanes [l] fun x => { x with results := x.results.filter fun r => !due r }) w)

def execStorePerformed (s : State) : Out := .next (s.performStore (s.arg 0) (s.arg 1))

/-- Whether a phase timer has run out. -/
def PhaseTimer.expired (t : PhaseTimer) (margin : Nat) : Bool := t.armed && decide (t.budget * (16 + margin) < t.count * 16)

/-- Whether a work-group's timers are checked: it runs, or has begun to stop in this cycle (R377). -/
def WorkGroup.timed (g : WorkGroup) : Bool :=
  match g.halt with
  | .running => true
  | .stopping _ => true
  | _ => false

/-- The work-group halts for warp `wid`; of warps that trap in one cycle the lowest is the one (R371). -/
def WorkGroup.haltedWith (g : WorkGroup) (wid : Nat) (same : Bool) : WorkGroup :=
  match g.halt with
  | .stopping k => if same && decide (wid % 32 < k % 32) then { g with halt := .stopping wid } else g
  | _ => g.halted wid

/-- PHASE_TIMER_EXPIRY; the last operand says that the work-group ran when the cycle began. -/
def execPhaseTimerExpiry (s : State) : Out :=
  let p := s.arg 0
  let wg := s.arg 1
  let wid := s.arg 2
  .next (match (s.work p).wg wg, s.warp p wg wid with
    | some g, some w =>
      let margin := (((s.work p).launch g.seq).map fun l => l.rcd.phmargin).getD 0
      if g.timed && w.phase.expired margin then
        let t : DWord := BitVec.ofNat 64 (w.phase.count % 2 ^ 32 * 2 ^ 32 + w.phase.budget)
        s.modWg p wg fun h => (h.modWarp wid fun v =>
          { v with phase := { v.phase with armed := false }, trap := v.trap.raise causePhase t }).haltedWith wid (s.arg 3 == 1)
      else s
    | _, _ => s)

/-! ## The handler is entered (R371, R374, R380) -/

/-- The warp on which the handler is entered: the one that trapped, else the lowest with a cause. -/
def WorkGroup.handlerWarp (g : WorkGroup) (wid : Nat) : Option Warp :=
  match g.warp wid with
  | some w => if w.trap.cause ≠ 0 then some w else (sortBy (fun a b => decide (a.wid % 32 ≤ b.wid % 32)) g.warps).find? (·.trap.cause != 0)
  | none => (sortBy (fun a b => decide (a.wid % 32 ≤ b.wid % 32)) g.warps).find? (·.trap.cause != 0)

/-- Whether every result whose window has ended can be written (R370). -/
def WorkGroup.resultsReady (g : WorkGroup) : Bool :=
  g.warps.all fun w => w.lanes.all fun x => x.results.all fun r => r.ready || r.window != 0

/-- A stopped work-group whose warp `wid` trapped enters its handler; one without a handler is ended. -/
def State.enterOrEnd (s : State) (p : Nat) (g : WorkGroup) (wid : Nat) : State :=
  match g.handlerWarp wid with
  | none => (resumeGroup s p g.id).settle p
  | some w =>
    let b := (lowestBit w.trap.cause).getD 0
    if s.handlerOf p g = 0 then
      ((s.faultLaunch p g.seq (0x0100 + b) g.core (findD w.trap.tvals b 0).toNat).settle p).completeLaunch p g.seq
    else
      s.modWg p g.id fun h => WorkGroup.enterHandler { h with warps := h.warps.map fun v => if v.wid = w.wid then v else v.writeEnded } w.wid
        (s.handlerOf p g)

/-- HANDLER_ENTRY: every warp has stopped; a work-group that a pre-emption waits for leaves first. -/
def execHandlerEntry (s : State) : Out :=
  let p := s.arg 0
  .next (match (s.work p).wg (s.arg 1) with
    | none => s
    | some g =>
      match g.halt with
      | .stopping wid =>
        if g.pre ≠ 0 then (s.modWg p g.id fun h => { h with halt := .stopped wid }).preemptWaiting p
        else if g.resultsReady then s.enterOrEnd p g wid
        else s
      | .stopped wid => if g.pre = 0 ∧ g.resultsReady = true then s.enterOrEnd p g wid else s
      | _ => s)

end Sys2Proof.Machine
end

