-- ==== Sys2Proof/Machine/Queues.lean ====
section
/-!
DEFINITION. Command queues (R124 to R127, R145): their registers, and each packet as a step. The placing of pending work (R30, R52, R53,
R136, R137), the completion of launches (R134), the withdrawal and pre-emption registers (R135, R420, R379).
-/
namespace Sys2Proof.Machine

/-! ## Who writes -/

/-- Whether a writer may write a register that needs a level: an agent of that level, or the owning master (R145, R348). Writers are
levels 0 to 3, or 16 plus a master's number. -/
def State.mayWrite (s : State) (who level : Nat) : Bool :=
  if who < 16 then decide (level ≤ who) else decide (s.host.elect.owner = who - 16) && decide (who - 16 < 15)

/-! ## Registers of a queue (R124, R127) -/

/-- STATE of a queue that is not waiting and not halted: parsing, or idle. -/
def Queue.refresh (x : Queue) : Queue :=
  if x.state ≤ 1 then { x with state := if x.en && x.qrptr != x.qwptr then 1 else 0 } else x

/-- A queue halted. -/
def Queue.halted (x : Queue) (code : Nat) : Queue := { x with state := code, unmet := [], limit := none }

/-- QWPTR written. -/
def Queue.setWptr (x : Queue) (v : DWord) : Queue :=
  let y := { x with qwptr := v }
  if 4 ≤ x.state then y else if 2 ^ x.qlog < (v - x.qrptr).toNat then y.halted 4 else y.refresh

/-- RESET written 1. -/
def Queue.reset (x : Queue) : Queue := { x with qrptr := 0, qwptr := 0, state := 0, unmet := [], limit := none }

/-- EN written 1. -/
def Queue.enable (x : Queue) : Queue :=
  let y := { x with en := true }
  if 4 ≤ x.state then y else if x.qbase.toNat % (64 * 2 ^ x.qlog) ≠ 0 then y.halted 5 else y.refresh

/-- The whole of QCTL written. -/
def Queue.setCtl (x : Queue) (v : Nat) : Queue :=
  let log := bitsOf v 12 8
  let y := { x with qlog := if 6 ≤ log ∧ log ≤ 20 then log else 6 }
  let z := if bitsOf v 1 1 = 1 then y.reset else y
  if v % 2 = 1 then z.enable else { z with en := false }.refresh

def State.modQueue (s : State) (p q : Nat) (f : Queue → Queue) : State :=
  s.modPart p fun x => { x with queues := put x.queues q (f (x.queue q)) }

/-- Whether the registers of a partition take writes. -/
def State.present (s : State) (p : Nat) : Bool := (s.part p).state == .running

def execQwptrWrite (s : State) : Out :=
  let who := s.arg 0
  .next (if s.mayWrite who 0 && s.present (s.arg 1) && decide (s.arg 2 < 64) then
    s.modQueue (s.arg 1) (s.arg 2) fun x => x.setWptr (BitVec.ofNat 64 (s.arg 3)) else s)

/-- QCTL belongs to the partition's supervisor. -/
def execQueueReset (s : State) : Out :=
  .next (if s.mayWrite (s.arg 0) 2 && s.present (s.arg 1) && decide (s.arg 2 < 64) then s.modQueue (s.arg 1) (s.arg 2) Queue.reset else s)
def execQueueEnable (s : State) : Out :=
  .next (if s.mayWrite (s.arg 0) 2 && s.present (s.arg 1) && decide (s.arg 2 < 64) then s.modQueue (s.arg 1) (s.arg 2) Queue.enable else s)

/-! ## Packets (R125, R126) -/

/-- The level of a queue (R145). -/
def Partition.queueLevel (x : Partition) (q : Nat) : Nat := if x.devq.testBit q then 3 else if x.supq.testBit q then 2 else 0

/-- A queue as an agent. -/
def State.queueAgent (s : State) (p q : Nat) : Agent := ⟨p, homeDie p, (s.part p).queueLevel q, false⟩

/-- A read at an offset of the packet that a queue has reached. -/
def State.packetRead (s : State) (p q off n : Nat) : Except Nat Nat :=
  let x := (s.part p).queue q
  s.agentRead (s.queueAgent p q) (x.qbase.toNat + 64 * ((x.qrptr.toNat + off / 64) % 2 ^ x.qlog) + off % 64) n

/-- The queue halts with STATE 7 (R127). (log 94, DESIGN CHOICE) -/
def State.queueFault (s : State) (p q type : Nat) : State :=
  (s.modQueue p q fun x => x.halted 7).bbWrite 0x0703 p (homeDie p) 2 (q * 65536 + type)

/-- QRPTR passes a packet. -/
def Queue.passed (x : Queue) (n : Nat) : Queue :=
  Queue.refresh { x with qrptr := x.qrptr + BitVec.ofNat 64 n, unmet := [], limit := none, state := 0 }

/-- The slots of a packet. -/
def packetSlots (h : Nat) : Nat := if h % 16 = 2 then (bitsOf h 11 8 + 4) / 4 else 1

/-- Whether a header breaks R125. -/
def packetBad (h : Nat) : Bool :=
  bitsOf h 31 12 != 0 || bitsOf h 7 5 != 0 || decide (4 < h % 16) || (h % 16 == 2 && (bitsOf h 11 8 == 0 || decide (12 < bitsOf h 11 8)))

/-- A queue that parses a packet of a type: what the packet's step does, or the halt of R125 and R127; the record of a header that cannot be
read has TYPE 0. (log 97, DESIGN CHOICE) -/
def State.onPacket (s : State) (p q type : Nat) (k : Nat → State) : State :=
  let x := (s.part p).queue q
  if !s.present p || !x.en || decide (1 < x.state) || x.qrptr == x.qwptr then s
  else
    match s.packetRead p q 0 8 with
    | .error _ => s.queueFault p q 0
    | .ok h =>
      if packetBad h then s.modQueue p q fun y => y.halted 5
      else if (x.qwptr - x.qrptr).toNat < packetSlots h then s.modQueue p q fun y => y.halted 4
      else if h % 16 = type then k h else s

def State.passPacket (s : State) (p q n : Nat) : State := s.modQueue p q fun x => x.passed n

def execNopPacket (s : State) : Out := .next (s.onPacket (s.arg 0) (s.arg 1) 0 fun _ => s.passPacket (s.arg 0) (s.arg 1) 1)

def execLaunchPacket (s : State) : Out :=
  let p := s.arg 0
  let q := s.arg 1
  .next (s.onPacket p q 1 fun _ =>
    match s.packetRead p q 8 8 with
    | .error _ => s.queueFault p q 1
    | .ok a =>
      if a % 256 ≠ 0 then s.modQueue p q fun x => x.halted 5
      else
        match s.agentRead (s.queueAgent p q) a 256 with
        | .error _ => s.queueFault p q 1
        | .ok v => (s.accept (s.queueAgent p q) ((s.part p).queueLevel q) v).passPacket p q 1)

/-- The counters of a FENCE from number `i` on, with their targets. -/
def State.fenceList (s : State) (p q : Nat) : Nat → Nat → Except Nat (List (Nat × Nat))
  | _, 0 => .ok []
  | i, n + 1 => do
    let a ← s.packetRead p q (16 + 16 * i) 8
    let t ← s.packetRead p q (24 + 16 * i) 8
    let r ← s.fenceList p q (i + 1) n
    return (a, t) :: r

/-- The counters that a read finds below their targets. -/
def State.unmetOf (s : State) (g : Agent) : List (Nat × Nat) → Except Nat (List (Nat × Nat))
  | [] => .ok []
  | e :: r => do
    let v ← s.agentRead g e.1 8
    let l ← s.unmetOf g r
    return if e.2 ≤ v then l else e :: l

/-- A FENCE reads its counters: it passes, or waits with those not met. -/
def State.fenceRead (s : State) (p q : Nat) (cs : List (Nat × Nat)) (slots : Nat) (limit : Option Nat) : State :=
  match s.unmetOf (s.queueAgent p q) cs with
  | .error _ => s.queueFault p q 2
  | .ok [] => s.passPacket p q slots
  | .ok l => s.modQueue p q fun x => { x with state := 2, unmet := l, slots := slots, limit := limit }

/-- A FENCE packet: the queue waits until its counters reach their targets (R126). (log 64, DEDUCED) -/
def execFencePacket (s : State) : Out :=
  let p := s.arg 0
  let q := s.arg 1
  .next (s.onPacket p q 2 fun h =>
    match s.fenceList p q 0 (bitsOf h 11 8) with
    | .error _ => s.queueFault p q 2
    | .ok cs =>
      if cs.any fun e => e.1 % 8 != 0 then s.modQueue p q fun x => x.halted 5
      else s.fenceRead p q cs (packetSlots h) (if h / 2 ^ 32 = 0 then none else some (s.time + 1000 * (h / 2 ^ 32))))

/-- FENCE_COUNTERS_MET: the counters still unmet are read again. -/
def execFenceCountersMet (s : State) : Out :=
  let p := s.arg 0
  let q := s.arg 1
  let x := (s.part p).queue q
  .next (if s.present p && x.en && x.state == 2 then s.fenceRead p q x.unmet x.slots x.limit else s)

def execFenceTimeout (s : State) : Out :=
  let p := s.arg 0
  let q := s.arg 1
  let x := (s.part p).queue q
  .next (match x.limit with
    | some t => if s.present p && x.state == 2 && decide (t ≤ s.time) then s.modQueue p q fun y => y.halted 6 else s
    | none => s)

/-- The effect of a WRITE: a store, or an atomic addition; none when it faults. -/
def State.packetWrite (s : State) (p q a v : Nat) (add : Bool) : Option State :=
  let g := s.queueAgent p q
  match s.memLoc g (if add then .atomic else .write) a 8 add with
  | .error _ => none
  | .ok l =>
    match s.fetchLoc p none l 8 with
    | .error _ => none
    | .ok old =>
      if add && old.2 then none
      else
        match s.putLoc p g.level 0 l (bytesOf 8 (if add then (ofBytes old.1 + v) % 2 ^ 64 else v)) false with
        | .ok s' => some s'
        | .error _ => none

def execWritePacket (s : State) : Out :=
  let p := s.arg 0
  let q := s.arg 1
  .next (s.onPacket p q 3 fun h =>
    match s.packetRead p q 8 8, s.packetRead p q 16 8 with
    | .ok a, .ok v =>
      if a % 8 ≠ 0 then s.modQueue p q fun x => x.halted 5
      else
        match s.packetWrite p q a v (bitsOf h 4 4 == 1) with
        | some s' => s'.passPacket p q 1
        | none => s.queueFault p q 3
    | _, _ => s.queueFault p q 3)

def execTimedPacket (s : State) : Out :=
  let p := s.arg 0
  let q := s.arg 1
  .next (s.onPacket p q 4 fun _ =>
    match s.packetRead p q 8 8 with
    | .error _ => s.queueFault p q 4
    | .ok t => if t ≤ s.time then s.passPacket p q 1 else s.modQueue p q fun x => { x with state := 3, limit := some t })

def execTimedReached (s : State) : Out :=
  let p := s.arg 0
  let q := s.arg 1
  let x := (s.part p).queue q
  .next (match x.limit with
    | some t => if s.present p && x.en && x.state == 3 && decide (t ≤ s.time) then s.passPacket p q 1 else s
    | none => s)

/-! ## Placement (R136, R137) -/

/-- The list with some elements in the place of its n-th. -/
def replaceNth {α : Type} (l : List α) (n : Nat) (xs : List α) : List α := l.take n ++ xs ++ l.drop (n + 1)

/-- The first item, in the order of R136, that fits is placed. -/
def State.placeNext (s : State) (p : Nat) : State :=
  if !s.present p then s
  else
    match (s.work p).tryOrder.findSome? fun e => (s.placeOne p e.2).map fun r => (e.1, r) with
    | some (n, s', left) => s'.modWork p fun w => { w with items := replaceNth w.items n left }
    | none => s

def execPlaceItem (s : State) : Out := .next (s.placeNext (s.arg 0))

/-- The class that an item's age gives it. -/
def Item.aged (i : Item) (now : Nat) : Nat := i.prio - (now - i.since) / 65536

/-- PRIORITY_AGING: an item stands in the class of its age. -/
def execPriorityAging (s : State) : Out :=
  .next (s.modWork (s.arg 0) fun w =>
    { w with items := upd w.items (s.arg 1) fun i => { i with cls := min i.cls (i.aged s.cycle) } })

/-- PLACEMENT_RESERVE: an item passed over for 1,048,576 cycles reserves its place. -/
def execPlacementReserve (s : State) : Out :=
  .next (s.modWork (s.arg 0) fun w =>
    { w with items := upd w.items (s.arg 1) fun i => if i.since + 1048576 ≤ s.cycle then { i with reserved := true } else i })

/-! ## Output warps (R52, R53) -/

/-- The next warp of a relation's output starts, when its position and its core are free; its start is an acquire (R56). None starts while
the partition freezes (R322). -/
def State.startOutput (s : State) (p n : Nat) : State :=
  let w := s.work p
  match w.outputs[n]? with
  | none => s
  | some o =>
    match o.warps with
    | [] => s
    | (j, ts) :: rest =>
      let cap := max 1 o.seats.length
      let pos := j % cap
      match (if s.present p then o.seat j else none) >>= fun e => (w.wg e.1).map fun g => (g, e.2), w.launch o.seq with
      | some (g, idx), some l =>
        let busy := decide (cap ≤ j) && (match find o.started pos with
          | some k => (g.warp k).isSome
          | none => false)
        if busy || decide (32 ≤ (w.usedSlots g.core).length) || decide (256 < w.usedGranules g.core + o.granules) then s
        else
          let key := (((upto 0 64).map fun m => idx % 32 + 32 * m).find? fun k => (g.warp k).isNone).getD idx
          let x := mkWarp key ((w.freeSlots g.core).headD 0) o.granules .zero ts
          let ls := if g.cont then [contLevel g.seats.length] else l.rcd.levels
          let others := ((w.peers g).flatMap (·.space)) ++ ((w.onCore g.core).filter (·.seq == g.seq)).flatMap (·.space)
          let r := g.addRegions ls (ts.map (·.lix)) others s.spad.next
          let left := if rest.isEmpty then none else some { o with warps := rest, started := put o.started pos key }
          ({ s with spad := { s.spad with next := r.2 } }.acquireOn p g.core).modWork p fun v =>
            { v.modWg g.id (fun h => { h with warps := h.warps ++ [x], space := r.1.space }) with
              outputs := replaceNth v.outputs n left.toList }
      | _, _ => s

def execOutputWarpStart (s : State) : Out := .next (s.startOutput (s.arg 0) (s.arg 1))

/-! ## Room for a barrier's member (R30) -/

/-- Whether an item holds a member of an instance that has not arrived at the round of its level. -/
def Item.missing (i : Item) (ls : List Level) (k : Nat) (inst : List Nat) : Bool :=
  match i.kind with
  | .saved imgs => imgs.any fun m => m.wg.running.any fun x => instanceOf x.lix k == inst && x.hold != .lbar k
  | .rows _ _ _ => false
  | _ => i.holds ls k inst

/-- The rounds at which a work-group is held whose level is not gang-placed: those at which a lane of it is. (log 100, DESIGN CHOICE) -/
def WorkGroup.openRounds (g : WorkGroup) (ls : List Level) : List (Nat × List Nat) :=
  g.running.filterMap fun x =>
    match x.hold with
    | .lbar k => if gangDomain (ls.getD k (contLevel 1)).domain then none else some (k, instanceOf x.lix k)
    | _ => none

/-- Whether a work-group is the youngest one held at a round whose unplaced member fits nowhere. -/
def State.lbarVictim (s : State) (p : Nat) (l : Launch) (g : WorkGroup) (r : Nat × List Nat) : Bool :=
  let w := s.work p
  let ls := l.rcd.levels
  let held := (w.wgs.filter (·.seq == g.seq)).filter fun h => (h.openRounds ls).contains r
  let missing := w.items.filter fun i => i.seq == g.seq && !i.held && i.missing ls r.1 r.2
  (youngest held).any (·.id == g.id) && !missing.isEmpty && missing.all fun i => (s.placeOne p i).isNone

/-- The unplaced member of one of some rounds is placed in the room that a pre-empted work-group has left, or keeps that room until it
stands free (R30). -/
def State.placeMissing (s : State) (p : Nat) (l : Launch) (rs : List (Nat × List Nat)) : State :=
  let items := (s.work p).items
  match (upto 0 items.length).find? fun n => (items[n]?).any fun i =>
      i.seq == l.seq && !i.held && rs.any fun r => i.missing l.rcd.levels r.1 r.2 with
  | none => s
  | some n =>
    match items[n]? >>= s.placeOne p with
    | some (s', left) => s'.modWork p fun w => { w with items := replaceNth w.items n left }
    | none => s.modWork p fun w => { w with items := upd w.items n fun i => { i with reserved := true } }

/-- LBAR_PLACEMENT_PREEMPT: the youngest held work-group leaves its core, and the unplaced member takes the room. -/
def execLbarPlacementPreempt (s : State) : Out :=
  let p := s.arg 0
  .next (match (s.work p).wg (s.arg 1) with
    | none => s
    | some g =>
      match (s.work p).launch g.seq with
      | some l =>
        let rs := (g.openRounds l.rcd.levels).filter (s.lbarVictim p l g)
        if s.present p && g.pre == 0 && !g.cont && !rs.isEmpty then (s.preemptGroup p g false).placeMissing p l rs else s
      | none => s)

/-! ## Completion, withdrawal, pre-emption -/

def execLaunchComplete (s : State) : Out := .next (s.completeLaunch (s.arg 0) (s.arg 1))

/-- WITHDRAW_LAUNCH: WSEQ and CMD 1 written together. -/
def execWithdrawLaunch (s : State) : Out :=
  let p := s.arg 1
  .next (if s.mayWrite (s.arg 0) 2 && s.present p then
    (s.modPart p fun x => { x with withdraw := { x.withdraw with arg := s.arg 2 % 2 ^ 64 } }).withdraw p else s)

def execPreempt (s : State) : Out :=
  .next (if s.mayWrite (s.arg 0) 2 && s.present (s.arg 1) then s.preemptCommand (s.arg 1) (s.arg 2 % 1024) false else s)
def execPreemptAndHold (s : State) : Out :=
  .next (if s.mayWrite (s.arg 0) 2 && s.present (s.arg 1) then s.preemptCommand (s.arg 1) (s.arg 2 % 1024) true else s)
def execPreemptRelease (s : State) : Out :=
  .next (if s.mayWrite (s.arg 0) 2 && s.present (s.arg 1) then s.preemptReleaseAll (s.arg 1) else s)

/-- PREEMPT_SWAP_COMPLETE: the banks of a core have swapped (R379). -/
def execPreemptSwapComplete (s : State) : Out :=
  .next (if (s.coreOf (s.arg 0)).swapEnd ≤ s.cycle then s.modCore (s.arg 0) fun c => { c with swapEnd := 0 } else s)

/-- The active partition that holds a core. -/
def State.holderOf (s : State) (core : Nat) : Option Nat :=
  (s.parts.find? fun e => e.2.state != .off && ownsCore e.1 core).map (·.1)

/-- PREEMPT_SPILL_COMPLETE: the spill of a core ends as far as it can, once the banks have swapped. -/
def execPreemptSpillComplete (s : State) : Out :=
  let c := s.arg 0
  .next (match s.holderOf c with
    | some p => if (s.coreOf c).spill && decide ((s.coreOf c).swapEnd ≤ s.cycle) then s.spillCore p c else s
    | none => s)

end Sys2Proof.Machine
end

