-- ==== Sys2Proof/Machine/Tenants.lean ====
section
/-!
DEFINITION. Partitions and gates from outside: descriptors and their commands (R313 to R317), freeze and resume (R322 to R325), writes of
the gate directory (R318, R320), rings enabled and disabled (R236, R237).
-/
namespace Sys2Proof.Machine

/-! ## Checks of a descriptor (R313, R314) -/

/-- A memory window or a gate window: 0, or a size in range and a base that is a multiple of it. -/
def windowOk (log lo hi base : Nat) : Bool := log == 0 || (decide (lo ≤ log) && decide (log ≤ hi) && base % 2 ^ log == 0)

/-- Whether the dword at an offset passes R313. For a reserved bit of ENCOUNT or FEDCOUNT that is set R313 names no fate: it counts as a
bad field, as those of GQUOTA do. (log 98, DESIGN CHOICE) -/
def fieldOk (off v : Nat) : Bool :=
  if off = 0 then bitsOf v 63 48 != 0 && bitsOf v 47 16 == 0 && bitsOf v 10 8 == 0
  else if off = 8 then v % 2048 == 0
  else if off = 16 then v % 1024 == 0
  else if off = 24 then v % 65536 == 0
  else if off = 56 then bitsOf v 63 32 == 0
  else if 64 ≤ off ∧ off < 96 then bitsOf v 11 5 == 0 && decide (6 ≤ bitsOf v 4 0) && decide (bitsOf v 4 0 ≤ 20)
  else if off = 96 then v % 8 == 0
  else if off = 104 then bitsOf v 63 16 == 0
  else if off = 112 then v % 4096 == 0
  else if 128 ≤ off ∧ off < 192 then windowOk (bitsOf v 63 58) 16 51 (bitsOf v 51 0) && bitsOf v 57 52 == 0
  else if 192 ≤ off ∧ off < 224 then windowOk (bitsOf v 63 58) 16 40 (bitsOf v 51 16 * 65536) && bitsOf v 3 1 == 0
  else if off = 224 then v % 4 == 0
  else if off = 232 then bitsOf v 63 6 == 0
  else if off = 240 then decide (v ≤ 4096)
  else if off = 248 then v % 4096 == 0
  else true

/-- Whether two ranges meet. -/
def meet_ (a b : Nat × Nat) : Bool := decide (a.1 < b.1 + b.2) && decide (b.1 < a.1 + a.2)

/-- A gate window's range, and the windows as base, size and gate. -/
def Partition.gateRanges (x : Partition) : List (Nat × Nat × Nat) := x.gateWindows.map fun w => (w.1, w.2.1, w.2.2.1)

/-- Whether the windows of a descriptor overlap those of another partition in use, or each other, in a way that R314 forbids. -/
def windowsClash (x : Partition) (others : List Partition) : Bool :=
  let mem := x.windows
  let gates := x.gateRanges
  (mem.any fun w => gates.any fun g => meet_ w (g.1, g.2.1)) ||
  others.any fun y =>
    (mem.any fun w => (y.windows.any (meet_ w)) || y.gateRanges.any fun g => meet_ w (g.1, g.2.1)) ||
    (gates.any fun g => (y.windows.any (meet_ (g.1, g.2.1))) ||
      y.gateRanges.any fun h => meet_ (g.1, g.2.1) (h.1, h.2.1) && g != h)

/-- The other descriptors in STATE 1 to 4, with their numbers. -/
def State.inUse (s : State) (p : Nat) : List (Nat × Partition) := s.parts.filter fun e => e.1 != p && e.2.state != .off

/-- Whether two partitions share a slice. -/
def sharesSlice (p q : Nat) : Bool := meet_ (shape p) (shape q)

/-- The ERRWHY with which activation is refused, if any (R314). -/
def State.activationWhy (s : State) (p : Nat) : Option Nat :=
  let x := s.part p
  let others := s.inUse p
  if !((upto 0 32).all fun k => fieldOk (8 * k) (x.dword (8 * k))) then some 4
  else if others.any fun e => sharesSlice p e.1 then some 1
  else if others.any fun e => e.2.copyMask &&& x.copyMask != 0 then some 2
  else if windowsClash x (others.map (·.2)) then some 3
  else if !((upto 0 x.encount).all fun i => x.inWindow (x.enbase + 8 * i) 8) then some 4
  else none

/-! ## Commands (R314) -/

/-- A refused command. (log 60, DEDUCED) -/
def State.refuse (s : State) (p cmd why : Nat) : State :=
  (s.modPart p fun x => { x with err := true, errwhy := why }).bbWrite 0x0701 p 0 6 (why * 16 + cmd)

/-- A command that is carried out. -/
def State.carryOut (s : State) (p cmd : Nat) : State := (s.modPart p fun x => { x with err := false }).bbWrite 0x0700 p 0 6 cmd

/-- A partition as activation leaves it: its descriptor, and everything else as after reset. -/
def Partition.activated (x : Partition) : Partition :=
  { Partition.empty with desc := x.desc, state := .running, err := x.err, errwhy := x.errwhy, gatebase := x.gatebase }

/-- The cores of a partition with nothing on them. -/
def State.clearCores (s : State) (p : Nat) : State := { s with cores := s.cores.filter fun e => !ownsCore p e.1 }

/-- CMD 1. -/
def State.activate (s : State) (p : Nat) : State :=
  if (s.part p).state ≠ .off then s.refuse p 1 4
  else
    match s.activationWhy p with
    | some why => s.refuse p 1 why
    | none => (((s.clearCores p).modPart p Partition.activated).modWork p fun _ => Work.empty).carryOut p 1

/-- Reduction slots of every group released (R330). -/
def Partition.releaseSlots (x : Partition) : Partition :=
  { x with groups := x.groups.map fun e => (e.1, if e.2.valid && e.2.rslot != 0 then { e.2 with rslot := 3 } else e.2) }

/-- A queue whose FENCE or TIMED in progress is abandoned (R322). -/
def Queue.abandon (x : Queue) : Queue :=
  if x.state = 2 ∨ x.state = 3 then Queue.refresh { x with state := 0, unmet := [], limit := none } else x

/-- The gates homed in a partition. -/
def State.homed (s : State) (p : Nat) : List Nat := (s.gates.filter fun e => e.2.v && e.2.home == p).map (·.1)

/-- CMD 2: placement and queues stop, and work-groups leave their cores (R322, steps 1 to 3). -/
def State.freeze (s : State) (p : Nat) : State :=
  if (s.part p).state ≠ .running then s.refuse p 2 4
  else
    let s1 := ((s.carryOut p 2).dropAllParked p).modPart p fun x =>
      { x.releaseSlots with state := .freezing, queues := x.queues.map fun e => (e.1, e.2.abandon) }
    s1.preemptEach p ((s1.work p).wgs.map (·.id)) false

/-- Whether a partition holds no work-group on a core, no command in flight and no access to perform. -/
def State.quiet (s : State) (p : Nat) : Bool :=
  let w := s.work p
  w.wgs.isEmpty && w.images.all (·.spilled) && w.seqs.all (fun q => q.cmds.isEmpty) && w.stores.isEmpty &&
    (w.images.all fun m => m.seqs.all fun q => q.cmds.isEmpty) && (s.part p).channels.all fun c => c.2.state != 1

/-! ## Images (R322, R324) -/

/-- The 64 bytes with which the part marks its image number `n`: a stamp that it chooses, and the number. (log 30, DESIGN CHOICE) -/
def imageMark (n : Nat) : Nat := n + 2 ^ 64 * (Config.freeNat (2 ^ 100 + n) % 2 ^ 448)

/-- An image written at a physical address, of which the model holds the mark as bytes. (log 30, DESIGN CHOICE) -/
def State.addImage (s : State) (addr : Nat) (m : SaveImage) : State :=
  let n := s.images.length + 1
  { s with images := s.images ++ [{ m with serial := n }], mem := s.mem.write addr (bytesOf 64 (imageMark n)) }

/-- The image that stands in memory at an address where the mark of no image of this part stands: one that another module wrote (R322,
before R323). What the bytes of such an image say is left to the parts; the machine may find any image there, or none. (log 30, DESIGN
CHOICE) -/
opaque foreignImage : Memory → Nat → Option SaveImage

/-- The image at a physical address, wherever its bytes were copied from. -/
def State.imageAt (s : State) (addr : Nat) : Option SaveImage :=
  match s.images.find? fun m => imageMark m.serial == s.mem.read addr 64 with
  | some m => some m
  | none => foreignImage s.mem addr

/-- The work of a frozen partition, as its freeze wrote it. -/
def State.frozenWork (s : State) (p : Nat) : Work :=
  if (s.part p).state = .frozen then ((s.images.reverse.find? fun m => m.source == p && m.kind == 0).map (·.work)).getD Work.empty
  else Work.empty

/-- The gates of a partition with their entries. -/
def State.homedGates (s : State) (p : Nat) : Map Gate := (s.homed p).map fun n => (n, s.gate n)

/-- FREEZE_COMPLETE: the gates freeze, the image is written, and STATE becomes 3 (R322, steps 4 and 5). -/
def State.freezeComplete (s : State) (p : Nat) : State :=
  let x := s.part p
  if x.state ≠ .freezing ∨ s.quiet p = false then s
  else
    let s1 := (s.homed p).foldl (fun st n => st.modGate n fun g => { g with frz := true }) s
    let img : SaveImage := { serial := 0, kind := 0, source := p, part := x, work := s.work p,
                             cores := (s.cores.filter fun e => ownsCore p e.1).map fun e => (e.1, e.2.deque), gates := s1.homedGates p }
    (((s1.clearCores p).addImage x.imageAddr img).modWork p fun _ => Work.empty).modPart p fun y => { y with state := .frozen }

/-! ## Waits on a gate that lose their right (R320, R324) -/

/-- Every lane held in GWAIT on a gate without the wait right raises the gate-access fault. -/
def State.revoke (s : State) (n : Nat) : State :=
  let g := s.gate n
  s.works.foldl (fun st e => e.2.waiters.foldl (fun st x =>
    match x.kind, (st.work e.1).wg x.wg with
    | .gwait k _ _, some wg =>
      if k == n && !(g.v && (g.rightsAt (st.part e.1).tenant wg.priv).2.1) then
        (st.faultWaiter e.1 x causeGate (BitVec.ofNat 64 n)).gateFault n
      else st
    | _, _ => st) st) s

/-! ## Tear-down (R317, R324) -/

/-- The gates of a partition that is torn down: kept frozen and homeless, or exported; and what the image records of them. -/
def State.tearGates (s : State) (p : Nat) (exporting : Bool) : State × Map Gate :=
  (s.homed p).foldl (fun acc n =>
    let g := acc.1.gate n
    if exporting then ((acc.1.modGate n fun g => { g with v := false, frz := false, queued := [] }).revoke n, acc.2 ++ [(n, g)])
    else (acc.1.modGate n fun g => { g with frz := true, home := 31 }, acc.2 ++ [(n, Gate.empty)])) (s, [])

/-- The image of a partition closed with its gates; one that was not frozen has no work in it. -/
def State.closeImage (s : State) (p kind : Nat) (gates : Map Gate) : State :=
  let x := s.part p
  let old : SaveImage := match s.imageAt x.imageAddr with
    | some m => if x.state = .frozen ∧ m.kind = 0 ∧ m.source = p then m else ⟨0, 0, p, x, Work.empty, [], []⟩
    | none => ⟨0, 0, p, x, Work.empty, [], []⟩
  s.addImage x.imageAddr { old with kind := kind, gates := gates }

/-- CMD 4 and 5. The launches that a frozen partition has not completed end as those of a running one do. (log 61, DEDUCED) -/
def State.tearDown (s : State) (p cmd : Nat) : State :=
  let x := s.part p
  if x.state ≠ .running ∧ x.state ≠ .frozen then s.refuse p cmd 4
  else
    let s1 := (s.carryOut p cmd).dropAllParked p
    let r := s1.tearGates p (cmd == 5)
    let s2 := r.1.closeImage p cmd r.2
    let frozen := (s.frozenWork p).launches.filter fun l => !l.2.pushing
    let s3 := (s2.modWork p fun w => { w with launches := w.launches ++ frozen }).modPart p fun x =>
      { x.releaseSlots with state := .tearing, queues := x.queues.map fun e => (e.1, e.2.abandon), channels := [] }
    ((s3.work p).launches.map (·.1)).foldl (fun st seq => st.endLaunch p seq .aborted) s3

/-- TEARDOWN_COMPLETE: launches complete; once none is left, the slices and engines are released, and the TLB entries removed (R69). -/
def State.tearComplete (s : State) (p : Nat) : State :=
  if (s.part p).state ≠ .tearing ∨ !((s.work p).seqs.all fun q => q.cmds.isEmpty) ∨ !(s.work p).stores.isEmpty then s
  else
    let s1 := ((s.work p).launches.map (·.1)).foldl (fun st seq => st.completeLaunch p seq) s
    if !(s1.work p).launches.isEmpty then s1
    else ((s1.clearCores p).modWork p fun _ => Work.empty).modPart p fun x => { x with state := .off, tlb := [] }

/-! ## Resume (R323) -/

/-- The first gate condition that an image fails (R324). -/
def State.gatesWhy (s : State) (m : SaveImage) : Option Nat :=
  if m.kind = 4 then (if m.gates.all fun e => (s.gate e.1).v && (s.gate e.1).frz && (s.gate e.1).home == 31 then none else some 5)
  else if m.gates.all fun e => !(s.gate e.1).v then none else some 6

/-- Entries appended to a deque, as many as fit and belong there: the deque, and the entries left over. -/
def Deque.append (d : Deque) (owner : Nat) (es : List DWord) : Deque × List DWord :=
  if es.isEmpty ∨ (d.owner ≠ 0 ∧ d.owner ≠ owner) then (d, es)
  else
    let room := 8192 - d.entries.length
    if room = 0 then (d, es) else (⟨owner, d.entries ++ es.take room⟩, es.drop room)

/-- Entries put on deques from rank `j` on, round the ranks; none when they do not fit. -/
def spreadDeque (ds : List Deque) (owner j : Nat) : Nat → List DWord → Option (List Deque)
  | _, [] => some ds
  | 0, _ => none
  | fuel + 1, es =>
    let k := j % max 1 ds.length
    let r := (ds.getD k ⟨0, []⟩).append owner es
    spreadDeque (ds.set k r.1) owner (k + 1) fuel r.2

/-- The deques of an image on `n` cores: source rank by source rank. -/
def SaveImage.deques (m : SaveImage) (n : Nat) : Option (List Deque) :=
  (m.cores).foldlM (fun ds e => spreadDeque ds e.2.owner (e.1 - 64 * firstSlice m.source) n e.2.entries) (List.replicate n ⟨0, []⟩)

/-- Arrived tiles put on the queues of slices from rank `j` on; none when they do not fit. -/
def spreadTiles (qs : List TileQueue) (t : TileQueue) (first n j : Nat) : Nat → List Nat → Option (List TileQueue)
  | _, [] => some qs
  | 0, _ => none
  | fuel + 1, es =>
    let sl := first + j % max 1 n
    let here (x : TileQueue) : Bool := x.seq == t.seq && x.n == t.n && x.slice == sl
    let q := (qs.find? here).getD ⟨t.seq, sl, t.n, [], t.closed⟩
    let room := 1024 - q.tiles.length
    spreadTiles ({ q with tiles := q.tiles ++ es.take room, closed := q.closed && t.closed } :: qs.filter fun x => !here x) t first n (j + 1)
      fuel (es.drop room)

/-- The arrived-tile queues of an image on the slices of partition `p`; an empty queue keeps whether it is closed. -/
def SaveImage.tileQueues (m : SaveImage) (p : Nat) : Option (List TileQueue) :=
  (sortBy (fun (a b : TileQueue) => decide (a.slice ≤ b.slice)) m.work.tqs).foldlM (fun qs t =>
    let j := t.slice - firstSlice m.source
    if t.tiles.isEmpty then
      let sl := firstSlice p + j % sliceCount p
      some (if qs.any fun x => x.seq == t.seq && x.n == t.n && x.slice == sl then qs else qs ++ [{ t with slice := sl }])
    else spreadTiles qs t (firstSlice p) (sliceCount p) j (sliceCount p) t.tiles) []

/-- The cluster of partition `p` that stands for one of the source partition. -/
def SaveImage.clusterAt (m : SaveImage) (p cl : Nat) : Nat := 2 * firstSlice p + (cl - 2 * firstSlice m.source) % (2 * sliceCount p)

/-- The work of an image in partition `p`: saved work-groups at the head of their classes, Guidons and their programs by rank; launches
take its energy-counter table, and slices for their instances afresh. What stands in a class waits there from `now` on (R136). -/
def SaveImage.workAt (m : SaveImage) (p enbase now : Nat) (tqs : List TileQueue) : Work :=
  let saved (i : Item) : Bool := match i.kind with
    | .saved _ => true
    | _ => false
  { m.work with
    items := (m.work.items.filter saved ++ m.work.items.filter fun i => !saved i).map fun i => { i with since := now }
    launches := m.work.launches.map fun l => (l.1, { l.2 with enbase := enbase, slices := [] })
    seqs := m.work.seqs.map fun q => { q with cluster := m.clusterAt p q.cluster }
    tqs := tqs
    guidons := m.work.guidons.foldl (fun gs e =>
      let k := m.clusterAt p e.1
      let g := findD gs k ⟨[], []⟩
      put gs k ⟨g.events ++ e.2.events, sortNat (g.waiting ++ e.2.waiting)⟩) [] }

/-- One more than the highest launch sequence number that an image records (R314). -/
def SaveImage.nextSeq (m : SaveImage) : Nat :=
  1 + ((m.work.launches.map (·.1)) ++ m.work.items.map (·.num) ++ m.work.images.map (·.wg.num)).foldl max 0

/-- The registers of a partition that resumes: those of the image, with its own descriptor. (log 62, DEDUCED) -/
def SaveImage.partAt (m : SaveImage) (s : State) (x : Partition) : Partition :=
  let y := m.part
  { x.activated with
    nextSeq := m.nextSeq, queues := y.queues, rings := y.rings, withdraw := y.withdraw, preempt := { y.preempt with state := 0 },
    edbase := y.edbase, channels := y.channels, tables := y.tables, pool := y.pool, crptr := y.crptr,
    groups := y.groups.map fun e => (e.1, if e.2.valid then
      { e.2 with rslot := s.grant e.1, absent := [], colls := 0, bad := [], round := none, taken := [], unacked := [], lost := none }
      else e.2) }

/-- The gates of an image at home in partition `p`, thawed, with their queued signals applied. -/
def State.resumeGates (s : State) (p : Nat) (m : SaveImage) : State :=
  m.gates.foldl (fun st e =>
    let st1 := if m.kind = 4 then st.modGate e.1 fun g => { g with home := p, frz := false }
      else { st with gates := put st.gates e.1 { e.2 with home := p, frz := false } }
    st1.applyQueued e.1) s

/-- CMD 3. The image stays as it is: a later resume finds it again. -/
def State.resume (s : State) (p : Nat) : State :=
  let x := s.part p
  match s.imageAt x.imageAddr with
  | none => s.refuse p 3 5
  | some m =>
    if x.state ≠ .off ∨ m.kind = 0 then s.refuse p 3 5
    else
      match s.activationWhy p with
      | some why => s.refuse p 3 why
      | none =>
        match s.gatesWhy m, m.deques (64 * sliceCount p), m.tileQueues p with
        | some why, _, _ => s.refuse p 3 why
        | none, some ds, some tqs =>
          let s1 := ((s.clearCores p).modPart p (m.partAt s)).modWork p fun _ => m.workAt p x.enbase s.cycle tqs
          let s2 := ((upto 0 ds.length).zip ds).foldl (fun st e =>
            if e.2.entries.isEmpty then st else st.modCore (64 * firstSlice p + e.1) fun c => { c with deque := e.2 }) s1
          (s2.resumeGates p m).carryOut p 3
        | none, _, _ => s.refuse p 3 5

/-! ## Writes of a descriptor (R313, R315) -/

/-- Whether a reserved bit of the first dword stands set. -/
def Partition.badHead (x : Partition) : Bool := bitsOf (x.dword 0) 47 16 != 0 || bitsOf (x.dword 0) 10 8 != 0

/-- The command of a write; a reserved bit that is set refuses it, whatever it is (R313). -/
def State.command (s : State) (p cmd : Nat) : State :=
  if cmd ≠ 0 ∧ (s.part p).badHead = true then s.refuse p cmd 4
  else
  match cmd with
  | 0 => s
  | 1 => s.activate p
  | 2 => s.freeze p
  | 3 => s.resume p
  | 4 => s.tearDown p 4
  | 5 => s.tearDown p 5
  | c => s.refuse p c 4

/-- Whether a field may change while STATE is 1. -/
def mayChange (off : Nat) : Bool :=
  [8, 32, 40, 48, 56, 96, 104, 240].contains off || (decide (128 ≤ off) && decide (off < 224))

/-- A write refused while STATE is 1. -/
def State.fieldError (s : State) (p why : Nat) : State := s.modPart p fun x => { x with err := true, errwhy := why }

/-- Windows and the root empty the TLBs (R315). -/
def flushes (off : Nat) : Bool := off == 8 || (decide (128 ≤ off) && decide (off < 224))

/-- The dword at an offset other than 0 written. The windows of partitions stay disjoint in every STATE but 0 (R315, R352). -/
def State.fieldWrite (s : State) (p off : Nat) (v : DWord) : State :=
  let set (y : Partition) : Partition := { y with desc := put y.desc (off / 8) v }
  let x := s.part p
  if x.state = .off then s.modPart p set
  else if x.state ≠ .running then
    (if decide (128 ≤ off) && decide (off < 224) && windowsClash (set x) ((s.inUse p).map (·.2)) then s.fieldError p 3 else s.modPart p set)
  else if !mayChange off || !fieldOk off v.toNat then s.fieldError p 4
  else if decide (128 ≤ off) && windowsClash (set x) ((s.inUse p).map (·.2)) then s.fieldError p 3
  else s.modPart p fun y => if flushes off then { set y with tlb := [] } else set y

/-- The first dword written: TENANT and reserved bits, then the command. -/
def State.headWrite (s : State) (p v : Nat) : State :=
  let keep := v / 2 ^ 16 * 2 ^ 16 + bitsOf v 10 8 * 256
  if (s.part p).state = .running ∧ keep ≠ (s.part p).dword 0 then (if v % 16 = 0 then s.fieldError p 4 else s.refuse p (v % 16) 4)
  else (s.modPart p fun x => { x with desc := put x.desc 0 (BitVec.ofNat 64 keep) }).command p (v % 16)

def State.descWrite (s : State) (p off v : Nat) : State := if off = 0 then s.headWrite p v else s.fieldWrite p off (BitVec.ofNat 64 v)

/-- A command event: its writer, and the partition. -/
def commandOp (cmd : Nat) (s : State) : Out :=
  .next (if s.mayWrite (s.arg 0) 3 && decide (s.arg 1 < 28) then s.command (s.arg 1) cmd else s)

def execActivate (s : State) : Out := commandOp 1 s
def execFreeze (s : State) : Out := commandOp 2 s
def execResume (s : State) : Out := commandOp 3 s
def execTearDownKeepingGates (s : State) : Out := commandOp 4 s
def execTearDownExportingGates (s : State) : Out := commandOp 5 s
def execFreezeComplete (s : State) : Out := .next (s.freezeComplete (s.arg 0))
def execTeardownComplete (s : State) : Out := .next (s.tearComplete (s.arg 0))

def execPartitionFieldWrite (s : State) : Out :=
  .next (if s.mayWrite (s.arg 0) 3 && decide (s.arg 1 < 28) && decide (s.arg 2 < 256) then
    s.descWrite (s.arg 1) (s.arg 2 / 8 * 8) (s.arg 3 % 2 ^ 64) else s)

/-! ## Writes of the gate directory (R318) -/

/-- How many gates a partition homes, but for one. -/
def State.homes (s : State) (p n : Nat) : Nat := ((s.homed p).filter (· != n)).length

/-- The control dword of a gate written. -/
def State.gateControl (s : State) (n v : Nat) : State :=
  let g := s.gate n
  let home := bitsOf v 56 52
  let on := bitsOf v 63 63 == 1
  let to_ := if g.home = 31 then 31 else home
  if bitsOf v 61 57 ≠ 0 ∨ bitsOf v 51 16 ≠ 0 ∨ (28 ≤ home ∧ home ≤ 30) ∨ (home = 31 ∧ g.home ≠ 31) then s
  else if on && ((s.part to_).state != .running || decide ((s.part to_).gquota ≤ s.homes to_ n)) then s
  else (s.modGate n fun g => { g with v := on, home := to_ }).revoke n

/-- A word of the access list written. -/
def Gate.setAcl (g : Gate) (i : Nat) (v : Word) : Gate := if bitsOf v.toNat 15 4 ≠ 0 then g else { g with acl := put g.acl i v }

/-- The dword at an offset of a gate's entry written. (log 63, DEDUCED) -/
def State.gateWrite (s : State) (n off v : Nat) : State :=
  if off = 0 then (s.modGate n fun g => { g with value := BitVec.ofNat 64 v }).serveGate n
  else if off = 8 then s.gateControl n v
  else if off = 16 then s.modGate n fun g =>
    { g with rate := bitsOf v 63 44, burst := bitsOf v 43 28, tokens := bitsOf v 43 28 * 1024 }
  else if 64 ≤ off ∧ off < 128 then
    (s.modGate n fun g => (g.setAcl ((off - 64) / 4) (BitVec.ofNat 32 v)).setAcl ((off - 64) / 4 + 1) (BitVec.ofNat 32 (v / 2 ^ 32))).revoke n
  else s

def execGateEntryWrite (s : State) : Out :=
  .next (if s.mayWrite (s.arg 0) 3 && decide (s.arg 1 < 4096) then s.gateWrite (s.arg 1) (s.arg 2 / 8 * 8) (s.arg 3 % 2 ^ 64) else s)

/-! ## Rings (R236, R237) -/

/-- Every lane held at a ring raises the ring-state fault. -/
def State.faultRing (s : State) (p q : Nat) : State :=
  (s.work p).waiters.foldl (fun st x =>
    match x.kind with
    | .rbpush k _ => if k = q then st.faultWaiter p x causeRing (BitVec.ofNat 64 q) else st
    | .rbpop k _ => if k = q then st.faultWaiter p x causeRing (BitVec.ofNat 64 q) else st
    | _ => st) s

/-- EN of a ring written. -/
def State.ringEnable (s : State) (p q : Nat) (en : Bool) : State :=
  let r := (s.part p).ring q
  let s1 := if !en || r.en then s.faultRing p q else s
  let r1 : Ring := if en then { r with en := true, head := 0, tail := 0, free := 2 ^ r.rlog } else { r with en := false }
  s1.modPart p fun x => { x with rings := put x.rings q r1 }

def execRingEnWrite (s : State) : Out :=
  .next (if s.mayWrite (s.arg 0) 2 && s.present (s.arg 1) && decide (s.arg 2 < 256) then
    s.ringEnable (s.arg 1) (s.arg 2) (s.arg 3 % 2 == 1) else s)

end Sys2Proof.Machine
end

