-- ==== Sys2Proof/Machine/Host.lean ====
section
/-!
DEFINITION. The host, power and management: owner election (R347), limiters and host windows (R349, R350), writes of registers (R145,
R313, R346), host accesses to memory (R345, R348, R393), resets and boot (R351), the black box (R357), SPDM (R353), energy, tokens and
clocks (R354, R355), errors in storage (R390, R391, R394).
-/
namespace Sys2Proof.Machine

/-! ## Owner election (R347) -/

/-- A change of owner, with its record. -/
def State.setOwner (s : State) (owner cmd : Nat) : State :=
  { s with host := { s.host with elect := { s.host.elect with owner := owner, pend := 15 } } }.bbWrite 0x0503 31 0 7 (owner * 16 + cmd)

/-- A command of master `m`. -/
def State.election (s : State) (m cmd target : Nat) : State :=
  let e := s.host.elect
  match cmd with
  | 1 => if e.owner = 15 then { s.setOwner m 1 with host := { s.host with elect := { e with owner := m } } } else s
  | 2 => if e.owner = m ∧ target < 8 then { s with host := { s.host with elect := { e with pend := target, target := target } } } else s
  | 3 => if e.pend = m then s.setOwner m 3 else s
  | 4 => if e.owner = m then s.setOwner 15 4 else s
  | _ => s

/-- The election register written. -/
def State.electionWrite (s : State) (m v : Nat) : State :=
  if bitsOf v 63 24 ≠ 0 ∨ bitsOf v 7 4 ≠ 0 then s else s.election m (bitsOf v 3 0) (bitsOf v 11 8)

/-- An election step of a master, 0 to 7. -/
def electionOp (cmd : Nat) (s : State) : Out := .next (if s.arg 0 < 8 then s.election (s.arg 0) cmd (s.arg 1) else s)

def execOwnerClaim (s : State) : Out := electionOp 1 s
def execOwnerHandOver (s : State) : Out := electionOp 2 s
def execOwnerAccept (s : State) : Out := electionOp 3 s
def execOwnerRelease (s : State) : Out := electionOp 4 s
/-- OWNER_LINK_DOWN. -/
def execOwnerLinkDown (s : State) : Out := .next (if s.host.elect.owner = 15 then s else s.setOwner 15 0)

/-! ## Limiters and windows (R349, R350) -/

/-- The accesses and collectives of a partition that waited here for its limiters are on their way from now on (R349, R404). -/
def State.resumeTraffic (s : State) (p : Nat) : State :=
  let again (c : Command) : Command := { c with since := s.time }
  let late (x : Sent) : Sent := if x.p = p then { x with since := s.time } else x
  let s1 : State := { s with fabric := { s.fabric with sent := s.fabric.sent.map late } }
  (s1.modWork p fun w => { w with seqs := w.seqs.map fun q => { q with cmds := q.cmds.map again } }).resumeSent

/-- A limiter word written, by the owning master alone; accesses that waited for it go on (R349). (log 68, DEDUCED) -/
def State.limiterWrite (s : State) (who p q v : Nat) : State :=
  if who < 16 ∨ s.mayWrite who 3 = false ∨ 28 ≤ p ∨ 16 ≤ q ∨ bitsOf v 31 28 ≠ 0 ∨ bitsOf v 15 9 ≠ 0 then s
  else
    let s1 : State := { s with host := { s.host with limiters := put s.host.limiters (16 * p + q) (BitVec.ofNat 32 v) } }
    if !s.carries p && s1.carries p then s1.resumeTraffic p else s1

def execPortLimiterWrite (s : State) : Out := .next (s.limiterWrite (s.arg 0) (s.arg 1) (s.arg 2) (s.arg 3 % 2 ^ 32))

/-- Half a host window written. -/
def State.windowWrite (s : State) (who h half v : Nat) : State :=
  if s.mayWrite who 3 = false ∨ 16 ≤ h ∨ 2 ≤ half ∨ (half = 0 ∧ bitsOf v 5 5 ≠ 0) ∨
      (half = 1 ∧ (bitsOf v 63 52 ≠ 0 ∨ bitsOf v 11 0 ≠ 0)) then s
  else { s with host := { s.host with windows := put s.host.windows (2 * h + half) (BitVec.ofNat 64 v) } }

def execHostWindowWrite (s : State) : Out := .next (s.windowWrite (s.arg 0) (s.arg 1) (s.arg 2) (s.arg 3 % 2 ^ 64))

/-! ## Resets and boot (R351) -/

/-- COLD_RESET: everything as after power-on, but for what lies outside the module, fabric time and the model's own counters.
(log 65, DEDUCED) -/
def execColdReset (s : State) : Out :=
  .next { State.reset with
    host := { State.reset.host with mem := s.host.mem }, fabric := { s.fabric with sent := [] }, cycle := s.cycle, lag := s.lag,
    tick := s.tick, inputs := s.inputs, tape := s.tape }

/-- A partition ended by a warm reset: its launches end with STATE 5, those of a frozen one too (R132, R351). -/
def State.endPartition (s : State) (p : Nat) : State :=
  let s0 := s.modWork p fun w => { w with launches := w.launches ++ (s.frozenWork p).launches }
  ((s0.work p).launches.map (·.1)).foldl (fun st seq =>
    let st1 := st.endLaunch p seq .aborted
    match (st1.work p).launch seq with
    | some l => if l.pushing then st1 else st1.endSteps p l
    | none => st1) s0

/-- WARM_RESET: every partition ends; the black box and memory stand. -/
def execWarmReset (s : State) : Out :=
  let s1 := (s.parts.map (·.1)).foldl (fun st p => st.endPartition p) s
  .next ({ State.reset with
    mem := s1.mem, bb := s1.bb, images := s1.images, host := { State.reset.host with mem := s1.host.mem },
    fabric := { s1.fabric with sent := [] }, power := { s1.power with idle := [] }, cycle := s1.cycle, lag := s1.lag, tick := s1.tick,
    inputs := s1.inputs, tape := s1.tape }.bbWrite 0x0502 31 0 5 0)

/-- BOOTCTL written 1 by the owner: the ROM checks the window. -/
def State.bootWrite (s : State) (who v : Nat) : State :=
  if who < 16 ∨ s.mayWrite who 3 = false ∨ v ≠ 1 ∨ (s.boot.state ≠ 0 ∧ s.boot.state ≠ 3) then s
  else { s with boot := { s.boot with state := 1 } }

def execBootctlWrite (s : State) : Out := .next (s.bootWrite (s.arg 0) (s.arg 1))

/-- The image in the boot window: its bytes by address. -/
def State.bootImage (s : State) : List (Nat × Byte) := s.mem.cells.filter fun c => decide (c.1 < 2 ^ 24)

/-- What the boot ROM finds wrong with an image: a signature that fails under the fused key hash, a version below the fused minimum, a size
above the window. -/
def imageFaults (m : List (Nat × Byte)) : List Nat :=
  (if Config.imageSigned Config.fuseKeyHash m then [] else [1]) ++ (if Config.imageVersion m % 2 ^ 32 < Config.fuseMinimum then [2] else []) ++
    (if Config.imageTooLarge m then [3] else [])

/-- BOOT_CHECK_COMPLETE: an image without fault runs; of several faults any is reported. (log 68, DEDUCED) -/
def execBootCheckComplete (s : State) : Out :=
  let m := s.bootImage
  let bad := imageFaults m
  let version := Config.imageVersion m % 2 ^ 32
  .next (if s.boot.state ≠ 1 then s
    else
      match bad[Config.freeNat s.tick % max 1 bad.length]? with
      | none => { s with boot := ⟨version, 0, 2, Config.imageMeasure m⟩ }.bbWrite 0x0500 31 0 5 version
      | some why => { s with boot := { s.boot with why := why, state := 3 } }.bbWrite 0x0501 31 0 5 why)

/-! ## The black box (R356, R357) -/

/-- SNAP written 1: the ring is captured. -/
def State.snap (s : State) : State :=
  match s.bb.snap with
  | some _ => s
  | none => { s with bb := { s.bb with snap := some (s.bb.recs, s.bb.count) } }

/-- BLACKBOX_SNAP, by any master. -/
def execBlackboxSnap (s : State) : Out := .next (if s.arg 0 < 8 then s.snap else s)

/-- A record's two dwords. -/
def BbRec.bytes (r : BbRec) : List Byte :=
  bytesOf 8 r.time ++ bytesOf 4 (r.code % 65536 * 65536 + r.part % 32 * 2048 + r.die % 8 * 256 + r.src % 256) ++ bytesOf 4 r.data

/-- BLACKBOX_SNAP_COMPLETE: 4,096 records, oldest first, the count, the nonce, and a signature of 29,792 bytes over them. -/
def execBlackboxSnapComplete (s : State) : Out :=
  .next (match s.bb.snap with
    | none => s
    | some (recs, count) =>
      let body := recs.reverse.flatMap BbRec.bytes ++ List.replicate (16 * (4096 - recs.length)) 0 ++ bytesOf 8 count ++
        bytesOf 8 s.bb.nonce0.toNat ++ bytesOf 8 s.bb.nonce1.toNat
      let sign := (upto 0 3724).flatMap fun i => bytesOf 8 (Config.freeDWord (s.tick * 4096 + i)).toNat
      { s with host := s.host.write s.bb.buf.toNat (body ++ sign), bb := { s.bb with snap := none } })

/-! ## SPDM (R353) -/

/-- An answer of the mailbox. -/
def State.answers (s : State) (code : Nat) (body : List DWord) : State := { s with host := { s.host with answer := some (code, body) } }

/-- Words of a message that an algorithm outside the spec forms. (log 25, PRESUMED) -/
def State.message (s : State) (n : Nat) : List DWord := (upto 0 n).map fun i => Config.freeDWord (s.tick * 4096 + i)

/-- The mailbox's refusal. -/
def spdmError : Nat := 0x7F

def execGetVersion (s : State) : Out :=
  .next ({ s with host := { s.host with spdmVersion := true, spdmCaps := false, spdmAlgs := false } }.answers 0x04 [0x14])
def execGetCapabilities (s : State) : Out :=
  .next (if s.host.spdmVersion then { s with host := { s.host with spdmCaps := true } }.answers 0x61 (s.message 2) else s.answers spdmError [])
/-- The algorithms that the mailbox has: SLH-DSA-SHA2-256s to sign, SHA-256 to hash, and no other, by SPDM's numbers of their bits.
(log 25, PRESUMED) -/
def spdmAlgorithms : List DWord := [2 ^ 11, 1]

def execNegotiateAlgorithms (s : State) : Out :=
  .next (if s.host.spdmCaps then { s with host := { s.host with spdmAlgs := true } }.answers 0x63 spdmAlgorithms else s.answers spdmError [])

/-- A request that the negotiated algorithms serve. -/
def State.attested (s : State) (code : Nat) (body : List DWord) : State :=
  if s.host.spdmAlgs then s.answers code body else s.answers spdmError []

def execGetDigests (s : State) : Out := .next (s.attested 0x01 (s.message 4))
def execGetCertificate (s : State) : Out := .next (s.attested 0x02 (s.message 64))
def execChallenge (s : State) : Out := .next (s.attested 0x03 (s.message 64))

/-- Measurement 4: the 28 descriptors as they read. -/
def State.descriptors (s : State) : List DWord :=
  (upto 0 28).flatMap fun p => (upto 0 32).map fun k => BitVec.ofNat 64 ((s.part p).shown (8 * k))

/-- The measurements of R353 by index: the boot ROM, the image that runs, the fuses with the minimum version, the descriptors. -/
def execGetMeasurements (s : State) : Out :=
  .next (match s.arg 1 with
    | 1 => s.attested 0x60 [Config.romMeasure]
    | 2 => s.attested 0x60 [s.boot.image]
    | 3 => s.attested 0x60 [Config.fuseMeasure, BitVec.ofNat 64 Config.fuseKeyHash, BitVec.ofNat 64 Config.fuseMinimum]
    | 4 => s.attested 0x60 s.descriptors
    | _ => s.answers spdmError [])

/-! ## Energy (R354) -/

/-- An engine's energy by launch of the forking work-group. -/
def State.engineShares (s : State) (w : Work) : List (Nat × Nat) :=
  (w.seqs.filter fun q => !q.cmds.isEmpty).map fun q => (q.seq, s.drawn 1 q.id)

/-- ENERGY_ATTRIBUTION_INTERVAL: each microsecond, cores and engines. (log 90, DEDUCED) -/
def execEnergyAttributionInterval (s : State) : Out :=
  let pay (w : Work) : Work :=
    let due := (nub (w.wgs.map (·.core) ++ w.spent.map (·.1))).flatMap (s.coreShares w) ++ s.engineShares w
    { w with
      launches := w.launches.map fun l => (l.1, { l.2 with
        energy := l.2.energy + shareIn l.1 due })
      spent := []
      wgs := w.wgs.map fun g => { g with warps := g.warps.map fun v => { v with paid := v.retired } } }
  .next { s with works := s.works.map fun e => (e.1, pay e.2) }

/-- ENERGY_IDLE_SLOT_ADD: energy with no launch goes to slot 0. -/
def execEnergyIdleSlotAdd (s : State) : Out :=
  let p := s.arg 0
  .next (if s.present p && decide (1 ≤ (s.part p).encount) then s.addEnergy p 0 (s.part p).enbase 0 (s.drawn 2 p) else s)

/-! ## Tokens and the clock (R308, R355) -/

def State.setHeld (s : State) (n : Nat) : State := { s with power := { s.power with held := n } }

/-- TOKEN_RECEIVE: tokens from another module; what cannot be held goes back. (log 59, DEDUCED) -/
def State.receive (s : State) (module n : Nat) : State :=
  let kept := min n (320 - s.power.held)
  (s.setHeld (s.power.held + kept)).bbWrite 0x0603 31 0 4 (module % 65536 * 65536 + kept)

def execTokenReceive (s : State) : Out := .next (s.receive (s.arg 0) (s.arg 1))

/-- Whether another module can be reached. -/
def State.moduleUp (s : State) (m : Nat) : Bool := m == s.fabric.module || s.fabric.remotes.any fun r => r.module == m && r.up

/-- TOKEN_RETURN_ARRIVAL: the return of one of the open transfers, by its place, with at most what was sent: those that the module can
hold are held again, others come again later; a module that is not reached returns all, and so does the rest of a return, which stands
under the id that no module has (R326). No token is lost or made (R308). -/
def execTokenReturnArrival (s : State) : Out :=
  let i := s.arg 1
  .next (match s.power.sent[i]? with
    | none => s
    | some c =>
      let back := if s.moduleUp c.1 then min (s.arg 0) c.2 else c.2
      let kept := min back (320 - s.power.held)
      { s with power := { s.power with held := s.power.held + kept,
                                       sent := if kept = back then dropNth s.power.sent i else s.power.sent.set i (0xFFFF, back - kept) } })

/-- TOKEN_BROKER_MOVE, by the rule of TOKXFER; a further operand names the other module. -/
def execTokenBrokerMove (s : State) : Out :=
  let n := s.arg 0
  .next (if s.arg 1 = 1 then s.receive (s.arg 2) n else if s.sendable n then s.sendTokens 31 (s.arg 2) n else s)

/-! ## Errors in storage (R390, R391, R394) -/

/-- Corrections noted: at most one record per die and millisecond. -/
def State.corrections (s : State) (die n : Nat) : State :=
  let e := find s.bb.corrected die
  let total := (e.map (·.1)).getD 0 + n
  let due := match e with
    | none => true
    | some x => decide (x.2 + 1000000 ≤ s.time)
  if total = 0 then s
  else if due then { s with bb := { s.bb with corrected := put s.bb.corrected die (0, s.time) } }.bbWrite 0x0200 31 die 2 total
  else { s with bb := { s.bb with corrected := put s.bb.corrected die (total, (e.map (·.2)).getD 0) } }

/-- PATROL_SCRUB: a die's sectors are read; `n` errors are corrected. -/
def execPatrolScrub (s : State) : Out := .next (s.corrections (s.arg 0) (s.arg 1))

/-- A tile row that takes N = 1. -/
def Core.poisonRow (k : Core) (t r : Nat) : Core :=
  { k with tiles := upd k.tiles t fun x => { x with rows := upd x.rows r fun y => { y with n := true } } }

/-- UNCORRECTABLE_ERROR in an array, in the row order of R390: DRAM or L2 at a physical address on a die; scratchpad word; register of
work-group `a / 1024`'s warp `a % 1024` by key; tile row of a core; the relation or deque state of a launch, in a unit of a die.
(log 69, DEDUCED) -/
def execUncorrectableError (s : State) : Out :=
  let p := s.arg 1
  let a := s.arg 2
  let b := s.arg 3
  .next (match s.arg 0 with
    | 0 => { s with mem := s.mem.poisonSpan a 1 }.bbWrite 0x0201 31 b 2 (a / 64 % 2 ^ 28)
    | 1 => { s with mem := s.mem.poisonSpan a 1 }.bbWrite 0x0201 31 b 2 (2 ^ 28)
    | 3 => { s with spad := s.spad.poisonWord a }.bbWrite 0x0201 p b 2 (3 * 2 ^ 28)
    | 4 =>
      match (s.work p).wg (a / 1024) with
      | some g => (s.modWarp p g.id (a % 1024) fun w => if b < 4096 then { w with poison := b :: w.poison.filter (· != b) } else w).bbWrite
          0x0201 p (dieOfSlice (sliceOfCore g.core)) 2 (4 * 2 ^ 28)
      | none => s
    | 5 => (s.modCore a fun k => k.poisonRow (b / 64) (b % 64)).bbWrite 0x0201 p (dieOfSlice (sliceOfCore a)) 2 (5 * 2 ^ 28)
    | 6 =>
      match (s.work p).launch a with
      | some _ => ((s.bbWrite 0x0201 p b 2 (6 * 2 ^ 28)).faultLaunch p a (0x0100 + causeData) (64 * firstSlice p) 0).settle p
      | none => s
    | _ => s)

/-! ## Register writes (R145, R313, R346) -/

/-- A dword with bytes written over it. -/
def merged (old off n v : Nat) : Nat :=
  let k := 2 ^ (8 * (off % 8))
  let m := 2 ^ (8 * n) - 1
  (old - old / k % (m + 1) * k + v % (m + 1) * k) % 2 ^ 64

/-- Whether a write covers a byte of its dword. -/
def covers (off n b : Nat) : Bool := decide (off % 8 ≤ b) && decide (b < off % 8 + n)

/-- A command queue's dword written. -/
def State.queueWrite (s : State) (who p off n v : Nat) : State :=
  let q := off / 32
  let k := off / 8 % 4
  let x := (s.part p).queue q
  let w := merged (x.dword k) off n v
  if k = 3 then (if s.mayWrite who 0 then s.modQueue p q fun y => y.setWptr (BitVec.ofNat 64 w) else s)
  else if s.mayWrite who 2 = false then s
  else if k = 0 then s.modQueue p q fun y => { y with qbase := BitVec.ofNat 64 w }
  else if k = 1 then s.modQueue p q fun y =>
    if covers off n 0 then y.setCtl w else { y with qlog := if 6 ≤ bitsOf w 12 8 ∧ bitsOf w 12 8 ≤ 20 then bitsOf w 12 8 else 6 }
  else s

/-- A ring's dword written (R236). -/
def State.ringWrite (s : State) (who p off n v : Nat) : State :=
  let q := (off - 0x2000) / 32
  let k := off / 8 % 4
  let r := (s.part p).ring q
  let w := merged (r.dword k) off n v
  let set (st : State) (f : Ring → Ring) : State := st.modPart p fun x => { x with rings := put x.rings q (f (x.ring q)) }
  if s.mayWrite who 2 = false then s
  else if k = 0 then (if r.en then s else set s fun y => { y with rbase := BitVec.ofNat 64 w })
  else if k = 1 then
    let log := if 1 ≤ bitsOf w 12 8 ∧ bitsOf w 12 8 ≤ 16 then bitsOf w 12 8 else 1
    let s1 := if r.en then s else set s fun y => { y with rlog := log }
    if covers off n 0 then s1.ringEnable p q (w % 2 == 1) else s1
  else s

/-- A migration channel's dword written (R338). -/
def State.channelWrite (s : State) (who p off n v : Nat) : State :=
  let c := (off - 0x5100) / 32
  let k := off / 8 % 4
  let x := (s.part p).channel c
  let w := merged (x.dword k + (if k = 0 then x.rsvd / 2 * 16 + x.rsvd % 2 * 2 else 0)) off n v
  let set (f : Channel → Channel) : State := s.modPart p fun y => { y with channels := put y.channels c (f (y.channel c)) }
  if s.mayWrite who 2 = false then s
  else
    match k with
    | 0 =>
      let s1 := set fun y => { y with table := bitsOf w 63 52, shard := bitsOf w 51 32, rsvd := bitsOf w 31 4 * 2 + bitsOf w 1 1 }
      if covers off n 0 && w % 2 == 1 then s1.migrationGo p c else s1
    | 1 => set fun y => { y with dest := BitVec.ofNat 64 w }
    | 2 => set fun y => { y with dmodule := bitsOf w 31 16, dpart := bitsOf w 4 0 }
    | _ => s

/-- The withdrawal register's dwords written (R135). -/
def State.withdrawWrite (s : State) (who p off n v : Nat) : State :=
  if s.mayWrite who 2 = false then s
  else if off / 8 * 8 = 0x1000 then
    s.modPart p fun x => { x with withdraw := { x.withdraw with arg := merged x.withdraw.arg off n v } }
  else if merged 0 off n v / 16 = 0 ∧ merged 0 off n v % 4 = 1 then s.withdraw p
  else s

/-- The pre-emption register written (R420). -/
def State.preemptWrite (s : State) (who p off n v : Nat) : State :=
  let x := s.part p
  let new := merged 0 off n v
  let w := merged (s.regDword p 0x7000) off n v
  if s.mayWrite who 2 = false ∨ bitsOf new 63 42 ≠ 0 ∨ bitsOf new 31 10 ≠ 0 ∨ covers off n 0 = false then s
  else
    match new % 4 with
    | 1 => s.preemptCommand p (bitsOf w 41 32) false
    | 2 => s.preemptCommand p (bitsOf w 41 32) true
    | 3 => s.preemptReleaseAll p
    | _ => s.modPart p fun _ => x

/-- A parked entry's CTL written (R409). -/
def State.parkedWrite (s : State) (who p off n v : Nat) : State :=
  if who < 2 ∨ 4 ≤ who ∨ off / 8 % 4 ≠ 3 ∨ covers off n 0 = false then s
  else
    match merged 0 off n v % 4 with
    | 1 => s.retryParked p ((off - 0x6100) / 32)
    | 2 => s.dropParked p ((off - 0x6100) / 32)
    | _ => s

/-- A write of `n` bytes at an offset of a partition's register pages, within one dword (R313). -/
def State.pageWrite (s : State) (who p off n v : Nat) : State :=
  if off < 0x800 then s.queueWrite who p off n v
  else if 0x1000 ≤ off ∧ off < 0x1010 then s.withdrawWrite who p off n v
  else if 0x2000 ≤ off ∧ off < 0x4000 then s.ringWrite who p off n v
  else if 0x5000 ≤ off ∧ off < 0x5008 then
    if s.mayWrite who 2 then s.modPart p fun x => { x with edbase := BitVec.ofNat 64 (merged x.edbase.toNat off n v) } else s
  else if 0x5100 ≤ off ∧ off < 0x5200 then s.channelWrite who p off n v
  else if 0x6100 ≤ off ∧ off < 0x6900 then s.parkedWrite who p off n v
  else if 0x7000 ≤ off ∧ off < 0x7008 then s.preemptWrite who p off n v
  else s

/-- The control block of the black box written (R357). (log 67, DEDUCED) -/
def State.bbCtlWrite (s : State) (off n v : Nat) : State :=
  let b := s.bb
  if off < 8 then (if covers off n 0 && v % 2 == 1 then s.snap else s)
  else if off < 16 then { s with bb := { b with nonce0 := BitVec.ofNat 64 (merged b.nonce0.toNat off n v) } }
  else if off < 24 then { s with bb := { b with nonce1 := BitVec.ofNat 64 (merged b.nonce1.toNat off n v) } }
  else if off < 32 then { s with bb := { b with buf := BitVec.ofNat 64 (merged b.buf.toNat off n v) } }
  else s

/-- A write of `n` bytes at an offset of the device register space, within one dword (R346, R348). -/
def State.barWrite (s : State) (who off n v : Nat) : State :=
  if off < 8 then (if 16 ≤ who ∧ who < 24 then s.electionWrite (who - 16) (merged 0 off n v) else s)
  else if 0x1000 ≤ off ∧ off < 0x1008 then s.bootWrite who (merged 0 off n v)
  else if 0x2000 ≤ off ∧ off < 0x2020 then (if 16 ≤ who then s.bbCtlWrite (off - 0x2000) n v else s)
  else if 0x3000 ≤ off ∧ off < 0x3700 then
    let p := (off - 0x3000) / 64
    let q := off / 4 % 16
    let old := (s.limiter p q).toNat + (s.limiter p (q / 2 * 2 + 1)).toNat * 2 ^ 32
    let w := merged (if off % 8 < 4 then old else (s.limiter p (q - 1)).toNat + (s.limiter p q).toNat * 2 ^ 32) off n v
    let s1 := if off % 8 < 4 then s.limiterWrite who p (q / 2 * 2) (w % 2 ^ 32) else s
    if 4 < off % 8 + n then s1.limiterWrite who p (q / 2 * 2 + 1) (w / 2 ^ 32) else s1
  else if 0x4000 ≤ off ∧ off < 0x4100 then
    let h := (off - 0x4000) / 16
    let half := off / 8 % 2
    s.windowWrite who h half (merged (findD s.host.windows (2 * h + half) (0 : DWord)).toNat off n v)
  else if 0x10000 ≤ off ∧ off < 0x11C00 then
    let p := (off - 0x10000) / 256
    let o := off % 256 / 8 * 8
    if s.mayWrite who 3 then s.descWrite p o (merged ((s.part p).dword o) off n v) else s
  else if 0x20000 ≤ off ∧ off < 0xA0000 then
    let g := (off - 0x20000) / 128
    let o := off % 128 / 8 * 8
    if s.mayWrite who 3 then s.gateWrite g o (merged ((s.gate g).dword o) off n v) else s
  else s

/-- The dword at an offset of the device register space as a master reads it (R346, R348). -/
def State.barDword (s : State) (who off : Nat) : Nat :=
  if off = 0 then
    let e := s.host.elect
    who * 2 ^ 20 + e.owner * 65536 + e.pend * 4096 + e.target * 256
  else if off = 0x1008 then s.boot.version * 2 ^ 32 + s.boot.why * 16 + s.boot.state
  else if off = 0x2000 then bit s.bb.snap.isSome
  else if off = 0x2008 then s.bb.nonce0.toNat
  else if off = 0x2010 then s.bb.nonce1.toNat
  else if off = 0x2018 then s.bb.buf.toNat
  else if 0x3000 ≤ off ∧ off < 0x3700 then
    let p := (off - 0x3000) / 64
    let q := off / 8 % 8 * 2
    (s.limiter p q).toNat + (s.limiter p (q + 1)).toNat * 2 ^ 32
  else if 0x4000 ≤ off ∧ off < 0x4100 then (findD s.host.windows ((off - 0x4000) / 8) (0 : DWord)).toNat
  else if 0x10000 ≤ off ∧ off < 0x11C00 then (s.part ((off - 0x10000) / 256)).shown (off % 256)
  else if 0x20000 ≤ off ∧ off < 0xA0000 then (s.gate ((off - 0x20000) / 128)).dword (off % 128)
  else 0

/-- Offsets of the device register space are read and written from this number on; below it stand physical addresses. -/
def barSpace : Nat := 2 ^ 60

/-- The partition in whose register pages a physical address lies. (log 72, DEDUCED) -/
def State.pageOwner (s : State) (pa : Nat) : Option (Nat × Nat) :=
  (s.parts.find? fun e => e.2.state == .running && decide (e.2.qpage ≤ pa) && decide (pa < e.2.qpage + 65536)).map fun e =>
    (e.1, pa - e.2.qpage)

/-- GENERIC_REGISTER_WRITE: the writer, the place, the value, and the number of bytes, 8 when it is not given. -/
def execGenericRegisterWrite (s : State) : Out :=
  let who := s.arg 0
  let a := s.arg 1
  let n := if s.arg 3 = 0 then 8 else s.arg 3
  .next (if 8 < a % 8 + n then s
    else if barSpace ≤ a then s.barWrite who (a - barSpace) n (s.arg 2)
    else
      match s.pageOwner a with
      | some (p, off) => s.pageWrite who p off n (s.arg 2)
      | none => s)

/-! ## Host accesses (R345, R346, R348, R393) -/

/-- Whether a span meets a memory window of a partition. -/
def Partition.meetsWindow (x : Partition) (a n : Nat) : Bool := x.windows.any fun w => decide (w.1 < a + n) && decide (a < w.1 + w.2)

/-- The partition in whose window an access of a host lies. -/
def State.windowOwner (s : State) (a n : Nat) : Option Nat :=
  (s.parts.find? fun e => e.2.state != .off && e.2.inWindow a n).map (·.1)

/-- Whether the host reaches a span of module DRAM: of its 1,536 GB (R345), and inside a window of a partition or outside all (R73).
(log 68, DEDUCED) -/
def State.hostReaches (s : State) (a n : Nat) : Bool :=
  decide (a + n ≤ 1536 * 2 ^ 30) && s.parts.all fun e => e.2.state == .off || e.2.inWindow a n || !e.2.meetsWindow a n

/-- What a master reads of module memory: the registers of a partition where it presents them, else memory. -/
def State.hostBytes (s : State) (a n : Nat) : List Byte :=
  match s.pageOwner a with
  | some (p, off) => dwordBytes (s.regDword p) off n
  | none => s.mem.bytes a n

/-- HOST_MEM_READ: what a master, 0 to 7, reads, with the poison indication; from `barSpace` on, the device register space. -/
def execHostMemRead (s : State) : Out :=
  let m := s.arg 0
  let a := s.arg 1
  let n := min (s.arg 2) 64
  let got (st : State) (r : Option (Bool × Nat)) : State := { st with host := { st.host with lastRead := r } }
  .next (if 8 ≤ m then s
    else if barSpace ≤ a then got s (some (false, ofBytes (dwordBytes (s.barDword m) (a - barSpace) n)))
    else if !s.hostReaches a n then got s none
    else
      let poison := s.mem.poisoned a n
      let s1 := got s (some (poison, ofBytes (s.hostBytes a n)))
      if poison then s1.bbWrite 0x0202 ((s.windowOwner a n).getD 31) 0 7 0 else s1)

/-- HOST_MEM_WRITE, by the owner; the write travels on the host path. -/
def execHostMemWrite (s : State) : Out :=
  let who := 16 + s.arg 0
  let a := s.arg 1
  let n := min (s.arg 2) 64
  .next (if s.mayWrite who 3 = false ∨ s.hostReaches a n = false then s
    else
      match s.pageOwner a with
      | some _ => { s with follow := s.follow ++ [⟨.genericRegisterWrite, [who, a, s.arg 3 % 2 ^ (8 * n), n]⟩] }
      | none => { s.wrote false (s.parts.map (·.1)) 5 [] a n with mem := s.mem.write a (bytesOf n (s.arg 3)) })

end Sys2Proof.Machine
end

