-- ==== Sys2Proof/Machine/Lanes.lean ====
section
/-!
DEFINITION. Lane exchange (R210 to R215), and tagged blocks in registers (R216, R217).
-/
namespace Sys2Proof.Machine

/-- A lane exchange: U = 1 is an illegal encoding (R62, R210); every source register is read as its own lane reads it. -/
def exchange (d : Nat) (reads : List RegUse) (f : Ctx → Warp → Nat → Word) (s : State) : Out :=
  withGroup s fun c _ w =>
    if c.word / 2147483648 % 2 = 1 then trapWord s c causeIllegal
    else laneOp false [(d, 1)] reads (fun _ _ l => [(d, f c w l)]) s

/-- SHFL (R211): the value of the lane that the index names, or the lane's own. -/
def execShfl (d a b : Nat) (s : State) : Out :=
  exchange d [(a, 1), (b, 1)] (fun c w l =>
    let k := (w.reg b l).toNat % 32
    w.reg a (if c.lanes.contains k then k else l)) s

/-- BCAST (R211). -/
def execBcast (d a n : Nat) (s : State) : Out :=
  withGroup s fun c _ _ =>
    if 31 < n ∧ c.word / 2147483648 % 2 = 0 then trapWord s c causeOperand
    else exchange d [(a, 1)] (fun c w _ => w.reg a (if c.lanes.contains n then n else c.l0)) s

/-- The lanes of the group whose register is nonzero, as a mask. -/
def ballot (c : Ctx) (w : Warp) (a : Nat) : Word := maskOf (c.lanes.filter fun l => nonzero (w.reg a l))

/-- VOTE (R212): mode 0 BALLOT, 1 ANY, 2 ALL, 3 GROUP, which reads no register. -/
def execVote (d a m : Nat) (s : State) : Out :=
  withGroup s fun c _ _ =>
    if m = 3 ∧ a ≠ 0 then trapWord s c causeIllegal
    else if 3 < m ∧ c.word / 2147483648 % 2 = 0 then trapWord s c causeOperand
    else exchange d (if m = 3 then [] else [(a, 1)]) (fun c w _ =>
      match m with
      | 0 => ballot c w a
      | 1 => truth (ballot c w a != 0)
      | 2 => truth (ballot c w a == maskOf c.lanes)
      | _ => maskOf c.lanes) s

/-- MATCH (R213). -/
def execMatchLanes (d a : Nat) (s : State) : Out :=
  exchange d [(a, 1)] (fun c w l => maskOf (c.lanes.filter fun k => w.reg a k == w.reg a l)) s

/-- The operators of WRED and WSCAN (R214): 0 ADD, 1 F32, 2 MINS, 3 MAXS, 4 MINZ, 5 MAXZ. -/
def laneOperator (op : Nat) (a b : Word) : Word :=
  match op with
  | 0 => a + b
  | 1 => fadd a b
  | 2 => minS a b
  | 3 => maxS a b
  | 4 => minZ a b
  | _ => maxZ a b

/-- One level of the fixed FP32 tree: neighbours added in pairs. -/
def pairSums : List Word → List Word
  | a :: b :: r => fadd a b :: pairSums r
  | l => l

/-- The fixed FP32 tree of WRED (R214): lanes outside the group add −0. -/
def fixedTree (c : Ctx) (w : Warp) (a : Nat) : Word :=
  let leaves := (upto 0 32).map fun i => if c.lanes.contains i then w.reg a i else 0x80000000#32
  (pairSums (pairSums (pairSums (pairSums (pairSums leaves))))).headD 0

/-- WRED (R214). `f` is FN, 4 + op. -/
def execWred (f d a : Nat) (s : State) : Out :=
  exchange d [(a, 1)] (fun c w _ =>
    if f = 5 then fixedTree c w a
    else
      match c.lanes with
      | [] => 0
      | k :: r => r.foldl (fun acc l => laneOperator (f - 4) acc (w.reg a l)) (w.reg a k)) s

/-- The running values of a scan (R215): for each lane of the list in order, its value. -/
def scan (op : Nat) (w : Warp) (a b : Nat) : Option Word → List Nat → List (Nat × Word)
  | _, [] => []
  | acc, l :: r =>
    let v := match acc with
      | some x => if nonzero (w.reg b l) then w.reg a l else laneOperator op x (w.reg a l)
      | none => w.reg a l
    (l, v) :: scan op w a b (some v) r

/-- WSCAN (R215). `f` is FN, 10 + op. -/
def execWscan (f d a b : Nat) (s : State) : Out :=
  exchange d [(a, 1), (b, 1)] (fun c w l => findD (scan (f - 10) w a b none c.lanes) l 0) s

/-! ## Tagged blocks in registers -/

/-- Whether a lane has an outstanding result into one of some registers. -/
def Warp.awaits (w : Warp) (l : Nat) (rs : List Nat) : Bool :=
  (w.lane l).results.any fun r => r.vals.any fun v => rs.contains v.1

/-- Lanes, of those that hold a thread, with an outstanding result into some registers (R216). -/
def Warp.awaiting (w : Warp) (rs : List Nat) : List Nat := w.live.filter fun l => w.awaits l rs

/-- An instruction that reads registers of every lane waits until their outstanding results are written. The windows of the issuing
lanes' results end, since those lanes issue nothing before it (log 21). -/
def awaitAll (s : State) (c : Ctx) (rs : List Nat) : State :=
  (stall s c).modWarp c.p c.wg c.wid fun w => w.modLanes c.lanes fun x =>
    { x with results := x.results.map fun r => if r.vals.any fun v => rs.contains v.1 then { r with window := 0 } else r }

/-- A register of any lane; a lane that holds no thread reads zero, and so does one whose thread has exited or retired (R216). (log 101,
DEDUCED) -/
def Warp.wholeReg (w : Warp) (r l : Nat) : Word := if w.live.contains l then w.reg r l else 0

/-- The tagged code of QNT's FN (R216). -/
def qntCode (f : Nat) : Nat :=
  match f with
  | 0 => 0x14
  | 1 => 0x16
  | 2 => 0x26
  | k => 0x42 + (k - 3)

/-- QNT is single-issue: 64 values of the pair vA of every lane become one block, whose words the group's lanes receive (R216). -/
def execQnt (_u : Bool) (f d a : Nat) (s : State) : Out :=
  withGroup s fun c _ w =>
    match regCheck c w [(d, 1), (a, 2)] with
    | some t => .next (raiseTrap s c [t])
    | none =>
      if !(w.awaiting [a, a + 1]).isEmpty then .next (awaitAll s c [a, a + 1]) else
      match poisonCheck w w.live [(a, 2)] with
      | some t => .next (raiseTrap s c [t])
      | none =>
        let xs := (upto 0 64).map fun j => f32 (w.wholeReg (a + j / 32) (j % 32))
        let block := (quantiseBlock (qntCode f) xs).getD 0
        .next (retire (writeLanes s c (c.lanes.map fun l =>
          (l, [(d, BitVec.ofNat 32 (block / 2 ^ (32 * (l % 16))))]))) c)

/-- DQNT is single-issue: lanes 0 to 15 of vA hold a block, whose values the group's lanes receive (R217). -/
def execDqnt (_u : Bool) (d a : Nat) (s : State) : Out :=
  withGroup s fun c _ w =>
    match regCheck c w [(d, 2), (a, 1)] with
    | some t => .next (raiseTrap s c [t])
    | none =>
      if !(w.awaiting [a]).isEmpty then .next (awaitAll s c [a]) else
      match poisonCheck w (w.live.filter (· < 16)) [(a, 1)] with
      | some t => .next (raiseTrap s c [t])
      | none =>
        match decodeBlock (streamOf 32 ((upto 0 16).map fun k => (w.wholeReg a k).toNat)) with
        | none => .next (raiseTrap s c [(causeFormat, BitVec.ofNat 64 (c.word % 4294967296 + 2 ^ 63))])
        | some b =>
          .next (retire (writeLanes s c (c.lanes.map fun l =>
            (l, [(d, toF32 (b.elems.getD l .nan)), (d + 1, toF32 (b.elems.getD (32 + l) .nan))]))) c)

end Sys2Proof.Machine
end

