-- ==== Sys2Proof/Machine/Loads.lean ====
section
/-!
DEFINITION. Loads and stores (R223), the scratchpad's (R224), acquire loads and release stores (R225), prefetch (R226, R227), atomics
(R228, R229) and reductions (R230).
-/
namespace Sys2Proof.Machine

/-! ## Values -/

/-- The registers of a loaded value, lowest address first. -/
def wordsOf (d : Nat) : List Byte → List (Nat × Word)
  | a :: b :: c :: e :: r => (d, BitVec.ofNat 32 (ofBytes [a, b, c, e])) :: wordsOf (d + 1) r
  | _ => []

/-- A loaded value of `n` bytes: a narrow one is extended to a word (R60, R223). -/
def loaded (sign : Bool) (n d : Nat) (bs : List Byte) : List (Nat × Word) :=
  if n < 4 then [(d, if sign then signWord (8 * n) (ofBytes bs) else BitVec.ofNat 32 (ofBytes bs))] else wordsOf d bs

/-- The bytes of registers from `d` on, `n` of them. -/
def Warp.regBytes (w : Warp) (d l n : Nat) : List Byte :=
  ((upto 0 ((n + 3) / 4)).flatMap fun k => bytesOf 4 (w.reg (d + k) l).toNat).take n

/-- Registers that a value of `n` bytes takes. -/
def regsFor (n : Nat) : Nat := (n + 3) / 4

/-- The address of a memory access: the pair plus an offset, modulo 2^64 (R219). -/
def Warp.addr (w : Warp) (a l : Nat) (off : Int) : Nat := (w.pair a l + BitVec.ofInt 64 off).toNat

/-! ## Loads and stores to memory -/

/-- A load with a lookahead window (R223, R225). -/
def loadOp (u : Bool) (la d a : Nat) (off : Int) (n : Nat) (sign sync : Bool) (s : State) : Out :=
  withGroup s fun c g w =>
    if 63 ≤ w.loadCount then .next (stall s c)
    else withRegs s c w (c.readers u) [(d, regsFor n)] [(a, 2)] fun _ =>
      let as := (c.readers u).map fun l => (⟨l, w.addr a l off, n, .read, sync⟩ : Acc)
      withAccs s c g w as fun s1 =>
        match loadAll (fun st x => st.loadAcc c g w x) s1 as with
        | (s2, .ok vs) => .next (giveResults s2 c la ((spread c u vs).map fun e => (e.1, loaded sign n d e.2)))
        | (s2, .error t) => .next (raiseTrap s2 c [t])

/-- A store (R223, R225): it waits to be performed, but for a release. When the home of a lane's data finds a cause, the lanes below have
performed theirs (R386). -/
def storeOp (u : Bool) (d a : Nat) (off : Int) (n : Nat) (sync : Bool) (s : State) : Out :=
  withGroup s fun c g w =>
    if 63 ≤ (s.work c.p).storeCount c.wg c.wid then .next (stall s c)
    else withRegs s c w (c.readers u) [] [(d, regsFor n), (a, 2)] fun _ =>
      let as := (c.readers u).map fun l => (⟨l, w.addr a l off, n, .write, sync⟩ : Acc)
      withAccs s c g w as fun s1 =>
        releasing s1 c (if sync then c.readers u else []) fun _ =>
          match storeAll (fun st x => st.storeAcc c g w x (w.regBytes d x.lane n)) s1 as with
          | (s2, none) => .next (retire s2.fresh c)
          | (s2, some t) => .next (raiseTrap (s2.drainTicket c.p s.ids).fresh c [t])

/-- The signed offset of format M, in access sizes. -/
def offsetM (o n : Nat) : Int := signed 7 o * n

def execLdS8 (u : Bool) (l d a o : Nat) (s : State) : Out := loadOp u l d a (offsetM o 1) 1 true false s
def execLdZ8 (u : Bool) (l d a o : Nat) (s : State) : Out := loadOp u l d a (offsetM o 1) 1 false false s
def execLdS16 (u : Bool) (l d a o : Nat) (s : State) : Out := loadOp u l d a (offsetM o 2) 2 true false s
def execLdZ16 (u : Bool) (l d a o : Nat) (s : State) : Out := loadOp u l d a (offsetM o 2) 2 false false s
def execLd (u : Bool) (l d a o : Nat) (s : State) : Out := loadOp u l d a (offsetM o 4) 4 false false s
def execLd64 (u : Bool) (l d a o : Nat) (s : State) : Out := loadOp u l d a (offsetM o 8) 8 false false s
def execLd128 (u : Bool) (l d a o : Nat) (s : State) : Out := loadOp u l d a (offsetM o 16) 16 false false s
def execSt8 (u : Bool) (_l d a o : Nat) (s : State) : Out := storeOp u d a (offsetM o 1) 1 false s
def execSt16 (u : Bool) (_l d a o : Nat) (s : State) : Out := storeOp u d a (offsetM o 2) 2 false s
def execSt (u : Bool) (_l d a o : Nat) (s : State) : Out := storeOp u d a (offsetM o 4) 4 false s
def execSt64 (u : Bool) (_l d a o : Nat) (s : State) : Out := storeOp u d a (offsetM o 8) 8 false s
def execSt128 (u : Bool) (_l d a o : Nat) (s : State) : Out := storeOp u d a (offsetM o 16) 16 false s

def execLda (u : Bool) (l a b x : Nat) (s : State) : Out := loadOp u l b a (x * 4 : Nat) 4 false true s
def execLda64 (u : Bool) (l a b x : Nat) (s : State) : Out := loadOp u l b a (x * 8 : Nat) 8 false true s
def execStl (u : Bool) (_l a b x : Nat) (s : State) : Out := storeOp u b a (x * 4 : Nat) 4 true s
def execStl64 (u : Bool) (_l a b x : Nat) (s : State) : Out := storeOp u b a (x * 8 : Nat) 8 true s

/-! ## The scratchpad (R224) -/

/-- Runs a meaning once the scratchpad addresses of some lanes pass; else the trap is taken. -/
def withSpad (s : State) (c : Ctx) (g : WorkGroup) (w : Warp) (kind : Kind) (n : Nat) (ls : List Nat) (f : Nat → Nat) (k : Unit → Out) :
    Out :=
  let faults := ls.filterMap fun l => s.spadCheck c g w kind l (f l) n
  if faults.isEmpty then k () else .next (raiseTrap s c faults)

/-- The scratchpad bytes that a lane sees, or the data error (R392). No L1 holds scratchpad: only what another path has written may be
missing still (R97). -/
def State.spadLoad (s : State) (c : Ctx) (g : WorkGroup) (w : Warp) (l a n : Nat) : Except (Nat × DWord) (State × List Byte) :=
  let k := (s.spadAt c g w l a n).getD 0
  if s.spad.poisoned k n then .error (causeData, dataTval 1 l a)
  else
    let old := s.findsOld c g l 0
    .ok (s.hasRead g.core true old k n, seen ((s.work c.p).ownStores c.wg c.wid l true) k (s.lateBytes true old k n))

def ldsOp (u : Bool) (la a b x n : Nat) (s : State) : Out :=
  withGroup s fun c g w =>
    if 63 ≤ w.loadCount then .next (stall s c)
    else withRegs s c w (c.readers u) [(b, regsFor n)] [(a, 1)] fun _ =>
      let at_ (l : Nat) : Nat := (w.reg a l).toNat + x * n
      withSpad s c g w .read n (c.readers u) at_ fun _ =>
        match loadAll (fun st y => st.spadLoad c g w y.lane y.va n) s
            ((c.readers u).map fun l => (⟨l, at_ l, n, .read, false⟩ : Acc)) with
        | (s1, .ok vs) => .next (giveResults s1 c la ((spread c u vs).map fun e => (e.1, wordsOf b e.2)))
        | (s1, .error t) => .next (raiseTrap s1 c [t])

def stsOp (u : Bool) (a b x n : Nat) (s : State) : Out :=
  withGroup s fun c g w =>
    if 63 ≤ (s.work c.p).storeCount c.wg c.wid then .next (stall s c)
    else withRegs s c w (c.readers u) [] [(a, 1), (b, regsFor n)] fun _ =>
      let at_ (l : Nat) : Nat := (w.reg a l).toNat + x * n
      withSpad s c g w .write n (c.readers u) at_ fun _ =>
        let s1 := (c.readers u).foldl (fun st l =>
          st.addUnits c g w l true (located ((s.spadAt c g w l (at_ l) n).getD 0) (w.regBytes b l n))) s
        .next (retire s1.fresh c)

def execLds (u : Bool) (l a b x : Nat) (s : State) : Out := ldsOp u l a b x 4 s
def execLds64 (u : Bool) (l a b x : Nat) (s : State) : Out := ldsOp u l a b x 8 s
def execLds128 (u : Bool) (l a b x : Nat) (s : State) : Out := ldsOp u l a b x 16 s
def execSts (u : Bool) (_l a b x : Nat) (s : State) : Out := stsOp u a b x 4 s
def execSts64 (u : Bool) (_l a b x : Nat) (s : State) : Out := stsOp u a b x 8 s
def execSts128 (u : Bool) (_l a b x : Nat) (s : State) : Out := stsOp u a b x 16 s

/-! ## Prefetch (R226, R227) -/

/-- PREF is no access of the model: it changes no value and raises no fault, of memory or for poison (R227); the traps of its operand fields
are those of every instruction (R58). It stands in the store counter until the line is at its home. (log 103, DEDUCED) -/
def prefetch (s : State) : Out :=
  withGroup s fun c g w =>
    if 63 ≤ (s.work c.p).storeCount c.wg c.wid then .next (stall s c)
    else
      match regCheck c w [(bitsOf c.word 16 10, 2)] with
      | some t => .next (raiseTrap s c [t])
      | none => .next (retire (s.addStore c ⟨s.ids, 0, c.wg, c.wid, c.l0, privOf g w, false, false, [], none, w.trap.hm⟩).fresh c)
def execPrefL2 (s : State) : Out := prefetch s
def execPrefL1 (s : State) : Out := prefetch s

/-! ## Atomics (R228, R229) -/

/-- An atomic whose lanes act in ascending order; `f` gives the new word from the lane and the old word. -/
def atomOp (u : Bool) (la d a : Nat) (reads : List RegUse) (f : Warp → Nat → Word → Option Word) (s : State) : Out :=
  withGroup s fun c g w =>
    if 63 ≤ w.loadCount then .next (stall s c)
    else withRegs s c w (c.readers u) [(d, 1)] ((a, 2) :: reads) fun _ =>
      let as := (c.readers u).map fun l => (⟨l, (w.pair a l).toNat, 4, .atomic, true⟩ : Acc)
      withAccs s c g w as fun s1 =>
        releasing s1 c (c.readers u) fun _ =>
          match loadAll (fun st x => st.atomAcc c g w x (f w x.lane)) s1 as with
          | (s2, .ok vs) => .next (giveResults s2 c la ((spread c u vs).map fun e => (e.1, [(d, e.2)])))
          | (s2, .error t) => .next (raiseTrap s2 c [t])

/-- An atomic that combines the old word with vB. -/
def atomWith (u : Bool) (la d a b : Nat) (op : Word → Word → Word) (s : State) : Out :=
  atomOp u la d a [(b, 1)] (fun w l o => some (op o (w.reg b l))) s

def execAtomAdd (u : Bool) (l d a b : Nat) (s : State) : Out := atomWith u l d a b (· + ·) s
def execAtomF32 (u : Bool) (l d a b : Nat) (s : State) : Out := atomWith u l d a b fadd s
def execAtomMins (u : Bool) (l d a b : Nat) (s : State) : Out := atomWith u l d a b minS s
def execAtomMaxs (u : Bool) (l d a b : Nat) (s : State) : Out := atomWith u l d a b maxS s
def execAtomMinz (u : Bool) (l d a b : Nat) (s : State) : Out := atomWith u l d a b minZ s
def execAtomMaxz (u : Bool) (l d a b : Nat) (s : State) : Out := atomWith u l d a b maxZ s
def execAtomAnd (u : Bool) (l d a b : Nat) (s : State) : Out := atomWith u l d a b (· &&& ·) s
def execAtomOr (u : Bool) (l d a b : Nat) (s : State) : Out := atomWith u l d a b (· ||| ·) s
def execAtomXor (u : Bool) (l d a b : Nat) (s : State) : Out := atomWith u l d a b (· ^^^ ·) s
def execAtomExch (u : Bool) (l d a b : Nat) (s : State) : Out := atomWith u l d a b (fun _ x => x) s
/-- A CAS that fails writes nothing (R229). -/
def execAtomCas (u : Bool) (l d a b : Nat) (s : State) : Out :=
  atomOp u l d a [(b, 2)] (fun w k o => if o = w.reg b k then some (w.reg (b + 1) k) else none) s

/-! ## Reductions (R230) -/

def execRadd (u : Bool) (_l f a b x : Nat) (s : State) : Out :=
  withGroup s fun c g w =>
    if 63 ≤ (s.work c.p).storeCount c.wg c.wid then .next (stall s c)
    else withRegs s c w (c.readers u) [] [(a, 2), (b, 1)] fun _ =>
      let as := (c.readers u).map fun l => (⟨l, w.addr a l (x * 4 : Nat), 4, .atomic, true⟩ : Acc)
      withAccs s c g w as fun s1 =>
        match storeAll (fun st y => st.raddAcc c g w y (w.reg b y.lane) f) s1 as with
        | (s2, none) => .next (retire s2.fresh c)
        | (s2, some t) => .next (raiseTrap (s2.drainTicket c.p s.ids).fresh c [t])

end Sys2Proof.Machine
end

