-- ==== Sys2Proof/Machine/Sched.lean ====
section
/-!
DEFINITION. Whose turn a step is: instruction fetch (R73, R147, R148, R167), PC groups and their readiness (R19, R20, R24 to R26, R369 to
R372), sequencers, the steps that the part has to take or may take, the passing of a cycle (R319, R354, R377, R378), and the state in
which the chosen step runs.
-/
namespace Sys2Proof.Machine

/-! ## Fetch (R73, R167) -/

/-- The word at an address for an agent, or the cause of R367; `v` is the state that its page walk reads. (log 70, DEDUCED) -/
def State.fetchWord (s v : State) (g : Agent) (va : VAddr) : Except Nat Nat :=
  match v.memLoc g .fetch va.toNat 4 false with
  | .error c => .error c
  | .ok l =>
    match s.fetchLoc g.p none l 4 with
    | .error c => .error c
    | .ok r => if r.2 then .error causeData else .ok (ofBytes r.1)

/-- What stands next before an agent: an instruction with its word and literal, or a cause with the address or the word it names. -/
inductive Next where
  | step (i : Instr) (word lit : Nat)
  | cause (bit : Nat) (at_ : Nat)
  deriving DecidableEq, Repr

/-- The cause of a word that does not decode: an operand field out of range is an illegal operand (R152, R283). -/
def decodeCause (e : DecodeError) : Nat := if e = .operand then causeOperand else causeIllegal

/-- What stands before an agent of a class (R148): `hdr` when its group has a header to pass, at `next` − 4; its walks read `v`. -/
def State.lookAt (s v : State) (g : Agent) (cls : Nat) (hdr : Bool) (next : VAddr) (rem : Nat) : Next :=
  if hdr then
    match s.fetchWord v g (next - 4) with
    | .ok w => .step .clauseHeader w 0
    | .error c => .cause c (next - 4).toNat
  else
    match s.fetchWord v g next with
    | .error c => .cause c next.toNat
    | .ok w =>
      if wordSize w = 1 then
        match decode cls [w] with
        | .instr i _ => .step i w 0
        | .bad e => .cause (decodeCause e) w
      else if rem < 2 then .cause causeIllegal w
      else
        match s.fetchWord v g (next + 4) with
        | .error c => .cause c (next + 4).toNat
        | .ok lit =>
          match decode cls [w, lit] with
          | .instr i _ => .step i w lit
          | .bad e => .cause (decodeCause e) w

/-! ## PC groups (R19, R20) -/

/-- Some lanes by the address of their next instruction word, in the order of their lowest lanes. -/
def Warp.groupsOf (w : Warp) (ls : List Nat) : Nat → List (List Nat)
  | 0 => []
  | fuel + 1 =>
    match ls with
    | [] => []
    | l :: r =>
      let same (k : Nat) : Bool := (w.lane k).cur.next == (w.lane l).cur.next
      (l :: r.filter same) :: w.groupsOf (r.filter fun k => !same k) fuel

/-- The PC groups of a warp: lanes that are neither held nor exited, those that sleep or wait at an instruction too; in handler mode its
live lanes are one group (R371). -/
def Warp.pcGroups (w : Warp) : List (List Nat) :=
  if w.trap.hm then (if w.live.isEmpty then [] else [w.live])
  else w.groupsOf (w.lanesWhere fun x => x.status == .running && !x.hold.held) 32

/-- Whether no lane of a group sleeps or waits at its instruction (R24). -/
def Warp.awake (w : Warp) (ls : List Nat) : Bool := w.trap.hm || ls.all fun l => (w.lane l).hold == .free

/-- Whether a lane of a group has its clause header still to pass (R19). -/
def Warp.atHeader (w : Warp) (ls : List Nat) : Bool := if w.trap.hm then w.trap.hcur.hdr else ls.any fun l => (w.lane l).cur.hdr

/-- The headers whose wait fields hold a group's next instruction, the first of its clause (R149). -/
def Warp.openHeaders (w : Warp) (ls : List Nat) : List Word :=
  if w.trap.hm then w.trap.hcur.first.toList else ls.filterMap fun l => (w.lane l).cur.first

/-- A warp as an agent that fetches. -/
def fetchAgent (p : Nat) (g : WorkGroup) (w : Warp) : Agent := ⟨p, dieOfSlice (sliceOfCore g.core), privOf g w, false⟩

/-- The state that the page walks of a group's fetches read: what its lanes have stored stands in memory, also what still waits (R388). -/
def State.fetchView (s : State) (p wg wid : Nat) (ls : List Nat) : State :=
  { s with mem := ((s.work p).stores.filter fun x => x.wg == wg && x.wid == wid && ls.contains x.lane && !x.spad).foldl Memory.made s.mem }

/-- What stands before a PC group. -/
def State.groupNext (s : State) (p : Nat) (g : WorkGroup) (w : Warp) (ls : List Nat) : Next :=
  let cur := if w.trap.hm then w.trap.hcur else (w.lane (ls.headD 0)).cur
  s.lookAt (s.fetchView p g.id w.wid ls) (fetchAgent p g w) 0 (w.atHeader ls) cur.next cur.rem

/-- The counter that an instruction counts in (R149): 1 load, 2 store, 3 engine, 4 relation. -/
def counterOf : Instr → Nat
  | .ldS8 .. => 1 | .ldZ8 .. => 1 | .ldS16 .. => 1 | .ldZ16 .. => 1 | .ld .. => 1 | .ld64 .. => 1 | .ld128 .. => 1
  | .lds .. => 1 | .lds64 .. => 1 | .lds128 .. => 1 | .lda .. => 1 | .lda64 .. => 1 | .mldr .. => 1
  | .atomAdd .. => 1 | .atomF32 .. => 1 | .atomMins .. => 1 | .atomMaxs .. => 1 | .atomMinz .. => 1 | .atomMaxz .. => 1
  | .atomAnd .. => 1 | .atomOr .. => 1 | .atomXor .. => 1 | .atomExch .. => 1 | .atomCas .. => 1
  | .st8 .. => 2 | .st16 .. => 2 | .st .. => 2 | .st64 .. => 2 | .st128 .. => 2 | .sts .. => 2 | .sts64 .. => 2 | .sts128 .. => 2
  | .stl .. => 2 | .stl64 .. => 2 | .radd .. => 2 | .mst .. => 2 | .prefL2 => 2 | .prefL1 => 2
  | .fork .. => 3 | .cpush .. => 3 | .jcdec .. => 3 | .dqpush .. => 3 | .launch .. => 3 | .gsig .. => 3
  | .relopen .. => 4 | .relseal .. => 4 | .relcnt .. => 4
  | _ => 0

/-- Whether an instruction waits for room in its counter (R149). -/
def State.counterFull (s : State) (p : Nat) (g : WorkGroup) (w : Warp) (i : Instr) : Bool :=
  match counterOf i with
  | 1 => decide (63 ≤ w.loadCount)
  | 2 => decide (63 ≤ (s.work p).storeCount g.id w.wid)
  | 3 => decide (63 ≤ (s.work p).engCountOf g.id w)
  | 4 => decide (63 ≤ w.relCount)
  | _ => false

/-- Whether an instruction of a group waits until an outstanding result has been written (R153, R216, R217, R278, R303). -/
def Instr.awaits (i : Instr) (hm : Bool) (alloc : Nat) (r : Result) : Bool :=
  match i with
  | .exit => !hm | .group .. => !hm | .groupWide .. => !hm | .join .. => !hm | .joinWide .. => !hm | .park .. => !hm | .parkWide .. => !hm
  | .trap => r.hm == hm | .bkpt => r.hm == hm
  | .trapret => hm && r.hm
  | .qnt _ _ _ a => r.vals.any fun v => v.1 == a || v.1 == a + 1
  | .dqnt _ _ a => r.vals.any fun v => v.1 == a
  | .regshrink _ n => !hm && decide (0 < n) && decide (n < alloc) && r.vals.any fun v => decide (8 * n ≤ v.1)
  | _ => false

/-- Whether it waits for the results of every lane of the warp. -/
def Instr.awaitsAll : Instr → Bool
  | .qnt .. => true | .dqnt .. => true | .regshrink .. => true
  | _ => false

/-- Whether a group's instruction waits for a result (R24). -/
def Warp.awaitsFor (w : Warp) (ls : List Nat) (i : Instr) : Bool :=
  (if Instr.awaitsAll i then w.live else ls).any fun l => (w.lane l).results.any fun r => Instr.awaits i w.trap.hm w.alloc r

/-- A group's instruction that waits for results of its own lanes has ended their windows: the lanes issue nothing before (R153). (log 21,
DEDUCED) (log 31, DEDUCED) -/
def Warp.endWindows (w : Warp) (ls : List Nat) (i : Instr) : Warp :=
  w.modLanes ls fun x => { x with results := x.results.map fun r => if Instr.awaits i w.trap.hm w.alloc r then { r with window := 0 } else r }

/-- Whether a group is stalled by the wait fields of the clause that it begins, or by a full counter (R24, R149). -/
def State.counterStall (s : State) (p : Nat) (g : WorkGroup) (w : Warp) (ls : List Nat) (n : Next) : Bool :=
  let k := s.work p
  (!w.atHeader ls && (w.openHeaders ls).any fun h =>
    headerWaits (decodeHeader h.toNat) w.loadCount (k.storeCount g.id w.wid) (k.engCountOf g.id w) w.relCount) ||
  match n with
  | .step i _ _ => s.counterFull p g w i
  | .cause _ _ => false

/-- Whether a group's next instruction is stalled (R24). -/
def State.stalled (s : State) (p : Nat) (g : WorkGroup) (w : Warp) (ls : List Nat) (n : Next) : Bool :=
  s.counterStall p g w ls n || match n with
  | .step i _ _ => w.awaitsFor ls i
  | .cause _ _ => false

/-- Whether a warp outside a handler goes on as far as the halt of its work-group is concerned: a sibling of a trapping warp has 12
instructions left at most (R369). -/
def WorkGroup.warpRuns (g : WorkGroup) (w : Warp) : Bool :=
  match g.halt with
  | .running => true
  | .stopping k => k != w.wid && w.trap.cause == 0 && decide (w.trap.skid < 12)
  | _ => false

/-- Whether a warp may issue at all: its partition runs, its core has swapped it in (R379), no pre-emption waits for it, and it is not
halted, where only the handling warp issues in a handler (R372). A
warp that waits in REGGROW issues nothing (R34), nor does a handler that waits in CLKLOCK. -/
def State.mayIssue (s : State) (p : Nat) (g : WorkGroup) (w : Warp) : Bool :=
  s.present p && g.pre == 0 && decide (g.swap ≤ s.cycle) &&
    (g.warpRuns w || match g.halt with
     | .handling k => k == w.wid && w.trap.hm
     | _ => false) &&
    !((s.work p).waiters.any fun x => x.wg == g.id && x.wid == w.wid && match x.kind with
      | .reggrow _ _ => !w.trap.hm
      | .clklock _ => w.trap.hm && x.lanes.isEmpty
      | _ => false)

/-- The PC groups of a warp that neither sleep nor wait nor have a result to wait for whose window has ended, each with what stands before
it. -/
def State.standing (s : State) (p : Nat) (g : WorkGroup) (w : Warp) : List (List Nat × Next) :=
  if s.mayIssue p g w then
    (w.pcGroups.filter fun ls => w.awake ls && !(ls.any fun l => (w.lane l).blocked w.trap.hm)).map fun ls => (ls, s.groupNext p g w ls)
  else []

/-- The runnable PC groups of a warp, each with what stands before it (R24). -/
def State.runnable (s : State) (p : Nat) (g : WorkGroup) (w : Warp) : List (List Nat × Next) :=
  (s.standing p g w).filter fun e => !s.stalled p g w e.1 e.2

/-- A CLAUSE HEADER THAT A GROUP HAS REACHED (R19, R148), if any: it passes before anything issues, whatever the clause waits for, and takes
no slot and no cycle. A header that fails raises its trap in the group's slot. (log 89, DEDUCED) -/
def State.headerDue (s : State) (p : Nat) (g : WorkGroup) (w : Warp) : Option (List Nat × Nat) :=
  if s.mayIssue p g w then
    w.pcGroups.findSome? fun ls =>
      if w.awake ls && w.atHeader ls then
        match s.groupNext p g w ls with
        | .step .clauseHeader word _ => if (decodeHeader word).ok 0 then some (ls, word) else none
        | _ => none
      else none
  else none

/-- The group that a warp's slot goes to, from a choice among the runnable ones: a turn that has ended passes to another group (R25), and
a group that has been passed over for 32 slots goes first (R24). -/
def Warp.pickGroup (w : Warp) (gs : List (List Nat × Next)) (choice : Nat) : Option (List Nat × Next) :=
  let others := gs.filter fun e => !(e.1.any w.turn.contains)
  let may := if w.turnEnd && !others.isEmpty then others else gs
  let age (e : List Nat × Next) : Nat := (e.1.map fun l => (w.lane l).age).foldl max 0
  let oldest := (may.map age).foldl max 0
  if 32 ≤ oldest then may.find? fun e => age e == oldest else may[choice % max 1 may.length]?

/-! ## Schedulers (R26) -/

/-- A warp that is ready, with its runnable groups. -/
structure Cand where
  g : WorkGroup
  w : Warp
  gs : List (List Nat × Next)
  deriving DecidableEq, Repr

/-- The ready warps of a scheduler of a core. -/
def State.candidates (s : State) (p core q : Nat) : List Cand :=
  ((s.work p).wgs.filter fun g => g.core == core).flatMap fun g =>
    (g.warps.filter fun w => w.slot % 4 == q).filterMap fun w =>
      let gs := s.runnable p g w
      if gs.isEmpty then none else some ⟨g, w, gs⟩

/-- The warp that the scheduler picks. -/
def pickWarp (cs : List Cand) (last : Nat) : Option Cand :=
  let sorted := sortBy (fun a b => decide (a.w.slot ≤ b.w.slot)) cs
  let oldest := (cs.map (·.w.readyAge)).foldl max 0
  if 256 ≤ oldest then sorted.find? fun c => c.w.readyAge == oldest
  else
    match sorted.find? fun c => decide (last < c.w.slot) with
    | some c => some c
    | none => sorted.head?

/-- The warps of a scheduler after it has picked one (R26), and the other groups of that warp (R24). -/
def Warp.passedOver (w : Warp) (cs : List Cand) (wg : Nat) (mine : Bool) (ls : List Nat) : Warp :=
  match cs.find? fun c => c.g.id == wg && c.w.wid == w.wid with
  | none => { w with readyAge := 0 }
  | some c =>
    if mine then
      let ready := c.gs.flatMap (·.1)
      { w with readyAge := 0, lanes := ((upto 0 w.lanes.length).zip w.lanes).map fun e =>
          { e.2 with age := if ready.contains e.1 && !ls.contains e.1 then e.2.age + 1 else 0 } }
    else { w with readyAge := w.readyAge + 1 }

/-- The state in which a scheduler's pick issues. -/
def State.picked (s : State) (p core q : Nat) (cs : List Cand) (c : Cand) (ls : List Nat) : State :=
  (s.modCore core fun k => { k with last := k.last.set q c.w.slot, picks := k.picks.set q s.cycle }).modWork p fun w =>
    { w with wgs := w.wgs.map fun g =>
        if g.core = core then
          { g with warps := g.warps.map fun x =>
              if x.slot % 4 = q then x.passedOver cs g.id (g.id == c.g.id && x.wid == c.w.wid) ls else x }
        else g }

/-! ## Sequencers -/

/-- Whether a sequencer may issue: its work-group stands on its core, and it has not ended or stopped. -/
def State.seqMayIssue (s : State) (p : Nat) (q : Seq) : Bool :=
  s.present p && !q.ending && !q.stopped && !q.discard &&
    (q.cls == 4 || match (s.work p).wg q.wg with
      | some g => g.pre == 0 && decide (g.swap ≤ s.cycle)
      | none => false)

/-- What stands before a sequencer. -/
def State.seqNextOf (s : State) (p : Nat) (q : Seq) : Next :=
  s.lookAt s { q.agent p with copy := false } q.cls q.cur.hdr q.cur.next q.cur.rem

/-- Whether it waits: for its commands (R149, R283, R284) or for a record (R298). -/
def State.seqWaits (s : State) (p : Nat) (q : Seq) (n : Next) : Bool :=
  match n with
  | .step .clauseHeader word _ => (decodeHeader word).ok q.cls && headerWaits (decodeHeader word) 0 0 q.cmds.length 0
  | .step .swait _ _ => !q.cmds.isEmpty
  | .step (.ssig ..) _ _ => !q.cmds.isEmpty
  | .step (.ssig64 ..) _ _ => !q.cmds.isEmpty
  | .step (.ssigAdd64 ..) _ _ => !q.cmds.isEmpty
  | .step (.evwait ..) _ _ => (findD (s.work p).guidons q.cluster ⟨[], []⟩).events.isEmpty
  | _ => false

/-! ## The steps of the part -/

/-- Indices of a list. -/
def indices {α : Type} (l : List α) : List Nat := upto 0 l.length

/-- How many cycles what is ready may be passed over at most. (log 102, DESIGN CHOICE) -/
def patience : Nat := 65536

/-- The results of a warp that can be written, by ticket: their windows have ended, and their data is there (R153). -/
def Warp.dueResults (v : Warp) (t : Result → Bool) : List Nat :=
  nub (v.lanes.flatMap fun y => (y.results.filter fun r => r.window == 0 && r.ready && t r).map (·.ticket))

/-- Members that have not answered an access or a collective of a partition for 16 µs: group and member (R404). -/
def State.silent (s : State) (p : Nat) : List (Nat × Member) :=
  (s.fabric.sent.filterMap fun y => if y.p = p ∧ y.since + 16000 ≤ s.time then some (y.group, y.member) else none) ++
    (s.work p).commands.flatMap fun e => match e.2.wait with
      | .coll x _ _ ms _ => if e.2.since + 16000 ≤ s.time then ms.map fun m => (x, m) else []
      | _ => []

/-- Steps of a partition that cannot wait: results and absences that have been due for long (R153, R404), aging and reservation (R136,
R137), what has stood beyond its time (R126, R410), what falls on a slot boundary (R297, R308, R335), and a core on which every warp waits
(R36). -/
def State.forcedOf (s : State) (p : Nat) : List Input :=
  let w := s.work p
  let x := s.part p
  (w.wgs.flatMap fun g => g.warps.flatMap fun v =>
    (v.dueResults fun r => decide (r.born + patience ≤ s.cycle)).map fun t => ⟨.lookaheadResultWrite, [p, g.id, v.wid, t]⟩) ++
  ((indices w.items).flatMap fun n =>
    match w.items[n]? with
    | some i =>
      (if i.aged s.cycle < i.cls then [⟨.priorityAging, [p, n]⟩] else []) ++
      (if !i.reserved && w.ready i && decide (i.since + 1048576 ≤ s.cycle) then [⟨.placementReserve, [p, n]⟩] else [])
    | none => []) ++
  (x.parked.filterMap fun e => if e.2.ptime + 1000000 ≤ s.time then some ⟨.parkedExpiry, [p, e.1]⟩ else none) ++
  (x.queues.filterMap fun e =>
    if s.present p && e.2.state == 2 && (match e.2.limit with
      | some t => decide (t ≤ s.time)
      | none => false) then some ⟨.fenceTimeout, [p, e.1]⟩ else none) ++
  (x.groups.flatMap fun e =>
    match e.2.round with
    | some t =>
      (e.2.unacked.filterMap fun i => if t + 4 * s.fabric.slot ≤ s.time then some ⟨.agreementAckTimeout, [p, e.1, i]⟩ else none) ++
      (if e.2.unacked.isEmpty && decide (e.2.stamp / max 1 s.fabric.slot < s.time / max 1 s.fabric.slot) then
        [⟨.agreementRoundEnd, [p, e.1]⟩] else [])
    | none => if s.coordinator p e.1 = s.fabric.module ∧ s.roundDue p e.1 = true then [⟨.agreementRoundStart, [p, e.1]⟩] else []) ++
  ((s.silent p).filterMap fun y =>
    if s.lost p y.2 then (indexOf (· == y.2) (s.boundMembers p y.1)).map fun i => ⟨.memberAbsentTimeout, [p, y.1, i]⟩ else none) ++
  (w.seqs.flatMap fun q => q.cmds.filterMap fun c =>
    match c.wait with
    | .slot t _ _ => if t ≤ s.time then some ⟨.ttopSlotStart, [p, q.id, c.id]⟩ else none
    | _ => none) ++
  (match x.clk.pending with
   | some (a, _, _) => if s.lockDue p a && !s.elsewhere p a then [⟨.clockLockEffect, [p, a]⟩] else []
   | none => []) ++
  ((nub (w.wgs.map (·.core))).filterMap fun c => if w.growStuck c then some ⟨.reggrowGrant, [p, c]⟩ else none)

/-- The partitions that are not off. -/
def State.activeParts (s : State) : List Nat := (s.parts.filter fun e => e.2.state != .off).map (·.1)

/-- The first step that cannot wait. (log 71, DESIGN CHOICE) -/
def State.forced (s : State) : Option Input := (s.activeParts.flatMap s.forcedOf).head?

/-- The step of the packet that a queue has reached; one that halts it is found by any of them. -/
def State.packetEvent (s : State) (p q : Nat) : Input :=
  match s.packetRead p q 0 8 with
  | .error _ => ⟨.nopPacket, [p, q]⟩
  | .ok h =>
    ⟨match h % 16 with
     | 1 => .launchPacket
     | 2 => .fencePacket
     | 3 => .writePacket
     | 4 => .timedPacket
     | _ => .nopPacket, [p, q]⟩

/-- What a queue may do next. -/
def State.queueEvents (s : State) (p q : Nat) (x : Queue) : List Input :=
  if !x.en then []
  else if x.state ≤ 1 then (if x.qrptr = x.qwptr then [] else [s.packetEvent p q])
  else if x.state = 2 then [⟨.fenceCountersMet, [p, q]⟩]
  else if x.state = 3 then
    (match x.limit with
     | some t => if t ≤ s.time then [⟨.timedReached, [p, q]⟩] else []
     | none => [])
  else []

/-- What a warp's own business may be: results, counters, the end of a sleep (R149, R153, R305). -/
def State.warpEvents (s : State) (p wg : Nat) (v : Warp) : List Input :=
  ((v.dueResults fun _ => true).map fun t => ⟨.lookaheadResultWrite, [p, wg, v.wid, t]⟩) ++
  ((v.lanesWhere fun y => match y.hold with
    | .sleep t => decide (t ≤ s.cycle)
    | _ => false).map fun l => ⟨.sleepWake, [p, wg, v.wid, l]⟩) ++
  (if v.eng.isEmpty then [] else [⟨.engineCounterOperationComplete, [p, wg, v.wid]⟩]) ++
  (if v.rel.isEmpty then [] else [⟨.relationOperationComplete, [p, wg, v.wid]⟩])

/-- What may become of a command in flight. -/
def commandEvents (p id : Nat) (c : Command) : List Input :=
  match c.wait with
  | .slot _ _ _ => []
  | .todo (.cpym _) _ => [⟨.cpymFollowOn, [p, id, c.id]⟩]
  | .follow _ _ _ => [⟨.cpymFollowOn, [p, id, c.id]⟩]
  | .parked _ _ => []
  | .round _ _ => []
  | .done => if c.tiles.isEmpty then [⟨.engineCommandComplete, [p, id, c.id]⟩] else [⟨.arrivedTilePush, [p, id, c.id]⟩]
  | _ => [⟨.engineCommandComplete, [p, id, c.id]⟩]

/-- Waits that may end (R34, R142). -/
def waiterEvents (p : Nat) (w : Work) : List Input :=
  (indices w.waiters).flatMap fun n =>
    match w.waiters[n]? with
    | some x =>
      match x.kind, w.wg x.wg with
      | .fork _ _, _ => [⟨.sequencerStart, [p, n]⟩]
      | .reggrow _ _, some g => [⟨.reggrowGrant, [p, g.core]⟩]
      | _, _ => []
    | none => []

/-- Groups and migrations at the fabric's edge (R308, R335, R343, R404). -/
def State.edgeEvents (s : State) (p : Nat) : List Input :=
  let x := s.part p
  (x.groups.flatMap fun e =>
    (if e.2.valid && e.2.elastic && e.2.round.isNone && (!e.2.requests.isEmpty || !e.2.absent.isEmpty) then
      [⟨.agreementRoundStart, [p, e.1]⟩] else []) ++
    (let ms := s.boundMembers p e.1
     (indices ms).filterMap fun i =>
      match ms[i]? with
      | some m => if e.2.valid && !e.2.absent.contains i && s.lost p m then some ⟨.memberAbsentTimeout, [p, e.1, i]⟩ else none
      | none => none)) ++
  (x.channels.filterMap fun e => if e.2.state = 1 then some ⟨.migrationSwitchOver, [p, e.1]⟩ else none) ++
  (match x.clk.pending with
   | some (a, _, _) => [⟨.clockLockEffect, [p, a]⟩]
   | none => [])

/-- Steps that the part may take for a partition. -/
def State.eventsOf (s : State) (p : Nat) : List Input :=
  let w := s.work p
  let x := s.part p
  (if w.items.isEmpty then [] else [⟨.placeItem, [p]⟩]) ++
  ((indices w.outputs).map fun n => ⟨.outputWarpStart, [p, n]⟩) ++
  waiterEvents p w ++
  (w.wgs.flatMap fun g =>
    (match g.halt with
     | .stopping _ => [⟨.handlerEntry, [p, g.id]⟩]
     | .stopped _ => if g.pre = 0 then [⟨.handlerEntry, [p, g.id]⟩] else []
     | _ => []) ++
    (if w.items.isEmpty || !(g.running.any fun y => match y.hold with
      | .lbar _ => true
      | _ => false) then [] else [⟨.lbarPlacementPreempt, [p, g.id]⟩]) ++
    g.warps.flatMap (s.warpEvents p g.id)) ++
  ((indices w.stores).map fun n => ⟨.storePerformed, [p, n]⟩) ++
  (w.seqs.flatMap fun q => q.cmds.flatMap (commandEvents p q.id)) ++
  (w.launches.map fun l => if l.2.pushing then ⟨.completionRecordPush, [p, l.1]⟩ else ⟨.launchComplete, [p, l.1]⟩) ++
  (w.guidons.filterMap fun e => if e.2.waiting.isEmpty then none else some ⟨.controlProgramStart, [p, e.1]⟩) ++
  (x.queues.flatMap fun e => s.queueEvents p e.1 e.2) ++
  s.edgeEvents p ++
  (match x.state with
   | .freezing => [⟨.freezeComplete, [p]⟩]
   | .tearing => [⟨.teardownComplete, [p]⟩]
   | _ => [])

/-- Steps that the part may take for the module. -/
def State.moduleEvents (s : State) : List Input :=
  (s.cores.flatMap fun e =>
    (if e.2.swapEnd ≠ 0 ∧ e.2.swapEnd ≤ s.cycle then [⟨.preemptSwapComplete, [e.1]⟩] else []) ++
    (if e.2.spill && decide (e.2.swapEnd ≤ s.cycle) then [⟨.preemptSpillComplete, [e.1]⟩] else [])) ++
  (if s.boot.state = 1 then [⟨.bootCheckComplete, []⟩] else []) ++
  (match s.bb.snap with
   | some _ => [⟨.blackboxSnapComplete, []⟩]
   | none => [])

/-! ## Turns -/

/-- Whose turn a step can be: a sequencer's, a scheduler's, the part's, or the outside world's. -/
inductive Turn where
  | seq (p id : Nat)
  | sched (p core q : Nat)
  | event (e : Input)
  | input
  deriving DecidableEq, Repr

/-- The turns of a partition's agents. -/
def State.agentTurns (s : State) (p : Nat) : List Turn :=
  (((s.work p).seqs.filter fun q => s.seqMayIssue p q && !s.seqWaits p q (s.seqNextOf p q)).map fun q => .seq p q.id) ++
  ((nub ((s.work p).wgs.map (·.core))).flatMap fun core =>
    (upto 0 4).filterMap fun q => if (s.candidates p core q).isEmpty then none else some (.sched p core q))

/-- Every turn that is possible now. (log 5, DESIGN CHOICE) -/
def State.turns (s : State) : List Turn :=
  s.activeParts.flatMap s.agentTurns ++ (s.activeParts.flatMap s.eventsOf ++ s.moduleEvents).map .event ++
    (if s.inputs.isEmpty then [] else [.input])

/-- The steps that the outside world or another master can take. -/
def Instr.fromOutside : Instr → Bool
  | .gateSignalApply => true | .qwptrWrite => true | .queueReset => true | .queueEnable => true | .withdrawLaunch => true
  | .preempt => true | .preemptAndHold => true | .preemptRelease => true | .activate => true | .freeze => true | .resume => true
  | .tearDownKeepingGates => true | .tearDownExportingGates => true | .partitionFieldWrite => true | .gateEntryWrite => true
  | .ringEnWrite => true | .migrationGo => true | .migrationFailure => true | .fabricAccessServe => true | .parkedRetry => true
  | .parkedDrop => true | .agreementRoundStart => true | .agreementRoundEnd => true | .switchReset => true | .timeDomainLeave => true
  | .timeDomainRejoin => true | .tokenReceive => true | .tokenReturnArrival => true | .powerClampAdjust => true
  | .hostMemRead => true | .hostMemWrite => true | .ownerClaim => true | .ownerHandOver => true | .ownerAccept => true
  | .ownerRelease => true | .ownerLinkDown => true | .portLimiterWrite => true | .hostWindowWrite => true | .coldReset => true
  | .warmReset => true | .bootctlWrite => true | .blackboxSnap => true | .getVersion => true | .getCapabilities => true
  | .negotiateAlgorithms => true | .getDigests => true | .getCertificate => true | .challenge => true | .getMeasurements => true
  | .patrolScrub => true | .uncorrectableError => true | .genericRegisterWrite => true | .switchUnreachable => true
  | .fabricFormation => true | .tokenBrokerMove => true
  | _ => false

/-! ## A cycle passes -/

/-- Whether a member of an instance stands in a debug halt (R378). -/
def Work.debugging (w : Work) (seq k : Nat) (inst : List Nat) : Bool :=
  (w.wgs ++ w.images.map (·.wg)).any fun g => g.debug && g.seq == seq && g.running.any fun y => instanceOf y.lix k == inst

/-- Whether a warp's phase count is held for a debug halt: at an LBAR round, or at a relation point at which a thread of it has arrived
(R378). -/
def Work.debugHeld (w : Work) (g : WorkGroup) (v : Warp) : Bool :=
  (v.lanes.any fun y => match y.hold with
    | .lbar k => w.debugging g.seq k (instanceOf y.lix k)
    | _ => false) ||
  w.points.any fun pt => pt.seq == g.seq && (pt.rows.any fun r => r.wg == g.id && r.wid == v.wid) && w.debugging g.seq pt.k pt.inst

/-- The phase count of a warp that is not halted advances (R377, R378). -/
def Work.countPhase (w : Work) (g : WorkGroup) (v : Warp) : Warp :=
  if g.warpRuns v && !w.debugHeld g v then { v with phase := { v.phase with count := v.phase.count + 1 } } else v

/-- What a boundary of fabric time brings: refills of buckets each microsecond (R319), energy (R354), the clamp's mean (R355). -/
def State.boundaries (s : State) (t0 t1 : Nat) : List Input :=
  (if t0 / 1000 < t1 / 1000 then
    (s.gates.filterMap fun e => if e.2.burst ≠ 0 ∧ e.2.frz = false then some ⟨.gateTokenRefill, [e.1]⟩ else none) ++
    (if s.works.any fun e => !e.2.wgs.isEmpty || !e.2.seqs.isEmpty then [⟨.energyAttributionInterval, []⟩] else [])
  else []) ++
  (if t0 / 1000000 < t1 / 1000000 then
    (s.parts.filterMap fun e =>
      if e.2.state = .running ∧ 1 ≤ e.2.encount then some ⟨.energyIdleSlotAdd, [e.1]⟩ else none) ++ [⟨.powerClampAdjust, []⟩]
  else [])

/-- Sleeps that have reached their longest: such a group can issue in the next cycle (R305). -/
def State.wakings (s : State) : List Input :=
  s.works.flatMap fun e => e.2.wgs.flatMap fun g => g.warps.flatMap fun v =>
    (v.lanesWhere fun y => match y.hold with
      | .sleep t => decide (t + 255 ≤ s.cycle)
      | _ => false).map fun l => ⟨.sleepWake, [e.1, g.id, v.wid, l]⟩

/-- The phase timers that a cycle's end finds run out (R377), and whether their work-groups run. -/
def State.expiries (s : State) : List Input :=
  s.works.flatMap fun e => e.2.wgs.flatMap fun g => g.warps.filterMap fun v =>
    if g.warpRuns v = true ∧ v.phase.expired (((e.2.launch g.seq).map fun l => l.rcd.phmargin).getD 0) = true then
      some ⟨.phaseTimerExpiry, [e.1, g.id, v.wid, bit (g.halt == .running)]⟩
    else none

/-- A warp of which some groups are runnable: the ages of the others end (R24), and so does the turn of a group that is not (R25); a warp
that is not ready has no age (R26). -/
def Warp.refreshed (w : Warp) (ready : List Nat) : Warp :=
  { w with
    readyAge := if ready.isEmpty then 0 else w.readyAge
    turnEnd := w.turnEnd || !(w.turn.any ready.contains)
    lanes := ((upto 0 w.lanes.length).zip w.lanes).map fun e => if ready.contains e.1 then e.2 else { e.2 with age := 0 } }

/-- A warp as a cycle finds it: its groups that can issue, and those that could if it were not for results (R24, R153). -/
def State.refreshWarp (s : State) (p : Nat) (g : WorkGroup) (v : Warp) : Warp :=
  let st := s.standing p g v
  let ended := st.foldl (fun y e => match e.2 with
    | .step i _ _ => if s.counterStall p g v e.1 e.2 then y else y.endWindows e.1 i
    | .cause _ _ => y) v
  ended.refreshed ((st.filter fun e => !s.stalled p g v e.1 e.2).flatMap (·.1))

/-- ONE CYCLE PASSES, and the step gets its number: readiness and phase counts follow, mirrors carry what has been written (R343), members
that answer acknowledge (R335). -/
def State.passCycle (s : State) : State :=
  let works : Map Work := s.works.map fun (e : Nat × Work) =>
    (e.1, { e.2 with wgs := e.2.wgs.map fun g => { g with warps := g.warps.map fun v => e.2.countPhase g (s.refreshWarp e.1 g v) } })
  let s1 := { s with cycle := s.cycle + 1, lag := s.lag + s.cycleLag, tick := s.tick + 1, works := works }.mirror.acknowledges
  { s1 with follow := s1.follow ++ s.boundaries s.time s1.time ++ s1.expiries ++ s1.wakings }

/-! ## The choice -/

/-- What the chosen step is: an instruction or event, a cause that a group or a sequencer raises where it stands, or nothing. -/
inductive Act where
  | exec (i : Instr)
  | trap (c : Ctx) (bit : Nat) (tval : DWord)
  | seqTrap (p id bit : Nat)
  | idle
  deriving DecidableEq, Repr

/-- A state in which an agent's instruction issues; its fetch, whose walk reads `v`, has brought the translation into the die's TLB
(R69). -/
def State.issuing (s v : State) (iss : Issue) (p die va : Nat) : State := { v.fillTlb p die va with mem := s.mem, issue := iss }

/-- The TVAL of a cause that a fetch or a decode raises. -/
def fetchTval (bit lane at_ : Nat) : DWord := if bit = causeData then dataTval 0 lane at_ else BitVec.ofNat 64 at_

/-- The turn of a group. -/
def State.takeGroup (s : State) (p : Nat) (g : WorkGroup) (w : Warp) (ls : List Nat) (n : Next) : State × Act :=
  let va := if w.trap.hm then w.trap.hcur.next else (w.lane (ls.headD 0)).cur.next
  match n with
  | .step i word lit =>
    let s1 := s.passCycle
    (s1.issuing (s1.fetchView p g.id w.wid ls) (.simt p g.id w.wid ls word lit) p (dieOfSlice (sliceOfCore g.core)) va.toNat, .exec i)
  | .cause b a =>
    let word := if b = causeIllegal ∨ b = causeOperand then a else 0
    ({ s.passCycle with issue := .simt p g.id w.wid ls word 0 }, .trap ⟨p, g.id, w.wid, ls, word, 0⟩ b (fetchTval b (ls.headD 0) a))

/-- The turn of a sequencer. -/
def State.takeSeq (s : State) (p : Nat) (q : Seq) : State × Act :=
  match s.seqNextOf p q with
  | .step i word lit => (s.passCycle.issuing s.passCycle (.seq p q.id word lit) p q.die q.cur.next.toNat, .exec i)
  | .cause b _ => ({ s.passCycle with issue := .seq p q.id 0 0 }, .seqTrap p q.id b)

/-- A group passes the header that it has reached; no cycle passes. -/
def State.takeHeader (s : State) (p : Nat) (g : WorkGroup) (w : Warp) (ls : List Nat) (word : Nat) : State × Act :=
  let va := (if w.trap.hm then w.trap.hcur.next else (w.lane (ls.headD 0)).cur.next) - 4
  ({ s.issuing (s.fetchView p g.id w.wid ls) (.simt p g.id w.wid ls word 0) p (dieOfSlice (sliceOfCore g.core)) va.toNat with
     tick := s.tick + 1 }, .exec .clauseHeader)

/-- The first header that a group has reached. -/
def State.headers (s : State) : Option (Nat × WorkGroup × Warp × List Nat × Nat) :=
  s.activeParts.findSome? fun p => (s.work p).wgs.findSome? fun g => g.warps.findSome? fun w =>
    (s.headerDue p g w).map fun e => (p, g, w, e.1, e.2)

/-- A step of the part, or of the outside world. -/
def State.takeEvent (s : State) (e : Input) : State × Act := ({ s.passCycle with issue := .part e.args }, .exec e.step)

def State.idles (s : State) : State × Act := ({ s.passCycle with issue := .none }, .idle)

/-- A turn taken; `choice` picks the group of a warp. -/
def State.take (s : State) (choice : Nat) : Turn → State × Act
  | .event e => s.takeEvent e
  | .input =>
    match s.inputs with
    | e :: r => if Instr.fromOutside e.step then { s with inputs := r }.takeEvent e else { s with inputs := r }.idles
    | [] => s.idles
  | .seq p id =>
    match (s.work p).seqOf id with
    | some q => s.takeSeq p q
    | none => s.idles
  | .sched p core q =>
    let cs := s.candidates p core q
    match pickWarp cs ((s.coreOf core).last.getD q 0) with
    | none => s.idles
    | some c =>
      match c.w.pickGroup c.gs choice with
      | none => s.idles
      | some e => (s.picked p core q cs c e.1).takeGroup p c.g c.w e.1 e.2

/-- A scheduler with a warp that has long been ready without being picked. (log 102, DESIGN CHOICE) -/
def State.overdue (s : State) : Option Turn :=
  s.activeParts.findSome? fun p => (nub ((s.work p).wgs.map (·.core))).findSome? fun core => (upto 0 4).findSome? fun q =>
    if (s.coreOf core).picks.getD q 0 + patience ≤ s.cycle ∧ (s.candidates p core q).isEmpty = false then some (.sched p core q) else none

/-- THE STEP THAT COMES NEXT, and the state in which it runs: what an earlier step has brought about and headers that groups have reached,
which take no cycle of their own, what cannot wait, a scheduler that has waited for long, else the turn that the tape, or the free choice, names. -/
def State.upcoming (s : State) : State × Act :=
  match s.follow with
  | e :: r => ({ s with follow := r, tick := s.tick + 1, issue := .part e.args }, .exec e.step)
  | [] =>
    match s.headers with
    | some (p, g, w, ls, word) => s.takeHeader p g w ls word
    | none =>
      match s.forced with
      | some e => s.takeEvent e
      | none =>
        let ts := match s.overdue with
          | some t => [t]
          | none => s.turns
        let k := s.tape.headD (Config.freeTurn s.tick)
        match ts[k % max 1 ts.length]? with
        | some t => { s with tape := s.tape.tail }.take (k / max 1 ts.length) t
        | none => s.idles

end Sys2Proof.Machine
end

