-- ==== Sys2Proof/Machine/Program.lean ====
section
/-!
DEFINITION. A module in which one instruction stands before one agent (log 17): partition 0 runs, its translation maps the first GiB on
itself, and a thread of a device-level launch, or a sequencer of its work-group, stands in front of the word, past its clause header. It
takes the place of what the host and the command queues do to bring a program to a core.
-/
namespace Sys2Proof.Machine

/-- Where the word stands. -/
def programBase : Nat := 0x20000

/-- The translation tables at 0x10000: two pointers and a leaf of 1 GiB with every permission (R70 to R72). -/
def programTables : List (Nat × Byte) :=
  located 0x10000 (bytesOf 8 (0x11000 + 1)) ++ located 0x11000 (bytesOf 8 (0x12000 + 1)) ++ located 0x12000 (bytesOf 8 0x3F)

/-- Partition 0 in the state running: its root, and one window of 1 GiB (R73, R313). -/
def programPart : Partition :=
  { Partition.empty with state := .running, nextSeq := 2, desc := [(1, 0x10000), (16, BitVec.ofNat 64 (30 * 2 ^ 58))] }

/-- Its launch: one work-group of one thread, without tables, programs or records. -/
def programLaunch : Launch :=
  { seq := 1, priv := 3, schemas := [], clamp := false, dqdrop := false, started := true, ctlDone := true, energy := 0, ending := .live,
    pushing := false, enbase := 0, slices := [],
    rcd := { code := BitVec.ofNat 64 programBase, handler := 0, livetab := 0, phbudget := 0, matprog := 0, copyprog := 0, collprog := 0,
             ctlprog := 0, schemas := 0, status := 0, ctr := 0, arg := 0, even := false, gcl := 0, argv := false, nsch := 0, prio := 0,
             phmargin := 0, eslot := 0, levels := [⟨1, 16, 0, 0, 0⟩] } }

/-- A cursor in front of the word, the first of its clause, whose header waits for nothing. -/
def programCursor (word : Nat) : Cursor := ⟨BitVec.ofNat 56 programBase, false, wordSize word, some (BitVec.ofNat 32 (0x7FFF80 + wordSize word))⟩

/-- Its one thread, of a class-0 program; a sequencer's work-group stands elsewhere, at a barrier. -/
def programGroup (cls word : Nat) : WorkGroup :=
  let t : NewThread := ⟨[0], [], [], programCursor word, 0, 0⟩
  let g := mkGroup 1 1 1 3 0 0 1 false 16 [0] .zero [[t]]
  if cls = 0 then g
  else { g with warps := g.warps.map fun w => w.modLanes [0] fun x => { x with hold := .lbar 0 } }

/-- The sequencer of a program of class 1 to 4. -/
def programSeq (cls word : Nat) : Seq :=
  { id := 2, cls := cls, wg := if cls = 4 then 0 else 1, cluster := 0, seq := 1, priv := 3, base := BitVec.ofNat 56 programBase,
    cur := programCursor word, regs := List.replicate 32 0, cmds := [], ending := false, stopped := false, discard := false, ttop := none,
    engine := 0 }

def programWork (cls word : Nat) : Work :=
  { Work.empty with launches := [(1, programLaunch)], wgs := [programGroup cls word], seqs := if cls = 0 then [] else [programSeq cls word] }

/-- The class whose program holds the word: the first that decodes it (log 16). -/
def classOf (w : Nat) (lit : Option Nat) : List Nat → Nat
  | [] => 0
  | c :: r =>
    match decodeWord c w lit with
    | .instr _ _ => c
    | .bad _ => classOf w lit r

/-- The module with a word and a literal in front of an agent; nothing comes before its step, which is the first of the turns. -/
def State.withProgram (s : State) (word lit : Nat) : State :=
  let cls := classOf word (some lit) [0, 1, 2, 3, 4]
  let code := located programBase (bytesOf 4 word) ++ located (programBase + 4) (bytesOf 4 lit)
  { s with mem := ⟨writeCells s.mem.cells (programTables ++ code), [], []⟩, parts := [(0, programPart)], works := [(0, programWork cls word)],
           late := [], dirty := [], cores := put s.cores 0 Core.empty, ids := max s.ids 3, follow := [], tape := 0 :: s.tape,
           fabric := { s.fabric with sent := [] } }

end Sys2Proof.Machine
end

