-- ==== Sys2Proof/Machine/Dispatch.lean ====
section
/-!
DEFINITION. The dispatch: one arm per constructor, each one direct call of its meaning.
-/
namespace Sys2Proof.Machine

def exec (i : Instr) (s : State) : Host.Outcome State Fault Refusal :=
  match i with
  | .srd u d sc => Sys2Proof.Machine.execSrd u d sc s
  | .callr u d a => Sys2Proof.Machine.execCallr u d a s
  | .ret u a => Sys2Proof.Machine.execRet u a s
  | .jmpr u a => Sys2Proof.Machine.execJmpr u a s
  | .joinm u m => Sys2Proof.Machine.execJoinm u m s
  | .leavem u m => Sys2Proof.Machine.execLeavem u m s
  | .waitm u m => Sys2Proof.Machine.execWaitm u m s
  | .mskrd u d m => Sys2Proof.Machine.execMskrd u d m s
  | .mskwr u a m => Sys2Proof.Machine.execMskwr u a m s
  | .add u d a b => Sys2Proof.Machine.execAdd u d a b s
  | .sub u d a b => Sys2Proof.Machine.execSub u d a b s
  | .mul u d a b => Sys2Proof.Machine.execMul u d a b s
  | .mulhs u d a b => Sys2Proof.Machine.execMulhs u d a b s
  | .mulhz u d a b => Sys2Proof.Machine.execMulhz u d a b s
  | .mad u d a b => Sys2Proof.Machine.execMad u d a b s
  | .addc u d a b => Sys2Proof.Machine.execAddc u d a b s
  | .subb u d a b => Sys2Proof.Machine.execSubb u d a b s
  | .abs u d a => Sys2Proof.Machine.execAbs u d a s
  | .neg u d a => Sys2Proof.Machine.execNeg u d a s
  | .mins u d a b => Sys2Proof.Machine.execMins u d a b s
  | .maxs u d a b => Sys2Proof.Machine.execMaxs u d a b s
  | .minz u d a b => Sys2Proof.Machine.execMinz u d a b s
  | .maxz u d a b => Sys2Proof.Machine.execMaxz u d a b s
  | .divs u d a b => Sys2Proof.Machine.execDivs u d a b s
  | .divz u d a b => Sys2Proof.Machine.execDivz u d a b s
  | .rems u d a b => Sys2Proof.Machine.execRems u d a b s
  | .remz u d a b => Sys2Proof.Machine.execRemz u d a b s
  | .cmpi u f d a im => Sys2Proof.Machine.execCmpi u f d a im s
  | .cmpiWide u c d a im => Sys2Proof.Machine.execCmpiWide u c d a im s
  | .and u d a b => Sys2Proof.Machine.execAnd u d a b s
  | .or u d a b => Sys2Proof.Machine.execOr u d a b s
  | .xor u d a b => Sys2Proof.Machine.execXor u d a b s
  | .andn u d a b => Sys2Proof.Machine.execAndn u d a b s
  | .not u d a => Sys2Proof.Machine.execNot u d a s
  | .popc u d a => Sys2Proof.Machine.execPopc u d a s
  | .clz u d a => Sys2Proof.Machine.execClz u d a s
  | .ffs u d a => Sys2Proof.Machine.execFfs u d a s
  | .brev u d a => Sys2Proof.Machine.execBrev u d a s
  | .mov u d a => Sys2Proof.Machine.execMov u d a s
  | .sel u d a b => Sys2Proof.Machine.execSel u d a b s
  | .shl u d a b => Sys2Proof.Machine.execShl u d a b s
  | .shr u d a b => Sys2Proof.Machine.execShr u d a b s
  | .sar u d a b => Sys2Proof.Machine.execSar u d a b s
  | .rot u d a b => Sys2Proof.Machine.execRot u d a b s
  | .bfes u d a b => Sys2Proof.Machine.execBfes u d a b s
  | .bfez u d a b => Sys2Proof.Machine.execBfez u d a b s
  | .bfi u d a b => Sys2Proof.Machine.execBfi u d a b s
  | .shli u d a n => Sys2Proof.Machine.execShli u d a n s
  | .shri u d a n => Sys2Proof.Machine.execShri u d a n s
  | .sari u d a n => Sys2Proof.Machine.execSari u d a n s
  | .roti u d a n => Sys2Proof.Machine.execRoti u d a n s
  | .cmp u c d a b => Sys2Proof.Machine.execCmp u c d a b s
  | .addi u d a im => Sys2Proof.Machine.execAddi u d a im s
  | .addiWide u d a im => Sys2Proof.Machine.execAddiWide u d a im s
  | .andi u d a im => Sys2Proof.Machine.execAndi u d a im s
  | .andiWide u d a im => Sys2Proof.Machine.execAndiWide u d a im s
  | .ori u d a im => Sys2Proof.Machine.execOri u d a im s
  | .oriWide u d a im => Sys2Proof.Machine.execOriWide u d a im s
  | .xori u d a im => Sys2Proof.Machine.execXori u d a im s
  | .xoriWide u d a im => Sys2Proof.Machine.execXoriWide u d a im s
  | .movi u d im => Sys2Proof.Machine.execMovi u d im s
  | .moviWide u d im => Sys2Proof.Machine.execMoviWide u d im s
  | .movhi u d im => Sys2Proof.Machine.execMovhi u d im s
  | .movhiWide u d im => Sys2Proof.Machine.execMovhiWide u d im s
  | .lea u d im => Sys2Proof.Machine.execLea u d im s
  | .leaWide u d im => Sys2Proof.Machine.execLeaWide u d im s
  | .bra u o => Sys2Proof.Machine.execBra u o s
  | .bz u a o => Sys2Proof.Machine.execBz u a o s
  | .bnz u a o => Sys2Proof.Machine.execBnz u a o s
  | .call u d im => Sys2Proof.Machine.execCall u d im s
  | .fadd u d a b => Sys2Proof.Machine.execFadd u d a b s
  | .fsub u d a b => Sys2Proof.Machine.execFsub u d a b s
  | .fmul u d a b => Sys2Proof.Machine.execFmul u d a b s
  | .ffma u d a b => Sys2Proof.Machine.execFfma u d a b s
  | .fmin u d a b => Sys2Proof.Machine.execFmin u d a b s
  | .fmax u d a b => Sys2Proof.Machine.execFmax u d a b s
  | .fabs u d a => Sys2Proof.Machine.execFabs u d a s
  | .fneg u d a => Sys2Proof.Machine.execFneg u d a s
  | .fcmp u c d a b => Sys2Proof.Machine.execFcmp u c d a b s
  | .fclass u d a => Sys2Proof.Machine.execFclass u d a s
  | .frcp u d a => Sys2Proof.Machine.execFrcp u d a s
  | .frsq u d a => Sys2Proof.Machine.execFrsq u d a s
  | .fsqrt u d a => Sys2Proof.Machine.execFsqrt u d a s
  | .fexp2 u d a => Sys2Proof.Machine.execFexp2 u d a s
  | .flog2 u d a => Sys2Proof.Machine.execFlog2 u d a s
  | .fsin u d a => Sys2Proof.Machine.execFsin u d a s
  | .fcos u d a => Sys2Proof.Machine.execFcos u d a s
  | .ftanh u d a => Sys2Proof.Machine.execFtanh u d a s
  | .hadd2 u d a b => Sys2Proof.Machine.execHadd2 u d a b s
  | .hmul2 u d a b => Sys2Proof.Machine.execHmul2 u d a b s
  | .hfma2 u d a b => Sys2Proof.Machine.execHfma2 u d a b s
  | .cvtBf16F32Lo u d a => Sys2Proof.Machine.execCvtBf16F32Lo u d a s
  | .cvtBf16F32Hi u d a => Sys2Proof.Machine.execCvtBf16F32Hi u d a s
  | .cvtF16F32Lo u d a => Sys2Proof.Machine.execCvtF16F32Lo u d a s
  | .cvtF16F32Hi u d a => Sys2Proof.Machine.execCvtF16F32Hi u d a s
  | .cvtE4m3x2F32Lo u d a b => Sys2Proof.Machine.execCvtE4m3x2F32Lo u d a b s
  | .cvtE4m3x2F32Hi u d a b => Sys2Proof.Machine.execCvtE4m3x2F32Hi u d a b s
  | .cvtE5m2x2F32Lo u d a b => Sys2Proof.Machine.execCvtE5m2x2F32Lo u d a b s
  | .cvtE5m2x2F32Hi u d a b => Sys2Proof.Machine.execCvtE5m2x2F32Hi u d a b s
  | .cvtF32Bf16 u d a h => Sys2Proof.Machine.execCvtF32Bf16 u d a h s
  | .cvtF32F16 u d a h => Sys2Proof.Machine.execCvtF32F16 u d a h s
  | .cvtF32E4m3 u d a n => Sys2Proof.Machine.execCvtF32E4m3 u d a n s
  | .cvtF32E5m2 u d a n => Sys2Proof.Machine.execCvtF32E5m2 u d a n s
  | .cvtS32F32 u r d a => Sys2Proof.Machine.execCvtS32F32 u r d a s
  | .cvtZ32F32 u r d a => Sys2Proof.Machine.execCvtZ32F32 u r d a s
  | .cvtF32S32 u d a => Sys2Proof.Machine.execCvtF32S32 u d a s
  | .cvtF32Z32 u d a => Sys2Proof.Machine.execCvtF32Z32 u d a s
  | .cvtF32S64 u d a => Sys2Proof.Machine.execCvtF32S64 u d a s
  | .cvtF32Z64 u d a => Sys2Proof.Machine.execCvtF32Z64 u d a s
  | .cvtS64F32Rz u d a => Sys2Proof.Machine.execCvtS64F32Rz u d a s
  | .cvtZ64F32Rz u d a => Sys2Proof.Machine.execCvtZ64F32Rz u d a s
  | .cvtS8S32Sat u d a => Sys2Proof.Machine.execCvtS8S32Sat u d a s
  | .cvtS16S32Sat u d a => Sys2Proof.Machine.execCvtS16S32Sat u d a s
  | .cvtZ8S32Sat u d a => Sys2Proof.Machine.execCvtZ8S32Sat u d a s
  | .cvtZ16S32Sat u d a => Sys2Proof.Machine.execCvtZ16S32Sat u d a s
  | .cvtZ8Z32Sat u d a => Sys2Proof.Machine.execCvtZ8Z32Sat u d a s
  | .cvtZ16Z32Sat u d a => Sys2Proof.Machine.execCvtZ16Z32Sat u d a s
  | .cvtS64S32 u d a => Sys2Proof.Machine.execCvtS64S32 u d a s
  | .cvtZ64Z32 u d a => Sys2Proof.Machine.execCvtZ64Z32 u d a s
  | .cvtS32S64Sat u d a => Sys2Proof.Machine.execCvtS32S64Sat u d a s
  | .cvtZ32Z64Sat u d a => Sys2Proof.Machine.execCvtZ32Z64Sat u d a s
  | .qnt u f d a => Sys2Proof.Machine.execQnt u f d a s
  | .dqnt u d a => Sys2Proof.Machine.execDqnt u d a s
  | .shfl d a b => Sys2Proof.Machine.execShfl d a b s
  | .bcast d a n => Sys2Proof.Machine.execBcast d a n s
  | .vote d a m => Sys2Proof.Machine.execVote d a m s
  | .matchLanes d a => Sys2Proof.Machine.execMatchLanes d a s
  | .wred f d a => Sys2Proof.Machine.execWred f d a s
  | .wscan f d a b => Sys2Proof.Machine.execWscan f d a b s
  | .group u sc l r => Sys2Proof.Machine.execGroup u sc l r s
  | .groupWide u sc im => Sys2Proof.Machine.execGroupWide u sc im s
  | .join u sc a l r => Sys2Proof.Machine.execJoin u sc a l r s
  | .joinWide u sc a im => Sys2Proof.Machine.execJoinWide u sc a im s
  | .park u sc a => Sys2Proof.Machine.execPark u sc a s
  | .parkWide u sc a im => Sys2Proof.Machine.execParkWide u sc a im s
  | .relopen u d a => Sys2Proof.Machine.execRelopen u d a s
  | .relseal u d a => Sys2Proof.Machine.execRelseal u d a s
  | .relcnt u d a => Sys2Proof.Machine.execRelcnt u d a s
  | .fork u a c => Sys2Proof.Machine.execFork u a c s
  | .cpush u a => Sys2Proof.Machine.execCpush u a s
  | .jcdec u a => Sys2Proof.Machine.execJcdec u a s
  | .dqpush u d a => Sys2Proof.Machine.execDqpush u d a s
  | .dqpop u d => Sys2Proof.Machine.execDqpop u d s
  | .dqsteal u d a => Sys2Proof.Machine.execDqsteal u d a s
  | .reggrow u g => Sys2Proof.Machine.execReggrow u g s
  | .regshrink u g => Sys2Proof.Machine.execRegshrink u g s
  | .launch u d a => Sys2Proof.Machine.execLaunch u d a s
  | .ldS8 u l d a o => Sys2Proof.Machine.execLdS8 u l d a o s
  | .ldZ8 u l d a o => Sys2Proof.Machine.execLdZ8 u l d a o s
  | .ldS16 u l d a o => Sys2Proof.Machine.execLdS16 u l d a o s
  | .ldZ16 u l d a o => Sys2Proof.Machine.execLdZ16 u l d a o s
  | .ld u l d a o => Sys2Proof.Machine.execLd u l d a o s
  | .ld64 u l d a o => Sys2Proof.Machine.execLd64 u l d a o s
  | .ld128 u l d a o => Sys2Proof.Machine.execLd128 u l d a o s
  | .st8 u l d a o => Sys2Proof.Machine.execSt8 u l d a o s
  | .st16 u l d a o => Sys2Proof.Machine.execSt16 u l d a o s
  | .st u l d a o => Sys2Proof.Machine.execSt u l d a o s
  | .st64 u l d a o => Sys2Proof.Machine.execSt64 u l d a o s
  | .st128 u l d a o => Sys2Proof.Machine.execSt128 u l d a o s
  | .lds u l a b x => Sys2Proof.Machine.execLds u l a b x s
  | .lds64 u l a b x => Sys2Proof.Machine.execLds64 u l a b x s
  | .lds128 u l a b x => Sys2Proof.Machine.execLds128 u l a b x s
  | .sts u l a b x => Sys2Proof.Machine.execSts u l a b x s
  | .sts64 u l a b x => Sys2Proof.Machine.execSts64 u l a b x s
  | .sts128 u l a b x => Sys2Proof.Machine.execSts128 u l a b x s
  | .lda u l a b x => Sys2Proof.Machine.execLda u l a b x s
  | .lda64 u l a b x => Sys2Proof.Machine.execLda64 u l a b x s
  | .stl u l a b x => Sys2Proof.Machine.execStl u l a b x s
  | .stl64 u l a b x => Sys2Proof.Machine.execStl64 u l a b x s
  | .radd u l f a b x => Sys2Proof.Machine.execRadd u l f a b x s
  | .atomAdd u l d a b => Sys2Proof.Machine.execAtomAdd u l d a b s
  | .atomF32 u l d a b => Sys2Proof.Machine.execAtomF32 u l d a b s
  | .atomMins u l d a b => Sys2Proof.Machine.execAtomMins u l d a b s
  | .atomMaxs u l d a b => Sys2Proof.Machine.execAtomMaxs u l d a b s
  | .atomMinz u l d a b => Sys2Proof.Machine.execAtomMinz u l d a b s
  | .atomMaxz u l d a b => Sys2Proof.Machine.execAtomMaxz u l d a b s
  | .atomAnd u l d a b => Sys2Proof.Machine.execAtomAnd u l d a b s
  | .atomOr u l d a b => Sys2Proof.Machine.execAtomOr u l d a b s
  | .atomXor u l d a b => Sys2Proof.Machine.execAtomXor u l d a b s
  | .atomExch u l d a b => Sys2Proof.Machine.execAtomExch u l d a b s
  | .atomCas u l d a b => Sys2Proof.Machine.execAtomCas u l d a b s
  | .xfence u a b => Sys2Proof.Machine.execXfence u a b s
  | .lbar u k => Sys2Proof.Machine.execLbar u k s
  | .sppin u a b => Sys2Proof.Machine.execSppin u a b s
  | .spunpin u a b => Sys2Proof.Machine.execSpunpin u a b s
  | .rbpush u a b => Sys2Proof.Machine.execRbpush u a b s
  | .rbpop u d a => Sys2Proof.Machine.execRbpop u d a s
  | .rbfree u d a b => Sys2Proof.Machine.execRbfree u d a b s
  | .tqpop u d n => Sys2Proof.Machine.execTqpop u d n s
  | .gsig u a b => Sys2Proof.Machine.execGsig u a b s
  | .gwait u d a b => Sys2Proof.Machine.execGwait u d a b s
  | .grd u d a => Sys2Proof.Machine.execGrd u d a s
  | .gtry u d a b => Sys2Proof.Machine.execGtry u d a b s
  | .mldr u l a b x => Sys2Proof.Machine.execMldr u l a b x s
  | .mst u l a b x => Sys2Proof.Machine.execMst u l a b x s
  | .csrr u d c => Sys2Proof.Machine.execCsrr u d c s
  | .csrw u a c => Sys2Proof.Machine.execCsrw u a c s
  | .tlbinv u a b => Sys2Proof.Machine.execTlbinv u a b s
  | .cinv u a b => Sys2Proof.Machine.execCinv u a b s
  | .tokxfer u d a b => Sys2Proof.Machine.execTokxfer u d a b s
  | .clklock u a b => Sys2Proof.Machine.execClklock u a b s
  | .sleep u a => Sys2Proof.Machine.execSleep u a s
  | .watch u a b => Sys2Proof.Machine.execWatch u a b s
  | .smov u d a => Sys2Proof.Machine.execSmov u d a s
  | .sadd u d a b => Sys2Proof.Machine.execSadd u d a b s
  | .ssig u a b => Sys2Proof.Machine.execSsig u a b s
  | .ssig64 u a b => Sys2Proof.Machine.execSsig64 u a b s
  | .ssigAdd64 u a b => Sys2Proof.Machine.execSsigAdd64 u a b s
  | .slda u d a => Sys2Proof.Machine.execSlda u d a s
  | .slda64 u d a => Sys2Proof.Machine.execSlda64 u d a s
  | .sli u d im => Sys2Proof.Machine.execSli u d im s
  | .sliWide d im => Sys2Proof.Machine.execSliWide d im s
  | .sbnz u a o => Sys2Proof.Machine.execSbnz u a o s
  | .sloop u a o => Sys2Proof.Machine.execSloop u a o s
  | .tcfg u n d a => Sys2Proof.Machine.execTcfg u n d a s
  | .tzero u n d => Sys2Proof.Machine.execTzero u n d s
  | .tzeroRows u n d b => Sys2Proof.Machine.execTzeroRows u n d b s
  | .twr u n d a b => Sys2Proof.Machine.execTwr u n d a b s
  | .mma u n d a => Sys2Proof.Machine.execMma u n d a s
  | .mmas u n d a => Sys2Proof.Machine.execMmas u n d a s
  | .mmao u n d a => Sys2Proof.Machine.execMmao u n d a s
  | .accrd u n d a b => Sys2Proof.Machine.execAccrd u n d a b s
  | .accrdClr u n d a b => Sys2Proof.Machine.execAccrdClr u n d a b s
  | .accnorm u n d => Sys2Proof.Machine.execAccnorm u n d s
  | .accnormRows u n d b => Sys2Proof.Machine.execAccnormRows u n d b s
  | .acchrRow u n d a b => Sys2Proof.Machine.execAcchrRow u n d a b s
  | .acchrExp u n d a b => Sys2Proof.Machine.execAcchrExp u n d a b s
  | .acchrTile u n d a => Sys2Proof.Machine.execAcchrTile u n d a s
  | .msync u n a => Sys2Proof.Machine.execMsync u n a s
  | .cpy u n d a b => Sys2Proof.Machine.execCpy u n d a b s
  | .cpym u n f d a b => Sys2Proof.Machine.execCpym u n f d a b s
  | .gather u n d a b => Sys2Proof.Machine.execGather u n d a b s
  | .scatter u n d a b => Sys2Proof.Machine.execScatter u n d a b s
  | .stage u n a b => Sys2Proof.Machine.execStage u n a b s
  | .emblk u n d a b => Sys2Proof.Machine.execEmblk u n d a b s
  | .topk u n d a b => Sys2Proof.Machine.execTopk u n d a b s
  | .coll u n a => Sys2Proof.Machine.execColl u n a s
  | .agset u n a b => Sys2Proof.Machine.execAgset u n a b s
  | .egjoin u n d a => Sys2Proof.Machine.execEgjoin u n d a s
  | .egleave u n d a => Sys2Proof.Machine.execEgleave u n d a s
  | .ttop u a => Sys2Proof.Machine.execTtop u a s
  | .evpop u d => Sys2Proof.Machine.execEvpop u d s
  | .evwait u d => Sys2Proof.Machine.execEvwait u d s
  | .nop => Sys2Proof.Machine.execNop s
  | .yield => Sys2Proof.Machine.execYield s
  | .exit => Sys2Proof.Machine.execExit s
  | .phase => Sys2Proof.Machine.execPhase s
  | .meet => Sys2Proof.Machine.execMeet s
  | .clauseHeader => Sys2Proof.Machine.execClauseHeader s
  | .outputWarpStart => Sys2Proof.Machine.execOutputWarpStart s
  | .rdv => Sys2Proof.Machine.execRdv s
  | .sequencerStart => Sys2Proof.Machine.execSequencerStart s
  | .reggrowGrant => Sys2Proof.Machine.execReggrowGrant s
  | .lookaheadResultWrite => Sys2Proof.Machine.execLookaheadResultWrite s
  | .storePerformed => Sys2Proof.Machine.execStorePerformed s
  | .prefL2 => Sys2Proof.Machine.execPrefL2 s
  | .prefL1 => Sys2Proof.Machine.execPrefL1 s
  | .fence => Sys2Proof.Machine.execFence s
  | .lbarPlacementPreempt => Sys2Proof.Machine.execLbarPlacementPreempt s
  | .gateSignalApply => Sys2Proof.Machine.execGateSignalApply s
  | .trap => Sys2Proof.Machine.execTrap s
  | .trapret => Sys2Proof.Machine.execTrapret s
  | .bkpt => Sys2Proof.Machine.execBkpt s
  | .sleepWake => Sys2Proof.Machine.execSleepWake s
  | .phaseTimerExpiry => Sys2Proof.Machine.execPhaseTimerExpiry s
  | .handlerEntry => Sys2Proof.Machine.execHandlerEntry s
  | .swait => Sys2Proof.Machine.execSwait s
  | .endProg => Sys2Proof.Machine.execEndProg s
  | .cpymFollowOn => Sys2Proof.Machine.execCpymFollowOn s
  | .ttopSlotStart => Sys2Proof.Machine.execTtopSlotStart s
  | .arrivedTilePush => Sys2Proof.Machine.execArrivedTilePush s
  | .engineCommandComplete => Sys2Proof.Machine.execEngineCommandComplete s
  | .completionRecordPush => Sys2Proof.Machine.execCompletionRecordPush s
  | .controlProgramStart => Sys2Proof.Machine.execControlProgramStart s
  | .qwptrWrite => Sys2Proof.Machine.execQwptrWrite s
  | .queueReset => Sys2Proof.Machine.execQueueReset s
  | .queueEnable => Sys2Proof.Machine.execQueueEnable s
  | .nopPacket => Sys2Proof.Machine.execNopPacket s
  | .launchPacket => Sys2Proof.Machine.execLaunchPacket s
  | .fencePacket => Sys2Proof.Machine.execFencePacket s
  | .fenceCountersMet => Sys2Proof.Machine.execFenceCountersMet s
  | .fenceTimeout => Sys2Proof.Machine.execFenceTimeout s
  | .writePacket => Sys2Proof.Machine.execWritePacket s
  | .timedPacket => Sys2Proof.Machine.execTimedPacket s
  | .timedReached => Sys2Proof.Machine.execTimedReached s
  | .placeItem => Sys2Proof.Machine.execPlaceItem s
  | .priorityAging => Sys2Proof.Machine.execPriorityAging s
  | .placementReserve => Sys2Proof.Machine.execPlacementReserve s
  | .launchComplete => Sys2Proof.Machine.execLaunchComplete s
  | .withdrawLaunch => Sys2Proof.Machine.execWithdrawLaunch s
  | .preempt => Sys2Proof.Machine.execPreempt s
  | .preemptAndHold => Sys2Proof.Machine.execPreemptAndHold s
  | .preemptRelease => Sys2Proof.Machine.execPreemptRelease s
  | .preemptSwapComplete => Sys2Proof.Machine.execPreemptSwapComplete s
  | .preemptSpillComplete => Sys2Proof.Machine.execPreemptSpillComplete s
  | .activate => Sys2Proof.Machine.execActivate s
  | .freeze => Sys2Proof.Machine.execFreeze s
  | .freezeComplete => Sys2Proof.Machine.execFreezeComplete s
  | .resume => Sys2Proof.Machine.execResume s
  | .tearDownKeepingGates => Sys2Proof.Machine.execTearDownKeepingGates s
  | .tearDownExportingGates => Sys2Proof.Machine.execTearDownExportingGates s
  | .teardownComplete => Sys2Proof.Machine.execTeardownComplete s
  | .partitionFieldWrite => Sys2Proof.Machine.execPartitionFieldWrite s
  | .gateEntryWrite => Sys2Proof.Machine.execGateEntryWrite s
  | .gateTokenRefill => Sys2Proof.Machine.execGateTokenRefill s
  | .ringEnWrite => Sys2Proof.Machine.execRingEnWrite s
  | .migrationGo => Sys2Proof.Machine.execMigrationGo s
  | .migrationSwitchOver => Sys2Proof.Machine.execMigrationSwitchOver s
  | .migrationFailure => Sys2Proof.Machine.execMigrationFailure s
  | .fabricAccessServe => Sys2Proof.Machine.execFabricAccessServe s
  | .parkedRetry => Sys2Proof.Machine.execParkedRetry s
  | .parkedDrop => Sys2Proof.Machine.execParkedDrop s
  | .parkedExpiry => Sys2Proof.Machine.execParkedExpiry s
  | .memberAbsentTimeout => Sys2Proof.Machine.execMemberAbsentTimeout s
  | .agreementRoundStart => Sys2Proof.Machine.execAgreementRoundStart s
  | .agreementAckTimeout => Sys2Proof.Machine.execAgreementAckTimeout s
  | .agreementRoundEnd => Sys2Proof.Machine.execAgreementRoundEnd s
  | .switchReset => Sys2Proof.Machine.execSwitchReset s
  | .timeDomainLeave => Sys2Proof.Machine.execTimeDomainLeave s
  | .timeDomainRejoin => Sys2Proof.Machine.execTimeDomainRejoin s
  | .tokenReceive => Sys2Proof.Machine.execTokenReceive s
  | .tokenReturnArrival => Sys2Proof.Machine.execTokenReturnArrival s
  | .clockLockEffect => Sys2Proof.Machine.execClockLockEffect s
  | .powerClampAdjust => Sys2Proof.Machine.execPowerClampAdjust s
  | .energyAttributionInterval => Sys2Proof.Machine.execEnergyAttributionInterval s
  | .energyIdleSlotAdd => Sys2Proof.Machine.execEnergyIdleSlotAdd s
  | .hostMemRead => Sys2Proof.Machine.execHostMemRead s
  | .hostMemWrite => Sys2Proof.Machine.execHostMemWrite s
  | .ownerClaim => Sys2Proof.Machine.execOwnerClaim s
  | .ownerHandOver => Sys2Proof.Machine.execOwnerHandOver s
  | .ownerAccept => Sys2Proof.Machine.execOwnerAccept s
  | .ownerRelease => Sys2Proof.Machine.execOwnerRelease s
  | .ownerLinkDown => Sys2Proof.Machine.execOwnerLinkDown s
  | .portLimiterWrite => Sys2Proof.Machine.execPortLimiterWrite s
  | .hostWindowWrite => Sys2Proof.Machine.execHostWindowWrite s
  | .coldReset => Sys2Proof.Machine.execColdReset s
  | .warmReset => Sys2Proof.Machine.execWarmReset s
  | .bootctlWrite => Sys2Proof.Machine.execBootctlWrite s
  | .bootCheckComplete => Sys2Proof.Machine.execBootCheckComplete s
  | .blackboxSnap => Sys2Proof.Machine.execBlackboxSnap s
  | .blackboxSnapComplete => Sys2Proof.Machine.execBlackboxSnapComplete s
  | .getVersion => Sys2Proof.Machine.execGetVersion s
  | .getCapabilities => Sys2Proof.Machine.execGetCapabilities s
  | .negotiateAlgorithms => Sys2Proof.Machine.execNegotiateAlgorithms s
  | .getDigests => Sys2Proof.Machine.execGetDigests s
  | .getCertificate => Sys2Proof.Machine.execGetCertificate s
  | .challenge => Sys2Proof.Machine.execChallenge s
  | .getMeasurements => Sys2Proof.Machine.execGetMeasurements s
  | .patrolScrub => Sys2Proof.Machine.execPatrolScrub s
  | .uncorrectableError => Sys2Proof.Machine.execUncorrectableError s
  | .genericRegisterWrite => Sys2Proof.Machine.execGenericRegisterWrite s
  | .relationOperationComplete => Sys2Proof.Machine.execRelationOperationComplete s
  | .engineCounterOperationComplete => Sys2Proof.Machine.execEngineCounterOperationComplete s
  | .switchUnreachable => Sys2Proof.Machine.execSwitchUnreachable s
  | .fabricFormation => Sys2Proof.Machine.execFabricFormation s
  | .tokenBrokerMove => Sys2Proof.Machine.execTokenBrokerMove s

end Sys2Proof.Machine
end

