-- ==== Sys2Proof/Machine/Step.lean ====
section
/-!
DEFINITION. One step of the module: the step that comes next is chosen, and runs in its state; and the placing of an instruction where
the next step takes it.
-/
namespace Sys2Proof.Machine

/-- A chosen step in its state: an instruction or a step of the part, a cause raised where an agent stands, or a cycle in which nothing
happens. -/
def runAct (a : Act) (s : State) : Host.Outcome State Fault Refusal :=
  match a with
  | .exec i => exec i s
  | .trap c bit tval => .next (raiseTrap s c [(bit, tval)])
  | .seqTrap p id bit =>
    match (s.work p).seqOf id with
    | some q => .next (s.seqTrap p q bit)
    | none => .next s
  | .idle => .next s

/-- ONE STEP. -/
def step (s : State) : Host.Outcome State Fault Refusal := runAct s.upcoming.2 s.upcoming.1

/-- The machine with the instruction whose words are the low `nbits` bits of `w`, zeros above them, in front of the agent whose turn the
next step is. -/
def State.withFetchWord (s : State) (nbits w : Nat) : State :=
  s.withProgram (w % 2 ^ nbits % 4294967296) (w % 2 ^ nbits / 4294967296 % 4294967296)

end Sys2Proof.Machine
end

