-- ==== Sys2Proof/Safety.lean ====
section
/-!
DEFINITION. The words in which claims about the machine are stated: who issues, when operands pass their checks, what a step leaves
unchanged, and the invariant of memory.
-/
namespace Sys2Proof.Machine

/-! ## Who issues -/

/-- The PC group `c` issues in state `s`, and `g` and `w` are its work-group and its warp. -/
abbrev Issues (s : State) (c : Ctx) (g : WorkGroup) (w : Warp) : Prop :=
  s.issue = .simt c.p c.wg c.wid c.lanes c.word c.lit ∧ (s.work c.p).wg c.wg = some g ∧ g.warp c.wid = some w

/-- The sequencer `q` of partition `p` issues a word with a literal. -/
abbrev SeqIssues (s : State) (p : Nat) (q : Seq) (word lit : Nat) : Prop :=
  s.issue = .seq p q.id word lit ∧ (s.work p).seqOf q.id = some q

/-! ## Operands -/

/-- Register operands pass checks 4 and 5 of R368 and R392: each pair or quad is aligned, every register lies below the allocation, and
the lanes that read find no poison in what they read. -/
abbrev OperandsOk (_c : Ctx) (w : Warp) (ls : List Nat) (writes reads : List RegUse) : Prop :=
  (∀ u ∈ writes ++ reads, u.1 % u.2 = 0 ∧ u.1 + u.2 ≤ 8 * w.alloc) ∧
    ∀ l ∈ ls, ∀ u ∈ reads, ∀ r ∈ upto u.1 u.2, regKey r l ∉ w.poison

/-- Nothing of the group's lanes is outstanding (R153). -/
abbrev NoResults (c : Ctx) (w : Warp) : Prop := ∀ l ∈ c.lanes, (w.lane l).results = []

/-- The s registers of a sequencer's operands are aligned and exist (R281). -/
abbrev SregsOk (us : List SUse) : Prop := ∀ u ∈ us, u.1 % u.2.2 = 0 ∧ u.1 + u.2.1 ≤ 32

/-- An access lands in plain memory that holds no poison (R220, R386). -/
abbrev LandsPlain (s : State) (c : Ctx) (g : WorkGroup) (w : Warp) (a : Acc) : Prop :=
  leafFmt (s.landing c g w a).2 ≠ 2 ∧ s.placeOf c.p (s.landing c g w a).1 = .mem ∧ s.mem.poisoned (s.landing c g w a).1 a.n = false

/-! ## What a group's answer is -/

/-- The group completes with registers written in its lanes. -/
def answer (s : State) (c : Ctx) (f : Nat → List (Nat × Word)) : State := retire (writeLanes s c (c.lanes.map fun l => (l, f l))) c

/-- The group completes with a part of register `d` written in its lanes, of which `f` is the whole (R60). -/
def answerPart (s : State) (c : Ctx) (d : Nat) (f : Nat → Word) : State := retire (writePart s c d f) c

/-- The registers of the group's lanes receive the values as outstanding results of one load, with a window of `la` (R153). -/
def loadAnswer (s : State) (c : Ctx) (la : Nat) (f : Nat → List (Nat × Word)) : State :=
  giveResults s c la (c.lanes.map fun l => (l, f l))

/-! ## Reading a state -/

/-- A register of a lane. -/
def regAt (s : State) (p wg wid r l : Nat) : Option Word := (s.warp p wg wid).map fun w => w.reg r l
/-- The mask registers of a warp. -/
def masksAt (s : State) (p wg wid : Nat) : Option (List Word) := (s.warp p wg wid).map (·.masks)
/-- A byte of main memory. -/
def byteAt (s : State) (a : Nat) : Byte := s.mem.byte a

/-- Nothing outside the work of partitions, the black box and the model's counters differs: memory, scratchpad, what reads of them may still
find, partition registers, cores, gates, images, boot, host, fabric, power. -/
abbrev Spared (s t : State) : Prop :=
  t.mem = s.mem ∧ t.spad = s.spad ∧ t.late = s.late ∧ t.dirty = s.dirty ∧ t.parts = s.parts ∧ t.cores = s.cores ∧ t.gates = s.gates ∧ t.images = s.images ∧
    t.boot = s.boot ∧ t.host = s.host ∧ t.fabric = s.fabric ∧ t.power = s.power ∧ t.cycle = s.cycle ∧
    t.lag = s.lag

/-- Every register of every warp reads as before, but for registers `ds` in the lanes of the group. -/
abbrev RegsKept (s t : State) (c : Ctx) (ds : List Nat) : Prop :=
  ∀ p wg wid r l, ¬(p = c.p ∧ wg = c.wg ∧ wid = c.wid ∧ l ∈ c.lanes ∧ r ∈ ds) → regAt t p wg wid r l = regAt s p wg wid r l

/-- The masks of every warp stand. -/
abbrev MasksKept (s t : State) : Prop := ∀ p wg wid, masksAt t p wg wid = masksAt s p wg wid

/-! ## A machine that goes on -/

/-- Memory is in its canonical form. -/
abbrev State.Canonical (s : State) : Prop := s.mem.wf = true

/-- A step that answers a next state. -/
abbrev Goes (o : Host.Outcome State Fault Refusal) : Prop := ∃ t, o = .next t

end Sys2Proof.Machine
end

