-- ==== Sys2Proof/Certificates/Slice0/Obligations.lean ====
section
/-!
DEFINITION. The statements for the provers. Statements of one shape are made together: a list pairs instructions with what the spec has
them do. `Issues s c g w` says that group `c` of warp `w`, work-group `g`, issues in `s`; `OperandsOk` that its register operands pass
their checks; `answer` is the state in which the group has written registers and gone on (what that leaves alone is a statement of its own).
-/
open Sys2Proof Sys2Proof.Machine

/-! ## Encodings, the step, the invariant, reset, frames -/

/-- R147, R151, R154, R155, R157. -/
def Obligations.DecodeOfEncode : Prop :=
  (∀ (i : Instr) (own cls : Nat) (rest : List Nat), i.wf = true → cls ∈ i.classes →
    decode cls (encode i own ++ rest) = .instr i (encode i own).length ∧ encode i own ≠ []) ∧
  ∀ h : Header, h.rsvd < 2 ^ 7 → h.wrl < 2 ^ 4 → h.wen < 2 ^ 4 → h.wst < 2 ^ 4 → h.wld < 2 ^ 4 → h.cls < 2 ^ 3 → h.count < 2 ^ 4 →
    encodeHeader h < 2 ^ 32 ∧ decodeHeader (encodeHeader h) = h

/-- R147, R151, R154 to R157. The bits stand as U, OP, then the format's fields from the highest. -/
def Obligations.WordsDecode : Prop :=
  decode 0 [0b00000010000000001100000010000010] = .instr (.add false 3 1 2) 1 ∧
  decode 0 [0b10001100000101000001111111111110] = .instr (.addi true 5 3 2046) 1 ∧
  decode 0 [0b00011010000000000000000000000110] = .instr (.bra false 6) 1 ∧
  decode 0 [0b10011110000100111111111111111101] = .instr (.bnz true 4 262141) 1 ∧
  decode 0 [0b00100000011000010100001110001001] = .instr (.ffma false 5 7 9) 1 ∧
  decode 0 [0b01001000010000011000010000000011] = .instr (.ld false 2 6 8 3) 1 ∧
  decode 0 [0b01010010000000010100010001111111] = .instr (.st false 0 5 8 127) 1 ∧
  decode 0 [0b01011110000001000010000001001011] = .instr (.radd false 0 2 8 9 3) 1 ∧
  decode 0 [0b01111000001000010000001010000110] = .instr (.gwait false 4 5 6) 1 ∧
  decode 0 [0b01111110001100000000010100000110, 0xFFFFFFFF] = .instr (.addiWide false 5 3 0xFFFFFFFF) 2 ∧
  decode 1 [0b00100111000000001000001010000000] = .instr (.mma false true 2 5) 1 ∧
  decode 2 [0b00100000000000010000001100001000] = .instr (.cpy false false 4 6 8) 1 ∧
  decode 3 [0b00100001000000000000001100000000] = .instr (.coll false true 6) 1 ∧
  decode 4 [0b00100000000000010000000000000000] = .instr (.evpop false 4) 1 ∧
  decode 0 [0b00000011110000000000000000000000] = .bad .unassignedFn ∧ decode 0 [1] = .bad .unusedField ∧
  decode 0 [0b01111110001100000000010100000110] = .bad .literalMissing ∧
  decodeHeader 0b00000001111110000111100010000101 = ⟨0, true, true, 15, 0, 15, 1, 0, 5⟩

/-- R19, R24, R26, R148, R157, R167. That one step runs at a time and takes one cycle is the model's choice (log 5), that a header passes in
none (log 89), that steps which an earlier one has brought about or which cannot wait come before any turn (log 71), that a fetch fills the
TLB (log 7), and the longest that a scheduler is passed over (log 102). -/
def Obligations.StepRunsTheDecodedInstruction : Prop :=
  ∀ s : State,
    let holds : State → Agent → VAddr → Nat → Prop := fun v g va w => ∃ pa leaf, v.memLoc g .fetch va.toNat 4 false = .ok (.mem pa leaf) ∧
      leafFmt leaf ≠ 2 ∧ s.placeOf g.p pa = .mem ∧ s.mem.poisoned pa 4 = false ∧
      w = ofBytes [s.mem.byte pa, s.mem.byte (pa + 1), s.mem.byte (pa + 2), s.mem.byte (pa + 3)]
    let stands : State → Agent → Nat → Bool → VAddr → Nat → Instr → Nat → Nat → Prop := fun v g cls hdr va rem i w lit =>
      (hdr = true ∧ holds v g (va - 4) w ∧ i = .clauseHeader ∧ lit = 0) ∨
      (hdr = false ∧ holds v g va w ∧ w / 2 ^ 25 % 64 ≠ 63 ∧ lit = 0 ∧ ∃ n, decode cls [w] = .instr i n) ∨
      (hdr = false ∧ holds v g va w ∧ w / 2 ^ 25 % 64 = 63 ∧ 2 ≤ rem ∧ holds v g (va + 4) lit ∧ ∃ n, decode cls [w, lit] = .instr i n)
    let k := s.tape.headD (Config.freeTurn s.tick)
    let ts : List Turn := match s.overdue with
      | some t => [t]
      | none => s.turns
    let n := max 1 ts.length
    let s0 : State := { s with tape := s.tape.tail }
    (∀ e r, s.follow = e :: r → step s = exec e.step { s with follow := r, tick := s.tick + 1, issue := .part e.args }) ∧
    (s.follow = [] → ∀ p g w ls word, s.headers = some (p, g, w, ls, word) →
      step s = exec .clauseHeader { s.issuing (s.fetchView p g.id w.wid ls) (.simt p g.id w.wid ls word 0) p (dieOfSlice (sliceOfCore g.core))
          ((if w.trap.hm then w.trap.hcur.next else (w.lane (ls.headD 0)).cur.next) - 4).toNat with tick := s.tick + 1 }) ∧
    (s.follow = [] → s.headers = none → ∀ e, s.forced = some e → step s = exec e.step { s.passCycle with issue := .part e.args }) ∧
    (s.follow = [] → s.headers = none → s.forced = none →
      (∀ e, ts[k % n]? = some (.event e) → step s = exec e.step { s0.passCycle with issue := .part e.args }) ∧
      (∀ p core q c ls i w lit, ts[k % n]? = some (.sched p core q) →
        pickWarp (s.candidates p core q) ((s.coreOf core).last.getD q 0) = some c →
        c.w.pickGroup c.gs (k / n) = some (ls, s.groupNext p c.g c.w ls) →
        let cur := if c.w.trap.hm then c.w.trap.hcur else (c.w.lane (ls.headD 0)).cur
        let s1 := (s0.picked p core q (s.candidates p core q) c ls).passCycle
        stands (s.fetchView p c.g.id c.w.wid ls) ⟨p, dieOfSlice (sliceOfCore c.g.core), privOf c.g c.w, false⟩ 0
          (if c.w.trap.hm then cur.hdr else ls.any fun l => (c.w.lane l).cur.hdr) cur.next cur.rem i w lit →
        step s = exec i (s1.issuing (s1.fetchView p c.g.id c.w.wid ls) (.simt p c.g.id c.w.wid ls w lit) p
          (dieOfSlice (sliceOfCore c.g.core)) cur.next.toNat)) ∧
      (∀ p id q i w lit, ts[k % n]? = some (.seq p id) → (s.work p).seqOf id = some q →
        stands s ⟨p, q.die, q.priv, false⟩ q.cls q.cur.hdr q.cur.next q.cur.rem i w lit →
        step s = exec i (s0.passCycle.issuing s0.passCycle (.seq p q.id w lit) p q.die q.cur.next.toNat)))

/-- The form of memory is the model's own (log 4). -/
def Obligations.StepKeepsMemoryCanonical : Prop := ∀ s t : State, s.Canonical → step s = .next t → t.Canonical

/-- R347, R351, R355, R356, R314, R333. That every address reads 0 is the model's choice (log 4), and so is fabric time 0 (log 11). -/
def Obligations.ResetState : Prop :=
  let s := State.reset
  s.Canonical ∧ (∀ a, byteAt s a = 0) ∧ (∀ p, (s.part p).state = .off ∧ (s.work p).wgs = [] ∧ (s.work p).launches = [] ∧ (s.work p).seqs = []) ∧
    (∀ c, (s.coreOf c).owner = 0 ∧ (s.coreOf c).deque.entries = []) ∧ (∀ n, (s.gate n).v = false) ∧ s.host.elect.owner = 15 ∧
    s.host.elect.pend = 15 ∧ s.boot.state = 0 ∧ s.boot.why = 0 ∧ s.bb.recs = [] ∧ s.bb.count = 0 ∧ s.power.held = 320 ∧ s.power.floor = 0 ∧
    s.power.clock = 2400 ∧ s.fabric.slot = 250 ∧ s.time = 0

/-- R58, R62, R153, R369, R65: the frames of `answer`, `loadAnswer`, `raiseTrap` and `modSeq`. -/
def Obligations.AnswersLeaveTheRestAlone : Prop :=
  (∀ (s : State) (c : Ctx) (f : Nat → List (Nat × Word)), (∀ l ∈ c.lanes, l < 32) →
    let regs : State → (Nat → Nat → Prop) → Prop := fun t own => ∀ p wg wid r l, l < 32 →
      ¬(p = c.p ∧ wg = c.wg ∧ wid = c.wid ∧ own r l) → regAt t p wg wid r l = regAt s p wg wid r l
    let rest : State → Prop := fun t => Spared s t ∧ MasksKept s t ∧ (∀ a, byteAt t a = byteAt s a) ∧ ∀ p, (t.work p).seqs = (s.work p).seqs ∧
      (t.work p).launches = (s.work p).launches ∧ (t.work p).stores = (s.work p).stores ∧ (t.work p).waiters = (s.work p).waiters ∧
      (t.work p).items = (s.work p).items ∧ (t.work p).points = (s.work p).points
    (let t := answer s c f
     rest t ∧ t.bb = s.bb ∧ regs t (fun r l => l ∈ c.lanes ∧ ∃ e ∈ f l, e.1 = r) ∧
      (c.lanes.Nodup → ∀ w, s.warp c.p c.wg c.wid = some w → ∀ l ∈ c.lanes, ((f l).map (·.1)).Nodup → ∀ e ∈ f l,
        regAt t c.p c.wg c.wid e.1 l = some e.2)) ∧
    (∀ d, let g := fun l => ((f l).headD (0, 0)).2
     let t := answerPart s c d g
     rest t ∧ t.bb = s.bb ∧ regs t (fun r l => l ∈ c.lanes ∧ r = d) ∧
      ∀ w, s.warp c.p c.wg c.wid = some w → ∀ l ∈ c.lanes, regAt t c.p c.wg c.wid d l = some (g l)) ∧
    (∀ la, let t := loadAnswer s c la f
     rest t ∧ t.bb = s.bb ∧ regs t (fun _ _ => False)) ∧
    ∀ causes, let t := raiseTrap s c causes
     rest t ∧ regs t (fun _ _ => False)) ∧
  ∀ (s : State) (p id : Nat) (f : Seq → Seq), (∀ q, (f q).id = q.id) →
    let t := s.modSeq p id f
    Spared s t ∧ t.bb = s.bb ∧ (∀ k, k ≠ p → t.work k = s.work k) ∧ { t.work p with seqs := [] } = { s.work p with seqs := [] } ∧
      (∀ j, j ≠ id → (t.work p).seqOf j = (s.work p).seqOf j) ∧ (t.work p).seqOf id = ((s.work p).seqOf id).map f

/-! ## Integer arithmetic -/

/-- R181, R183, R62: two-source integer arithmetic. -/
def Obligations.IntegerArithmeticResults : Prop :=
  ∀ (u : Bool) (d a b : Nat),
    ∀ e ∈ ([(.add u d a b, fun x y => x + y), (.sub u d a b, fun x y => x - y), (.mul u d a b, fun x y => x * y),
        (.mulhs u d a b, fun x y => BitVec.ofInt 32 (x.toInt * y.toInt / 2 ^ 32)),
        (.mulhz u d a b, fun x y => BitVec.ofNat 32 (x.toNat * y.toNat / 2 ^ 32)),
        (.mins u d a b, fun x y => if x.toInt ≤ y.toInt then x else y), (.maxs u d a b, fun x y => if x.toInt ≤ y.toInt then y else x),
        (.minz u d a b, fun x y => if x.toNat ≤ y.toNat then x else y), (.maxz u d a b, fun x y => if x.toNat ≤ y.toNat then y else x),
        (.divs u d a b, fun x y => if y = 0 then 0xFFFFFFFF else BitVec.ofInt 32 (x.toInt.tdiv y.toInt)),
        (.divz u d a b, fun x y => if y = 0 then 0xFFFFFFFF else BitVec.ofNat 32 (x.toNat / y.toNat)),
        (.rems u d a b, fun x y => if y = 0 then x else x - y * BitVec.ofInt 32 (x.toInt.tdiv y.toInt)),
        (.remz u d a b, fun x y => if y = 0 then x else x - y * BitVec.ofNat 32 (x.toNat / y.toNat))] :
        List (Instr × (Word → Word → Word))),
      ∀ (s : State) (c : Ctx) (g : WorkGroup) (w : Warp), Issues s c g w → OperandsOk c w (c.readers u) [(d, 1)] [(a, 1), (b, 1)] →
        exec e.1 s = .next (answer s c fun l => [(d, e.2 (w.reg a (c.readerOf u l)) (w.reg b (c.readerOf u l)))])

/-- R184, R186, R188: two-source logic, shifts, extraction. -/
def Obligations.LogicShiftResults : Prop :=
  ∀ (u : Bool) (d a b : Nat),
    ∀ e ∈ ([(.and u d a b, fun x y => x &&& y), (.or u d a b, fun x y => x ||| y), (.xor u d a b, fun x y => x ^^^ y),
        (.andn u d a b, fun x y => x &&& ~~~y),
        (.shl u d a b, fun x y => if y.toNat ≤ 31 then BitVec.ofNat 32 (x.toNat * 2 ^ y.toNat) else 0),
        (.shr u d a b, fun x y => if y.toNat ≤ 31 then BitVec.ofNat 32 (x.toNat / 2 ^ y.toNat) else 0),
        (.sar u d a b, fun x y => if y.toNat ≤ 31 then BitVec.ofInt 32 (x.toInt / 2 ^ y.toNat) else if x.msb then 0xFFFFFFFF else 0),
        (.rot u d a b, fun x y => x.rotateLeft (y.toNat % 32)),
        (.bfez u d a b, fun x y =>
          let pos := y.toNat % 256
          let wid := min (min (y.toNat / 256 % 256) 32) (32 - pos)
          BitVec.ofNat 32 (x.toNat / 2 ^ pos % 2 ^ wid)),
        (.bfes u d a b, fun x y =>
          let pos := y.toNat % 256
          let wid := min (min (y.toNat / 256 % 256) 32) (32 - pos)
          let f := x.toNat / 2 ^ pos % 2 ^ wid
          if wid = 0 then 0 else BitVec.ofInt 32 (if 2 ^ (wid - 1) ≤ f then (f : Int) - 2 ^ wid else f))] :
        List (Instr × (Word → Word → Word))),
      ∀ (s : State) (c : Ctx) (g : WorkGroup) (w : Warp), Issues s c g w → OperandsOk c w (c.readers u) [(d, 1)] [(a, 1), (b, 1)] →
        exec e.1 s = .next (answer s c fun l => [(d, e.2 (w.reg a (c.readerOf u l)) (w.reg b (c.readerOf u l)))])

/-- R181, R184: one-source integer entries. The relation says when a word is the result. -/
def Obligations.IntegerUnaryResults : Prop :=
  ∀ (u : Bool) (d a : Nat),
    ∀ e ∈ ([(.abs u d a, fun x r => r = if 0 ≤ x.toInt then x else 0 - x), (.neg u d a, fun x r => r = 0 - x),
        (.not u d a, fun x r => r = ~~~x), (.mov u d a, fun x r => r = x),
        (.popc u d a, fun x r => r.toNat = ((List.range 32).filter fun i => x.getLsbD i).length),
        (.clz u d a, fun x r => r.toNat ≤ 32 ∧ (∀ i, i < r.toNat → x.getLsbD (31 - i) = false) ∧
          (r.toNat < 32 → x.getLsbD (31 - r.toNat) = true)),
        (.ffs u d a, fun x r => r.toNat ≤ 32 ∧ (∀ i, i < r.toNat → x.getLsbD i = false) ∧ (r.toNat < 32 → x.getLsbD r.toNat = true)),
        (.brev u d a, fun x r => ∀ i, i < 32 → r.getLsbD i = x.getLsbD (31 - i))] : List (Instr × (Word → Word → Prop))),
      ∀ (s : State) (c : Ctx) (g : WorkGroup) (w : Warp), Issues s c g w → OperandsOk c w (c.readers u) [(d, 1)] [(a, 1)] →
        ∃ r : Word → Word, (∀ x, e.2 x (r x)) ∧ exec e.1 s = .next (answer s c fun l => [(d, r (w.reg a (c.readerOf u l)))])

/-- R185, R189; the sums of R182; MAD of R181. -/
def Obligations.PairAndThirdSourceResults : Prop :=
  (∀ (u : Bool) (d a b : Nat),
    ∀ e ∈ ([(.addc u d a b, fun x y => (x + y) % 2 ^ 64), (.subb u d a b, fun x y => (x + 2 ^ 64 - y) % 2 ^ 64)] :
        List (Instr × (Nat → Nat → Nat))),
      ∀ (s : State) (c : Ctx) (g : WorkGroup) (w : Warp), Issues s c g w → OperandsOk c w (c.readers u) [(d, 2)] [(a, 2), (b, 2)] →
        exec e.1 s = .next (answer s c fun l =>
          let k := c.readerOf u l
          let v := e.2 ((w.reg a k).toNat + 2 ^ 32 * (w.reg (a + 1) k).toNat) ((w.reg b k).toNat + 2 ^ 32 * (w.reg (b + 1) k).toNat)
          [(d, BitVec.ofNat 32 (v % 2 ^ 32)), (d + 1, BitVec.ofNat 32 (v / 2 ^ 32))])) ∧
  ∀ (u : Bool) (d a b : Nat),
    ∀ e ∈ ([(.sel u d a b, fun x y z => if z ≠ 0 then x else y), (.mad u d a b, fun x y z => x * y + z),
        (.bfi u d a b, fun x y z =>
          let pos := y.toNat % 256
          let wid := min (y.toNat / 256 % 256) 32
          if 32 ≤ pos ∨ wid = 0 then z
          else
            let mask := BitVec.ofNat 32 ((2 ^ min wid (32 - pos) - 1) * 2 ^ pos)
            (z &&& ~~~mask) ||| (BitVec.ofNat 32 (x.toNat * 2 ^ pos) &&& mask))] : List (Instr × (Word → Word → Word → Word))),
      ∀ (s : State) (c : Ctx) (g : WorkGroup) (w : Warp), Issues s c g w →
        OperandsOk c w (c.readers u) [(d, 1)] [(d, 1), (a, 1), (b, 1)] →
        exec e.1 s = .next (answer s c fun l =>
          let k := c.readerOf u l
          [(d, e.2 (w.reg a k) (w.reg b k) (w.reg d k))])

/-- R165, R187, R190, R191, R193. -/
def Obligations.ImmediateResults : Prop :=
  let cond : Nat → Word → Word → Prop := fun c x y =>
    (c = 0 ∧ x = y) ∨ (c = 1 ∧ x ≠ y) ∨ (c = 2 ∧ x.toInt < y.toInt) ∨ (c = 3 ∧ x.toInt ≤ y.toInt) ∨ (c = 4 ∧ x.toInt > y.toInt) ∨
      (c = 5 ∧ x.toInt ≥ y.toInt) ∨ (c = 6 ∧ x.toNat < y.toNat) ∨ (c = 7 ∧ x.toNat ≤ y.toNat) ∨ (c = 8 ∧ x.toNat > y.toNat) ∨
      (c = 9 ∧ x.toNat ≥ y.toNat)
  let sx : Nat → Nat → Word := fun n v => if v < 2 ^ (n - 1) then BitVec.ofNat 32 v else BitVec.ofNat 32 (2 ^ 32 - 2 ^ n + v)
  ∀ (u : Bool) (d a i : Nat) (s : State) (c : Ctx) (g : WorkGroup) (w : Warp), Issues s c g w →
    (OperandsOk c w (c.readers u) [(d, 1)] [(a, 1)] →
      (∀ e ∈ ([(.addi u d a i, 2 ^ 11, fun x => x + sx 11 i), (.addiWide u d a i, 2 ^ 32, fun x => x + BitVec.ofNat 32 i),
          (.andi u d a i, 2 ^ 11, fun x => x &&& BitVec.ofNat 32 i), (.andiWide u d a i, 2 ^ 32, fun x => x &&& BitVec.ofNat 32 i),
          (.ori u d a i, 2 ^ 11, fun x => x ||| BitVec.ofNat 32 i), (.oriWide u d a i, 2 ^ 32, fun x => x ||| BitVec.ofNat 32 i),
          (.xori u d a i, 2 ^ 11, fun x => x ^^^ BitVec.ofNat 32 i), (.xoriWide u d a i, 2 ^ 32, fun x => x ^^^ BitVec.ofNat 32 i),
          (.shli u d a i, 32, fun x => BitVec.ofNat 32 (x.toNat * 2 ^ i)), (.shri u d a i, 32, fun x => BitVec.ofNat 32 (x.toNat / 2 ^ i)),
          (.sari u d a i, 32, fun x => BitVec.ofInt 32 (x.toInt / 2 ^ i)), (.roti u d a i, 32, fun x => x.rotateLeft i)] :
          List (Instr × Nat × (Word → Word))),
        i < e.2.1 → exec e.1 s = .next (answer s c fun l => [(d, e.2.2 (w.reg a (c.readerOf u l)))])) ∧
      ∀ k, k ≤ 9 → ∃ t : Word → Word → Word, (∀ x y, (cond k x y → t x y = 1) ∧ (¬cond k x y → t x y = 0)) ∧
        (i < 128 → exec (.cmpi u (6 + k) d a i) s = .next (answer s c fun l => [(d, t (w.reg a (c.readerOf u l)) (sx 7 i))])) ∧
        exec (.cmpiWide u (6 + k) d a i) s =
          .next (answer s c fun l => [(d, t (w.reg a (c.readerOf u l)) (BitVec.ofNat 32 i))]) ∧
        ∀ b, OperandsOk c w (c.readers u) [(d, 1)] [(a, 1), (b, 1)] →
          exec (.cmp u k d a b) s = .next (answer s c fun l => [(d, t (w.reg a (c.readerOf u l)) (w.reg b (c.readerOf u l)))])) ∧
    (32 ≤ i → i ≤ 127 → ∀ e ∈ ([.shli u d a i, .shri u d a i, .sari u d a i, .roti u d a i] : List Instr),
      exec e s = .next (raiseTrap s c [(1, BitVec.ofNat 64 (c.word % 2 ^ 32))]))

/-- R194 to R196. -/
def Obligations.ConstantsAndAddressesWritten : Prop :=
  ∀ (u : Bool) (d i : Nat) (s : State) (c : Ctx) (g : WorkGroup) (w : Warp), Issues s c g w → i < 2 ^ 32 →
    (OperandsOk c w [] [(d, 1)] [] →
      (i < 2 ^ 18 → exec (.movi u d i) s =
          .next (answer s c fun _ => [(d, BitVec.ofInt 32 (if i < 2 ^ 17 then (i : Int) else (i : Int) - 2 ^ 18))]) ∧
        exec (.movhi u d i) s = .next (answer s c fun _ => [(d, BitVec.ofNat 32 (i * 2 ^ 14))])) ∧
      exec (.moviWide u d i) s = .next (answer s c fun _ => [(d, BitVec.ofNat 32 i)]) ∧
      exec (.movhiWide u d i) s = .next (answer s c fun _ => [(d, BitVec.ofNat 32 i)])) ∧
    (OperandsOk c w [] [(d, 2)] [] →
      let put : Int → State := fun off =>
        let v := (((w.pcOf c).toNat : Int) + off) % 2 ^ 64
        answer s c fun _ => [(d, BitVec.ofInt 32 (v % 2 ^ 32)), (d + 1, BitVec.ofInt 32 (v / 2 ^ 32))]
      (i < 2 ^ 18 → exec (.lea u d i) s = .next (put (4 * (if i < 2 ^ 17 then (i : Int) else (i : Int) - 2 ^ 18)))) ∧
      exec (.leaWide u d i) s = .next (put (if i < 2 ^ 31 then (i : Int) else (i : Int) - 2 ^ 32)))

/-! ## Floating point -/

/-- R198 to R201, R205. -/
def Obligations.FloatArithmeticResults : Prop :=
  let rn : FVal → Word := fun v => BitVec.ofNat 32 (Fmt.f32.round v)
  let hv : Word → Nat → FVal := fun x h => Fmt.bf16.value (x.toNat / 2 ^ (16 * h) % 65536)
  let h2 : FVal → FVal → Word := fun lo hi => BitVec.ofNat 32 (Fmt.bf16.round lo + 65536 * Fmt.bf16.round hi)
  ∀ (u : Bool) (d a b : Nat) (s : State) (c : Ctx) (g : WorkGroup) (w : Warp), Issues s c g w →
    (OperandsOk c w (c.readers u) [(d, 1)] [(a, 1), (b, 1)] →
      ∀ e ∈ ([(.fadd u d a b, fun x y => rn ((f32 x).add (f32 y))), (.fsub u d a b, fun x y => rn ((f32 x).add (f32 y).neg)),
          (.fmul u d a b, fun x y => rn ((f32 x).mul (f32 y))),
          -- codes of one sign have the order of their magnitudes
          (.fmin u d a b, fun x y =>
            if (f32 x).isNan ∨ (f32 y).isNan then 0x7FC00000 else if x.msb ≠ y.msb then (if x.msb then x else y)
            else if x.msb then (if y.toNat ≤ x.toNat then x else y) else if x.toNat ≤ y.toNat then x else y),
          (.fmax u d a b, fun x y =>
            if (f32 x).isNan ∨ (f32 y).isNan then 0x7FC00000 else if x.msb ≠ y.msb then (if x.msb then y else x)
            else if x.msb then (if y.toNat ≤ x.toNat then y else x) else if x.toNat ≤ y.toNat then y else x),
          (.fcmp u 0 d a b, fun x y => if (f32 x).eq (f32 y) then 1 else 0),
          (.fcmp u 1 d a b, fun x y => if (f32 x).eq (f32 y) then 0 else 1),
          (.fcmp u 2 d a b, fun x y => if (f32 x).lt (f32 y) then 1 else 0),
          (.fcmp u 3 d a b, fun x y => if (f32 x).lt (f32 y) ∨ (f32 x).eq (f32 y) then 1 else 0),
          (.fcmp u 4 d a b, fun x y => if (f32 y).lt (f32 x) then 1 else 0),
          (.fcmp u 5 d a b, fun x y => if (f32 y).lt (f32 x) ∨ (f32 x).eq (f32 y) then 1 else 0),
          (.fcmp u 6 d a b, fun x y => if (f32 x).isNan ∨ (f32 y).isNan then 1 else 0),
          (.fcmp u 7 d a b, fun x y => if (f32 x).isNan ∨ (f32 y).isNan then 0 else 1),
          (.hadd2 u d a b, fun x y => h2 ((hv x 0).add (hv y 0)) ((hv x 1).add (hv y 1))),
          (.hmul2 u d a b, fun x y => h2 ((hv x 0).mul (hv y 0)) ((hv x 1).mul (hv y 1)))] : List (Instr × (Word → Word → Word))),
        exec e.1 s = .next (answer s c fun l => [(d, e.2 (w.reg a (c.readerOf u l)) (w.reg b (c.readerOf u l)))])) ∧
    (OperandsOk c w (c.readers u) [(d, 1)] [(d, 1), (a, 1), (b, 1)] →
      ∀ e ∈ ([(.ffma u d a b, fun x y z => rn (((f32 x).mul (f32 y)).add (f32 z))),
          (.hfma2 u d a b, fun x y z => h2 (((hv x 0).mul (hv y 0)).add (hv z 0)) (((hv x 1).mul (hv y 1)).add (hv z 1)))] :
          List (Instr × (Word → Word → Word → Word))),
        exec e.1 s = .next (answer s c fun l =>
          let k := c.readerOf u l
          [(d, e.2 (w.reg a k) (w.reg b k) (w.reg d k))])) ∧
    (OperandsOk c w (c.readers u) [(d, 1)] [(a, 1)] →
      ∀ e ∈ ([(.fabs u d a, fun x => x &&& 0x7FFFFFFF), (.fneg u d a, fun x => x ^^^ 0x80000000),
          (.fclass u d a, fun x =>
            let ex := x.toNat / 2 ^ 23 % 256
            let mn := x.toNat % 2 ^ 23
            BitVec.ofNat 32 (2 ^ (if ex = 255 ∧ mn ≠ 0 then (if x.getLsbD 22 then 8 else 9)
              else if ex = 255 then (if x.msb then 0 else 7)
              else if ex ≠ 0 then (if x.msb then 1 else 6)
              else if mn ≠ 0 then (if x.msb then 2 else 5) else (if x.msb then 3 else 4))))] : List (Instr × (Word → Word))),
        exec e.1 s = .next (answer s c fun l => [(d, e.2 (w.reg a (c.readerOf u l)))]))

/-- R203, R204. -/
def Obligations.TranscendentalResults : Prop :=
  let q := (0x7FC00000 : Word)
  let pinf := (0x7F800000 : Word)
  let ninf := (0xFF800000 : Word)
  let num : Int → Word := fun i => toF32 (.ofInt i)
  ∃ rcp rsq sqrt ex lg sin cos tanh : Word → Word,
    (∀ (u : Bool) (d a : Nat) (s : State) (c : Ctx) (g : WorkGroup) (w : Warp), Issues s c g w →
      OperandsOk c w (c.readers u) [(d, 1)] [(a, 1)] →
      ∀ e ∈ ([(.frcp u d a, rcp), (.frsq u d a, rsq), (.fsqrt u d a, sqrt), (.fexp2 u d a, ex), (.flog2 u d a, lg), (.fsin u d a, sin),
          (.fcos u d a, cos), (.ftanh u d a, tanh)] : List (Instr × (Word → Word))),
        exec e.1 s = .next (answer s c fun l => [(d, e.2 (w.reg a (c.readerOf u l)))])) ∧
    (∀ f ∈ [rcp, rsq, sqrt, ex, lg, sin, cos, tanh], ∀ x, (f32 x).isNan → f x = q) ∧
    (rcp 0 = pinf ∧ rcp 0x80000000 = ninf ∧ rcp pinf = 0 ∧ rcp ninf = 0x80000000) ∧
    (rsq 0 = pinf ∧ rsq 0x80000000 = ninf ∧ rsq pinf = 0 ∧ ∀ x, (f32 x).lt (.ofInt 0) → rsq x = q) ∧
    (sqrt 0x80000000 = 0x80000000 ∧ sqrt pinf = pinf ∧ ∀ x, (f32 x).lt (.ofInt 0) → sqrt x = q) ∧
    (ex 0 = num 1 ∧ ex 0x80000000 = num 1 ∧ ex ninf = 0 ∧ ex pinf = pinf ∧
      (∀ i : Int, -149 ≤ i → i ≤ 127 → ex (num i) = toF32 (.fin false 1 i)) ∧
      (∀ x, (f32 x).isNan = false → (f32 x).lt (.ofInt 128) = false → ex x = pinf) ∧ ∀ x, (f32 x).lt (.ofInt (-150)) → ex x = 0) ∧
    (lg 0 = ninf ∧ lg 0x80000000 = ninf ∧ lg pinf = pinf ∧ lg (num 1) = 0 ∧ (∀ x, (f32 x).lt (.ofInt 0) → lg x = q) ∧
      ∀ i : Int, -149 ≤ i → i ≤ 127 → lg (toF32 (.fin false 1 i)) = num i) ∧
    (sin 0 = 0 ∧ sin 0x80000000 = 0x80000000 ∧ sin pinf = q ∧ sin ninf = q) ∧
    (cos 0 = num 1 ∧ cos 0x80000000 = num 1 ∧ cos pinf = q ∧ cos ninf = q) ∧
    (tanh 0 = 0 ∧ tanh 0x80000000 = 0x80000000 ∧ (∀ x, (f32 x).isNan = false → (f32 x).lt (.ofInt 9) = false → tanh x = num 1) ∧
      ∀ x, (f32 x).isNan = false → (FVal.ofInt (-9)).lt (f32 x) = false → tanh x = num (-1)) ∧
    ∀ f ∈ [sin, cos, tanh], ∀ x, f x = q ∨ ((f32 (f x)).isNan = false ∧ (f32 (f x)).lt (.ofInt (-1)) = false ∧
      (FVal.ofInt 1).lt (f32 (f x)) = false)

/-- R206 to R209, R60. -/
def Obligations.ConversionResults : Prop :=
  let rn : FVal → Word := fun v => BitVec.ofNat 32 (Fmt.f32.round v)
  let low : Word → Nat → Word := fun z v => BitVec.ofNat 32 (z.toNat / 65536 * 65536 + v % 65536)
  let high : Word → Nat → Word := fun z v => BitVec.ofNat 32 (z.toNat % 65536 + 65536 * (v % 65536))
  let clamp : Int → Int → Int → Word := fun lo hi v => BitVec.ofInt 32 (if v < lo then lo else if hi < v then hi else v)
  ∀ (u : Bool) (d a b : Nat) (s : State) (c : Ctx) (g : WorkGroup) (w : Warp), Issues s c g w →
    (OperandsOk c w (c.readers u) [(d, 1)] [(a, 1)] →
      ∀ e ∈ ([(.cvtBf16F32Lo u d a, Fmt.bf16, low), (.cvtBf16F32Hi u d a, Fmt.bf16, high), (.cvtF16F32Lo u d a, Fmt.f16, low),
          (.cvtF16F32Hi u d a, Fmt.f16, high)] : List (Instr × Fmt × (Word → Nat → Word))),
        exec e.1 s = .next (answerPart s c d fun l => e.2.2 (w.reg d l) (e.2.1.round (f32 (w.reg a (c.readerOf u l)))))) ∧
    (OperandsOk c w (c.readers u) [(d, 1)] [(a, 1), (b, 1)] →
      ∀ e ∈ ([(.cvtE4m3x2F32Lo u d a b, Fmt.e4m3, low), (.cvtE4m3x2F32Hi u d a b, Fmt.e4m3, high), (.cvtE5m2x2F32Lo u d a b, Fmt.e5m2, low),
          (.cvtE5m2x2F32Hi u d a b, Fmt.e5m2, high)] : List (Instr × Fmt × (Word → Nat → Word))),
        exec e.1 s = .next (answerPart s c d fun l =>
          let k := c.readerOf u l
          e.2.2 (w.reg d l) (e.2.1.roundSat (f32 (w.reg a k)) + 256 * e.2.1.roundSat (f32 (w.reg b k))))) ∧
    (OperandsOk c w (c.readers u) [(d, 1)] [(a, 1)] →
      (∀ n, ∀ e ∈ ([(.cvtF32Bf16 u d a n, Fmt.bf16, 16), (.cvtF32F16 u d a n, Fmt.f16, 16), (.cvtF32E4m3 u d a n, Fmt.e4m3, 8),
          (.cvtF32E5m2 u d a n, Fmt.e5m2, 8)] : List (Instr × Fmt × Nat)),
        (n < 32 / e.2.2 → exec e.1 s = .next (answer s c fun l =>
          [(d, rn (e.2.1.value ((w.reg a (c.readerOf u l)).toNat / 2 ^ (n * e.2.2) % 2 ^ e.2.2)))])) ∧
        (32 / e.2.2 ≤ n → exec e.1 s = .next (raiseTrap s c [(1, BitVec.ofNat 64 (c.word % 2 ^ 32))]))) ∧
      (∀ rm, rm < 4 → exec (.cvtS32F32 u rm d a) s = .next (answer s c fun l =>
          [(d, BitVec.ofInt 32 (toIntSat rm (-(2 ^ 31)) (2 ^ 31 - 1) (f32 (w.reg a (c.readerOf u l)))))]) ∧
        exec (.cvtZ32F32 u rm d a) s = .next (answer s c fun l =>
          [(d, BitVec.ofInt 32 (toIntSat rm 0 (2 ^ 32 - 1) (f32 (w.reg a (c.readerOf u l)))))])) ∧
      ∀ e ∈ ([(.cvtF32S32 u d a, fun x => rn (.ofInt x.toInt)), (.cvtF32Z32 u d a, fun x => rn (.ofInt x.toNat)),
          (.cvtS8S32Sat u d a, fun x => clamp (-128) 127 x.toInt), (.cvtS16S32Sat u d a, fun x => clamp (-32768) 32767 x.toInt),
          (.cvtZ8S32Sat u d a, fun x => clamp 0 255 x.toInt), (.cvtZ16S32Sat u d a, fun x => clamp 0 65535 x.toInt),
          (.cvtZ8Z32Sat u d a, fun x => clamp 0 255 x.toNat), (.cvtZ16Z32Sat u d a, fun x => clamp 0 65535 x.toNat)] :
          List (Instr × (Word → Word))),
        exec e.1 s = .next (answer s c fun l => [(d, e.2 (w.reg a (c.readerOf u l)))])) ∧
    (OperandsOk c w (c.readers u) [(d, 1)] [(a, 2)] →
      ∀ e ∈ ([(.cvtF32S64 u d a, fun x => rn (.ofInt x.toInt)), (.cvtF32Z64 u d a, fun x => rn (.ofInt x.toNat)),
          (.cvtS32S64Sat u d a, fun x => clamp (-(2 ^ 31)) (2 ^ 31 - 1) x.toInt), (.cvtZ32Z64Sat u d a, fun x => clamp 0 (2 ^ 32 - 1) x.toNat)] :
          List (Instr × (DWord → Word))),
        exec e.1 s = .next (answer s c fun l =>
          let k := c.readerOf u l
          [(d, e.2 (w.reg (a + 1) k ++ w.reg a k))])) ∧
    (OperandsOk c w (c.readers u) [(d, 2)] [(a, 1)] →
      ∀ e ∈ ([(.cvtS64F32Rz u d a, fun x => BitVec.ofInt 64 (toIntSat 1 (-(2 ^ 63)) (2 ^ 63 - 1) (f32 x))),
          (.cvtZ64F32Rz u d a, fun x => BitVec.ofInt 64 (toIntSat 1 0 (2 ^ 64 - 1) (f32 x))), (.cvtS64S32 u d a, fun x => BitVec.ofInt 64 x.toInt),
          (.cvtZ64Z32 u d a, fun x => BitVec.ofNat 64 x.toNat)] : List (Instr × (Word → DWord))),
        exec e.1 s = .next (answer s c fun l =>
          let v := (e.2 (w.reg a (c.readerOf u l))).toNat
          [(d, BitVec.ofNat 32 v), (d + 1, BitVec.ofNat 32 (v / 2 ^ 32))]))

/-! ## Lane exchange and tagged blocks -/

/-- R210 to R215. A mask is said by its bits, the scan by its recurrence; FN is 4 + op of WRED, 10 + op of WSCAN. -/
def Obligations.LaneExchangeAndReductionResults : Prop :=
  (∀ (d a b n : Nat) (s : State) (c : Ctx) (g : WorkGroup) (w : Warp), Issues s c g w →
      (c.word / 2 ^ 31 % 2 = 0 →
        (OperandsOk c w c.lanes [(d, 1)] [(a, 1), (b, 1)] →
          exec (.shfl d a b) s = .next (answer s c fun l =>
            let k := (w.reg b l).toNat % 32
            [(d, w.reg a (if k ∈ c.lanes then k else l))])) ∧
        (OperandsOk c w c.lanes [(d, 1)] [(a, 1)] →
          (n ≤ 31 → exec (.bcast d a n) s = .next (answer s c fun _ => [(d, w.reg a (if n ∈ c.lanes then n else c.l0))])) ∧
          (∃ m : Nat → Word, (∀ l, l ∈ c.lanes → ∀ k, k < 32 → ((m l).getLsbD k = true ↔ k ∈ c.lanes ∧ w.reg a k = w.reg a l)) ∧
            exec (.matchLanes d a) s = .next (answer s c fun l => [(d, m l)])) ∧
          ∃ p q : Word, (∀ k, k < 32 → (p.getLsbD k = true ↔ k ∈ c.lanes ∧ w.reg a k ≠ 0) ∧ (q.getLsbD k = true ↔ k ∈ c.lanes)) ∧
            exec (.vote d a 0) s = .next (answer s c fun _ => [(d, p)]) ∧
            exec (.vote d a 1) s = .next (answer s c fun _ => [(d, if p ≠ 0 then 1 else 0)]) ∧
            exec (.vote d a 2) s = .next (answer s c fun _ => [(d, if p = q then 1 else 0)])) ∧
        (OperandsOk c w c.lanes [(d, 1)] [] →
          ∃ q : Word, (∀ k, k < 32 → (q.getLsbD k = true ↔ k ∈ c.lanes)) ∧ exec (.vote d 0 3) s = .next (answer s c fun _ => [(d, q)])) ∧
        (31 < n → exec (.bcast d a n) s = .next (raiseTrap s c [(1, BitVec.ofNat 64 (c.word % 2 ^ 32))])) ∧
        (3 < n → exec (.vote d a n) s = .next (raiseTrap s c [(1, BitVec.ofNat 64 (c.word % 2 ^ 32))]))) ∧
      (c.word / 2 ^ 31 % 2 = 1 → ∀ e ∈ ([.shfl d a b, .bcast d a n, .vote d a n, .matchLanes d a, .wred n d a, .wscan n d a b] : List Instr),
        exec e s = .next (raiseTrap s c [(0, BitVec.ofNat 64 (c.word % 2 ^ 32))]))) ∧
  (let ops : List (Nat × (Word → Word → Word)) :=
      [(0, fun x y => x + y), (1, fadd), (2, fun x y => if x.toInt ≤ y.toInt then x else y), (3, fun x y => if x.toInt ≤ y.toInt then y else x),
        (4, fun x y => if x.toNat ≤ y.toNat then x else y), (5, fun x y => if x.toNat ≤ y.toNat then y else x)]
    ∀ (d a b : Nat) (s : State) (c : Ctx) (g : WorkGroup) (w : Warp), Issues s c g w → c.word / 2 ^ 31 % 2 = 0 → c.lanes ≠ [] →
      c.lanes.Pairwise (· < ·) →
      (OperandsOk c w c.lanes [(d, 1)] [(a, 1)] → ∀ o ∈ ops,
        exec (.wred (4 + o.1) d a) s = .next (answer s c fun _ =>
          [(d, if o.1 = 1 then
              let t0 : Nat → Word := fun i => if i ∈ c.lanes then w.reg a i else 0x80000000
              let t1 : Nat → Word := fun i => fadd (t0 i) (t0 (i + 1))
              let t2 : Nat → Word := fun i => fadd (t1 i) (t1 (i + 2))
              let t4 : Nat → Word := fun i => fadd (t2 i) (t2 (i + 4))
              let t8 : Nat → Word := fun i => fadd (t4 i) (t4 (i + 8))
              fadd (t8 0) (t8 16)
            else (c.lanes.tail.map (w.reg a)).foldl o.2 (w.reg a c.l0))])) ∧
      (OperandsOk c w c.lanes [(d, 1)] [(a, 1), (b, 1)] → ∀ o ∈ ops, ∃ v : Nat → Word,
        v c.l0 = w.reg a c.l0 ∧
        (∀ i, i + 1 < c.lanes.length →
          let l := c.lanes.getD (i + 1) 0
          v l = if w.reg b l ≠ 0 then w.reg a l else o.2 (v (c.lanes.getD i 0)) (w.reg a l)) ∧
        exec (.wscan (10 + o.1) d a b) s = .next (answer s c fun l => [(d, v l)])))

/-- R216, R217; `quantiseBlock` is R122 and `decodeBlock` R84. That a lane whose thread has exited reads +0 is the
    model's choice (log 101). -/
def Obligations.TaggedBlockResults : Prop :=
  ∀ (u : Bool) (d a : Nat) (s : State) (c : Ctx) (g : WorkGroup) (w : Warp), Issues s c g w →
    let value : Nat → Nat → Word := fun r l => if l ∈ w.live then w.reg r l else 0
    let ready : List Nat → Prop := fun rs => ∀ l ∈ w.live, ∀ r ∈ (w.lane l).results, ∀ v ∈ r.vals, v.1 ∉ rs
    (OperandsOk c w w.live [(d, 1)] [(a, 2)] → ready [a, a + 1] →
      ∀ e ∈ ([(0, 0x14), (1, 0x16), (2, 0x26), (3, 0x42), (4, 0x43), (5, 0x44), (6, 0x45), (7, 0x46), (8, 0x47)] : List (Nat × Nat)),
        ∃ block, quantiseBlock e.2 ((List.range 64).map fun j => f32 (value (a + j / 32) (j % 32))) = some block ∧
          exec (.qnt u e.1 d a) s = .next (answer s c fun l => [(d, BitVec.ofNat 32 (block / 2 ^ (32 * (l % 16))))])) ∧
    (OperandsOk c w (w.live.filter (· < 16)) [(d, 2)] [(a, 1)] → ready [a] →
      exec (.dqnt u d a) s =
        match decodeBlock (streamOf 32 ((List.range 16).map fun k => (value a k).toNat)) with
        | some y => .next (answer s c fun l => [(d, toF32 (y.elems.getD l .nan)), (d + 1, toF32 (y.elems.getD (32 + l) .nan))])
        | none => .next (raiseTrap s c [(23, BitVec.ofNat 64 (2 ^ 63 + c.word % 2 ^ 32))]))

/-! ## Control, masks, special values -/

/-- R166 to R170, R148, R372. The second half says what `transfer` does, which the first half names. -/
def Obligations.TransfersComplete : Prop :=
  (∀ (u : Bool) (d a o : Nat) (s : State) (c : Ctx) (g : WorkGroup) (w : Warp), Issues s c g w →
      let here : Int := (w.pcOf c).toNat
      let to_ : Int → VAddr := fun off => BitVec.ofInt 56 (here + off)
      let one := u || w.trap.hm
      let links : State := writeLanes s c (c.lanes.map fun l =>
        (l, pairOf d (BitVec.ofNat 64 (((w.pcOf c).toNat + 4 * c.size) % 2 ^ 56))))
      let word := BitVec.ofNat 64 (c.word % 2 ^ 32)
      (o < 2 ^ 25 → exec (.bra u o) s =
        .next (transfer s c w (c.lanes.map fun l => (l, to_ (4 * (if o < 2 ^ 24 then (o : Int) else (o : Int) - 2 ^ 25)))))) ∧
      (o < 2 ^ 18 → OperandsOk c w (c.readers one) [] [(a, 1)] →
        let t := to_ (4 * (if o < 2 ^ 17 then (o : Int) else (o : Int) - 2 ^ 18))
        exec (.bz u a o) s = .next (transfer s c w ((c.lanes.filter fun l => w.reg a (c.readerOf one l) = 0).map fun l => (l, t))) ∧
        exec (.bnz u a o) s = .next (transfer s c w ((c.lanes.filter fun l => w.reg a (c.readerOf one l) ≠ 0).map fun l => (l, t)))) ∧
      (o < 2 ^ 32 → o % 4 = 0 → w.remOf c = 2 → OperandsOk c w [] [(d, 2)] [] →
        exec (.call u d o) s =
          .next (transfer links c w (c.lanes.map fun l => (l, to_ (if o < 2 ^ 31 then (o : Int) else (o : Int) - 2 ^ 32))))) ∧
      (w.remOf c ≠ 2 → exec (.call u d o) s = .next (raiseTrap s c [(0, word)])) ∧
      (w.remOf c ≠ 1 → exec (.callr u d a) s = .next (raiseTrap s c [(0, word)])) ∧
      (∀ e ∈ ([(.callr u d a, [d], links), (.ret u a, [], s), (.jmpr u a, [], s)] : List (Instr × List Nat × State)),
        (e.2.1 = [] ∨ w.remOf c = 1) → OperandsOk c w (c.readers one) (e.2.1.map fun d => (d, 2)) [(a, 2)] →
        let target : Nat → Nat := fun l => (w.pair a (c.readerOf one l)).toNat
        ((∀ l ∈ c.lanes, target l < 2 ^ 56 ∧ target l % 4 = 0) → c.lanes ≠ [] →
          exec e.1 s = .next (transfer e.2.2 c w (c.lanes.map fun l => (l, BitVec.ofNat 56 (target l))))) ∧
        ((∃ l ∈ c.lanes, 2 ^ 56 ≤ target l) → ∃ l ∈ c.lanes, 2 ^ 56 ≤ target l ∧
          exec e.1 s = .next (raiseTrap s c [(17, BitVec.ofNat 64 (target l))])) ∧
        ((∀ l ∈ c.lanes, target l < 2 ^ 56) → (∃ l ∈ c.lanes, target l % 4 ≠ 0) → exec e.1 s = .next (raiseTrap s c [(1, word)])))) ∧
  (∀ (s : State) (c : Ctx) (g : WorkGroup) (w : Warp) (ts : List (Nat × VAddr)), Issues s c g w →
      (ts.map (·.1)).Nodup → (∀ e ∈ ts, e.1 ∈ c.lanes) → (∀ l ∈ c.lanes, l < w.lanes.length) → (∀ x ∈ w.lanes, x.waitAt = none) →
      ∃ v, (transfer s c w ts).warp c.p c.wg c.wid = some v ∧ v.masks = w.masks ∧ (∀ r l, v.reg r l = w.reg r l) ∧
        if w.trap.hm then
          (∀ l, (v.lane l).cur = (w.lane l).cur) ∧ v.trap.hcur = (match ts with
            | [] => w.trap.hcur.past c.size
            | e :: _ => Cursor.at e.2)
        else
          (∀ e ∈ ts, (v.lane e.1).cur = Cursor.at e.2) ∧
          (∀ l ∈ c.lanes, l ∉ ts.map (·.1) → (v.lane l).cur = (w.lane l).cur.past c.size) ∧
          ∀ l, l ∉ c.lanes → (v.lane l).cur = (w.lane l).cur)

/-- R173 to R176, R61. -/
def Obligations.PlainControlCompletes : Prop :=
  ∀ (u : Bool) (d sel : Nat) (s : State) (c : Ctx) (g : WorkGroup) (w : Warp), Issues s c g w →
    exec .nop s = .next (retire s c) ∧
    exec .yield s = .next ((retire s c).modWarp c.p c.wg c.wid fun w => { w with turnEnd := true }) ∧
    (∀ x, (s.work c.p).launch g.seq = some x →
      let b := s.phaseBudget c.p g.core x (w.pcOf c)
      exec .phase s = .next (retire (s.modWarp c.p c.wg c.wid fun w => { w with phase := ⟨0, b.getD 0, b.isSome⟩ }) c) ∧
        (x.rcd.phbudget = 0 → b = none)) ∧
    (c.lit < 2 ^ 32 → c.lit % 4 = 0 → exec .meet s = .next (retire (s.modWarp c.p c.wg c.wid fun v => v.modLanes c.lanes fun x =>
      { x with mr := BitVec.ofInt 56 (((w.pcOf c).toNat : Int) + (if c.lit < 2 ^ 31 then (c.lit : Int) else (c.lit : Int) - 2 ^ 32)) }) c)) ∧
    (sel ≤ 5 ∨ 8 ≤ sel ∧ sel ≤ 15 → OperandsOk c w [] [(d, 1)] [] →
      exec (.srd u d sel) s = .next (answer s c fun l =>
        let k := c.readerOf u l
        [(d, BitVec.ofNat 32 (if sel = 0 then 32 * (w.wid % 32) + k else if sel = 1 then k else if sel = 2 then w.wid % 32
          else if sel = 3 then g.core % 32 else if sel = 4 then g.core / 64 else if sel = 5 then (w.lane k).relcnt
          else if g.cont ∧ sel ≠ 8 then 0 else (w.lane k).lix.getD (sel - 8) 0))])) ∧
    (¬(sel ≤ 5 ∨ 8 ≤ sel ∧ sel ≤ 15) → exec (.srd u d sel) s = .next (raiseTrap s c [(0, BitVec.ofNat 64 (c.word % 2 ^ 32))]))

/-- R178, R179. The mask written is said by its bits. -/
def Obligations.MaskReadAndWrite : Prop :=
  ∀ (u : Bool) (d a m : Nat) (s : State) (c : Ctx) (g : WorkGroup) (w : Warp), Issues s c g w → m ≤ 11 →
    (OperandsOk c w [] [(d, 1)] [] → exec (.mskrd u d m) s = .next (answer s c fun _ => [(d, w.mask m)])) ∧
    (OperandsOk c w [c.l0] [] [(a, 1)] → ∃ v : Word,
      (∀ i, i < 32 → (v.getLsbD i = true ↔ (w.reg a c.l0).getLsbD i = true ∧ i < w.lanes.length ∧ (w.lane i).status = .running)) ∧
      exec (.mskwr u a m) s = .next (retire (s.modWarp c.p c.wg c.wid fun x => x.setMask m v) c))

/-- R21, R22, R177. The masks written are said by their bits. -/
def Obligations.MaskMembershipAndWaiting : Prop :=
  ∀ (u : Bool) (d a m : Nat) (s : State) (c : Ctx) (g : WorkGroup) (w : Warp), Issues s c g w →
    let word := BitVec.ofNat 64 (c.word % 2 ^ 32)
    (m ≤ 11 → ∃ j v : Word,
      (∀ i, i < 32 → (j.getLsbD i = true ↔ (w.mask m).getLsbD i = true ∨ i ∈ c.lanes) ∧
        (v.getLsbD i = true ↔ (w.mask m).getLsbD i = true ∧ i ∉ c.lanes)) ∧
      exec (.joinm u m) s = .next (retire (s.modWarp c.p c.wg c.wid fun x => x.setMask m j) c) ∧
      exec (.leavem u m) s = .next (retire (s.modWarp c.p c.wg c.wid fun x => x.setMask m v) c)) ∧
    (m ≤ 11 → w.trap.hm = false →
      let held := c.lanes.filter fun l => (w.mask m).getLsbD l && (w.lane l).cur.stands (w.lane l).mr
      exec (.waitm u m) s = .next (retireTo
        (s.modWarp c.p c.wg c.wid fun v => v.modLanes held fun x => { x with hold := .waitm m x.mr }) c
        (c.lanes.filter fun l => l ∉ held))) ∧
    (w.trap.hm = true → exec (.waitm u m) s = .next (raiseTrap s c [(0, word)])) ∧
    (11 < m → w.trap.hm = false → ∀ e ∈ ([.joinm u m, .leavem u m, .waitm u m, .mskrd u d m, .mskwr u a m] : List Instr),
      exec e s = .next (raiseTrap s c [(1, word)]))

/-! ## Loads, stores, atomics -/

/-- R219, R221, R223, R225, R153. Rows: instruction, bytes, sign, acquire, byte offset. How long an overwritten byte is kept is the model's
choice (log 84). -/
def Obligations.LoadsComplete : Prop :=
  ∀ (u : Bool) (l d a o : Nat) (s : State) (c : Ctx) (g : WorkGroup) (w : Warp), Issues s c g w → w.loadCount < 63 → o < 128 →
    let off : Int := if o < 64 then (o : Int) else (o : Int) - 128
    ∀ e ∈ ([(.ldS8 u l d a o, 1, true, false, off), (.ldZ8 u l d a o, 1, false, false, off), (.ldS16 u l d a o, 2, true, false, off * 2),
        (.ldZ16 u l d a o, 2, false, false, off * 2), (.ld u l d a o, 4, false, false, off * 4), (.ld64 u l d a o, 8, false, false, off * 8),
        (.ld128 u l d a o, 16, false, false, off * 16), (.lda u l a d o, 4, false, true, (o : Int) * 4),
        (.lda64 u l a d o, 8, false, true, (o : Int) * 8)] : List (Instr × Nat × Bool × Bool × Int)),
      let n := e.2.1
      let acc : Nat → Acc := fun k =>
        ⟨k, ((((w.reg a k).toNat + 2 ^ 32 * (w.reg (a + 1) k).toNat : Int) + e.2.2.2.2) % 2 ^ 64).toNat, n, .read, e.2.2.2.1⟩
      let as := (c.readers u).map acc
      let s1 := s.fillAll c g as
      OperandsOk c w (c.readers u) [(d, if n < 4 then 1 else n / 4)] [(a, 2)] →
      let value : (Nat → Byte) → List (Nat × Word) := fun byte =>
        let num : Nat → Nat → Nat := fun i m => ofBytes ((List.range m).map fun j => byte (i + j))
        if n < 4 then [(d, BitVec.ofInt 32 (if e.2.2.1 ∧ 2 ^ (8 * n - 1) ≤ num 0 n then (num 0 n : Int) - 2 ^ (8 * n) else num 0 n))]
        else (List.range (n / 4)).map fun j => (d + j, BitVec.ofNat 32 (num (4 * j) 4))
      ((∀ x ∈ as, s.accCheck c g w x = none) → (∀ x ∈ as, LandsPlain s1 c g w x) →
        (∀ y ∈ (s1.work c.p).stores, y.red.isSome → y.wg ≠ c.wg) →
        ∃ (late : List Late) (b : Nat → Nat → Byte),
          let t : State := { s1 with late := late }
          exec e.1 s = .next (loadAnswer t c l fun lane =>
            let k := c.readerOf u lane
            value fun i => overlay ((s1.work c.p).ownStores c.wg c.wid k false) ((s1.landing c g w (acc k)).1 + i) (b k i)) ∧
          late.map (fun y => { y with seen := [] }) = s1.late.map (fun y => { y with seen := [] }) ∧
          (e.2.2.2.1 = true → c.lanes ≠ [] → ∀ y ∈ late, 0 ∈ y.paths → c.p ∈ y.parts → g.core ∈ y.seen) ∧
          ∀ k ∈ c.readers u, ∀ i, i < n →
            let at_ := s1.landing c g w (acc k)
            let pa := at_.1 + i
            b k i = s1.mem.byte pa ∨
              (e.2.2.2.1 = false ∧ ∃ y ∈ s1.late, y.spad = false ∧ y.unit = pa / 8 ∧ g.core ∉ y.seen ∧ (c.wg, c.wid, k) ∉ y.writers ∧
                (y.l1 = true → c.p ∈ y.parts → leafCl at_.2 = 0 ∧ leafGw at_.2 = false) ∧ b k i = y.old.getD (pa % 8) 0)) ∧
      (∀ s2 vs, (∀ x ∈ as, s.accCheck c g w x = none) → loadAll (fun t x => t.loadAcc c g w x) s1 as = (s2, .ok vs) →
        exec e.1 s = .next (giveResults s2 c l ((spread c u vs).map fun v => (v.1, value fun i => v.2.getD i 0)))) ∧
      ((∃ x ∈ as, s.accCheck c g w x ≠ none) → exec e.1 s = .next (raiseTrap s1 c (as.filterMap (s.accCheck c g w))))

/-- R219, R221, R223, R225, R101. Rows: instruction, bytes, byte offset. -/
def Obligations.StoresComplete : Prop :=
  ∀ (u : Bool) (l d a o : Nat) (s : State) (c : Ctx) (g : WorkGroup) (w : Warp), Issues s c g w →
    (s.work c.p).storeCount c.wg c.wid < 63 → o < 128 →
    let off : Int := if o < 64 then (o : Int) else (o : Int) - 128
    let data : Nat → Nat → List Byte := fun n k => (List.range n).map fun i => BitVec.ofNat 8 ((w.reg (d + i / 4) k).toNat / 256 ^ (i % 4))
    let acc : Nat → Bool → Int → Nat → Acc := fun n sync off k =>
      ⟨k, ((((w.reg a k).toNat + 2 ^ 32 * (w.reg (a + 1) k).toNat : Int) + off) % 2 ^ 64).toNat, n, .write, sync⟩
    (∀ e ∈ ([(.st8 u l d a o, 1, off), (.st16 u l d a o, 2, off * 2), (.st u l d a o, 4, off * 4), (.st64 u l d a o, 8, off * 8),
        (.st128 u l d a o, 16, off * 16)] : List (Instr × Nat × Int)),
      let n := e.2.1
      let as := (c.readers u).map (acc n false e.2.2)
      let s1 := s.fillAll c g as
      OperandsOk c w (c.readers u) [] [(d, if n < 4 then 1 else n / 4), (a, 2)] →
      ((∀ x ∈ as, s.accCheck c g w x = none) → (∀ x ∈ as, LandsPlain s1 c g w x) →
        exec e.1 s = .next (retire ((c.readers u).foldl (fun t k =>
          let bs := located (s1.landing c g w (acc n false e.2.2 k)).1 (data n k)
          (if n = 16 then [bs.take 8, bs.drop 8] else [bs]).foldl (fun t' unit =>
            t'.addStore c ⟨s.ids, 0, c.wg, c.wid, k, privOf g w, false, false, unit, none, w.trap.hm⟩) t) s1).fresh c)) ∧
      (∀ s2, (∀ x ∈ as, s.accCheck c g w x = none) → storeAll (fun t x => t.storeAcc c g w x (data n x.lane)) s1 as = (s2, none) →
        exec e.1 s = .next (retire s2.fresh c)) ∧
      ((∃ x ∈ as, s.accCheck c g w x ≠ none) → exec e.1 s = .next (raiseTrap s1 c (as.filterMap (s.accCheck c g w))))) ∧
    ∀ e ∈ ([(.stl u l a d o, 4, (o : Int) * 4), (.stl64 u l a d o, 8, (o : Int) * 8)] : List (Instr × Nat × Int)),
      let n := e.2.1
      let as := (c.readers u).map (acc n true e.2.2)
      let s1 := s.fillAll c g as
      OperandsOk c w (c.readers u) [] [(d, n / 4), (a, 2)] → (∀ x ∈ as, s.accCheck c g w x = none) →
      ((∃ k ∈ c.readers u, s1.laneOpen c.p c.wg c.wid k = true) → exec e.1 s = .next (stall s1 c)) ∧
      ((∀ k ∈ c.readers u, s1.laneOpen c.p c.wg c.wid k = false) →
      (∀ k, c.readers u = [k] →
        let at_ := s1.landing c g w (acc n true e.2.2 k)
        leafFmt at_.2 ≠ 2 →
          exec e.1 s = .next (retire ((s1.drainLane c.p c.wg c.wid k).writeAt c.p [(c.wg, c.wid, k)] (privOf g w) at_.1 (data n k)).fresh c)) ∧
      ∀ s2, storeAll (fun t x => t.storeAcc c g w x (data n x.lane)) s1 as = (s2, none) → exec e.1 s = .next (retire s2.fresh c))

/-- R228 to R230, R102, R103, R221. Rows: instruction, registers read besides the address, the new word if any is written. That RADD into a
register is made at once, and that a run counts the reduction as ticket × 32 + lane, is the model's choice (log 8). -/
def Obligations.AtomicsAndReductionsComplete : Prop :=
  ∀ (u : Bool) (l d a b x : Nat) (s : State) (c : Ctx) (g : WorkGroup) (w : Warp), Issues s c g w →
    let smin : Word → Word → Word := fun x y => if x.toInt ≤ y.toInt then x else y
    let smax : Word → Word → Word := fun x y => if x.toInt ≤ y.toInt then y else x
    let zmin : Word → Word → Word := fun x y => if x.toNat ≤ y.toNat then x else y
    let zmax : Word → Word → Word := fun x y => if x.toNat ≤ y.toNat then y else x
    let put : State → Nat → Word → State := fun t pa v =>
      { t with mem := t.mem.write pa [BitVec.ofNat 8 v.toNat, BitVec.ofNat 8 (v.toNat / 2 ^ 8), BitVec.ofNat 8 (v.toNat / 2 ^ 16),
          BitVec.ofNat 8 (v.toNat / 2 ^ 24)] }
    let old : State → Nat → Word := fun t pa => BitVec.ofNat 32 (ofBytes [t.mem.byte pa, t.mem.byte (pa + 1), t.mem.byte (pa + 2),
      t.mem.byte (pa + 3)])
    (w.loadCount < 63 →
      ∀ e ∈ ([(.atomAdd u l d a b, 1, fun k o => some (o + w.reg b k)), (.atomF32 u l d a b, 1, fun k o => some (fadd o (w.reg b k))),
          (.atomMins u l d a b, 1, fun k o => some (smin o (w.reg b k))), (.atomMaxs u l d a b, 1, fun k o => some (smax o (w.reg b k))),
          (.atomMinz u l d a b, 1, fun k o => some (zmin o (w.reg b k))), (.atomMaxz u l d a b, 1, fun k o => some (zmax o (w.reg b k))),
          (.atomAnd u l d a b, 1, fun k o => some (o &&& w.reg b k)), (.atomOr u l d a b, 1, fun k o => some (o ||| w.reg b k)),
          (.atomXor u l d a b, 1, fun k o => some (o ^^^ w.reg b k)), (.atomExch u l d a b, 1, fun k _ => some (w.reg b k)),
          (.atomCas u l d a b, 2, fun k o => if o = w.reg b k then some (w.reg (b + 1) k) else none)] :
          List (Instr × Nat × (Nat → Word → Option Word))),
        let acc : Nat → Acc := fun k => ⟨k, (w.reg a k).toNat + 2 ^ 32 * (w.reg (a + 1) k).toNat, 4, .atomic, true⟩
        let as := (c.readers u).map acc
        let s1 := s.fillAll c g as
        OperandsOk c w (c.readers u) [(d, 1)] [(a, 2), (b, e.2.1)] → (∀ y ∈ as, s.accCheck c g w y = none) →
        ((∃ k ∈ c.readers u, s1.laneOpen c.p c.wg c.wid k = true) → exec e.1 s = .next (stall s1 c)) ∧
        ((∀ k ∈ c.readers u, s1.laneOpen c.p c.wg c.wid k = false) →
        (∀ k, c.readers u = [k] →
          let pa := (s1.landing c g w (acc k)).1
          let s2 := ((s1.drainLane c.p c.wg c.wid k).hasRead g.core false (fun _ => false) pa 4).acquireOn c.p g.core
          s2.placeOf c.p pa = .mem → s2.mem.poisoned pa 4 = false →
          exec e.1 s = .next (loadAnswer (match e.2.2 k (old s2 pa) with
            | some v => put (s2.wrote false [c.p] 0 [(c.wg, c.wid, k)] pa 4) pa v
            | none => s2) c l fun _ => [(d, old s2 pa)])) ∧
        ∀ s2 vs, loadAll (fun t y => t.atomAcc c g w y (e.2.2 y.lane)) s1 as = (s2, .ok vs) →
          exec e.1 s = .next (giveResults s2 c l ((spread c u vs).map fun v => (v.1, [(d, v.2)]))))) ∧
    ((s.work c.p).storeCount c.wg c.wid < 63 → x < 8 →
      ∀ e ∈ ([(0, some fun o v => o + v), (1, none), (2, some smin), (3, some smax), (4, some zmin), (5, some zmax),
          (6, some fun o v => o &&& v), (7, some fun o v => o ||| v), (8, some fun o v => o ^^^ v)] : List (Nat × Option (Word → Word → Word))),
        let acc : Nat → Acc := fun k => ⟨k, ((w.reg a k).toNat + 2 ^ 32 * (w.reg (a + 1) k).toNat + 4 * x) % 2 ^ 64, 4, .atomic, true⟩
        let as := (c.readers u).map acc
        let s1 := s.fillAll c g as
        OperandsOk c w (c.readers u) [] [(a, 2), (b, 1)] → (∀ y ∈ as, s.accCheck c g w y = none) →
        ((∀ y ∈ as, LandsPlain s1 c g w y) → exec (.radd u l e.1 a b x) s = .next (retire ((c.readers u).foldl (fun t k =>
          t.addStore c ⟨s.ids, 0, c.wg, c.wid, k, privOf g w, false, false,
            located (s1.landing c g w (acc k)).1 [0, 0, 0, 0], some (e.1, w.reg b k), w.trap.hm⟩) s1).fresh c)) ∧
        (∀ k, c.readers u = [k] →
          let pa := (s1.landing c g w (acc k)).1
          s1.placeOf c.p pa ≠ .mem → exec (.radd u l e.1 a b x) s = .next (retire (s1.writeAt c.p [(c.wg, c.wid, k)] (privOf g w) pa
            (bytesOf 4 ((e.2.getD fadd) (BitVec.ofNat 32 (ofBytes (s1.readAt c.p pa 4))) (w.reg b k)).toNat)).fresh c)) ∧
        -- when it is performed
        ∀ (p n pa : Nat) (y : PendingStore) (z : State), z.issue = .part [p, n] → (z.work p).stores[n]? = some y → y.parked = 0 →
          y.spad = false → y.bytes = located pa [0, 0, 0, 0] → y.red = some (e.1, w.reg b c.l0) →
          (∀ y' ∈ (z.work p).stores.take n, y.after y' = false) →
          ∃ z', exec .storePerformed z = .next z' ∧ z'.mem = (match e.2 with
            | some op => (put z pa (op (old z pa) (w.reg b c.l0))).mem
            | none => z.mem.raddF32 pa (w.reg b c.l0) (y.ticket * 32 + y.lane)))

/-- R224, R78, R79. How long an overwritten byte is kept is the model's choice (log 84). -/
def Obligations.ScratchpadAccessesComplete : Prop :=
  ∀ (u : Bool) (l a b x : Nat) (s : State) (c : Ctx) (g : WorkGroup) (w : Warp), Issues s c g w →
    ∀ e ∈ ([(.lds u l a b x, .sts u l a b x, 4), (.lds64 u l a b x, .sts64 u l a b x, 8), (.lds128 u l a b x, .sts128 u l a b x, 16)] :
        List (Instr × Instr × Nat)),
      let n := e.2.2
      let va : Nat → Nat := fun k => (w.reg a k).toNat + x * n
      let key : Nat → Nat := fun k => (s.spadAt c g w k (va k) n).getD 0
      let faults : Kind → List (Nat × DWord) := fun kind => (c.readers u).filterMap fun k => s.spadCheck c g w kind k (va k) n
      (w.loadCount < 63 → OperandsOk c w (c.readers u) [(b, n / 4)] [(a, 1)] →
        (faults .read = [] → (∀ k ∈ c.readers u, s.spad.poisoned (key k) n = false) →
          ∃ (late : List Late) (bt : Nat → Nat → Byte), exec e.1 s = .next (loadAnswer { s with late := late } c l fun lane =>
            let k := c.readerOf u lane
            let byte : Nat → Byte := fun i => overlay ((s.work c.p).ownStores c.wg c.wid k true) (key k + i) (bt k i)
            (List.range (n / 4)).map fun j => (b + j, BitVec.ofNat 32 (ofBytes ((List.range 4).map fun i => byte (4 * j + i))))) ∧
          late.map (fun y => { y with seen := [] }) = s.late.map (fun y => { y with seen := [] }) ∧
          ∀ k ∈ c.readers u, ∀ i, i < n → bt k i = s.spad.byte (key k + i) ∨
            ∃ y ∈ s.late, y.spad = true ∧ y.unit = (key k + i) / 8 ∧ g.core ∉ y.seen ∧ (c.wg, c.wid, k) ∉ y.writers ∧
              ¬(y.l1 = true ∧ c.p ∈ y.parts) ∧ bt k i = y.old.getD ((key k + i) % 8) 0) ∧
        (faults .read ≠ [] → exec e.1 s = .next (raiseTrap s c (faults .read)))) ∧
      ((s.work c.p).storeCount c.wg c.wid < 63 → OperandsOk c w (c.readers u) [] [(a, 1), (b, n / 4)] →
        (faults .write = [] → exec e.2.1 s = .next (retire ((c.readers u).foldl (fun t k =>
          let bs := located (key k) ((List.range n).map fun i => BitVec.ofNat 8 ((w.reg (b + i / 4) k).toNat / 256 ^ (i % 4)))
          (if n = 16 then [bs.take 8, bs.drop 8] else [bs]).foldl (fun t' unit =>
            t'.addStore c ⟨s.ids, 0, c.wg, c.wid, k, privOf g w, true, false, unit, none, w.trap.hm⟩) t) s).fresh c)) ∧
        (faults .write ≠ [] → exec e.2.1 s = .next (raiseTrap s c (faults .write))))

/-- R226, R227, R231, R232. That XFENCE waits for the group's own stores and multicast accesses alone is the model's reading (log 44), and how
it keeps what may still be read of overwritten bytes, and for whom, its choice (logs 6 and 84). -/
def Obligations.PrefetchFenceBridgeComplete : Prop :=
  ∀ (u : Bool) (a b : Nat) (s : State) (c : Ctx) (g : WorkGroup) (w : Warp), Issues s c g w →
    ((s.work c.p).storeCount c.wg c.wid < 63 → c.word / 2 ^ 10 % 2 ^ 7 % 2 = 0 → c.word / 2 ^ 10 % 2 ^ 7 + 2 ≤ 8 * w.alloc →
      ∀ i ∈ ([.prefL2, .prefL1] : List Instr), exec i s = .next (retire
        ((s.modWork c.p fun x => { x with stores := x.stores ++ [⟨s.ids, 0, c.wg, c.wid, c.l0, privOf g w, false, false, [], none,
          w.trap.hm⟩] }).fresh) c)) ∧
    ((∃ l ∈ c.lanes, s.laneOpen c.p c.wg c.wid l = true) → exec .fence s = .next (stall s c)) ∧
    ((∀ l ∈ c.lanes, s.laneOpen c.p c.wg c.wid l = false) →
      exec .fence s = .next (retire ((c.lanes.foldl (fun t l => t.drainLane c.p c.wg c.wid l) s).acquireOn c.p g.core) c)) ∧
    (∀ y ∈ (s.acquireOn c.p g.core).late, 0 ∈ y.paths → c.p ∈ y.parts → g.core ∈ y.seen) ∧
    (a ≤ 5 → b ≤ 5 →
      (a = b → exec (.xfence u a b) s = .next (retire s c)) ∧
      (a ≠ b → a ≠ 0 → (a = 3 → ∀ l ∈ c.lanes, s.laneOpen c.p c.wg c.wid l = false) →
        exec (.xfence u a b) s = .next (retire (s.bridgeOn c.p g.core a b) c)) ∧
      (a = 0 → b ≠ 0 → exec (.xfence u a b) s = .next
        (retire ((c.lanes.foldl (fun t l => t.drainLane c.p c.wg c.wid l) s).bridgeOn c.p g.core a b) c)) ∧
      (a = 3 → b ≠ 3 → (∃ l ∈ c.lanes, s.laneOpen c.p c.wg c.wid l = true) → exec (.xfence u a b) s = .next (stall s c))) ∧
    (∀ y ∈ s.late, a ∈ y.paths → ∃ y' ∈ (s.bridgeOn c.p g.core a b).late, y'.spad = y.spad ∧ y'.unit = y.unit ∧ y'.old = y.old ∧ b ∈ y'.paths) ∧
    (b = 0 → a ≠ 0 → ∀ y ∈ (s.bridgeOn c.p g.core a b).late, a ∈ y.paths → c.p ∈ y.parts → g.core ∈ y.seen) ∧
    (5 < a ∨ 5 < b → exec (.xfence u a b) s = .next (raiseTrap s c [(1, BitVec.ofNat 64 (c.word % 2 ^ 32))]))

/-- R153, R149, R94. -/
def Obligations.ResultsAndStoresLand : Prop :=
  (∀ (s : State) (p wg wid t : Nat) (g : WorkGroup) (w : Warp), s.issue = .part [p, wg, wid, t] → (s.work p).wg wg = some g →
    g.warp wid = some w → w.lanes.length = 32 →
    ∃ s' v, exec .lookaheadResultWrite s = .next s' ∧ s'.warp p wg wid = some v ∧
      ∀ l, l < 32 →
        let due : Result → Bool := fun r => r.ticket == t && r.window == 0 && r.ready
        (v.lane l).results = (w.lane l).results.filter (fun r => !due r) ∧
        ∀ r, (w.lane l).results.filter due = [r] → (r.vals.map (·.1)).Nodup → ∀ e ∈ r.vals, v.reg e.1 l = e.2) ∧
  ∀ (s : State) (p n pa : Nat) (x : PendingStore) (bs : List Byte), s.issue = .part [p, n] → (s.work p).stores[n]? = some x →
    x.parked = 0 → x.spad = false → x.poison = false → x.red = none → x.bytes = located pa bs → bs ≠ [] → s.placeOf p pa = .mem →
    (∀ y ∈ (s.work p).stores.take n, x.after y = false) →
    ∃ s', exec .storePerformed s = .next s' ∧ (s'.work p).stores = (s.work p).stores.filter (fun y => y ≠ x) ∧
      (∀ i, i < bs.length → s'.mem.byte (pa + i) = bs.getD i 0) ∧
      ∀ a, a < pa ∨ pa + bs.length ≤ a → s'.mem.byte a = s.mem.byte a

/-! ## Barriers, pins, rings, gates, groups of members -/

/-- R233, R235, R372. `settle` is what the end of a slot does when threads have exited, retired or arrived. -/
def Obligations.BarrierAndPinsComplete : Prop :=
  ∀ (u : Bool) (k a b : Nat) (s : State) (c : Ctx) (g : WorkGroup) (w : Warp), Issues s c g w →
    let word := BitVec.ofNat 64 (c.word % 2 ^ 32)
    (w.trap.hm = true → exec (.lbar u k) s = .next (raiseTrap s c [(0, word)])) ∧
    (∀ x, (s.work c.p).launch g.seq = some x → w.trap.hm = false →
      (k < (levelsOf x g).length → ((levelsOf x g).getD k (contLevel 1)).domain ≠ 7 →
        let arrived := (c.lanes.foldl (fun t l => t.drainLane c.p c.wg c.wid l) s).modWarp c.p c.wg c.wid fun v =>
          v.modLanes c.lanes fun y => { y with hold := .lbar k }
        ((∀ l ∈ c.lanes, s.laneOpen c.p c.wg c.wid l = false) → exec (.lbar u k) s = .next ((retireTo arrived c []).settle c.p)) ∧
        ((∃ l ∈ c.lanes, s.laneOpen c.p c.wg c.wid l = true) → exec (.lbar u k) s = .next (stall s c))) ∧
      ((levelsOf x g).length ≤ k ∨ ((levelsOf x g).getD k (contLevel 1)).domain = 7 →
        exec (.lbar u k) s = .next (raiseTrap s c [(1, word)]))) ∧
    (OperandsOk c w [c.l0] [] [(a, 1), (b, 1)] →
      let x := (w.reg a c.l0).toNat
      let n := (w.reg b c.l0).toNat
      let page : Nat → Option Nat := fun m => (g.regionFor (w.lane c.l0).lix (4096 * m) 4096).map fun rg =>
        rg.space * 256 + (4096 * m - rg.base) / 4096
      (n = 0 → exec (.sppin u a b) s = .next (retire s c) ∧ exec (.spunpin u a b) s = .next (retire s c)) ∧
      (0 < n → x / 2 ^ 20 = g.core % 32 → x % 2 ^ 20 + n ≤ g.ownSpace → x < 2 ^ 25 →
        ∃ more less : List Nat,
          (∀ y, y ∈ more ↔ y ∈ (s.work c.p).pins ∨ ∃ m, m * 4096 < x % 2 ^ 20 + n ∧ x % 2 ^ 20 < (m + 1) * 4096 ∧ page m = some y) ∧
          (∀ y, y ∈ less ↔ y ∈ (s.work c.p).pins ∧ ¬∃ m, m * 4096 < x % 2 ^ 20 + n ∧ x % 2 ^ 20 < (m + 1) * 4096 ∧ page m = some y) ∧
          exec (.sppin u a b) s = .next (retire (s.modWork c.p fun v => { v with pins := more }) c) ∧
          exec (.spunpin u a b) s = .next (retire (s.modWork c.p fun v => { v with pins := less }) c)) ∧
      (0 < n → 2 ^ 25 ≤ x ∨ x / 2 ^ 20 ≠ g.core % 32 ∨ g.ownSpace < x % 2 ^ 20 + n →
        ∀ i ∈ ([.sppin u a b, .spunpin u a b] : List Instr), exec i s = .next (raiseTrap s c [(22, BitVec.ofNat 64 x)])))

/-- R236, R238. `serveRings` goes on serving until no waiter can act: `serveOne` says what one is given. -/
def Obligations.RingOperationsComplete : Prop :=
  (∀ (u : Bool) (d a b k : Nat) (s : State) (c : Ctx) (g : WorkGroup) (w : Warp), Issues s c g w → w.trap.hm = false → c.readers u = [k] →
    let none_ : Prop := (s.work c.p).waiters = []
    let q := (w.reg a k).toNat
    let r := (s.part c.p).ring q
    let n := 2 ^ r.rlog
    let entry : Word → Kind → Acc := fun i kd => ⟨k, (r.rbase.toNat + 8 * (i.toNat % n)) % 2 ^ 64, 8, kd, true⟩
    let ringed : State → Ring → State := fun t ring => t.modPart c.p fun x => { x with rings := put x.rings q ring }
    let held : WaitKind → State → Prop := fun kd t => (t.work c.p).waiters = (s.work c.p).waiters ++ [⟨kd, c.wg, c.wid, c.lanes⟩] ∧
      t.parts = s.parts ∧ t.mem = s.mem
    let waits : Bool → Prop := fun push => ∃ x ∈ (s.work c.p).waiters, match x.kind with
      | .rbpush j _ => push = true ∧ j = q
      | .rbpop j _ => push = false ∧ j = q
      | _ => False
    (q ≤ 255 → r.en = true → r.rbase.toNat % (8 * n) = 0 →
      (OperandsOk c w [k] [] [(a, 1), (b, 2)] →
        let acc := entry r.tail .write
        let s1 := s.fillAll c g [acc]
        let at_ := s1.landing c g w acc
        (s.laneOpen c.p c.wg c.wid k = true → exec (.rbpush u a b) s = .next (stall s c)) ∧
        (none_ → s.laneOpen c.p c.wg c.wid k = false → r.free ≠ 0 → (r.tail - r.head).toNat < n → s.accCheck c g w acc = none → leafFmt at_.2 ≠ 2 →
          exec (.rbpush u a b) s = .next (answer (ringed ((s1.drainLane c.p c.wg c.wid k).writeAt c.p [(c.wg, c.wid, k)]
            (privOf g w) at_.1 (bytesOf 8 ((w.reg b k).toNat + 2 ^ 32 * (w.reg (b + 1) k).toNat)))
            { r with tail := r.tail + 1, free := r.free - 1 }) c fun _ => [])) ∧
        (none_ → s.laneOpen c.p c.wg c.wid k = false → r.free = 0 ∨ n ≤ (r.tail - r.head).toNat →
          ∃ t, exec (.rbpush u a b) s = .next t ∧ held (.rbpush q (w.pair b k)) t) ∧
        (s.laneOpen c.p c.wg c.wid k = false → waits true →
          ∃ t, exec (.rbpush u a b) s = .next (State.serveRings c.p [q] t) ∧ held (.rbpush q (w.pair b k)) t)) ∧
      (OperandsOk c w [k] [(d, 2)] [(a, 1)] →
        let acc := entry r.head .read
        let s1 := s.fillAll c g [acc]
        let at_ := s1.landing c g w acc
        (none_ → r.tail ≠ r.head → s.accCheck c g w acc = none → LandsPlain s1 c g w acc →
          let s2 := s1.drainRadds c k
          let v := ofBytes (seen ((s2.work c.p).ownStores c.wg c.wid k false) at_.1 (s2.mem.bytes at_.1 8))
          exec (.rbpop u d a) s = .next (answer (ringed ((s2.hasRead g.core false (fun _ => false) at_.1 8).acquireOn c.p g.core)
            { r with head := r.head + 1 }) c fun _ =>
            [(d, BitVec.ofNat 32 v), (d + 1, BitVec.ofNat 32 (v / 2 ^ 32))])) ∧
        (none_ → r.tail = r.head → ∃ t, exec (.rbpop u d a) s = .next t ∧ held (.rbpop q d) t) ∧
        (waits false → ∃ t, exec (.rbpop u d a) s = .next (State.serveRings c.p [q] t) ∧ held (.rbpop q d) t)) ∧
      (OperandsOk c w [k] [(d, 1)] [(a, 1), (b, 1)] →
        let free := if r.free + (w.reg b k).toNat < n then r.free + (w.reg b k).toNat else n
        exec (.rbfree u d a b) s = .next (State.serveRings c.p [q] (answer (ringed s { r with free := free }) c fun _ =>
          [(d, BitVec.ofNat 32 free)])))) ∧
    (255 < q ∨ r.en = false ∨ r.rbase.toNat % (8 * n) ≠ 0 → none_ →
      (OperandsOk c w [k] [] [(a, 1), (b, 2)] → s.laneOpen c.p c.wg c.wid k = false →
        ∃ t, exec (.rbpush u a b) s = .next (raiseTrap t c [(24, BitVec.ofNat 64 q)])) ∧
      (OperandsOk c w [k] [(d, 2)] [(a, 1)] → ∃ t, exec (.rbpop u d a) s = .next (raiseTrap t c [(24, BitVec.ofNat 64 q)])) ∧
      (OperandsOk c w [k] [(d, 1)] [(a, 1), (b, 1)] → ∃ t, exec (.rbfree u d a b) s = .next (raiseTrap t c [(24, BitVec.ofNat 64 q)])))) ∧
  -- what a waiter is given
  (∀ (s : State) (p q : Nat) (x : Waiter) (g : WorkGroup) (w : Warp), (s.work p).wg x.wg = some g → g.warp x.wid = some w → q ≤ 255 →
    let r := (s.part p).ring q
    let n := 2 ^ r.rlog
    let c : Ctx := ⟨p, x.wg, x.wid, x.lanes, 0, 0⟩
    let acc : Word → Kind → Acc := fun i kd => ⟨c.l0, (r.rbase.toNat + 8 * (i.toNat % n)) % 2 ^ 64, 8, kd, true⟩
    let first : Bool → Prop := fun push => (s.work p).waiters.find? (fun y => match y.kind with
      | .rbpush j _ => push && j == q
      | .rbpop j _ => !push && j == q
      | _ => false) = some x
    r.en = true → r.rbase.toNat % (8 * n) = 0 →
    (∀ j e, x.kind = .rbpush j e → first true →
      (r.free = 0 ∨ n ≤ (r.tail - r.head).toNat → s.serveOne p q true = none) ∧
      (r.free ≠ 0 → (r.tail - r.head).toNat < n → s.accCheck c g w (acc r.tail .write) = none →
        let s1 := s.fillAll c g [acc r.tail .write]
        let at_ := s1.landing c g w (acc r.tail .write)
        leafFmt at_.2 ≠ 2 →
        s.serveOne p q true = some ((((s1.drainLane p x.wg x.wid c.l0).writeAt p [(x.wg, x.wid, c.l0)] (privOf g w) at_.1
          (bytesOf 8 e.toNat)).modPart p fun y => { y with rings := put y.rings q { r with tail := r.tail + 1, free := r.free - 1 } }).releaseWaiter
            p x []))) ∧
    (∀ j d, x.kind = .rbpop j d → first false →
      (r.tail = r.head → s.serveOne p q false = none) ∧
      (r.tail ≠ r.head → s.accCheck c g w (acc r.head .read) = none →
        let s1 := s.fillAll c g [acc r.head .read]
        let at_ := s1.landing c g w (acc r.head .read)
        LandsPlain s1 c g w (acc r.head .read) →
        let s2 := s1.drainRadds c c.l0
        let v := ofBytes (seen ((s2.work p).ownStores x.wg x.wid c.l0 false) at_.1 (s2.mem.bytes at_.1 8))
        s.serveOne p q false = some ((((s2.hasRead g.core false (fun _ => false) at_.1 8).acquireOn p g.core).modPart p fun y =>
          { y with rings := put y.rings q { r with head := r.head + 1 } }).releaseWaiter p x
            [(d, BitVec.ofNat 32 v), (d + 1, BitVec.ofNat 32 (v / 2 ^ 32))])))) ∧
  -- two lanes, in their order; any lanes for RBFREE
  ∀ (d a b : Nat) (s : State) (c : Ctx) (g : WorkGroup) (w : Warp), Issues s c g w → w.trap.hm = false → (s.work c.p).waiters = [] →
    let no : Nat → Nat := fun l => (w.reg a l).toNat
    let ok : Nat → Prop := fun q => q ≤ 255 ∧ ((s.part c.p).ring q).en = true ∧
      ((s.part c.p).ring q).rbase.toNat % (8 * 2 ^ ((s.part c.p).ring q).rlog) = 0
    (∀ k1 k2, c.lanes = [k1, k2] → no k1 = no k2 → ok (no k1) →
      let q := no k1
      let r := (s.part c.p).ring q
      let n := 2 ^ r.rlog
      let acc : Nat → Word → Kind → Acc := fun k i kd => ⟨k, (r.rbase.toNat + 8 * (i.toNat % n)) % 2 ^ 64, 8, kd, true⟩
      let put_ : State → Ring → State := fun t x => t.modPart c.p fun y => { y with rings := put y.rings q x }
      (OperandsOk c w c.lanes [] [(a, 1), (b, 2)] → (∀ k ∈ c.lanes, s.laneOpen c.p c.wg c.wid k = false) → r.free ≠ 0 →
        (r.tail - r.head).toNat < n → s.accCheck c g w (acc k1 r.tail .write) = none →
        let pushed : State → Nat → Ring → State := fun t k x =>
          let t1 := t.fillAll c g [acc k x.tail .write]
          put_ ((t1.drainLane c.p c.wg c.wid k).writeAt c.p [(c.wg, c.wid, k)] (privOf g w)
            (t1.landing c g w (acc k x.tail .write)).1 (bytesOf 8 (w.pair b k).toNat)) { x with tail := x.tail + 1, free := x.free - 1 }
        let plain : State → Nat → Word → Prop := fun t k i =>
          leafFmt ((t.fillAll c g [acc k i .write]).landing c g w (acc k i .write)).2 ≠ 2
        let s1 := pushed s k1 r
        plain s k1 r.tail →
        (r.free = 1 ∨ (r.tail + 1 - r.head).toNat = n →
          ∃ t, exec (.rbpush false a b) s = .next t ∧ (t.part c.p).ring q = { r with tail := r.tail + 1, free := r.free - 1 } ∧ t.mem = s1.mem ∧
            (t.work c.p).waiters = [⟨.rbpush q (w.pair b k2), c.wg, c.wid, [k2]⟩]) ∧
        (r.free ≠ 1 → (r.tail + 1 - r.head).toNat < n → s1.accCheck c g w (acc k2 (r.tail + 1) .write) = none →
          plain s1 k2 (r.tail + 1) → exec (.rbpush false a b) s = .next
            (answer (pushed s1 k2 { r with tail := r.tail + 1, free := r.free - 1 }) c fun _ => []))) ∧
      (OperandsOk c w c.lanes [(d, 2)] [(a, 1)] → r.tail ≠ r.head → s.accCheck c g w (acc k1 r.head .read) = none →
        let landed : State → Nat → Word → Nat := fun t k i => ((t.fillAll c g [acc k i .read]).landing c g w (acc k i .read)).1
        let popped : State → Nat → Ring → State := fun t k x =>
          put_ ((((t.fillAll c g [acc k x.head .read]).drainRadds c k).hasRead g.core false (fun _ => false) (landed t k x.head) 8).acquireOn
            c.p g.core) { x with head := x.head + 1 }
        let found : State → Nat → Word → Nat := fun t k i =>
          let t2 := (t.fillAll c g [acc k i .read]).drainRadds c k
          ofBytes (seen ((t2.work c.p).ownStores c.wg c.wid k false) (landed t k i) (t2.mem.bytes (landed t k i) 8))
        let plain : State → Nat → Word → Prop := fun t k i => LandsPlain (t.fillAll c g [acc k i .read]) c g w (acc k i .read)
        let s1 := popped s k1 r
        plain s k1 r.head →
        (r.tail = r.head + 1 → ∃ t, exec (.rbpop false d a) s = .next t ∧ (t.part c.p).ring q = { r with head := r.head + 1 } ∧
          (t.work c.p).waiters = [⟨.rbpop q d, c.wg, c.wid, [k2]⟩]) ∧
        (r.tail ≠ r.head + 1 → s1.accCheck c g w (acc k2 (r.head + 1) .read) = none → plain s1 k2 (r.head + 1) → k1 ≠ k2 →
          exec (.rbpop false d a) s = .next (answer (popped s1 k2 { r with head := r.head + 1 }) c fun k =>
            let v := if k = k1 then found s k1 r.head else found s1 k2 (r.head + 1)
            [(d, BitVec.ofNat 32 v), (d + 1, BitVec.ofNat 32 (v / 2 ^ 32))])))) ∧
    (OperandsOk c w c.lanes [(d, 1)] [(a, 1), (b, 1)] → (∀ k ∈ c.lanes, ok (no k)) → c.lanes.Nodup →
      let freed := c.lanes.foldl (fun (e : State × Map Word) k =>
        let r := (e.1.part c.p).ring (no k)
        let f := if r.free + (w.reg b k).toNat < 2 ^ r.rlog then r.free + (w.reg b k).toNat else 2 ^ r.rlog
        (e.1.modPart c.p fun y => { y with rings := put y.rings (no k) { r with free := f } }, e.2 ++ [(k, BitVec.ofNat 32 f)])) (s, [])
      exec (.rbfree false d a b) s = .next (answer freed.1 c fun k => [(d, findD freed.2 k 0)]))

/-- R240, R236, R237, R294. That TQPOP with U = 1 is one operation for the group is the model's reading (log 43). -/
def Obligations.TileQueueAndRingSwitch : Prop :=
  (∀ (u : Bool) (d n k : Nat) (s : State) (c : Ctx) (g : WorkGroup) (w : Warp), Issues s c g w → w.trap.hm = false →
    (7 < n → exec (.tqpop u d n) s = .next (raiseTrap s c [(1, BitVec.ofNat 64 (c.word % 2 ^ 32))])) ∧
    (n ≤ 7 → OperandsOk c w [] [(d, 1)] [] → c.readers u = [k] → (s.work c.p).waiters = [] →
      let t := (s.work c.p).tileQueue g.seq (g.core / 64) n
      (∀ x r, t.tiles = x :: r → exec (.tqpop u d n) s =
        .next (answer (let s1 := s.modWork c.p fun y => y.setTileQueue { t with tiles := r }
            if x = 2 ^ 32 - 1 then s1 else s1.bridgeOn c.p g.core 3 0) c fun _ => [(d, BitVec.ofNat 32 x)])) ∧
      (t.tiles = [] → t.closed = true → exec (.tqpop u d n) s =
        .next (answer (s.modWork c.p fun y => y.setTileQueue t) c fun _ => [(d, 0xFFFFFFFF)])) ∧
      (t.tiles = [] → t.closed = false → ∃ t', exec (.tqpop u d n) s = .next t' ∧
        (t'.work c.p).waiters = [⟨.tqpop n d, c.wg, c.wid, c.lanes⟩]))) ∧
  (∀ (s : State) (p id m : Nat) (q : Seq) (c : Command), s.issue = .part [p, id, m] → (s.work p).seqOf id = some q → q.cmd m = some c →
    c.id = m → c.wait = .done → c.tiles ≠ [] → (s.work p).waiters = [] →
    let t := (s.work p).tileQueue q.seq (q.cluster / 2) c.queue
    t.tiles.length < 1024 →
    ∃ s' x, exec .arrivedTilePush s = .next s' ∧ x ∈ c.tiles ∧
      (s'.work p).tileQueue q.seq (q.cluster / 2) c.queue = { t with tiles := t.tiles ++ [x] } ∧
      ∃ q' c', (s'.work p).seqOf id = some q' ∧ q'.cmd m = some c' ∧ c'.tiles = c.tiles.filter (· ≠ x)) ∧
  ∀ (s : State) (who p k v : Nat), s.issue = .part [who, p, k, v] → s.mayWrite who 2 = true → (s.part p).state = .running → k < 256 →
    (s.work p).waiters = [] →
    let r := (s.part p).ring k
    let ring : Ring := if v % 2 = 1 then { r with en := true, head := 0, tail := 0, free := 2 ^ r.rlog } else { r with en := false }
    exec .ringEnWrite s = .next (s.modPart p fun x => { x with rings := put x.rings k ring })

/-- R243, R318, R319. -/
def Obligations.GateInstructionsComplete : Prop :=
  ∀ (u : Bool) (d a b : Nat) (s : State) (c : Ctx) (g : WorkGroup) (w : Warp), Issues s c g w → w.trap.hm = false →
    let no : Nat → Nat := fun l => (w.reg a l).toNat
    let rights : Nat → Bool × Bool × Bool := fun n =>
      if 3 ≤ privOf g w then (true, true, true) else (s.gate n).rights (s.part c.p).tenant
    let named : Bool → Nat → Prop := fun read l => no l ≤ 4095 ∧ (s.gate (no l)).v = true ∧
      ((rights (no l)).2.1 = true ∨ read = true ∧ (rights (no l)).2.2 = true)
    let target : Nat → Nat := fun l => (w.reg b l).toNat + 2 ^ 32 * (w.reg (b + 1) l).toNat
    (∀ k, c.readers u = [k] → (s.work c.p).engCountOf c.wg w < 63 → OperandsOk c w [k] [] [(a, 1), (b, 1)] →
      (s.laneOpen c.p c.wg c.wid k = true → exec (.gsig u a b) s = .next (stall s c)) ∧
      (s.laneOpen c.p c.wg c.wid k = false →
      let n := no k
      let s1 := s.fresh.drainLane c.p c.wg c.wid k
      let x := s1.gate n
      let signal := if 3 ≤ privOf g w then true else (x.rights (s.part c.p).tenant).1
      let left := if x.burst ≠ 0 then x.tokens - 1024 else x.tokens
      (n ≤ 4095 → x.v = true → signal = true → (x.burst = 0 ∨ 1024 ≤ x.tokens) → x.queued.length < 65535 →
        exec (.gsig u a b) s = .next (retire ((if x.frz then
            s1.modGate n fun y => { y with tokens := left, queued := y.queued ++ [(w.reg b k, s.ids)] }
          else (s1.modGate n fun y => { y with tokens := left, value := BitVec.ofNat 64 (y.value.toNat + (w.reg b k).toNat) }).serveGate n).modWarp
            c.p c.wg c.wid fun v => { v with eng := v.eng ++ [s.ids] }) c)) ∧
      (4095 < n ∨ x.v = false ∨ signal = false →
        ∃ t, exec (.gsig u a b) s = .next (raiseTrap t c [(25, BitVec.ofNat 64 n)]) ∧ (t.gate n).value = (s.gate n).value) ∧
      (n ≤ 4095 → x.v = true → signal = true → x.burst ≠ 0 → x.tokens < 1024 → x.queued.length < 65535 →
        ∃ t, exec (.gsig u a b) s = .next (raiseTrap t c [(26, BitVec.ofNat 64 n)]) ∧ (t.gate n).value = (s.gate n).value))) ∧
    let acquired : State := (c.readers u).foldl (fun t _ => t.gateAcquire c.p g.core) s
    (OperandsOk c w (c.readers u) [(d, 2)] [(a, 1), (b, 2)] → (∀ l ∈ c.readers u, named false l) →
      ((∀ l ∈ c.readers u, (s.gate (no l)).frz = false ∧ target l ≤ (s.gate (no l)).value.toNat) →
        exec (.gwait u d a b) s = .next (answer acquired c fun l =>
          let v := (s.gate (no (c.readerOf u l))).value.toNat
          [(d, BitVec.ofNat 32 v), (d + 1, BitVec.ofNat 32 (v / 2 ^ 32))])) ∧
      (∀ k, c.readers u = [k] → (s.gate (no k)).frz = true ∨ (s.gate (no k)).value.toNat < target k →
        ∃ t, exec (.gwait u d a b) s = .next t ∧ t.gates = s.gates ∧
          (t.work c.p).waiters = (s.work c.p).waiters ++ [⟨.gwait (no k) d (w.pair b k), c.wg, c.wid, c.lanes⟩])) ∧
    (OperandsOk c w (c.readers u) [(d, 2)] [(a, 1)] → (∀ l ∈ c.readers u, named true l) →
      exec (.grd u d a) s = .next (answer acquired c fun l =>
        let v := (s.gate (no (c.readerOf u l))).value.toNat
        [(d, BitVec.ofNat 32 v), (d + 1, BitVec.ofNat 32 (v / 2 ^ 32))])) ∧
    (OperandsOk c w (c.readers u) [(d, 1)] [(a, 1), (b, 2)] → (∀ l ∈ c.readers u, named true l) →
      exec (.gtry u d a b) s = .next (answer acquired c fun l =>
        let k := c.readerOf u l
        [(d, if target k ≤ (s.gate (no k)).value.toNat then 1 else 0)])) ∧
    (∀ k, c.readers u = [k] → ¬named true k →
      (OperandsOk c w [k] [(d, 2)] [(a, 1)] → ∃ t, exec (.grd u d a) s = .next (raiseTrap t c [(25, BitVec.ofNat 64 (no k))])) ∧
      (OperandsOk c w [k] [(d, 1)] [(a, 1), (b, 2)] → ∃ t, exec (.gtry u d a b) s = .next (raiseTrap t c [(25, BitVec.ofNat 64 (no k))])))

/-- R318 to R320. -/
def Obligations.GateEventsAct : Prop :=
  (∀ (s : State) (n tenant inc : Nat), s.issue = .part [n, tenant, inc] → inc < 2 ^ 32 →
    ((s.gate n).v = true → ((s.gate n).rights tenant).1 = true → (s.gate n).burst = 0 → (s.gate n).frz = false →
      exec .gateSignalApply s = .next ((s.modGate n fun y =>
        { y with tokens := y.tokens, value := BitVec.ofNat 64 (y.value.toNat + inc) }).serveGate n)) ∧
    ((s.gate n).v = false ∨ ((s.gate n).rights tenant).1 = false →
      ∃ t, exec .gateSignalApply s = .next t ∧ (t.gate n).value = (s.gate n).value ∧ t.works = s.works)) ∧
  (∀ (s : State) (n : Nat), s.issue = .part [n] →
    exec .gateTokenRefill s = .next (s.modGate n fun y =>
      if y.frz then y else { y with tokens := if y.tokens + y.rate < 1024 * y.burst then y.tokens + y.rate else 1024 * y.burst })) ∧
  (∀ (s : State) (who n off v : Nat) (upd : Gate → Gate), s.mayWrite who 3 = true → n < 4096 → v < 2 ^ 64 →
    s.issue = .part [who, n, off, v] →
    let x := s.gate n
    let home := v / 2 ^ 52 % 2 ^ 5
    let on := decide (v / 2 ^ 63 % 2 = 1)
    let to_ := if x.home = 31 then 31 else home
    let ignored : Prop := v / 2 ^ 57 % 2 ^ 5 ≠ 0 ∨ v / 2 ^ 16 % 2 ^ 36 ≠ 0 ∨ (28 ≤ home ∧ home ≤ 30) ∨ (home = 31 ∧ x.home ≠ 31) ∨
      (on = true ∧ ((s.part to_).state ≠ .running ∨
        (s.part to_).gquota ≤ (s.gates.filter fun e => e.2.v && e.2.home == to_ && e.1 != n).length))
    let set : Nat → Nat → Gate → Gate := fun i e y => if e / 16 % 2 ^ 12 ≠ 0 then y else { y with acl := put y.acl i (BitVec.ofNat 32 e) }
    (off = 8 → ignored → exec .gateEntryWrite s = .next s) ∧
    ((off = 8 ∧ ¬ignored ∧ upd = fun y => { y with v := on, home := to_ }) ∨
        (∃ j, j < 8 ∧ off = 64 + 8 * j ∧ upd = fun y => set (2 * j + 1) (v / 2 ^ 32) (set (2 * j) (v % 2 ^ 32) y)) →
      ((∀ e ∈ s.works, e.2.waiters = []) → exec .gateEntryWrite s = .next (s.modGate n upd)) ∧
      ∀ p wk y d target h z, s.works = [(p, wk)] → wk.waiters = [y] → y.kind = .gwait n d target → wk.wg y.wg = some h →
        h.warp y.wid = some z →
        let keeps : Prop := (upd x).v = true ∧ (3 ≤ h.priv ∨ ((upd x).rights (s.part p).tenant).2.1 = true)
        (keeps → exec .gateEntryWrite s = .next (s.modGate n upd)) ∧
        (¬keeps → ∃ t z', exec .gateEntryWrite s = .next t ∧ (t.work p).waiters = [] ∧ t.warp p y.wg y.wid = some z' ∧
          z'.trap.cause.getLsbD 25 = true ∧ (z.trap.cause.getLsbD 25 = false → find z'.trap.tvals 25 = some (BitVec.ofNat 64 n)) ∧
          ((t.gate n).v, (t.gate n).home, (t.gate n).acl) = ((upd x).v, (upd x).home, (upd x).acl)))) ∧
  ∀ (s : State) (who n v : Nat), s.mayWrite who 3 = true → n < 4096 → v < 2 ^ 64 →
    (s.issue = .part [who, n, 0, v] →
      exec .gateEntryWrite s = .next ((s.modGate n fun y => { y with value := BitVec.ofNat 64 v }).serveGate n)) ∧
    (s.issue = .part [who, n, 16, v] →
      let rate := v / 2 ^ 44 % 2 ^ 20
      let burst := v / 2 ^ 28 % 2 ^ 16
      exec .gateEntryWrite s = .next (s.modGate n fun y => { y with rate := rate, burst := burst, tokens := burst * 1024 }))

/-- R241, R242, R418. `memberReads` and `memberWrites` are the accesses at the members, in the order of the group. -/
def Obligations.MulticastAccessesComplete : Prop :=
  ∀ (u : Bool) (l a b x k : Nat) (s : State) (c : Ctx) (g : WorkGroup) (w : Warp), Issues s c g w → c.readers u = [k] →
    let base := (w.reg a k).toNat + 2 ^ 32 * (w.reg (a + 1) k).toNat
    let id := base / 2 ^ 56
    let s0 := s.findAbsent c.p id
    let gr := (s0.part c.p).group id
    let results : State → Result → State := fun t x => (retire t c).fresh.modWarp c.p c.wg c.wid fun y => c.lanes.foldl (fun y lane =>
      y.modLanes [lane] fun z => { z with results := z.results ++ [x] }) y
    let result : State → Word → State := fun t v => results t ⟨s.ids, l, true, [(b, v)], [], w.trap.hm, s.cycle⟩
    let tval : Nat → Nat → DWord := fun va cause =>
      BitVec.ofNat 64 (if cause = 28 then k * 2 ^ 57 + va % 2 ^ 56 else id * 2 ^ 56 + va)
    (w.loadCount < 63 → OperandsOk c w [k] [(b, 1)] [(a, 2)] →
      let at_ := (base + 2 * x) % 2 ^ 56
      let reads := s0.memberReads (s0.walkView c k) c.p (privOf g w) id at_ (fun i => .read c.p c.wg c.wid (if u then k + 32 else k) s0.ids i) 0 gr.members
      (s.groupCheck c g w (id, at_) 2 .read k = none → gr.absent = [] →
        (∀ s1 ps, reads = .ok (s1, ps) → none ∈ ps →
          exec (.mldr u l a b x) s = .next (results s1 ⟨s.ids, l, false, [(b, 0)], ps, w.trap.hm, s.cycle⟩)) ∧
        (∀ cause, reads = .error cause → exec (.mldr u l a b x) s = .next (raiseTrap s0.fresh c [(cause, tval at_ cause)])) ∧
        ∀ s1 vs, reads = .ok (s1, vs.map some) → vs ≠ [] →
        exec (.mldr u l a b x) s = .next (result s1 (match vs with
          | [y] => y
          | [y, z] => fadd y z
          | [y, z, t] => fadd (fadd y z) t
          | [y, z, t, v] => fadd (fadd y z) (fadd t v)
          | _ => memberSum vs.length vs))) ∧
      (s.groupCheck c g w (id, at_) 2 .read k = none → gr.absent ≠ [] →
        exec (.mldr u l a b x) s = .next (result s0 0x7FC00000)) ∧
      (((s.part c.p).group id).valid = false →
        exec (.mldr u l a b x) s = .next (raiseTrap s c [(17, BitVec.ofNat 64 (id * 2 ^ 56 + at_))]))) ∧
    ((s.work c.p).storeCount c.wg c.wid < 63 → OperandsOk c w [k] [] [(a, 2)] → OperandsOk c w [] [(b, 1)] [] →
      let at_ := (base + 4 * x) % 2 ^ 56
      let poison := w.poison.contains (regKey b k)
      (s.groupCheck c g w (id, at_) 4 .write k = none →
        let writes := s0.memberWrites (s0.walkView c k) c.p (privOf g w) id at_ gr.absent (w.reg b k) poison (.write (w.reg b k) poison c.p s.ids k) 0
          gr.members
        (∀ e, writes = .ok e → exec (.mst u l a b x) s = .next (retire ((e.1.addStore c
          ⟨s.ids, e.2, c.wg, c.wid, k, privOf g w, false, false, [], none, w.trap.hm⟩).fresh) c)) ∧
        ∀ cause, writes = .error cause → exec (.mst u l a b x) s = .next (raiseTrap s0.fresh c [(cause, tval at_ cause)])) ∧
      (((s.part c.p).group id).valid = false →
        exec (.mst u l a b x) s = .next (raiseTrap s c [(17, BitVec.ofNat 64 (id * 2 ^ 56 + at_))])))

/-! ## Relations, sequencers begun, continuations, deques, registers, launches -/

/-- R171, R267 to R269, R153, R372. `arriveLane` and `parkLane` are one lane's arrival and one lane's row. -/
def Obligations.RelationRetirement : Prop :=
  ∀ (u : Bool) (sc a k rid : Nat) (s : State) (c : Ctx) (g : WorkGroup) (w : Warp), Issues s c g w → rid < 256 → k < 8 →
    let word := BitVec.ofNat 64 (c.word % 2 ^ 32)
    let gone : State → LaneStatus → State := fun t st => (retireTo (t.modWarp c.p c.wg c.wid fun v => v.retireLanes c.lanes st) c []).settle c.p
    let all : List Instr := [.exit, .group u sc k rid, .groupWide u sc (256 * k + rid), .join u sc a k rid, .joinWide u sc a (256 * k + rid),
      .park u sc a, .parkWide u sc a 0]
    (w.trap.hm = true → ∀ i ∈ all, exec i s = .next (raiseTrap s c [(0, word)])) ∧
    (w.trap.hm = false → ¬NoResults c w → ∀ i ∈ all, exec i s = .next (awaitOwn s c)) ∧
    (w.trap.hm = false → NoResults c w →
      exec .exit s = .next (gone s .exited) ∧
      ∀ x, (s.work c.p).launch g.seq = some x →
        ((∃ l ∈ c.lanes, s.laneOpen c.p c.wg c.wid l = true) → OperandsOk c w c.lanes [] [(a, 1)] →
          (∀ sch, schemaFor x g sc (some k) = some sch → sch.beyond w = none →
            ∀ i ∈ ([.group u sc k rid, .groupWide u sc (256 * k + rid), .join u sc a k rid, .joinWide u sc a (256 * k + rid)] : List Instr),
              exec i s = .next (stall s c)) ∧
          ∀ sch, schemaFor x g sc none = some sch → sch.beyond w = none →
            ∀ i ∈ ([.park u sc a, .parkWide u sc a 0] : List Instr), exec i s = .next (stall s c)) ∧
        ((∀ l ∈ c.lanes, s.laneOpen c.p c.wg c.wid l = false) →
        (∀ sch, schemaFor x g sc (some k) = some sch → sch.beyond w = none →
          (∀ s1, arriveAll (fun t l => arriveLane c g w sch none ⟨false, k, rid, sc, 0⟩ t l) s c.lanes = (s1, c.lanes, []) →
            exec (.group u sc k rid) s = .next (gone s1 .arrived) ∧ exec (.groupWide u sc (256 * k + rid)) s = .next (gone s1 .arrived)) ∧
          ∀ s1, OperandsOk c w c.lanes [] [(a, 1)] →
            arriveAll (fun t l => arriveLane c g w sch (some a) ⟨true, k, rid, sc, (w.reg a l).toNat⟩ t l) s c.lanes = (s1, c.lanes, []) →
            exec (.join u sc a k rid) s = .next (gone s1 .arrived) ∧ exec (.joinWide u sc a (256 * k + rid)) s = .next (gone s1 .arrived)) ∧
        ∀ sch, schemaFor x g sc none = some sch → sch.beyond w = none → OperandsOk c w c.lanes [] [(a, 1)] → ∀ s1,
          parkAll (fun t l => parkLane c w sch sc a t l) s c.lanes = (s1, c.lanes, none) →
          exec (.park u sc a) s = .next (gone s1 .parked) ∧ exec (.parkWide u sc a 0) s = .next (gone s1 .parked)))

/-- R271, R272, R47, R149. That the version of a RELSEAL becomes current as its operation completes, or as the next RELSEAL of its table
issues, is the model's reading (log 92). -/
def Obligations.TableInstructionsComplete : Prop :=
  (∀ (u : Bool) (d a k : Nat) (s : State) (c : Ctx) (g : WorkGroup) (w : Warp), Issues s c g w → w.relCount < 63 → c.readers u = [k] →
    let t := (w.reg a k).toNat
    let x := s.part c.p
    let counted : State → List (Nat × Word) → State := fun s1 vs =>
      (answer s1 c fun _ => vs).modWarp c.p c.wg c.wid fun v => { v with rel := v.rel ++ [s.ids] }
    t ≤ 4095 →
    (OperandsOk c w [k] [(d, 1)] [(a, 1)] →
      (find x.tables t = none → x.tables.length < 4096 → 512 ≤ x.tpsize - x.pool →
        exec (.relopen u d a) s = .next (counted (s.fresh.modPart c.p fun _ =>
          { x with pool := x.pool + 512, tables := put x.tables t ⟨none, some ⟨1, none, [], 0⟩, []⟩ }) [(d, 1)])) ∧
      (∀ tb, find x.tables t = some tb →
        (∀ v, tb.pend = some v → exec (.relopen u d a) s = .next (counted (s.fresh.modPart c.p fun _ => x) [(d, BitVec.ofNat 32 v.num)])) ∧
        (tb.pend = none → 256 ≤ x.tpsize - x.pool →
          let n := match tb.cur with
            | some v => v.num + 1
            | none => 1
          exec (.relopen u d a) s = .next (counted (s.fresh.modPart c.p fun _ =>
            { x with pool := x.pool + 256, tables := put x.tables t { tb with pend := some ⟨n, none, [], 0⟩ } }) [(d, BitVec.ofNat 32 n)])) ∧
        (∀ v, tb.pend = some v → v.num < 2 ^ 32 → s.laneOpen c.p c.wg c.wid k = false → (∀ e ∈ (s.work c.p).seals, e.2 ≠ t) →
          exec (.relseal u d a) s = .next (counted (((s.fresh.sealWhere c.p (·.2 == t)).drainLane c.p c.wg c.wid k).modWork c.p fun y =>
            { y with seals := y.seals ++ [(s.ids, t)] }) [(d, BitVec.ofNat 32 v.num)]))) ∧
      (s.laneOpen c.p c.wg c.wid k = true → exec (.relseal u d a) s = .next (stall s c)) ∧
      ((find x.tables t = none ∨ ∃ tb, find x.tables t = some tb ∧ tb.pend = none) → s.laneOpen c.p c.wg c.wid k = false →
        (∀ e ∈ (s.work c.p).seals, e.2 ≠ t) → ∃ t', exec (.relseal u d a) s = .next (raiseTrap t' c [(12, relTval 0 t 0 0 0)]))) ∧
    (OperandsOk c w [k] [(d, 2)] [(a, 1)] →
      (∀ tb, find x.tables t = some tb → exec (.relcnt u d a) s = .next (counted (s.fresh.acquireOn c.p g.core) (match tb.cur with
        | some v => [(d, BitVec.ofNat 32 v.rows.length), (d + 1, BitVec.ofNat 32 v.num)]
        | none => [(d, 0), (d + 1, 0)]))) ∧
      (find x.tables t = none → ∃ t', exec (.relcnt u d a) s = .next (raiseTrap t' c [(12, relTval 0 t 0 0 0)])))) ∧
  ∀ (s : State) (p wg wid n : Nat) (r : List Nat) (w : Warp), s.issue = .part [p, wg, wid] → s.warp p wg wid = some w → w.rel = n :: r →
    exec .relationOperationComplete s = .next ((s.sealWhere p (·.1 == n)).modWarp p wg wid fun w => { w with rel := w.rel.tail }) ∧
    ∀ t tb v, (s.work p).seals.filter (·.1 == n) = [(n, t)] → find (s.part p).tables t = some tb → tb.pend = some v → v.num < 2 ^ 32 →
      ∃ tb', find ((s.sealWhere p (·.1 == n)).part p).tables t = some tb' ∧ tb'.cur = some v ∧ tb'.pend = none

/-- R15, R142, R273, R65, R149. -/
def Obligations.SequencersBegin : Prop :=
  (∀ (u : Bool) (a cls : Nat) (s : State) (c : Ctx) (g : WorkGroup) (w : Warp), Issues s c g w → w.trap.hm = false →
    let waits : WaitKind → State := fun kd => ((stall s c).modWarp c.p c.wg c.wid fun v => v.modLanes c.lanes fun y => { y with hold := .pend }).modWork
      c.p fun v => { v with waiters := v.waiters ++ [⟨kd, c.wg, c.wid, c.lanes⟩] }
    (∀ x, (s.work c.p).launch g.seq = some x → (s.work c.p).engCountOf c.wg w < 63 → 1 ≤ cls → cls ≤ 3 → a ≤ 120 → x.rcd.program cls ≠ 0 →
      (cls = 2 → s.noCopyEngine c.p = false) → OperandsOk c w [c.l0] [] ((List.range 8).map fun i => (a + i, 1)) →
      let sregs := (List.range 8).map fun i => w.reg (a + i) c.l0
      (∀ e, s.forkEngine c.p g cls = some e → ∃ s1 q, exec (.fork u a cls) s = .next (retire s1 c) ∧
        (s1.work c.p).seqs = (s.work c.p).seqs ++ [q] ∧ q.cls = cls ∧ q.wg = g.id ∧ q.seq = g.seq ∧ q.priv = g.priv ∧ q.engine = e ∧
        q.cur = Cursor.at ((x.rcd.program cls).setWidth 56) ∧ q.regs = sregs ++ List.replicate 24 0 ∧ q.cmds = []) ∧
      (s.forkEngine c.p g cls = none → exec (.fork u a cls) s = .next (waits (.fork cls sregs)))) ∧
    ((s.work c.p).seqsOf c.wg = [] → exec .rdv s = .next (retire s c)) ∧
    ((s.work c.p).seqsOf c.wg ≠ [] → exec .rdv s = .next (waits .rdv))) ∧
  (∀ (s : State) (p n cls e : Nat) (sregs : List Word) (wt : Waiter) (g : WorkGroup) (x : Launch), s.issue = .part [p, n] →
    (s.work p).waiters[n]? = some wt → wt.kind = .fork cls sregs → (s.work p).wg wt.wg = some g → (s.work p).launch g.seq = some x →
    s.forkEngine p g cls = some e → ∃ t q, exec .sequencerStart s = .next t ∧ (t.work p).seqs = (s.work p).seqs ++ [q] ∧ q.cls = cls ∧
      q.wg = g.id ∧ q.regs = sregs ++ List.replicate 24 0 ∧ (t.work p).waiters = (s.work p).waiters.filter (· ≠ wt)) ∧
  ∀ (s : State) (p wg wid : Nat), s.issue = .part [p, wg, wid] →
    exec .engineCounterOperationComplete s = .next (s.modWarp p wg wid fun w =>
      match w.eng.find? fun t => !(s.gates.any fun e => e.2.queued.any fun q => q.2 == t) with
      | some t => { w with eng := w.eng.filter (· ≠ t) }
      | none => w)

/-- R274 to R276, R279, R139, R140. -/
def Obligations.ContinuationsAndDeques : Prop :=
  ∀ (u : Bool) (d a k : Nat) (s : State) (c : Ctx) (g : WorkGroup) (w : Warp), Issues s c g w → c.readers u = [k] →
    let va := (w.pair a k).toNat
    let counted : State → List (Nat × Word) → State := fun s1 vs =>
      (answer s1 c fun _ => vs).modWarp c.p c.wg c.wid fun v => { v with eng := v.eng ++ [s.ids] }
    let pair : Nat → List (Nat × Word) := fun v => [(d, BitVec.ofNat 32 v), (d + 1, BitVec.ofNat 32 (v / 2 ^ 32))]
    ((s.work c.p).engCountOf c.wg w < 63 → s.laneOpen c.p c.wg c.wid k = true →
      (OperandsOk c w [k] [] [(a, 2)] → exec (.cpush u a) s = .next (stall s c) ∧ exec (.jcdec u a) s = .next (stall s c)) ∧
      (OperandsOk c w [k] [(d, 1)] [(a, 2)] → exec (.dqpush u d a) s = .next (stall s c)) ∧
      (OperandsOk c w [k] [(d, 2)] [(a, 2)] → exec (.launch u d a) s = .next (stall s c))) ∧
    ((s.work c.p).engCountOf c.wg w < 63 → s.laneOpen c.p c.wg c.wid k = false →
      (OperandsOk c w [k] [] [(a, 2)] →
        (∀ s1 v rc, s.fresh.laneRead c g w k va 32 = .ok (s1, v) → contRec v true = some rc → (s1.part c.p).ringFull rc.prio = false →
          exec (.cpush u a) s = .next (counted ((s1.drainLane c.p c.wg c.wid k).pushCont c.p g.seq rc v) [])) ∧
        (∀ s1 v rc, s.fresh.laneRead c g w k va 32 = .ok (s1, v) → contRec v true = some rc → (s1.part c.p).ringFull rc.prio = true →
          ∃ t, exec (.cpush u a) s = .next (raiseTrap t c [(15, BitVec.ofNat 64 rc.prio)]) ∧ t.parts = s.parts ∧ t.mem = s.mem) ∧
        (let acc : Acc := ⟨k, va, 64, .atomic, true⟩
         let s1 := (s.fresh.fillAll c g [acc]).drainLane c.p c.wg c.wid k
         let pa := (s1.landing c g w acc).1
         let n := ofBytes ((List.range 8).map fun i => s1.mem.byte (pa + i))
         let s2 := ((s1.hasRead g.core false (fun _ => false) pa 8).acquireOn c.p g.core).writeAt c.p [(c.wg, c.wid, k)] (privOf g w) pa
           (bytesOf 8 (n - 1))
         let v := ofBytes (s2.readAt c.p (pa + 32) 32)
         let done : State → State := fun s3 => (retire s3 c).modWarp c.p c.wg c.wid fun y => { y with eng := y.eng ++ [s.ids] }
         s.fresh.accCheck c g w acc = none → s1.placeOf c.p pa = .mem → s1.mem.poisoned pa 8 = false →
           (n = 0 ∨ 2 ^ 63 ≤ n → ∃ t, exec (.jcdec u a) s = .next (raiseTrap t c [(16, BitVec.ofNat 64 va)]) ∧ t.mem = s.mem) ∧
           ((s.fresh.drainLane c.p c.wg c.wid k).badParent c g w k va = false →
             (1 < n → n < 2 ^ 63 → exec (.jcdec u a) s = .next (done s2)) ∧
             ∀ rc, n = 1 → s1.mem.poisoned (pa + 32) 32 = false → contRec v false = some rc →
               exec (.jcdec u a) s = .next (done (s2.pushCont c.p g.seq rc v))))) ∧
      (OperandsOk c w [k] [(d, 1)] [(a, 2)] →
        (w.pair a k ≠ 0xFFFFFFFFFFFFFFFF →
          let q := (s.coreOf g.core).deque
          ((q.owner = 0 ∨ q.owner = g.seq) ∧ q.entries.length < 8192 →
            exec (.dqpush u d a) s = .next (counted ((s.fresh.drainLane c.p c.wg c.wid k).modCore g.core fun x =>
              { x with deque := ⟨g.seq, q.entries ++ [w.pair a k]⟩ }) [(d, 1)])) ∧
          (¬((q.owner = 0 ∨ q.owner = g.seq) ∧ q.entries.length < 8192) → exec (.dqpush u d a) s = .next (counted s.fresh [(d, 0)]))) ∧
        (w.pair a k = 0xFFFFFFFFFFFFFFFF → ∃ t, exec (.dqpush u d a) s = .next (raiseTrap t c [(1, BitVec.ofNat 64 (c.word % 2 ^ 32))]))) ∧
      (OperandsOk c w [k] [(d, 2)] [(a, 2)] → ∀ s1 v, s.fresh.laneRead c g w k va 256 = .ok (s1, v) →
        exec (.launch u d a) s = .next (counted ((s1.drainLane c.p c.wg c.wid k).accept (agentOf c g w) g.priv v)
          (pair (s1.part c.p).nextSeq)))) ∧
    (OperandsOk c w [] [(d, 2)] [] →
      let q := (s.coreOf g.core).deque
      (q.owner = g.seq → q.entries ≠ [] → exec (.dqpop u d) s =
        .next (answer ((s.modCore g.core fun x => { x with deque := { q with entries := q.entries.dropLast } }).acquireOn c.p g.core) c fun _ =>
          pair (q.entries.getLastD 0).toNat)) ∧
      (q.owner ≠ g.seq ∨ q.entries = [] → exec (.dqpop u d) s = .next (answer s c fun _ => [(d, 0xFFFFFFFF), (d + 1, 0xFFFFFFFF)]))) ∧
    (OperandsOk c w [k] [(d, 2)] [(a, 1)] →
      let n := (w.reg a k).toNat
      let q := (s.coreOf n).deque
      (ownsCore c.p n = true → q.owner = g.seq → ∀ e r, q.entries = e :: r → exec (.dqsteal u d a) s =
        .next (answer (((s.modCore n fun x => { x with deque := ⟨q.owner, r⟩ }).freeDeques c.p).acquireOn c.p g.core) c fun _ => pair e.toNat)) ∧
      (ownsCore c.p n = false ∨ q.owner ≠ g.seq ∨ q.entries = [] → exec (.dqsteal u d a) s =
        .next (answer s c fun _ => [(d, 0xFFFFFFFF), (d + 1, 0xFFFFFFFF)])))

/-- R277, R278, R34, R35. -/
def Obligations.RegisterAllocationChanges : Prop :=
  (∀ (u : Bool) (n : Nat) (s : State) (c : Ctx) (g : WorkGroup) (w : Warp), Issues s c g w → w.trap.hm = false →
    let illegal := Host.Outcome.next (raiseTrap s c [(1, BitVec.ofNat 64 (c.word % 2 ^ 32))])
    let held := (s.work c.p).groupGranules g
    (n = 0 → exec (.reggrow u n) s = illegal) ∧
    (1 ≤ n → n ≤ w.alloc → exec (.reggrow u n) s = .next (retire s c)) ∧
    (1 ≤ n → w.alloc < n → 16 < n ∨ 256 < held + (n - w.alloc) →
      exec (.reggrow u n) s = .next (raiseTrap s c [(3, BitVec.ofNat 64 (n % 256 + held % 512 * 65536))])) ∧
    (1 ≤ n → w.alloc < n → n ≤ 16 → held + (n - w.alloc) ≤ 256 → (s.work c.p).growQueue g.core = [] →
      (s.work c.p).usedGranules g.core + (n - w.alloc) ≤ 256 →
      exec (.reggrow u n) s = .next (retire (s.modWarp c.p c.wg c.wid fun v => v.grow n) c)) ∧
    (n = 0 ∨ 16 < n → exec (.regshrink u n) s = illegal) ∧
    (1 ≤ n → n ≤ 16 → w.alloc ≤ n → exec (.regshrink u n) s = .next (retire s c)) ∧
    (1 ≤ n → n ≤ 16 → n < w.alloc → w.awaitsAbove (8 * n) = false → (s.work c.p).growQueue g.core = [] →
      ∃ t v, exec (.regshrink u n) s = .next t ∧ t.warp c.p c.wg c.wid = some v ∧ v.alloc = n ∧
        ∀ r l, l < 32 → v.reg r l = (if 8 * n ≤ r then 0 else w.reg r l))) ∧
  (∀ (w : Warp) (n r l : Nat), l < 32 → w.alloc ≤ n → (∀ e ∈ w.regs, e.1 < 256 * w.alloc) →
    (w.grow n).alloc = n ∧ (w.grow n).reg r l = (if 8 * w.alloc ≤ r then 0 else w.reg r l)) ∧
  ∀ (s : State) (p core n : Nat) (x : Waiter) (g : WorkGroup) (w : Warp), s.issue = .part [p, core] → (s.work p).growQueue core = [(x, n)] →
    (s.work p).wg x.wg = some g → g.warp x.wid = some w → (s.work p).usedGranules core + (n - w.alloc) ≤ 256 →
    exec .reggrowGrant s = .next (((s.modWarp p x.wg x.wid fun v => v.grow n).releaseWaiter p x []).growDeadlock p core)

/-! ## Traps, handlers, registers of control, system instructions -/

/-- R367, R369, R373, R58, R309. A warp is in handler mode exactly while its work-group is `.handling` it: a handler is entered and left
with both (HandlerEntryAndReturn). -/
def Obligations.TrapIsTaken : Prop :=
  ∀ (s : State) (c : Ctx) (g : WorkGroup) (w : Warp) (bit : Nat) (tval : DWord), Issues s c g w → bit < 28 →
    (w.trap.hm = true → g.halt = .handling c.wid) →
    let t := raiseTrap s c [(bit, tval)]
    ∃ h v, (t.work c.p).wg c.wg = some h ∧ h.warp c.wid = some v ∧
      v.masks = w.masks ∧ v.regs = w.regs ∧ v.poison = w.poison ∧ v.alloc = w.alloc ∧ v.retired = w.retired ∧
      v.trap.cause = w.trap.cause ||| BitVec.ofNat 32 (2 ^ bit) ∧
      findD v.trap.tvals bit 0 = (if w.trap.cause.getLsbD bit then findD w.trap.tvals bit 0 else tval) ∧
      Spared s t ∧ t.bb = s.bb ∧ (t.work c.p).seqs = (s.work c.p).seqs ∧
      (w.trap.hm = false → h.halt = (if g.halt = .running then .stopping c.wid else g.halt) ∧ v.lanes = w.lanes ∧ v.trap.hm = false ∧ v.trap.hcur = w.trap.hcur) ∧
      (w.trap.hm = true → h.halt = .handling c.wid ∧ v.trap.hm = true ∧
        v.trap.hcur = w.trap.hcur.past (min c.size (max 1 w.trap.hcur.rem)) ∧
        ∀ l, (v.lane l).cur = (w.lane l).cur ∧ (v.lane l).status = (w.lane l).status ∧ (v.lane l).hold = (w.lane l).hold)

/-- R302; R377. -/
def Obligations.TrapBreakpointAndTimer : Prop :=
  (∀ (s : State) (c : Ctx) (g : WorkGroup) (w : Warp), Issues s c g w →
    let owes := ∃ l ∈ c.lanes, ∃ r ∈ (w.lane l).results, r.hm = w.trap.hm
    (¬owes → exec .trap s = .next ((retire s c).raiseWarp c.p c.wg c.wid 5 (BitVec.ofNat 64 (c.word % 2 ^ 7))) ∧
      exec .bkpt s = .next (raiseTrap s c [(6, (w.pcOf c).setWidth 64)])) ∧
    (owes → exec .trap s = .next (awaitResults s c) ∧ exec .bkpt s = .next (awaitResults s c))) ∧
  ∀ (s : State) (p wg wid same : Nat) (g : WorkGroup) (w : Warp) (x : Launch), s.issue = .part [p, wg, wid, same] →
    (s.work p).wg wg = some g → g.warp wid = some w → (s.work p).launch g.seq = some x → w.phase.armed = true →
    w.phase.budget * (16 + x.rcd.phmargin) < 16 * w.phase.count →
    let tval := BitVec.ofNat 64 (w.phase.count % 2 ^ 32 * 2 ^ 32 + w.phase.budget)
    (g.halt = .running → exec .phaseTimerExpiry s =
      .next ((s.modWarp p wg wid fun v => { v with phase := { v.phase with armed := false } }).raiseWarp p wg wid 9 tval)) ∧
    ∀ k, g.halt = .stopping k → ∃ t h v, exec .phaseTimerExpiry s = .next t ∧ (t.work p).wg wg = some h ∧ h.warp wid = some v ∧
      h.halt = .stopping (if same = 1 ∧ wid % 32 < k % 32 then wid else k) ∧ v.phase.armed = false ∧
      v.trap.cause = w.trap.cause ||| 2 ^ 9 ∧ findD v.trap.tvals 9 0 = (if w.trap.cause.getLsbD 9 then findD w.trap.tvals 9 0 else tval)

/-- R303, R371, R373. `resumeGroup` restores the lanes' PCs from the edits made through HPC, leaves handler mode and lets the work-group run;
`settle` is the end of the slot. -/
def Obligations.HandlerEntryAndReturn : Prop :=
  (∀ (s : State) (p wg wid b : Nat) (g : WorkGroup) (w : Warp), s.issue = .part [p, wg] → (s.work p).wg wg = some g → g.warp wid = some w →
    g.halt = .stopping wid → g.pre = 0 → g.resultsReady = true → s.handlerOf p g ≠ 0 → lowestBit w.trap.cause = some b →
    ∃ t h v, exec .handlerEntry s = .next t ∧ (t.work p).wg wg = some h ∧ h.warp wid = some v ∧ h.halt = .handling wid ∧
      v.trap.hm = true ∧ v.trap.cur = b ∧ v.trap.cause = w.trap.cause &&& ~~~(BitVec.ofNat 32 (2 ^ b)) ∧
      v.trap.tval = findD w.trap.tvals b 0 ∧ v.trap.hcur = Cursor.at (s.handlerOf p g) ∧ v.masks = w.masks ∧
      (∀ l, (v.lane l).cur = (w.lane l).cur)) ∧
  (∀ (m : Word) (b : Nat), lowestBit m = some b ↔ b < 32 ∧ m.getLsbD b = true ∧ ∀ i, i < b → m.getLsbD i = false) ∧
  ∀ (s : State) (c : Ctx) (g : WorkGroup) (w : Warp), Issues s c g w →
    (w.trap.hm = false → exec .trapret s = .next (raiseTrap s c [(0, BitVec.ofNat 64 (c.word % 2 ^ 32))])) ∧
    (w.trap.hm = true → (∀ l ∈ c.lanes, ∀ r ∈ (w.lane l).results, r.hm = false) →
      (∃ l ∈ c.lanes, s.storeOpen c.p c.wg c.wid l true = true) → exec .trapret s = .next (stall s c)) ∧
    (w.trap.hm = true → (∀ l ∈ c.lanes, ∀ r ∈ (w.lane l).results, r.hm = false) →
      (∀ l ∈ c.lanes, s.storeOpen c.p c.wg c.wid l true = false) →
      let h := s.handlerOf c.p g
      let s1 := (s.drainWhere c.p fun x => x.hm && x.wg == c.wg && x.wid == c.wid && !x.bytes.isEmpty).modWarp c.p c.wg c.wid fun w => { w with retired := w.retired + 1 }
      ∀ g1 w1, (s1.work c.p).wg c.wg = some g1 → g1.warp c.wid = some w1 →
      (w1.trap.cause ≠ 0 → exec .trapret s = .next ((s1.modWg c.p c.wg fun y => y.enterHandler c.wid h).settle c.p)) ∧
      (w1.trap.cause = 0 → ∀ k, (∃ v ∈ g1.warps, v.wid = k ∧ v.trap.cause ≠ 0) →
        (∀ v ∈ g1.warps, v.trap.cause ≠ 0 → k % 32 < v.wid % 32 ∨ v.wid = k) →
        exec .trapret s = .next ((s1.modWg c.p c.wg fun y =>
          (y.modWarp c.wid fun v => { v with trap := { v.trap with hm := false } }).enterHandler k h).settle c.p)) ∧
      ((∀ v ∈ g1.warps, v.trap.cause = 0) → exec .trapret s = .next ((resumeGroup s1 c.p c.wg).settle c.p)))

/-- R309, R310. -/
def Obligations.ControlRegistersReadAndWritten : Prop :=
  ∀ (u : Bool) (d a n : Nat) (s : State) (c : Ctx) (g : WorkGroup) (w : Warp), Issues s c g w →
    let illegal := Host.Outcome.next (raiseTrap s c [(1, BitVec.ofNat 64 (c.word % 2 ^ 32))])
    let x := (s.work c.p).launch g.seq
    let t := w.trap
    let hpc : Nat := ((find t.edits t.hlane).getD (w.lane t.hlane).cur.pc).toNat
    (13 ≤ n → exec (.csrr u d n) s = illegal ∧ exec (.csrw u a n) s = illegal) ∧
    (OperandsOk c w [c.l0] [(d, 2)] [] →
      ∀ e ∈ ([(0, 1, if t.hm then t.cause.toNat else 0), (1, 1, if t.hm then t.tval.toNat else 0),
          (2, 0, t.cur * 2 ^ 16 + t.hlane * 2 ^ 8 + (if t.ss then 16 else 0) + (if t.hm then 4 else 0) + privOf g w),
          (3, 1, if t.hm then hpc else 0), (4, 1, if t.hm then t.skid else 0), (5, 1, w.retired),
          (6, 1, w.phase.count % 2 ^ 32 * 2 ^ 32 + w.phase.budget), (7, 1, (x.map fun y => y.rcd.livetab.toNat).getD 0),
          (8, 0, (x.map fun y => y.energy / 1000).getD 0), (9, 0, s.time),
          (10, 2, s.power.floor * 2 ^ 32 + s.power.held), (11, 2, (s.part c.p).gatebase.toNat),
          (12, 0, (if (s.part c.p).clk.err then 2 ^ 31 else 0) + (s.part c.p).clk.group * 2 ^ 16 + (s.part c.p).clk.mhz)] :
          List (Nat × Nat × Nat)),
        e.2.1 ≤ privOf g w → exec (.csrr u d e.1) s = .next (answer s c fun _ =>
          [(d, BitVec.ofNat 32 e.2.2), (d + 1, BitVec.ofNat 32 (e.2.2 / 2 ^ 32))])) ∧
    ((n = 1 ∨ n = 4 ∨ n = 5 ∨ n = 7 ∨ n = 8 ∨ n = 9 ∨ n = 12) → exec (.csrw u a n) s = illegal) ∧
    (OperandsOk c w [c.l0] [] [(a, 2)] →
      let v := w.pair a c.l0
      let lo := v.toNat % 2 ^ 32
      let set : (Warp → Warp) → State := fun f => s.modWarp c.p c.wg c.wid f
      (1 ≤ privOf g w →
        (t.hm = false → exec (.csrw u a 0) s = illegal ∧ exec (.csrw u a 3) s = illegal) ∧
        (t.hm = true →
          exec (.csrw u a 0) s = .next (retire (set fun y => { y with trap := { y.trap with
            cause := y.trap.cause &&& ~~~(BitVec.ofNat 32 lo), tvals := y.trap.tvals.filter fun e => !lo.testBit e.1 } }) c) ∧
          (v.toNat % 4 = 0 → v.toNat < 2 ^ 56 → (w.lane t.hlane).status = .running →
            ∃ s1 y, exec (.csrw u a 3) s = .next (retire s1 c) ∧ s1.warp c.p c.wg c.wid = some y ∧ y.lanes = w.lanes ∧
              find y.trap.edits t.hlane = some (BitVec.ofNat 56 v.toNat)) ∧
          (v.toNat % 4 ≠ 0 ∨ 2 ^ 56 ≤ v.toNat → exec (.csrw u a 3) s = illegal)) ∧
        (v.toNat / 2 ^ 21 = 0 → v.toNat / 2 ^ 13 % 8 = 0 → v.toNat / 2 ^ 5 % 8 = 0 → v.toNat / 2 ^ 3 % 2 = 0 →
          exec (.csrw u a 2) s = .next (retire (set fun y =>
            { y with trap := { t with hlane := v.toNat / 2 ^ 8 % 32, ss := decide (v.toNat / 2 ^ 4 % 2 = 1) } }) c)) ∧
        (v.toNat / 2 ^ 21 ≠ 0 ∨ v.toNat / 2 ^ 13 % 8 ≠ 0 ∨ v.toNat / 2 ^ 5 % 8 ≠ 0 ∨ v.toNat / 2 ^ 3 % 2 ≠ 0 → exec (.csrw u a 2) s = illegal) ∧
        exec (.csrw u a 6) s = .next (retire (set fun y => { y with phase := { y.phase with budget := lo } }) c)) ∧
      (3 ≤ privOf g w →
        exec (.csrw u a 10) s = .next (retire (if 320 < v.toNat / 2 ^ 32 % 2 ^ 16 then s
          else { s with power := { s.power with floor := v.toNat / 2 ^ 32 % 2 ^ 16 } }) c) ∧
        exec (.csrw u a 11) s = .next (retire (s.modPart c.p fun y => { y with gatebase := v }) c)))

/-- R300, R301, R309. -/
def Obligations.PrivilegedFormsTrapBelowTheirLevel : Prop :=
  ∀ (u : Bool) (d a b : Nat) (s : State) (c : Ctx) (g : WorkGroup) (w : Warp), Issues s c g w →
    (privOf g w = if w.trap.hm then (if g.priv = 0 then 1 else g.priv) else g.priv) ∧
    ∀ e ∈ ([(.watch u a b, 1), (.tlbinv u a b, 2), (.cinv u a b, 2), (.clklock u a b, 2), (.tokxfer u d a b, 3), (.csrr u d 0, 1), (.csrr u d 1, 1),
        (.csrr u d 3, 1), (.csrr u d 4, 1), (.csrr u d 5, 1), (.csrr u d 6, 1), (.csrr u d 7, 1), (.csrr u d 10, 2), (.csrr u d 11, 2),
        (.csrw u a 0, 1), (.csrw u a 2, 1), (.csrw u a 3, 1), (.csrw u a 6, 1), (.csrw u a 10, 3), (.csrw u a 11, 3)] : List (Instr × Nat)),
      privOf g w < e.2 → exec e.1 s = .next (raiseTrap s c [(4, BitVec.ofNat 64 (c.word % 2 ^ 32))])

/-- R304 to R307. `late` holds what reads may still find of overwritten words (log 6); that mode 0 changes no L1 and that a nonzero A is an
illegal operand in modes 0 and 2 of TLBINV are the model's reading (logs 6, 96). -/
def Obligations.MaintenanceWatchSleepComplete : Prop :=
  (∀ (u : Bool) (a b : Nat) (s : State) (c : Ctx) (g : WorkGroup) (w : Warp), Issues s c g w →
    let ctl := (w.reg b c.l0).toNat
    let va := (w.pair a c.l0).toNat
    let illegal := Host.Outcome.next (raiseTrap s c [(1, BitVec.ofNat 64 (c.word % 2 ^ 32))])
    (2 ≤ privOf g w → OperandsOk c w [c.l0] [] [(a, 2), (b, 1)] →
      let flushed : (Partition → TlbEntry → Bool) → State := fun gone =>
        let lost := (s.part c.p).tlb.filter (gone (s.part c.p))
        retire (((s.drainLane c.p c.wg c.wid c.l0).modPart c.p fun x =>
          { x with tlb := x.tlb.filter fun t => !gone x t }).drainWhere c.p fun y => !y.spad && y.bytes.any fun e => ctl == 0 || lost.any fun t =>
            decide (leafPa t.leaf.toNat ≤ e.1) && decide (e.1 < leafPa t.leaf.toNat + t.size)) c
      let open_ := s.storeOpen c.p c.wg c.wid c.l0 false
      (open_ = false → ctl = 0 → a = 0 → exec (.tlbinv u a b) s = .next (flushed fun _ _ => true)) ∧
      (open_ = false → ctl = 1 → exec (.tlbinv u a b) s = .next (flushed fun _ t => decide (t.base ≤ va) && decide (va < t.base + t.size))) ∧
      (open_ = false → ctl = 2 → a = 0 → exec (.tlbinv u a b) s = .next (flushed fun x t => t.ofTable x.aliastab)) ∧
      (open_ = true → (ctl = 1 ∨ ctl ≤ 2 ∧ a = 0) → exec (.tlbinv u a b) s = .next (stall s c)) ∧
      (3 ≤ ctl ∨ ctl ≠ 1 ∧ a ≠ 0 → exec (.tlbinv u a b) s = illegal) ∧
      (ctl = 2 ^ 29 → a = 0 → exec (.cinv u a b) s = .next (retire { s with late := s.late.map fun x => x.dropped c.p none } c)) ∧
      (ctl = 3 * 2 ^ 28 → a = 0 → exec (.cinv u a b) s = .next (retire { s with late := s.late.map fun x => x.dropped c.p (some g.core) } c)) ∧
      (∀ (x : Late) (who : Nat × Nat × Nat) (k : Nat) (cached : Bool), x.l1 = true → c.p ∈ x.parts →
        (x.dropped c.p none).shows c.p k who cached = false ∧ (x.dropped c.p (some k)).shows c.p k who cached = false) ∧
      (va % 128 = 0 → s.cinvFault c g va (128 * (ctl % 2 ^ 28)) = none →
        (ctl < 2 ^ 28 → exec (.cinv u a b) s = .next (retire s c)) ∧
        (2 ^ 28 ≤ ctl → ctl < 2 ^ 29 →
          let named : Nat → Bool := fun unit => ((s.walkView c c.l0).spansOf c.p (g.core / 64 / 3) va (128 * (ctl % 2 ^ 28))).any
            fun e => (unitsIn e.1 e.2).contains unit
          let dropped : Late → Late := fun x => if !x.spad && named x.unit then x.dropped c.p none else x
          exec (.cinv u a b) s = .next (retire { s with late := s.late.map dropped } c))) ∧
      (ctl < 2 ^ 29 → va % 128 ≠ 0 → exec (.cinv u a b) s = .next (raiseTrap s c [(21, BitVec.ofNat 64 va)])) ∧
      (2 ^ 30 ≤ ctl → exec (.cinv u a b) s = illegal)) ∧
    (1 ≤ privOf g w → OperandsOk c w [c.l0] [] [(a, 2), (b, 1)] →
      let len := ctl / 2 ^ 4 % 2 ^ 4
      (2 ^ 8 ≤ ctl ∨ 12 < len → exec (.watch u a b) s = illegal) ∧
      (ctl < 2 ^ 8 → len ≤ 12 → va % 2 ^ len ≠ 0 → exec (.watch u a b) s = .next (raiseTrap s c [(21, BitVec.ofNat 64 va)])) ∧
      (ctl < 2 ^ 8 → len ≤ 12 → va % 2 ^ len = 0 → exec (.watch u a b) s = .next (retire (s.modWg c.p c.wg fun h =>
        { h with watch := h.watch.set (ctl % 4) ⟨ctl / 4 % 4, len, va⟩ }) c))) ∧
    (w.trap.hm = false → OperandsOk c w [c.l0] [] [(a, 1)] →
      let n := if (w.reg a c.l0).toNat < 2 ^ 24 then (w.reg a c.l0).toNat else 2 ^ 24
      (n = 0 → exec (.sleep u a) s = .next (retire s c)) ∧
      (0 < n → exec (.sleep u a) s = .next ((retire s c).modWarp c.p c.wg c.wid fun v =>
        v.modLanes c.lanes fun x => { x with hold := .sleep (s.cycle + n) }))) ∧
    (w.trap.hm = true → exec (.sleep u a) s = .next (raiseTrap s c [(0, BitVec.ofNat 64 (c.word % 2 ^ 32))]))) ∧
  ∀ (s : State) (p wg wid l n : Nat) (w : Warp), s.issue = .part [p, wg, wid, l] → s.warp p wg wid = some w → (w.lane l).hold = .sleep n →
    n ≤ s.cycle → exec .sleepWake s = .next (s.modWarp p wg wid fun v =>
      if (v.lane l).hold = .sleep n then { v with lanes := v.lanes.map fun x => if x.hold = .sleep n then { x with hold := .free } else x } else v)

/-- R308. What CLKLOCK does outside the time domain or on an invalid group is the model's reading (log 66), and which clock the clamp sets after
a TOKXFER is its choice (log 88). -/
def Obligations.PowerInstructionsComplete : Prop :=
  (∀ (u : Bool) (d a b : Nat) (s : State) (c : Ctx) (g : WorkGroup) (w : Warp), Issues s c g w →
    let x := (w.reg a c.l0).toNat
    let n := (w.reg b c.l0).toNat
    let illegal := Host.Outcome.next (raiseTrap s c [(1, BitVec.ofNat 64 (c.word % 2 ^ 32))])
    (3 ≤ privOf g w → OperandsOk c w [c.l0] [(d, 1)] [(a, 1), (b, 1)] →
      (2 ^ 16 ≤ x → exec (.tokxfer u d a b) s = illegal) ∧
      (x < 2 ^ 16 → n = 0 ∨ s.power.held - s.power.floor < n → exec (.tokxfer u d a b) s = .next (answer s c fun _ => [(d, 0)])) ∧
      (x < 2 ^ 16 → 0 < n → n ≤ s.power.held - s.power.floor →
        let s1 := { s with power := { s.power with held := s.power.held - n, sent := s.power.sent ++ [(x, n)] } }.bbWrite 0x0602 c.p 0 4 (x * 2 ^ 16 + n)
        exec (.tokxfer u d a b) s = .next (answer (s1.setClock (min s1.power.clock s1.clampClock)) c fun _ => [(d, BitVec.ofNat 32 n)]) ∧
          s1.works = s.works)) ∧
    (2 ≤ privOf g w → OperandsOk c w [c.l0] [] [(a, 1), (b, 1)] →
      let legal := n = 0 ∨ 600 ≤ n ∧ n ≤ 2400 ∧ n % 100 = 0
      let clk := (s.part c.p).clk
      (2 ^ 8 ≤ x ∨ ¬legal → exec (.clklock u a b) s = illegal) ∧
      (x < 2 ^ 8 → legal → s.fabric.inDomain = false ∨ ((s.part c.p).group x).valid = false →
        exec (.clklock u a b) s = .next (retire (s.modPart c.p fun y => { y with clk := { clk with err := true } }) c)) ∧
      (x < 2 ^ 8 → legal → s.fabric.inDomain = true → ((s.part c.p).group x).valid = true → clk.pending = none →
        ∃ t, exec (.clklock u a b) s = .next t ∧ (t.part c.p).clk = { clk with pending := some (x, n, s.time) } ∧
          (t.work c.p).waiters = (s.work c.p).waiters ++ [⟨.clklock x, c.wg, c.wid, if w.trap.hm then [] else c.lanes⟩]))) ∧
  ∀ (s : State) (p a mhz since : Nat) (x : Partition), s.issue = .part [p, a] → s.parts = [(p, x)] → x.clk.pending = some (a, mhz, since) →
    (∀ m ∈ (x.group a).members, m = (s.fabric.module, p)) → slotAt s.fabric.slot (since + 1000) ≤ s.time → (s.work p).waiters = [] →
    (mhz ≤ s.power.clock → exec .clockLockEffect s = .next (s.modPart p fun y => { y with clk := ⟨false, a, mhz, none⟩ })) ∧
    (s.power.clock < mhz → ∃ t : State, exec .clockLockEffect s = .next (t.bbWrite 0x0601 p 0 4 a) ∧ (t.part p).clk = ⟨true, a, 0, none⟩ ∧
      t.works = s.works)

/-- R147 to R150. `Header.ok` is the check of R147. -/
def Obligations.ClauseHeadersAct : Prop :=
  (∀ (s : State) (c : Ctx) (g : WorkGroup) (w : Warp), Issues s c g w → w.trap.hm = false →
    let h := decodeHeader c.word
    (h.ok 0 = false → exec .clauseHeader s = .next (raiseTrap s c [(0, BitVec.ofNat 64 (c.word % 2 ^ 32))])) ∧
    (h.ok 0 = true →
      exec .clauseHeader s = .next ((if h.phase then s.startPhase c.p c.wg c.wid (w.pcOf c - 4) else s).modWarp c.p c.wg c.wid fun v =>
        let y := v.enterClause c.lanes h c.word
        if h.yld ∧ v.trap.hm = false ∧ (∃ l ∈ c.lanes, l ∈ v.turn) then { y with turnEnd := true, turn := c.lanes } else y) ∧
      ∀ l ∈ c.lanes, l < w.lanes.length → ((w.enterClause c.lanes h c.word).lane l).cur = ⟨(w.lane l).cur.next, false, h.count, some (BitVec.ofNat 32 c.word)⟩)) ∧
  (∀ (s : State) (p : Nat) (g : WorkGroup) (w : Warp) (e : List Nat × Next), e ∈ s.runnable p g w → w.trap.hm = false →
    (∀ l ∈ e.1, (w.lane l).cur.hdr = false) → ∀ l ∈ e.1, ∀ word, (w.lane l).cur.first = some word →
    let h := decodeHeader word.toNat
    (h.wld = 15 ∨ w.loadCount ≤ h.wld) ∧ (h.wst = 15 ∨ (s.work p).storeCount g.id w.wid ≤ h.wst) ∧
      (h.wen = 15 ∨ (s.work p).engCountOf g.id w ≤ h.wen) ∧ (h.wrl = 15 ∨ w.relCount ≤ h.wrl)) ∧
  ∀ (s : State) (p word lit : Nat) (q : Seq), SeqIssues s p q word lit →
    let h := decodeHeader word
    (h.ok q.cls = false → exec .clauseHeader s = .next (s.seqTrap p q 0)) ∧
    (h.ok q.cls = true → h.wen < 15 ∧ h.wen < q.cmds.length → exec .clauseHeader s = .next s) ∧
    (h.ok q.cls = true → ¬(h.wen < 15 ∧ h.wen < q.cmds.length) →
      exec .clauseHeader s = .next (s.modSeq p q.id fun y => { y with cur := ⟨y.cur.next, false, h.count, some (BitVec.ofNat 32 word)⟩ }))

/-! ## Sequencers: the scalar set -/

/-- R283, R285, R281, R65. -/
def Obligations.SequencerScalarResults : Prop :=
  ∀ (u : Bool) (d a b i : Nat) (s : State) (p word lit : Nat) (q : Seq), SeqIssues s p q word lit → i < 2 ^ 18 →
    let size := if word / 2 ^ 25 % 64 = 63 then 2 else 1
    let gives : Nat → Word → State := fun r v => s.modSeq p q.id fun y => { y with regs := y.regs.set r v, cur := y.cur.past size }
    let imm : Int := if i < 2 ^ 17 then (i : Int) else (i : Int) - 2 ^ 18
    let target : VAddr := BitVec.ofInt 56 ((q.cur.next.toNat : Int) + 4 * imm)
    let illegal : Host.Outcome State Fault Refusal := .next (s.stopSeq p q true 1 (q.cur.pc - q.base).toNat)
    (d < 32 → a < 32 → exec (.smov u d a) s = .next (gives d (q.reg a))) ∧
    (d < 32 → a < 32 → b < 32 → exec (.sadd u d a b) s = .next (gives d (q.reg a + q.reg b))) ∧
    (d < 32 → exec (.sli u d i) s = .next (gives d (BitVec.ofInt 32 imm))) ∧
    (∀ v, d < 32 → exec (.sliWide d v) s = .next (gives d (BitVec.ofNat 32 v))) ∧
    (a < 32 →
      (q.reg a ≠ 0 → exec (.sbnz u a i) s = .next (s.modSeq p q.id fun y => { y with cur := ⟨target, true, 0, none⟩ })) ∧
      (q.reg a = 0 → exec (.sbnz u a i) s = .next (s.modSeq p q.id fun y => { y with cur := y.cur.past size })) ∧
      (q.reg a ≠ 1 → exec (.sloop u a i) s = .next (s.modSeq p q.id fun y =>
        { y with regs := y.regs.set a (q.reg a - 1), cur := ⟨target, true, 0, none⟩ })) ∧
      (q.reg a = 1 → exec (.sloop u a i) s = .next (gives a 0))) ∧
    (q.cmds = [] → exec .swait s = .next (s.modSeq p q.id fun y => { y with cur := y.cur.past size })) ∧
    (q.cmds ≠ [] → exec .swait s = .next s) ∧
    (q.cmds = [] → exec .endProg s = .next ((s.modSeq p q.id fun y => { y with ending := true }).retireSeq p q.id)) ∧
    (q.cmds ≠ [] → exec .endProg s = .next (s.modSeq p q.id fun y => { y with ending := true })) ∧
    (32 ≤ a → exec (.smov u d a) s = illegal ∧ exec (.sadd u d a b) s = illegal ∧ exec (.sbnz u a i) s = illegal ∧
      exec (.sloop u a i) s = illegal) ∧
    (32 ≤ d → exec (.smov u d a) s = illegal ∧ exec (.sadd u d a b) s = illegal ∧ exec (.sli u d i) s = illegal ∧
      exec (.sliWide d i) s = illegal)

/-- R284, R280, R282, R297, R298, R143. `wrote` and `bridgeAll` keep what reads may still find of overwritten words (logs 6, 84). That TTOP needs
the collective command as the very next instruction is the model's reading (log 50). -/
def Obligations.SequencerFlagsRecordsAndSlots : Prop :=
  (∀ (u : Bool) (d a b : Nat) (s : State) (p word lit : Nat) (q : Seq), SeqIssues s p q word lit → a % 2 = 0 → a + 2 ≤ 32 →
    let size := if word / 2 ^ 25 % 64 = 63 then 2 else 1
    let addr := (q.pair a).toNat
    let on : State → State := fun t => t.modSeq p q.id fun y => { y with cur := y.cur.past size }
    let stops : Nat → Host.Outcome State Fault Refusal := fun t => .next (s.stopSeq p q false t (q.cur.pc - q.base).toNat)
    let le : Nat → Nat → List Byte := fun n v => (List.range n).map fun i => BitVec.ofNat 8 (v / 256 ^ i)
    let path := if q.cls = 4 then 0 else q.cls
    let wide := if q.cls = 4 ∧ addr / 2 ^ 25 = 0x80 * 2 ^ 31 then 5 else 2
    let at_ : Kind → Nat → Nat → Nat → Prop := fun k n pa leaf => addr < 2 ^ 56 ∧ addr % n = 0 ∧
      s.memLoc ⟨p, q.die, q.priv, q.cls == 2⟩ k addr n true = .ok (.mem pa leaf) ∧ leafFmt leaf ≠ 2 ∧ s.placeOf p pa = .mem
    (q.cmds = [] →
      (∀ pa leaf, b < 32 → at_ .write 4 pa leaf → exec (.ssig u a b) s = .next (on { s.wrote false [p] path [] pa 4 with mem := s.mem.write pa (le 4 (q.reg b).toNat) })) ∧
      (∀ pa leaf, b % 2 = 0 → b < 32 → at_ .write 8 pa leaf →
        exec (.ssig64 u a b) s = .next (on { s.wrote false [p] path [] pa 8 with mem := s.mem.write pa (le 8 (q.pair b).toNat) })) ∧
      (∀ pa leaf, b % 2 = 0 → b < 32 → at_ .atomic 8 pa leaf → s.mem.poisoned pa 8 = false → exec (.ssigAdd64 u a b) s =
        .next (on { s.wrote false [p] path [] pa 8 with mem := s.mem.write pa (le 8 ((ofBytes ((List.range 8).map fun i => s.mem.byte (pa + i)) + (q.pair b).toNat) % 2 ^ 64)) })) ∧
      (b < 32 → 2 ^ 56 ≤ addr → exec (.ssig u a b) s = stops wide) ∧ (b < 32 → addr < 2 ^ 56 → addr % 4 ≠ 0 → exec (.ssig u a b) s = stops 4)) ∧
    (q.cmds ≠ [] → (b < 32 → exec (.ssig u a b) s = .next s) ∧
      (b % 2 = 0 → b < 32 → exec (.ssig64 u a b) s = .next s ∧ exec (.ssigAdd64 u a b) s = .next s)) ∧
    (∀ pa leaf, d < 32 → at_ .read 4 pa leaf → s.mem.poisoned pa 4 = false → exec (.slda u d a) s = .next ((s.bridgeAll path).modSeq p q.id fun y =>
      { y with regs := y.regs.set d (BitVec.ofNat 32 (ofBytes ((List.range 4).map fun i => s.mem.byte (pa + i)))), cur := y.cur.past size })) ∧
    (∀ pa leaf, d % 2 = 0 → d < 32 → at_ .read 8 pa leaf → s.mem.poisoned pa 8 = false → exec (.slda64 u d a) s = .next ((s.bridgeAll path).modSeq p q.id fun y =>
      { y with
        regs := (y.regs.set d (BitVec.ofNat 32 (ofBytes ((List.range 4).map fun i => s.mem.byte (pa + i))))).set (d + 1)
          (BitVec.ofNat 32 (ofBytes ((List.range 4).map fun i => s.mem.byte (pa + 4 + i)))),
        cur := y.cur.past size })) ∧
    (d < 32 → (2 ^ 56 ≤ addr → exec (.slda u d a) s = stops wide) ∧ (addr < 2 ^ 56 → addr % 4 ≠ 0 → exec (.slda u d a) s = stops 4)) ∧
    (let gd := findD (s.work p).guidons q.cluster ⟨[], []⟩
     d % 4 = 0 → d + 4 ≤ 32 →
      (∀ e r, gd.events = e :: r →
        let taken : Seq → Seq := fun y =>
          let z := y.setReg d (BitVec.ofNat 32 (e.stat * 2 ^ 8 + e.src))
          let z := ((z.setReg (d + 1) 0).setReg (d + 2) (e.tag.setWidth 32)).setReg (d + 3) ((e.tag >>> 32).setWidth 32)
          { z with cur := z.cur.past size }
        let t := (s.modWork p fun x => { x with guidons := put x.guidons q.cluster { gd with events := r } }).modSeq p q.id taken
        exec (.evpop u d) s = .next t ∧ exec (.evwait u d) s = .next t) ∧
      (gd.events = [] → exec (.evpop u d) s = .next (s.modSeq p q.id fun y =>
          { y with regs := y.regs.set d 0xFFFFFFFF, cur := y.cur.past size }) ∧ exec (.evwait u d) s = .next s)) ∧
    (s.nextIsCollective p q = true → exec (.ttop u a) s = .next (s.modSeq p q.id fun y =>
      { y with ttop := some (q.pair a).toNat, cur := y.cur.past size })) ∧
    (s.nextIsCollective p q = false → exec (.ttop u a) s = .next (s.stopSeq p q true 0 (q.cur.pc - q.base).toNat))) ∧
  ∀ (s : State) (p cid t : Nat) (q : Seq) (c : Command) (op : CmdOp) (args : List Nat), s.issue = .part [p, q.id, cid] →
    (s.work p).seqOf q.id = some q → q.cmd cid = some c → c.wait = .slot t op args →
    let begun : CmdWait → State := fun wait =>
      let f : Command → Command := fun z => { z with wait := wait }
      s.modSeq p q.id fun y => { y with cmds := updFirst (·.id == cid) f y.cmds }
    let failed : Nat → State := fun stat =>
      let f : Command → Command := fun z => { z with wait := .done, stat := stat }
      s.modSeq p q.id fun y => { y with cmds := updFirst (·.id == cid) f y.cmds }
    (s.time < t → exec .ttopSlotStart s = .next s) ∧
    (t ≤ s.time → s.time < t + s.fabric.slot → op = .egjoin ∨ op = .egleave → s.hasAbsent p (args.getD 0 0) = true →
      exec .ttopSlotStart s = .next (failed 10)) ∧
    (t ≤ s.time → s.time < t + s.fabric.slot → s.hasAbsent p (args.getD 0 0) = false →
      ∀ e ∈ [(CmdOp.egjoin, true), (.egleave, false)], op = e.1 → exec .ttopSlotStart s = .next ((begun (.round (args.getD 0 0) (args.getD 1 0))).request p q.id cid (args.getD 1 0) (args.getD 0 0) e.2)) ∧
    (t ≤ s.time → s.time < t + s.fabric.slot → ∀ a v o ms d, op = .coll → c.collOf = some (a, v, o, ms, d) →
      exec .ttopSlotStart s = .next ((s.modSeq p q.id fun y => { y with cmds := updFirst (·.id == cid) (fun z =>
        ({ z with wait := .coll a v o ms d, since := s.time } : Command)) y.cmds }).tryColl p a v o ms)) ∧
    (t + s.fabric.slot ≤ s.time → ∀ a v o ms d, op = .coll → c.collOf = some (a, v, o, ms, d) →
      exec .ttopSlotStart s = .next (s.failColl p a v o ms 11)) ∧
    (t + s.fabric.slot ≤ s.time → op = .egjoin ∨ op = .egleave → exec .ttopSlotStart s = .next (failed 11))

/-! ## Commands of the engines -/

/-- R250 to R264, R281. Rows: the instruction, its command, the operands it holds. That an ACCRD whose output leaves the own space fails for
that (STAT 5) before it fails for its alignment is the model's reading (log 95). -/
def Obligations.MatrixCommandsIssue : Prop :=
  ∀ (u n : Bool) (t a b d : Nat) (s : State) (p word lit : Nat) (q : Seq), SeqIssues s p q word lit → a < 32 → b < 32 → d < 32 →
    let size := if word / 2 ^ 25 % 64 = 63 then 2 else 1
    let issued : CmdWait → Nat → State := fun wait stat => ({ s with ids := s.ids + 1 }).modSeq p q.id fun y =>
      { y with
        cmds := y.cmds ++ [(⟨s.ids, stat, bitsOf word 24 24 == 1, q.pair 30, (q.cur.pc - q.base).toNat, wait, [], 0, false, none, none, s.time⟩ : Command)]
        ttop := none, cur := y.cur.past size }
    let traps : Nat → Host.Outcome State Fault Refusal := fun cause => .next (s.stopSeq p q true cause (q.cur.pc - q.base).toNat)
    let va := (q.reg a).toNat
    let rows := (q.reg b).toNat
    let lo := rows % 64
    let k := rows / 256 % 128
    let rowsOk := rows < 2 ^ 15 ∧ rows / 64 % 4 = 0 ∧ 0 < k ∧ lo + k ≤ 64
    let cfgOk := va < 2 ^ 30 ∧ va / 2 ^ 28 ≤ 1 ∧ va / 32 % 2048 = 0 ∧ 1 ≤ va % 32 ∧ va % 32 ≤ 16
    let byRows : List (Instr × CmdOp) := [(.twr u n t a b, .twr), (.accrd u n t a b, .accrd false), (.accrdClr u n t a b, .accrd true)]
    let rowForms : List (Instr × CmdOp) := [(.tzeroRows u n t b, .tzero), (.accnormRows u n t b, .accnorm)]
    let whole : List (Instr × CmdOp) := [(.tzero u n t, .tzero), (.accnorm u n t, .accnorm)]
    let products : List (Instr × CmdOp) := [(.mma u n t a, .mma), (.mmas u n t a, .mmas)]
    let free := q.cmds.length < 63
    let tile := (s.coreOf (s.seqCore p q)).tiles.getD t Tile.zero
    let row := tile.rows.getD rows TileRow.zero
    (free → t < 8 →
      (cfgOk → exec (.tcfg u n t a) s = .next (issued (.todo .tcfg [t, va]) 0)) ∧ (¬cfgOk → exec (.tcfg u n t a) s = traps 1) ∧
      (∀ e ∈ whole, exec e.1 s = .next (issued (.todo e.2 [t]) 0)) ∧
      (rowsOk → ∀ e ∈ rowForms, exec e.1 s = .next (issued (.todo e.2 [t, 0, lo, k]) 0)) ∧
      (rowsOk → va % 4 = 0 → ∀ e ∈ byRows, exec e.1 s = .next (issued (.todo e.2 [t, va, lo, k]) 0)) ∧
      (rowsOk → va % 4 ≠ 0 → exec (.twr u n t a b) s = .next (issued .done 4) ∧
        let outside := (s.ownNats p q.wg 1 [(va, 64 * (if tile.ofmt = 1 then 2 else 4) * k)]).isNone
        ∀ e ∈ [Instr.accrd u n t a b, .accrdClr u n t a b], exec e s = .next (issued .done (if outside then 5 else 4))) ∧
      (¬rowsOk → ∀ e ∈ rowForms ++ byRows, exec e.1 s = traps 1) ∧
      (∀ e ∈ products, exec e.1 s = .next (issued (.todo e.2 [t, va]) 0)) ∧
      (s.seqCore p q % 4 = 0 → exec (.mmao u n t a) s = .next (issued (.todo .mmao [t, va]) 0)) ∧
      (s.seqCore p q % 4 ≠ 0 → exec (.mmao u n t a) s = traps 0) ∧
      let gives : Word → State := fun v => (issued .done 0).modSeq p q.id fun y => { y with regs := y.regs.set d v }
      ((∀ c ∈ q.cmds, c.tile ≠ some t) →
        (rows < 64 → exec (.acchrRow u n d t b) s =
            .next (gives (BitVec.ofNat 32 (row.l * 2 ^ 16 + (if row.n then 128 else 0) + row.headroom))) ∧
          exec (.acchrExp u n d t b) s = .next (gives (BitVec.ofInt 32 row.e))) ∧
        exec (.acchrTile u n d t) s = .next (gives (BitVec.ofNat 32 (((tile.rows.map fun r => r.l).foldl max 0) * 2 ^ 16 +
          (if ∃ r ∈ tile.rows, r.n = true then 128 else 0) + ((tile.rows.filter fun r => r.n == false).map TileRow.headroom).foldl min 39)))) ∧
      (64 ≤ rows → exec (.acchrRow u n d t b) s = traps 1 ∧ exec (.acchrExp u n d t b) s = traps 1) ∧
      ((∃ c ∈ q.cmds, c.tile = some t) → exec (.acchrTile u n d t) s = .next s)) ∧
    (free → 8 ≤ t → ∀ e ∈ byRows ++ rowForms ++ whole ++ products, exec e.1 s = traps 1) ∧
    (¬free → ∀ e ∈ byRows ++ rowForms ++ whole ++ products, exec e.1 s = .next s) ∧
    (va < 256 → q.cmds = [] → exec (.msync u n a) s = .next (issued .done 0)) ∧ (va < 256 → q.cmds ≠ [] → exec (.msync u n a) s = .next s) ∧
    (256 ≤ va → exec (.msync u n a) s = traps 1)

/-- R281, R286 to R292, R295, R296, R341, R412. That COLL of a group that does not hold the partition is STAT 12 (log 48), which STAT the read
of a record gives (log 47), and that AGSET takes effect when it completes (log 51) are the model's reading; `% 256` tells the STAT 6 of
consumed poison, 262, apart. -/
def Obligations.CopyAndCollectiveCommandsIssue : Prop :=
  ∀ (u n : Bool) (d a b f : Nat) (s : State) (p word lit : Nat) (q : Seq), SeqIssues s p q word lit → q.cmds.length < 63 →
    d % 2 = 0 → d < 32 → a % 2 = 0 → a < 32 → b % 2 = 0 → b + 4 ≤ 32 →
    let size := if word / 2 ^ 25 % 64 = 63 then 2 else 1
    let cmd : CmdWait → Nat → Option Nat → Option Nat → Command := fun wait stat group bound =>
      ⟨s.ids, stat, bitsOf word 24 24 == 1, q.pair 30, (q.cur.pc - q.base).toNat, wait, [], 0, false, group, bound, s.time⟩
    let issue : State → Command → State := fun t c => ({ t with ids := t.ids + 1 }).modSeq p q.id fun y =>
      { y with cmds := y.cmds ++ [c], ttop := none, cur := y.cur.past size }
    let issued : CmdWait → Nat → State := fun wait stat => issue s (cmd wait stat none none)
    let ended : Nat → State := fun e => issue (if e = 262 then s.bbWrite 0x0202 p q.die 1 6 else s) (cmd .done (e % 256) none none)
    let traps : Nat → Host.Outcome State Fault Refusal := fun cause => .next (s.stopSeq p q true cause (q.cur.pc - q.base).toNat)
    let x : Nat → Nat := fun r => (q.pair r).toNat
    let r32 : Nat → Nat := fun r => (q.reg r).toNat
    (∀ e ∈ ([(.cpy u n d a b, .cpy, [x d, x a, x b]), (.gather u n d a b, .gather, [x d, x a, x b, x (b + 2)]),
        (.scatter u n d a b, .scatter, [x d, x a, x b, x (b + 2)]), (.stage u n a b, .stage, [x a, x b]),
        (.topk u n d a b, .topk, [x d, x a, r32 b, r32 (b + 1)])] : List (Instr × CmdOp × List Nat)),
      exec e.1 s = .next (issued (.todo e.2.1 e.2.2) 0)) ∧
    (2 ≤ q.priv → exec (.agset u n a b) s = .next (issued (.todo .agset [r32 a, x b]) 0)) ∧ (q.priv < 2 → exec (.agset u n a b) s = traps 4) ∧
    ((f = 2 → s.seqCore p q % 4 = 0) →
      (r32 (b + 2) < 2 ^ 28 → r32 (b + 3) = 0 →
        (r32 (b + 2) % 64 = 0 → exec (.cpym u n f d a b) s =
          .next (issued (.todo (.cpym f) [x d, x a, x b, r32 (b + 2) / 2 ^ 25, r32 (b + 2) % 2 ^ 25]) 0)) ∧
        (r32 (b + 2) % 64 ≠ 0 → exec (.cpym u n f d a b) s = .next (issued .done 14))) ∧
      (2 ^ 28 ≤ r32 (b + 2) ∨ r32 (b + 3) ≠ 0 → exec (.cpym u n f d a b) s = .next (issued .done 13))) ∧
    (s.seqCore p q % 4 ≠ 0 → exec (.cpym u n 2 d a b) s = traps 0) ∧
    (4096 ≤ r32 a → exec (.emblk u n d a b) s = .next (issued .done 13)) ∧
    (∀ v pa, r32 a < 4096 → s.binding p (r32 a) = .ok v → s.busyAt p (r32 a) v.slot = .ok pa → exec (.emblk u n d a b) s =
      .next (issue (s.busy p pa true)
        { cmd (.todo .emblk [x d, x b, x (b + 2), r32 a, v.slot, v.rows, v.shardlog, v.dirbase, v.rowlen]) 0 none (some pa) with
          id := (s.busy p pa true).ids })) ∧
    (∀ e, r32 a < 4096 → s.binding p (r32 a) = .error e → exec (.emblk u n d a b) s = .next (ended e)) ∧
    (∀ v e, r32 a < 4096 → s.binding p (r32 a) = .ok v → s.busyAt p (r32 a) v.slot = .error e →
      exec (.emblk u n d a b) s = .next (ended e)) ∧
    (∀ v, s.fetchRecord p q (x a) 64 = .ok v →
      let c := collDesc v
      (s.member p ((s.part p).group c.ag) = false → exec (.coll u n a) s = .next (issued .done (if c.ok v then 12 else 13))) ∧
      (s.member p ((s.part p).group c.ag) = true → exec (.coll u n a) s = .next (s.collStart p q word v c))) ∧
    (∀ e, s.fetchRecord p q (x a) 64 = .error e → exec (.coll u n a) s = .next (ended e)) ∧
    let id := r32 a % 256
    let s0 := s.findAbsent p id
    ∀ e ∈ ([(.egjoin u n d a, true), (.egleave u n d a, false)] : List (Instr × Bool)),
      (∀ st, s0.elasticStat p q id e.2 = some st → exec e.1 s = .next (issue s0 { cmd .done st (some id) none with id := s0.ids })) ∧
      (s0.elasticStat p q id e.2 = none → s0.begins q = .now → exec e.1 s =
        .next ((issue s0 { cmd (.round id d) 0 (some id) none with id := s0.ids }).request p q.id s0.ids d id e.2)) ∧
      (((s0.part p).group id).valid = false ∨ ((s0.part p).group id).elastic = false ∨
          ((s0.part p).group id).members.contains (s.fabric.module, p) = e.2 → s0.elasticStat p q id e.2 = some 12)

/-- R281, R287, R250 to R254, R261, R143, R400, R401. That products go on in turns and every other effect comes in one step, at completion, is
the model's choice (log 22); `endCmd` tells the STAT 6 of consumed poison, 262, apart. -/
def Obligations.CommandsHaveTheirEffects : Prop :=
  ∀ (s : State) (p cid : Nat) (q : Seq) (c : Command), s.issue = .part [p, q.id, cid] → (s.work p).seqOf q.id = some q → q.cmd cid = some c →
    let ended : State → Nat → State := fun t stat => (t.endCmd p q.id cid stat).finishCmd p q.id cid
    let stands : State → Nat → State := fun t stat =>
      let ends : Command → Command := fun z => { z with wait := .done, stat := stat }
      t.modSeq p q.id fun y => { y with cmds := updFirst (·.id == cid) ends y.cmds }
    (∀ stat, stat < 256 → s.endCmd p q.id cid stat = stands s stat) ∧
    s.endCmd p q.id cid 262 = stands (s.bbWrite 0x0202 p q.die 1 6) 6 ∧
    let core := s.seqCore p q
    let owns := (s.coreOf core).owner = q.wg
    (∀ op args, c.wait = .todo op args → (∀ t, c.tile = some t → ∀ y ∈ q.cmds.takeWhile (·.id != cid), y.tile ≠ some t) →
      (¬owns → op ∈ [CmdOp.tcfg, .tzero, .twr, .accrd true, .accrd false, .accnorm] →
        exec .engineCommandComplete s = .next (ended s 9)) ∧
      (owns →
        let t := args.getD 0 0
        let a := args.getD 1 0
        let tile := (s.coreOf core).tiles.getD t Tile.zero
        let set : Tile → State := fun y => s.modCore core fun z => { z with tiles := z.tiles.set t y }
        let rows : (TileRow → TileRow) → Tile := fun g =>
          let one : Nat × TileRow → TileRow := fun e => if args.getD 2 0 ≤ e.1 ∧ e.1 < args.getD 2 0 + args.getD 3 64 then g e.2 else e.2
          { tile with rows := ((List.range tile.rows.length).zip tile.rows).map one }
        (op = .tcfg → exec .engineCommandComplete s = .next (ended (set (tile.config a)) 0)) ∧
        (op = .tzero → exec .engineCommandComplete s = .next (ended (set (rows fun _ => TileRow.reset tile.einit)) 0)) ∧
        (op = .accnorm → exec .engineCommandComplete s = .next (ended (set (rows (TileRow.norm tile.h))) 0)) ∧
        (op = .twr → let r := s.tileWrite p q t a (args.getD 2 0) (args.getD 3 64)
          exec .engineCommandComplete s = .next (ended r.1 r.2)) ∧
        (∀ clear, op = .accrd clear → let r := s.tileRead p q clear t a (args.getD 2 0) (args.getD 3 64)
          exec .engineCommandComplete s = .next (ended r.1 r.2))) ∧
      (∀ e ∈ [(CmdOp.mma, 0), (.mmas, 1), (.mmao, 2)], op = e.1 → exec .engineCommandComplete s =
        .next ((s.productBegin p q cid e.2 (args.getD 0 0) (args.getD 1 0)).finishCmd p q.id cid)) ∧
      (op ∈ [CmdOp.cpy, .gather, .scatter, .stage, .topk] → let r := s.copyEffect p q op args
        exec .engineCommandComplete s = .next (ended r.1 r.2)) ∧
      (op = .agset → let r := s.agsetRun p q (args.getD 0 0) (args.getD 1 0)
        exec .engineCommandComplete s = .next (ended r.1 r.2)) ∧
      (∀ f, op = .cpym f → let r := s.copyRun p q (args.getD 0 0) (args.getD 1 0) (args.getD 2 0)
        let goes : Command → Command := fun z => { z with wait := .follow f (args.getD 3 0) (args.getD 4 0) }
        exec .cpymFollowOn s = .next (if r.2 = 0 then r.1.modSeq p q.id fun y => { y with cmds := updFirst (·.id == cid) goes y.cmds }
          else r.1.endCmd p q.id cid r.2))) ∧
    (∀ kind t v k data d, c.wait = .product kind t v k data d → exec .engineCommandComplete s =
      .next ((s.productTurn p q cid kind t v k data d).finishCmd p q.id cid)) ∧
    (∀ f t block, c.wait = .follow f t block → exec .cpymFollowOn s = .next ((s.bridgePath 2 1).productBegin p q cid f t block)) ∧
    (∀ kind t block, block % 64 ≠ 0 → s.productBegin p q cid kind t block = stands s 14) ∧
    (∀ kind t block v b, ¬owns → block % 64 = 0 → s.ownNat p q.wg 64 block 64 = some (v, false) → opBlock v (kind == 1) = some b →
      s.stepsInSpace p q.wg kind b = true → b.nstep ≠ 0 → ∀ data, s.readStep p q.wg kind b 0 = some (data, false) →
      (b.stepOf kind data).isSome → s.productBegin p q cid kind t block = stands s 9) ∧
    (c.wait = .done → c.tiles = [] → c.close = false →
      let gone : State → State := fun t =>
        let left := t.modSeq p q.id fun y => { y with cmds := y.cmds.filter (·.id != cid) }
        (c.bound.map fun pa => left.busy p pa false).getD left
      let goesOn := q.ending = false ∧ q.stopped = false ∧ q.discard = false
      (c.notify = false → c.stat = 0 → goesOn → exec .engineCommandComplete s = .next (gone s)) ∧
      (∀ gd, c.notify = true → findD (s.work p).guidons q.cluster ⟨[], []⟩ = gd →
        (gd.events.length < 256 → c.stat = 0 → goesOn → exec .engineCommandComplete s = .next (gone (s.modWork p fun w =>
          { w with guidons := put w.guidons q.cluster { gd with events := gd.events ++ [⟨q.cls, c.stat, c.tag⟩] } }))) ∧
        (256 ≤ gd.events.length → exec .engineCommandComplete s = .next s)) ∧
      (c.notify = false → c.stat ≠ 0 → exec .engineCommandComplete s = .next (((gone s).stopSeq p q false c.stat c.pcoff).endIfDone p q.id)))

/-! ## What commands of the engines write -/

/-- R117 to R119, R245, R252, R255, R256, R260. How many port steps a row takes in a turn is the model's choice (log 22), and what reads may
still find of overwritten words is told by `late` (log 84). -/
def Obligations.TileContentsAfterCommands : Prop :=
  (∀ (h : Nat) (xs : List Pair) (r : TileRow), 1 ≤ h → h ≤ 16 → xs.length = 64 → r.m.length = 64 → -2048 ≤ r.e →
    let add : Pair → Int := fun x => if r.e ≤ x.2 then x.1 * 2 ^ (x.2 - r.e).toNat else x.1 / 2 ^ (r.e - x.2).toNat
    let lost := ∃ x ∈ xs, x.2 < r.e ∧ x.1 % 2 ^ (r.e - x.2).toNat ≠ 0
    let sums := (r.m.zip xs).map fun e => e.1 + add e.2
    let room : Int := 39 - ((sums.map sigBits).foldl max 0 : Nat)
    let n := (h - room).toNat
    (r.n = true → r.apply h (.add xs) = r) ∧
    (r.n = false → (h : Int) ≤ room → (lost → r.apply h (.add xs) = { r with m := sums, l := min (r.l + 1) 65535 }) ∧
      (¬lost → r.apply h (.add xs) = { r with m := sums })) ∧
    (r.n = false → room < h → 2047 < r.e + n → r.apply h (.add xs) = { r with n := true }) ∧
    (r.n = false → room < h → r.e + n ≤ 2047 →
      r.apply h (.add xs) = TileRow.apply h { r with m := r.m.map fun x => rneShift x n, e := r.e + n } (.add xs))) ∧
  (∀ (x : Int) (n : Nat), (2 * 2 ^ n * rneShift x n - 2 * x).natAbs ≤ 2 ^ n ∧
    ((2 * 2 ^ n * rneShift x n - 2 * x).natAbs = 2 ^ n → rneShift x n % 2 = 0)) ∧
  (∀ (h : Nat) (r : TileRow), r.apply h .invalid = { r with n := true }) ∧
  (∀ (x : Int) (b : Nat), sigBits x ≤ b ↔ -2 ^ b ≤ x ∧ x < 2 ^ b) ∧
  (∀ (s : State) (p : Nat) (q : Seq) (t base lo n : Nat) (key : Nat → Nat), t < 8 → lo + n ≤ 64 → 0 < n →
    let core := s.seqCore p q
    let tile := (s.coreOf core).tiles.getD t Tile.zero
    (s.coreOf core).tiles.length = 8 → tile.rows.length = 64 →
    let size := if tile.ofmt = 1 then 2 else 4
    ((∀ x ∈ s.late, 769 ∈ x.seen) → (∀ i, i < 64 * n → s.seqSpad p q.wg true (base + 4 * i) 4 = some (key i) ∧ s.spad.poisoned (key i) 4 = false) →
      ∃ y : Tile, s.tileWrite p q t base lo n = (s.setTile core t y, 0) ∧ y.h = tile.h ∧ y.einit = tile.einit ∧ y.ofmt = tile.ofmt ∧
        y.rows.length = 64 ∧ ∀ r, r < 64 → (r < lo ∨ lo + n ≤ r → y.rows[r]? = tile.rows[r]?) ∧
          (lo ≤ r → r < lo + n →
            let bits : Nat → Nat := fun j => ofBytes (s.spad.bytes (key (64 * (r - lo) + j)) 4)
            let fresh : TileRow := ⟨List.replicate 64 0, tile.einit, 0, false⟩
            ((∃ j, j < 64 ∧ bits j / 2 ^ 23 % 256 = 255) → y.rows[r]? = some { fresh with n := true }) ∧
            ((∀ j, j < 64 → bits j / 2 ^ 23 % 256 ≠ 255) → y.rows[r]? = some (fresh.apply tile.h (.add ((List.range 64).map fun j =>
              let e : Nat := bits j / 2 ^ 23 % 256
              let m : Nat := if e = 0 then bits j % 2 ^ 23 else 2 ^ 23 + bits j % 2 ^ 23
              (if ((bits j / 2 ^ 31 % 2 : Nat) = 1) then -(m : Int) else (m : Int), if e = 0 then -149 else (e : Int) - 150))))))) ∧
    (∀ clear, (∀ i, i < 16 * size * n → s.seqSpad p q.wg true (base + 4 * i) 4 = some (key i)) →
      (∀ i j, i < 16 * size * n → j < 16 * size * n → i ≠ j → key i + 4 ≤ key j ∨ key j + 4 ≤ key i) →
      ∃ s1, s.tileRead p q clear t base lo n = (s1, 0) ∧ s1.mem = s.mem ∧ s1.works = s.works ∧
        (∀ i j b, i < n → j < 64 → b < size →
          let o := size * (64 * i + j) + b
          s1.spad.byte (key (o / 4) + o % 4) =
            BitVec.ofNat 8 (((tile.rows.getD (lo + i) TileRow.zero).read tile.ofmt j) / 256 ^ b)) ∧
        (∀ k, (∀ i, i < 16 * size * n → k < key i ∨ key i + 4 ≤ k) → s1.spad.byte k = s.spad.byte k) ∧
        ∀ r, r < 64 → ((s1.coreOf core).tiles.getD t Tile.zero).rows[r]? =
          if clear = true ∧ lo ≤ r ∧ r < lo + n then some ⟨List.replicate 64 0, tile.einit, 0, false⟩ else tile.rows[r]?)) ∧
  (∀ (r : TileRow) (ofmt j : Nat), r.m.length = 64 → j < 64 →
    (r.n = true → r.read ofmt j = if ofmt = 1 then 0x7FC0 else 0x7FC00000) ∧ (r.n = false → r.m[j]? = some 0 → r.read ofmt j = 0)) ∧
  (∀ (s : State) (p cid kind t v k : Nat) (q : Seq) (data done : List Nat) (b : OpBlock) (x : Step), t < 8 → done.length = 64 →
    let core := s.seqCore p q
    let tile := (s.coreOf core).tiles.getD t Tile.zero
    (s.coreOf core).tiles.length = 8 → tile.rows.length = 64 → opBlock v (kind == 1) = some b → b.stepOf kind data = some x →
    (∃ r, r < 64 ∧ done.getD r 0 < (x.events kind r).length) →
    ∃ took : Nat → Nat, (∃ r, r < 64 ∧ 0 < took r ∧ done.getD r 0 < (x.events kind r).length) ∧
      let y : Tile := { tile with rows := (List.range 64).map fun r =>
        (((x.events kind r).drop (done.getD r 0)).take (took r)).foldl (TileRow.apply tile.h) (tile.rows.getD r TileRow.zero) }
      s.productTurn p q cid kind t v k data done =
        if ∀ r, r < 64 → (x.events kind r).length ≤ done.getD r 0 + took r then (s.setTile core t y).productStep p q cid kind t v (k + 1)
        else (s.setTile core t y).modCmd p q.id cid fun c =>
          { c with wait := .product kind t v k data ((List.range 64).map fun r => done.getD r 0 + took r) }) ∧
  (∀ (x : Step) (r : Nat), x.events 0 r = [x.main false 0 r, x.main false 1 r]) ∧
  (∀ (x : Step) (h r : Nat), h < 2 → r < 64 →
    let ga := x.ga.getD (2 * r + h) (false, 0)
    let gb : Nat → Bool × Int := fun j => x.gb.getD (2 * j + h) (false, 0)
    (ga.1 = true ∨ (∃ j, j < 64 ∧ (gb j).1 = true) → x.main false h r = .invalid) ∧
    (ga.1 = false → (∀ j, j < 64 → (gb j).1 = false) → x.main false h r = .add ((List.range 64).map fun j =>
      (((List.range 64).map fun i => if x.live j ((64 * h + i) / 16) = true then
          stagedInt x.a (128 * r + (64 * h + i)) * stagedInt x.b (128 * j + (64 * h + i)) else 0).sum,
        ga.2 - ((x.a.length : Int) - 2) + ((gb j).2 - ((x.b.length : Int) - 2)))))) ∧
  ∀ (ps : List Nat) (i : Nat), ps ≠ [] →
    stagedInt ps i = ((List.range (ps.length - 1)).map fun b => if (ps.getD b 0).testBit i then (2 : Int) ^ b else 0).sum -
      (if (ps.getD (ps.length - 1) 0).testBit i then 2 ^ (ps.length - 1) else 0)

/-- R286, R288 to R291, R293, R341, R245 to R247. That a command's rows move in one turn and in order is the model's choice (log 22), and what
reads may still find of overwritten words is told by `late` (log 84). `step` moves one sound word, `row` a row of them. -/
def Obligations.CopiedWordsAndExchanges : Prop :=
  ∀ (p : Nat) (q : Seq),
    let step : State → Nat → Nat → State → Prop := fun a src dst b => ∃ bs, a.fetch p q src 4 = .ok (bs, false) ∧
      a.deposit p q dst bs false = .ok b ∧ b.mem.poison = []
    let row : State → Nat → Nat → Nat → State → Prop := fun a src dst len b => ∃ f : Nat → State, f 0 = a ∧ f (len / 4) = b ∧
      ∀ w, w < len / 4 → step (f w) (src + 4 * w) (dst + 4 * w) (f (w + 1))
    (∀ (s : State) (a pa leaf : Nat) (bs : List Byte), a % 4 = 0 → bs.length = 4 → leafFmt leaf ≠ 2 → s.placeOf p pa = .mem →
      (s.resolve p q .read a 4 = .ok (.mem pa leaf) → (∀ x ∈ s.late, 768 + q.path ∈ x.seen) →
        s.fetch p q a 4 = .ok (s.mem.bytes pa 4, s.mem.poisoned pa 4)) ∧
      (s.resolve p q .write a 4 = .ok (.mem pa leaf) →
        s.deposit p q a bs false = .ok { s.wrote false [p] q.path [] pa 4 with mem := s.mem.write pa bs })) ∧
    (∀ (s : State) (a k : Nat) (bs : List Byte), a % 4 = 0 → bs.length = 4 →
      (s.resolve p q .read a 4 = .ok (.spad k) → (∀ x ∈ s.late, 768 + q.path ∈ x.seen) →
        s.fetch p q a 4 = .ok (s.spad.bytes k 4, s.spad.poisoned k 4)) ∧
      (s.resolve p q .write a 4 = .ok (.spad k) →
        s.deposit p q a bs false = .ok { s.wrote true [p] q.path [] k 4 with spad := s.spad.write k bs })) ∧
    (∀ (s : State) (dst src shape list : Nat) (x : Shape), s.fetchShape p q shape = .ok x →
      x.len % 4 = 0 → x.sstride % 4 = 0 → x.dstride % 4 = 0 → src % 4 = 0 → dst % 4 = 0 →
      (x.rows = 0 ∨ (x.rows - 1) * x.dstride + x.len ≤ x.bound → ∀ (f : Nat → State) (n : Nat), f 0 = s → n ≤ x.rows →
        (∀ r, r < n → row (f r) (src + r * x.sstride) (dst + r * x.dstride) x.len (f (r + 1))) →
        (n = x.rows → s.copyRun p q dst src shape = (f n, 0)) ∧
        (n < x.rows → ∀ (w : Nat) (b : State), w < x.len / 4 → row (f n) (src + n * x.sstride) (dst + n * x.dstride) (4 * w) b →
          let from_ := src + n * x.sstride + 4 * w
          (∀ e, b.fetch p q from_ 4 = .error e → s.copyRun p q dst src shape = (b, e)) ∧
          ∀ bs e, b.fetch p q from_ 4 = .ok (bs, false) → b.deposit p q (dst + n * x.dstride + 4 * w) bs false = .error e →
            s.copyRun p q dst src shape = (b, e))) ∧
      (∀ (idx : Nat → Nat), list % 4 = 0 → (∀ i, i < x.rows → s.fetchNat p q (list + 4 * i) 4 = .ok (idx i)) →
        ∀ f : Nat → State, f 0 = s →
        ((∀ i, i < x.rows → i * x.dstride + x.len ≤ x.bound) →
          (∀ i, i < x.rows → row (f i) (src + idx i * x.sstride) (dst + i * x.dstride) x.len (f (i + 1))) →
          s.indexRun p q false dst src shape list = (f x.rows, 0)) ∧
        ((∀ i, i < x.rows → idx i * x.dstride + x.len ≤ x.bound) →
          (∀ i, i < x.rows → row (f i) (src + i * x.sstride) (dst + idx i * x.dstride) x.len (f (i + 1))) →
          s.indexRun p q true dst src shape list = (f x.rows, 0)))) ∧
    (∀ (s : State) (cid dst shape list t : Nat) (b : Binding) (x : Shape) (idx : Nat → Nat), s.fetchShape p q shape = .ok x →
      dst % 4 = 0 → x.dstride % 4 = 0 → list % 4 = 0 → x.len = b.rowlen → x.rows = 0 ∨ (x.rows - 1) * x.dstride + x.len ≤ x.bound →
      (∀ i, i < x.rows → s.fetchNat p q (list + 4 * i) 4 = .ok (idx i) ∧ idx i < b.rows) →
      ∀ (f g : Nat → State) (ws : Nat → List (List Byte × Bool)), f 0 = s → (∀ i, i < x.rows →
        (f i).lookupRow p q b (idx i) = (g i, .row (ws i)) ∧ (g i).depositWords p q 0 (dst + i * x.dstride) (ws i) = .ok (f (i + 1))) →
      s.emblkRun p q cid [dst, shape, list, t, b.slot, b.rows, b.shardlog, b.dirbase, b.rowlen] = (f x.rows).endCmd p q.id cid 0) ∧
    (∀ (s : State) (b : Binding) (i : Nat) (e : DirEntry), s.dirEntry p b (i / 2 ^ b.shardlog) = .ok e → e.member = (s.fabric.module, p) →
      s.lost p e.member = false → s.reaches p e.member = true →
      let at_ := e.addr + i % 2 ^ b.shardlog * b.rowlen
      ∀ ws : List (List Byte × Bool), ws.length = b.rowlen / 4 →
        (∀ k, k < b.rowlen / 4 → at_ + 4 * k < 2 ^ 56 ∧ s.fetch p q (at_ + 4 * k) 4 = .ok (ws.getD k ([], false))) →
        s.lookupRow p q b i = ({ s.wrote false [p] 2 [] (e.pa + 40) 8 with
          mem := s.mem.write (e.pa + 40) (bytesOf 8 ((s.mem.read (e.pa + 40) 8 + 1) % 2 ^ 64)) }, .row ws)) ∧
    (∀ (s : State) (dst : Nat) (ws : List (List Byte × Bool)) (f : Nat → State), f 0 = s → (∀ k, k < ws.length →
        (f k).deposit p q (dst + 4 * k) (ws.getD k ([], false)).1 false = .ok (f (k + 1)) ∧ (ws.getD k ([], false)).2 = false ∧
        (f (k + 1)).mem.poison = []) → s.depositWords p q 0 dst ws = .ok (f ws.length)) ∧
    (∀ (s : State) (dst src n k rows : Nat), 1 ≤ n → n ≤ 2 ^ 20 → 1 ≤ k → k ≤ 32 → 1 ≤ rows → rows < 2 ^ 16 →
      (∀ i, i < rows → s.stackLocal p q (src + 4 * n * i) (4 * n) = true) →
      ∀ (f : Nat → Nat → State) (v : Nat → Nat), f 0 0 = s →
      (∀ i, i < rows → (f i 0).fetchNat p q (src + 4 * n * i) (4 * n) = .ok (v i) ∧ f i k = f (i + 1) 0 ∧ ∀ e, e < k →
        let x := (topEntries k ((List.range n).map fun j => BitVec.ofNat 32 (v i / 2 ^ (32 * j)))).getD e (0, 0)
        (f i e).deposit p q (dst + 8 * k * i + 8 * e) (bytesOf 4 x.1 ++ bytesOf 4 x.2.toNat) false = .ok (f i (e + 1))) →
      s.topkRun p q dst src n (rows * 64 + k) = (f rows 0, 0)) ∧
    (∀ (k : Nat) (vs : List Word), (topEntries k vs).length = k ∧
      ∀ e, e < k → (vs.length ≤ e → (topEntries k vs)[e]? = some (0xFFFFFFFF, 0xFF800000)) ∧
        (e < vs.length → ∃ i, i < vs.length ∧ (topEntries k vs)[e]? = some (i, vs.getD i 0) ∧
          ((List.range vs.length).filter fun j => above (vs.getD j 0) (vs.getD i 0) ||
            (!above (vs.getD i 0) (vs.getD j 0) && decide (j < i))).length = e)) ∧
    (∀ (s : State) (src desc v : Nat) (x : StageDesc), s.fetchRecord p q desc 32 = .ok v → stageDesc v = .ok x → s.stageFits p q.wg x = true →
      ∀ (f : Nat → State) (st : Nat → Staged) (tail : Nat → List (Nat × Nat)) (n : Nat), f 0 = s → n ≤ 128 * x.nstep →
        (∀ i, i < n → (f i).stageSource p q x src i = .ok (st i, tail i) ∧ f (i + 1) = (f i).stagePut p q.wg x i (st i) (tail i)) →
        (n = 128 * x.nstep → s.stageRun p q src desc = (f n, 0)) ∧
        (n < 128 * x.nstep → ∀ e, (f n).stageSource p q x src n = .error e → s.stageRun p q src desc = (f n, e))) ∧
    (∀ (s : State) (x : StageDesc) (n : Nat) (g : Staged) (tail : List (Nat × Nat)) (key : Nat → Nat),
      let i := n % 128
      let planes := (List.range x.p).map fun b => (x.pbase + n / 128 * x.pstep + 1024 * b + 8 * i, planeBytes g.q b)
      let all := planes ++ [(x.expbase + 256 * (n / 128) + 2 * i, bytesOf 2 (if g.invalid then 2 ^ 15 else (g.g % 2 ^ 9).toNat))] ++
        (if x.outbase = 0 then [] else [(x.outbase + 8192 * (n / 128) + 64 * i,
          [BitVec.ofNat 8 tail.length, 0, 0, 0] ++ tail.flatMap fun e => [BitVec.ofNat 8 e.1, 0] ++ bytesOf 2 e.2)])
      (∀ e ∈ all, s.seqSpad p q.wg true e.1 e.2.length = some (key e.1)) →
      s.stagePut p q.wg x n g tail = all.foldl (fun t e => { t.wrote true [p] 2 [] (key e.1) e.2.length with spad := t.spad.write (key e.1) e.2 }) s) ∧
    (∀ (qs : List Int) (b j : Nat), qs.length = 64 → j < 64 →
      (ofBytes (planeBytes qs b)).testBit j = decide (qs.getD j 0 / 2 ^ b % 2 ≠ 0)) ∧
    (∀ (x : CollDesc) (m : List Nat) (n e c i : Nat) (from_ to_ : Bool), x.ndim = 1 → x.mesh = n :: m → x.ext = [e, 1, 1, 1] → 0 < n → 0 < e →
      n ∣ e → c < n →
      x.srclay = [if from_ then 0 else 255, 255, 255, 255] → x.dstlay = [if to_ then 0 else 255, 255, 255, 255] → i < (if to_ then e / n else e) →
      let at_ := if to_ then c * (e / n) + i else i
      let g := x.globalOf x.dstlay (x.coords c) i
      let taken := (x.sources (x.coords c) g).map fun m => (m, x.sourceIndex g)
      productOf (x.shard x.dstlay) = (if to_ then e / n else e) ∧
      (x.spart = 1 → from_ = false → taken = (List.range n).map fun m => (m, at_)) ∧
      (x.spart = 0 → taken = [if from_ then (at_ / (e / n), at_ % (e / n)) else (c, at_)])) ∧
    (∀ (s : State) (ps : List Party) (ms : List Member) (y : Party) (v : Nat → Nat → Nat × Bool),
      let x := y.x
      let at_ : Nat → List Nat := fun i => x.globalOf x.dstlay (x.coords y.index) i
      let from_ : Nat → List Nat := fun i => x.sources (x.coords y.index) (at_ i)
      (∀ i, i < productOf (x.shard x.dstlay) → ∀ m ∈ from_ i, s.sourceElem ps ms m (x.sourceIndex (at_ i)) x.size = .ok (v i m)) →
      s.destShard ps ms y = .ok ((List.range (productOf (x.shard x.dstlay))).map fun i =>
        (x.reduce (s.tick * 2 ^ 32 + i) ((from_ i).map fun m => (v i m).1), (from_ i).any fun m => (v i m).2))) ∧
    (∀ (s : State) (ps : List Party) (ms : List Member) (m i size : Nat) (y : Party), (ps.find? fun z => z.index == m) = some y → y.x.size = size →
      ∀ bs poison, s.fetch y.p y.q (y.x.src + size * i) size = .ok (bs, poison) → s.sourceElem ps ms m i size = .ok (ofBytes bs, poison)) ∧
    (∀ (s : State) (a ver ord : Nat) (ms : List Member) (ps : List Party) (v : Nat → List (Nat × Bool)) (f : Nat → State), f 0 = s →
      (∀ i y, ps[i]? = some y → s.destShard ps ms y = .ok (v i) ∧ (y.x.op = 0 ∨ (v i).all (!·.2) = true) ∧ (f i).putShard y 0 (v i) = (f (i + 1), 0)) →
      s.exchange a ver ord ms ps = ps.foldl (fun t y => t.modCmd y.p y.q.id y.cid fun c => { c with wait := .done, tiles := y.x.tiles }) (f ps.length)) ∧
    ∀ (s : State) (y : Party) (vs : List (Nat × Bool)) (f : Nat → State), f 0 = s → (∀ i, i < vs.length →
        (f i).deposit y.p y.q (y.x.dst + y.x.size * i) (bytesOf y.x.size (vs.getD i (0, false)).1) (vs.getD i (0, false)).2 = .ok (f (i + 1))) →
      s.putShard y 0 vs = (f vs.length, 0)

/-! ## Command queues -/

/-- R124 to R127, R145. That a record of an unreadable header names TYPE 0 (log 97), the die of a queue (log 94), and that waiting counters are
read one by one (log 64) are the model's choice or reading. -/
def Obligations.QueueRegistersAndPackets : Prop :=
  (∀ (s : State) (who p n v : Nat), (s.part p).state = .running → n < 64 →
    let x := (s.part p).queue n
    let sets : Queue → State := fun y => s.modPart p fun z => { z with queues := put z.queues n y }
    let halts : Queue → Nat → State := fun y code => sets { y with state := code, unmet := [], limit := none }
    let ptr : DWord := BitVec.ofNat 64 v
    (s.issue = .part [who, p, n, v] → s.mayWrite who 0 = true → x.state < 4 →
      (2 ^ x.qlog < (ptr - x.qrptr).toNat → exec .qwptrWrite s = .next (halts { x with qwptr := ptr } 4)) ∧
      ((ptr - x.qrptr).toNat ≤ 2 ^ x.qlog → 2 ≤ x.state → exec .qwptrWrite s = .next (sets { x with qwptr := ptr })) ∧
      ((ptr - x.qrptr).toNat ≤ 2 ^ x.qlog → x.state < 2 → exec .qwptrWrite s = .next (sets
        { x with qwptr := ptr, state := if x.en = true ∧ x.qrptr ≠ ptr then 1 else 0 }))) ∧
    (s.issue = .part [who, p, n] →
      (s.mayWrite who 2 = true →
        exec .queueReset s = .next (sets { x with qrptr := 0, qwptr := 0, state := 0, unmet := [], limit := none }) ∧
        (x.state < 2 → x.qbase.toNat % (64 * 2 ^ x.qlog) = 0 → exec .queueEnable s = .next (sets
          { x with en := true, state := if x.qrptr ≠ x.qwptr then 1 else 0 })) ∧
        (x.state < 4 → x.qbase.toNat % (64 * 2 ^ x.qlog) ≠ 0 → exec .queueEnable s = .next (halts { x with en := true } 5))) ∧
      (who < 2 → exec .queueReset s = .next s ∧ exec .queueEnable s = .next s))) ∧
  ∀ (s : State) (p n : Nat), s.issue = .part [p, n] → (s.part p).state = .running →
    let x := (s.part p).queue n
    let g : Agent := ⟨p, homeDie p, (s.part p).queueLevel n, false⟩
    let sets : Queue → State := fun y => s.modPart p fun z => { z with queues := put z.queues n y }
    let halts : Nat → State := fun code => sets { x with state := code, unmet := [], limit := none }
    let pass : State → Nat → State := fun t k => t.modPart p fun z =>
      let y := z.queue n
      let ptr := y.qrptr + BitVec.ofNat 64 k
      { z with queues := put z.queues n { y with qrptr := ptr, unmet := [], limit := none, state := if y.en && ptr != y.qwptr then 1 else 0 } }
    let waits : Nat → List (Nat × Nat) → Nat → Option Nat → State := fun code cs k limit =>
      sets { x with state := code, unmet := cs, slots := k, limit := limit }
    let packets := [Instr.nopPacket, .launchPacket, .fencePacket, .writePacket, .timedPacket]
    (x.en = true → x.state < 2 → x.qrptr ≠ x.qwptr →
      (∀ e, s.packetRead p n 0 8 = .error e → ∀ i ∈ packets, exec i s =
        .next ((halts 7).bbWrite 0x0703 p (homeDie p) 2 (n * 65536))) ∧
      ∀ h, s.packetRead p n 0 8 = .ok h →
        let type := h % 16
        let ctrs := h / 2 ^ 8 % 16
        let slots := if type = 2 then (ctrs + 4) / 4 else 1
        let bad := 5 ≤ type ∨ h / 2 ^ 5 % 8 ≠ 0 ∨ h / 2 ^ 12 % 2 ^ 20 ≠ 0 ∨ type = 2 ∧ (ctrs = 0 ∨ 12 < ctrs)
        (bad → ∀ i ∈ packets, exec i s = .next (halts 5)) ∧
        (¬bad → (x.qwptr - x.qrptr).toNat < slots → ∀ i ∈ packets, exec i s = .next (halts 4)) ∧
        (¬bad → slots ≤ (x.qwptr - x.qrptr).toNat →
          (type = 0 → exec .nopPacket s = .next (pass s 1)) ∧
          (∀ a, type = 1 → s.packetRead p n 8 8 = .ok a →
            (∀ v, a % 256 = 0 → s.agentRead g a 256 = .ok v → exec .launchPacket s = .next (pass (s.accept g g.level v) 1)) ∧
            (a % 256 ≠ 0 → exec .launchPacket s = .next (halts 5))) ∧
          (∀ cs, type = 2 → s.fenceList p n 0 ctrs = .ok cs →
            ((∃ c ∈ cs, c.1 % 8 ≠ 0) → exec .fencePacket s = .next (halts 5)) ∧
            ((∀ c ∈ cs, c.1 % 8 = 0) → ∀ l, s.unmetOf g cs = .ok l →
              (l = [] → exec .fencePacket s = .next (pass s slots)) ∧
              (l ≠ [] → exec .fencePacket s = .next (waits 2 l slots
                (if h / 2 ^ 32 = 0 then none else some (s.time + 1000 * (h / 2 ^ 32))))))) ∧
          (∀ a v, type = 3 → s.packetRead p n 8 8 = .ok a → s.packetRead p n 16 8 = .ok v →
            (a % 8 ≠ 0 → exec .writePacket s = .next (halts 5)) ∧
            (∀ pa leaf, a % 8 = 0 → leafFmt leaf ≠ 2 → s.placeOf p pa = .mem →
              let put : Nat → State := fun y => { s.wrote false [p] 0 [] pa 8 with mem := s.mem.write pa ((List.range 8).map fun i => BitVec.ofNat 8 (y / 256 ^ i)) }
              (h / 16 % 2 = 0 → s.memLoc g .write a 8 false = .ok (.mem pa leaf) → exec .writePacket s = .next (pass (put v) 1)) ∧
              (h / 16 % 2 = 1 → s.memLoc g .atomic a 8 true = .ok (.mem pa leaf) → s.mem.poisoned pa 8 = false → exec .writePacket s =
                .next (pass (put ((ofBytes ((List.range 8).map fun i => s.mem.byte (pa + i)) + v) % 2 ^ 64)) 1)))) ∧
          (∀ t, type = 4 → s.packetRead p n 8 8 = .ok t →
            (t ≤ s.time → exec .timedPacket s = .next (pass s 1)) ∧
            (s.time < t → exec .timedPacket s = .next (sets { x with state := 3, limit := some t }))))) ∧
    (x.en = true → x.state = 2 → ∀ l, s.unmetOf g x.unmet = .ok l →
      (l = [] → exec .fenceCountersMet s = .next (pass s x.slots)) ∧
      (l ≠ [] → exec .fenceCountersMet s = .next (waits 2 l x.slots x.limit))) ∧
    (∀ t, x.limit = some t → t ≤ s.time → (x.state = 2 → exec .fenceTimeout s = .next (halts 6)) ∧
      (x.en = true → x.state = 3 → exec .timedReached s = .next (pass s 1)))

/-! ## Placement, completion, withdrawal, pre-emption -/

/-- R134, R136, R137, R143, R144, R52, R53, R65. That an output warp takes the lowest free slot (log 20), the order in which items are tried where
the rules leave it open (log 86), and a launch's share of the energy of the interval it ends in (log 90) are the model's choice. -/
def Obligations.WorkIsPlacedAndLaunchesEnd : Prop :=
  (∀ (s : State) (p : Nat), s.issue = .part [p] → (s.part p).state = .running →
    (∀ l1 e l2 s1 left, (s.work p).tryOrder = l1 ++ e :: l2 → (∀ x ∈ l1, s.placeOne p x.2 = none) → s.placeOne p e.2 = some (s1, left) →
      exec .placeItem s = .next (s1.modWork p fun w => { w with items := w.items.take e.1 ++ left ++ w.items.drop (e.1 + 1) })) ∧
    ((∀ x ∈ (s.work p).tryOrder, s.placeOne p x.2 = none) → exec .placeItem s = .next s)) ∧
  (∀ (s : State) (p n : Nat) (i : Item), s.issue = .part [p, n] → (s.work p).items[n]? = some i →
    let sets : Item → State := fun y => s.modWork p fun w => { w with items := w.items.set n y }
    exec .priorityAging s = .next (sets { i with cls := min i.cls (i.prio - (s.cycle - i.since) / 65536) }) ∧
    (i.since + 1048576 ≤ s.cycle → exec .placementReserve s = .next (sets { i with reserved := true }))) ∧
  (∀ (s : State) (p n j gid idx : Nat) (o : Output) (ts : List NewThread) (rest : List (Nat × List NewThread)) (g : WorkGroup) (l : Launch),
    s.issue = .part [p, n] → (s.part p).state = .running → (s.work p).outputs[n]? = some o → o.warps = (j, ts) :: rest → o.seats[j % max 1 o.seats.length]? = some (gid, idx) →
    (o.seats.length ≤ j → ∀ k, find o.started (j % max 1 o.seats.length) = some k → g.warp k = none) → (s.work p).wg gid = some g → (s.work p).launch o.seq = some l → ((s.work p).usedSlots g.core).length < 32 →
    (s.work p).usedGranules g.core + o.granules ≤ 256 → ∃ t g' key slot, exec .outputWarpStart s = .next t ∧ (t.work p).wg gid = some g' ∧
      g'.warps = g.warps ++ [mkWarp key slot o.granules .zero ts] ∧ slot = ((s.work p).freeSlots g.core).headD 0 ∧ t.mem = s.mem ∧
      t.parts = s.parts ∧ t.cores = s.cores ∧ t.late = (s.acquireOn p g.core).late) ∧
  (∀ (s : State) (p n : Nat) (l : Launch), s.issue = .part [p, n] → (s.work p).launch n = some l →
    let cl := 2 * firstSlice p + l.rcd.gcl
    let pushed : State → State := fun t =>
      let gd := findD (t.work p).guidons cl ⟨[], []⟩
      if l.rcd.even = false ∨ (t.part p).state = .tearing then t.modWork p fun w => { w with launches := drop w.launches l.seq }
      else t.modWork p fun w => { w with
        launches := drop w.launches l.seq
        guidons := put w.guidons cl { gd with events := gd.events ++ [⟨0, 0, BitVec.ofNat 64 l.seq⟩] } }
    let room : State → Prop := fun t => (findD (t.work p).guidons cl ⟨[], []⟩).events.length < 256
    (l.pushing = false → (s.work p).launchDone l = true → room (s.endSteps p l) →
      exec .launchComplete s = .next (pushed (s.endSteps p l))) ∧
    (l.pushing = false → (s.work p).launchDone l = false → exec .launchComplete s = .next s) ∧
    (l.pushing = true → room s → exec .completionRecordPush s = .next (pushed s) ∧ exec .launchComplete s = .next (pushed s)) ∧
    (l.pushing = false → exec .completionRecordPush s = .next s)) ∧
  ∀ (s : State) (p cl n : Nat) (r : List Nat) (es : List EventRec) (l : Launch), s.issue = .part [p, cl] →
    findD (s.work p).guidons cl ⟨[], []⟩ = ⟨es, n :: r⟩ → (s.work p).launch n = some l →
    (∀ q ∈ (s.work p).seqs, ¬(q.cls = 4 ∧ q.cluster = cl)) →
    let at_ : VAddr := l.rcd.ctlprog.setWidth 56
    exec .controlProgramStart s = .next (({ s with ids := s.ids + 1 }).modWork p fun w => { w with
      guidons := put w.guidons cl ⟨es, r⟩
      seqs := w.seqs ++ [(⟨s.ids, 4, 0, cl, n, l.priv, at_, ⟨at_, true, 0, none⟩, List.replicate 32 0, [], false, false, false, none, 0⟩ : Seq)] })

/-- R135, R379, R380, R420, R428, R30. That a withdrawal meets a launch that pushes its record with STATE 3 (log 77), that a saved item stands at
its launch's priority (log 80), and that a work-group is held at a round when a lane of it is (log 100) are the model's choice or reading. -/
def Obligations.WithdrawalAndPreemption : Prop :=
  (∀ (s : State) (who p n : Nat), s.issue = .part [who, p, n] → (s.part p).state = .running → s.mayWrite who 2 = true →
    let sets : Nat → State := fun st => s.modPart p fun x => { x with withdraw := { x.withdraw with arg := n % 2 ^ 64, state := st } }
    (∀ l, (s.part p).withdraw.state ≠ 1 → (s.work p).launch (n % 2 ^ 64) = some l →
      exec .withdrawLaunch s = .next (if l.pushing then sets 3 else (sets 1).endLaunch p (n % 2 ^ 64) .aborted)) ∧
    ((s.part p).withdraw.state ≠ 1 → (s.work p).launch (n % 2 ^ 64) = none → exec .withdrawLaunch s = .next (sets 3)) ∧
    ((s.part p).withdraw.state = 1 → exec .withdrawLaunch s = .next (sets 1)) ∧
    let core := n % 1024
    let state : Nat → State := fun st => s.modPart p fun x => { x with preempt := ⟨core, st⟩ }
    ∀ e ∈ [(Instr.preempt, false), (.preemptAndHold, true)],
      ((s.part p).preempt.state = 1 → exec e.1 s = .next s) ∧
      ((s.part p).preempt.state ≠ 1 → ownsCore p core = false → exec e.1 s = .next (state 3)) ∧
      ((s.part p).preempt.state ≠ 1 → ownsCore p core = true → (s.work p).onCore core = [] → (∀ m ∈ (s.work p).images, m.spilled = true) →
        (∀ g ∈ (s.work p).wgs, g.pre = 0) → exec e.1 s = .next (state 2)) ∧
      (∀ g l, (s.work p).launch g.seq = some l → (s.part p).preempt.state ≠ 1 → ownsCore p core = true → (s.work p).onCore core = [g] → (s.work p).wg g.id = some g → g.kept = false →
        g.pre = 0 → (s.work p).peers g = [g] → s.canLeave g = true → ∃ t, exec e.1 s = .next t ∧ (t.part p).preempt = ⟨core, 1⟩ ∧
          (t.work p).wg g.id = none ∧ (t.coreOf core).spill = true ∧ (t.coreOf core).swapEnd = s.cycle + 64 ∧
          (t.work p).items = (s.work p).items ++ [⟨g.seq, g.num, l.rcd.prio, s.cycle, l.rcd.prio, e.2, false, .saved [(s.work p).imageOf g]⟩])) ∧
  (∀ (s : State) (who p : Nat), s.issue = .part [who, p] → (s.part p).state = .running → s.mayWrite who 2 = true →
    exec .preemptRelease s = .next (s.modWork p fun w => { w with items := w.items.map fun i => { i with held := false } })) ∧
  (∀ (s : State) (who p n : Nat), s.issue = .part [who, p, n] → who < 2 →
    exec .withdrawLaunch s = .next s ∧ exec .preempt s = .next s ∧ exec .preemptAndHold s = .next s ∧ exec .preemptRelease s = .next s) ∧
  (∀ (s : State) (core : Nat), s.issue = .part [core] →
    ((s.coreOf core).swapEnd ≤ s.cycle → exec .preemptSwapComplete s = .next (s.modCore core fun c => { c with swapEnd := 0 })) ∧
    (s.cycle < (s.coreOf core).swapEnd → exec .preemptSwapComplete s = .next s ∧ exec .preemptSpillComplete s = .next s) ∧
    (∀ p, s.holderOf core = some p → (s.coreOf core).spill = true → (s.coreOf core).swapEnd ≤ s.cycle →
      exec .preemptSpillComplete s = .next (s.spillCore p core))) ∧
  ∀ (s : State) (p n : Nat) (g : WorkGroup) (l : Launch), s.issue = .part [p, n] → (s.part p).state = .running → (s.work p).wg n = some g →
    (s.work p).launch g.seq = some l → g.pre = 0 → g.cont = false →
    let rs := (g.openRounds l.rcd.levels).filter fun r => s.lbarVictim p l g r
    let t := s.preemptGroup p g false
    let items := (t.work p).items
    let member : Item → Prop := fun i => i.seq = l.seq ∧ i.held = false ∧ ∃ r ∈ rs, i.missing l.rcd.levels r.1 r.2 = true
    (rs = [] → exec .lbarPlacementPreempt s = .next s) ∧
    (rs ≠ [] → (∀ i ∈ items, ¬member i) → exec .lbarPlacementPreempt s = .next t) ∧
    (∀ k i, rs ≠ [] → items[k]? = some i → member i → (∀ j ∈ items.take k, ¬member j) →
      (∀ t' left, t.placeOne p i = some (t', left) → exec .lbarPlacementPreempt s = .next (t'.modWork p fun w => { w with
        items := w.items.take k ++ left ++ w.items.drop (k + 1) })) ∧
      (t.placeOne p i = none → exec .lbarPlacementPreempt s = .next (t.modWork p fun w => { w with
        items := items.set k { i with reserved := true } })))

/-! ## Partitions -/

/-- R313 to R315, R317, R322 to R324. That the model keeps of an image its contents beside 64 bytes of memory that name it (log 30), which ERRWHY a
command in a wrong state and a reserved bit have (logs 60, 98), what the tear-down of a frozen partition ends (log 61), and which registers a
resume restores (log 62) are the model's choice or reading. -/
def Obligations.PartitionCommandsAct : Prop :=
  (∀ (s : State) (who p : Nat), s.issue = .part [who, p] →
    let x := s.part p
    let refused : Nat → Nat → State := fun cmd why =>
      (s.modPart p fun y => { y with err := true, errwhy := why }).bbWrite 0x0701 p 0 6 (why * 16 + cmd)
    let done : State → Nat → State := fun t cmd => (t.modPart p fun y => { y with err := false }).bbWrite 0x0700 p 0 6 cmd
    let bare : State := { s with cores := s.cores.filter fun e => !ownsCore p e.1 }
    let reserved := bitsOf (x.dword 0) 47 16 ≠ 0 ∨ bitsOf (x.dword 0) 10 8 ≠ 0
    (s.mayWrite who 3 = false → ∀ i ∈ [Instr.activate, .freeze, .resume, .tearDownKeepingGates, .tearDownExportingGates], exec i s = .next s) ∧
    (s.mayWrite who 3 = true → p < 28 → reserved → ∀ e ∈ [(Instr.activate, 1), (.freeze, 2), (.resume, 3), (.tearDownKeepingGates, 4),
      (.tearDownExportingGates, 5)], exec e.1 s = .next (refused e.2 4)) ∧
    (s.mayWrite who 3 = true → p < 28 → ¬reserved →
      (x.state ≠ .off → exec .activate s = .next (refused 1 4)) ∧
      (∀ why, x.state = .off → s.activationWhy p = some why → exec .activate s = .next (refused 1 why)) ∧
      (x.state = .off → s.activationWhy p = none → exec .activate s = .next (done ((bare.modPart p fun y =>
        { Partition.empty with desc := y.desc, state := .running, err := y.err, errwhy := y.errwhy, gatebase := y.gatebase }).modWork p
          fun _ => Work.empty) 1)) ∧
      (x.state ≠ .running → exec .freeze s = .next (refused 2 4)) ∧
      (x.state = .running → x.parked = [] → ∃ t, exec .freeze s = .next t ∧ (t.part p).state = .freezing ∧ t.mem = s.mem ∧
        t.gates = s.gates) ∧
      (s.imageAt x.imageAddr = none → exec .resume s = .next (refused 3 5)) ∧
      (∀ m, s.imageAt x.imageAddr = some m →
        (m.kind = 0 ∨ x.state ≠ .off → exec .resume s = .next (refused 3 5)) ∧
        (∀ why, m.kind ≠ 0 → x.state = .off → s.activationWhy p = some why → exec .resume s = .next (refused 3 why)) ∧
        (∀ why, m.kind ≠ 0 → x.state = .off → s.activationWhy p = none → s.gatesWhy m = some why → exec .resume s = .next (refused 3 why)) ∧
        (∀ ds tqs, m.kind ≠ 0 → x.state = .off → s.activationWhy p = none → s.gatesWhy m = none → m.deques (64 * sliceCount p) = some ds →
          m.tileQueues p = some tqs → m.gates = [] → (∀ d ∈ ds, d.entries = []) → exec .resume s = .next (done
            ((bare.modPart p (m.partAt s)).modWork p fun _ => m.workAt p x.enbase s.cycle tqs) 3))) ∧
      (∀ a n, (∃ m ∈ s.images, m.serial = n) → (∀ m ∈ s.images, m.serial < 2 ^ 64) → s.mem.read a 64 = imageMark n →
        ∃ m ∈ s.images, m.serial = n ∧ s.imageAt a = some m) ∧
      ∀ e ∈ [(Instr.tearDownKeepingGates, 4), (.tearDownExportingGates, 5)],
        (x.state ≠ .running → x.state ≠ .frozen → exec e.1 s = .next (refused e.2 4)) ∧
        (x.state = .running ∨ x.state = .frozen →
          let r := ((done s e.2).dropAllParked p).tearGates p (e.2 == 5)
          let uncompleted := (s.frozenWork p).launches.filter fun l => !l.2.pushing
          let torn := ((r.1.closeImage p e.2 r.2).modWork p fun w => { w with launches := w.launches ++ uncompleted }).modPart p fun y =>
            { y.releaseSlots with state := .tearing, queues := y.queues.map fun k => (k.1, k.2.abandon), channels := [] }
          exec e.1 s = .next (((torn.work p).launches.map (·.1)).foldl (fun st seq => st.endLaunch p seq .aborted) torn)) ∧
        (x.state = .running ∨ x.state = .frozen → x.parked = [] → (s.work p).launches = [] → (s.frozenWork p).launches = [] → e.2 = 4 → ∃ t, exec e.1 s = .next t ∧
          ∀ n, (s.gate n).v = true → (s.gate n).home = p → t.gate n = { s.gate n with frz := true, home := 31 }))) ∧
  (∀ (s : State) (p : Nat), s.issue = .part [p] →
    let x := s.part p
    (x.state = .freezing → s.quiet p = true →
      let iced : State := (s.homed p).foldl (fun st n => st.modGate n fun g => { g with frz := true }) s
      let serial := s.images.length + 1
      let image : SaveImage := ⟨serial, 0, p, x, s.work p, (s.cores.filter fun e => ownsCore p e.1).map fun e => (e.1, e.2.deque),
        iced.homedGates p⟩
      let kept : State := { iced with
        cores := s.cores.filter fun e => !ownsCore p e.1
        images := s.images ++ [image]
        mem := s.mem.write x.imageAddr (bytesOf 64 (imageMark serial)) }
      exec .freezeComplete s = .next ((kept.modWork p fun _ => Work.empty).modPart p fun y => { y with state := .frozen })) ∧
    (x.state ≠ .freezing ∨ s.quiet p = false → exec .freezeComplete s = .next s) ∧
    (x.state = .tearing → (∀ q ∈ (s.work p).seqs, q.cmds = []) → (s.work p).stores = [] → (s.work p).launches = [] →
      let bare : State := { s with cores := s.cores.filter fun e => !ownsCore p e.1 }
      exec .teardownComplete s = .next ((bare.modWork p fun _ => Work.empty).modPart p fun y => { y with state := .off, tlb := [] })) ∧
    (x.state ≠ .tearing → exec .teardownComplete s = .next s)) ∧
  ∀ (s : State) (who p off v : Nat), s.issue = .part [who, p, off, v] → p < 28 → off < 256 → v < 2 ^ 64 →
    let at_ := off / 8 * 8
    let set : Partition → Partition := fun y => { y with desc := put y.desc (off / 8) (BitVec.ofNat 64 v) }
    let refused : Nat → State := fun why => s.modPart p fun y => { y with err := true, errwhy := why }
    (s.mayWrite who 3 = false → exec .partitionFieldWrite s = .next s) ∧
    (s.mayWrite who 3 = true →
      (8 ≤ off → (s.part p).state ≠ .running →
        let clash := (s.part p).state ≠ .off ∧ 128 ≤ at_ ∧ at_ < 224 ∧ windowsClash (set (s.part p)) ((s.inUse p).map (·.2)) = true
        (clash → exec .partitionFieldWrite s = .next (refused 3)) ∧ (¬clash → exec .partitionFieldWrite s = .next (s.modPart p set))) ∧
      (8 ≤ off → (s.part p).state = .running →
        let may := at_ ∈ [8, 32, 40, 48, 56, 96, 104, 240] ∨ 128 ≤ at_ ∧ at_ < 224
        let ok := fieldOk at_ v = true
        let clash := 128 ≤ at_ ∧ windowsClash (set (s.part p)) ((s.inUse p).map (·.2)) = true
        (¬may ∨ ¬ok → exec .partitionFieldWrite s = .next (refused 4)) ∧
        (may → ok → clash → exec .partitionFieldWrite s = .next (refused 3)) ∧
        (may → ok → ¬clash → exec .partitionFieldWrite s = .next (s.modPart p fun y =>
          if at_ = 8 ∨ 128 ≤ at_ ∧ at_ < 224 then { set y with tlb := [] } else set y))) ∧
      let keep := v / 2 ^ 16 * 2 ^ 16 + v / 2 ^ 8 % 8 * 256
      (off < 8 → (s.part p).state ≠ .running ∨ keep = (s.part p).dword 0 → exec .partitionFieldWrite s = .next ((s.modPart p fun y =>
        { y with desc := put y.desc 0 (BitVec.ofNat 64 keep) }).command p (v % 16))) ∧
      (off < 8 → (s.part p).state = .running → keep ≠ (s.part p).dword 0 → exec .partitionFieldWrite s = .next
        (if v % 16 = 0 then refused 4 else (refused 4).bbWrite 0x0701 p 0 6 (4 * 16 + v % 16))))

/-! ## The fabric -/

/-- R343, R413, R404 to R406, R408 to R410, R296, R335, R333. A round is stated for an instance with one partition on this module. That a
    migration takes an engine and copies every word in one turn is the model's choice (log 23), so are the boundary at which a round starts
    (log 52) and the die in the records of a channel without an engine and of the port fault queue (log 94). -/
def Obligations.FabricEventsAct : Prop :=
  (∀ (s : State) (who p c : Nat), s.issue = .part [who, p, c] →
    let x := (s.part p).channel c
    let sets : State → Channel → State := fun t y => t.modPart p fun z => { z with channels := put z.channels c y }
    let le : Nat → Nat → List Byte := fun n v => (List.range n).map fun i => BitVec.ofNat 8 (v / 256 ^ i)
    (2 ≤ who → who < 4 → x.state ≠ 1 →
      (∀ e, s.migrationCheck p x = .error e → e ≠ 262 → exec .migrationGo s = .next
        ((sets s { x with state := 3, stat := e % 256, entry := 0, src := 0, copied := false, seen := [] }).bbWrite 0x0320 p
          (if x.entry = 0 then homeDie p else (x.entry - 1) / 24) 2 (c * 256 + e % 256))) ∧
      (∀ e size, s.migrationCheck p x = .ok (e, size) →
        let y := 1 - e.sel
        let m1 := s.mem.write (e.pa + 16 * y) (le 8 x.dest.toNat)
        let m2 := m1.write (e.pa + 8 + 16 * y) (le 4 (x.dmodule * 65536 + x.dpart))
        let w := s.mem.read (e.pa + 32) 4
        exec .migrationGo s = .next (sets { (s.wrote false [p] 2 [] (e.pa + 16 * y) 16).wrote false [p] 2 [] (e.pa + 32) 4 with mem := m2.write (e.pa + 32) (le 4 (w / 8 * 8 + 4 + w % 4)) }
          { x with
            state := 1, stat := 0, entry := s.takeEngine p, src := e.pa + 1, size := size, copied := false
            seen := s.sourceWords p (s.sourceOf (e.pa + 1)) (size / 4) }))) ∧
    (x.state = 1 ∨ who < 2 → exec .migrationGo s = .next s)) ∧
  (∀ (s : State) (p c stat : Nat), s.issue = .part [p, c, stat] →
    let x := (s.part p).channel c
    let pa := x.src - 1
    let w := s.mem.read (pa + 32) 4
    let l := s.mem.read (pa + 8 + 16 * (w % 2)) 4
    let rows := s.mem.read (pa + 16 * (w % 2)) 8
    let owner := (bitsOf l 31 16, bitsOf l 4 0)
    let copy : State → Except (Bool × Nat × Nat) State := fun t =>
      t.migrationCopy p owner (s.otherLocation pa).2 0 rows (s.otherLocation pa).1 (x.size / 4)
    let sets : State → Channel → State := fun t y => t.modPart p fun z => { z with channels := put z.channels c y }
    (x.state = 1 → (∀ e ∈ s.parts, ∀ k ∈ e.2.parked, k.2.act ≠ .channel p c) →
      (x.entry = 0 → exec .migrationSwitchOver s = .next (sets s { x with entry := s.takeEngine p })) ∧
      (∀ s1, x.entry ≠ 0 → x.copied = false → copy s = .ok s1 → exec .migrationSwitchOver s = .next (sets s1
        { x with copied := true, seen := s.sourceWords p (owner, rows) (x.size / 4) })) ∧
      (∀ s1, x.entry ≠ 0 → x.copied = true → copy (s.drainRows (owner, rows) x.size) = .ok s1 → exec .migrationSwitchOver s = .next (sets
        { s1.wrote false [p] 2 [] (pa + 32) 4 with mem := s1.mem.write (pa + 32) (bytesOf 4 (w / 8 * 8 + w / 2 % 2 * 2 + (1 - w % 2))) }
        { x with state := 2, entry := 0, src := 0, copied := false, seen := [] })) ∧
      (∀ b a k, x.entry ≠ 0 → x.copied = false → copy s = .error (b, a, k) →
        let parked := b = true ∧ 18 ≤ k ∧ k ≤ 23 ∧ (s.otherLocation pa).2 ≠ (s.fabric.module, p)
        (k = 0 → exec .migrationSwitchOver s = .next (s.failChannel p c 10)) ∧
        (k = 1 → exec .migrationSwitchOver s = .next s) ∧
        (parked → exec .migrationSwitchOver s = .next
          (s.parkAccess (s.otherLocation pa).2.2 ⟨BitVec.ofNat 64 a, s.fabric.module, p, 5, k, s.time, 3, .channel p c⟩)) ∧
        (¬parked → 1 < k → exec .migrationSwitchOver s = .next (s.failChannel p c (min (statOf k) 3))))) ∧
    (((s.failChannel p c stat).part p).channel c =
        { x with state := 3, stat := stat % 256, entry := 0, src := 0, copied := false, seen := [] } ∧
      ((s.failChannel p c stat).bb.recs.head?).map (fun r => (r.code, r.part, r.data)) = some (0x0320, p, (c * 256 + stat % 256) % 2 ^ 32)) ∧
    (x.state ≠ 1 → exec .migrationSwitchOver s = .next s ∧ exec .migrationFailure s = .next s) ∧
    (x.state = 1 → (stat = 2 ∨ stat = 3 ∨ stat = 10 → exec .migrationFailure s = .next (s.failChannel p c stat)) ∧
      (stat ≠ 2 → stat ≠ 3 → stat ≠ 10 → exec .migrationFailure s = .next s))) ∧
  (∀ (s : State) (p op va v m q level : Nat), s.issue = .part [p, op, va, v, m, q, level] → va < 2 ^ 56 →
    let peer := s.fabric.inDomain = true ∧ (s.part p).state = .running ∧ (s.fedPeers p).contains (m, q) = true
    let g : Agent := ⟨p, homeDie p, level, false⟩
    let writes := op = 0 ∨ op = 2 ∨ op = 5
    (¬peer ∨ 6 ≤ op → exec .fabricAccessServe s = .next s) ∧
    (∀ pa leaf, peer → writes → s.memLoc g .write va 4 false = .ok (.mem pa leaf) → leafFmt leaf ≠ 2 → s.placeOf p pa = .mem →
      exec .fabricAccessServe s = .next { s.wrote false [p] 3 [] pa 4 with
        mem := s.mem.write pa ((List.range 4).map fun i => BitVec.ofNat 8 (v / 256 ^ i)) }) ∧
    (∀ pa leaf, peer → ¬writes → op < 6 → s.memLoc g .read va 2 false = .ok (.mem pa leaf) → leafFmt leaf ≠ 2 →
      exec .fabricAccessServe s = .next s) ∧
    (∀ cause, peer → writes → s.memLoc g .write va 4 false = .error cause →
      (18 ≤ cause → cause ≤ 23 → exec .fabricAccessServe s =
        .next (s.parkAccess p ⟨BitVec.ofNat 64 va, m, q, op, cause, s.time, level, .remote (bytesOf 4 v)⟩)) ∧
      (cause < 18 ∨ 23 < cause → exec .fabricAccessServe s = .next s)) ∧
    (∀ cause, peer → ¬writes → op < 6 → s.memLoc g .read va 2 false = .error cause → 18 ≤ cause → cause ≤ 23 →
      exec .fabricAccessServe s = .next (s.parkAccess p ⟨BitVec.ofNat 64 va, m, q, op, cause, s.time, level, .remote []⟩))) ∧
  (∀ (s : State) (who p k : Nat) (e : Parked), find (s.part p).parked k = some e →
    let gone : State → State := fun t => t.modPart p fun x => { x with parked := drop x.parked k }
    let dropped := ((gone s).bbWrite 0x0312 p (homeDie p) 3 (e.smodule * 65536 + e.op * 256 + e.cause)).dropAct e.act
    (s.issue = .part [who, p, k] → 2 ≤ who → who < 4 →
      (∀ s1, s.performParked p e = .ok s1 → exec .parkedRetry s = .next ((gone s1).goOn e.act)) ∧
      (∀ v poison sp ticket lane, e.act = .write v poison sp ticket lane →
        ∀ s1, s.serveWrite s p e.level 3 e.addr.toNat (bytesOf 4 v.toNat) poison = .ok s1 →
          exec .parkedRetry s = .next (gone (s1.writeDone sp ticket lane))) ∧
      (∀ sp wg wid lane ticket i, e.act = .read sp wg wid lane ticket i →
        ∀ bs, s.serveRead s p e.level (some 3) e.addr.toNat 2 = .ok (bs, false) →
          exec .parkedRetry s = .next (gone (s.giveMember sp wg wid lane ticket i (some (widen .bf16 (ofBytes bs)))))) ∧
      (∀ cause, s.performParked p e = .error cause →
        (18 ≤ cause → cause ≤ 23 → exec .parkedRetry s =
          .next (s.modPart p fun x => { x with parked := put x.parked k { e with cause := cause } })) ∧
        (cause < 18 ∨ 23 < cause → exec .parkedRetry s = .next dropped)) ∧
      exec .parkedDrop s = .next dropped) ∧
    (s.issue = .part [who, p, k] → who < 2 → exec .parkedRetry s = .next s ∧ exec .parkedDrop s = .next s) ∧
    (s.issue = .part [p, k] → (e.ptime + 1000000 ≤ s.time → exec .parkedExpiry s = .next dropped) ∧
      (s.time < e.ptime + 1000000 → exec .parkedExpiry s = .next s))) ∧
  (∀ (s : State) (p a i : Nat) (m : Nat × Nat), s.issue = .part [p, a, i] → (s.boundMembers p a)[i]? = some m →
    let bound := ∃ e ∈ (s.work p).commands, ∃ v o ms d, e.2.wait = .coll a v o ms d ∧ m ∈ ms ∧ e.2.since + 16000 ≤ s.time
    let lost := s.reaches p m = false ∧ (m.1 = s.fabric.module ∨ s.carries p = true)
    let silent := ∃ x ∈ s.fabric.sent, x.p = p ∧ x.group = a ∧ x.member = m ∧ x.since + 16000 ≤ s.time
    (¬lost → exec .memberAbsentTimeout s = .next s) ∧
    (lost → m.1 = s.fabric.module ∨ silent ∨ bound →
      exec .memberAbsentTimeout s = .next ((s.recordAbsent p a m).failSent p a m)) ∧
    (m.1 ≠ s.fabric.module → ¬silent → ¬bound → exec .memberAbsentTimeout s = .next s)) ∧
  (∀ (s : State) (p a i : Nat) (m : Nat × Nat), s.issue = .part [p, a, i] → ((s.part p).group a).members[i]? = some m →
    exec .switchUnreachable s = .next ((s.recordAbsent p a m).failSent p a m) ∧
    (∀ t, ((s.part p).group a).round = some t → s.roundParts p a = [p] →
      (i ∈ ((s.part p).group a).unacked → t + 4 * s.fabric.slot ≤ s.time → exec .agreementAckTimeout s =
        .next ((s.recordAbsent p a m).modPart p fun x => { x with groups := put x.groups a { (x.group a) with
          unacked := (x.group a).unacked.filter (· != i) } })) ∧
      (i ∉ ((s.part p).group a).unacked ∨ s.time < t + 4 * s.fabric.slot → exec .agreementAckTimeout s = .next s))) ∧
  (∀ (s : State) (p a : Nat), s.issue = .part [p, a] → s.roundParts p a = [p] → 0 < s.fabric.slot →
    let g := (s.part p).group a
    let w := s.fabric.slot
    let times := g.requests.map (·.since) ++ g.lost.toList
    (∀ t0 ∈ times, (∀ y ∈ times, t0 ≤ y) → g.valid = true → g.elastic = true → g.round = none → s.coordinator p a = s.fabric.module →
      let b := max ((t0 / w + 1) * w) g.stamp
      let due : Request → Bool := fun r => decide (r.since < b)
      (b ≤ s.time → ∃ t g', exec .agreementRoundStart s = .next t ∧ (t.part p).group a = g' ∧ g'.round = some b ∧
        g'.taken = sortBy Request.before (g.requests.filter due) ∧ g'.requests = g.requests.filter (fun r => !due r) ∧
        g'.members = g.members ∧ g'.ver = g.ver ∧ t.mem = s.mem ∧ t.works = s.works) ∧
      (s.time < b → ∃ t, exec .agreementRoundStart s = .next t ∧ ((t.part p).group a).round = none ∧ t.works = s.works)) ∧
    (∀ t, g.round = some t → g.unacked = [] → g.stamp / w < s.time / w → g.members.contains (s.fabric.module, p) = true →
      let ends : Nat → List (Nat × Nat) → Prop := fun ver ms =>
        ∃ t' g', exec .agreementRoundEnd s = .next t' ∧ (t'.part p).group a = g' ∧ g'.round = none ∧ g'.absent = [] ∧ g'.ver = ver ∧
          g'.members = ms
      (g.taken = [] → g.absent ≠ [] → ends (g.ver + 1)
        ((((List.range g.members.length).zip g.members).filter fun e => !g.absent.contains e.1).map (·.2))) ∧
      ∀ r, g.taken = [r] → r.who = none → g.absent = [] →
        let m := (r.module, r.part)
        (r.join = false → ends (g.ver + 1) (g.members.filter (· != m))) ∧
        (r.join = true → m ∉ g.members → g.members.length < 64 → ends (g.ver + 1) (g.members ++ [m])) ∧
        (r.join = true → m ∉ g.members → 64 ≤ g.members.length → ends g.ver g.members)) ∧
    (∀ t, g.round = some t → g.unacked ≠ [] ∨ s.time / w ≤ g.stamp / w → exec .agreementRoundEnd s = .next s)) ∧
  ∀ (s : State) (n w : Nat),
    (s.issue = .part [n] → exec .switchReset s = .next (s.bbWrite 0x0314 31 0 3 (min n
      ((s.parts.map fun e => (e.2.groups.filter fun g => g.2.rslot == 1).length).foldl (· + ·) 0) % 65536))) ∧
    (s.fabric.inDomain = true →
      exec .timeDomainLeave s = .next (({ s with fabric := { s.fabric with inDomain := false } }).loseLocks.missSlots.bbWrite 0x0313 31 0 3 1) ∧
      exec .timeDomainRejoin s = .next s) ∧
    (s.fabric.inDomain = false → exec .timeDomainLeave s = .next s ∧
      exec .timeDomainRejoin s = .next (({ s with fabric := { s.fabric with inDomain := true } }).bbWrite 0x0313 31 0 3 0)) ∧
    (∀ p x q c t op args, s.works = [(p, x)] → x.seqs = [q] → q.cmds = [c] → c.wait = .slot t op args → op ≠ .coll →
      s.missSlots = s.endCmd p q.id c.id 11) ∧
    (s.issue = .part [n, w] →
      (n < 0xFFFF → 0 < w → w % 125 = 0 → w ≤ 8000 → exec .fabricFormation s =
        .next ({ s with fabric := { s.fabric with module := n, slot := w, remotes := [] } }).resumeSent) ∧
      (0xFFFF ≤ n ∨ w = 0 ∨ w % 125 ≠ 0 ∨ 8000 < w → exec .fabricFormation s = .next s))

/-! ## Power, host and management -/

/-- R308, R345, R347 to R350, R354, R355. The model's choices: open transfers and returns (log 59), the reach of the host's window and what a
    limiter releases (log 68), the clock that the clamp takes (log 88), the shares of energy (log 90). -/
def Obligations.PowerAndHostEventsAct : Prop :=
  (∀ (s : State) (a b m : Nat),
    let held : Nat → State := fun n => { s with power := { s.power with held := n } }
    (s.issue = .part [a, b] → exec .tokenReceive s = .next ((held (s.power.held + min b (320 - s.power.held))).bbWrite 0x0603 31 0 4
      (a % 2 ^ 16 * 2 ^ 16 + min b (320 - s.power.held)))) ∧
    (s.issue = .part [a, b] → (s.power.sent[b]? = none → exec .tokenReturnArrival s = .next s) ∧
      ∀ c, s.power.sent[b]? = some c →
        let up := c.1 = s.fabric.module ∨ ∃ r ∈ s.fabric.remotes, r.module = c.1 ∧ r.up = true
        ∃ back, (up → back = min a c.2) ∧ (¬up → back = c.2) ∧
        let kept := min back (320 - s.power.held)
        exec .tokenReturnArrival s = .next { s with power := { s.power with
          held := s.power.held + kept
          sent := if kept = back then s.power.sent.take b ++ s.power.sent.drop (b + 1) else s.power.sent.set b (0xFFFF, back - kept) } }) ∧
    (s.issue = .part [a, 1, m] → exec .tokenBrokerMove s = .next ((held (s.power.held + min a (320 - s.power.held))).bbWrite 0x0603 31 0 4
      (m % 2 ^ 16 * 2 ^ 16 + min a (320 - s.power.held)))) ∧
    (s.issue = .part [a, 0, m] →
      (a = 0 ∨ s.power.held - s.power.floor < a → exec .tokenBrokerMove s = .next s) ∧
      (0 < a → a ≤ s.power.held - s.power.floor →
        let s1 := { s with power := { s.power with held := s.power.held - a, sent := s.power.sent ++ [(m, a)] } }.bbWrite 0x0602 31 0 4
          (m % 2 ^ 16 * 2 ^ 16 + a)
        exec .tokenBrokerMove s = .next (s1.setClock (min s1.power.clock s1.clampClock)))) ∧
    (let c := s.clampClock
     let draws : Nat → Nat := Config.freeDraw s.tick
     100 ≤ c ∧ c ≤ 2400 ∧ c % 100 = 0 ∧ (c = 100 ∨ draws c ≤ 10 * s.power.held) ∧
      (∀ d, c < d → d ≤ 2400 → d % 100 = 0 → 10 * s.power.held < draws d) ∧
      ∃ t, exec .powerClampAdjust s = .next t ∧ t.power = { s.power with clock := c } ∧ t.mem = s.mem ∧ t.works = s.works ∧
        ∀ p x, s.parts = [(p, x)] → (x.clk.mhz ≤ c ∨ c = s.power.clock → (t.part p).clk = x.clk) ∧
          (c < x.clk.mhz → c ≠ s.power.clock → (t.part p).clk = { x.clk with err := true, mhz := 0 })) ∧
    (let strip : Work → Work := fun w => { w with
      launches := w.launches.map fun l => (l.1, { l.2 with energy := 0 })
      spent := []
      wgs := w.wgs.map fun g => { g with warps := g.warps.map fun v => { v with paid := 0 } } }
     ∃ t, exec .energyAttributionInterval s = .next t ∧ { t with works := s.works } = s ∧
      t.works.map (fun e => (e.1, strip e.2)) = s.works.map (fun e => (e.1, strip e.2)) ∧
      ∀ e ∈ t.works, ∀ g ∈ e.2.wgs, ∀ v ∈ g.warps, v.paid = v.retired) ∧
    (s.issue = .part [a] → (s.part a).state = .running → 1 ≤ (s.part a).encount → exec .energyIdleSlotAdd s =
      .next (s.addEnergy a 0 (s.part a).enbase 0 (s.drawn 2 a)))) ∧
  (∀ (s : State) (m x : Nat), m < 8 →
    let e := s.host.elect
    let owned : Nat → Election → Nat → State := fun owner y cmd =>
      ({ s with host := { s.host with elect := y } }).bbWrite 0x0503 31 0 7 (owner * 16 + cmd)
    (s.issue = .part [m] →
      (e.owner = 15 → exec .ownerClaim s = .next (owned m { e with owner := m } 1)) ∧ (e.owner ≠ 15 → exec .ownerClaim s = .next s) ∧
      (e.pend = m → exec .ownerAccept s = .next (owned m { e with owner := m, pend := 15 } 3)) ∧
      (e.pend ≠ m → exec .ownerAccept s = .next s) ∧
      (e.owner = m → exec .ownerRelease s = .next (owned 15 { e with owner := 15, pend := 15 } 4)) ∧
      (e.owner ≠ m → exec .ownerRelease s = .next s)) ∧
    (s.issue = .part [m, x] →
      (e.owner = m → x < 8 → exec .ownerHandOver s = .next { s with host := { s.host with elect := { e with pend := x, target := x } } }) ∧
      (e.owner ≠ m ∨ 8 ≤ x → exec .ownerHandOver s = .next s)) ∧
    (e.owner ≠ 15 → exec .ownerLinkDown s = .next (owned 15 { e with owner := 15, pend := 15 } 0)) ∧
    (e.owner = 15 → exec .ownerLinkDown s = .next s)) ∧
  (∀ (s : State) (who p q v : Nat), s.issue = .part [who, p, q, v] → v < 2 ^ 32 →
    let legal := v / 2 ^ 28 = 0 ∧ v / 2 ^ 9 % 2 ^ 7 = 0
    (16 ≤ who → s.mayWrite who 3 = true → p < 28 → q < 16 → legal → exec .portLimiterWrite s =
      let s1 : State := { s with host := { s.host with limiters := put s.host.limiters (16 * p + q) (BitVec.ofNat 32 v) } }
      .next (if s.carries p = false ∧ s1.carries p = true then s1.resumeTraffic p else s1)) ∧
    (who < 16 ∨ s.mayWrite who 3 = false ∨ ¬legal → exec .portLimiterWrite s = .next s)) ∧
  (∀ (s : State) (who h half v : Nat), s.issue = .part [who, h, half, v] → v < 2 ^ 64 →
    let legal := half = 0 ∧ v / 2 ^ 5 % 2 = 0 ∨ half = 1 ∧ v / 2 ^ 52 = 0 ∧ v % 2 ^ 12 = 0
    (s.mayWrite who 3 = true → h < 16 → legal → exec .hostWindowWrite s =
      .next { s with host := { s.host with windows := put s.host.windows (2 * h + half) (BitVec.ofNat 64 v) } }) ∧
    (s.mayWrite who 3 = false ∨ ¬legal → exec .hostWindowWrite s = .next s)) ∧
  ∀ (s : State) (m a n v : Nat), n ≤ 64 →
    let reached := a + n ≤ 1536 * 2 ^ 30 ∧ ∀ e ∈ s.parts, e.2.state = .off ∨ e.2.inWindow a n = true ∨
      ∀ w ∈ e.2.windows, a + n ≤ w.1 ∨ w.1 + w.2 ≤ a
    (s.issue = .part [m, a, n] →
      let seen : Option (Bool × Nat) → State := fun r => { s with host := { s.host with lastRead := r } }
      let value := ofBytes ((List.range n).map fun i => s.mem.byte (a + i))
      (8 ≤ m → exec .hostMemRead s = .next s) ∧
      (m < 8 → a < 2 ^ 60 → ¬reached → exec .hostMemRead s = .next (seen none)) ∧
      (m < 8 → a < 2 ^ 60 → reached → s.pageOwner a = none →
        (s.mem.poisoned a n = false → exec .hostMemRead s = .next (seen (some (false, value)))) ∧
        (s.mem.poisoned a n = true → exec .hostMemRead s =
          .next ((seen (some (true, value))).bbWrite 0x0202 ((s.windowOwner a n).getD 31) 0 7 0))) ∧
      (m < 8 → n = 8 → a = 2 ^ 60 → exec .hostMemRead s = .next (seen (some (false,
        (m * 2 ^ 20 + s.host.elect.owner * 2 ^ 16 + s.host.elect.pend * 2 ^ 12 + s.host.elect.target * 2 ^ 8) % 2 ^ 64))))) ∧
    (s.issue = .part [m, a, n, v] →
      let stored : State := { s.wrote false (s.parts.map (·.1)) 5 [] a n with
        mem := s.mem.write a ((List.range n).map fun i => BitVec.ofNat 8 (v / 256 ^ i)) }
      (s.host.elect.owner ≠ m ∨ 15 ≤ m ∨ ¬reached → exec .hostMemWrite s = .next s) ∧
      (s.host.elect.owner = m → m < 15 → reached → s.pageOwner a = none → exec .hostMemWrite s = .next stored) ∧
      (s.host.elect.owner = m → m < 15 → reached → s.pageOwner a ≠ none → exec .hostMemWrite s =
        .next { s with follow := s.follow ++ [⟨.genericRegisterWrite, [16 + m, a, v % 2 ^ (8 * n), n]⟩] }))

/-! ## Reset, boot, black box, attestation, errors, register writes -/

/-- R351, R353, R356, R357, R390, R391, R394, R145, R313, R346. The model's choices: the SPDM codes (log 25), what a cold reset keeps (log 65),
    that any master captures the ring and writes the nonce (log 67), and the operands and records of an error in storage (log 69). -/
def Obligations.ResetBootAndRecordsAct : Prop :=
  (∀ s : State, ∃ t, exec .coldReset s = .next t ∧ t.parts = State.reset.parts ∧ t.works = State.reset.works ∧ t.cores = State.reset.cores ∧
    t.gates = State.reset.gates ∧ t.mem = State.reset.mem ∧ t.spad = State.reset.spad ∧ t.images = State.reset.images ∧
    t.boot = State.reset.boot ∧ t.bb = State.reset.bb ∧ t.power = State.reset.power ∧ t.host = { State.reset.host with mem := s.host.mem } ∧
    t.fabric = { s.fabric with sent := [] } ∧ t.cycle = s.cycle ∧ t.lag = s.lag) ∧
  (∀ s : State, ∃ t, exec .warmReset s = .next t ∧ t.parts = State.reset.parts ∧ t.works = State.reset.works ∧ t.cores = State.reset.cores ∧
    t.gates = State.reset.gates ∧ t.spad = State.reset.spad ∧ t.boot = State.reset.boot ∧ t.bb.recs.head?.map (·.code) = some 0x0502 ∧
    (s.parts = [] → t.mem = s.mem ∧ t.images = s.images ∧ t.host = { State.reset.host with mem := s.host.mem } ∧ t.bb.recs.tail = s.bb.recs.take 4095)) ∧
  (∀ (s : State) (who v : Nat),
    (s.issue = .part [who, v] →
      (16 ≤ who → s.mayWrite who 3 = true → v = 1 → s.boot.state = 0 ∨ s.boot.state = 3 →
        exec .bootctlWrite s = .next { s with boot := { s.boot with state := 1 } }) ∧
      (who < 16 ∨ s.mayWrite who 3 = false ∨ v ≠ 1 ∨ s.boot.state = 1 ∨ s.boot.state = 2 → exec .bootctlWrite s = .next s)) ∧
    (let image := s.mem.cells.filter fun e => decide (e.1 < 2 ^ 24)
     let version := Config.imageVersion image % 2 ^ 32
     let fails : Nat → Prop := fun why => why = 1 ∧ Config.imageSigned Config.fuseKeyHash image = false ∨
       why = 2 ∧ version < Config.fuseMinimum ∨ why = 3 ∧ Config.imageTooLarge image = true
     (s.boot.state ≠ 1 → exec .bootCheckComplete s = .next s) ∧
     (s.boot.state = 1 → (∀ why, ¬fails why) → exec .bootCheckComplete s =
       .next (({ s with boot := ⟨version, 0, 2, Config.imageMeasure image⟩ }).bbWrite 0x0500 31 0 5 version)) ∧
     (s.boot.state = 1 → (∃ why, fails why) → ∃ why, fails why ∧ exec .bootCheckComplete s =
       .next (({ s with boot := { s.boot with why := why, state := 3 } }).bbWrite 0x0501 31 0 5 why))) ∧
    (s.issue = .part [who] → who < 8 →
      (s.bb.snap = none → exec .blackboxSnap s = .next { s with bb := { s.bb with snap := some (s.bb.recs, s.bb.count) } }) ∧
      (s.bb.snap ≠ none → exec .blackboxSnap s = .next s)) ∧
    (s.bb.snap = none → exec .blackboxSnapComplete s = .next s) ∧
    (∀ recs count, s.bb.snap = some (recs, count) → ∃ t bs, exec .blackboxSnapComplete s = .next t ∧ t.bb = { s.bb with snap := none } ∧
      t.host = s.host.write s.bb.buf.toNat (recs.reverse.flatMap BbRec.bytes ++ List.replicate (16 * (4096 - recs.length)) 0 ++
        bytesOf 8 count ++ bytesOf 8 s.bb.nonce0.toNat ++ bytesOf 8 s.bb.nonce1.toNat ++ bs) ∧ bs.length = 29792 ∧ t.mem = s.mem)) ∧
  (∀ (s : State),
    let tells : State → Nat → List DWord → State := fun t code body => { t with host := { t.host with answer := some (code, body) } }
    let refused : Host.Outcome State Fault Refusal := .next (tells s 0x7F [])
    (∃ body, exec .getVersion s = .next (tells { s with host := { s.host with spdmVersion := true, spdmCaps := false, spdmAlgs := false } }
      0x04 body)) ∧
    (s.host.spdmVersion = true → ∃ body, exec .getCapabilities s = .next (tells { s with host := { s.host with spdmCaps := true } } 0x61 body)) ∧
    (s.host.spdmVersion = false → exec .getCapabilities s = refused) ∧
    (s.host.spdmCaps = true → ∃ body, exec .negotiateAlgorithms s =
      .next (tells { s with host := { s.host with spdmAlgs := true } } 0x63 body)) ∧
    (s.host.spdmCaps = false → exec .negotiateAlgorithms s = refused) ∧
    (s.host.spdmAlgs = true → (∃ body, exec .getDigests s = .next (tells s 0x01 body)) ∧
      (∃ body, exec .getCertificate s = .next (tells s 0x02 body)) ∧ ∃ body, exec .challenge s = .next (tells s 0x03 body)) ∧
    (s.host.spdmAlgs = false → exec .getDigests s = refused ∧ exec .getCertificate s = refused ∧ exec .challenge s = refused ∧
      exec .getMeasurements s = refused) ∧
    (∀ m i, s.issue = .part [m, i] → s.host.spdmAlgs = true →
      (i = 1 → exec .getMeasurements s = .next (tells s 0x60 [Config.romMeasure])) ∧
      (i = 2 → exec .getMeasurements s = .next (tells s 0x60 [s.boot.image])) ∧
      (i = 3 → exec .getMeasurements s = .next (tells s 0x60
        [Config.fuseMeasure, BitVec.ofNat 64 Config.fuseKeyHash, BitVec.ofNat 64 Config.fuseMinimum])) ∧
      (i = 4 → exec .getMeasurements s = .next (tells s 0x60 s.descriptors)) ∧ (i = 0 ∨ 4 < i → exec .getMeasurements s = refused))) ∧
  (∀ (s : State) (die n : Nat), s.issue = .part [die, n] →
    let e := find s.bb.corrected die
    let total := (e.map (·.1)).getD 0 + n
    let noted : Nat × Nat → State := fun y => { s with bb := { s.bb with corrected := put s.bb.corrected die y } }
    (total = 0 → exec .patrolScrub s = .next s) ∧
    (0 < total → (∀ x, e = some x → x.2 + 1000000 ≤ s.time) →
      exec .patrolScrub s = .next ((noted (0, s.time)).bbWrite 0x0200 31 die 2 total)) ∧
    (∀ x, e = some x → 0 < total → s.time < x.2 + 1000000 → exec .patrolScrub s = .next (noted (total, x.2)))) ∧
  (∀ (s : State) (unit p a b : Nat), s.issue = .part [unit, p, a, b] →
    (unit = 0 → exec .uncorrectableError s = .next (({ s with mem := s.mem.poisonSpan a 1 }).bbWrite 0x0201 31 b 2 (a / 64 % 2 ^ 28))) ∧
    (unit = 1 → exec .uncorrectableError s = .next (({ s with mem := s.mem.poisonSpan a 1 }).bbWrite 0x0201 31 b 2 (2 ^ 28))) ∧
    (unit = 3 → exec .uncorrectableError s = .next (({ s with spad := s.spad.poisonWord a }).bbWrite 0x0201 p b 2 (3 * 2 ^ 28))) ∧
    (∀ g, unit = 4 → b < 4096 → (s.work p).wg (a / 1024) = some g → exec .uncorrectableError s =
      .next ((s.modWarp p g.id (a % 1024) fun w => { w with poison := b :: w.poison.filter (· != b) }).bbWrite 0x0201 p
        (dieOfSlice (sliceOfCore g.core)) 2 (4 * 2 ^ 28))) ∧
    (unit = 5 → exec .uncorrectableError s = .next ((s.modCore a fun k => k.poisonRow (b / 64) (b % 64)).bbWrite 0x0201 p
      (dieOfSlice (sliceOfCore a)) 2 (5 * 2 ^ 28))) ∧
    (∀ l, unit = 6 → (s.work p).launch a = some l → exec .uncorrectableError s = .next
      (((s.bbWrite 0x0201 p b 2 (6 * 2 ^ 28)).faultLaunch p a (0x0100 + causeData) (64 * firstSlice p) 0).settle p))) ∧
  ∀ (s : State) (who addr v p off q : Nat), s.issue = .part [who, addr, v] → v < 2 ^ 64 →
    (s.pageOwner addr = some (p, off) → addr < 2 ^ 60 → addr % 8 = 0 →
      (off = 32 * q + 24 → q < 64 →
        (s.mayWrite who 0 = true → exec .genericRegisterWrite s = .next (s.modPart p fun x =>
          { x with queues := put x.queues q ((x.queue q).setWptr (BitVec.ofNat 64 v)) })) ∧
        (s.mayWrite who 0 = false → exec .genericRegisterWrite s = .next s)) ∧
      (off = 0x5000 → (s.mayWrite who 2 = true → exec .genericRegisterWrite s =
          .next (s.modPart p fun x => { x with edbase := BitVec.ofNat 64 v })) ∧
        (s.mayWrite who 2 = false → exec .genericRegisterWrite s = .next s))) ∧
    (s.pageOwner addr = none → addr < 2 ^ 60 → exec .genericRegisterWrite s = .next s) ∧
    (addr = 2 ^ 60 + 0x2008 → (16 ≤ who → exec .genericRegisterWrite s = .next { s with bb := { s.bb with nonce0 := BitVec.ofNat 64 v } }) ∧
      (who < 16 → exec .genericRegisterWrite s = .next s))
end

