-- ==== Sys2Proof/Laws/Dispatch.lean ====
section
/-! SUPPORT. What the dispatch calls for each instruction, one equation per constructor. -/
namespace Sys2Proof.Machine

@[simp] theorem exec_srd (u : Bool) (d sc : Nat) (s : State) : exec (.srd u d sc) s = execSrd u d sc s := rfl
@[simp] theorem exec_callr (u : Bool) (d a : Nat) (s : State) : exec (.callr u d a) s = execCallr u d a s := rfl
@[simp] theorem exec_ret (u : Bool) (a : Nat) (s : State) : exec (.ret u a) s = execRet u a s := rfl
@[simp] theorem exec_jmpr (u : Bool) (a : Nat) (s : State) : exec (.jmpr u a) s = execJmpr u a s := rfl
@[simp] theorem exec_joinm (u : Bool) (m : Nat) (s : State) : exec (.joinm u m) s = execJoinm u m s := rfl
@[simp] theorem exec_leavem (u : Bool) (m : Nat) (s : State) : exec (.leavem u m) s = execLeavem u m s := rfl
@[simp] theorem exec_waitm (u : Bool) (m : Nat) (s : State) : exec (.waitm u m) s = execWaitm u m s := rfl
@[simp] theorem exec_mskrd (u : Bool) (d m : Nat) (s : State) : exec (.mskrd u d m) s = execMskrd u d m s := rfl
@[simp] theorem exec_mskwr (u : Bool) (a m : Nat) (s : State) : exec (.mskwr u a m) s = execMskwr u a m s := rfl
@[simp] theorem exec_add (u : Bool) (d a b : Nat) (s : State) : exec (.add u d a b) s = execAdd u d a b s := rfl
@[simp] theorem exec_sub (u : Bool) (d a b : Nat) (s : State) : exec (.sub u d a b) s = execSub u d a b s := rfl
@[simp] theorem exec_mul (u : Bool) (d a b : Nat) (s : State) : exec (.mul u d a b) s = execMul u d a b s := rfl
@[simp] theorem exec_mulhs (u : Bool) (d a b : Nat) (s : State) : exec (.mulhs u d a b) s = execMulhs u d a b s := rfl
@[simp] theorem exec_mulhz (u : Bool) (d a b : Nat) (s : State) : exec (.mulhz u d a b) s = execMulhz u d a b s := rfl
@[simp] theorem exec_mad (u : Bool) (d a b : Nat) (s : State) : exec (.mad u d a b) s = execMad u d a b s := rfl
@[simp] theorem exec_addc (u : Bool) (d a b : Nat) (s : State) : exec (.addc u d a b) s = execAddc u d a b s := rfl
@[simp] theorem exec_subb (u : Bool) (d a b : Nat) (s : State) : exec (.subb u d a b) s = execSubb u d a b s := rfl
@[simp] theorem exec_abs (u : Bool) (d a : Nat) (s : State) : exec (.abs u d a) s = execAbs u d a s := rfl
@[simp] theorem exec_neg (u : Bool) (d a : Nat) (s : State) : exec (.neg u d a) s = execNeg u d a s := rfl
@[simp] theorem exec_mins (u : Bool) (d a b : Nat) (s : State) : exec (.mins u d a b) s = execMins u d a b s := rfl
@[simp] theorem exec_maxs (u : Bool) (d a b : Nat) (s : State) : exec (.maxs u d a b) s = execMaxs u d a b s := rfl
@[simp] theorem exec_minz (u : Bool) (d a b : Nat) (s : State) : exec (.minz u d a b) s = execMinz u d a b s := rfl
@[simp] theorem exec_maxz (u : Bool) (d a b : Nat) (s : State) : exec (.maxz u d a b) s = execMaxz u d a b s := rfl
@[simp] theorem exec_divs (u : Bool) (d a b : Nat) (s : State) : exec (.divs u d a b) s = execDivs u d a b s := rfl
@[simp] theorem exec_divz (u : Bool) (d a b : Nat) (s : State) : exec (.divz u d a b) s = execDivz u d a b s := rfl
@[simp] theorem exec_rems (u : Bool) (d a b : Nat) (s : State) : exec (.rems u d a b) s = execRems u d a b s := rfl
@[simp] theorem exec_remz (u : Bool) (d a b : Nat) (s : State) : exec (.remz u d a b) s = execRemz u d a b s := rfl
@[simp] theorem exec_cmpi (u : Bool) (f d a i : Nat) (s : State) : exec (.cmpi u f d a i) s = execCmpi u f d a i s := rfl
@[simp] theorem exec_cmpiWide (u : Bool) (c d a i : Nat) (s : State) : exec (.cmpiWide u c d a i) s = execCmpiWide u c d a i s := rfl
@[simp] theorem exec_and (u : Bool) (d a b : Nat) (s : State) : exec (.and u d a b) s = execAnd u d a b s := rfl
@[simp] theorem exec_or (u : Bool) (d a b : Nat) (s : State) : exec (.or u d a b) s = execOr u d a b s := rfl
@[simp] theorem exec_xor (u : Bool) (d a b : Nat) (s : State) : exec (.xor u d a b) s = execXor u d a b s := rfl
@[simp] theorem exec_andn (u : Bool) (d a b : Nat) (s : State) : exec (.andn u d a b) s = execAndn u d a b s := rfl
@[simp] theorem exec_not (u : Bool) (d a : Nat) (s : State) : exec (.not u d a) s = execNot u d a s := rfl
@[simp] theorem exec_popc (u : Bool) (d a : Nat) (s : State) : exec (.popc u d a) s = execPopc u d a s := rfl
@[simp] theorem exec_clz (u : Bool) (d a : Nat) (s : State) : exec (.clz u d a) s = execClz u d a s := rfl
@[simp] theorem exec_ffs (u : Bool) (d a : Nat) (s : State) : exec (.ffs u d a) s = execFfs u d a s := rfl
@[simp] theorem exec_brev (u : Bool) (d a : Nat) (s : State) : exec (.brev u d a) s = execBrev u d a s := rfl
@[simp] theorem exec_mov (u : Bool) (d a : Nat) (s : State) : exec (.mov u d a) s = execMov u d a s := rfl
@[simp] theorem exec_sel (u : Bool) (d a b : Nat) (s : State) : exec (.sel u d a b) s = execSel u d a b s := rfl
@[simp] theorem exec_shl (u : Bool) (d a b : Nat) (s : State) : exec (.shl u d a b) s = execShl u d a b s := rfl
@[simp] theorem exec_shr (u : Bool) (d a b : Nat) (s : State) : exec (.shr u d a b) s = execShr u d a b s := rfl
@[simp] theorem exec_sar (u : Bool) (d a b : Nat) (s : State) : exec (.sar u d a b) s = execSar u d a b s := rfl
@[simp] theorem exec_rot (u : Bool) (d a b : Nat) (s : State) : exec (.rot u d a b) s = execRot u d a b s := rfl
@[simp] theorem exec_bfes (u : Bool) (d a b : Nat) (s : State) : exec (.bfes u d a b) s = execBfes u d a b s := rfl
@[simp] theorem exec_bfez (u : Bool) (d a b : Nat) (s : State) : exec (.bfez u d a b) s = execBfez u d a b s := rfl
@[simp] theorem exec_bfi (u : Bool) (d a b : Nat) (s : State) : exec (.bfi u d a b) s = execBfi u d a b s := rfl
@[simp] theorem exec_shli (u : Bool) (d a n : Nat) (s : State) : exec (.shli u d a n) s = execShli u d a n s := rfl
@[simp] theorem exec_shri (u : Bool) (d a n : Nat) (s : State) : exec (.shri u d a n) s = execShri u d a n s := rfl
@[simp] theorem exec_sari (u : Bool) (d a n : Nat) (s : State) : exec (.sari u d a n) s = execSari u d a n s := rfl
@[simp] theorem exec_roti (u : Bool) (d a n : Nat) (s : State) : exec (.roti u d a n) s = execRoti u d a n s := rfl
@[simp] theorem exec_cmp (u : Bool) (c d a b : Nat) (s : State) : exec (.cmp u c d a b) s = execCmp u c d a b s := rfl
@[simp] theorem exec_addi (u : Bool) (d a i : Nat) (s : State) : exec (.addi u d a i) s = execAddi u d a i s := rfl
@[simp] theorem exec_addiWide (u : Bool) (d a i : Nat) (s : State) : exec (.addiWide u d a i) s = execAddiWide u d a i s := rfl
@[simp] theorem exec_andi (u : Bool) (d a i : Nat) (s : State) : exec (.andi u d a i) s = execAndi u d a i s := rfl
@[simp] theorem exec_andiWide (u : Bool) (d a i : Nat) (s : State) : exec (.andiWide u d a i) s = execAndiWide u d a i s := rfl
@[simp] theorem exec_ori (u : Bool) (d a i : Nat) (s : State) : exec (.ori u d a i) s = execOri u d a i s := rfl
@[simp] theorem exec_oriWide (u : Bool) (d a i : Nat) (s : State) : exec (.oriWide u d a i) s = execOriWide u d a i s := rfl
@[simp] theorem exec_xori (u : Bool) (d a i : Nat) (s : State) : exec (.xori u d a i) s = execXori u d a i s := rfl
@[simp] theorem exec_xoriWide (u : Bool) (d a i : Nat) (s : State) : exec (.xoriWide u d a i) s = execXoriWide u d a i s := rfl
@[simp] theorem exec_movi (u : Bool) (d i : Nat) (s : State) : exec (.movi u d i) s = execMovi u d i s := rfl
@[simp] theorem exec_moviWide (u : Bool) (d i : Nat) (s : State) : exec (.moviWide u d i) s = execMoviWide u d i s := rfl
@[simp] theorem exec_movhi (u : Bool) (d i : Nat) (s : State) : exec (.movhi u d i) s = execMovhi u d i s := rfl
@[simp] theorem exec_movhiWide (u : Bool) (d i : Nat) (s : State) : exec (.movhiWide u d i) s = execMovhiWide u d i s := rfl
@[simp] theorem exec_lea (u : Bool) (d i : Nat) (s : State) : exec (.lea u d i) s = execLea u d i s := rfl
@[simp] theorem exec_leaWide (u : Bool) (d i : Nat) (s : State) : exec (.leaWide u d i) s = execLeaWide u d i s := rfl
@[simp] theorem exec_bra (u : Bool) (o : Nat) (s : State) : exec (.bra u o) s = execBra u o s := rfl
@[simp] theorem exec_bz (u : Bool) (a o : Nat) (s : State) : exec (.bz u a o) s = execBz u a o s := rfl
@[simp] theorem exec_bnz (u : Bool) (a o : Nat) (s : State) : exec (.bnz u a o) s = execBnz u a o s := rfl
@[simp] theorem exec_call (u : Bool) (d i : Nat) (s : State) : exec (.call u d i) s = execCall u d i s := rfl
@[simp] theorem exec_fadd (u : Bool) (d a b : Nat) (s : State) : exec (.fadd u d a b) s = execFadd u d a b s := rfl
@[simp] theorem exec_fsub (u : Bool) (d a b : Nat) (s : State) : exec (.fsub u d a b) s = execFsub u d a b s := rfl
@[simp] theorem exec_fmul (u : Bool) (d a b : Nat) (s : State) : exec (.fmul u d a b) s = execFmul u d a b s := rfl
@[simp] theorem exec_ffma (u : Bool) (d a b : Nat) (s : State) : exec (.ffma u d a b) s = execFfma u d a b s := rfl
@[simp] theorem exec_fmin (u : Bool) (d a b : Nat) (s : State) : exec (.fmin u d a b) s = execFmin u d a b s := rfl
@[simp] theorem exec_fmax (u : Bool) (d a b : Nat) (s : State) : exec (.fmax u d a b) s = execFmax u d a b s := rfl
@[simp] theorem exec_fabs (u : Bool) (d a : Nat) (s : State) : exec (.fabs u d a) s = execFabs u d a s := rfl
@[simp] theorem exec_fneg (u : Bool) (d a : Nat) (s : State) : exec (.fneg u d a) s = execFneg u d a s := rfl
@[simp] theorem exec_fcmp (u : Bool) (c d a b : Nat) (s : State) : exec (.fcmp u c d a b) s = execFcmp u c d a b s := rfl
@[simp] theorem exec_fclass (u : Bool) (d a : Nat) (s : State) : exec (.fclass u d a) s = execFclass u d a s := rfl
@[simp] theorem exec_frcp (u : Bool) (d a : Nat) (s : State) : exec (.frcp u d a) s = execFrcp u d a s := rfl
@[simp] theorem exec_frsq (u : Bool) (d a : Nat) (s : State) : exec (.frsq u d a) s = execFrsq u d a s := rfl
@[simp] theorem exec_fsqrt (u : Bool) (d a : Nat) (s : State) : exec (.fsqrt u d a) s = execFsqrt u d a s := rfl
@[simp] theorem exec_fexp2 (u : Bool) (d a : Nat) (s : State) : exec (.fexp2 u d a) s = execFexp2 u d a s := rfl
@[simp] theorem exec_flog2 (u : Bool) (d a : Nat) (s : State) : exec (.flog2 u d a) s = execFlog2 u d a s := rfl
@[simp] theorem exec_fsin (u : Bool) (d a : Nat) (s : State) : exec (.fsin u d a) s = execFsin u d a s := rfl
@[simp] theorem exec_fcos (u : Bool) (d a : Nat) (s : State) : exec (.fcos u d a) s = execFcos u d a s := rfl
@[simp] theorem exec_ftanh (u : Bool) (d a : Nat) (s : State) : exec (.ftanh u d a) s = execFtanh u d a s := rfl
@[simp] theorem exec_hadd2 (u : Bool) (d a b : Nat) (s : State) : exec (.hadd2 u d a b) s = execHadd2 u d a b s := rfl
@[simp] theorem exec_hmul2 (u : Bool) (d a b : Nat) (s : State) : exec (.hmul2 u d a b) s = execHmul2 u d a b s := rfl
@[simp] theorem exec_hfma2 (u : Bool) (d a b : Nat) (s : State) : exec (.hfma2 u d a b) s = execHfma2 u d a b s := rfl
@[simp] theorem exec_cvtBf16F32Lo (u : Bool) (d a : Nat) (s : State) : exec (.cvtBf16F32Lo u d a) s = execCvtBf16F32Lo u d a s := rfl
@[simp] theorem exec_cvtBf16F32Hi (u : Bool) (d a : Nat) (s : State) : exec (.cvtBf16F32Hi u d a) s = execCvtBf16F32Hi u d a s := rfl
@[simp] theorem exec_cvtF16F32Lo (u : Bool) (d a : Nat) (s : State) : exec (.cvtF16F32Lo u d a) s = execCvtF16F32Lo u d a s := rfl
@[simp] theorem exec_cvtF16F32Hi (u : Bool) (d a : Nat) (s : State) : exec (.cvtF16F32Hi u d a) s = execCvtF16F32Hi u d a s := rfl
@[simp] theorem exec_cvtE4m3x2F32Lo (u : Bool) (d a b : Nat) (s : State) :
    exec (.cvtE4m3x2F32Lo u d a b) s = execCvtE4m3x2F32Lo u d a b s := rfl
@[simp] theorem exec_cvtE4m3x2F32Hi (u : Bool) (d a b : Nat) (s : State) :
    exec (.cvtE4m3x2F32Hi u d a b) s = execCvtE4m3x2F32Hi u d a b s := rfl
@[simp] theorem exec_cvtE5m2x2F32Lo (u : Bool) (d a b : Nat) (s : State) :
    exec (.cvtE5m2x2F32Lo u d a b) s = execCvtE5m2x2F32Lo u d a b s := rfl
@[simp] theorem exec_cvtE5m2x2F32Hi (u : Bool) (d a b : Nat) (s : State) :
    exec (.cvtE5m2x2F32Hi u d a b) s = execCvtE5m2x2F32Hi u d a b s := rfl
@[simp] theorem exec_cvtF32Bf16 (u : Bool) (d a h : Nat) (s : State) : exec (.cvtF32Bf16 u d a h) s = execCvtF32Bf16 u d a h s := rfl
@[simp] theorem exec_cvtF32F16 (u : Bool) (d a h : Nat) (s : State) : exec (.cvtF32F16 u d a h) s = execCvtF32F16 u d a h s := rfl
@[simp] theorem exec_cvtF32E4m3 (u : Bool) (d a n : Nat) (s : State) : exec (.cvtF32E4m3 u d a n) s = execCvtF32E4m3 u d a n s := rfl
@[simp] theorem exec_cvtF32E5m2 (u : Bool) (d a n : Nat) (s : State) : exec (.cvtF32E5m2 u d a n) s = execCvtF32E5m2 u d a n s := rfl
@[simp] theorem exec_cvtS32F32 (u : Bool) (r d a : Nat) (s : State) : exec (.cvtS32F32 u r d a) s = execCvtS32F32 u r d a s := rfl
@[simp] theorem exec_cvtZ32F32 (u : Bool) (r d a : Nat) (s : State) : exec (.cvtZ32F32 u r d a) s = execCvtZ32F32 u r d a s := rfl
@[simp] theorem exec_cvtF32S32 (u : Bool) (d a : Nat) (s : State) : exec (.cvtF32S32 u d a) s = execCvtF32S32 u d a s := rfl
@[simp] theorem exec_cvtF32Z32 (u : Bool) (d a : Nat) (s : State) : exec (.cvtF32Z32 u d a) s = execCvtF32Z32 u d a s := rfl
@[simp] theorem exec_cvtF32S64 (u : Bool) (d a : Nat) (s : State) : exec (.cvtF32S64 u d a) s = execCvtF32S64 u d a s := rfl
@[simp] theorem exec_cvtF32Z64 (u : Bool) (d a : Nat) (s : State) : exec (.cvtF32Z64 u d a) s = execCvtF32Z64 u d a s := rfl
@[simp] theorem exec_cvtS64F32Rz (u : Bool) (d a : Nat) (s : State) : exec (.cvtS64F32Rz u d a) s = execCvtS64F32Rz u d a s := rfl
@[simp] theorem exec_cvtZ64F32Rz (u : Bool) (d a : Nat) (s : State) : exec (.cvtZ64F32Rz u d a) s = execCvtZ64F32Rz u d a s := rfl
@[simp] theorem exec_cvtS8S32Sat (u : Bool) (d a : Nat) (s : State) : exec (.cvtS8S32Sat u d a) s = execCvtS8S32Sat u d a s := rfl
@[simp] theorem exec_cvtS16S32Sat (u : Bool) (d a : Nat) (s : State) : exec (.cvtS16S32Sat u d a) s = execCvtS16S32Sat u d a s := rfl
@[simp] theorem exec_cvtZ8S32Sat (u : Bool) (d a : Nat) (s : State) : exec (.cvtZ8S32Sat u d a) s = execCvtZ8S32Sat u d a s := rfl
@[simp] theorem exec_cvtZ16S32Sat (u : Bool) (d a : Nat) (s : State) : exec (.cvtZ16S32Sat u d a) s = execCvtZ16S32Sat u d a s := rfl
@[simp] theorem exec_cvtZ8Z32Sat (u : Bool) (d a : Nat) (s : State) : exec (.cvtZ8Z32Sat u d a) s = execCvtZ8Z32Sat u d a s := rfl
@[simp] theorem exec_cvtZ16Z32Sat (u : Bool) (d a : Nat) (s : State) : exec (.cvtZ16Z32Sat u d a) s = execCvtZ16Z32Sat u d a s := rfl
@[simp] theorem exec_cvtS64S32 (u : Bool) (d a : Nat) (s : State) : exec (.cvtS64S32 u d a) s = execCvtS64S32 u d a s := rfl
@[simp] theorem exec_cvtZ64Z32 (u : Bool) (d a : Nat) (s : State) : exec (.cvtZ64Z32 u d a) s = execCvtZ64Z32 u d a s := rfl
@[simp] theorem exec_cvtS32S64Sat (u : Bool) (d a : Nat) (s : State) : exec (.cvtS32S64Sat u d a) s = execCvtS32S64Sat u d a s := rfl
@[simp] theorem exec_cvtZ32Z64Sat (u : Bool) (d a : Nat) (s : State) : exec (.cvtZ32Z64Sat u d a) s = execCvtZ32Z64Sat u d a s := rfl
@[simp] theorem exec_qnt (u : Bool) (f d a : Nat) (s : State) : exec (.qnt u f d a) s = execQnt u f d a s := rfl
@[simp] theorem exec_dqnt (u : Bool) (d a : Nat) (s : State) : exec (.dqnt u d a) s = execDqnt u d a s := rfl
@[simp] theorem exec_shfl (d a b : Nat) (s : State) : exec (.shfl d a b) s = execShfl d a b s := rfl
@[simp] theorem exec_bcast (d a n : Nat) (s : State) : exec (.bcast d a n) s = execBcast d a n s := rfl
@[simp] theorem exec_vote (d a m : Nat) (s : State) : exec (.vote d a m) s = execVote d a m s := rfl
@[simp] theorem exec_matchLanes (d a : Nat) (s : State) : exec (.matchLanes d a) s = execMatchLanes d a s := rfl
@[simp] theorem exec_wred (f d a : Nat) (s : State) : exec (.wred f d a) s = execWred f d a s := rfl
@[simp] theorem exec_wscan (f d a b : Nat) (s : State) : exec (.wscan f d a b) s = execWscan f d a b s := rfl
@[simp] theorem exec_group (u : Bool) (sc l r : Nat) (s : State) : exec (.group u sc l r) s = execGroup u sc l r s := rfl
@[simp] theorem exec_groupWide (u : Bool) (sc i : Nat) (s : State) : exec (.groupWide u sc i) s = execGroupWide u sc i s := rfl
@[simp] theorem exec_join (u : Bool) (sc a l r : Nat) (s : State) : exec (.join u sc a l r) s = execJoin u sc a l r s := rfl
@[simp] theorem exec_joinWide (u : Bool) (sc a i : Nat) (s : State) : exec (.joinWide u sc a i) s = execJoinWide u sc a i s := rfl
@[simp] theorem exec_park (u : Bool) (sc a : Nat) (s : State) : exec (.park u sc a) s = execPark u sc a s := rfl
@[simp] theorem exec_parkWide (u : Bool) (sc a i : Nat) (s : State) : exec (.parkWide u sc a i) s = execParkWide u sc a i s := rfl
@[simp] theorem exec_relopen (u : Bool) (d a : Nat) (s : State) : exec (.relopen u d a) s = execRelopen u d a s := rfl
@[simp] theorem exec_relseal (u : Bool) (d a : Nat) (s : State) : exec (.relseal u d a) s = execRelseal u d a s := rfl
@[simp] theorem exec_relcnt (u : Bool) (d a : Nat) (s : State) : exec (.relcnt u d a) s = execRelcnt u d a s := rfl
@[simp] theorem exec_fork (u : Bool) (a c : Nat) (s : State) : exec (.fork u a c) s = execFork u a c s := rfl
@[simp] theorem exec_cpush (u : Bool) (a : Nat) (s : State) : exec (.cpush u a) s = execCpush u a s := rfl
@[simp] theorem exec_jcdec (u : Bool) (a : Nat) (s : State) : exec (.jcdec u a) s = execJcdec u a s := rfl
@[simp] theorem exec_dqpush (u : Bool) (d a : Nat) (s : State) : exec (.dqpush u d a) s = execDqpush u d a s := rfl
@[simp] theorem exec_dqpop (u : Bool) (d : Nat) (s : State) : exec (.dqpop u d) s = execDqpop u d s := rfl
@[simp] theorem exec_dqsteal (u : Bool) (d a : Nat) (s : State) : exec (.dqsteal u d a) s = execDqsteal u d a s := rfl
@[simp] theorem exec_reggrow (u : Bool) (g : Nat) (s : State) : exec (.reggrow u g) s = execReggrow u g s := rfl
@[simp] theorem exec_regshrink (u : Bool) (g : Nat) (s : State) : exec (.regshrink u g) s = execRegshrink u g s := rfl
@[simp] theorem exec_launch (u : Bool) (d a : Nat) (s : State) : exec (.launch u d a) s = execLaunch u d a s := rfl
@[simp] theorem exec_ldS8 (u : Bool) (l d a o : Nat) (s : State) : exec (.ldS8 u l d a o) s = execLdS8 u l d a o s := rfl
@[simp] theorem exec_ldZ8 (u : Bool) (l d a o : Nat) (s : State) : exec (.ldZ8 u l d a o) s = execLdZ8 u l d a o s := rfl
@[simp] theorem exec_ldS16 (u : Bool) (l d a o : Nat) (s : State) : exec (.ldS16 u l d a o) s = execLdS16 u l d a o s := rfl
@[simp] theorem exec_ldZ16 (u : Bool) (l d a o : Nat) (s : State) : exec (.ldZ16 u l d a o) s = execLdZ16 u l d a o s := rfl
@[simp] theorem exec_ld (u : Bool) (l d a o : Nat) (s : State) : exec (.ld u l d a o) s = execLd u l d a o s := rfl
@[simp] theorem exec_ld64 (u : Bool) (l d a o : Nat) (s : State) : exec (.ld64 u l d a o) s = execLd64 u l d a o s := rfl
@[simp] theorem exec_ld128 (u : Bool) (l d a o : Nat) (s : State) : exec (.ld128 u l d a o) s = execLd128 u l d a o s := rfl
@[simp] theorem exec_st8 (u : Bool) (l d a o : Nat) (s : State) : exec (.st8 u l d a o) s = execSt8 u l d a o s := rfl
@[simp] theorem exec_st16 (u : Bool) (l d a o : Nat) (s : State) : exec (.st16 u l d a o) s = execSt16 u l d a o s := rfl
@[simp] theorem exec_st (u : Bool) (l d a o : Nat) (s : State) : exec (.st u l d a o) s = execSt u l d a o s := rfl
@[simp] theorem exec_st64 (u : Bool) (l d a o : Nat) (s : State) : exec (.st64 u l d a o) s = execSt64 u l d a o s := rfl
@[simp] theorem exec_st128 (u : Bool) (l d a o : Nat) (s : State) : exec (.st128 u l d a o) s = execSt128 u l d a o s := rfl
@[simp] theorem exec_lds (u : Bool) (l a b x : Nat) (s : State) : exec (.lds u l a b x) s = execLds u l a b x s := rfl
@[simp] theorem exec_lds64 (u : Bool) (l a b x : Nat) (s : State) : exec (.lds64 u l a b x) s = execLds64 u l a b x s := rfl
@[simp] theorem exec_lds128 (u : Bool) (l a b x : Nat) (s : State) : exec (.lds128 u l a b x) s = execLds128 u l a b x s := rfl
@[simp] theorem exec_sts (u : Bool) (l a b x : Nat) (s : State) : exec (.sts u l a b x) s = execSts u l a b x s := rfl
@[simp] theorem exec_sts64 (u : Bool) (l a b x : Nat) (s : State) : exec (.sts64 u l a b x) s = execSts64 u l a b x s := rfl
@[simp] theorem exec_sts128 (u : Bool) (l a b x : Nat) (s : State) : exec (.sts128 u l a b x) s = execSts128 u l a b x s := rfl
@[simp] theorem exec_lda (u : Bool) (l a b x : Nat) (s : State) : exec (.lda u l a b x) s = execLda u l a b x s := rfl
@[simp] theorem exec_lda64 (u : Bool) (l a b x : Nat) (s : State) : exec (.lda64 u l a b x) s = execLda64 u l a b x s := rfl
@[simp] theorem exec_stl (u : Bool) (l a b x : Nat) (s : State) : exec (.stl u l a b x) s = execStl u l a b x s := rfl
@[simp] theorem exec_stl64 (u : Bool) (l a b x : Nat) (s : State) : exec (.stl64 u l a b x) s = execStl64 u l a b x s := rfl
@[simp] theorem exec_radd (u : Bool) (l f a b x : Nat) (s : State) : exec (.radd u l f a b x) s = execRadd u l f a b x s := rfl
@[simp] theorem exec_atomAdd (u : Bool) (l d a b : Nat) (s : State) : exec (.atomAdd u l d a b) s = execAtomAdd u l d a b s := rfl
@[simp] theorem exec_atomF32 (u : Bool) (l d a b : Nat) (s : State) : exec (.atomF32 u l d a b) s = execAtomF32 u l d a b s := rfl
@[simp] theorem exec_atomMins (u : Bool) (l d a b : Nat) (s : State) : exec (.atomMins u l d a b) s = execAtomMins u l d a b s := rfl
@[simp] theorem exec_atomMaxs (u : Bool) (l d a b : Nat) (s : State) : exec (.atomMaxs u l d a b) s = execAtomMaxs u l d a b s := rfl
@[simp] theorem exec_atomMinz (u : Bool) (l d a b : Nat) (s : State) : exec (.atomMinz u l d a b) s = execAtomMinz u l d a b s := rfl
@[simp] theorem exec_atomMaxz (u : Bool) (l d a b : Nat) (s : State) : exec (.atomMaxz u l d a b) s = execAtomMaxz u l d a b s := rfl
@[simp] theorem exec_atomAnd (u : Bool) (l d a b : Nat) (s : State) : exec (.atomAnd u l d a b) s = execAtomAnd u l d a b s := rfl
@[simp] theorem exec_atomOr (u : Bool) (l d a b : Nat) (s : State) : exec (.atomOr u l d a b) s = execAtomOr u l d a b s := rfl
@[simp] theorem exec_atomXor (u : Bool) (l d a b : Nat) (s : State) : exec (.atomXor u l d a b) s = execAtomXor u l d a b s := rfl
@[simp] theorem exec_atomExch (u : Bool) (l d a b : Nat) (s : State) : exec (.atomExch u l d a b) s = execAtomExch u l d a b s := rfl
@[simp] theorem exec_atomCas (u : Bool) (l d a b : Nat) (s : State) : exec (.atomCas u l d a b) s = execAtomCas u l d a b s := rfl
@[simp] theorem exec_xfence (u : Bool) (a b : Nat) (s : State) : exec (.xfence u a b) s = execXfence u a b s := rfl
@[simp] theorem exec_lbar (u : Bool) (k : Nat) (s : State) : exec (.lbar u k) s = execLbar u k s := rfl
@[simp] theorem exec_sppin (u : Bool) (a b : Nat) (s : State) : exec (.sppin u a b) s = execSppin u a b s := rfl
@[simp] theorem exec_spunpin (u : Bool) (a b : Nat) (s : State) : exec (.spunpin u a b) s = execSpunpin u a b s := rfl
@[simp] theorem exec_rbpush (u : Bool) (a b : Nat) (s : State) : exec (.rbpush u a b) s = execRbpush u a b s := rfl
@[simp] theorem exec_rbpop (u : Bool) (d a : Nat) (s : State) : exec (.rbpop u d a) s = execRbpop u d a s := rfl
@[simp] theorem exec_rbfree (u : Bool) (d a b : Nat) (s : State) : exec (.rbfree u d a b) s = execRbfree u d a b s := rfl
@[simp] theorem exec_tqpop (u : Bool) (d n : Nat) (s : State) : exec (.tqpop u d n) s = execTqpop u d n s := rfl
@[simp] theorem exec_gsig (u : Bool) (a b : Nat) (s : State) : exec (.gsig u a b) s = execGsig u a b s := rfl
@[simp] theorem exec_gwait (u : Bool) (d a b : Nat) (s : State) : exec (.gwait u d a b) s = execGwait u d a b s := rfl
@[simp] theorem exec_grd (u : Bool) (d a : Nat) (s : State) : exec (.grd u d a) s = execGrd u d a s := rfl
@[simp] theorem exec_gtry (u : Bool) (d a b : Nat) (s : State) : exec (.gtry u d a b) s = execGtry u d a b s := rfl
@[simp] theorem exec_mldr (u : Bool) (l a b x : Nat) (s : State) : exec (.mldr u l a b x) s = execMldr u l a b x s := rfl
@[simp] theorem exec_mst (u : Bool) (l a b x : Nat) (s : State) : exec (.mst u l a b x) s = execMst u l a b x s := rfl
@[simp] theorem exec_csrr (u : Bool) (d c : Nat) (s : State) : exec (.csrr u d c) s = execCsrr u d c s := rfl
@[simp] theorem exec_csrw (u : Bool) (a c : Nat) (s : State) : exec (.csrw u a c) s = execCsrw u a c s := rfl
@[simp] theorem exec_tlbinv (u : Bool) (a b : Nat) (s : State) : exec (.tlbinv u a b) s = execTlbinv u a b s := rfl
@[simp] theorem exec_cinv (u : Bool) (a b : Nat) (s : State) : exec (.cinv u a b) s = execCinv u a b s := rfl
@[simp] theorem exec_tokxfer (u : Bool) (d a b : Nat) (s : State) : exec (.tokxfer u d a b) s = execTokxfer u d a b s := rfl
@[simp] theorem exec_clklock (u : Bool) (a b : Nat) (s : State) : exec (.clklock u a b) s = execClklock u a b s := rfl
@[simp] theorem exec_sleep (u : Bool) (a : Nat) (s : State) : exec (.sleep u a) s = execSleep u a s := rfl
@[simp] theorem exec_watch (u : Bool) (a b : Nat) (s : State) : exec (.watch u a b) s = execWatch u a b s := rfl
@[simp] theorem exec_smov (u : Bool) (d a : Nat) (s : State) : exec (.smov u d a) s = execSmov u d a s := rfl
@[simp] theorem exec_sadd (u : Bool) (d a b : Nat) (s : State) : exec (.sadd u d a b) s = execSadd u d a b s := rfl
@[simp] theorem exec_ssig (u : Bool) (a b : Nat) (s : State) : exec (.ssig u a b) s = execSsig u a b s := rfl
@[simp] theorem exec_ssig64 (u : Bool) (a b : Nat) (s : State) : exec (.ssig64 u a b) s = execSsig64 u a b s := rfl
@[simp] theorem exec_ssigAdd64 (u : Bool) (a b : Nat) (s : State) : exec (.ssigAdd64 u a b) s = execSsigAdd64 u a b s := rfl
@[simp] theorem exec_slda (u : Bool) (d a : Nat) (s : State) : exec (.slda u d a) s = execSlda u d a s := rfl
@[simp] theorem exec_slda64 (u : Bool) (d a : Nat) (s : State) : exec (.slda64 u d a) s = execSlda64 u d a s := rfl
@[simp] theorem exec_sli (u : Bool) (d i : Nat) (s : State) : exec (.sli u d i) s = execSli u d i s := rfl
@[simp] theorem exec_sliWide (d i : Nat) (s : State) : exec (.sliWide d i) s = execSliWide d i s := rfl
@[simp] theorem exec_sbnz (u : Bool) (a o : Nat) (s : State) : exec (.sbnz u a o) s = execSbnz u a o s := rfl
@[simp] theorem exec_sloop (u : Bool) (a o : Nat) (s : State) : exec (.sloop u a o) s = execSloop u a o s := rfl
@[simp] theorem exec_tcfg (u n : Bool) (d a : Nat) (s : State) : exec (.tcfg u n d a) s = execTcfg u n d a s := rfl
@[simp] theorem exec_tzero (u n : Bool) (d : Nat) (s : State) : exec (.tzero u n d) s = execTzero u n d s := rfl
@[simp] theorem exec_tzeroRows (u n : Bool) (d b : Nat) (s : State) : exec (.tzeroRows u n d b) s = execTzeroRows u n d b s := rfl
@[simp] theorem exec_twr (u n : Bool) (d a b : Nat) (s : State) : exec (.twr u n d a b) s = execTwr u n d a b s := rfl
@[simp] theorem exec_mma (u n : Bool) (d a : Nat) (s : State) : exec (.mma u n d a) s = execMma u n d a s := rfl
@[simp] theorem exec_mmas (u n : Bool) (d a : Nat) (s : State) : exec (.mmas u n d a) s = execMmas u n d a s := rfl
@[simp] theorem exec_mmao (u n : Bool) (d a : Nat) (s : State) : exec (.mmao u n d a) s = execMmao u n d a s := rfl
@[simp] theorem exec_accrd (u n : Bool) (d a b : Nat) (s : State) : exec (.accrd u n d a b) s = execAccrd u n d a b s := rfl
@[simp] theorem exec_accrdClr (u n : Bool) (d a b : Nat) (s : State) : exec (.accrdClr u n d a b) s = execAccrdClr u n d a b s := rfl
@[simp] theorem exec_accnorm (u n : Bool) (d : Nat) (s : State) : exec (.accnorm u n d) s = execAccnorm u n d s := rfl
@[simp] theorem exec_accnormRows (u n : Bool) (d b : Nat) (s : State) : exec (.accnormRows u n d b) s = execAccnormRows u n d b s := rfl
@[simp] theorem exec_acchrRow (u n : Bool) (d a b : Nat) (s : State) : exec (.acchrRow u n d a b) s = execAcchrRow u n d a b s := rfl
@[simp] theorem exec_acchrExp (u n : Bool) (d a b : Nat) (s : State) : exec (.acchrExp u n d a b) s = execAcchrExp u n d a b s := rfl
@[simp] theorem exec_acchrTile (u n : Bool) (d a : Nat) (s : State) : exec (.acchrTile u n d a) s = execAcchrTile u n d a s := rfl
@[simp] theorem exec_msync (u n : Bool) (a : Nat) (s : State) : exec (.msync u n a) s = execMsync u n a s := rfl
@[simp] theorem exec_cpy (u n : Bool) (d a b : Nat) (s : State) : exec (.cpy u n d a b) s = execCpy u n d a b s := rfl
@[simp] theorem exec_cpym (u n : Bool) (f d a b : Nat) (s : State) : exec (.cpym u n f d a b) s = execCpym u n f d a b s := rfl
@[simp] theorem exec_gather (u n : Bool) (d a b : Nat) (s : State) : exec (.gather u n d a b) s = execGather u n d a b s := rfl
@[simp] theorem exec_scatter (u n : Bool) (d a b : Nat) (s : State) : exec (.scatter u n d a b) s = execScatter u n d a b s := rfl
@[simp] theorem exec_stage (u n : Bool) (a b : Nat) (s : State) : exec (.stage u n a b) s = execStage u n a b s := rfl
@[simp] theorem exec_emblk (u n : Bool) (d a b : Nat) (s : State) : exec (.emblk u n d a b) s = execEmblk u n d a b s := rfl
@[simp] theorem exec_topk (u n : Bool) (d a b : Nat) (s : State) : exec (.topk u n d a b) s = execTopk u n d a b s := rfl
@[simp] theorem exec_coll (u n : Bool) (a : Nat) (s : State) : exec (.coll u n a) s = execColl u n a s := rfl
@[simp] theorem exec_agset (u n : Bool) (a b : Nat) (s : State) : exec (.agset u n a b) s = execAgset u n a b s := rfl
@[simp] theorem exec_egjoin (u n : Bool) (d a : Nat) (s : State) : exec (.egjoin u n d a) s = execEgjoin u n d a s := rfl
@[simp] theorem exec_egleave (u n : Bool) (d a : Nat) (s : State) : exec (.egleave u n d a) s = execEgleave u n d a s := rfl
@[simp] theorem exec_ttop (u : Bool) (a : Nat) (s : State) : exec (.ttop u a) s = execTtop u a s := rfl
@[simp] theorem exec_evpop (u : Bool) (d : Nat) (s : State) : exec (.evpop u d) s = execEvpop u d s := rfl
@[simp] theorem exec_evwait (u : Bool) (d : Nat) (s : State) : exec (.evwait u d) s = execEvwait u d s := rfl
@[simp] theorem exec_nop (s : State) : exec .nop s = execNop s := rfl
@[simp] theorem exec_yield (s : State) : exec .yield s = execYield s := rfl
@[simp] theorem exec_exit (s : State) : exec .exit s = execExit s := rfl
@[simp] theorem exec_phase (s : State) : exec .phase s = execPhase s := rfl
@[simp] theorem exec_meet (s : State) : exec .meet s = execMeet s := rfl
@[simp] theorem exec_clauseHeader (s : State) : exec .clauseHeader s = execClauseHeader s := rfl
@[simp] theorem exec_outputWarpStart (s : State) : exec .outputWarpStart s = execOutputWarpStart s := rfl
@[simp] theorem exec_rdv (s : State) : exec .rdv s = execRdv s := rfl
@[simp] theorem exec_sequencerStart (s : State) : exec .sequencerStart s = execSequencerStart s := rfl
@[simp] theorem exec_reggrowGrant (s : State) : exec .reggrowGrant s = execReggrowGrant s := rfl
@[simp] theorem exec_lookaheadResultWrite (s : State) : exec .lookaheadResultWrite s = execLookaheadResultWrite s := rfl
@[simp] theorem exec_storePerformed (s : State) : exec .storePerformed s = execStorePerformed s := rfl
@[simp] theorem exec_prefL2 (s : State) : exec .prefL2 s = execPrefL2 s := rfl
@[simp] theorem exec_prefL1 (s : State) : exec .prefL1 s = execPrefL1 s := rfl
@[simp] theorem exec_fence (s : State) : exec .fence s = execFence s := rfl
@[simp] theorem exec_lbarPlacementPreempt (s : State) : exec .lbarPlacementPreempt s = execLbarPlacementPreempt s := rfl
@[simp] theorem exec_gateSignalApply (s : State) : exec .gateSignalApply s = execGateSignalApply s := rfl
@[simp] theorem exec_trap (s : State) : exec .trap s = execTrap s := rfl
@[simp] theorem exec_trapret (s : State) : exec .trapret s = execTrapret s := rfl
@[simp] theorem exec_bkpt (s : State) : exec .bkpt s = execBkpt s := rfl
@[simp] theorem exec_sleepWake (s : State) : exec .sleepWake s = execSleepWake s := rfl
@[simp] theorem exec_phaseTimerExpiry (s : State) : exec .phaseTimerExpiry s = execPhaseTimerExpiry s := rfl
@[simp] theorem exec_handlerEntry (s : State) : exec .handlerEntry s = execHandlerEntry s := rfl
@[simp] theorem exec_swait (s : State) : exec .swait s = execSwait s := rfl
@[simp] theorem exec_endProg (s : State) : exec .endProg s = execEndProg s := rfl
@[simp] theorem exec_cpymFollowOn (s : State) : exec .cpymFollowOn s = execCpymFollowOn s := rfl
@[simp] theorem exec_ttopSlotStart (s : State) : exec .ttopSlotStart s = execTtopSlotStart s := rfl
@[simp] theorem exec_arrivedTilePush (s : State) : exec .arrivedTilePush s = execArrivedTilePush s := rfl
@[simp] theorem exec_engineCommandComplete (s : State) : exec .engineCommandComplete s = execEngineCommandComplete s := rfl
@[simp] theorem exec_completionRecordPush (s : State) : exec .completionRecordPush s = execCompletionRecordPush s := rfl
@[simp] theorem exec_controlProgramStart (s : State) : exec .controlProgramStart s = execControlProgramStart s := rfl
@[simp] theorem exec_qwptrWrite (s : State) : exec .qwptrWrite s = execQwptrWrite s := rfl
@[simp] theorem exec_queueReset (s : State) : exec .queueReset s = execQueueReset s := rfl
@[simp] theorem exec_queueEnable (s : State) : exec .queueEnable s = execQueueEnable s := rfl
@[simp] theorem exec_nopPacket (s : State) : exec .nopPacket s = execNopPacket s := rfl
@[simp] theorem exec_launchPacket (s : State) : exec .launchPacket s = execLaunchPacket s := rfl
@[simp] theorem exec_fencePacket (s : State) : exec .fencePacket s = execFencePacket s := rfl
@[simp] theorem exec_fenceCountersMet (s : State) : exec .fenceCountersMet s = execFenceCountersMet s := rfl
@[simp] theorem exec_fenceTimeout (s : State) : exec .fenceTimeout s = execFenceTimeout s := rfl
@[simp] theorem exec_writePacket (s : State) : exec .writePacket s = execWritePacket s := rfl
@[simp] theorem exec_timedPacket (s : State) : exec .timedPacket s = execTimedPacket s := rfl
@[simp] theorem exec_timedReached (s : State) : exec .timedReached s = execTimedReached s := rfl
@[simp] theorem exec_placeItem (s : State) : exec .placeItem s = execPlaceItem s := rfl
@[simp] theorem exec_priorityAging (s : State) : exec .priorityAging s = execPriorityAging s := rfl
@[simp] theorem exec_placementReserve (s : State) : exec .placementReserve s = execPlacementReserve s := rfl
@[simp] theorem exec_launchComplete (s : State) : exec .launchComplete s = execLaunchComplete s := rfl
@[simp] theorem exec_withdrawLaunch (s : State) : exec .withdrawLaunch s = execWithdrawLaunch s := rfl
@[simp] theorem exec_preempt (s : State) : exec .preempt s = execPreempt s := rfl
@[simp] theorem exec_preemptAndHold (s : State) : exec .preemptAndHold s = execPreemptAndHold s := rfl
@[simp] theorem exec_preemptRelease (s : State) : exec .preemptRelease s = execPreemptRelease s := rfl
@[simp] theorem exec_preemptSwapComplete (s : State) : exec .preemptSwapComplete s = execPreemptSwapComplete s := rfl
@[simp] theorem exec_preemptSpillComplete (s : State) : exec .preemptSpillComplete s = execPreemptSpillComplete s := rfl
@[simp] theorem exec_activate (s : State) : exec .activate s = execActivate s := rfl
@[simp] theorem exec_freeze (s : State) : exec .freeze s = execFreeze s := rfl
@[simp] theorem exec_freezeComplete (s : State) : exec .freezeComplete s = execFreezeComplete s := rfl
@[simp] theorem exec_resume (s : State) : exec .resume s = execResume s := rfl
@[simp] theorem exec_tearDownKeepingGates (s : State) : exec .tearDownKeepingGates s = execTearDownKeepingGates s := rfl
@[simp] theorem exec_tearDownExportingGates (s : State) : exec .tearDownExportingGates s = execTearDownExportingGates s := rfl
@[simp] theorem exec_teardownComplete (s : State) : exec .teardownComplete s = execTeardownComplete s := rfl
@[simp] theorem exec_partitionFieldWrite (s : State) : exec .partitionFieldWrite s = execPartitionFieldWrite s := rfl
@[simp] theorem exec_gateEntryWrite (s : State) : exec .gateEntryWrite s = execGateEntryWrite s := rfl
@[simp] theorem exec_gateTokenRefill (s : State) : exec .gateTokenRefill s = execGateTokenRefill s := rfl
@[simp] theorem exec_ringEnWrite (s : State) : exec .ringEnWrite s = execRingEnWrite s := rfl
@[simp] theorem exec_migrationGo (s : State) : exec .migrationGo s = execMigrationGo s := rfl
@[simp] theorem exec_migrationSwitchOver (s : State) : exec .migrationSwitchOver s = execMigrationSwitchOver s := rfl
@[simp] theorem exec_migrationFailure (s : State) : exec .migrationFailure s = execMigrationFailure s := rfl
@[simp] theorem exec_fabricAccessServe (s : State) : exec .fabricAccessServe s = execFabricAccessServe s := rfl
@[simp] theorem exec_parkedRetry (s : State) : exec .parkedRetry s = execParkedRetry s := rfl
@[simp] theorem exec_parkedDrop (s : State) : exec .parkedDrop s = execParkedDrop s := rfl
@[simp] theorem exec_parkedExpiry (s : State) : exec .parkedExpiry s = execParkedExpiry s := rfl
@[simp] theorem exec_memberAbsentTimeout (s : State) : exec .memberAbsentTimeout s = execMemberAbsentTimeout s := rfl
@[simp] theorem exec_agreementRoundStart (s : State) : exec .agreementRoundStart s = execAgreementRoundStart s := rfl
@[simp] theorem exec_agreementAckTimeout (s : State) : exec .agreementAckTimeout s = execAgreementAckTimeout s := rfl
@[simp] theorem exec_agreementRoundEnd (s : State) : exec .agreementRoundEnd s = execAgreementRoundEnd s := rfl
@[simp] theorem exec_switchReset (s : State) : exec .switchReset s = execSwitchReset s := rfl
@[simp] theorem exec_timeDomainLeave (s : State) : exec .timeDomainLeave s = execTimeDomainLeave s := rfl
@[simp] theorem exec_timeDomainRejoin (s : State) : exec .timeDomainRejoin s = execTimeDomainRejoin s := rfl
@[simp] theorem exec_tokenReceive (s : State) : exec .tokenReceive s = execTokenReceive s := rfl
@[simp] theorem exec_tokenReturnArrival (s : State) : exec .tokenReturnArrival s = execTokenReturnArrival s := rfl
@[simp] theorem exec_clockLockEffect (s : State) : exec .clockLockEffect s = execClockLockEffect s := rfl
@[simp] theorem exec_powerClampAdjust (s : State) : exec .powerClampAdjust s = execPowerClampAdjust s := rfl
@[simp] theorem exec_energyAttributionInterval (s : State) : exec .energyAttributionInterval s = execEnergyAttributionInterval s := rfl
@[simp] theorem exec_energyIdleSlotAdd (s : State) : exec .energyIdleSlotAdd s = execEnergyIdleSlotAdd s := rfl
@[simp] theorem exec_hostMemRead (s : State) : exec .hostMemRead s = execHostMemRead s := rfl
@[simp] theorem exec_hostMemWrite (s : State) : exec .hostMemWrite s = execHostMemWrite s := rfl
@[simp] theorem exec_ownerClaim (s : State) : exec .ownerClaim s = execOwnerClaim s := rfl
@[simp] theorem exec_ownerHandOver (s : State) : exec .ownerHandOver s = execOwnerHandOver s := rfl
@[simp] theorem exec_ownerAccept (s : State) : exec .ownerAccept s = execOwnerAccept s := rfl
@[simp] theorem exec_ownerRelease (s : State) : exec .ownerRelease s = execOwnerRelease s := rfl
@[simp] theorem exec_ownerLinkDown (s : State) : exec .ownerLinkDown s = execOwnerLinkDown s := rfl
@[simp] theorem exec_portLimiterWrite (s : State) : exec .portLimiterWrite s = execPortLimiterWrite s := rfl
@[simp] theorem exec_hostWindowWrite (s : State) : exec .hostWindowWrite s = execHostWindowWrite s := rfl
@[simp] theorem exec_coldReset (s : State) : exec .coldReset s = execColdReset s := rfl
@[simp] theorem exec_warmReset (s : State) : exec .warmReset s = execWarmReset s := rfl
@[simp] theorem exec_bootctlWrite (s : State) : exec .bootctlWrite s = execBootctlWrite s := rfl
@[simp] theorem exec_bootCheckComplete (s : State) : exec .bootCheckComplete s = execBootCheckComplete s := rfl
@[simp] theorem exec_blackboxSnap (s : State) : exec .blackboxSnap s = execBlackboxSnap s := rfl
@[simp] theorem exec_blackboxSnapComplete (s : State) : exec .blackboxSnapComplete s = execBlackboxSnapComplete s := rfl
@[simp] theorem exec_getVersion (s : State) : exec .getVersion s = execGetVersion s := rfl
@[simp] theorem exec_getCapabilities (s : State) : exec .getCapabilities s = execGetCapabilities s := rfl
@[simp] theorem exec_negotiateAlgorithms (s : State) : exec .negotiateAlgorithms s = execNegotiateAlgorithms s := rfl
@[simp] theorem exec_getDigests (s : State) : exec .getDigests s = execGetDigests s := rfl
@[simp] theorem exec_getCertificate (s : State) : exec .getCertificate s = execGetCertificate s := rfl
@[simp] theorem exec_challenge (s : State) : exec .challenge s = execChallenge s := rfl
@[simp] theorem exec_getMeasurements (s : State) : exec .getMeasurements s = execGetMeasurements s := rfl
@[simp] theorem exec_patrolScrub (s : State) : exec .patrolScrub s = execPatrolScrub s := rfl
@[simp] theorem exec_uncorrectableError (s : State) : exec .uncorrectableError s = execUncorrectableError s := rfl
@[simp] theorem exec_genericRegisterWrite (s : State) : exec .genericRegisterWrite s = execGenericRegisterWrite s := rfl
@[simp] theorem exec_relationOperationComplete (s : State) : exec .relationOperationComplete s = execRelationOperationComplete s := rfl
@[simp] theorem exec_engineCounterOperationComplete (s : State) :
    exec .engineCounterOperationComplete s = execEngineCounterOperationComplete s := rfl
@[simp] theorem exec_switchUnreachable (s : State) : exec .switchUnreachable s = execSwitchUnreachable s := rfl
@[simp] theorem exec_fabricFormation (s : State) : exec .fabricFormation s = execFabricFormation s := rfl
@[simp] theorem exec_tokenBrokerMove (s : State) : exec .tokenBrokerMove s = execTokenBrokerMove s := rfl

end Sys2Proof.Machine
end

