-- ==== Sys2Proof/Laws/Maps.lean ====
section
/-! SUPPORT. Laws of sparse data: a read after a write, and the rising order of keys. -/
namespace Sys2Proof.Machine

variable {α : Type}

theorem find_put_same (m : Map α) (k : Nat) (v : α) : find (put m k v) k = some v := by
  induction m with
  | nil => simp [put, find]
  | cons e r ih =>
    obtain ⟨j, w⟩ := e
    simp only [put]
    split
    · simp [find]
    · split
      · simp [find]
      · rename_i h1 h2
        simp only [find]
        rw [if_neg (fun h => h2 h.symm)]
        exact ih

theorem find_put_other (m : Map α) {j k : Nat} (v : α) (h : j ≠ k) : find (put m k v) j = find m j := by
  induction m with
  | nil => simp [put, find, Ne.symm h]
  | cons e r ih =>
    obtain ⟨i, w⟩ := e
    simp only [put]
    split
    · simp [find, Ne.symm h]
    · split
      · rename_i h2
        simp [find, Ne.symm h, ← h2]
      · simp only [find]
        split <;> simp_all

theorem findD_put_same (m : Map α) (k : Nat) (v d : α) : findD (put m k v) k d = v := by simp [findD, find_put_same]
theorem findD_put_other (m : Map α) {j k : Nat} (v d : α) (h : j ≠ k) : findD (put m k v) j d = findD m j d := by
  simp [findD, find_put_other m v h]

/-- A key that a map with rising keys does not reach stands before all of them. -/
theorem rising_cons {e : Nat × α} {m : Map α} :
    Rising (e :: m) = true ↔ Rising m = true ∧ ∀ x ∈ m.head?, e.1 < x.1 := by
  cases m with
  | nil => simp [Rising]
  | cons x r => simp [Rising, and_comm]

theorem put_head (m : Map α) (k : Nat) (v : α) :
    ∀ x ∈ (put m k v).head?, x.1 = k ∨ ∃ y ∈ m.head?, x.1 = y.1 := by
  cases m with
  | nil => simp [put]
  | cons e r =>
    obtain ⟨j, w⟩ := e
    simp only [put]
    split
    · simp
    · split <;> simp

theorem rising_put (m : Map α) (k : Nat) (v : α) (h : Rising m = true) : Rising (put m k v) = true := by
  induction m with
  | nil => simp [put, Rising]
  | cons e r ih =>
    obtain ⟨j, w⟩ := e
    rw [rising_cons] at h
    simp only [put]
    split
    · rename_i hk
      rw [rising_cons]
      exact ⟨rising_cons.mpr h, by simpa using hk⟩
    · split
      · rename_i hk
        rw [rising_cons]
        exact ⟨h.1, by simpa [hk] using h.2⟩
      · rename_i h1 h2
        rw [rising_cons]
        refine ⟨ih h.1, fun x hx => ?_⟩
        rcases put_head r k v x hx with hk | ⟨y, hy, hxy⟩
        · simp only [hk]; omega
        · rw [hxy]; exact h.2 y hy

theorem drop_head (m : Map α) (k : Nat) (h : Rising m = true) :
    ∀ x ∈ (drop m k).head?, ∃ y ∈ m.head?, y.1 ≤ x.1 := by
  cases m with
  | nil => simp [drop]
  | cons e r =>
    obtain ⟨j, w⟩ := e
    rw [rising_cons] at h
    simp only [drop]
    split
    · intro x hx
      exact ⟨(j, w), by simp, Nat.le_of_lt (h.2 x hx)⟩
    · simp

theorem rising_drop (m : Map α) (k : Nat) (h : Rising m = true) : Rising (drop m k) = true := by
  induction m with
  | nil => simp [drop, Rising]
  | cons e r ih =>
    obtain ⟨j, w⟩ := e
    have h' := rising_cons.mp h
    simp only [drop]
    split
    · exact h'.1
    · rw [rising_cons]
      refine ⟨ih h'.1, fun x hx => ?_⟩
      obtain ⟨y, hy, hle⟩ := drop_head r k h'.1 x hx
      exact Nat.lt_of_lt_of_le (h'.2 y hy) hle

theorem find_drop_other (m : Map α) {j k : Nat} (h : j ≠ k) : find (drop m k) j = find m j := by
  induction m with
  | nil => rfl
  | cons e r ih =>
    obtain ⟨i, w⟩ := e
    simp only [drop]
    split
    · rename_i hi
      simp [find, hi, Ne.symm h]
    · simp only [find]
      split <;> simp_all

end Sys2Proof.Machine
end

