-- ==== Sys2Proof/Laws/Mem.lean ====
section
/-! SUPPORT. Laws of memory: a read after a write, and that every memory operation keeps the canonical form. -/
namespace Sys2Proof.Machine

/-! ## Cells -/

theorem cellAt_writeCell_other (c : List Host.Cell) {a b : Nat} (v : Byte) (h : a ≠ b) :
    cellAt (writeCell c a v) b = cellAt c b := by
  induction c with
  | nil => by_cases hv : v = unwritten <;> simp [writeCell, cellAt, hv, h]
  | cons e r ih =>
    obtain ⟨i, w⟩ := e
    simp only [writeCell]
    split
    · split <;> simp [cellAt, h]
    · split
      · rename_i hi
        split <;> simp [cellAt, h, ← hi]
      · simp only [cellAt]
        split <;> simp_all

/-- An address below every cell reads as unwritten. -/
theorem cellAt_below (c : List Host.Cell) (a : Nat) (h : ∀ x ∈ c, a < x.1) : cellAt c a = unwritten := by
  induction c with
  | nil => rfl
  | cons e r ih =>
    obtain ⟨i, w⟩ := e
    have h1 : a < i := h (i, w) (by simp)
    simp only [cellAt]
    rw [if_neg (by omega)]
    exact ih fun x hx => h x (by simp [hx])

theorem cellsWf_cons {e : Host.Cell} {c : List Host.Cell} :
    cellsWf (e :: c) = true ↔ e.2 ≠ unwritten ∧ cellsWf c = true ∧ ∀ x ∈ c.head?, e.1 < x.1 := by
  obtain ⟨a, v⟩ := e
  cases c with
  | nil => simp [cellsWf]
  | cons x r =>
    obtain ⟨b, w⟩ := x
    simp only [cellsWf, Bool.and_eq_true, decide_eq_true_eq, bne_iff_ne, List.head?_cons, Option.mem_def, Option.some.injEq,
      forall_eq']
    tauto

/-- In canonical form the first cell stands below the others. -/
theorem cellsWf_below {e : Host.Cell} {c : List Host.Cell} (h : cellsWf (e :: c) = true) : ∀ x ∈ c, e.1 < x.1 := by
  induction c generalizing e with
  | nil => simp
  | cons y r ih =>
    have h1 := cellsWf_cons.mp h
    have hy : e.1 < y.1 := h1.2.2 y (by simp)
    intro x hx
    rcases List.mem_cons.mp hx with rfl | hx
    · exact hy
    · exact Nat.lt_trans hy (ih h1.2.1 x hx)

theorem cellAt_writeCell_same (c : List Host.Cell) (a : Nat) (v : Byte) (h : cellsWf c = true) :
    cellAt (writeCell c a v) a = v := by
  induction c with
  | nil => by_cases hv : v = unwritten <;> simp [writeCell, cellAt, hv]
  | cons e r ih =>
    obtain ⟨i, w⟩ := e
    have hb := cellsWf_below h
    have h' := cellsWf_cons.mp h
    simp only [writeCell]
    split
    · rename_i hlt
      split
      · rename_i hv
        rw [hv]
        refine cellAt_below _ _ fun x hx => ?_
        rcases List.mem_cons.mp hx with rfl | hx
        · exact hlt
        · exact Nat.lt_trans hlt (hb x hx)
      · simp [cellAt]
    · split
      · rename_i heq
        split
        · rename_i hv
          rw [hv, heq]
          exact cellAt_below _ _ hb
        · simp [cellAt]
      · rename_i h1 h2
        simp only [cellAt]
        rw [if_neg (fun hh => h2 hh.symm)]
        exact ih h'.2.1

theorem writeCell_head (c : List Host.Cell) (a : Nat) (v : Byte) (h : cellsWf c = true) :
    ∀ x ∈ (writeCell c a v).head?, x.1 = a ∨ ∃ y ∈ c.head?, y.1 ≤ x.1 := by
  cases c with
  | nil => by_cases hv : v = unwritten <;> simp [writeCell, hv]
  | cons e r =>
    obtain ⟨i, w⟩ := e
    have h' := cellsWf_cons.mp h
    simp only [writeCell]
    split
    · split <;> simp
    · split
      · split
        · intro x hx
          exact .inr ⟨(i, w), by simp, Nat.le_of_lt (h'.2.2 x hx)⟩
        · simp
      · simp

/-- A byte written keeps the canonical form. -/
theorem cellsWf_writeCell (c : List Host.Cell) (a : Nat) (v : Byte) (h : cellsWf c = true) : cellsWf (writeCell c a v) = true := by
  induction c with
  | nil => by_cases hv : v = unwritten <;> simp [writeCell, hv, cellsWf]
  | cons e r ih =>
    obtain ⟨i, w⟩ := e
    have h' := cellsWf_cons.mp h
    simp only [writeCell]
    split
    · rename_i hlt
      split
      · exact h
      · rename_i hv
        exact cellsWf_cons.mpr ⟨hv, h, by simpa using hlt⟩
    · split
      · rename_i heq
        split
        · exact h'.2.1
        · rename_i hv
          exact cellsWf_cons.mpr ⟨hv, h'.2.1, by simpa [heq] using h'.2.2⟩
      · rename_i h1 h2
        refine cellsWf_cons.mpr ⟨h'.1, ih h'.2.1, fun x hx => ?_⟩
        rcases writeCell_head r a v h'.2.1 x hx with hx | ⟨y, hy, hle⟩
        · simp only [hx]; omega
        · exact Nat.lt_of_lt_of_le (h'.2.2 y hy) hle

theorem cellsWf_writeCells (l : List (Nat × Byte)) (c : List Host.Cell) (h : cellsWf c = true) : cellsWf (writeCells c l) = true := by
  induction l generalizing c with
  | nil => exact h
  | cons e r ih => exact ih _ (cellsWf_writeCell c e.1 e.2 h)

/-! ## Memory -/

theorem wf_settle (m : Memory) (a : Nat) (h : m.wf = true) : (m.settle a).wf = true := by
  unfold Memory.settle
  split
  · exact cellsWf_writeCells _ _ h
  · exact h

theorem wf_writeByte (m : Memory) (a : Nat) (v : Byte) (h : m.wf = true) : (m.writeByte a v).wf = true :=
  cellsWf_writeCell _ _ _ (wf_settle m a h)

theorem wf_writeAll (l : List (Nat × Byte)) (m : Memory) (h : m.wf = true) : (m.writeAll l).wf = true := by
  induction l generalizing m with
  | nil => exact h
  | cons e r ih => exact ih _ (wf_writeByte m e.1 e.2 h)

theorem wf_write (m : Memory) (a : Nat) (bs : List Byte) (h : m.wf = true) : (m.write a bs).wf = true :=
  wf_writeAll (located a bs) m h

theorem wf_poisonSpan (m : Memory) (a n : Nat) (h : m.wf = true) : (m.poisonSpan a n).wf = true := h

theorem wf_raddF32 (m : Memory) (a : Nat) (v : Word) (pick : Nat) (h : m.wf = true) : (m.raddF32 a v pick).wf = true := by
  unfold Memory.raddF32
  split <;> exact h

/-! ## A byte after a write -/

theorem settle_no_run (m : Memory) (a : Nat) : (m.settle a).runAt a = none := by
  cases h : m.runAt a with
  | none => simp [Memory.settle, h]
  | some r =>
    have hr : r.addr = a / 4 * 4 := by simpa using List.find?_some h
    simp only [Memory.settle, h]
    unfold Memory.runAt
    rw [List.find?_eq_none]
    intro x hx
    have := (List.mem_filter.mp hx).2
    simp only [decide_eq_true_eq] at this ⊢
    rw [← hr]
    exact this

/-- A byte written is the byte read. -/
theorem byte_writeByte_same (m : Memory) (a : Nat) (v : Byte) (h : m.wf = true) : (m.writeByte a v).byte a = v := by
  have hn : (m.writeByte a v).runAt a = none := settle_no_run m a
  simp only [Memory.byte, hn]
  exact cellAt_writeCell_same _ _ _ (wf_settle m a h)

/-- Closing a run changes no byte that is read. -/
theorem byte_settle (m : Memory) (a b : Nat) (h : m.wf = true) : (m.settle a).byte b = m.byte b := by
  cases hr : m.runAt a with
  | none => simp [Memory.settle, hr]
  | some r =>
    have ha : r.addr = a / 4 * 4 := by simpa using List.find?_some hr
    by_cases hb : b / 4 = a / 4
    · have hb' : m.runAt b = some r := by rw [← hr]; simp [Memory.runAt, hb]
      have hn : (m.settle a).runAt b = none := by
        rw [← settle_no_run m a]; simp [Memory.runAt, hb]
      have e1 : (m.settle a).byte b = cellAt (m.settle a).cells b := by simp only [Memory.byte, hn]
      have e2 : m.byte b = BitVec.ofNat 8 (r.value.toNat / 256 ^ (b % 4)) := by simp only [Memory.byte, hb']
      have e3 : (m.settle a).cells = writeCells m.cells (located r.addr (bytesOf 4 r.value.toNat)) := by simp only [Memory.settle, hr]
      rw [e1, e2, e3]
      have hc : cellsWf m.cells = true := h
      have k : b = r.addr ∨ b = r.addr + 1 ∨ b = r.addr + 2 ∨ b = r.addr + 3 := by omega
      simp only [bytesOf, located, writeCells]
      have w1 := cellsWf_writeCell m.cells r.addr (BitVec.ofNat 8 r.value.toNat) hc
      have w2 := cellsWf_writeCell _ (r.addr + 1) (BitVec.ofNat 8 (r.value.toNat / 256)) w1
      have w3 := cellsWf_writeCell _ (r.addr + 1 + 1) (BitVec.ofNat 8 (r.value.toNat / 256 / 256)) w2
      rcases k with rfl | rfl | rfl | rfl
      · rw [cellAt_writeCell_other _ _ (by omega), cellAt_writeCell_other _ _ (by omega), cellAt_writeCell_other _ _ (by omega),
          cellAt_writeCell_same _ _ _ hc]
        have : r.addr % 4 = 0 := by omega
        simp [this]
      · rw [cellAt_writeCell_other _ _ (by omega), cellAt_writeCell_other _ _ (by omega), cellAt_writeCell_same _ _ _ w1]
        have : (r.addr + 1) % 4 = 1 := by omega
        simp [this]
      · rw [cellAt_writeCell_other _ _ (by omega), cellAt_writeCell_same _ _ _ w2]
        have : (r.addr + 2) % 4 = 2 := by omega
        simp [this, Nat.div_div_eq_div_mul]
      · rw [cellAt_writeCell_same _ _ _ w3]
        have : (r.addr + 3) % 4 = 3 := by omega
        simp [this, Nat.div_div_eq_div_mul]
    · have hs : (m.settle a).runAt b = m.runAt b := by
        have e : (m.settle a).runs = m.runs.filter fun x => decide (x.addr ≠ r.addr) := by simp only [Memory.settle, hr]
        unfold Memory.runAt
        rw [e, List.find?_filter]
        congr 1
        funext x
        by_cases hx : x.addr = b / 4 * 4
        · simp [hx]
          omega
        · simp [hx]
      cases hrb : m.runAt b with
      | some x => simp only [Memory.byte, hs, hrb]
      | none =>
        have e1 : (m.settle a).byte b = cellAt (m.settle a).cells b := by simp only [Memory.byte, hs, hrb]
        have e2 : m.byte b = cellAt m.cells b := by simp only [Memory.byte, hrb]
        have e3 : (m.settle a).cells = writeCells m.cells (located r.addr (bytesOf 4 r.value.toNat)) := by simp only [Memory.settle, hr]
        rw [e1, e2, e3]
        simp only [bytesOf, located, writeCells]
        rw [cellAt_writeCell_other _ _ (by omega), cellAt_writeCell_other _ _ (by omega), cellAt_writeCell_other _ _ (by omega),
          cellAt_writeCell_other _ _ (by omega)]

/-- A byte written leaves every other byte as it reads. -/
theorem byte_writeByte_other (m : Memory) {a b : Nat} (v : Byte) (hab : a ≠ b) (h : m.wf = true) :
    (m.writeByte a v).byte b = m.byte b := by
  rw [← byte_settle m a b h]
  simp only [Memory.byte, Memory.writeByte, Memory.runAt]
  split
  · rfl
  · exact cellAt_writeCell_other _ _ hab

/-- Bytes written leave every byte outside their addresses as it reads. -/
theorem byte_writeAll_other (l : List (Nat × Byte)) (m : Memory) (b : Nat) (hb : ∀ e ∈ l, e.1 ≠ b) (h : m.wf = true) :
    (m.writeAll l).byte b = m.byte b := by
  induction l generalizing m with
  | nil => rfl
  | cons e r ih =>
    have h1 := ih (m.writeByte e.1 e.2) (fun x hx => hb x (by simp [hx])) (wf_writeByte m e.1 e.2 h)
    exact h1.trans (byte_writeByte_other m e.2 (hb e (by simp)) h)

theorem located_addr (bs : List Byte) (a : Nat) : ∀ e ∈ located a bs, a ≤ e.1 ∧ e.1 < a + bs.length := by
  induction bs generalizing a with
  | nil => simp [located]
  | cons b r ih =>
    intro e he
    rcases List.mem_cons.mp he with rfl | he
    · simp
    · have := ih (a + 1) e he
      simp only [List.length_cons]
      omega

/-- A write leaves every byte outside its span as it reads. -/
theorem byte_write_other (m : Memory) (a b : Nat) (bs : List Byte) (hb : b < a ∨ a + bs.length ≤ b) (h : m.wf = true) :
    (m.write a bs).byte b = m.byte b := by
  refine byte_writeAll_other (located a bs) m b (fun e he => ?_) h
  have := located_addr bs a e he
  omega

/-! ## The scratchpad -/

theorem spad_writeAll_poison (l : List (Nat × Byte)) (s : Spad) : (s.writeAll l).poison = s.poison := by
  induction l generalizing s with
  | nil => rfl
  | cons e r ih => exact ih _

end Sys2Proof.Machine
end

