-- ==== Sys2Proof/Laws/State.lean ====
section
/-! SUPPORT. Laws of the state: one lemma per field per update, and what the updates of a part, of work and of warps do to what is read. -/
namespace Sys2Proof.Machine

variable (s : State)

/-! ## modPart -/

@[simp] theorem State.modPart_mem (p : Nat) (f : Partition → Partition) : (s.modPart p f).mem = s.mem := rfl
@[simp] theorem State.modPart_spad (p : Nat) (f : Partition → Partition) : (s.modPart p f).spad = s.spad := rfl
@[simp] theorem State.modPart_late (p : Nat) (f : Partition → Partition) : (s.modPart p f).late = s.late := rfl
@[simp] theorem State.modPart_dirty (p : Nat) (f : Partition → Partition) : (s.modPart p f).dirty = s.dirty := rfl
@[simp] theorem State.modPart_works (p : Nat) (f : Partition → Partition) : (s.modPart p f).works = s.works := rfl
@[simp] theorem State.modPart_cores (p : Nat) (f : Partition → Partition) : (s.modPart p f).cores = s.cores := rfl
@[simp] theorem State.modPart_gates (p : Nat) (f : Partition → Partition) : (s.modPart p f).gates = s.gates := rfl
@[simp] theorem State.modPart_images (p : Nat) (f : Partition → Partition) : (s.modPart p f).images = s.images := rfl
@[simp] theorem State.modPart_boot (p : Nat) (f : Partition → Partition) : (s.modPart p f).boot = s.boot := rfl
@[simp] theorem State.modPart_bb (p : Nat) (f : Partition → Partition) : (s.modPart p f).bb = s.bb := rfl
@[simp] theorem State.modPart_host (p : Nat) (f : Partition → Partition) : (s.modPart p f).host = s.host := rfl
@[simp] theorem State.modPart_fabric (p : Nat) (f : Partition → Partition) : (s.modPart p f).fabric = s.fabric := rfl
@[simp] theorem State.modPart_power (p : Nat) (f : Partition → Partition) : (s.modPart p f).power = s.power := rfl
@[simp] theorem State.modPart_cycle (p : Nat) (f : Partition → Partition) : (s.modPart p f).cycle = s.cycle := rfl
@[simp] theorem State.modPart_lag (p : Nat) (f : Partition → Partition) : (s.modPart p f).lag = s.lag := rfl
@[simp] theorem State.modPart_tick (p : Nat) (f : Partition → Partition) : (s.modPart p f).tick = s.tick := rfl
@[simp] theorem State.modPart_ids (p : Nat) (f : Partition → Partition) : (s.modPart p f).ids = s.ids := rfl
@[simp] theorem State.modPart_issue (p : Nat) (f : Partition → Partition) : (s.modPart p f).issue = s.issue := rfl
@[simp] theorem State.modPart_inputs (p : Nat) (f : Partition → Partition) : (s.modPart p f).inputs = s.inputs := rfl
@[simp] theorem State.modPart_follow (p : Nat) (f : Partition → Partition) : (s.modPart p f).follow = s.follow := rfl
@[simp] theorem State.modPart_tape (p : Nat) (f : Partition → Partition) : (s.modPart p f).tape = s.tape := rfl

/-! ## modWork -/

@[simp] theorem State.modWork_mem (p : Nat) (f : Work → Work) : (s.modWork p f).mem = s.mem := rfl
@[simp] theorem State.modWork_spad (p : Nat) (f : Work → Work) : (s.modWork p f).spad = s.spad := rfl
@[simp] theorem State.modWork_late (p : Nat) (f : Work → Work) : (s.modWork p f).late = s.late := rfl
@[simp] theorem State.modWork_dirty (p : Nat) (f : Work → Work) : (s.modWork p f).dirty = s.dirty := rfl
@[simp] theorem State.modWork_parts (p : Nat) (f : Work → Work) : (s.modWork p f).parts = s.parts := rfl
@[simp] theorem State.modWork_cores (p : Nat) (f : Work → Work) : (s.modWork p f).cores = s.cores := rfl
@[simp] theorem State.modWork_gates (p : Nat) (f : Work → Work) : (s.modWork p f).gates = s.gates := rfl
@[simp] theorem State.modWork_images (p : Nat) (f : Work → Work) : (s.modWork p f).images = s.images := rfl
@[simp] theorem State.modWork_boot (p : Nat) (f : Work → Work) : (s.modWork p f).boot = s.boot := rfl
@[simp] theorem State.modWork_bb (p : Nat) (f : Work → Work) : (s.modWork p f).bb = s.bb := rfl
@[simp] theorem State.modWork_host (p : Nat) (f : Work → Work) : (s.modWork p f).host = s.host := rfl
@[simp] theorem State.modWork_fabric (p : Nat) (f : Work → Work) : (s.modWork p f).fabric = s.fabric := rfl
@[simp] theorem State.modWork_power (p : Nat) (f : Work → Work) : (s.modWork p f).power = s.power := rfl
@[simp] theorem State.modWork_cycle (p : Nat) (f : Work → Work) : (s.modWork p f).cycle = s.cycle := rfl
@[simp] theorem State.modWork_lag (p : Nat) (f : Work → Work) : (s.modWork p f).lag = s.lag := rfl
@[simp] theorem State.modWork_tick (p : Nat) (f : Work → Work) : (s.modWork p f).tick = s.tick := rfl
@[simp] theorem State.modWork_ids (p : Nat) (f : Work → Work) : (s.modWork p f).ids = s.ids := rfl
@[simp] theorem State.modWork_issue (p : Nat) (f : Work → Work) : (s.modWork p f).issue = s.issue := rfl
@[simp] theorem State.modWork_inputs (p : Nat) (f : Work → Work) : (s.modWork p f).inputs = s.inputs := rfl
@[simp] theorem State.modWork_follow (p : Nat) (f : Work → Work) : (s.modWork p f).follow = s.follow := rfl
@[simp] theorem State.modWork_tape (p : Nat) (f : Work → Work) : (s.modWork p f).tape = s.tape := rfl

/-! ## modCore -/

@[simp] theorem State.modCore_mem (c : Nat) (f : Core → Core) : (s.modCore c f).mem = s.mem := rfl
@[simp] theorem State.modCore_spad (c : Nat) (f : Core → Core) : (s.modCore c f).spad = s.spad := rfl
@[simp] theorem State.modCore_late (c : Nat) (f : Core → Core) : (s.modCore c f).late = s.late := rfl
@[simp] theorem State.modCore_dirty (c : Nat) (f : Core → Core) : (s.modCore c f).dirty = s.dirty := rfl
@[simp] theorem State.modCore_parts (c : Nat) (f : Core → Core) : (s.modCore c f).parts = s.parts := rfl
@[simp] theorem State.modCore_works (c : Nat) (f : Core → Core) : (s.modCore c f).works = s.works := rfl
@[simp] theorem State.modCore_gates (c : Nat) (f : Core → Core) : (s.modCore c f).gates = s.gates := rfl
@[simp] theorem State.modCore_images (c : Nat) (f : Core → Core) : (s.modCore c f).images = s.images := rfl
@[simp] theorem State.modCore_boot (c : Nat) (f : Core → Core) : (s.modCore c f).boot = s.boot := rfl
@[simp] theorem State.modCore_bb (c : Nat) (f : Core → Core) : (s.modCore c f).bb = s.bb := rfl
@[simp] theorem State.modCore_host (c : Nat) (f : Core → Core) : (s.modCore c f).host = s.host := rfl
@[simp] theorem State.modCore_fabric (c : Nat) (f : Core → Core) : (s.modCore c f).fabric = s.fabric := rfl
@[simp] theorem State.modCore_power (c : Nat) (f : Core → Core) : (s.modCore c f).power = s.power := rfl
@[simp] theorem State.modCore_cycle (c : Nat) (f : Core → Core) : (s.modCore c f).cycle = s.cycle := rfl
@[simp] theorem State.modCore_lag (c : Nat) (f : Core → Core) : (s.modCore c f).lag = s.lag := rfl
@[simp] theorem State.modCore_tick (c : Nat) (f : Core → Core) : (s.modCore c f).tick = s.tick := rfl
@[simp] theorem State.modCore_ids (c : Nat) (f : Core → Core) : (s.modCore c f).ids = s.ids := rfl
@[simp] theorem State.modCore_issue (c : Nat) (f : Core → Core) : (s.modCore c f).issue = s.issue := rfl
@[simp] theorem State.modCore_inputs (c : Nat) (f : Core → Core) : (s.modCore c f).inputs = s.inputs := rfl
@[simp] theorem State.modCore_follow (c : Nat) (f : Core → Core) : (s.modCore c f).follow = s.follow := rfl
@[simp] theorem State.modCore_tape (c : Nat) (f : Core → Core) : (s.modCore c f).tape = s.tape := rfl

/-! ## wrote -/

@[simp] theorem State.wrote_mem (spad : Bool) (ps : List Nat) (path : Nat) (who : List (Nat × Nat × Nat)) (a n : Nat) : (s.wrote spad ps path who a n).mem = s.mem := rfl
@[simp] theorem State.wrote_spad (spad : Bool) (ps : List Nat) (path : Nat) (who : List (Nat × Nat × Nat)) (a n : Nat) : (s.wrote spad ps path who a n).spad = s.spad := rfl
@[simp] theorem State.wrote_parts (spad : Bool) (ps : List Nat) (path : Nat) (who : List (Nat × Nat × Nat)) (a n : Nat) : (s.wrote spad ps path who a n).parts = s.parts := rfl
@[simp] theorem State.wrote_works (spad : Bool) (ps : List Nat) (path : Nat) (who : List (Nat × Nat × Nat)) (a n : Nat) : (s.wrote spad ps path who a n).works = s.works := rfl
@[simp] theorem State.wrote_cores (spad : Bool) (ps : List Nat) (path : Nat) (who : List (Nat × Nat × Nat)) (a n : Nat) : (s.wrote spad ps path who a n).cores = s.cores := rfl
@[simp] theorem State.wrote_gates (spad : Bool) (ps : List Nat) (path : Nat) (who : List (Nat × Nat × Nat)) (a n : Nat) : (s.wrote spad ps path who a n).gates = s.gates := rfl
@[simp] theorem State.wrote_images (spad : Bool) (ps : List Nat) (path : Nat) (who : List (Nat × Nat × Nat)) (a n : Nat) : (s.wrote spad ps path who a n).images = s.images := rfl
@[simp] theorem State.wrote_boot (spad : Bool) (ps : List Nat) (path : Nat) (who : List (Nat × Nat × Nat)) (a n : Nat) : (s.wrote spad ps path who a n).boot = s.boot := rfl
@[simp] theorem State.wrote_bb (spad : Bool) (ps : List Nat) (path : Nat) (who : List (Nat × Nat × Nat)) (a n : Nat) : (s.wrote spad ps path who a n).bb = s.bb := rfl
@[simp] theorem State.wrote_host (spad : Bool) (ps : List Nat) (path : Nat) (who : List (Nat × Nat × Nat)) (a n : Nat) : (s.wrote spad ps path who a n).host = s.host := rfl
@[simp] theorem State.wrote_fabric (spad : Bool) (ps : List Nat) (path : Nat) (who : List (Nat × Nat × Nat)) (a n : Nat) : (s.wrote spad ps path who a n).fabric = s.fabric := rfl
@[simp] theorem State.wrote_power (spad : Bool) (ps : List Nat) (path : Nat) (who : List (Nat × Nat × Nat)) (a n : Nat) : (s.wrote spad ps path who a n).power = s.power := rfl
@[simp] theorem State.wrote_cycle (spad : Bool) (ps : List Nat) (path : Nat) (who : List (Nat × Nat × Nat)) (a n : Nat) : (s.wrote spad ps path who a n).cycle = s.cycle := rfl
@[simp] theorem State.wrote_lag (spad : Bool) (ps : List Nat) (path : Nat) (who : List (Nat × Nat × Nat)) (a n : Nat) : (s.wrote spad ps path who a n).lag = s.lag := rfl
@[simp] theorem State.wrote_tick (spad : Bool) (ps : List Nat) (path : Nat) (who : List (Nat × Nat × Nat)) (a n : Nat) : (s.wrote spad ps path who a n).tick = s.tick := rfl
@[simp] theorem State.wrote_ids (spad : Bool) (ps : List Nat) (path : Nat) (who : List (Nat × Nat × Nat)) (a n : Nat) : (s.wrote spad ps path who a n).ids = s.ids := rfl
@[simp] theorem State.wrote_issue (spad : Bool) (ps : List Nat) (path : Nat) (who : List (Nat × Nat × Nat)) (a n : Nat) : (s.wrote spad ps path who a n).issue = s.issue := rfl
@[simp] theorem State.wrote_inputs (spad : Bool) (ps : List Nat) (path : Nat) (who : List (Nat × Nat × Nat)) (a n : Nat) : (s.wrote spad ps path who a n).inputs = s.inputs := rfl
@[simp] theorem State.wrote_follow (spad : Bool) (ps : List Nat) (path : Nat) (who : List (Nat × Nat × Nat)) (a n : Nat) : (s.wrote spad ps path who a n).follow = s.follow := rfl
@[simp] theorem State.wrote_tape (spad : Bool) (ps : List Nat) (path : Nat) (who : List (Nat × Nat × Nat)) (a n : Nat) : (s.wrote spad ps path who a n).tape = s.tape := rfl

/-! ## acquireOn -/

@[simp] theorem State.acquireOn_mem (p core : Nat) : (s.acquireOn p core).mem = s.mem := rfl
@[simp] theorem State.acquireOn_spad (p core : Nat) : (s.acquireOn p core).spad = s.spad := rfl
@[simp] theorem State.acquireOn_dirty (p core : Nat) : (s.acquireOn p core).dirty = s.dirty := rfl
@[simp] theorem State.acquireOn_parts (p core : Nat) : (s.acquireOn p core).parts = s.parts := rfl
@[simp] theorem State.acquireOn_works (p core : Nat) : (s.acquireOn p core).works = s.works := rfl
@[simp] theorem State.acquireOn_cores (p core : Nat) : (s.acquireOn p core).cores = s.cores := rfl
@[simp] theorem State.acquireOn_gates (p core : Nat) : (s.acquireOn p core).gates = s.gates := rfl
@[simp] theorem State.acquireOn_images (p core : Nat) : (s.acquireOn p core).images = s.images := rfl
@[simp] theorem State.acquireOn_boot (p core : Nat) : (s.acquireOn p core).boot = s.boot := rfl
@[simp] theorem State.acquireOn_bb (p core : Nat) : (s.acquireOn p core).bb = s.bb := rfl
@[simp] theorem State.acquireOn_host (p core : Nat) : (s.acquireOn p core).host = s.host := rfl
@[simp] theorem State.acquireOn_fabric (p core : Nat) : (s.acquireOn p core).fabric = s.fabric := rfl
@[simp] theorem State.acquireOn_power (p core : Nat) : (s.acquireOn p core).power = s.power := rfl
@[simp] theorem State.acquireOn_cycle (p core : Nat) : (s.acquireOn p core).cycle = s.cycle := rfl
@[simp] theorem State.acquireOn_lag (p core : Nat) : (s.acquireOn p core).lag = s.lag := rfl
@[simp] theorem State.acquireOn_tick (p core : Nat) : (s.acquireOn p core).tick = s.tick := rfl
@[simp] theorem State.acquireOn_ids (p core : Nat) : (s.acquireOn p core).ids = s.ids := rfl
@[simp] theorem State.acquireOn_issue (p core : Nat) : (s.acquireOn p core).issue = s.issue := rfl
@[simp] theorem State.acquireOn_inputs (p core : Nat) : (s.acquireOn p core).inputs = s.inputs := rfl
@[simp] theorem State.acquireOn_follow (p core : Nat) : (s.acquireOn p core).follow = s.follow := rfl
@[simp] theorem State.acquireOn_tape (p core : Nat) : (s.acquireOn p core).tape = s.tape := rfl

/-! ## bridgeOn -/

@[simp] theorem State.bridgeOn_mem (p core a b : Nat) : (s.bridgeOn p core a b).mem = s.mem := by unfold State.bridgeOn; dsimp only; split <;> rfl
@[simp] theorem State.bridgeOn_spad (p core a b : Nat) : (s.bridgeOn p core a b).spad = s.spad := by unfold State.bridgeOn; dsimp only; split <;> rfl
@[simp] theorem State.bridgeOn_dirty (p core a b : Nat) : (s.bridgeOn p core a b).dirty = s.dirty := by unfold State.bridgeOn; dsimp only; split <;> rfl
@[simp] theorem State.bridgeOn_parts (p core a b : Nat) : (s.bridgeOn p core a b).parts = s.parts := by unfold State.bridgeOn; dsimp only; split <;> rfl
@[simp] theorem State.bridgeOn_works (p core a b : Nat) : (s.bridgeOn p core a b).works = s.works := by unfold State.bridgeOn; dsimp only; split <;> rfl
@[simp] theorem State.bridgeOn_cores (p core a b : Nat) : (s.bridgeOn p core a b).cores = s.cores := by unfold State.bridgeOn; dsimp only; split <;> rfl
@[simp] theorem State.bridgeOn_gates (p core a b : Nat) : (s.bridgeOn p core a b).gates = s.gates := by unfold State.bridgeOn; dsimp only; split <;> rfl
@[simp] theorem State.bridgeOn_images (p core a b : Nat) : (s.bridgeOn p core a b).images = s.images := by unfold State.bridgeOn; dsimp only; split <;> rfl
@[simp] theorem State.bridgeOn_boot (p core a b : Nat) : (s.bridgeOn p core a b).boot = s.boot := by unfold State.bridgeOn; dsimp only; split <;> rfl
@[simp] theorem State.bridgeOn_bb (p core a b : Nat) : (s.bridgeOn p core a b).bb = s.bb := by unfold State.bridgeOn; dsimp only; split <;> rfl
@[simp] theorem State.bridgeOn_host (p core a b : Nat) : (s.bridgeOn p core a b).host = s.host := by unfold State.bridgeOn; dsimp only; split <;> rfl
@[simp] theorem State.bridgeOn_fabric (p core a b : Nat) : (s.bridgeOn p core a b).fabric = s.fabric := by unfold State.bridgeOn; dsimp only; split <;> rfl
@[simp] theorem State.bridgeOn_power (p core a b : Nat) : (s.bridgeOn p core a b).power = s.power := by unfold State.bridgeOn; dsimp only; split <;> rfl
@[simp] theorem State.bridgeOn_cycle (p core a b : Nat) : (s.bridgeOn p core a b).cycle = s.cycle := by unfold State.bridgeOn; dsimp only; split <;> rfl
@[simp] theorem State.bridgeOn_lag (p core a b : Nat) : (s.bridgeOn p core a b).lag = s.lag := by unfold State.bridgeOn; dsimp only; split <;> rfl
@[simp] theorem State.bridgeOn_tick (p core a b : Nat) : (s.bridgeOn p core a b).tick = s.tick := by unfold State.bridgeOn; dsimp only; split <;> rfl
@[simp] theorem State.bridgeOn_ids (p core a b : Nat) : (s.bridgeOn p core a b).ids = s.ids := by unfold State.bridgeOn; dsimp only; split <;> rfl
@[simp] theorem State.bridgeOn_issue (p core a b : Nat) : (s.bridgeOn p core a b).issue = s.issue := by unfold State.bridgeOn; dsimp only; split <;> rfl
@[simp] theorem State.bridgeOn_inputs (p core a b : Nat) : (s.bridgeOn p core a b).inputs = s.inputs := by unfold State.bridgeOn; dsimp only; split <;> rfl
@[simp] theorem State.bridgeOn_follow (p core a b : Nat) : (s.bridgeOn p core a b).follow = s.follow := by unfold State.bridgeOn; dsimp only; split <;> rfl
@[simp] theorem State.bridgeOn_tape (p core a b : Nat) : (s.bridgeOn p core a b).tape = s.tape := by unfold State.bridgeOn; dsimp only; split <;> rfl

/-! ## bridgeAll -/

@[simp] theorem State.bridgeAll_mem (path : Nat) : (s.bridgeAll path).mem = s.mem := rfl
@[simp] theorem State.bridgeAll_spad (path : Nat) : (s.bridgeAll path).spad = s.spad := rfl
@[simp] theorem State.bridgeAll_dirty (path : Nat) : (s.bridgeAll path).dirty = s.dirty := rfl
@[simp] theorem State.bridgeAll_parts (path : Nat) : (s.bridgeAll path).parts = s.parts := rfl
@[simp] theorem State.bridgeAll_works (path : Nat) : (s.bridgeAll path).works = s.works := rfl
@[simp] theorem State.bridgeAll_cores (path : Nat) : (s.bridgeAll path).cores = s.cores := rfl
@[simp] theorem State.bridgeAll_gates (path : Nat) : (s.bridgeAll path).gates = s.gates := rfl
@[simp] theorem State.bridgeAll_images (path : Nat) : (s.bridgeAll path).images = s.images := rfl
@[simp] theorem State.bridgeAll_boot (path : Nat) : (s.bridgeAll path).boot = s.boot := rfl
@[simp] theorem State.bridgeAll_bb (path : Nat) : (s.bridgeAll path).bb = s.bb := rfl
@[simp] theorem State.bridgeAll_host (path : Nat) : (s.bridgeAll path).host = s.host := rfl
@[simp] theorem State.bridgeAll_fabric (path : Nat) : (s.bridgeAll path).fabric = s.fabric := rfl
@[simp] theorem State.bridgeAll_power (path : Nat) : (s.bridgeAll path).power = s.power := rfl
@[simp] theorem State.bridgeAll_cycle (path : Nat) : (s.bridgeAll path).cycle = s.cycle := rfl
@[simp] theorem State.bridgeAll_lag (path : Nat) : (s.bridgeAll path).lag = s.lag := rfl
@[simp] theorem State.bridgeAll_tick (path : Nat) : (s.bridgeAll path).tick = s.tick := rfl
@[simp] theorem State.bridgeAll_ids (path : Nat) : (s.bridgeAll path).ids = s.ids := rfl
@[simp] theorem State.bridgeAll_issue (path : Nat) : (s.bridgeAll path).issue = s.issue := rfl
@[simp] theorem State.bridgeAll_inputs (path : Nat) : (s.bridgeAll path).inputs = s.inputs := rfl
@[simp] theorem State.bridgeAll_follow (path : Nat) : (s.bridgeAll path).follow = s.follow := rfl
@[simp] theorem State.bridgeAll_tape (path : Nat) : (s.bridgeAll path).tape = s.tape := rfl

/-! ## bridgePath -/

@[simp] theorem State.bridgePath_mem (a b : Nat) : (s.bridgePath a b).mem = s.mem := rfl
@[simp] theorem State.bridgePath_spad (a b : Nat) : (s.bridgePath a b).spad = s.spad := rfl
@[simp] theorem State.bridgePath_dirty (a b : Nat) : (s.bridgePath a b).dirty = s.dirty := rfl
@[simp] theorem State.bridgePath_parts (a b : Nat) : (s.bridgePath a b).parts = s.parts := rfl
@[simp] theorem State.bridgePath_works (a b : Nat) : (s.bridgePath a b).works = s.works := rfl
@[simp] theorem State.bridgePath_cores (a b : Nat) : (s.bridgePath a b).cores = s.cores := rfl
@[simp] theorem State.bridgePath_gates (a b : Nat) : (s.bridgePath a b).gates = s.gates := rfl
@[simp] theorem State.bridgePath_images (a b : Nat) : (s.bridgePath a b).images = s.images := rfl
@[simp] theorem State.bridgePath_boot (a b : Nat) : (s.bridgePath a b).boot = s.boot := rfl
@[simp] theorem State.bridgePath_bb (a b : Nat) : (s.bridgePath a b).bb = s.bb := rfl
@[simp] theorem State.bridgePath_host (a b : Nat) : (s.bridgePath a b).host = s.host := rfl
@[simp] theorem State.bridgePath_fabric (a b : Nat) : (s.bridgePath a b).fabric = s.fabric := rfl
@[simp] theorem State.bridgePath_power (a b : Nat) : (s.bridgePath a b).power = s.power := rfl
@[simp] theorem State.bridgePath_cycle (a b : Nat) : (s.bridgePath a b).cycle = s.cycle := rfl
@[simp] theorem State.bridgePath_lag (a b : Nat) : (s.bridgePath a b).lag = s.lag := rfl
@[simp] theorem State.bridgePath_tick (a b : Nat) : (s.bridgePath a b).tick = s.tick := rfl
@[simp] theorem State.bridgePath_ids (a b : Nat) : (s.bridgePath a b).ids = s.ids := rfl
@[simp] theorem State.bridgePath_issue (a b : Nat) : (s.bridgePath a b).issue = s.issue := rfl
@[simp] theorem State.bridgePath_inputs (a b : Nat) : (s.bridgePath a b).inputs = s.inputs := rfl
@[simp] theorem State.bridgePath_follow (a b : Nat) : (s.bridgePath a b).follow = s.follow := rfl
@[simp] theorem State.bridgePath_tape (a b : Nat) : (s.bridgePath a b).tape = s.tape := rfl

/-! ## startOn -/

@[simp] theorem State.startOn_mem (p path : Nat) : (s.startOn p path).mem = s.mem := rfl
@[simp] theorem State.startOn_spad (p path : Nat) : (s.startOn p path).spad = s.spad := rfl
@[simp] theorem State.startOn_dirty (p path : Nat) : (s.startOn p path).dirty = s.dirty := rfl
@[simp] theorem State.startOn_parts (p path : Nat) : (s.startOn p path).parts = s.parts := rfl
@[simp] theorem State.startOn_works (p path : Nat) : (s.startOn p path).works = s.works := rfl
@[simp] theorem State.startOn_cores (p path : Nat) : (s.startOn p path).cores = s.cores := rfl
@[simp] theorem State.startOn_gates (p path : Nat) : (s.startOn p path).gates = s.gates := rfl
@[simp] theorem State.startOn_images (p path : Nat) : (s.startOn p path).images = s.images := rfl
@[simp] theorem State.startOn_boot (p path : Nat) : (s.startOn p path).boot = s.boot := rfl
@[simp] theorem State.startOn_bb (p path : Nat) : (s.startOn p path).bb = s.bb := rfl
@[simp] theorem State.startOn_host (p path : Nat) : (s.startOn p path).host = s.host := rfl
@[simp] theorem State.startOn_fabric (p path : Nat) : (s.startOn p path).fabric = s.fabric := rfl
@[simp] theorem State.startOn_power (p path : Nat) : (s.startOn p path).power = s.power := rfl
@[simp] theorem State.startOn_cycle (p path : Nat) : (s.startOn p path).cycle = s.cycle := rfl
@[simp] theorem State.startOn_lag (p path : Nat) : (s.startOn p path).lag = s.lag := rfl
@[simp] theorem State.startOn_tick (p path : Nat) : (s.startOn p path).tick = s.tick := rfl
@[simp] theorem State.startOn_ids (p path : Nat) : (s.startOn p path).ids = s.ids := rfl
@[simp] theorem State.startOn_issue (p path : Nat) : (s.startOn p path).issue = s.issue := rfl
@[simp] theorem State.startOn_inputs (p path : Nat) : (s.startOn p path).inputs = s.inputs := rfl
@[simp] theorem State.startOn_follow (p path : Nat) : (s.startOn p path).follow = s.follow := rfl
@[simp] theorem State.startOn_tape (p path : Nat) : (s.startOn p path).tape = s.tape := rfl

/-! ## gateAcquire -/

@[simp] theorem State.gateAcquire_mem (p core : Nat) : (s.gateAcquire p core).mem = s.mem := rfl
@[simp] theorem State.gateAcquire_spad (p core : Nat) : (s.gateAcquire p core).spad = s.spad := rfl
@[simp] theorem State.gateAcquire_dirty (p core : Nat) : (s.gateAcquire p core).dirty = s.dirty := rfl
@[simp] theorem State.gateAcquire_parts (p core : Nat) : (s.gateAcquire p core).parts = s.parts := rfl
@[simp] theorem State.gateAcquire_works (p core : Nat) : (s.gateAcquire p core).works = s.works := rfl
@[simp] theorem State.gateAcquire_cores (p core : Nat) : (s.gateAcquire p core).cores = s.cores := rfl
@[simp] theorem State.gateAcquire_gates (p core : Nat) : (s.gateAcquire p core).gates = s.gates := rfl
@[simp] theorem State.gateAcquire_images (p core : Nat) : (s.gateAcquire p core).images = s.images := rfl
@[simp] theorem State.gateAcquire_boot (p core : Nat) : (s.gateAcquire p core).boot = s.boot := rfl
@[simp] theorem State.gateAcquire_bb (p core : Nat) : (s.gateAcquire p core).bb = s.bb := rfl
@[simp] theorem State.gateAcquire_host (p core : Nat) : (s.gateAcquire p core).host = s.host := rfl
@[simp] theorem State.gateAcquire_fabric (p core : Nat) : (s.gateAcquire p core).fabric = s.fabric := rfl
@[simp] theorem State.gateAcquire_power (p core : Nat) : (s.gateAcquire p core).power = s.power := rfl
@[simp] theorem State.gateAcquire_cycle (p core : Nat) : (s.gateAcquire p core).cycle = s.cycle := rfl
@[simp] theorem State.gateAcquire_lag (p core : Nat) : (s.gateAcquire p core).lag = s.lag := rfl
@[simp] theorem State.gateAcquire_tick (p core : Nat) : (s.gateAcquire p core).tick = s.tick := rfl
@[simp] theorem State.gateAcquire_ids (p core : Nat) : (s.gateAcquire p core).ids = s.ids := rfl
@[simp] theorem State.gateAcquire_issue (p core : Nat) : (s.gateAcquire p core).issue = s.issue := rfl
@[simp] theorem State.gateAcquire_inputs (p core : Nat) : (s.gateAcquire p core).inputs = s.inputs := rfl
@[simp] theorem State.gateAcquire_follow (p core : Nat) : (s.gateAcquire p core).follow = s.follow := rfl
@[simp] theorem State.gateAcquire_tape (p core : Nat) : (s.gateAcquire p core).tape = s.tape := rfl

/-! ## cleanCore -/

@[simp] theorem State.cleanCore_mem (core : Nat) : (s.cleanCore core).mem = s.mem := rfl
@[simp] theorem State.cleanCore_spad (core : Nat) : (s.cleanCore core).spad = s.spad := rfl
@[simp] theorem State.cleanCore_dirty (core : Nat) : (s.cleanCore core).dirty = s.dirty := rfl
@[simp] theorem State.cleanCore_parts (core : Nat) : (s.cleanCore core).parts = s.parts := rfl
@[simp] theorem State.cleanCore_works (core : Nat) : (s.cleanCore core).works = s.works := rfl
@[simp] theorem State.cleanCore_cores (core : Nat) : (s.cleanCore core).cores = s.cores := rfl
@[simp] theorem State.cleanCore_gates (core : Nat) : (s.cleanCore core).gates = s.gates := rfl
@[simp] theorem State.cleanCore_images (core : Nat) : (s.cleanCore core).images = s.images := rfl
@[simp] theorem State.cleanCore_boot (core : Nat) : (s.cleanCore core).boot = s.boot := rfl
@[simp] theorem State.cleanCore_bb (core : Nat) : (s.cleanCore core).bb = s.bb := rfl
@[simp] theorem State.cleanCore_host (core : Nat) : (s.cleanCore core).host = s.host := rfl
@[simp] theorem State.cleanCore_fabric (core : Nat) : (s.cleanCore core).fabric = s.fabric := rfl
@[simp] theorem State.cleanCore_power (core : Nat) : (s.cleanCore core).power = s.power := rfl
@[simp] theorem State.cleanCore_cycle (core : Nat) : (s.cleanCore core).cycle = s.cycle := rfl
@[simp] theorem State.cleanCore_lag (core : Nat) : (s.cleanCore core).lag = s.lag := rfl
@[simp] theorem State.cleanCore_tick (core : Nat) : (s.cleanCore core).tick = s.tick := rfl
@[simp] theorem State.cleanCore_ids (core : Nat) : (s.cleanCore core).ids = s.ids := rfl
@[simp] theorem State.cleanCore_issue (core : Nat) : (s.cleanCore core).issue = s.issue := rfl
@[simp] theorem State.cleanCore_inputs (core : Nat) : (s.cleanCore core).inputs = s.inputs := rfl
@[simp] theorem State.cleanCore_follow (core : Nat) : (s.cleanCore core).follow = s.follow := rfl
@[simp] theorem State.cleanCore_tape (core : Nat) : (s.cleanCore core).tape = s.tape := rfl

/-! ## hasRead -/

@[simp] theorem State.hasRead_mem (core : Nat) (spad : Bool) (t : Late → Bool) (a n : Nat) : (s.hasRead core spad t a n).mem = s.mem := rfl
@[simp] theorem State.hasRead_spad (core : Nat) (spad : Bool) (t : Late → Bool) (a n : Nat) : (s.hasRead core spad t a n).spad = s.spad := rfl
@[simp] theorem State.hasRead_dirty (core : Nat) (spad : Bool) (t : Late → Bool) (a n : Nat) : (s.hasRead core spad t a n).dirty = s.dirty := rfl
@[simp] theorem State.hasRead_parts (core : Nat) (spad : Bool) (t : Late → Bool) (a n : Nat) : (s.hasRead core spad t a n).parts = s.parts := rfl
@[simp] theorem State.hasRead_works (core : Nat) (spad : Bool) (t : Late → Bool) (a n : Nat) : (s.hasRead core spad t a n).works = s.works := rfl
@[simp] theorem State.hasRead_cores (core : Nat) (spad : Bool) (t : Late → Bool) (a n : Nat) : (s.hasRead core spad t a n).cores = s.cores := rfl
@[simp] theorem State.hasRead_gates (core : Nat) (spad : Bool) (t : Late → Bool) (a n : Nat) : (s.hasRead core spad t a n).gates = s.gates := rfl
@[simp] theorem State.hasRead_images (core : Nat) (spad : Bool) (t : Late → Bool) (a n : Nat) : (s.hasRead core spad t a n).images = s.images := rfl
@[simp] theorem State.hasRead_boot (core : Nat) (spad : Bool) (t : Late → Bool) (a n : Nat) : (s.hasRead core spad t a n).boot = s.boot := rfl
@[simp] theorem State.hasRead_bb (core : Nat) (spad : Bool) (t : Late → Bool) (a n : Nat) : (s.hasRead core spad t a n).bb = s.bb := rfl
@[simp] theorem State.hasRead_host (core : Nat) (spad : Bool) (t : Late → Bool) (a n : Nat) : (s.hasRead core spad t a n).host = s.host := rfl
@[simp] theorem State.hasRead_fabric (core : Nat) (spad : Bool) (t : Late → Bool) (a n : Nat) : (s.hasRead core spad t a n).fabric = s.fabric := rfl
@[simp] theorem State.hasRead_power (core : Nat) (spad : Bool) (t : Late → Bool) (a n : Nat) : (s.hasRead core spad t a n).power = s.power := rfl
@[simp] theorem State.hasRead_cycle (core : Nat) (spad : Bool) (t : Late → Bool) (a n : Nat) : (s.hasRead core spad t a n).cycle = s.cycle := rfl
@[simp] theorem State.hasRead_lag (core : Nat) (spad : Bool) (t : Late → Bool) (a n : Nat) : (s.hasRead core spad t a n).lag = s.lag := rfl
@[simp] theorem State.hasRead_tick (core : Nat) (spad : Bool) (t : Late → Bool) (a n : Nat) : (s.hasRead core spad t a n).tick = s.tick := rfl
@[simp] theorem State.hasRead_ids (core : Nat) (spad : Bool) (t : Late → Bool) (a n : Nat) : (s.hasRead core spad t a n).ids = s.ids := rfl
@[simp] theorem State.hasRead_issue (core : Nat) (spad : Bool) (t : Late → Bool) (a n : Nat) : (s.hasRead core spad t a n).issue = s.issue := rfl
@[simp] theorem State.hasRead_inputs (core : Nat) (spad : Bool) (t : Late → Bool) (a n : Nat) : (s.hasRead core spad t a n).inputs = s.inputs := rfl
@[simp] theorem State.hasRead_follow (core : Nat) (spad : Bool) (t : Late → Bool) (a n : Nat) : (s.hasRead core spad t a n).follow = s.follow := rfl
@[simp] theorem State.hasRead_tape (core : Nat) (spad : Bool) (t : Late → Bool) (a n : Nat) : (s.hasRead core spad t a n).tape = s.tape := rfl

/-! ## modGate -/

@[simp] theorem State.modGate_mem (n : Nat) (f : Gate → Gate) : (s.modGate n f).mem = s.mem := rfl
@[simp] theorem State.modGate_spad (n : Nat) (f : Gate → Gate) : (s.modGate n f).spad = s.spad := rfl
@[simp] theorem State.modGate_late (n : Nat) (f : Gate → Gate) : (s.modGate n f).late = s.late := rfl
@[simp] theorem State.modGate_dirty (n : Nat) (f : Gate → Gate) : (s.modGate n f).dirty = s.dirty := rfl
@[simp] theorem State.modGate_parts (n : Nat) (f : Gate → Gate) : (s.modGate n f).parts = s.parts := rfl
@[simp] theorem State.modGate_works (n : Nat) (f : Gate → Gate) : (s.modGate n f).works = s.works := rfl
@[simp] theorem State.modGate_cores (n : Nat) (f : Gate → Gate) : (s.modGate n f).cores = s.cores := rfl
@[simp] theorem State.modGate_images (n : Nat) (f : Gate → Gate) : (s.modGate n f).images = s.images := rfl
@[simp] theorem State.modGate_boot (n : Nat) (f : Gate → Gate) : (s.modGate n f).boot = s.boot := rfl
@[simp] theorem State.modGate_bb (n : Nat) (f : Gate → Gate) : (s.modGate n f).bb = s.bb := rfl
@[simp] theorem State.modGate_host (n : Nat) (f : Gate → Gate) : (s.modGate n f).host = s.host := rfl
@[simp] theorem State.modGate_fabric (n : Nat) (f : Gate → Gate) : (s.modGate n f).fabric = s.fabric := rfl
@[simp] theorem State.modGate_power (n : Nat) (f : Gate → Gate) : (s.modGate n f).power = s.power := rfl
@[simp] theorem State.modGate_cycle (n : Nat) (f : Gate → Gate) : (s.modGate n f).cycle = s.cycle := rfl
@[simp] theorem State.modGate_lag (n : Nat) (f : Gate → Gate) : (s.modGate n f).lag = s.lag := rfl
@[simp] theorem State.modGate_tick (n : Nat) (f : Gate → Gate) : (s.modGate n f).tick = s.tick := rfl
@[simp] theorem State.modGate_ids (n : Nat) (f : Gate → Gate) : (s.modGate n f).ids = s.ids := rfl
@[simp] theorem State.modGate_issue (n : Nat) (f : Gate → Gate) : (s.modGate n f).issue = s.issue := rfl
@[simp] theorem State.modGate_inputs (n : Nat) (f : Gate → Gate) : (s.modGate n f).inputs = s.inputs := rfl
@[simp] theorem State.modGate_follow (n : Nat) (f : Gate → Gate) : (s.modGate n f).follow = s.follow := rfl
@[simp] theorem State.modGate_tape (n : Nat) (f : Gate → Gate) : (s.modGate n f).tape = s.tape := rfl

/-! ## modWg -/

@[simp] theorem State.modWg_mem (p wg : Nat) (f : WorkGroup → WorkGroup) : (s.modWg p wg f).mem = s.mem := rfl
@[simp] theorem State.modWg_spad (p wg : Nat) (f : WorkGroup → WorkGroup) : (s.modWg p wg f).spad = s.spad := rfl
@[simp] theorem State.modWg_late (p wg : Nat) (f : WorkGroup → WorkGroup) : (s.modWg p wg f).late = s.late := rfl
@[simp] theorem State.modWg_dirty (p wg : Nat) (f : WorkGroup → WorkGroup) : (s.modWg p wg f).dirty = s.dirty := rfl
@[simp] theorem State.modWg_parts (p wg : Nat) (f : WorkGroup → WorkGroup) : (s.modWg p wg f).parts = s.parts := rfl
@[simp] theorem State.modWg_cores (p wg : Nat) (f : WorkGroup → WorkGroup) : (s.modWg p wg f).cores = s.cores := rfl
@[simp] theorem State.modWg_gates (p wg : Nat) (f : WorkGroup → WorkGroup) : (s.modWg p wg f).gates = s.gates := rfl
@[simp] theorem State.modWg_images (p wg : Nat) (f : WorkGroup → WorkGroup) : (s.modWg p wg f).images = s.images := rfl
@[simp] theorem State.modWg_boot (p wg : Nat) (f : WorkGroup → WorkGroup) : (s.modWg p wg f).boot = s.boot := rfl
@[simp] theorem State.modWg_bb (p wg : Nat) (f : WorkGroup → WorkGroup) : (s.modWg p wg f).bb = s.bb := rfl
@[simp] theorem State.modWg_host (p wg : Nat) (f : WorkGroup → WorkGroup) : (s.modWg p wg f).host = s.host := rfl
@[simp] theorem State.modWg_fabric (p wg : Nat) (f : WorkGroup → WorkGroup) : (s.modWg p wg f).fabric = s.fabric := rfl
@[simp] theorem State.modWg_power (p wg : Nat) (f : WorkGroup → WorkGroup) : (s.modWg p wg f).power = s.power := rfl
@[simp] theorem State.modWg_cycle (p wg : Nat) (f : WorkGroup → WorkGroup) : (s.modWg p wg f).cycle = s.cycle := rfl
@[simp] theorem State.modWg_lag (p wg : Nat) (f : WorkGroup → WorkGroup) : (s.modWg p wg f).lag = s.lag := rfl
@[simp] theorem State.modWg_tick (p wg : Nat) (f : WorkGroup → WorkGroup) : (s.modWg p wg f).tick = s.tick := rfl
@[simp] theorem State.modWg_ids (p wg : Nat) (f : WorkGroup → WorkGroup) : (s.modWg p wg f).ids = s.ids := rfl
@[simp] theorem State.modWg_issue (p wg : Nat) (f : WorkGroup → WorkGroup) : (s.modWg p wg f).issue = s.issue := rfl
@[simp] theorem State.modWg_inputs (p wg : Nat) (f : WorkGroup → WorkGroup) : (s.modWg p wg f).inputs = s.inputs := rfl
@[simp] theorem State.modWg_follow (p wg : Nat) (f : WorkGroup → WorkGroup) : (s.modWg p wg f).follow = s.follow := rfl
@[simp] theorem State.modWg_tape (p wg : Nat) (f : WorkGroup → WorkGroup) : (s.modWg p wg f).tape = s.tape := rfl

/-! ## modWarp -/

@[simp] theorem State.modWarp_mem (p wg wid : Nat) (f : Warp → Warp) : (s.modWarp p wg wid f).mem = s.mem := rfl
@[simp] theorem State.modWarp_spad (p wg wid : Nat) (f : Warp → Warp) : (s.modWarp p wg wid f).spad = s.spad := rfl
@[simp] theorem State.modWarp_late (p wg wid : Nat) (f : Warp → Warp) : (s.modWarp p wg wid f).late = s.late := rfl
@[simp] theorem State.modWarp_dirty (p wg wid : Nat) (f : Warp → Warp) : (s.modWarp p wg wid f).dirty = s.dirty := rfl
@[simp] theorem State.modWarp_parts (p wg wid : Nat) (f : Warp → Warp) : (s.modWarp p wg wid f).parts = s.parts := rfl
@[simp] theorem State.modWarp_cores (p wg wid : Nat) (f : Warp → Warp) : (s.modWarp p wg wid f).cores = s.cores := rfl
@[simp] theorem State.modWarp_gates (p wg wid : Nat) (f : Warp → Warp) : (s.modWarp p wg wid f).gates = s.gates := rfl
@[simp] theorem State.modWarp_images (p wg wid : Nat) (f : Warp → Warp) : (s.modWarp p wg wid f).images = s.images := rfl
@[simp] theorem State.modWarp_boot (p wg wid : Nat) (f : Warp → Warp) : (s.modWarp p wg wid f).boot = s.boot := rfl
@[simp] theorem State.modWarp_bb (p wg wid : Nat) (f : Warp → Warp) : (s.modWarp p wg wid f).bb = s.bb := rfl
@[simp] theorem State.modWarp_host (p wg wid : Nat) (f : Warp → Warp) : (s.modWarp p wg wid f).host = s.host := rfl
@[simp] theorem State.modWarp_fabric (p wg wid : Nat) (f : Warp → Warp) : (s.modWarp p wg wid f).fabric = s.fabric := rfl
@[simp] theorem State.modWarp_power (p wg wid : Nat) (f : Warp → Warp) : (s.modWarp p wg wid f).power = s.power := rfl
@[simp] theorem State.modWarp_cycle (p wg wid : Nat) (f : Warp → Warp) : (s.modWarp p wg wid f).cycle = s.cycle := rfl
@[simp] theorem State.modWarp_lag (p wg wid : Nat) (f : Warp → Warp) : (s.modWarp p wg wid f).lag = s.lag := rfl
@[simp] theorem State.modWarp_tick (p wg wid : Nat) (f : Warp → Warp) : (s.modWarp p wg wid f).tick = s.tick := rfl
@[simp] theorem State.modWarp_ids (p wg wid : Nat) (f : Warp → Warp) : (s.modWarp p wg wid f).ids = s.ids := rfl
@[simp] theorem State.modWarp_issue (p wg wid : Nat) (f : Warp → Warp) : (s.modWarp p wg wid f).issue = s.issue := rfl
@[simp] theorem State.modWarp_inputs (p wg wid : Nat) (f : Warp → Warp) : (s.modWarp p wg wid f).inputs = s.inputs := rfl
@[simp] theorem State.modWarp_follow (p wg wid : Nat) (f : Warp → Warp) : (s.modWarp p wg wid f).follow = s.follow := rfl
@[simp] theorem State.modWarp_tape (p wg wid : Nat) (f : Warp → Warp) : (s.modWarp p wg wid f).tape = s.tape := rfl

/-! ## modSeq -/

@[simp] theorem State.modSeq_mem (p id : Nat) (f : Seq → Seq) : (s.modSeq p id f).mem = s.mem := rfl
@[simp] theorem State.modSeq_spad (p id : Nat) (f : Seq → Seq) : (s.modSeq p id f).spad = s.spad := rfl
@[simp] theorem State.modSeq_late (p id : Nat) (f : Seq → Seq) : (s.modSeq p id f).late = s.late := rfl
@[simp] theorem State.modSeq_dirty (p id : Nat) (f : Seq → Seq) : (s.modSeq p id f).dirty = s.dirty := rfl
@[simp] theorem State.modSeq_parts (p id : Nat) (f : Seq → Seq) : (s.modSeq p id f).parts = s.parts := rfl
@[simp] theorem State.modSeq_cores (p id : Nat) (f : Seq → Seq) : (s.modSeq p id f).cores = s.cores := rfl
@[simp] theorem State.modSeq_gates (p id : Nat) (f : Seq → Seq) : (s.modSeq p id f).gates = s.gates := rfl
@[simp] theorem State.modSeq_images (p id : Nat) (f : Seq → Seq) : (s.modSeq p id f).images = s.images := rfl
@[simp] theorem State.modSeq_boot (p id : Nat) (f : Seq → Seq) : (s.modSeq p id f).boot = s.boot := rfl
@[simp] theorem State.modSeq_bb (p id : Nat) (f : Seq → Seq) : (s.modSeq p id f).bb = s.bb := rfl
@[simp] theorem State.modSeq_host (p id : Nat) (f : Seq → Seq) : (s.modSeq p id f).host = s.host := rfl
@[simp] theorem State.modSeq_fabric (p id : Nat) (f : Seq → Seq) : (s.modSeq p id f).fabric = s.fabric := rfl
@[simp] theorem State.modSeq_power (p id : Nat) (f : Seq → Seq) : (s.modSeq p id f).power = s.power := rfl
@[simp] theorem State.modSeq_cycle (p id : Nat) (f : Seq → Seq) : (s.modSeq p id f).cycle = s.cycle := rfl
@[simp] theorem State.modSeq_lag (p id : Nat) (f : Seq → Seq) : (s.modSeq p id f).lag = s.lag := rfl
@[simp] theorem State.modSeq_tick (p id : Nat) (f : Seq → Seq) : (s.modSeq p id f).tick = s.tick := rfl
@[simp] theorem State.modSeq_ids (p id : Nat) (f : Seq → Seq) : (s.modSeq p id f).ids = s.ids := rfl
@[simp] theorem State.modSeq_issue (p id : Nat) (f : Seq → Seq) : (s.modSeq p id f).issue = s.issue := rfl
@[simp] theorem State.modSeq_inputs (p id : Nat) (f : Seq → Seq) : (s.modSeq p id f).inputs = s.inputs := rfl
@[simp] theorem State.modSeq_follow (p id : Nat) (f : Seq → Seq) : (s.modSeq p id f).follow = s.follow := rfl
@[simp] theorem State.modSeq_tape (p id : Nat) (f : Seq → Seq) : (s.modSeq p id f).tape = s.tape := rfl

/-! ## fresh -/

@[simp] theorem State.fresh_mem : (s.fresh).mem = s.mem := rfl
@[simp] theorem State.fresh_spad : (s.fresh).spad = s.spad := rfl
@[simp] theorem State.fresh_late : (s.fresh).late = s.late := rfl
@[simp] theorem State.fresh_dirty : (s.fresh).dirty = s.dirty := rfl
@[simp] theorem State.fresh_parts : (s.fresh).parts = s.parts := rfl
@[simp] theorem State.fresh_works : (s.fresh).works = s.works := rfl
@[simp] theorem State.fresh_cores : (s.fresh).cores = s.cores := rfl
@[simp] theorem State.fresh_gates : (s.fresh).gates = s.gates := rfl
@[simp] theorem State.fresh_images : (s.fresh).images = s.images := rfl
@[simp] theorem State.fresh_boot : (s.fresh).boot = s.boot := rfl
@[simp] theorem State.fresh_bb : (s.fresh).bb = s.bb := rfl
@[simp] theorem State.fresh_host : (s.fresh).host = s.host := rfl
@[simp] theorem State.fresh_fabric : (s.fresh).fabric = s.fabric := rfl
@[simp] theorem State.fresh_power : (s.fresh).power = s.power := rfl
@[simp] theorem State.fresh_cycle : (s.fresh).cycle = s.cycle := rfl
@[simp] theorem State.fresh_lag : (s.fresh).lag = s.lag := rfl
@[simp] theorem State.fresh_tick : (s.fresh).tick = s.tick := rfl
@[simp] theorem State.fresh_issue : (s.fresh).issue = s.issue := rfl
@[simp] theorem State.fresh_inputs : (s.fresh).inputs = s.inputs := rfl
@[simp] theorem State.fresh_follow : (s.fresh).follow = s.follow := rfl
@[simp] theorem State.fresh_tape : (s.fresh).tape = s.tape := rfl

/-! ## bbWrite -/

@[simp] theorem State.bbWrite_mem (code part die src data : Nat) : (s.bbWrite code part die src data).mem = s.mem := rfl
@[simp] theorem State.bbWrite_spad (code part die src data : Nat) : (s.bbWrite code part die src data).spad = s.spad := rfl
@[simp] theorem State.bbWrite_late (code part die src data : Nat) : (s.bbWrite code part die src data).late = s.late := rfl
@[simp] theorem State.bbWrite_dirty (code part die src data : Nat) : (s.bbWrite code part die src data).dirty = s.dirty := rfl
@[simp] theorem State.bbWrite_parts (code part die src data : Nat) : (s.bbWrite code part die src data).parts = s.parts := rfl
@[simp] theorem State.bbWrite_works (code part die src data : Nat) : (s.bbWrite code part die src data).works = s.works := rfl
@[simp] theorem State.bbWrite_cores (code part die src data : Nat) : (s.bbWrite code part die src data).cores = s.cores := rfl
@[simp] theorem State.bbWrite_gates (code part die src data : Nat) : (s.bbWrite code part die src data).gates = s.gates := rfl
@[simp] theorem State.bbWrite_images (code part die src data : Nat) : (s.bbWrite code part die src data).images = s.images := rfl
@[simp] theorem State.bbWrite_boot (code part die src data : Nat) : (s.bbWrite code part die src data).boot = s.boot := rfl
@[simp] theorem State.bbWrite_host (code part die src data : Nat) : (s.bbWrite code part die src data).host = s.host := rfl
@[simp] theorem State.bbWrite_fabric (code part die src data : Nat) : (s.bbWrite code part die src data).fabric = s.fabric := rfl
@[simp] theorem State.bbWrite_power (code part die src data : Nat) : (s.bbWrite code part die src data).power = s.power := rfl
@[simp] theorem State.bbWrite_cycle (code part die src data : Nat) : (s.bbWrite code part die src data).cycle = s.cycle := rfl
@[simp] theorem State.bbWrite_lag (code part die src data : Nat) : (s.bbWrite code part die src data).lag = s.lag := rfl
@[simp] theorem State.bbWrite_tick (code part die src data : Nat) : (s.bbWrite code part die src data).tick = s.tick := rfl
@[simp] theorem State.bbWrite_ids (code part die src data : Nat) : (s.bbWrite code part die src data).ids = s.ids := rfl
@[simp] theorem State.bbWrite_issue (code part die src data : Nat) : (s.bbWrite code part die src data).issue = s.issue := rfl
@[simp] theorem State.bbWrite_inputs (code part die src data : Nat) : (s.bbWrite code part die src data).inputs = s.inputs := rfl
@[simp] theorem State.bbWrite_follow (code part die src data : Nat) : (s.bbWrite code part die src data).follow = s.follow := rfl
@[simp] theorem State.bbWrite_tape (code part die src data : Nat) : (s.bbWrite code part die src data).tape = s.tape := rfl

/-! ## What an update leaves to be read -/

@[simp] theorem State.modWork_work_same (p : Nat) (f : Work → Work) : (s.modWork p f).work p = f (s.work p) := findD_put_same _ _ _ _
theorem State.modWork_work_other {p q : Nat} (f : Work → Work) (h : q ≠ p) : (s.modWork p f).work q = s.work q :=
  findD_put_other _ _ _ h
@[simp] theorem State.modPart_part_same (p : Nat) (f : Partition → Partition) : (s.modPart p f).part p = f (s.part p) :=
  findD_put_same _ _ _ _
theorem State.modPart_part_other {p q : Nat} (f : Partition → Partition) (h : q ≠ p) : (s.modPart p f).part q = s.part q :=
  findD_put_other _ _ _ h
@[simp] theorem State.modCore_coreOf_same (c : Nat) (f : Core → Core) : (s.modCore c f).coreOf c = f (s.coreOf c) :=
  findD_put_same _ _ _ _
theorem State.modCore_coreOf_other {c d : Nat} (f : Core → Core) (h : d ≠ c) : (s.modCore c f).coreOf d = s.coreOf d :=
  findD_put_other _ _ _ h
@[simp] theorem State.modGate_gate_same (n : Nat) (f : Gate → Gate) : (s.modGate n f).gate n = f (s.gate n) := findD_put_same _ _ _ _
theorem State.modGate_gate_other {n k : Nat} (f : Gate → Gate) (h : k ≠ n) : (s.modGate n f).gate k = s.gate k :=
  findD_put_other _ _ _ h

@[simp] theorem State.modWork_part (p q : Nat) (f : Work → Work) : (s.modWork p f).part q = s.part q := rfl
@[simp] theorem State.modWork_coreOf (p c : Nat) (f : Work → Work) : (s.modWork p f).coreOf c = s.coreOf c := rfl
@[simp] theorem State.modWork_gate (p n : Nat) (f : Work → Work) : (s.modWork p f).gate n = s.gate n := rfl
@[simp] theorem State.modPart_work (p q : Nat) (f : Partition → Partition) : (s.modPart p f).work q = s.work q := rfl
@[simp] theorem State.modCore_work (c q : Nat) (f : Core → Core) : (s.modCore c f).work q = s.work q := rfl
@[simp] theorem State.modGate_work (n q : Nat) (f : Gate → Gate) : (s.modGate n f).work q = s.work q := rfl
@[simp] theorem State.fresh_work (q : Nat) : s.fresh.work q = s.work q := rfl

/-! ## Lists searched and changed in one place -/

theorem find?_updFirst_same {α : Type} (l : List α) (t : α → Bool) (f : α → α) (h : ∀ x, t x = true → t (f x) = true) :
    (updFirst t f l).find? t = (l.find? t).map f := by
  induction l with
  | nil => rfl
  | cons x r ih =>
    by_cases hx : t x = true
    · simp [updFirst, hx, h x hx]
    · simp [updFirst, hx, ih]

theorem find?_updFirst_other {α : Type} (l : List α) (t u : α → Bool) (f : α → α)
    (h : ∀ x, t x = true → u x = false ∧ u (f x) = false) : (updFirst t f l).find? u = l.find? u := by
  induction l with
  | nil => rfl
  | cons x r ih =>
    by_cases hx : t x = true
    · simp [updFirst, hx, (h x hx).1, (h x hx).2]
    · simp only [updFirst, hx, Bool.false_eq_true, ↓reduceIte, List.find?_cons]
      rw [ih]

/-! ## Work-groups and warps after an update -/

@[simp] theorem WorkGroup.modWarp_id (g : WorkGroup) (wid : Nat) (f : Warp → Warp) : (g.modWarp wid f).id = g.id := rfl

theorem WorkGroup.modWarp_warp_same (g : WorkGroup) (wid : Nat) (f : Warp → Warp) (h : ∀ w, (f w).wid = w.wid) :
    (g.modWarp wid f).warp wid = (g.warp wid).map f :=
  find?_updFirst_same _ _ _ fun x hx => by simpa [h x] using hx

theorem WorkGroup.modWarp_warp_other (g : WorkGroup) {wid k : Nat} (f : Warp → Warp) (h : ∀ w, (f w).wid = w.wid) (hk : k ≠ wid) :
    (g.modWarp wid f).warp k = g.warp k :=
  find?_updFirst_other _ _ _ _ fun x hx => by
    have : x.wid = wid := by simpa using hx
    simp [h x, this, Ne.symm hk]

theorem Work.modWg_wg_same (w : Work) (id : Nat) (f : WorkGroup → WorkGroup) (h : ∀ g, (f g).id = g.id) :
    (w.modWg id f).wg id = (w.wg id).map f :=
  find?_updFirst_same _ _ _ fun x hx => by simpa [h x] using hx

theorem Work.modWg_wg_other (w : Work) {id k : Nat} (f : WorkGroup → WorkGroup) (h : ∀ g, (f g).id = g.id) (hk : k ≠ id) :
    (w.modWg id f).wg k = w.wg k :=
  find?_updFirst_other _ _ _ _ fun x hx => by
    have : x.id = id := by simpa using hx
    simp [h x, this, Ne.symm hk]

theorem Work.modSeq_seqOf_same (w : Work) (id : Nat) (f : Seq → Seq) (h : ∀ q, (f q).id = q.id) :
    (w.modSeq id f).seqOf id = (w.seqOf id).map f :=
  find?_updFirst_same _ _ _ fun x hx => by simpa [h x] using hx

/-- The warp that an update names. -/
theorem State.modWarp_warp_same (p wg wid : Nat) (f : Warp → Warp) (h : ∀ w, (f w).wid = w.wid) :
    (s.modWarp p wg wid f).warp p wg wid = (s.warp p wg wid).map f := by
  simp only [State.warp, State.modWarp, State.modWg, State.modWork_work_same]
  rw [Work.modWg_wg_same _ _ _ fun g => WorkGroup.modWarp_id g _ _]
  cases hg : (s.work p).wg wg with
  | none => rfl
  | some g => exact WorkGroup.modWarp_warp_same g wid f h

/-- Every other warp stands. -/
theorem State.modWarp_warp_other {p wg wid p' wg' wid' : Nat} (f : Warp → Warp) (h : ∀ w, (f w).wid = w.wid)
    (hne : ¬(p' = p ∧ wg' = wg ∧ wid' = wid)) : (s.modWarp p wg wid f).warp p' wg' wid' = s.warp p' wg' wid' := by
  by_cases hp : p' = p
  · subst hp
    simp only [State.warp, State.modWarp, State.modWg, State.modWork_work_same]
    by_cases hg : wg' = wg
    · subst hg
      rw [Work.modWg_wg_same _ _ _ fun g => WorkGroup.modWarp_id g _ _]
      cases (s.work p').wg wg' with
      | none => rfl
      | some g => exact WorkGroup.modWarp_warp_other g f h fun hk => hne ⟨rfl, rfl, hk⟩
    · rw [Work.modWg_wg_other _ _ (fun g => WorkGroup.modWarp_id g _ _) hg]
  · simp only [State.warp, State.modWarp, State.modWg, State.modWork_work_other s _ hp]

end Sys2Proof.Machine
end

