-- ==== Sys2Proof/Laws/Ops.lean ====
section
/-! SUPPORT. Laws of the shared operations: who issues, operand checks, registers, the end of an issue slot, a trap taken. Each says once what
the operation does, and is cited in place of its definition. -/
namespace Sys2Proof.Machine

/-! ## Who issues -/

theorem withGroup_issues {s : State} {c : Ctx} {g : WorkGroup} {w : Warp} (h : Issues s c g w) (k : Ctx → WorkGroup → Warp → Out) :
    withGroup s k = k c g w := by
  obtain ⟨h1, h2, h3⟩ := h
  simp only [withGroup, h1, h2, h3]

theorem withSeq_issues {s : State} {p : Nat} {q : Seq} {word lit : Nat} (h : SeqIssues s p q word lit)
    (k : Nat → Seq → Nat → Nat → Out) : withSeq s k = k p q word lit := by
  obtain ⟨h1, h2⟩ := h
  simp only [withSeq, h1, h2]

/-! ## Operands -/

theorem regCheck_none {c : Ctx} {w : Warp} {us : List RegUse} (h : ∀ u ∈ us, u.1 % u.2 = 0 ∧ u.1 + u.2 ≤ 8 * w.alloc) :
    regCheck c w us = none := by
  have h1 : us.any (fun u => u.1 % u.2 != 0) = false := by
    rw [List.any_eq_false]
    intro u hu
    simp [(h u hu).1]
  have h2 : us.find? (fun u => decide (8 * w.alloc < u.1 + u.2)) = none := by
    rw [List.find?_eq_none]
    intro u hu
    simpa using (h u hu).2
  simp [regCheck, h1, h2]

theorem poisonedReg_none {w : Warp} {l : Nat} {us : List RegUse} (h : ∀ u ∈ us, ∀ r ∈ upto u.1 u.2, regKey r l ∉ w.poison) :
    w.poisonedReg l us = none := by
  unfold Warp.poisonedReg
  rw [List.find?_eq_none]
  intro r hr
  obtain ⟨u, hu, hr⟩ := List.mem_flatMap.mp hr
  simpa using h u hu r hr

theorem poisonCheck_none {w : Warp} {ls : List Nat} {us : List RegUse}
    (h : ∀ l ∈ ls, ∀ u ∈ us, ∀ r ∈ upto u.1 u.2, regKey r l ∉ w.poison) : poisonCheck w ls us = none := by
  unfold poisonCheck
  split
  · rfl
  · have : (ls.findSome? fun l => (w.poisonedReg l us).map fun r => (l, r)) = none := by
      rw [List.findSome?_eq_none_iff]
      intro l hl
      rw [poisonedReg_none (h l hl)]
      rfl
    rw [this]
    rfl

theorem operandCheck_none {c : Ctx} {w : Warp} {ls : List Nat} {writes reads : List RegUse} (h : OperandsOk c w ls writes reads) :
    operandCheck c w ls writes reads = none := by
  simp only [operandCheck, regCheck_none h.1]
  exact poisonCheck_none h.2

theorem withRegs_ok {s : State} {c : Ctx} {w : Warp} {ls : List Nat} {writes reads : List RegUse} (h : OperandsOk c w ls writes reads)
    (k : Unit → Out) : withRegs s c w ls writes reads k = k () := by
  simp only [withRegs, operandCheck_none h]

/-- Every instruction of the shape `laneOp`, once its operands pass. -/
theorem laneOp_answers {s : State} {c : Ctx} {g : WorkGroup} {w : Warp} (h : Issues s c g w) {u : Bool} {writes reads : List RegUse}
    (f : Ctx → Warp → Nat → List (Nat × Word)) (ho : OperandsOk c w (c.readers u) writes reads) :
    laneOp u writes reads f s = .next (answer s c fun l => f c w (c.readerOf u l)) := by
  simp only [laneOp, withGroup_issues h, withRegs_ok ho, answer]

theorem sregsOk_of {us : List SUse} (h : SregsOk us) : sregsOk us = true := by
  simp only [sregsOk, List.all_eq_true, Bool.and_eq_true, beq_iff_eq, decide_eq_true_eq]
  exact h

theorem withSregs_ok {s : State} {p : Nat} {q : Seq} {word lit : Nat} (h : SeqIssues s p q word lit) {us : List SUse} (hu : SregsOk us)
    (k : Nat → Seq → Nat → Nat → Out) : withSregs s us k = k p q word lit := by
  simp only [withSregs, withSeq_issues h, sregsOk_of hu, if_true]

/-! ## Registers -/

theorem regKey_inj {r l r' l' : Nat} (h : l < 32) (h' : l' < 32) : regKey r l = regKey r' l' ↔ r = r' ∧ l = l' := by
  simp only [regKey]
  omega

theorem reg_setReg_same (w : Warp) (r l : Nat) (v : Word) : (w.setReg r l v).reg r l = v := by
  simp [Warp.reg, Warp.setReg, find_put_same]

theorem reg_setReg_other (w : Warp) {r l r' l' : Nat} (v : Word) (h : regKey r' l' ≠ regKey r l) :
    (w.setReg r l v).reg r' l' = w.reg r' l' := by
  unfold Warp.reg
  have h1 : find (w.setReg r l v).regs (regKey r' l') = find w.regs (regKey r' l') := find_put_other _ _ h
  rw [h1]
  rfl

@[simp] theorem setReg_wid (w : Warp) (r l : Nat) (v : Word) : (w.setReg r l v).wid = w.wid := rfl
@[simp] theorem setReg_masks (w : Warp) (r l : Nat) (v : Word) : (w.setReg r l v).masks = w.masks := rfl
@[simp] theorem setReg_lanes (w : Warp) (r l : Nat) (v : Word) : (w.setReg r l v).lanes = w.lanes := rfl
@[simp] theorem setReg_trap (w : Warp) (r l : Nat) (v : Word) : (w.setReg r l v).trap = w.trap := rfl

/-- What several registers of a lane written leave of the rest of the warp. -/
theorem setRegs_frame (vs : List (Nat × Word)) (w : Warp) (l : Nat) :
    (w.setRegs l vs).wid = w.wid ∧ (w.setRegs l vs).masks = w.masks ∧ (w.setRegs l vs).lanes = w.lanes ∧
      (w.setRegs l vs).trap = w.trap := by
  induction vs generalizing w with
  | nil => exact ⟨rfl, rfl, rfl, rfl⟩
  | cons e r ih => exact ih (w.setReg e.1 l e.2)

theorem reg_setRegs_other (vs : List (Nat × Word)) (w : Warp) {l r' l' : Nat}
    (h : ∀ e ∈ vs, regKey r' l' ≠ regKey e.1 l) : (w.setRegs l vs).reg r' l' = w.reg r' l' := by
  induction vs generalizing w with
  | nil => rfl
  | cons e r ih =>
    simp only [Warp.setRegs]
    rw [ih _ fun x hx => h x (by simp [hx])]
    exact reg_setReg_other w e.2 (h e (by simp))

theorem setLanes_frame (vs : List (Nat × List (Nat × Word))) (w : Warp) :
    (w.setLanes vs).wid = w.wid ∧ (w.setLanes vs).masks = w.masks ∧ (w.setLanes vs).lanes = w.lanes ∧
      (w.setLanes vs).trap = w.trap := by
  induction vs generalizing w with
  | nil => exact ⟨rfl, rfl, rfl, rfl⟩
  | cons e r ih =>
    obtain ⟨h1, h2, h3, h4⟩ := setRegs_frame e.2 w e.1
    obtain ⟨k1, k2, k3, k4⟩ := ih (w.setRegs e.1 e.2)
    exact ⟨k1.trans h1, k2.trans h2, k3.trans h3, k4.trans h4⟩

theorem reg_setLanes_other (vs : List (Nat × List (Nat × Word))) (w : Warp) {r' l' : Nat}
    (h : ∀ e ∈ vs, ∀ x ∈ e.2, regKey r' l' ≠ regKey x.1 e.1) : (w.setLanes vs).reg r' l' = w.reg r' l' := by
  induction vs generalizing w with
  | nil => rfl
  | cons e r ih =>
    simp only [Warp.setLanes]
    rw [ih _ fun x hx => h x (by simp [hx])]
    exact reg_setRegs_other e.2 w (h e (by simp))

/-! ## Lanes -/

theorem modLanes_frame (w : Warp) (ls : List Nat) (f : Lane → Lane) :
    (w.modLanes ls f).wid = w.wid ∧ (w.modLanes ls f).masks = w.masks ∧ (w.modLanes ls f).regs = w.regs ∧
      (w.modLanes ls f).fill = w.fill ∧ (w.modLanes ls f).zeroed = w.zeroed := ⟨rfl, rfl, rfl, rfl, rfl⟩

/-- Registers read the same in warps that agree on what registers read. -/
theorem reg_congr {w v : Warp} (h1 : v.regs = w.regs) (h2 : v.fill = w.fill) (h3 : v.zeroed = w.zeroed) (r l : Nat) :
    v.reg r l = w.reg r l := by
  simp only [Warp.reg, h1, h2, h3]

/-- What the end of an issue slot leaves of a warp: its number, its masks, and what its registers read. -/
def Warp.SameRegs (v w : Warp) : Prop := v.wid = w.wid ∧ v.masks = w.masks ∧ v.regs = w.regs ∧ v.fill = w.fill ∧ v.zeroed = w.zeroed

theorem SameRegs.refl (w : Warp) : w.SameRegs w := ⟨rfl, rfl, rfl, rfl, rfl⟩
theorem SameRegs.trans {u v w : Warp} (h : u.SameRegs v) (k : v.SameRegs w) : u.SameRegs w :=
  ⟨h.1.trans k.1, h.2.1.trans k.2.1, h.2.2.1.trans k.2.2.1, h.2.2.2.1.trans k.2.2.2.1, h.2.2.2.2.trans k.2.2.2.2⟩

theorem testWaits_same (w : Warp) : w.testWaits.SameRegs w := by
  unfold Warp.testWaits
  generalize (upto 0 w.lanes.length).filter _ = ls
  suffices h : ∀ (y : Warp), y.SameRegs w → (ls.foldl (fun y l =>
      match (y.lane l).waitAt with
      | some (m, x) => { y with lanes := releaseLanes (y.mask m) m x ((y.lane l).cur.past 1) 0 y.lanes }
      | none => y) y).SameRegs w from h w (SameRegs.refl w)
  induction ls with
  | nil => exact fun y hy => hy
  | cons l r ih =>
    intro y hy
    refine ih _ ?_
    dsimp only
    split
    · exact hy
    · exact hy

theorem stepFlag_same (w : Warp) : w.stepFlag.SameRegs w := by
  unfold Warp.stepFlag
  split <;> exact ⟨rfl, rfl, rfl, rfl, rfl⟩

theorem issued_same (w : Warp) (ls adv : List Nat) (n : Nat) (skid : Bool) : (w.issued ls adv n skid).SameRegs w := by
  unfold Warp.issued
  split
  · exact ⟨rfl, rfl, rfl, rfl, rfl⟩
  · exact SameRegs.trans (stepFlag_same _) (SameRegs.trans (testWaits_same _) ⟨rfl, rfl, rfl, rfl, rfl⟩)

/-- A halt changes no register of a work-group's warps. -/
theorem halted_warp (g : WorkGroup) (wid k : Nat) :
    (g.halted wid).id = g.id ∧ ((g.halted wid).warp k = none ↔ g.warp k = none) ∧
      ∀ v, (g.halted wid).warp k = some v → ∃ w, g.warp k = some w ∧ v.SameRegs w := by
  unfold WorkGroup.halted
  split
  · refine ⟨rfl, ?_, ?_⟩
    · simp only [WorkGroup.warp, List.find?_eq_none, List.mem_map, forall_exists_index, and_imp, forall_apply_eq_imp_iff₂]
    · intro v hv
      simp only [WorkGroup.warp, List.find?_map] at hv
      obtain ⟨w, hw, rfl⟩ := Option.map_eq_some_iff.mp hv
      exact ⟨w, hw, rfl, rfl, rfl, rfl, rfl⟩
  · exact ⟨rfl, Iff.rfl, fun v hv => ⟨v, hv, SameRegs.refl v⟩⟩

/-! ## What reads may still find of overwritten units -/

/-- With no overwritten unit that the reader's test accepts, a read finds the byte that stands. -/
theorem lateByte_current {s : State} {spad : Bool} {t : Late → Bool} (h : ∀ x ∈ s.late, x.spad = spad → t x = false) (a : Nat) :
    s.lateByte spad t a = if spad then s.spad.byte a else s.mem.byte a := by
  have e : (s.late.find? fun x => x.spad == spad && x.unit == a / 8 && t x) = none := by
    simp only [List.find?_eq_none, Bool.and_eq_true, beq_iff_eq, not_and, Bool.not_eq_true]
    exact fun x hx hs => h x hx hs.1
  simp [State.lateByte, e]
theorem lateBytes_current {s : State} {spad : Bool} {t : Late → Bool} (h : ∀ x ∈ s.late, x.spad = spad → t x = false) (a n : Nat) :
    s.lateBytes spad t a n = if spad then s.spad.bytes a n else s.mem.bytes a n := by
  induction n generalizing a with
  | zero => cases spad <;> rfl
  | succ n ih => cases spad <;> simp_all [State.lateBytes, Spad.bytes, Memory.bytes, lateByte_current h]

/-- Reading on changes nothing of a unit but who has seen it. -/
theorem Late.saw_spec (x : Late) (k : Nat) : k ∈ (x.saw k).seen ∧ x.seen ⊆ (x.saw k).seen ∧ x.saw k = { x with seen := (x.saw k).seen } := by
  unfold Late.saw
  split
  · next h => exact ⟨by simpa using h, fun _ => id, rfl⟩
  · exact ⟨List.mem_cons_self, List.subset_cons_self .., rfl⟩

/-- AN ACQUIRE: every unit that stood stands, with more readers; a core has seen what a chain on the simt path carries. -/
theorem acquireOn_late {s : State} {p core : Nat} {y : Late} (h : y ∈ (s.acquireOn p core).late) :
    ∃ x ∈ s.late, y = { x with seen := y.seen } ∧ x.seen ⊆ y.seen ∧ (0 ∈ x.paths → p ∈ x.parts → core ∈ y.seen) := by
  obtain ⟨x, hx, rfl⟩ := List.mem_map.mp h
  refine ⟨x, hx, ?_⟩
  split
  · exact ⟨(x.saw_spec core).2.2, (x.saw_spec core).2.1, fun _ _ => (x.saw_spec core).1⟩
  · next e => exact ⟨rfl, fun _ => id, fun a b => absurd (by simp [a, b]) e⟩

/-- A READ on a core: every unit that stood stands, and the core has seen those of the span that its test did not find. -/
theorem hasRead_late {s : State} {core : Nat} {spad : Bool} {t : Late → Bool} {a n : Nat} {y : Late} (h : y ∈ (s.hasRead core spad t a n).late) :
    ∃ x ∈ s.late, y = { x with seen := y.seen } ∧ x.seen ⊆ y.seen ∧ (x.spad = spad → x.unit ∈ unitsIn a n → t x = false → core ∈ y.seen) := by
  obtain ⟨x, hx, rfl⟩ := List.mem_map.mp h
  refine ⟨x, hx, ?_⟩
  split
  · exact ⟨(x.saw_spec core).2.2, (x.saw_spec core).2.1, fun _ _ _ => (x.saw_spec core).1⟩
  · next e => exact ⟨rfl, fun _ => id, fun a b c => absurd (by simp [a, b, c]) e⟩

end Sys2Proof.Machine
end

