-- ==== Sys2Proof/Laws/PerInstr.lean ====
section
/-!
SUPPORT. The family Encoding: the words of every well-formed instruction are at most two words of 32 bits (R151, R157), one lemma per
constructor.
-/
set_option Elab.async false
namespace Sys2Proof

/-- At most two words, each of 32 bits. -/
def Laws.Fits (ws : List Nat) : Prop := ws.length ≤ 2 ∧ ∀ w ∈ ws, w < 4294967296

theorem Laws.fits_nil : Laws.Fits [] := ⟨by decide, by simp⟩
theorem Laws.fits_one {w : Nat} (h : w < 4294967296) : Laws.Fits [w] := ⟨by simp, by simpa using h⟩
theorem Laws.fits_two {w v : Nat} (h : w < 4294967296) (k : v < 4294967296) : Laws.Fits [w, v] := ⟨by simp, by simp [h, k]⟩
theorem Laws.ubit_le (u : Bool) : ubit u ≤ 2147483648 := by cases u <;> decide
theorem Laws.nbit_le (n : Bool) : nbit n ≤ 16777216 := by cases n <;> decide
theorem Laws.wideWord_lt (u : Bool) {wop wfn d a : Nat} (h : wop ≤ 63) (k : wfn ≤ 15) (hd : d ≤ 127) (ha : a ≤ 127) :
    wideWord u wop wfn d a < 4294967296 := by
  have := Laws.ubit_le u
  unfold wideWord
  omega

/-- What the family says of an instruction: well formed, it has at most two words of 32 bits, whatever the bits no field carries. -/
def Laws.Encoding.Statement (i : Instr) : Prop := i.wf = true → ∀ own, Laws.Fits (encode i own)

theorem Laws.Encoding.srd (u : Bool) (d s : Nat) : Laws.Encoding.Statement (.srd u d s) := by
  intro hw own
  have := Laws.ubit_le u
  have hw : (decide (d < 128) && decide (s < 32)) = true := hw
  simp only [Bool.and_eq_true, decide_eq_true_eq] at hw
  exact Laws.fits_one (by omega)
theorem Laws.Encoding.callr (u : Bool) (d a : Nat) : Laws.Encoding.Statement (.callr u d a) := by
  intro hw own
  have := Laws.ubit_le u
  have hw : (decide (d < 128) && decide (a < 128)) = true := hw
  simp only [Bool.and_eq_true, decide_eq_true_eq] at hw
  exact Laws.fits_one (by omega)
theorem Laws.Encoding.ret (u : Bool) (a : Nat) : Laws.Encoding.Statement (.ret u a) := by
  intro hw own
  have := Laws.ubit_le u
  have hw : (decide (a < 128)) = true := hw
  simp only [decide_eq_true_eq] at hw
  exact Laws.fits_one (by omega)
theorem Laws.Encoding.jmpr (u : Bool) (a : Nat) : Laws.Encoding.Statement (.jmpr u a) := by
  intro hw own
  have := Laws.ubit_le u
  have hw : (decide (a < 128)) = true := hw
  simp only [decide_eq_true_eq] at hw
  exact Laws.fits_one (by omega)
theorem Laws.Encoding.joinm (u : Bool) (m : Nat) : Laws.Encoding.Statement (.joinm u m) := by
  intro hw own
  have := Laws.ubit_le u
  have hw : (decide (m < 128)) = true := hw
  simp only [decide_eq_true_eq] at hw
  exact Laws.fits_one (by omega)
theorem Laws.Encoding.leavem (u : Bool) (m : Nat) : Laws.Encoding.Statement (.leavem u m) := by
  intro hw own
  have := Laws.ubit_le u
  have hw : (decide (m < 128)) = true := hw
  simp only [decide_eq_true_eq] at hw
  exact Laws.fits_one (by omega)
theorem Laws.Encoding.waitm (u : Bool) (m : Nat) : Laws.Encoding.Statement (.waitm u m) := by
  intro hw own
  have := Laws.ubit_le u
  have hw : (decide (m < 128)) = true := hw
  simp only [decide_eq_true_eq] at hw
  exact Laws.fits_one (by omega)
theorem Laws.Encoding.mskrd (u : Bool) (d m : Nat) : Laws.Encoding.Statement (.mskrd u d m) := by
  intro hw own
  have := Laws.ubit_le u
  have hw : (decide (d < 128) && decide (m < 128)) = true := hw
  simp only [Bool.and_eq_true, decide_eq_true_eq] at hw
  exact Laws.fits_one (by omega)
theorem Laws.Encoding.mskwr (u : Bool) (a m : Nat) : Laws.Encoding.Statement (.mskwr u a m) := by
  intro hw own
  have := Laws.ubit_le u
  have hw : (decide (a < 128) && decide (m < 128)) = true := hw
  simp only [Bool.and_eq_true, decide_eq_true_eq] at hw
  exact Laws.fits_one (by omega)
theorem Laws.Encoding.add (u : Bool) (d a b : Nat) : Laws.Encoding.Statement (.add u d a b) := by
  intro hw own
  have := Laws.ubit_le u
  have hw : (decide (d < 128) && decide (a < 128) && decide (b < 128)) = true := hw
  simp only [Bool.and_eq_true, decide_eq_true_eq] at hw
  exact Laws.fits_one (by omega)
theorem Laws.Encoding.sub (u : Bool) (d a b : Nat) : Laws.Encoding.Statement (.sub u d a b) := by
  intro hw own
  have := Laws.ubit_le u
  have hw : (decide (d < 128) && decide (a < 128) && decide (b < 128)) = true := hw
  simp only [Bool.and_eq_true, decide_eq_true_eq] at hw
  exact Laws.fits_one (by omega)
theorem Laws.Encoding.mul (u : Bool) (d a b : Nat) : Laws.Encoding.Statement (.mul u d a b) := by
  intro hw own
  have := Laws.ubit_le u
  have hw : (decide (d < 128) && decide (a < 128) && decide (b < 128)) = true := hw
  simp only [Bool.and_eq_true, decide_eq_true_eq] at hw
  exact Laws.fits_one (by omega)
theorem Laws.Encoding.mulhs (u : Bool) (d a b : Nat) : Laws.Encoding.Statement (.mulhs u d a b) := by
  intro hw own
  have := Laws.ubit_le u
  have hw : (decide (d < 128) && decide (a < 128) && decide (b < 128)) = true := hw
  simp only [Bool.and_eq_true, decide_eq_true_eq] at hw
  exact Laws.fits_one (by omega)
theorem Laws.Encoding.mulhz (u : Bool) (d a b : Nat) : Laws.Encoding.Statement (.mulhz u d a b) := by
  intro hw own
  have := Laws.ubit_le u
  have hw : (decide (d < 128) && decide (a < 128) && decide (b < 128)) = true := hw
  simp only [Bool.and_eq_true, decide_eq_true_eq] at hw
  exact Laws.fits_one (by omega)
theorem Laws.Encoding.mad (u : Bool) (d a b : Nat) : Laws.Encoding.Statement (.mad u d a b) := by
  intro hw own
  have := Laws.ubit_le u
  have hw : (decide (d < 128) && decide (a < 128) && decide (b < 128)) = true := hw
  simp only [Bool.and_eq_true, decide_eq_true_eq] at hw
  exact Laws.fits_one (by omega)
theorem Laws.Encoding.addc (u : Bool) (d a b : Nat) : Laws.Encoding.Statement (.addc u d a b) := by
  intro hw own
  have := Laws.ubit_le u
  have hw : (decide (d < 128) && decide (a < 128) && decide (b < 128)) = true := hw
  simp only [Bool.and_eq_true, decide_eq_true_eq] at hw
  exact Laws.fits_one (by omega)
theorem Laws.Encoding.subb (u : Bool) (d a b : Nat) : Laws.Encoding.Statement (.subb u d a b) := by
  intro hw own
  have := Laws.ubit_le u
  have hw : (decide (d < 128) && decide (a < 128) && decide (b < 128)) = true := hw
  simp only [Bool.and_eq_true, decide_eq_true_eq] at hw
  exact Laws.fits_one (by omega)
theorem Laws.Encoding.abs (u : Bool) (d a : Nat) : Laws.Encoding.Statement (.abs u d a) := by
  intro hw own
  have := Laws.ubit_le u
  have hw : (decide (d < 128) && decide (a < 128)) = true := hw
  simp only [Bool.and_eq_true, decide_eq_true_eq] at hw
  exact Laws.fits_one (by omega)
theorem Laws.Encoding.neg (u : Bool) (d a : Nat) : Laws.Encoding.Statement (.neg u d a) := by
  intro hw own
  have := Laws.ubit_le u
  have hw : (decide (d < 128) && decide (a < 128)) = true := hw
  simp only [Bool.and_eq_true, decide_eq_true_eq] at hw
  exact Laws.fits_one (by omega)
theorem Laws.Encoding.mins (u : Bool) (d a b : Nat) : Laws.Encoding.Statement (.mins u d a b) := by
  intro hw own
  have := Laws.ubit_le u
  have hw : (decide (d < 128) && decide (a < 128) && decide (b < 128)) = true := hw
  simp only [Bool.and_eq_true, decide_eq_true_eq] at hw
  exact Laws.fits_one (by omega)
theorem Laws.Encoding.maxs (u : Bool) (d a b : Nat) : Laws.Encoding.Statement (.maxs u d a b) := by
  intro hw own
  have := Laws.ubit_le u
  have hw : (decide (d < 128) && decide (a < 128) && decide (b < 128)) = true := hw
  simp only [Bool.and_eq_true, decide_eq_true_eq] at hw
  exact Laws.fits_one (by omega)
theorem Laws.Encoding.minz (u : Bool) (d a b : Nat) : Laws.Encoding.Statement (.minz u d a b) := by
  intro hw own
  have := Laws.ubit_le u
  have hw : (decide (d < 128) && decide (a < 128) && decide (b < 128)) = true := hw
  simp only [Bool.and_eq_true, decide_eq_true_eq] at hw
  exact Laws.fits_one (by omega)
theorem Laws.Encoding.maxz (u : Bool) (d a b : Nat) : Laws.Encoding.Statement (.maxz u d a b) := by
  intro hw own
  have := Laws.ubit_le u
  have hw : (decide (d < 128) && decide (a < 128) && decide (b < 128)) = true := hw
  simp only [Bool.and_eq_true, decide_eq_true_eq] at hw
  exact Laws.fits_one (by omega)
theorem Laws.Encoding.divs (u : Bool) (d a b : Nat) : Laws.Encoding.Statement (.divs u d a b) := by
  intro hw own
  have := Laws.ubit_le u
  have hw : (decide (d < 128) && decide (a < 128) && decide (b < 128)) = true := hw
  simp only [Bool.and_eq_true, decide_eq_true_eq] at hw
  exact Laws.fits_one (by omega)
theorem Laws.Encoding.divz (u : Bool) (d a b : Nat) : Laws.Encoding.Statement (.divz u d a b) := by
  intro hw own
  have := Laws.ubit_le u
  have hw : (decide (d < 128) && decide (a < 128) && decide (b < 128)) = true := hw
  simp only [Bool.and_eq_true, decide_eq_true_eq] at hw
  exact Laws.fits_one (by omega)
theorem Laws.Encoding.rems (u : Bool) (d a b : Nat) : Laws.Encoding.Statement (.rems u d a b) := by
  intro hw own
  have := Laws.ubit_le u
  have hw : (decide (d < 128) && decide (a < 128) && decide (b < 128)) = true := hw
  simp only [Bool.and_eq_true, decide_eq_true_eq] at hw
  exact Laws.fits_one (by omega)
theorem Laws.Encoding.remz (u : Bool) (d a b : Nat) : Laws.Encoding.Statement (.remz u d a b) := by
  intro hw own
  have := Laws.ubit_le u
  have hw : (decide (d < 128) && decide (a < 128) && decide (b < 128)) = true := hw
  simp only [Bool.and_eq_true, decide_eq_true_eq] at hw
  exact Laws.fits_one (by omega)
theorem Laws.Encoding.cmpi (u : Bool) (f d a i : Nat) : Laws.Encoding.Statement (.cmpi u f d a i) := by
  intro hw own
  have := Laws.ubit_le u
  have hw : (decide (6 ≤ f) && decide (f < 16) && decide (d < 128) && decide (a < 128) && decide (i < 128)) = true := hw
  simp only [Bool.and_eq_true, decide_eq_true_eq] at hw
  exact Laws.fits_one (by omega)
theorem Laws.Encoding.cmpiWide (u : Bool) (c d a i : Nat) : Laws.Encoding.Statement (.cmpiWide u c d a i) := by
  intro hw own
  have hw : (decide (6 ≤ c) && decide (c < 16) && decide (d < 128) && decide (a < 128) && decide (i < 4294967296)) = true := hw
  simp only [Bool.and_eq_true, decide_eq_true_eq] at hw
  exact Laws.fits_two (Laws.wideWord_lt u (by omega) (by omega) (by omega) (by omega)) (by omega)
theorem Laws.Encoding.and (u : Bool) (d a b : Nat) : Laws.Encoding.Statement (.and u d a b) := by
  intro hw own
  have := Laws.ubit_le u
  have hw : (decide (d < 128) && decide (a < 128) && decide (b < 128)) = true := hw
  simp only [Bool.and_eq_true, decide_eq_true_eq] at hw
  exact Laws.fits_one (by omega)
theorem Laws.Encoding.or (u : Bool) (d a b : Nat) : Laws.Encoding.Statement (.or u d a b) := by
  intro hw own
  have := Laws.ubit_le u
  have hw : (decide (d < 128) && decide (a < 128) && decide (b < 128)) = true := hw
  simp only [Bool.and_eq_true, decide_eq_true_eq] at hw
  exact Laws.fits_one (by omega)
theorem Laws.Encoding.xor (u : Bool) (d a b : Nat) : Laws.Encoding.Statement (.xor u d a b) := by
  intro hw own
  have := Laws.ubit_le u
  have hw : (decide (d < 128) && decide (a < 128) && decide (b < 128)) = true := hw
  simp only [Bool.and_eq_true, decide_eq_true_eq] at hw
  exact Laws.fits_one (by omega)
theorem Laws.Encoding.andn (u : Bool) (d a b : Nat) : Laws.Encoding.Statement (.andn u d a b) := by
  intro hw own
  have := Laws.ubit_le u
  have hw : (decide (d < 128) && decide (a < 128) && decide (b < 128)) = true := hw
  simp only [Bool.and_eq_true, decide_eq_true_eq] at hw
  exact Laws.fits_one (by omega)
theorem Laws.Encoding.not (u : Bool) (d a : Nat) : Laws.Encoding.Statement (.not u d a) := by
  intro hw own
  have := Laws.ubit_le u
  have hw : (decide (d < 128) && decide (a < 128)) = true := hw
  simp only [Bool.and_eq_true, decide_eq_true_eq] at hw
  exact Laws.fits_one (by omega)
theorem Laws.Encoding.popc (u : Bool) (d a : Nat) : Laws.Encoding.Statement (.popc u d a) := by
  intro hw own
  have := Laws.ubit_le u
  have hw : (decide (d < 128) && decide (a < 128)) = true := hw
  simp only [Bool.and_eq_true, decide_eq_true_eq] at hw
  exact Laws.fits_one (by omega)
theorem Laws.Encoding.clz (u : Bool) (d a : Nat) : Laws.Encoding.Statement (.clz u d a) := by
  intro hw own
  have := Laws.ubit_le u
  have hw : (decide (d < 128) && decide (a < 128)) = true := hw
  simp only [Bool.and_eq_true, decide_eq_true_eq] at hw
  exact Laws.fits_one (by omega)
theorem Laws.Encoding.ffs (u : Bool) (d a : Nat) : Laws.Encoding.Statement (.ffs u d a) := by
  intro hw own
  have := Laws.ubit_le u
  have hw : (decide (d < 128) && decide (a < 128)) = true := hw
  simp only [Bool.and_eq_true, decide_eq_true_eq] at hw
  exact Laws.fits_one (by omega)
theorem Laws.Encoding.brev (u : Bool) (d a : Nat) : Laws.Encoding.Statement (.brev u d a) := by
  intro hw own
  have := Laws.ubit_le u
  have hw : (decide (d < 128) && decide (a < 128)) = true := hw
  simp only [Bool.and_eq_true, decide_eq_true_eq] at hw
  exact Laws.fits_one (by omega)
theorem Laws.Encoding.mov (u : Bool) (d a : Nat) : Laws.Encoding.Statement (.mov u d a) := by
  intro hw own
  have := Laws.ubit_le u
  have hw : (decide (d < 128) && decide (a < 128)) = true := hw
  simp only [Bool.and_eq_true, decide_eq_true_eq] at hw
  exact Laws.fits_one (by omega)
theorem Laws.Encoding.sel (u : Bool) (d a b : Nat) : Laws.Encoding.Statement (.sel u d a b) := by
  intro hw own
  have := Laws.ubit_le u
  have hw : (decide (d < 128) && decide (a < 128) && decide (b < 128)) = true := hw
  simp only [Bool.and_eq_true, decide_eq_true_eq] at hw
  exact Laws.fits_one (by omega)
theorem Laws.Encoding.shl (u : Bool) (d a b : Nat) : Laws.Encoding.Statement (.shl u d a b) := by
  intro hw own
  have := Laws.ubit_le u
  have hw : (decide (d < 128) && decide (a < 128) && decide (b < 128)) = true := hw
  simp only [Bool.and_eq_true, decide_eq_true_eq] at hw
  exact Laws.fits_one (by omega)
theorem Laws.Encoding.shr (u : Bool) (d a b : Nat) : Laws.Encoding.Statement (.shr u d a b) := by
  intro hw own
  have := Laws.ubit_le u
  have hw : (decide (d < 128) && decide (a < 128) && decide (b < 128)) = true := hw
  simp only [Bool.and_eq_true, decide_eq_true_eq] at hw
  exact Laws.fits_one (by omega)
theorem Laws.Encoding.sar (u : Bool) (d a b : Nat) : Laws.Encoding.Statement (.sar u d a b) := by
  intro hw own
  have := Laws.ubit_le u
  have hw : (decide (d < 128) && decide (a < 128) && decide (b < 128)) = true := hw
  simp only [Bool.and_eq_true, decide_eq_true_eq] at hw
  exact Laws.fits_one (by omega)
theorem Laws.Encoding.rot (u : Bool) (d a b : Nat) : Laws.Encoding.Statement (.rot u d a b) := by
  intro hw own
  have := Laws.ubit_le u
  have hw : (decide (d < 128) && decide (a < 128) && decide (b < 128)) = true := hw
  simp only [Bool.and_eq_true, decide_eq_true_eq] at hw
  exact Laws.fits_one (by omega)
theorem Laws.Encoding.bfes (u : Bool) (d a b : Nat) : Laws.Encoding.Statement (.bfes u d a b) := by
  intro hw own
  have := Laws.ubit_le u
  have hw : (decide (d < 128) && decide (a < 128) && decide (b < 128)) = true := hw
  simp only [Bool.and_eq_true, decide_eq_true_eq] at hw
  exact Laws.fits_one (by omega)
theorem Laws.Encoding.bfez (u : Bool) (d a b : Nat) : Laws.Encoding.Statement (.bfez u d a b) := by
  intro hw own
  have := Laws.ubit_le u
  have hw : (decide (d < 128) && decide (a < 128) && decide (b < 128)) = true := hw
  simp only [Bool.and_eq_true, decide_eq_true_eq] at hw
  exact Laws.fits_one (by omega)
theorem Laws.Encoding.bfi (u : Bool) (d a b : Nat) : Laws.Encoding.Statement (.bfi u d a b) := by
  intro hw own
  have := Laws.ubit_le u
  have hw : (decide (d < 128) && decide (a < 128) && decide (b < 128)) = true := hw
  simp only [Bool.and_eq_true, decide_eq_true_eq] at hw
  exact Laws.fits_one (by omega)
theorem Laws.Encoding.shli (u : Bool) (d a n : Nat) : Laws.Encoding.Statement (.shli u d a n) := by
  intro hw own
  have := Laws.ubit_le u
  have hw : (decide (d < 128) && decide (a < 128) && decide (n < 128)) = true := hw
  simp only [Bool.and_eq_true, decide_eq_true_eq] at hw
  exact Laws.fits_one (by omega)
theorem Laws.Encoding.shri (u : Bool) (d a n : Nat) : Laws.Encoding.Statement (.shri u d a n) := by
  intro hw own
  have := Laws.ubit_le u
  have hw : (decide (d < 128) && decide (a < 128) && decide (n < 128)) = true := hw
  simp only [Bool.and_eq_true, decide_eq_true_eq] at hw
  exact Laws.fits_one (by omega)
theorem Laws.Encoding.sari (u : Bool) (d a n : Nat) : Laws.Encoding.Statement (.sari u d a n) := by
  intro hw own
  have := Laws.ubit_le u
  have hw : (decide (d < 128) && decide (a < 128) && decide (n < 128)) = true := hw
  simp only [Bool.and_eq_true, decide_eq_true_eq] at hw
  exact Laws.fits_one (by omega)
theorem Laws.Encoding.roti (u : Bool) (d a n : Nat) : Laws.Encoding.Statement (.roti u d a n) := by
  intro hw own
  have := Laws.ubit_le u
  have hw : (decide (d < 128) && decide (a < 128) && decide (n < 128)) = true := hw
  simp only [Bool.and_eq_true, decide_eq_true_eq] at hw
  exact Laws.fits_one (by omega)
theorem Laws.Encoding.cmp (u : Bool) (c d a b : Nat) : Laws.Encoding.Statement (.cmp u c d a b) := by
  intro hw own
  have := Laws.ubit_le u
  have hw : (decide (c < 10) && decide (d < 128) && decide (a < 128) && decide (b < 128)) = true := hw
  simp only [Bool.and_eq_true, decide_eq_true_eq] at hw
  exact Laws.fits_one (by omega)
theorem Laws.Encoding.addi (u : Bool) (d a i : Nat) : Laws.Encoding.Statement (.addi u d a i) := by
  intro hw own
  have := Laws.ubit_le u
  have hw : (decide (d < 128) && decide (a < 128) && decide (i < 2048)) = true := hw
  simp only [Bool.and_eq_true, decide_eq_true_eq] at hw
  exact Laws.fits_one (by omega)
theorem Laws.Encoding.addiWide (u : Bool) (d a i : Nat) : Laws.Encoding.Statement (.addiWide u d a i) := by
  intro hw own
  have hw : (decide (d < 128) && decide (a < 128) && decide (i < 4294967296)) = true := hw
  simp only [Bool.and_eq_true, decide_eq_true_eq] at hw
  exact Laws.fits_two (Laws.wideWord_lt u (by omega) (by omega) (by omega) (by omega)) (by omega)
theorem Laws.Encoding.andi (u : Bool) (d a i : Nat) : Laws.Encoding.Statement (.andi u d a i) := by
  intro hw own
  have := Laws.ubit_le u
  have hw : (decide (d < 128) && decide (a < 128) && decide (i < 2048)) = true := hw
  simp only [Bool.and_eq_true, decide_eq_true_eq] at hw
  exact Laws.fits_one (by omega)
theorem Laws.Encoding.andiWide (u : Bool) (d a i : Nat) : Laws.Encoding.Statement (.andiWide u d a i) := by
  intro hw own
  have hw : (decide (d < 128) && decide (a < 128) && decide (i < 4294967296)) = true := hw
  simp only [Bool.and_eq_true, decide_eq_true_eq] at hw
  exact Laws.fits_two (Laws.wideWord_lt u (by omega) (by omega) (by omega) (by omega)) (by omega)
theorem Laws.Encoding.ori (u : Bool) (d a i : Nat) : Laws.Encoding.Statement (.ori u d a i) := by
  intro hw own
  have := Laws.ubit_le u
  have hw : (decide (d < 128) && decide (a < 128) && decide (i < 2048)) = true := hw
  simp only [Bool.and_eq_true, decide_eq_true_eq] at hw
  exact Laws.fits_one (by omega)
theorem Laws.Encoding.oriWide (u : Bool) (d a i : Nat) : Laws.Encoding.Statement (.oriWide u d a i) := by
  intro hw own
  have hw : (decide (d < 128) && decide (a < 128) && decide (i < 4294967296)) = true := hw
  simp only [Bool.and_eq_true, decide_eq_true_eq] at hw
  exact Laws.fits_two (Laws.wideWord_lt u (by omega) (by omega) (by omega) (by omega)) (by omega)
theorem Laws.Encoding.xori (u : Bool) (d a i : Nat) : Laws.Encoding.Statement (.xori u d a i) := by
  intro hw own
  have := Laws.ubit_le u
  have hw : (decide (d < 128) && decide (a < 128) && decide (i < 2048)) = true := hw
  simp only [Bool.and_eq_true, decide_eq_true_eq] at hw
  exact Laws.fits_one (by omega)
theorem Laws.Encoding.xoriWide (u : Bool) (d a i : Nat) : Laws.Encoding.Statement (.xoriWide u d a i) := by
  intro hw own
  have hw : (decide (d < 128) && decide (a < 128) && decide (i < 4294967296)) = true := hw
  simp only [Bool.and_eq_true, decide_eq_true_eq] at hw
  exact Laws.fits_two (Laws.wideWord_lt u (by omega) (by omega) (by omega) (by omega)) (by omega)
theorem Laws.Encoding.movi (u : Bool) (d i : Nat) : Laws.Encoding.Statement (.movi u d i) := by
  intro hw own
  have := Laws.ubit_le u
  have hw : (decide (d < 128) && decide (i < 262144)) = true := hw
  simp only [Bool.and_eq_true, decide_eq_true_eq] at hw
  exact Laws.fits_one (by omega)
theorem Laws.Encoding.moviWide (u : Bool) (d i : Nat) : Laws.Encoding.Statement (.moviWide u d i) := by
  intro hw own
  have hw : (decide (d < 128) && decide (i < 4294967296)) = true := hw
  simp only [Bool.and_eq_true, decide_eq_true_eq] at hw
  exact Laws.fits_two (Laws.wideWord_lt u (by omega) (by omega) (by omega) (by omega)) (by omega)
theorem Laws.Encoding.movhi (u : Bool) (d i : Nat) : Laws.Encoding.Statement (.movhi u d i) := by
  intro hw own
  have := Laws.ubit_le u
  have hw : (decide (d < 128) && decide (i < 262144)) = true := hw
  simp only [Bool.and_eq_true, decide_eq_true_eq] at hw
  exact Laws.fits_one (by omega)
theorem Laws.Encoding.movhiWide (u : Bool) (d i : Nat) : Laws.Encoding.Statement (.movhiWide u d i) := by
  intro hw own
  have hw : (decide (d < 128) && decide (i < 4294967296)) = true := hw
  simp only [Bool.and_eq_true, decide_eq_true_eq] at hw
  exact Laws.fits_two (Laws.wideWord_lt u (by omega) (by omega) (by omega) (by omega)) (by omega)
theorem Laws.Encoding.lea (u : Bool) (d i : Nat) : Laws.Encoding.Statement (.lea u d i) := by
  intro hw own
  have := Laws.ubit_le u
  have hw : (decide (d < 128) && decide (i < 262144)) = true := hw
  simp only [Bool.and_eq_true, decide_eq_true_eq] at hw
  exact Laws.fits_one (by omega)
theorem Laws.Encoding.leaWide (u : Bool) (d i : Nat) : Laws.Encoding.Statement (.leaWide u d i) := by
  intro hw own
  have hw : (decide (d < 128) && decide (i < 4294967296)) = true := hw
  simp only [Bool.and_eq_true, decide_eq_true_eq] at hw
  exact Laws.fits_two (Laws.wideWord_lt u (by omega) (by omega) (by omega) (by omega)) (by omega)
theorem Laws.Encoding.bra (u : Bool) (o : Nat) : Laws.Encoding.Statement (.bra u o) := by
  intro hw own
  have := Laws.ubit_le u
  have hw : (decide (o < 33554432)) = true := hw
  simp only [decide_eq_true_eq] at hw
  exact Laws.fits_one (by omega)
theorem Laws.Encoding.bz (u : Bool) (a o : Nat) : Laws.Encoding.Statement (.bz u a o) := by
  intro hw own
  have := Laws.ubit_le u
  have hw : (decide (a < 128) && decide (o < 262144)) = true := hw
  simp only [Bool.and_eq_true, decide_eq_true_eq] at hw
  exact Laws.fits_one (by omega)
theorem Laws.Encoding.bnz (u : Bool) (a o : Nat) : Laws.Encoding.Statement (.bnz u a o) := by
  intro hw own
  have := Laws.ubit_le u
  have hw : (decide (a < 128) && decide (o < 262144)) = true := hw
  simp only [Bool.and_eq_true, decide_eq_true_eq] at hw
  exact Laws.fits_one (by omega)
theorem Laws.Encoding.call (u : Bool) (d i : Nat) : Laws.Encoding.Statement (.call u d i) := by
  intro hw own
  have hw : (decide (d < 128) && decide (i < 4294967296)) = true := hw
  simp only [Bool.and_eq_true, decide_eq_true_eq] at hw
  exact Laws.fits_two (Laws.wideWord_lt u (by omega) (by omega) (by omega) (by omega)) (by omega)
theorem Laws.Encoding.fadd (u : Bool) (d a b : Nat) : Laws.Encoding.Statement (.fadd u d a b) := by
  intro hw own
  have := Laws.ubit_le u
  have hw : (decide (d < 128) && decide (a < 128) && decide (b < 128)) = true := hw
  simp only [Bool.and_eq_true, decide_eq_true_eq] at hw
  exact Laws.fits_one (by omega)
theorem Laws.Encoding.fsub (u : Bool) (d a b : Nat) : Laws.Encoding.Statement (.fsub u d a b) := by
  intro hw own
  have := Laws.ubit_le u
  have hw : (decide (d < 128) && decide (a < 128) && decide (b < 128)) = true := hw
  simp only [Bool.and_eq_true, decide_eq_true_eq] at hw
  exact Laws.fits_one (by omega)
theorem Laws.Encoding.fmul (u : Bool) (d a b : Nat) : Laws.Encoding.Statement (.fmul u d a b) := by
  intro hw own
  have := Laws.ubit_le u
  have hw : (decide (d < 128) && decide (a < 128) && decide (b < 128)) = true := hw
  simp only [Bool.and_eq_true, decide_eq_true_eq] at hw
  exact Laws.fits_one (by omega)
theorem Laws.Encoding.ffma (u : Bool) (d a b : Nat) : Laws.Encoding.Statement (.ffma u d a b) := by
  intro hw own
  have := Laws.ubit_le u
  have hw : (decide (d < 128) && decide (a < 128) && decide (b < 128)) = true := hw
  simp only [Bool.and_eq_true, decide_eq_true_eq] at hw
  exact Laws.fits_one (by omega)
theorem Laws.Encoding.fmin (u : Bool) (d a b : Nat) : Laws.Encoding.Statement (.fmin u d a b) := by
  intro hw own
  have := Laws.ubit_le u
  have hw : (decide (d < 128) && decide (a < 128) && decide (b < 128)) = true := hw
  simp only [Bool.and_eq_true, decide_eq_true_eq] at hw
  exact Laws.fits_one (by omega)
theorem Laws.Encoding.fmax (u : Bool) (d a b : Nat) : Laws.Encoding.Statement (.fmax u d a b) := by
  intro hw own
  have := Laws.ubit_le u
  have hw : (decide (d < 128) && decide (a < 128) && decide (b < 128)) = true := hw
  simp only [Bool.and_eq_true, decide_eq_true_eq] at hw
  exact Laws.fits_one (by omega)
theorem Laws.Encoding.fabs (u : Bool) (d a : Nat) : Laws.Encoding.Statement (.fabs u d a) := by
  intro hw own
  have := Laws.ubit_le u
  have hw : (decide (d < 128) && decide (a < 128)) = true := hw
  simp only [Bool.and_eq_true, decide_eq_true_eq] at hw
  exact Laws.fits_one (by omega)
theorem Laws.Encoding.fneg (u : Bool) (d a : Nat) : Laws.Encoding.Statement (.fneg u d a) := by
  intro hw own
  have := Laws.ubit_le u
  have hw : (decide (d < 128) && decide (a < 128)) = true := hw
  simp only [Bool.and_eq_true, decide_eq_true_eq] at hw
  exact Laws.fits_one (by omega)
theorem Laws.Encoding.fcmp (u : Bool) (c d a b : Nat) : Laws.Encoding.Statement (.fcmp u c d a b) := by
  intro hw own
  have := Laws.ubit_le u
  have hw : (decide (c < 8) && decide (d < 128) && decide (a < 128) && decide (b < 128)) = true := hw
  simp only [Bool.and_eq_true, decide_eq_true_eq] at hw
  exact Laws.fits_one (by omega)
theorem Laws.Encoding.fclass (u : Bool) (d a : Nat) : Laws.Encoding.Statement (.fclass u d a) := by
  intro hw own
  have := Laws.ubit_le u
  have hw : (decide (d < 128) && decide (a < 128)) = true := hw
  simp only [Bool.and_eq_true, decide_eq_true_eq] at hw
  exact Laws.fits_one (by omega)
theorem Laws.Encoding.frcp (u : Bool) (d a : Nat) : Laws.Encoding.Statement (.frcp u d a) := by
  intro hw own
  have := Laws.ubit_le u
  have hw : (decide (d < 128) && decide (a < 128)) = true := hw
  simp only [Bool.and_eq_true, decide_eq_true_eq] at hw
  exact Laws.fits_one (by omega)
theorem Laws.Encoding.frsq (u : Bool) (d a : Nat) : Laws.Encoding.Statement (.frsq u d a) := by
  intro hw own
  have := Laws.ubit_le u
  have hw : (decide (d < 128) && decide (a < 128)) = true := hw
  simp only [Bool.and_eq_true, decide_eq_true_eq] at hw
  exact Laws.fits_one (by omega)
theorem Laws.Encoding.fsqrt (u : Bool) (d a : Nat) : Laws.Encoding.Statement (.fsqrt u d a) := by
  intro hw own
  have := Laws.ubit_le u
  have hw : (decide (d < 128) && decide (a < 128)) = true := hw
  simp only [Bool.and_eq_true, decide_eq_true_eq] at hw
  exact Laws.fits_one (by omega)
theorem Laws.Encoding.fexp2 (u : Bool) (d a : Nat) : Laws.Encoding.Statement (.fexp2 u d a) := by
  intro hw own
  have := Laws.ubit_le u
  have hw : (decide (d < 128) && decide (a < 128)) = true := hw
  simp only [Bool.and_eq_true, decide_eq_true_eq] at hw
  exact Laws.fits_one (by omega)
theorem Laws.Encoding.flog2 (u : Bool) (d a : Nat) : Laws.Encoding.Statement (.flog2 u d a) := by
  intro hw own
  have := Laws.ubit_le u
  have hw : (decide (d < 128) && decide (a < 128)) = true := hw
  simp only [Bool.and_eq_true, decide_eq_true_eq] at hw
  exact Laws.fits_one (by omega)
theorem Laws.Encoding.fsin (u : Bool) (d a : Nat) : Laws.Encoding.Statement (.fsin u d a) := by
  intro hw own
  have := Laws.ubit_le u
  have hw : (decide (d < 128) && decide (a < 128)) = true := hw
  simp only [Bool.and_eq_true, decide_eq_true_eq] at hw
  exact Laws.fits_one (by omega)
theorem Laws.Encoding.fcos (u : Bool) (d a : Nat) : Laws.Encoding.Statement (.fcos u d a) := by
  intro hw own
  have := Laws.ubit_le u
  have hw : (decide (d < 128) && decide (a < 128)) = true := hw
  simp only [Bool.and_eq_true, decide_eq_true_eq] at hw
  exact Laws.fits_one (by omega)
theorem Laws.Encoding.ftanh (u : Bool) (d a : Nat) : Laws.Encoding.Statement (.ftanh u d a) := by
  intro hw own
  have := Laws.ubit_le u
  have hw : (decide (d < 128) && decide (a < 128)) = true := hw
  simp only [Bool.and_eq_true, decide_eq_true_eq] at hw
  exact Laws.fits_one (by omega)
theorem Laws.Encoding.hadd2 (u : Bool) (d a b : Nat) : Laws.Encoding.Statement (.hadd2 u d a b) := by
  intro hw own
  have := Laws.ubit_le u
  have hw : (decide (d < 128) && decide (a < 128) && decide (b < 128)) = true := hw
  simp only [Bool.and_eq_true, decide_eq_true_eq] at hw
  exact Laws.fits_one (by omega)
theorem Laws.Encoding.hmul2 (u : Bool) (d a b : Nat) : Laws.Encoding.Statement (.hmul2 u d a b) := by
  intro hw own
  have := Laws.ubit_le u
  have hw : (decide (d < 128) && decide (a < 128) && decide (b < 128)) = true := hw
  simp only [Bool.and_eq_true, decide_eq_true_eq] at hw
  exact Laws.fits_one (by omega)
theorem Laws.Encoding.hfma2 (u : Bool) (d a b : Nat) : Laws.Encoding.Statement (.hfma2 u d a b) := by
  intro hw own
  have := Laws.ubit_le u
  have hw : (decide (d < 128) && decide (a < 128) && decide (b < 128)) = true := hw
  simp only [Bool.and_eq_true, decide_eq_true_eq] at hw
  exact Laws.fits_one (by omega)
theorem Laws.Encoding.cvtBf16F32Lo (u : Bool) (d a : Nat) : Laws.Encoding.Statement (.cvtBf16F32Lo u d a) := by
  intro hw own
  have := Laws.ubit_le u
  have hw : (decide (d < 128) && decide (a < 128)) = true := hw
  simp only [Bool.and_eq_true, decide_eq_true_eq] at hw
  exact Laws.fits_one (by omega)
theorem Laws.Encoding.cvtBf16F32Hi (u : Bool) (d a : Nat) : Laws.Encoding.Statement (.cvtBf16F32Hi u d a) := by
  intro hw own
  have := Laws.ubit_le u
  have hw : (decide (d < 128) && decide (a < 128)) = true := hw
  simp only [Bool.and_eq_true, decide_eq_true_eq] at hw
  exact Laws.fits_one (by omega)
theorem Laws.Encoding.cvtF16F32Lo (u : Bool) (d a : Nat) : Laws.Encoding.Statement (.cvtF16F32Lo u d a) := by
  intro hw own
  have := Laws.ubit_le u
  have hw : (decide (d < 128) && decide (a < 128)) = true := hw
  simp only [Bool.and_eq_true, decide_eq_true_eq] at hw
  exact Laws.fits_one (by omega)
theorem Laws.Encoding.cvtF16F32Hi (u : Bool) (d a : Nat) : Laws.Encoding.Statement (.cvtF16F32Hi u d a) := by
  intro hw own
  have := Laws.ubit_le u
  have hw : (decide (d < 128) && decide (a < 128)) = true := hw
  simp only [Bool.and_eq_true, decide_eq_true_eq] at hw
  exact Laws.fits_one (by omega)
theorem Laws.Encoding.cvtE4m3x2F32Lo (u : Bool) (d a b : Nat) : Laws.Encoding.Statement (.cvtE4m3x2F32Lo u d a b) := by
  intro hw own
  have := Laws.ubit_le u
  have hw : (decide (d < 128) && decide (a < 128) && decide (b < 128)) = true := hw
  simp only [Bool.and_eq_true, decide_eq_true_eq] at hw
  exact Laws.fits_one (by omega)
theorem Laws.Encoding.cvtE4m3x2F32Hi (u : Bool) (d a b : Nat) : Laws.Encoding.Statement (.cvtE4m3x2F32Hi u d a b) := by
  intro hw own
  have := Laws.ubit_le u
  have hw : (decide (d < 128) && decide (a < 128) && decide (b < 128)) = true := hw
  simp only [Bool.and_eq_true, decide_eq_true_eq] at hw
  exact Laws.fits_one (by omega)
theorem Laws.Encoding.cvtE5m2x2F32Lo (u : Bool) (d a b : Nat) : Laws.Encoding.Statement (.cvtE5m2x2F32Lo u d a b) := by
  intro hw own
  have := Laws.ubit_le u
  have hw : (decide (d < 128) && decide (a < 128) && decide (b < 128)) = true := hw
  simp only [Bool.and_eq_true, decide_eq_true_eq] at hw
  exact Laws.fits_one (by omega)
theorem Laws.Encoding.cvtE5m2x2F32Hi (u : Bool) (d a b : Nat) : Laws.Encoding.Statement (.cvtE5m2x2F32Hi u d a b) := by
  intro hw own
  have := Laws.ubit_le u
  have hw : (decide (d < 128) && decide (a < 128) && decide (b < 128)) = true := hw
  simp only [Bool.and_eq_true, decide_eq_true_eq] at hw
  exact Laws.fits_one (by omega)
theorem Laws.Encoding.cvtF32Bf16 (u : Bool) (d a h : Nat) : Laws.Encoding.Statement (.cvtF32Bf16 u d a h) := by
  intro hw own
  have := Laws.ubit_le u
  have hw : (decide (d < 128) && decide (a < 128) && decide (h < 128)) = true := hw
  simp only [Bool.and_eq_true, decide_eq_true_eq] at hw
  exact Laws.fits_one (by omega)
theorem Laws.Encoding.cvtF32F16 (u : Bool) (d a h : Nat) : Laws.Encoding.Statement (.cvtF32F16 u d a h) := by
  intro hw own
  have := Laws.ubit_le u
  have hw : (decide (d < 128) && decide (a < 128) && decide (h < 128)) = true := hw
  simp only [Bool.and_eq_true, decide_eq_true_eq] at hw
  exact Laws.fits_one (by omega)
theorem Laws.Encoding.cvtF32E4m3 (u : Bool) (d a n : Nat) : Laws.Encoding.Statement (.cvtF32E4m3 u d a n) := by
  intro hw own
  have := Laws.ubit_le u
  have hw : (decide (d < 128) && decide (a < 128) && decide (n < 128)) = true := hw
  simp only [Bool.and_eq_true, decide_eq_true_eq] at hw
  exact Laws.fits_one (by omega)
theorem Laws.Encoding.cvtF32E5m2 (u : Bool) (d a n : Nat) : Laws.Encoding.Statement (.cvtF32E5m2 u d a n) := by
  intro hw own
  have := Laws.ubit_le u
  have hw : (decide (d < 128) && decide (a < 128) && decide (n < 128)) = true := hw
  simp only [Bool.and_eq_true, decide_eq_true_eq] at hw
  exact Laws.fits_one (by omega)
theorem Laws.Encoding.cvtS32F32 (u : Bool) (r d a : Nat) : Laws.Encoding.Statement (.cvtS32F32 u r d a) := by
  intro hw own
  have := Laws.ubit_le u
  have hw : (decide (r < 4) && decide (d < 128) && decide (a < 128)) = true := hw
  simp only [Bool.and_eq_true, decide_eq_true_eq] at hw
  exact Laws.fits_one (by omega)
theorem Laws.Encoding.cvtZ32F32 (u : Bool) (r d a : Nat) : Laws.Encoding.Statement (.cvtZ32F32 u r d a) := by
  intro hw own
  have := Laws.ubit_le u
  have hw : (decide (r < 4) && decide (d < 128) && decide (a < 128)) = true := hw
  simp only [Bool.and_eq_true, decide_eq_true_eq] at hw
  exact Laws.fits_one (by omega)
theorem Laws.Encoding.cvtF32S32 (u : Bool) (d a : Nat) : Laws.Encoding.Statement (.cvtF32S32 u d a) := by
  intro hw own
  have := Laws.ubit_le u
  have hw : (decide (d < 128) && decide (a < 128)) = true := hw
  simp only [Bool.and_eq_true, decide_eq_true_eq] at hw
  exact Laws.fits_one (by omega)
theorem Laws.Encoding.cvtF32Z32 (u : Bool) (d a : Nat) : Laws.Encoding.Statement (.cvtF32Z32 u d a) := by
  intro hw own
  have := Laws.ubit_le u
  have hw : (decide (d < 128) && decide (a < 128)) = true := hw
  simp only [Bool.and_eq_true, decide_eq_true_eq] at hw
  exact Laws.fits_one (by omega)
theorem Laws.Encoding.cvtF32S64 (u : Bool) (d a : Nat) : Laws.Encoding.Statement (.cvtF32S64 u d a) := by
  intro hw own
  have := Laws.ubit_le u
  have hw : (decide (d < 128) && decide (a < 128)) = true := hw
  simp only [Bool.and_eq_true, decide_eq_true_eq] at hw
  exact Laws.fits_one (by omega)
theorem Laws.Encoding.cvtF32Z64 (u : Bool) (d a : Nat) : Laws.Encoding.Statement (.cvtF32Z64 u d a) := by
  intro hw own
  have := Laws.ubit_le u
  have hw : (decide (d < 128) && decide (a < 128)) = true := hw
  simp only [Bool.and_eq_true, decide_eq_true_eq] at hw
  exact Laws.fits_one (by omega)
theorem Laws.Encoding.cvtS64F32Rz (u : Bool) (d a : Nat) : Laws.Encoding.Statement (.cvtS64F32Rz u d a) := by
  intro hw own
  have := Laws.ubit_le u
  have hw : (decide (d < 128) && decide (a < 128)) = true := hw
  simp only [Bool.and_eq_true, decide_eq_true_eq] at hw
  exact Laws.fits_one (by omega)
theorem Laws.Encoding.cvtZ64F32Rz (u : Bool) (d a : Nat) : Laws.Encoding.Statement (.cvtZ64F32Rz u d a) := by
  intro hw own
  have := Laws.ubit_le u
  have hw : (decide (d < 128) && decide (a < 128)) = true := hw
  simp only [Bool.and_eq_true, decide_eq_true_eq] at hw
  exact Laws.fits_one (by omega)
theorem Laws.Encoding.cvtS8S32Sat (u : Bool) (d a : Nat) : Laws.Encoding.Statement (.cvtS8S32Sat u d a) := by
  intro hw own
  have := Laws.ubit_le u
  have hw : (decide (d < 128) && decide (a < 128)) = true := hw
  simp only [Bool.and_eq_true, decide_eq_true_eq] at hw
  exact Laws.fits_one (by omega)
theorem Laws.Encoding.cvtS16S32Sat (u : Bool) (d a : Nat) : Laws.Encoding.Statement (.cvtS16S32Sat u d a) := by
  intro hw own
  have := Laws.ubit_le u
  have hw : (decide (d < 128) && decide (a < 128)) = true := hw
  simp only [Bool.and_eq_true, decide_eq_true_eq] at hw
  exact Laws.fits_one (by omega)
theorem Laws.Encoding.cvtZ8S32Sat (u : Bool) (d a : Nat) : Laws.Encoding.Statement (.cvtZ8S32Sat u d a) := by
  intro hw own
  have := Laws.ubit_le u
  have hw : (decide (d < 128) && decide (a < 128)) = true := hw
  simp only [Bool.and_eq_true, decide_eq_true_eq] at hw
  exact Laws.fits_one (by omega)
theorem Laws.Encoding.cvtZ16S32Sat (u : Bool) (d a : Nat) : Laws.Encoding.Statement (.cvtZ16S32Sat u d a) := by
  intro hw own
  have := Laws.ubit_le u
  have hw : (decide (d < 128) && decide (a < 128)) = true := hw
  simp only [Bool.and_eq_true, decide_eq_true_eq] at hw
  exact Laws.fits_one (by omega)
theorem Laws.Encoding.cvtZ8Z32Sat (u : Bool) (d a : Nat) : Laws.Encoding.Statement (.cvtZ8Z32Sat u d a) := by
  intro hw own
  have := Laws.ubit_le u
  have hw : (decide (d < 128) && decide (a < 128)) = true := hw
  simp only [Bool.and_eq_true, decide_eq_true_eq] at hw
  exact Laws.fits_one (by omega)
theorem Laws.Encoding.cvtZ16Z32Sat (u : Bool) (d a : Nat) : Laws.Encoding.Statement (.cvtZ16Z32Sat u d a) := by
  intro hw own
  have := Laws.ubit_le u
  have hw : (decide (d < 128) && decide (a < 128)) = true := hw
  simp only [Bool.and_eq_true, decide_eq_true_eq] at hw
  exact Laws.fits_one (by omega)
theorem Laws.Encoding.cvtS64S32 (u : Bool) (d a : Nat) : Laws.Encoding.Statement (.cvtS64S32 u d a) := by
  intro hw own
  have := Laws.ubit_le u
  have hw : (decide (d < 128) && decide (a < 128)) = true := hw
  simp only [Bool.and_eq_true, decide_eq_true_eq] at hw
  exact Laws.fits_one (by omega)
theorem Laws.Encoding.cvtZ64Z32 (u : Bool) (d a : Nat) : Laws.Encoding.Statement (.cvtZ64Z32 u d a) := by
  intro hw own
  have := Laws.ubit_le u
  have hw : (decide (d < 128) && decide (a < 128)) = true := hw
  simp only [Bool.and_eq_true, decide_eq_true_eq] at hw
  exact Laws.fits_one (by omega)
theorem Laws.Encoding.cvtS32S64Sat (u : Bool) (d a : Nat) : Laws.Encoding.Statement (.cvtS32S64Sat u d a) := by
  intro hw own
  have := Laws.ubit_le u
  have hw : (decide (d < 128) && decide (a < 128)) = true := hw
  simp only [Bool.and_eq_true, decide_eq_true_eq] at hw
  exact Laws.fits_one (by omega)
theorem Laws.Encoding.cvtZ32Z64Sat (u : Bool) (d a : Nat) : Laws.Encoding.Statement (.cvtZ32Z64Sat u d a) := by
  intro hw own
  have := Laws.ubit_le u
  have hw : (decide (d < 128) && decide (a < 128)) = true := hw
  simp only [Bool.and_eq_true, decide_eq_true_eq] at hw
  exact Laws.fits_one (by omega)
theorem Laws.Encoding.qnt (u : Bool) (f d a : Nat) : Laws.Encoding.Statement (.qnt u f d a) := by
  intro hw own
  have := Laws.ubit_le u
  have hw : (decide (f < 9) && decide (d < 128) && decide (a < 128)) = true := hw
  simp only [Bool.and_eq_true, decide_eq_true_eq] at hw
  exact Laws.fits_one (by omega)
theorem Laws.Encoding.dqnt (u : Bool) (d a : Nat) : Laws.Encoding.Statement (.dqnt u d a) := by
  intro hw own
  have := Laws.ubit_le u
  have hw : (decide (d < 128) && decide (a < 128)) = true := hw
  simp only [Bool.and_eq_true, decide_eq_true_eq] at hw
  exact Laws.fits_one (by omega)
theorem Laws.Encoding.shfl (d a b : Nat) : Laws.Encoding.Statement (.shfl d a b) := by
  intro hw own
  have hw : (decide (d < 128) && decide (a < 128) && decide (b < 128)) = true := hw
  simp only [Bool.and_eq_true, decide_eq_true_eq] at hw
  exact Laws.fits_one (by omega)
theorem Laws.Encoding.bcast (d a n : Nat) : Laws.Encoding.Statement (.bcast d a n) := by
  intro hw own
  have hw : (decide (d < 128) && decide (a < 128) && decide (n < 128)) = true := hw
  simp only [Bool.and_eq_true, decide_eq_true_eq] at hw
  exact Laws.fits_one (by omega)
theorem Laws.Encoding.vote (d a m : Nat) : Laws.Encoding.Statement (.vote d a m) := by
  intro hw own
  have hw : (decide (d < 128) && decide (a < 128) && decide (m < 128)) = true := hw
  simp only [Bool.and_eq_true, decide_eq_true_eq] at hw
  exact Laws.fits_one (by omega)
theorem Laws.Encoding.matchLanes (d a : Nat) : Laws.Encoding.Statement (.matchLanes d a) := by
  intro hw own
  have hw : (decide (d < 128) && decide (a < 128)) = true := hw
  simp only [Bool.and_eq_true, decide_eq_true_eq] at hw
  exact Laws.fits_one (by omega)
theorem Laws.Encoding.wred (f d a : Nat) : Laws.Encoding.Statement (.wred f d a) := by
  intro hw own
  have hw : (decide (4 ≤ f) && decide (f < 10) && decide (d < 128) && decide (a < 128)) = true := hw
  simp only [Bool.and_eq_true, decide_eq_true_eq] at hw
  exact Laws.fits_one (by omega)
theorem Laws.Encoding.wscan (f d a b : Nat) : Laws.Encoding.Statement (.wscan f d a b) := by
  intro hw own
  have hw : (decide (10 ≤ f) && decide (f < 16) && decide (d < 128) && decide (a < 128) && decide (b < 128)) = true := hw
  simp only [Bool.and_eq_true, decide_eq_true_eq] at hw
  exact Laws.fits_one (by omega)
theorem Laws.Encoding.group (u : Bool) (s l r : Nat) : Laws.Encoding.Statement (.group u s l r) := by
  intro hw own
  have := Laws.ubit_le u
  have hw : (decide (s < 128) && decide (l < 8) && decide (r < 256)) = true := hw
  simp only [Bool.and_eq_true, decide_eq_true_eq] at hw
  exact Laws.fits_one (by omega)
theorem Laws.Encoding.groupWide (u : Bool) (s i : Nat) : Laws.Encoding.Statement (.groupWide u s i) := by
  intro hw own
  have hw : (decide (s < 128) && decide (i < 4294967296)) = true := hw
  simp only [Bool.and_eq_true, decide_eq_true_eq] at hw
  exact Laws.fits_two (Laws.wideWord_lt u (by omega) (by omega) (by omega) (by omega)) (by omega)
theorem Laws.Encoding.join (u : Bool) (s a l r : Nat) : Laws.Encoding.Statement (.join u s a l r) := by
  intro hw own
  have := Laws.ubit_le u
  have hw : (decide (s < 128) && decide (a < 128) && decide (l < 8) && decide (r < 256)) = true := hw
  simp only [Bool.and_eq_true, decide_eq_true_eq] at hw
  exact Laws.fits_one (by omega)
theorem Laws.Encoding.joinWide (u : Bool) (s a i : Nat) : Laws.Encoding.Statement (.joinWide u s a i) := by
  intro hw own
  have hw : (decide (s < 128) && decide (a < 128) && decide (i < 4294967296)) = true := hw
  simp only [Bool.and_eq_true, decide_eq_true_eq] at hw
  exact Laws.fits_two (Laws.wideWord_lt u (by omega) (by omega) (by omega) (by omega)) (by omega)
theorem Laws.Encoding.park (u : Bool) (s a : Nat) : Laws.Encoding.Statement (.park u s a) := by
  intro hw own
  have := Laws.ubit_le u
  have hw : (decide (s < 128) && decide (a < 128)) = true := hw
  simp only [Bool.and_eq_true, decide_eq_true_eq] at hw
  exact Laws.fits_one (by omega)
theorem Laws.Encoding.parkWide (u : Bool) (s a i : Nat) : Laws.Encoding.Statement (.parkWide u s a i) := by
  intro hw own
  have hw : (decide (s < 128) && decide (a < 128) && decide (i < 4294967296)) = true := hw
  simp only [Bool.and_eq_true, decide_eq_true_eq] at hw
  exact Laws.fits_two (Laws.wideWord_lt u (by omega) (by omega) (by omega) (by omega)) (by omega)
theorem Laws.Encoding.relopen (u : Bool) (d a : Nat) : Laws.Encoding.Statement (.relopen u d a) := by
  intro hw own
  have := Laws.ubit_le u
  have hw : (decide (d < 128) && decide (a < 128)) = true := hw
  simp only [Bool.and_eq_true, decide_eq_true_eq] at hw
  exact Laws.fits_one (by omega)
theorem Laws.Encoding.relseal (u : Bool) (d a : Nat) : Laws.Encoding.Statement (.relseal u d a) := by
  intro hw own
  have := Laws.ubit_le u
  have hw : (decide (d < 128) && decide (a < 128)) = true := hw
  simp only [Bool.and_eq_true, decide_eq_true_eq] at hw
  exact Laws.fits_one (by omega)
theorem Laws.Encoding.relcnt (u : Bool) (d a : Nat) : Laws.Encoding.Statement (.relcnt u d a) := by
  intro hw own
  have := Laws.ubit_le u
  have hw : (decide (d < 128) && decide (a < 128)) = true := hw
  simp only [Bool.and_eq_true, decide_eq_true_eq] at hw
  exact Laws.fits_one (by omega)
theorem Laws.Encoding.fork (u : Bool) (a c : Nat) : Laws.Encoding.Statement (.fork u a c) := by
  intro hw own
  have := Laws.ubit_le u
  have hw : (decide (a < 128) && decide (c < 128)) = true := hw
  simp only [Bool.and_eq_true, decide_eq_true_eq] at hw
  exact Laws.fits_one (by omega)
theorem Laws.Encoding.cpush (u : Bool) (a : Nat) : Laws.Encoding.Statement (.cpush u a) := by
  intro hw own
  have := Laws.ubit_le u
  have hw : (decide (a < 128)) = true := hw
  simp only [decide_eq_true_eq] at hw
  exact Laws.fits_one (by omega)
theorem Laws.Encoding.jcdec (u : Bool) (a : Nat) : Laws.Encoding.Statement (.jcdec u a) := by
  intro hw own
  have := Laws.ubit_le u
  have hw : (decide (a < 128)) = true := hw
  simp only [decide_eq_true_eq] at hw
  exact Laws.fits_one (by omega)
theorem Laws.Encoding.dqpush (u : Bool) (d a : Nat) : Laws.Encoding.Statement (.dqpush u d a) := by
  intro hw own
  have := Laws.ubit_le u
  have hw : (decide (d < 128) && decide (a < 128)) = true := hw
  simp only [Bool.and_eq_true, decide_eq_true_eq] at hw
  exact Laws.fits_one (by omega)
theorem Laws.Encoding.dqpop (u : Bool) (d : Nat) : Laws.Encoding.Statement (.dqpop u d) := by
  intro hw own
  have := Laws.ubit_le u
  have hw : (decide (d < 128)) = true := hw
  simp only [decide_eq_true_eq] at hw
  exact Laws.fits_one (by omega)
theorem Laws.Encoding.dqsteal (u : Bool) (d a : Nat) : Laws.Encoding.Statement (.dqsteal u d a) := by
  intro hw own
  have := Laws.ubit_le u
  have hw : (decide (d < 128) && decide (a < 128)) = true := hw
  simp only [Bool.and_eq_true, decide_eq_true_eq] at hw
  exact Laws.fits_one (by omega)
theorem Laws.Encoding.reggrow (u : Bool) (g : Nat) : Laws.Encoding.Statement (.reggrow u g) := by
  intro hw own
  have := Laws.ubit_le u
  have hw : (decide (g < 128)) = true := hw
  simp only [decide_eq_true_eq] at hw
  exact Laws.fits_one (by omega)
theorem Laws.Encoding.regshrink (u : Bool) (g : Nat) : Laws.Encoding.Statement (.regshrink u g) := by
  intro hw own
  have := Laws.ubit_le u
  have hw : (decide (g < 128)) = true := hw
  simp only [decide_eq_true_eq] at hw
  exact Laws.fits_one (by omega)
theorem Laws.Encoding.launch (u : Bool) (d a : Nat) : Laws.Encoding.Statement (.launch u d a) := by
  intro hw own
  have := Laws.ubit_le u
  have hw : (decide (d < 128) && decide (a < 128)) = true := hw
  simp only [Bool.and_eq_true, decide_eq_true_eq] at hw
  exact Laws.fits_one (by omega)
theorem Laws.Encoding.ldS8 (u : Bool) (l d a o : Nat) : Laws.Encoding.Statement (.ldS8 u l d a o) := by
  intro hw own
  have := Laws.ubit_le u
  have hw : (decide (l < 16) && decide (d < 128) && decide (a < 128) && decide (o < 128)) = true := hw
  simp only [Bool.and_eq_true, decide_eq_true_eq] at hw
  exact Laws.fits_one (by omega)
theorem Laws.Encoding.ldZ8 (u : Bool) (l d a o : Nat) : Laws.Encoding.Statement (.ldZ8 u l d a o) := by
  intro hw own
  have := Laws.ubit_le u
  have hw : (decide (l < 16) && decide (d < 128) && decide (a < 128) && decide (o < 128)) = true := hw
  simp only [Bool.and_eq_true, decide_eq_true_eq] at hw
  exact Laws.fits_one (by omega)
theorem Laws.Encoding.ldS16 (u : Bool) (l d a o : Nat) : Laws.Encoding.Statement (.ldS16 u l d a o) := by
  intro hw own
  have := Laws.ubit_le u
  have hw : (decide (l < 16) && decide (d < 128) && decide (a < 128) && decide (o < 128)) = true := hw
  simp only [Bool.and_eq_true, decide_eq_true_eq] at hw
  exact Laws.fits_one (by omega)
theorem Laws.Encoding.ldZ16 (u : Bool) (l d a o : Nat) : Laws.Encoding.Statement (.ldZ16 u l d a o) := by
  intro hw own
  have := Laws.ubit_le u
  have hw : (decide (l < 16) && decide (d < 128) && decide (a < 128) && decide (o < 128)) = true := hw
  simp only [Bool.and_eq_true, decide_eq_true_eq] at hw
  exact Laws.fits_one (by omega)
theorem Laws.Encoding.ld (u : Bool) (l d a o : Nat) : Laws.Encoding.Statement (.ld u l d a o) := by
  intro hw own
  have := Laws.ubit_le u
  have hw : (decide (l < 16) && decide (d < 128) && decide (a < 128) && decide (o < 128)) = true := hw
  simp only [Bool.and_eq_true, decide_eq_true_eq] at hw
  exact Laws.fits_one (by omega)
theorem Laws.Encoding.ld64 (u : Bool) (l d a o : Nat) : Laws.Encoding.Statement (.ld64 u l d a o) := by
  intro hw own
  have := Laws.ubit_le u
  have hw : (decide (l < 16) && decide (d < 128) && decide (a < 128) && decide (o < 128)) = true := hw
  simp only [Bool.and_eq_true, decide_eq_true_eq] at hw
  exact Laws.fits_one (by omega)
theorem Laws.Encoding.ld128 (u : Bool) (l d a o : Nat) : Laws.Encoding.Statement (.ld128 u l d a o) := by
  intro hw own
  have := Laws.ubit_le u
  have hw : (decide (l < 16) && decide (d < 128) && decide (a < 128) && decide (o < 128)) = true := hw
  simp only [Bool.and_eq_true, decide_eq_true_eq] at hw
  exact Laws.fits_one (by omega)
theorem Laws.Encoding.st8 (u : Bool) (l d a o : Nat) : Laws.Encoding.Statement (.st8 u l d a o) := by
  intro hw own
  have := Laws.ubit_le u
  have hw : (decide (l < 16) && decide (d < 128) && decide (a < 128) && decide (o < 128)) = true := hw
  simp only [Bool.and_eq_true, decide_eq_true_eq] at hw
  exact Laws.fits_one (by omega)
theorem Laws.Encoding.st16 (u : Bool) (l d a o : Nat) : Laws.Encoding.Statement (.st16 u l d a o) := by
  intro hw own
  have := Laws.ubit_le u
  have hw : (decide (l < 16) && decide (d < 128) && decide (a < 128) && decide (o < 128)) = true := hw
  simp only [Bool.and_eq_true, decide_eq_true_eq] at hw
  exact Laws.fits_one (by omega)
theorem Laws.Encoding.st (u : Bool) (l d a o : Nat) : Laws.Encoding.Statement (.st u l d a o) := by
  intro hw own
  have := Laws.ubit_le u
  have hw : (decide (l < 16) && decide (d < 128) && decide (a < 128) && decide (o < 128)) = true := hw
  simp only [Bool.and_eq_true, decide_eq_true_eq] at hw
  exact Laws.fits_one (by omega)
theorem Laws.Encoding.st64 (u : Bool) (l d a o : Nat) : Laws.Encoding.Statement (.st64 u l d a o) := by
  intro hw own
  have := Laws.ubit_le u
  have hw : (decide (l < 16) && decide (d < 128) && decide (a < 128) && decide (o < 128)) = true := hw
  simp only [Bool.and_eq_true, decide_eq_true_eq] at hw
  exact Laws.fits_one (by omega)
theorem Laws.Encoding.st128 (u : Bool) (l d a o : Nat) : Laws.Encoding.Statement (.st128 u l d a o) := by
  intro hw own
  have := Laws.ubit_le u
  have hw : (decide (l < 16) && decide (d < 128) && decide (a < 128) && decide (o < 128)) = true := hw
  simp only [Bool.and_eq_true, decide_eq_true_eq] at hw
  exact Laws.fits_one (by omega)
theorem Laws.Encoding.lds (u : Bool) (l a b x : Nat) : Laws.Encoding.Statement (.lds u l a b x) := by
  intro hw own
  have := Laws.ubit_le u
  have hw : (decide (l < 16) && decide (a < 128) && decide (b < 128) && decide (x < 8)) = true := hw
  simp only [Bool.and_eq_true, decide_eq_true_eq] at hw
  exact Laws.fits_one (by omega)
theorem Laws.Encoding.lds64 (u : Bool) (l a b x : Nat) : Laws.Encoding.Statement (.lds64 u l a b x) := by
  intro hw own
  have := Laws.ubit_le u
  have hw : (decide (l < 16) && decide (a < 128) && decide (b < 128) && decide (x < 8)) = true := hw
  simp only [Bool.and_eq_true, decide_eq_true_eq] at hw
  exact Laws.fits_one (by omega)
theorem Laws.Encoding.lds128 (u : Bool) (l a b x : Nat) : Laws.Encoding.Statement (.lds128 u l a b x) := by
  intro hw own
  have := Laws.ubit_le u
  have hw : (decide (l < 16) && decide (a < 128) && decide (b < 128) && decide (x < 8)) = true := hw
  simp only [Bool.and_eq_true, decide_eq_true_eq] at hw
  exact Laws.fits_one (by omega)
theorem Laws.Encoding.sts (u : Bool) (l a b x : Nat) : Laws.Encoding.Statement (.sts u l a b x) := by
  intro hw own
  have := Laws.ubit_le u
  have hw : (decide (l < 16) && decide (a < 128) && decide (b < 128) && decide (x < 8)) = true := hw
  simp only [Bool.and_eq_true, decide_eq_true_eq] at hw
  exact Laws.fits_one (by omega)
theorem Laws.Encoding.sts64 (u : Bool) (l a b x : Nat) : Laws.Encoding.Statement (.sts64 u l a b x) := by
  intro hw own
  have := Laws.ubit_le u
  have hw : (decide (l < 16) && decide (a < 128) && decide (b < 128) && decide (x < 8)) = true := hw
  simp only [Bool.and_eq_true, decide_eq_true_eq] at hw
  exact Laws.fits_one (by omega)
theorem Laws.Encoding.sts128 (u : Bool) (l a b x : Nat) : Laws.Encoding.Statement (.sts128 u l a b x) := by
  intro hw own
  have := Laws.ubit_le u
  have hw : (decide (l < 16) && decide (a < 128) && decide (b < 128) && decide (x < 8)) = true := hw
  simp only [Bool.and_eq_true, decide_eq_true_eq] at hw
  exact Laws.fits_one (by omega)
theorem Laws.Encoding.lda (u : Bool) (l a b x : Nat) : Laws.Encoding.Statement (.lda u l a b x) := by
  intro hw own
  have := Laws.ubit_le u
  have hw : (decide (l < 16) && decide (a < 128) && decide (b < 128) && decide (x < 8)) = true := hw
  simp only [Bool.and_eq_true, decide_eq_true_eq] at hw
  exact Laws.fits_one (by omega)
theorem Laws.Encoding.lda64 (u : Bool) (l a b x : Nat) : Laws.Encoding.Statement (.lda64 u l a b x) := by
  intro hw own
  have := Laws.ubit_le u
  have hw : (decide (l < 16) && decide (a < 128) && decide (b < 128) && decide (x < 8)) = true := hw
  simp only [Bool.and_eq_true, decide_eq_true_eq] at hw
  exact Laws.fits_one (by omega)
theorem Laws.Encoding.stl (u : Bool) (l a b x : Nat) : Laws.Encoding.Statement (.stl u l a b x) := by
  intro hw own
  have := Laws.ubit_le u
  have hw : (decide (l < 16) && decide (a < 128) && decide (b < 128) && decide (x < 8)) = true := hw
  simp only [Bool.and_eq_true, decide_eq_true_eq] at hw
  exact Laws.fits_one (by omega)
theorem Laws.Encoding.stl64 (u : Bool) (l a b x : Nat) : Laws.Encoding.Statement (.stl64 u l a b x) := by
  intro hw own
  have := Laws.ubit_le u
  have hw : (decide (l < 16) && decide (a < 128) && decide (b < 128) && decide (x < 8)) = true := hw
  simp only [Bool.and_eq_true, decide_eq_true_eq] at hw
  exact Laws.fits_one (by omega)
theorem Laws.Encoding.radd (u : Bool) (l f a b x : Nat) : Laws.Encoding.Statement (.radd u l f a b x) := by
  intro hw own
  have := Laws.ubit_le u
  have hw : (decide (l < 16) && decide (f < 9) && decide (a < 128) && decide (b < 128) && decide (x < 8)) = true := hw
  simp only [Bool.and_eq_true, decide_eq_true_eq] at hw
  exact Laws.fits_one (by omega)
theorem Laws.Encoding.atomAdd (u : Bool) (l d a b : Nat) : Laws.Encoding.Statement (.atomAdd u l d a b) := by
  intro hw own
  have := Laws.ubit_le u
  have hw : (decide (l < 16) && decide (d < 128) && decide (a < 128) && decide (b < 128)) = true := hw
  simp only [Bool.and_eq_true, decide_eq_true_eq] at hw
  exact Laws.fits_one (by omega)
theorem Laws.Encoding.atomF32 (u : Bool) (l d a b : Nat) : Laws.Encoding.Statement (.atomF32 u l d a b) := by
  intro hw own
  have := Laws.ubit_le u
  have hw : (decide (l < 16) && decide (d < 128) && decide (a < 128) && decide (b < 128)) = true := hw
  simp only [Bool.and_eq_true, decide_eq_true_eq] at hw
  exact Laws.fits_one (by omega)
theorem Laws.Encoding.atomMins (u : Bool) (l d a b : Nat) : Laws.Encoding.Statement (.atomMins u l d a b) := by
  intro hw own
  have := Laws.ubit_le u
  have hw : (decide (l < 16) && decide (d < 128) && decide (a < 128) && decide (b < 128)) = true := hw
  simp only [Bool.and_eq_true, decide_eq_true_eq] at hw
  exact Laws.fits_one (by omega)
theorem Laws.Encoding.atomMaxs (u : Bool) (l d a b : Nat) : Laws.Encoding.Statement (.atomMaxs u l d a b) := by
  intro hw own
  have := Laws.ubit_le u
  have hw : (decide (l < 16) && decide (d < 128) && decide (a < 128) && decide (b < 128)) = true := hw
  simp only [Bool.and_eq_true, decide_eq_true_eq] at hw
  exact Laws.fits_one (by omega)
theorem Laws.Encoding.atomMinz (u : Bool) (l d a b : Nat) : Laws.Encoding.Statement (.atomMinz u l d a b) := by
  intro hw own
  have := Laws.ubit_le u
  have hw : (decide (l < 16) && decide (d < 128) && decide (a < 128) && decide (b < 128)) = true := hw
  simp only [Bool.and_eq_true, decide_eq_true_eq] at hw
  exact Laws.fits_one (by omega)
theorem Laws.Encoding.atomMaxz (u : Bool) (l d a b : Nat) : Laws.Encoding.Statement (.atomMaxz u l d a b) := by
  intro hw own
  have := Laws.ubit_le u
  have hw : (decide (l < 16) && decide (d < 128) && decide (a < 128) && decide (b < 128)) = true := hw
  simp only [Bool.and_eq_true, decide_eq_true_eq] at hw
  exact Laws.fits_one (by omega)
theorem Laws.Encoding.atomAnd (u : Bool) (l d a b : Nat) : Laws.Encoding.Statement (.atomAnd u l d a b) := by
  intro hw own
  have := Laws.ubit_le u
  have hw : (decide (l < 16) && decide (d < 128) && decide (a < 128) && decide (b < 128)) = true := hw
  simp only [Bool.and_eq_true, decide_eq_true_eq] at hw
  exact Laws.fits_one (by omega)
theorem Laws.Encoding.atomOr (u : Bool) (l d a b : Nat) : Laws.Encoding.Statement (.atomOr u l d a b) := by
  intro hw own
  have := Laws.ubit_le u
  have hw : (decide (l < 16) && decide (d < 128) && decide (a < 128) && decide (b < 128)) = true := hw
  simp only [Bool.and_eq_true, decide_eq_true_eq] at hw
  exact Laws.fits_one (by omega)
theorem Laws.Encoding.atomXor (u : Bool) (l d a b : Nat) : Laws.Encoding.Statement (.atomXor u l d a b) := by
  intro hw own
  have := Laws.ubit_le u
  have hw : (decide (l < 16) && decide (d < 128) && decide (a < 128) && decide (b < 128)) = true := hw
  simp only [Bool.and_eq_true, decide_eq_true_eq] at hw
  exact Laws.fits_one (by omega)
theorem Laws.Encoding.atomExch (u : Bool) (l d a b : Nat) : Laws.Encoding.Statement (.atomExch u l d a b) := by
  intro hw own
  have := Laws.ubit_le u
  have hw : (decide (l < 16) && decide (d < 128) && decide (a < 128) && decide (b < 128)) = true := hw
  simp only [Bool.and_eq_true, decide_eq_true_eq] at hw
  exact Laws.fits_one (by omega)
theorem Laws.Encoding.atomCas (u : Bool) (l d a b : Nat) : Laws.Encoding.Statement (.atomCas u l d a b) := by
  intro hw own
  have := Laws.ubit_le u
  have hw : (decide (l < 16) && decide (d < 128) && decide (a < 128) && decide (b < 128)) = true := hw
  simp only [Bool.and_eq_true, decide_eq_true_eq] at hw
  exact Laws.fits_one (by omega)
theorem Laws.Encoding.xfence (u : Bool) (a b : Nat) : Laws.Encoding.Statement (.xfence u a b) := by
  intro hw own
  have := Laws.ubit_le u
  have hw : (decide (a < 128) && decide (b < 128)) = true := hw
  simp only [Bool.and_eq_true, decide_eq_true_eq] at hw
  exact Laws.fits_one (by omega)
theorem Laws.Encoding.lbar (u : Bool) (k : Nat) : Laws.Encoding.Statement (.lbar u k) := by
  intro hw own
  have := Laws.ubit_le u
  have hw : (decide (k < 128)) = true := hw
  simp only [decide_eq_true_eq] at hw
  exact Laws.fits_one (by omega)
theorem Laws.Encoding.sppin (u : Bool) (a b : Nat) : Laws.Encoding.Statement (.sppin u a b) := by
  intro hw own
  have := Laws.ubit_le u
  have hw : (decide (a < 128) && decide (b < 128)) = true := hw
  simp only [Bool.and_eq_true, decide_eq_true_eq] at hw
  exact Laws.fits_one (by omega)
theorem Laws.Encoding.spunpin (u : Bool) (a b : Nat) : Laws.Encoding.Statement (.spunpin u a b) := by
  intro hw own
  have := Laws.ubit_le u
  have hw : (decide (a < 128) && decide (b < 128)) = true := hw
  simp only [Bool.and_eq_true, decide_eq_true_eq] at hw
  exact Laws.fits_one (by omega)
theorem Laws.Encoding.rbpush (u : Bool) (a b : Nat) : Laws.Encoding.Statement (.rbpush u a b) := by
  intro hw own
  have := Laws.ubit_le u
  have hw : (decide (a < 128) && decide (b < 128)) = true := hw
  simp only [Bool.and_eq_true, decide_eq_true_eq] at hw
  exact Laws.fits_one (by omega)
theorem Laws.Encoding.rbpop (u : Bool) (d a : Nat) : Laws.Encoding.Statement (.rbpop u d a) := by
  intro hw own
  have := Laws.ubit_le u
  have hw : (decide (d < 128) && decide (a < 128)) = true := hw
  simp only [Bool.and_eq_true, decide_eq_true_eq] at hw
  exact Laws.fits_one (by omega)
theorem Laws.Encoding.rbfree (u : Bool) (d a b : Nat) : Laws.Encoding.Statement (.rbfree u d a b) := by
  intro hw own
  have := Laws.ubit_le u
  have hw : (decide (d < 128) && decide (a < 128) && decide (b < 128)) = true := hw
  simp only [Bool.and_eq_true, decide_eq_true_eq] at hw
  exact Laws.fits_one (by omega)
theorem Laws.Encoding.tqpop (u : Bool) (d n : Nat) : Laws.Encoding.Statement (.tqpop u d n) := by
  intro hw own
  have := Laws.ubit_le u
  have hw : (decide (d < 128) && decide (n < 128)) = true := hw
  simp only [Bool.and_eq_true, decide_eq_true_eq] at hw
  exact Laws.fits_one (by omega)
theorem Laws.Encoding.gsig (u : Bool) (a b : Nat) : Laws.Encoding.Statement (.gsig u a b) := by
  intro hw own
  have := Laws.ubit_le u
  have hw : (decide (a < 128) && decide (b < 128)) = true := hw
  simp only [Bool.and_eq_true, decide_eq_true_eq] at hw
  exact Laws.fits_one (by omega)
theorem Laws.Encoding.gwait (u : Bool) (d a b : Nat) : Laws.Encoding.Statement (.gwait u d a b) := by
  intro hw own
  have := Laws.ubit_le u
  have hw : (decide (d < 128) && decide (a < 128) && decide (b < 128)) = true := hw
  simp only [Bool.and_eq_true, decide_eq_true_eq] at hw
  exact Laws.fits_one (by omega)
theorem Laws.Encoding.grd (u : Bool) (d a : Nat) : Laws.Encoding.Statement (.grd u d a) := by
  intro hw own
  have := Laws.ubit_le u
  have hw : (decide (d < 128) && decide (a < 128)) = true := hw
  simp only [Bool.and_eq_true, decide_eq_true_eq] at hw
  exact Laws.fits_one (by omega)
theorem Laws.Encoding.gtry (u : Bool) (d a b : Nat) : Laws.Encoding.Statement (.gtry u d a b) := by
  intro hw own
  have := Laws.ubit_le u
  have hw : (decide (d < 128) && decide (a < 128) && decide (b < 128)) = true := hw
  simp only [Bool.and_eq_true, decide_eq_true_eq] at hw
  exact Laws.fits_one (by omega)
theorem Laws.Encoding.mldr (u : Bool) (l a b x : Nat) : Laws.Encoding.Statement (.mldr u l a b x) := by
  intro hw own
  have := Laws.ubit_le u
  have hw : (decide (l < 16) && decide (a < 128) && decide (b < 128) && decide (x < 8)) = true := hw
  simp only [Bool.and_eq_true, decide_eq_true_eq] at hw
  exact Laws.fits_one (by omega)
theorem Laws.Encoding.mst (u : Bool) (l a b x : Nat) : Laws.Encoding.Statement (.mst u l a b x) := by
  intro hw own
  have := Laws.ubit_le u
  have hw : (decide (l < 16) && decide (a < 128) && decide (b < 128) && decide (x < 8)) = true := hw
  simp only [Bool.and_eq_true, decide_eq_true_eq] at hw
  exact Laws.fits_one (by omega)
theorem Laws.Encoding.csrr (u : Bool) (d c : Nat) : Laws.Encoding.Statement (.csrr u d c) := by
  intro hw own
  have := Laws.ubit_le u
  have hw : (decide (d < 128) && decide (c < 128)) = true := hw
  simp only [Bool.and_eq_true, decide_eq_true_eq] at hw
  exact Laws.fits_one (by omega)
theorem Laws.Encoding.csrw (u : Bool) (a c : Nat) : Laws.Encoding.Statement (.csrw u a c) := by
  intro hw own
  have := Laws.ubit_le u
  have hw : (decide (a < 128) && decide (c < 128)) = true := hw
  simp only [Bool.and_eq_true, decide_eq_true_eq] at hw
  exact Laws.fits_one (by omega)
theorem Laws.Encoding.tlbinv (u : Bool) (a b : Nat) : Laws.Encoding.Statement (.tlbinv u a b) := by
  intro hw own
  have := Laws.ubit_le u
  have hw : (decide (a < 128) && decide (b < 128)) = true := hw
  simp only [Bool.and_eq_true, decide_eq_true_eq] at hw
  exact Laws.fits_one (by omega)
theorem Laws.Encoding.cinv (u : Bool) (a b : Nat) : Laws.Encoding.Statement (.cinv u a b) := by
  intro hw own
  have := Laws.ubit_le u
  have hw : (decide (a < 128) && decide (b < 128)) = true := hw
  simp only [Bool.and_eq_true, decide_eq_true_eq] at hw
  exact Laws.fits_one (by omega)
theorem Laws.Encoding.tokxfer (u : Bool) (d a b : Nat) : Laws.Encoding.Statement (.tokxfer u d a b) := by
  intro hw own
  have := Laws.ubit_le u
  have hw : (decide (d < 128) && decide (a < 128) && decide (b < 128)) = true := hw
  simp only [Bool.and_eq_true, decide_eq_true_eq] at hw
  exact Laws.fits_one (by omega)
theorem Laws.Encoding.clklock (u : Bool) (a b : Nat) : Laws.Encoding.Statement (.clklock u a b) := by
  intro hw own
  have := Laws.ubit_le u
  have hw : (decide (a < 128) && decide (b < 128)) = true := hw
  simp only [Bool.and_eq_true, decide_eq_true_eq] at hw
  exact Laws.fits_one (by omega)
theorem Laws.Encoding.sleep (u : Bool) (a : Nat) : Laws.Encoding.Statement (.sleep u a) := by
  intro hw own
  have := Laws.ubit_le u
  have hw : (decide (a < 128)) = true := hw
  simp only [decide_eq_true_eq] at hw
  exact Laws.fits_one (by omega)
theorem Laws.Encoding.watch (u : Bool) (a b : Nat) : Laws.Encoding.Statement (.watch u a b) := by
  intro hw own
  have := Laws.ubit_le u
  have hw : (decide (a < 128) && decide (b < 128)) = true := hw
  simp only [Bool.and_eq_true, decide_eq_true_eq] at hw
  exact Laws.fits_one (by omega)
theorem Laws.Encoding.smov (u : Bool) (d a : Nat) : Laws.Encoding.Statement (.smov u d a) := by
  intro hw own
  have := Laws.ubit_le u
  have hw : (decide (d < 128) && decide (a < 128)) = true := hw
  simp only [Bool.and_eq_true, decide_eq_true_eq] at hw
  exact Laws.fits_one (by omega)
theorem Laws.Encoding.sadd (u : Bool) (d a b : Nat) : Laws.Encoding.Statement (.sadd u d a b) := by
  intro hw own
  have := Laws.ubit_le u
  have hw : (decide (d < 128) && decide (a < 128) && decide (b < 128)) = true := hw
  simp only [Bool.and_eq_true, decide_eq_true_eq] at hw
  exact Laws.fits_one (by omega)
theorem Laws.Encoding.ssig (u : Bool) (a b : Nat) : Laws.Encoding.Statement (.ssig u a b) := by
  intro hw own
  have := Laws.ubit_le u
  have hw : (decide (a < 128) && decide (b < 128)) = true := hw
  simp only [Bool.and_eq_true, decide_eq_true_eq] at hw
  exact Laws.fits_one (by omega)
theorem Laws.Encoding.ssig64 (u : Bool) (a b : Nat) : Laws.Encoding.Statement (.ssig64 u a b) := by
  intro hw own
  have := Laws.ubit_le u
  have hw : (decide (a < 128) && decide (b < 128)) = true := hw
  simp only [Bool.and_eq_true, decide_eq_true_eq] at hw
  exact Laws.fits_one (by omega)
theorem Laws.Encoding.ssigAdd64 (u : Bool) (a b : Nat) : Laws.Encoding.Statement (.ssigAdd64 u a b) := by
  intro hw own
  have := Laws.ubit_le u
  have hw : (decide (a < 128) && decide (b < 128)) = true := hw
  simp only [Bool.and_eq_true, decide_eq_true_eq] at hw
  exact Laws.fits_one (by omega)
theorem Laws.Encoding.slda (u : Bool) (d a : Nat) : Laws.Encoding.Statement (.slda u d a) := by
  intro hw own
  have := Laws.ubit_le u
  have hw : (decide (d < 128) && decide (a < 128)) = true := hw
  simp only [Bool.and_eq_true, decide_eq_true_eq] at hw
  exact Laws.fits_one (by omega)
theorem Laws.Encoding.slda64 (u : Bool) (d a : Nat) : Laws.Encoding.Statement (.slda64 u d a) := by
  intro hw own
  have := Laws.ubit_le u
  have hw : (decide (d < 128) && decide (a < 128)) = true := hw
  simp only [Bool.and_eq_true, decide_eq_true_eq] at hw
  exact Laws.fits_one (by omega)
theorem Laws.Encoding.sli (u : Bool) (d i : Nat) : Laws.Encoding.Statement (.sli u d i) := by
  intro hw own
  have := Laws.ubit_le u
  have hw : (decide (d < 128) && decide (i < 262144)) = true := hw
  simp only [Bool.and_eq_true, decide_eq_true_eq] at hw
  exact Laws.fits_one (by omega)
theorem Laws.Encoding.sliWide (d i : Nat) : Laws.Encoding.Statement (.sliWide d i) := by
  intro hw own
  have hw : (decide (d < 128) && decide (i < 4294967296)) = true := hw
  simp only [Bool.and_eq_true, decide_eq_true_eq] at hw
  exact Laws.fits_two (Laws.wideWord_lt false (by omega) (by omega) (by omega) (by omega)) (by omega)
theorem Laws.Encoding.sbnz (u : Bool) (a o : Nat) : Laws.Encoding.Statement (.sbnz u a o) := by
  intro hw own
  have := Laws.ubit_le u
  have hw : (decide (a < 128) && decide (o < 262144)) = true := hw
  simp only [Bool.and_eq_true, decide_eq_true_eq] at hw
  exact Laws.fits_one (by omega)
theorem Laws.Encoding.sloop (u : Bool) (a o : Nat) : Laws.Encoding.Statement (.sloop u a o) := by
  intro hw own
  have := Laws.ubit_le u
  have hw : (decide (a < 128) && decide (o < 262144)) = true := hw
  simp only [Bool.and_eq_true, decide_eq_true_eq] at hw
  exact Laws.fits_one (by omega)
theorem Laws.Encoding.tcfg (u n : Bool) (d a : Nat) : Laws.Encoding.Statement (.tcfg u n d a) := by
  intro hw own
  have := Laws.ubit_le u; have := Laws.nbit_le n
  have hw : (decide (d < 128) && decide (a < 128)) = true := hw
  simp only [Bool.and_eq_true, decide_eq_true_eq] at hw
  exact Laws.fits_one (by omega)
theorem Laws.Encoding.tzero (u n : Bool) (d : Nat) : Laws.Encoding.Statement (.tzero u n d) := by
  intro hw own
  have := Laws.ubit_le u; have := Laws.nbit_le n
  have hw : (decide (d < 128)) = true := hw
  simp only [decide_eq_true_eq] at hw
  exact Laws.fits_one (by omega)
theorem Laws.Encoding.tzeroRows (u n : Bool) (d b : Nat) : Laws.Encoding.Statement (.tzeroRows u n d b) := by
  intro hw own
  have := Laws.ubit_le u; have := Laws.nbit_le n
  have hw : (decide (d < 128) && decide (b < 128)) = true := hw
  simp only [Bool.and_eq_true, decide_eq_true_eq] at hw
  exact Laws.fits_one (by omega)
theorem Laws.Encoding.twr (u n : Bool) (d a b : Nat) : Laws.Encoding.Statement (.twr u n d a b) := by
  intro hw own
  have := Laws.ubit_le u; have := Laws.nbit_le n
  have hw : (decide (d < 128) && decide (a < 128) && decide (b < 128)) = true := hw
  simp only [Bool.and_eq_true, decide_eq_true_eq] at hw
  exact Laws.fits_one (by omega)
theorem Laws.Encoding.mma (u n : Bool) (d a : Nat) : Laws.Encoding.Statement (.mma u n d a) := by
  intro hw own
  have := Laws.ubit_le u; have := Laws.nbit_le n
  have hw : (decide (d < 128) && decide (a < 128)) = true := hw
  simp only [Bool.and_eq_true, decide_eq_true_eq] at hw
  exact Laws.fits_one (by omega)
theorem Laws.Encoding.mmas (u n : Bool) (d a : Nat) : Laws.Encoding.Statement (.mmas u n d a) := by
  intro hw own
  have := Laws.ubit_le u; have := Laws.nbit_le n
  have hw : (decide (d < 128) && decide (a < 128)) = true := hw
  simp only [Bool.and_eq_true, decide_eq_true_eq] at hw
  exact Laws.fits_one (by omega)
theorem Laws.Encoding.mmao (u n : Bool) (d a : Nat) : Laws.Encoding.Statement (.mmao u n d a) := by
  intro hw own
  have := Laws.ubit_le u; have := Laws.nbit_le n
  have hw : (decide (d < 128) && decide (a < 128)) = true := hw
  simp only [Bool.and_eq_true, decide_eq_true_eq] at hw
  exact Laws.fits_one (by omega)
theorem Laws.Encoding.accrd (u n : Bool) (d a b : Nat) : Laws.Encoding.Statement (.accrd u n d a b) := by
  intro hw own
  have := Laws.ubit_le u; have := Laws.nbit_le n
  have hw : (decide (d < 128) && decide (a < 128) && decide (b < 128)) = true := hw
  simp only [Bool.and_eq_true, decide_eq_true_eq] at hw
  exact Laws.fits_one (by omega)
theorem Laws.Encoding.accrdClr (u n : Bool) (d a b : Nat) : Laws.Encoding.Statement (.accrdClr u n d a b) := by
  intro hw own
  have := Laws.ubit_le u; have := Laws.nbit_le n
  have hw : (decide (d < 128) && decide (a < 128) && decide (b < 128)) = true := hw
  simp only [Bool.and_eq_true, decide_eq_true_eq] at hw
  exact Laws.fits_one (by omega)
theorem Laws.Encoding.accnorm (u n : Bool) (d : Nat) : Laws.Encoding.Statement (.accnorm u n d) := by
  intro hw own
  have := Laws.ubit_le u; have := Laws.nbit_le n
  have hw : (decide (d < 128)) = true := hw
  simp only [decide_eq_true_eq] at hw
  exact Laws.fits_one (by omega)
theorem Laws.Encoding.accnormRows (u n : Bool) (d b : Nat) : Laws.Encoding.Statement (.accnormRows u n d b) := by
  intro hw own
  have := Laws.ubit_le u; have := Laws.nbit_le n
  have hw : (decide (d < 128) && decide (b < 128)) = true := hw
  simp only [Bool.and_eq_true, decide_eq_true_eq] at hw
  exact Laws.fits_one (by omega)
theorem Laws.Encoding.acchrRow (u n : Bool) (d a b : Nat) : Laws.Encoding.Statement (.acchrRow u n d a b) := by
  intro hw own
  have := Laws.ubit_le u; have := Laws.nbit_le n
  have hw : (decide (d < 128) && decide (a < 128) && decide (b < 128)) = true := hw
  simp only [Bool.and_eq_true, decide_eq_true_eq] at hw
  exact Laws.fits_one (by omega)
theorem Laws.Encoding.acchrExp (u n : Bool) (d a b : Nat) : Laws.Encoding.Statement (.acchrExp u n d a b) := by
  intro hw own
  have := Laws.ubit_le u; have := Laws.nbit_le n
  have hw : (decide (d < 128) && decide (a < 128) && decide (b < 128)) = true := hw
  simp only [Bool.and_eq_true, decide_eq_true_eq] at hw
  exact Laws.fits_one (by omega)
theorem Laws.Encoding.acchrTile (u n : Bool) (d a : Nat) : Laws.Encoding.Statement (.acchrTile u n d a) := by
  intro hw own
  have := Laws.ubit_le u; have := Laws.nbit_le n
  have hw : (decide (d < 128) && decide (a < 128)) = true := hw
  simp only [Bool.and_eq_true, decide_eq_true_eq] at hw
  exact Laws.fits_one (by omega)
theorem Laws.Encoding.msync (u n : Bool) (a : Nat) : Laws.Encoding.Statement (.msync u n a) := by
  intro hw own
  have := Laws.ubit_le u; have := Laws.nbit_le n
  have hw : (decide (a < 128)) = true := hw
  simp only [decide_eq_true_eq] at hw
  exact Laws.fits_one (by omega)
theorem Laws.Encoding.cpy (u n : Bool) (d a b : Nat) : Laws.Encoding.Statement (.cpy u n d a b) := by
  intro hw own
  have := Laws.ubit_le u; have := Laws.nbit_le n
  have hw : (decide (d < 128) && decide (a < 128) && decide (b < 128)) = true := hw
  simp only [Bool.and_eq_true, decide_eq_true_eq] at hw
  exact Laws.fits_one (by omega)
theorem Laws.Encoding.cpym (u n : Bool) (f d a b : Nat) : Laws.Encoding.Statement (.cpym u n f d a b) := by
  intro hw own
  have := Laws.ubit_le u; have := Laws.nbit_le n
  have hw : (decide (f < 3) && decide (d < 128) && decide (a < 128) && decide (b < 128)) = true := hw
  simp only [Bool.and_eq_true, decide_eq_true_eq] at hw
  exact Laws.fits_one (by omega)
theorem Laws.Encoding.gather (u n : Bool) (d a b : Nat) : Laws.Encoding.Statement (.gather u n d a b) := by
  intro hw own
  have := Laws.ubit_le u; have := Laws.nbit_le n
  have hw : (decide (d < 128) && decide (a < 128) && decide (b < 128)) = true := hw
  simp only [Bool.and_eq_true, decide_eq_true_eq] at hw
  exact Laws.fits_one (by omega)
theorem Laws.Encoding.scatter (u n : Bool) (d a b : Nat) : Laws.Encoding.Statement (.scatter u n d a b) := by
  intro hw own
  have := Laws.ubit_le u; have := Laws.nbit_le n
  have hw : (decide (d < 128) && decide (a < 128) && decide (b < 128)) = true := hw
  simp only [Bool.and_eq_true, decide_eq_true_eq] at hw
  exact Laws.fits_one (by omega)
theorem Laws.Encoding.stage (u n : Bool) (a b : Nat) : Laws.Encoding.Statement (.stage u n a b) := by
  intro hw own
  have := Laws.ubit_le u; have := Laws.nbit_le n
  have hw : (decide (a < 128) && decide (b < 128)) = true := hw
  simp only [Bool.and_eq_true, decide_eq_true_eq] at hw
  exact Laws.fits_one (by omega)
theorem Laws.Encoding.emblk (u n : Bool) (d a b : Nat) : Laws.Encoding.Statement (.emblk u n d a b) := by
  intro hw own
  have := Laws.ubit_le u; have := Laws.nbit_le n
  have hw : (decide (d < 128) && decide (a < 128) && decide (b < 128)) = true := hw
  simp only [Bool.and_eq_true, decide_eq_true_eq] at hw
  exact Laws.fits_one (by omega)
theorem Laws.Encoding.topk (u n : Bool) (d a b : Nat) : Laws.Encoding.Statement (.topk u n d a b) := by
  intro hw own
  have := Laws.ubit_le u; have := Laws.nbit_le n
  have hw : (decide (d < 128) && decide (a < 128) && decide (b < 128)) = true := hw
  simp only [Bool.and_eq_true, decide_eq_true_eq] at hw
  exact Laws.fits_one (by omega)
theorem Laws.Encoding.coll (u n : Bool) (a : Nat) : Laws.Encoding.Statement (.coll u n a) := by
  intro hw own
  have := Laws.ubit_le u; have := Laws.nbit_le n
  have hw : (decide (a < 128)) = true := hw
  simp only [decide_eq_true_eq] at hw
  exact Laws.fits_one (by omega)
theorem Laws.Encoding.agset (u n : Bool) (a b : Nat) : Laws.Encoding.Statement (.agset u n a b) := by
  intro hw own
  have := Laws.ubit_le u; have := Laws.nbit_le n
  have hw : (decide (a < 128) && decide (b < 128)) = true := hw
  simp only [Bool.and_eq_true, decide_eq_true_eq] at hw
  exact Laws.fits_one (by omega)
theorem Laws.Encoding.egjoin (u n : Bool) (d a : Nat) : Laws.Encoding.Statement (.egjoin u n d a) := by
  intro hw own
  have := Laws.ubit_le u; have := Laws.nbit_le n
  have hw : (decide (d < 128) && decide (a < 128)) = true := hw
  simp only [Bool.and_eq_true, decide_eq_true_eq] at hw
  exact Laws.fits_one (by omega)
theorem Laws.Encoding.egleave (u n : Bool) (d a : Nat) : Laws.Encoding.Statement (.egleave u n d a) := by
  intro hw own
  have := Laws.ubit_le u; have := Laws.nbit_le n
  have hw : (decide (d < 128) && decide (a < 128)) = true := hw
  simp only [Bool.and_eq_true, decide_eq_true_eq] at hw
  exact Laws.fits_one (by omega)
theorem Laws.Encoding.ttop (u : Bool) (a : Nat) : Laws.Encoding.Statement (.ttop u a) := by
  intro hw own
  have := Laws.ubit_le u
  have hw : (decide (a < 128)) = true := hw
  simp only [decide_eq_true_eq] at hw
  exact Laws.fits_one (by omega)
theorem Laws.Encoding.evpop (u : Bool) (d : Nat) : Laws.Encoding.Statement (.evpop u d) := by
  intro hw own
  have := Laws.ubit_le u
  have hw : (decide (d < 128)) = true := hw
  simp only [decide_eq_true_eq] at hw
  exact Laws.fits_one (by omega)
theorem Laws.Encoding.evwait (u : Bool) (d : Nat) : Laws.Encoding.Statement (.evwait u d) := by
  intro hw own
  have := Laws.ubit_le u
  have hw : (decide (d < 128)) = true := hw
  simp only [decide_eq_true_eq] at hw
  exact Laws.fits_one (by omega)
theorem Laws.Encoding.nop : Laws.Encoding.Statement .nop := fun _ own => Laws.fits_one (by omega)
theorem Laws.Encoding.yield : Laws.Encoding.Statement .yield := fun _ own => Laws.fits_one (by omega)
theorem Laws.Encoding.exit : Laws.Encoding.Statement .exit := fun _ own => Laws.fits_one (by omega)
theorem Laws.Encoding.phase : Laws.Encoding.Statement .phase := fun _ own => Laws.fits_one (by omega)
theorem Laws.Encoding.meet : Laws.Encoding.Statement .meet := fun _ own => Laws.fits_two (Laws.wideWord_lt _ (by omega) (by omega) (by omega) (by omega)) (by omega)
theorem Laws.Encoding.clauseHeader : Laws.Encoding.Statement .clauseHeader := fun _ _ => Laws.fits_nil
theorem Laws.Encoding.outputWarpStart : Laws.Encoding.Statement .outputWarpStart := fun _ _ => Laws.fits_nil
theorem Laws.Encoding.rdv : Laws.Encoding.Statement .rdv := fun _ own => Laws.fits_one (by omega)
theorem Laws.Encoding.sequencerStart : Laws.Encoding.Statement .sequencerStart := fun _ _ => Laws.fits_nil
theorem Laws.Encoding.reggrowGrant : Laws.Encoding.Statement .reggrowGrant := fun _ _ => Laws.fits_nil
theorem Laws.Encoding.lookaheadResultWrite : Laws.Encoding.Statement .lookaheadResultWrite := fun _ _ => Laws.fits_nil
theorem Laws.Encoding.storePerformed : Laws.Encoding.Statement .storePerformed := fun _ _ => Laws.fits_nil
theorem Laws.Encoding.prefL2 : Laws.Encoding.Statement .prefL2 := fun _ own => Laws.fits_one (by omega)
theorem Laws.Encoding.prefL1 : Laws.Encoding.Statement .prefL1 := fun _ own => Laws.fits_one (by omega)
theorem Laws.Encoding.fence : Laws.Encoding.Statement .fence := fun _ own => Laws.fits_one (by omega)
theorem Laws.Encoding.lbarPlacementPreempt : Laws.Encoding.Statement .lbarPlacementPreempt := fun _ _ => Laws.fits_nil
theorem Laws.Encoding.gateSignalApply : Laws.Encoding.Statement .gateSignalApply := fun _ _ => Laws.fits_nil
theorem Laws.Encoding.trap : Laws.Encoding.Statement .trap := fun _ own => Laws.fits_one (by omega)
theorem Laws.Encoding.trapret : Laws.Encoding.Statement .trapret := fun _ own => Laws.fits_one (by omega)
theorem Laws.Encoding.bkpt : Laws.Encoding.Statement .bkpt := fun _ own => Laws.fits_one (by omega)
theorem Laws.Encoding.sleepWake : Laws.Encoding.Statement .sleepWake := fun _ _ => Laws.fits_nil
theorem Laws.Encoding.phaseTimerExpiry : Laws.Encoding.Statement .phaseTimerExpiry := fun _ _ => Laws.fits_nil
theorem Laws.Encoding.handlerEntry : Laws.Encoding.Statement .handlerEntry := fun _ _ => Laws.fits_nil
theorem Laws.Encoding.swait : Laws.Encoding.Statement .swait := fun _ own => Laws.fits_one (by omega)
theorem Laws.Encoding.endProg : Laws.Encoding.Statement .endProg := fun _ own => Laws.fits_one (by omega)
theorem Laws.Encoding.cpymFollowOn : Laws.Encoding.Statement .cpymFollowOn := fun _ _ => Laws.fits_nil
theorem Laws.Encoding.ttopSlotStart : Laws.Encoding.Statement .ttopSlotStart := fun _ _ => Laws.fits_nil
theorem Laws.Encoding.arrivedTilePush : Laws.Encoding.Statement .arrivedTilePush := fun _ _ => Laws.fits_nil
theorem Laws.Encoding.engineCommandComplete : Laws.Encoding.Statement .engineCommandComplete := fun _ _ => Laws.fits_nil
theorem Laws.Encoding.completionRecordPush : Laws.Encoding.Statement .completionRecordPush := fun _ _ => Laws.fits_nil
theorem Laws.Encoding.controlProgramStart : Laws.Encoding.Statement .controlProgramStart := fun _ _ => Laws.fits_nil
theorem Laws.Encoding.qwptrWrite : Laws.Encoding.Statement .qwptrWrite := fun _ _ => Laws.fits_nil
theorem Laws.Encoding.queueReset : Laws.Encoding.Statement .queueReset := fun _ _ => Laws.fits_nil
theorem Laws.Encoding.queueEnable : Laws.Encoding.Statement .queueEnable := fun _ _ => Laws.fits_nil
theorem Laws.Encoding.nopPacket : Laws.Encoding.Statement .nopPacket := fun _ _ => Laws.fits_nil
theorem Laws.Encoding.launchPacket : Laws.Encoding.Statement .launchPacket := fun _ _ => Laws.fits_nil
theorem Laws.Encoding.fencePacket : Laws.Encoding.Statement .fencePacket := fun _ _ => Laws.fits_nil
theorem Laws.Encoding.fenceCountersMet : Laws.Encoding.Statement .fenceCountersMet := fun _ _ => Laws.fits_nil
theorem Laws.Encoding.fenceTimeout : Laws.Encoding.Statement .fenceTimeout := fun _ _ => Laws.fits_nil
theorem Laws.Encoding.writePacket : Laws.Encoding.Statement .writePacket := fun _ _ => Laws.fits_nil
theorem Laws.Encoding.timedPacket : Laws.Encoding.Statement .timedPacket := fun _ _ => Laws.fits_nil
theorem Laws.Encoding.timedReached : Laws.Encoding.Statement .timedReached := fun _ _ => Laws.fits_nil
theorem Laws.Encoding.placeItem : Laws.Encoding.Statement .placeItem := fun _ _ => Laws.fits_nil
theorem Laws.Encoding.priorityAging : Laws.Encoding.Statement .priorityAging := fun _ _ => Laws.fits_nil
theorem Laws.Encoding.placementReserve : Laws.Encoding.Statement .placementReserve := fun _ _ => Laws.fits_nil
theorem Laws.Encoding.launchComplete : Laws.Encoding.Statement .launchComplete := fun _ _ => Laws.fits_nil
theorem Laws.Encoding.withdrawLaunch : Laws.Encoding.Statement .withdrawLaunch := fun _ _ => Laws.fits_nil
theorem Laws.Encoding.preempt : Laws.Encoding.Statement .preempt := fun _ _ => Laws.fits_nil
theorem Laws.Encoding.preemptAndHold : Laws.Encoding.Statement .preemptAndHold := fun _ _ => Laws.fits_nil
theorem Laws.Encoding.preemptRelease : Laws.Encoding.Statement .preemptRelease := fun _ _ => Laws.fits_nil
theorem Laws.Encoding.preemptSwapComplete : Laws.Encoding.Statement .preemptSwapComplete := fun _ _ => Laws.fits_nil
theorem Laws.Encoding.preemptSpillComplete : Laws.Encoding.Statement .preemptSpillComplete := fun _ _ => Laws.fits_nil
theorem Laws.Encoding.activate : Laws.Encoding.Statement .activate := fun _ _ => Laws.fits_nil
theorem Laws.Encoding.freeze : Laws.Encoding.Statement .freeze := fun _ _ => Laws.fits_nil
theorem Laws.Encoding.freezeComplete : Laws.Encoding.Statement .freezeComplete := fun _ _ => Laws.fits_nil
theorem Laws.Encoding.resume : Laws.Encoding.Statement .resume := fun _ _ => Laws.fits_nil
theorem Laws.Encoding.tearDownKeepingGates : Laws.Encoding.Statement .tearDownKeepingGates := fun _ _ => Laws.fits_nil
theorem Laws.Encoding.tearDownExportingGates : Laws.Encoding.Statement .tearDownExportingGates := fun _ _ => Laws.fits_nil
theorem Laws.Encoding.teardownComplete : Laws.Encoding.Statement .teardownComplete := fun _ _ => Laws.fits_nil
theorem Laws.Encoding.partitionFieldWrite : Laws.Encoding.Statement .partitionFieldWrite := fun _ _ => Laws.fits_nil
theorem Laws.Encoding.gateEntryWrite : Laws.Encoding.Statement .gateEntryWrite := fun _ _ => Laws.fits_nil
theorem Laws.Encoding.gateTokenRefill : Laws.Encoding.Statement .gateTokenRefill := fun _ _ => Laws.fits_nil
theorem Laws.Encoding.ringEnWrite : Laws.Encoding.Statement .ringEnWrite := fun _ _ => Laws.fits_nil
theorem Laws.Encoding.migrationGo : Laws.Encoding.Statement .migrationGo := fun _ _ => Laws.fits_nil
theorem Laws.Encoding.migrationSwitchOver : Laws.Encoding.Statement .migrationSwitchOver := fun _ _ => Laws.fits_nil
theorem Laws.Encoding.migrationFailure : Laws.Encoding.Statement .migrationFailure := fun _ _ => Laws.fits_nil
theorem Laws.Encoding.fabricAccessServe : Laws.Encoding.Statement .fabricAccessServe := fun _ _ => Laws.fits_nil
theorem Laws.Encoding.parkedRetry : Laws.Encoding.Statement .parkedRetry := fun _ _ => Laws.fits_nil
theorem Laws.Encoding.parkedDrop : Laws.Encoding.Statement .parkedDrop := fun _ _ => Laws.fits_nil
theorem Laws.Encoding.parkedExpiry : Laws.Encoding.Statement .parkedExpiry := fun _ _ => Laws.fits_nil
theorem Laws.Encoding.memberAbsentTimeout : Laws.Encoding.Statement .memberAbsentTimeout := fun _ _ => Laws.fits_nil
theorem Laws.Encoding.agreementRoundStart : Laws.Encoding.Statement .agreementRoundStart := fun _ _ => Laws.fits_nil
theorem Laws.Encoding.agreementAckTimeout : Laws.Encoding.Statement .agreementAckTimeout := fun _ _ => Laws.fits_nil
theorem Laws.Encoding.agreementRoundEnd : Laws.Encoding.Statement .agreementRoundEnd := fun _ _ => Laws.fits_nil
theorem Laws.Encoding.switchReset : Laws.Encoding.Statement .switchReset := fun _ _ => Laws.fits_nil
theorem Laws.Encoding.timeDomainLeave : Laws.Encoding.Statement .timeDomainLeave := fun _ _ => Laws.fits_nil
theorem Laws.Encoding.timeDomainRejoin : Laws.Encoding.Statement .timeDomainRejoin := fun _ _ => Laws.fits_nil
theorem Laws.Encoding.tokenReceive : Laws.Encoding.Statement .tokenReceive := fun _ _ => Laws.fits_nil
theorem Laws.Encoding.tokenReturnArrival : Laws.Encoding.Statement .tokenReturnArrival := fun _ _ => Laws.fits_nil
theorem Laws.Encoding.clockLockEffect : Laws.Encoding.Statement .clockLockEffect := fun _ _ => Laws.fits_nil
theorem Laws.Encoding.powerClampAdjust : Laws.Encoding.Statement .powerClampAdjust := fun _ _ => Laws.fits_nil
theorem Laws.Encoding.energyAttributionInterval : Laws.Encoding.Statement .energyAttributionInterval := fun _ _ => Laws.fits_nil
theorem Laws.Encoding.energyIdleSlotAdd : Laws.Encoding.Statement .energyIdleSlotAdd := fun _ _ => Laws.fits_nil
theorem Laws.Encoding.hostMemRead : Laws.Encoding.Statement .hostMemRead := fun _ _ => Laws.fits_nil
theorem Laws.Encoding.hostMemWrite : Laws.Encoding.Statement .hostMemWrite := fun _ _ => Laws.fits_nil
theorem Laws.Encoding.ownerClaim : Laws.Encoding.Statement .ownerClaim := fun _ _ => Laws.fits_nil
theorem Laws.Encoding.ownerHandOver : Laws.Encoding.Statement .ownerHandOver := fun _ _ => Laws.fits_nil
theorem Laws.Encoding.ownerAccept : Laws.Encoding.Statement .ownerAccept := fun _ _ => Laws.fits_nil
theorem Laws.Encoding.ownerRelease : Laws.Encoding.Statement .ownerRelease := fun _ _ => Laws.fits_nil
theorem Laws.Encoding.ownerLinkDown : Laws.Encoding.Statement .ownerLinkDown := fun _ _ => Laws.fits_nil
theorem Laws.Encoding.portLimiterWrite : Laws.Encoding.Statement .portLimiterWrite := fun _ _ => Laws.fits_nil
theorem Laws.Encoding.hostWindowWrite : Laws.Encoding.Statement .hostWindowWrite := fun _ _ => Laws.fits_nil
theorem Laws.Encoding.coldReset : Laws.Encoding.Statement .coldReset := fun _ _ => Laws.fits_nil
theorem Laws.Encoding.warmReset : Laws.Encoding.Statement .warmReset := fun _ _ => Laws.fits_nil
theorem Laws.Encoding.bootctlWrite : Laws.Encoding.Statement .bootctlWrite := fun _ _ => Laws.fits_nil
theorem Laws.Encoding.bootCheckComplete : Laws.Encoding.Statement .bootCheckComplete := fun _ _ => Laws.fits_nil
theorem Laws.Encoding.blackboxSnap : Laws.Encoding.Statement .blackboxSnap := fun _ _ => Laws.fits_nil
theorem Laws.Encoding.blackboxSnapComplete : Laws.Encoding.Statement .blackboxSnapComplete := fun _ _ => Laws.fits_nil
theorem Laws.Encoding.getVersion : Laws.Encoding.Statement .getVersion := fun _ _ => Laws.fits_nil
theorem Laws.Encoding.getCapabilities : Laws.Encoding.Statement .getCapabilities := fun _ _ => Laws.fits_nil
theorem Laws.Encoding.negotiateAlgorithms : Laws.Encoding.Statement .negotiateAlgorithms := fun _ _ => Laws.fits_nil
theorem Laws.Encoding.getDigests : Laws.Encoding.Statement .getDigests := fun _ _ => Laws.fits_nil
theorem Laws.Encoding.getCertificate : Laws.Encoding.Statement .getCertificate := fun _ _ => Laws.fits_nil
theorem Laws.Encoding.challenge : Laws.Encoding.Statement .challenge := fun _ _ => Laws.fits_nil
theorem Laws.Encoding.getMeasurements : Laws.Encoding.Statement .getMeasurements := fun _ _ => Laws.fits_nil
theorem Laws.Encoding.patrolScrub : Laws.Encoding.Statement .patrolScrub := fun _ _ => Laws.fits_nil
theorem Laws.Encoding.uncorrectableError : Laws.Encoding.Statement .uncorrectableError := fun _ _ => Laws.fits_nil
theorem Laws.Encoding.genericRegisterWrite : Laws.Encoding.Statement .genericRegisterWrite := fun _ _ => Laws.fits_nil
theorem Laws.Encoding.relationOperationComplete : Laws.Encoding.Statement .relationOperationComplete := fun _ _ => Laws.fits_nil
theorem Laws.Encoding.engineCounterOperationComplete : Laws.Encoding.Statement .engineCounterOperationComplete := fun _ _ => Laws.fits_nil
theorem Laws.Encoding.switchUnreachable : Laws.Encoding.Statement .switchUnreachable := fun _ _ => Laws.fits_nil
theorem Laws.Encoding.fabricFormation : Laws.Encoding.Statement .fabricFormation := fun _ _ => Laws.fits_nil
theorem Laws.Encoding.tokenBrokerMove : Laws.Encoding.Statement .tokenBrokerMove := fun _ _ => Laws.fits_nil

end Sys2Proof
end

