-- ==== Sys2Proof/Tests/Slice0.lean ====
section
/-!
SUPPORT. Tests of the model on small states: that each check of well-formedness refuses something, words written out from the spec's
encodings, the spec's worked examples, and for every statement with hypotheses a state and operands that meet them.
-/
namespace Sys2Proof.Tests
set_option Elab.async false
open Sys2Proof.Machine

/-! ## States -/

/-- A thread of the launch of `programLaunch`, past its clause header. -/
def thread (l : Nat) : NewThread := ⟨[l], [], [], ⟨0x20000, false, 8, some 0x7FFF88⟩, 0, 0⟩
/-- A warp of two threads. -/
def warp (f : Warp → Warp) : Warp := f (mkWarp 0 0 16 .zero [thread 0, thread 1])
def group (f : Warp → Warp) : WorkGroup := { mkGroup 1 1 1 3 0 0 1 false 16 [0] .zero [] with warps := [warp f], seats := [⟨0, [[0], [1]], 16⟩] }
def work (f : Warp → Warp) : Work := { Work.empty with launches := [(1, programLaunch)], wgs := [group f] }
/-- Partition 0 running, with the group of lanes `ls` issuing a word and a literal. -/
def simt (ls : List Nat) (w lit : Nat) (f : Warp → Warp) : State :=
  { State.reset with
    mem := ⟨writeCells [] programTables, [], []⟩, parts := [(0, programPart)], works := [(0, work f)], cores := [(0, Core.empty)], ids := 3,
    issue := .simt 0 1 0 ls w lit }
def ctx (ls : List Nat) (w lit : Nat) : Ctx := ⟨0, 1, 0, ls, w, lit⟩
/-- Registers of lane 0 and of lane 1: register, value, value. -/
def regs (vs : List (Nat × Word × Word)) (w : Warp) : Warp :=
  { w with regs := vs.foldl (fun m e => put (put m (regKey e.1 0) e.2.1) (regKey e.1 1) e.2.2) w.regs }

/-! ## Statements have instances: register instructions and control -/

theorem witness_DecodeOfEncode :
    (Instr.add true 127 127 127).wf = true ∧ 0 ∈ (Instr.add true 127 127 127).classes ∧ (Instr.addiWide false 0 127 4294967295).wf = true ∧
      0 ∈ (Instr.addiWide false 0 127 4294967295).classes ∧ Instr.nop.wf = true ∧ 0 ∈ Instr.nop.classes ∧
      (let h : Header := ⟨127, true, true, 15, 15, 15, 15, 7, 15⟩
       h.rsvd < 2 ^ 7 ∧ h.wrl < 2 ^ 4 ∧ h.wen < 2 ^ 4 ∧ h.wst < 2 ^ 4 ∧ h.wld < 2 ^ 4 ∧ h.cls < 2 ^ 3 ∧ h.count < 2 ^ 4) := by decide

theorem witness_AnswersLeaveTheRestAlone :
    let c := ctx [0, 1] 0 0
    let f : Nat → List (Nat × Word) := fun _ => [(5, 1), (6, 2)]
    (∀ l ∈ c.lanes, l < 32) ∧ c.lanes.Nodup ∧ (simt [0, 1] 0 0 id).warp c.p c.wg c.wid = some (warp id) ∧
      (∀ l ∈ c.lanes, ((f l).map (·.1)).Nodup ∧ (5, 1) ∈ f l) ∧ ∀ q : Seq, (id q).id = q.id := by
  refine ⟨by decide, by decide, by decide, by decide, fun _ => rfl⟩

/-- Two lanes issue, with uniform bit and without; every register operand at the end of its range. -/
theorem witness_IntegerArithmeticResults :
    let c := ctx [0, 1] 0 0
    Issues (simt [0, 1] 0 0 id) c (group id) (warp id) ∧ OperandsOk c (warp id) (c.readers false) [(127, 1)] [(127, 1), (0, 1)] ∧
      OperandsOk c (warp id) (c.readers true) [(127, 1)] [(127, 1), (0, 1)] := by decide

theorem witness_LogicShiftResults :
    let c := ctx [1] 0 0
    Issues (simt [1] 0 0 id) c (group id) (warp id) ∧ OperandsOk c (warp id) (c.readers false) [(0, 1)] [(0, 1), (0, 1)] := by decide

theorem witness_IntegerUnaryResults :
    let c := ctx [0] 0 0
    Issues (simt [0] 0 0 id) c (group id) (warp id) ∧ OperandsOk c (warp id) (c.readers true) [(127, 1)] [(127, 1)] := by decide

theorem witness_PairAndThirdSourceResults :
    let c := ctx [0, 1] 0 0
    Issues (simt [0, 1] 0 0 id) c (group id) (warp id) ∧ OperandsOk c (warp id) (c.readers false) [(126, 2)] [(126, 2), (0, 2)] ∧
      OperandsOk c (warp id) (c.readers false) [(127, 1)] [(127, 1), (127, 1), (0, 1)] := by decide

theorem witness_ImmediateResults :
    let c := ctx [0, 1] 0 0
    Issues (simt [0, 1] 0 0 id) c (group id) (warp id) ∧ OperandsOk c (warp id) (c.readers false) [(127, 1)] [(127, 1)] ∧
      OperandsOk c (warp id) (c.readers false) [(127, 1)] [(127, 1), (127, 1)] ∧ 2047 < 2 ^ 11 ∧ 4294967295 < 2 ^ 32 ∧ 31 < 32 ∧ 127 < 2 ^ 7 ∧
      32 ≤ 32 ∧ 32 ≤ 127 := by decide

theorem witness_ConstantsAndAddressesWritten :
    let c := ctx [0, 1] 0 0
    Issues (simt [0, 1] 0 0 id) c (group id) (warp id) ∧ OperandsOk c (warp id) [] [(127, 1)] [] ∧ OperandsOk c (warp id) [] [(126, 2)] [] ∧
      2 ^ 18 - 1 < 2 ^ 18 ∧ 2 ^ 32 - 1 < 2 ^ 32 := by decide

theorem witness_FloatArithmeticResults :
    let c := ctx [0, 1] 0 0
    Issues (simt [0, 1] 0 0 id) c (group id) (warp id) ∧ OperandsOk c (warp id) (c.readers true) [(127, 1)] [(1, 1), (2, 1)] ∧
      OperandsOk c (warp id) (c.readers false) [(127, 1)] [(127, 1), (1, 1), (2, 1)] ∧
      OperandsOk c (warp id) (c.readers false) [(127, 1)] [(0, 1)] := by decide

theorem witness_TranscendentalResults :
    let c := ctx [0, 1] 0 0
    Issues (simt [0, 1] 0 0 id) c (group id) (warp id) ∧ OperandsOk c (warp id) (c.readers false) [(127, 1)] [(0, 1)] ∧
      (f32 0x7F800001).isNan = true ∧ (f32 0x80000001).lt (.ofInt 0) = true ∧ (f32 0x43000000).isNan = false ∧
      (f32 0x43000000).lt (.ofInt 128) = false ∧ (f32 0xC3160001).lt (.ofInt (-150)) = true ∧ (f32 0x41100000).lt (.ofInt 9) = false ∧
      (FVal.ofInt (-9)).lt (f32 0xC1100000) = false := by decide

theorem witness_ConversionResults :
    let c := ctx [0, 1] 0 0
    Issues (simt [0, 1] 0 0 id) c (group id) (warp id) ∧ OperandsOk c (warp id) (c.readers false) [(127, 1)] [(0, 1)] ∧
      OperandsOk c (warp id) (c.readers false) [(127, 1)] [(0, 1), (1, 1)] ∧ OperandsOk c (warp id) (c.readers false) [(127, 1)] [(126, 2)] ∧
      OperandsOk c (warp id) (c.readers false) [(126, 2)] [(127, 1)] ∧ 1 < 32 / 16 ∧ 3 < 32 / 8 ∧ 32 / 16 ≤ 2 ∧ 32 / 8 ≤ 4 := by decide

theorem witness_LaneExchangeAndReductionResults :
    let c := ctx [0, 1] 77 0
    let v := ctx [0, 1] (2 ^ 31) 0
    Issues (simt [0, 1] 77 0 id) c (group id) (warp id) ∧ c.word / 2 ^ 31 % 2 = 0 ∧ OperandsOk c (warp id) c.lanes [(127, 1)] [(0, 1), (1, 1)] ∧
      OperandsOk c (warp id) c.lanes [(127, 1)] [(0, 1)] ∧ OperandsOk c (warp id) c.lanes [(127, 1)] [] ∧ 31 < 32 ∧ 3 < 4 ∧
      Issues (simt [0, 1] (2 ^ 31) 0 id) v (group id) (warp id) ∧ v.word / 2 ^ 31 % 2 = 1 := by decide

theorem witness_LaneExchangeAndReductionResults_reduction :
    let c := ctx [0, 1] 77 0
    Issues (simt [0, 1] 77 0 id) c (group id) (warp id) ∧ c.word / 2 ^ 31 % 2 = 0 ∧ c.lanes ≠ [] ∧ c.lanes.Pairwise (· < ·) ∧
      OperandsOk c (warp id) c.lanes [(127, 1)] [(0, 1)] ∧ OperandsOk c (warp id) c.lanes [(127, 1)] [(0, 1), (1, 1)] := by decide

theorem witness_TaggedBlockResults :
    let c := ctx [0, 1] 77 0
    let w := warp id
    let ready : List Nat → Prop := fun rs => ∀ l ∈ w.live, ∀ r ∈ (w.lane l).results, ∀ v ∈ r.vals, v.1 ∉ rs
    Issues (simt [0, 1] 77 0 id) c (group id) w ∧ OperandsOk c w w.live [(127, 1)] [(126, 2)] ∧ ready [126, 127] ∧
      OperandsOk c w (w.live.filter (· < 16)) [(126, 2)] [(127, 1)] ∧ ready [127] := by decide

/-- A warp in handler mode. -/
def handler (w : Warp) : Warp := { w with trap := { w.trap with hm := true, hcur := ⟨0x20400, false, 8, some 0x7FFF88⟩ } }
/-- The cursors of the lanes with `n` words left of their clause. -/
def left (n : Nat) (w : Warp) : Warp := w.modLanes [0, 1] fun x => { x with cur := ⟨0x20000, false, n, some 0x7FFF88⟩ }

theorem witness_TransfersComplete :
    let c := ctx [0, 1] 77 0
    let f := regs [(2, 0x20040, 0x20044), (3, 0, 0), (4, 0x20042, 0), (5, 0, 0), (6, 0, 0), (7, 0, 0x1000000)]
    let target : Nat → Nat → Nat := fun a l => ((warp f).pair a l).toNat
    Issues (simt [0, 1] 77 0 f) c (group f) (warp f) ∧ 2 ^ 25 - 1 < 2 ^ 25 ∧ 2 ^ 18 - 1 < 2 ^ 18 ∧ OperandsOk c (warp f) (c.readers false) [] [(127, 1)] ∧
      (Issues (simt [0, 1] 77 0 (left 2)) c (group (left 2)) (warp (left 2)) ∧ 2 ^ 32 - 4 < 2 ^ 32 ∧ (2 ^ 32 - 4) % 4 = 0 ∧ (warp (left 2)).remOf c = 2 ∧
        OperandsOk c (warp (left 2)) [] [(126, 2)] []) ∧
      (warp f).remOf c ≠ 2 ∧ (warp f).remOf c ≠ 1 ∧
      (let g : Warp → Warp := fun w => left 1 (f w)
       Issues (simt [0, 1] 77 0 g) c (group g) (warp g) ∧ (warp g).remOf c = 1 ∧ OperandsOk c (warp g) (c.readers false) [(126, 2)] [(2, 2)]) ∧
      OperandsOk c (warp f) (c.readers false) [] [(2, 2)] ∧ (∀ l ∈ c.lanes, target 2 l < 2 ^ 56 ∧ target 2 l % 4 = 0) ∧ c.lanes ≠ [] ∧
      (∃ l ∈ c.lanes, 2 ^ 56 ≤ target 6 l) ∧ (∀ l ∈ c.lanes, target 4 l < 2 ^ 56) ∧ ∃ l ∈ c.lanes, target 4 l % 4 ≠ 0 := by decide

theorem witness_TransfersComplete_moves :
    let c := ctx [0, 1] 77 0
    let ts : List (Nat × VAddr) := [(1, 0xFFFFFFFFFFFFFC)]
    Issues (simt [0, 1] 77 0 id) c (group id) (warp id) ∧ (ts.map (·.1)).Nodup ∧ (∀ e ∈ ts, e.1 ∈ c.lanes) ∧
      (∀ l ∈ c.lanes, l < (warp id).lanes.length) ∧ (∀ x ∈ (warp id).lanes, x.waitAt = none) ∧ (warp id).trap.hm = false ∧
      Issues (simt [0, 1] 77 0 handler) c (group handler) (warp handler) ∧ (warp handler).trap.hm = true := by decide

theorem witness_PlainControlCompletes :
    let c := ctx [0, 1] 77 (2 ^ 32 - 4)
    let s := simt [0, 1] 77 (2 ^ 32 - 4) id
    Issues s c (group id) (warp id) ∧ (s.work c.p).launch (group id).seq = some programLaunch ∧ programLaunch.rcd.phbudget = 0 ∧ c.lit < 2 ^ 32 ∧
      c.lit % 4 = 0 ∧ (5 ≤ 5 ∨ 8 ≤ 5 ∧ 5 ≤ 15) ∧ OperandsOk c (warp id) [] [(127, 1)] [] ∧ ¬(6 ≤ 5 ∨ 8 ≤ 6 ∧ 6 ≤ 15) ∧
      ¬(16 ≤ 5 ∨ 8 ≤ 16 ∧ 16 ≤ 15) := by decide

theorem witness_MaskReadAndWrite :
    let c := ctx [0, 1] 77 0
    Issues (simt [0, 1] 77 0 id) c (group id) (warp id) ∧ 11 ≤ 11 ∧ OperandsOk c (warp id) [] [(127, 1)] [] ∧
      OperandsOk c (warp id) [c.l0] [] [(127, 1)] := by decide

theorem witness_MaskMembershipAndWaiting :
    let c := ctx [0, 1] 77 0
    Issues (simt [0, 1] 77 0 id) c (group id) (warp id) ∧ 11 ≤ 11 ∧ (warp id).trap.hm = false ∧
      Issues (simt [0, 1] 77 0 handler) c (group handler) (warp handler) ∧ (warp handler).trap.hm = true ∧ 11 < 12 := by decide

/-! ## Statements have instances: memory -/

/-- Register pair 2 of both lanes holds addresses 64 KiB apart from nothing else; 4 to 7 hold data. -/
def addressed (x y : Word) : Warp → Warp := regs [(2, x, y), (3, 0, 0), (4, 1, 2), (5, 3, 4), (6, 5, 6), (7, 7, 8)]
/-- Lane 0 of the warp has a multicast store that a member has not performed. -/
def opened (s : State) : State := s.modWork 0 fun x => { x with stores := [⟨9, 1, 1, 0, 0, 3, false, false, [], none, false⟩] }

theorem witness_LoadsComplete :
    let c := ctx [0, 1] 77 0
    let f := addressed 0x30010 0x30080
    let s := simt [0, 1] 77 0 f
    let acc : Nat → Bool → Int → Nat → Acc := fun n sync off k =>
      ⟨k, (((((warp f).reg 2 k).toNat + 2 ^ 32 * ((warp f).reg 3 k).toNat : Int) + off) % 2 ^ 64).toNat, n, .read, sync⟩
    Issues s c (group f) (warp f) ∧ (warp f).loadCount < 63 ∧ 127 < 128 ∧
      (∀ e ∈ [(1, false, (-1 : Int)), (16, false, -16), (8, true, 1016)],
        let as := (c.readers false).map (acc e.1 e.2.1 e.2.2)
        OperandsOk c (warp f) (c.readers false) [(124, if e.1 < 4 then 1 else e.1 / 4)] [(2, 2)] ∧
          (∀ x ∈ as, s.accCheck c (group f) (warp f) x = none) ∧ ∀ x ∈ as, LandsPlain (s.fillAll c (group f) as) c (group f) (warp f) x) ∧ (s.work c.p).stores = [] ∧
      ∃ x ∈ (c.readers true).map (acc 4 false 1), s.accCheck c (group f) (warp f) x ≠ none := by decide

theorem witness_StoresComplete :
    let c := ctx [0, 1] 77 0
    let f := addressed 0x30010 0x30080
    let s := simt [0, 1] 77 0 f
    let acc : Nat → Bool → Int → Nat → Acc := fun n sync off k =>
      ⟨k, (((((warp f).reg 2 k).toNat + 2 ^ 32 * ((warp f).reg 3 k).toNat : Int) + off) % 2 ^ 64).toNat, n, .write, sync⟩
    let data : Nat → Nat → List Byte := fun n k => (List.range n).map fun i => BitVec.ofNat 8 (((warp f).reg (4 + i / 4) k).toNat / 256 ^ (i % 4))
    Issues s c (group f) (warp f) ∧ (s.work c.p).storeCount c.wg c.wid < 63 ∧ 127 < 128 ∧
      (∀ e ∈ [(1, (-1 : Int)), (16, -16)],
        let as := (c.readers false).map (acc e.1 false e.2)
        OperandsOk c (warp f) (c.readers false) [] [(4, if e.1 < 4 then 1 else e.1 / 4), (2, 2)] ∧
          (∀ x ∈ as, s.accCheck c (group f) (warp f) x = none) ∧ ∀ x ∈ as, LandsPlain (s.fillAll c (group f) as) c (group f) (warp f) x) ∧
      (∃ x ∈ (c.readers true).map (acc 4 false 1), s.accCheck c (group f) (warp f) x ≠ none) ∧
      (let as := (c.readers true).map (acc 8 true 1016)
       OperandsOk c (warp f) (c.readers true) [] [(4, 2), (2, 2)] ∧ (∀ x ∈ as, s.accCheck c (group f) (warp f) x = none) ∧ c.readers true = [0] ∧
        leafFmt ((s.fillAll c (group f) as).landing c (group f) (warp f) (acc 8 true 1016 0)).2 ≠ 2 ∧
        (∀ k ∈ c.readers true, (s.fillAll c (group f) as).laneOpen c.p c.wg c.wid k = false) ∧
        (storeAll (fun t x => t.storeAcc c (group f) (warp f) x (data 8 x.lane)) (s.fillAll c (group f) as) as).2 = none ∧
        Issues (opened s) c (group f) (warp f) ∧ (∀ x ∈ as, (opened s).accCheck c (group f) (warp f) x = none) ∧
        ((opened s).fillAll c (group f) as).laneOpen c.p c.wg c.wid 0 = true) := by
  and_intros <;> decide

theorem witness_AtomicsAndReductionsComplete :
    let c := ctx [0, 1] 77 0
    let f := addressed 0x30010 0x30080
    let s := simt [0, 1] 77 0 f
    let acc : Nat → Nat → Acc := fun x k => ⟨k, (((warp f).reg 2 k).toNat + 2 ^ 32 * ((warp f).reg 3 k).toNat + 4 * x) % 2 ^ 64, 4, .atomic, true⟩
    Issues s c (group f) (warp f) ∧ (warp f).loadCount < 63 ∧ (s.work c.p).storeCount c.wg c.wid < 63 ∧
      OperandsOk c (warp f) (c.readers true) [(127, 1)] [(2, 2), (4, 2)] ∧ OperandsOk c (warp f) (c.readers true) [] [(2, 2), (4, 1)] ∧ 7 < 8 ∧
      c.readers true = [0] ∧
      (∀ x ∈ [0, 7],
        let as := (c.readers true).map (acc x)
        let s2 := (s.fillAll c (group f) as).drainLane c.p c.wg c.wid 0
        (∀ y ∈ as, s.accCheck c (group f) (warp f) y = none) ∧ (∀ y ∈ as, LandsPlain (s.fillAll c (group f) as) c (group f) (warp f) y) ∧
          (s.fillAll c (group f) as).laneOpen c.p c.wg c.wid 0 = false ∧
          s2.placeOf c.p ((s.fillAll c (group f) as).landing c (group f) (warp f) (acc x 0)).1 = .mem ∧
          s2.mem.poisoned ((s.fillAll c (group f) as).landing c (group f) (warp f) (acc x 0)).1 4 = false) ∧
      (let as := (c.readers true).map (acc 0)
       Issues (opened s) c (group f) (warp f) ∧ (∀ y ∈ as, (opened s).accCheck c (group f) (warp f) y = none) ∧
         ((opened s).fillAll c (group f) as).laneOpen c.p c.wg c.wid 0 = true) ∧
      (let as := (c.readers false).map (acc 0)
       (loadAll (fun t y => t.atomAcc c (group f) (warp f) y (fun o => some (o + 1))) (s.fillAll c (group f) as) as).2.toOption.isSome = true) ∧
      (let y : PendingStore := ⟨9, 0, 1, 0, 0, 3, false, false, located 0x30000 [0, 0, 0, 0], some (1, (warp f).reg 4 c.l0), false⟩
       let z : State := { s.modWork 0 fun x => { x with stores := [y] } with issue := .part [0, 0] }
       z.issue = .part [0, 0] ∧ (z.work 0).stores[0]? = some y ∧ y.parked = 0 ∧ y.spad = false ∧
         ∀ v ∈ (z.work 0).stores.take 0, y.after v = false) ∧
      (let at_ : Warp → Warp := addressed 0x200018 0x200018
       let q : State := (simt [0, 1] 77 0 at_).modPart 0 fun x => { x with desc := put x.desc 3 0x200000 }
       Issues q c (group at_) (warp at_) ∧ (∀ y ∈ (c.readers true).map fun k => (⟨k, 0x200018, 4, .atomic, true⟩ : Acc), q.accCheck c (group at_) (warp at_) y = none) ∧
         (q.fillAll c (group at_) [⟨0, 0x200018, 4, .atomic, true⟩]).placeOf 0 ((q.fillAll c (group at_) [⟨0, 0x200018, 4, .atomic, true⟩]).landing c
           (group at_) (warp at_) ⟨0, 0x200018, 4, .atomic, true⟩).1 ≠ .mem) := by
  and_intros <;> decide

/-- The work-group with a region of 4 KiB of scratchpad. -/
def scratched (f : Warp → Warp) : WorkGroup := { group f with space := [⟨0, 4096, 1, 0, []⟩] }

theorem witness_ScratchpadAccessesComplete :
    let c := ctx [0] 77 0
    let f := addressed 0xFF0 0
    let s := (simt [0] 77 0 f).modWg 0 1 fun _ => scratched f
    Issues s c (scratched f) (warp f) ∧ (warp f).loadCount < 63 ∧ (s.work c.p).storeCount c.wg c.wid < 63 ∧
      (∀ n ∈ [4, 8, 16], OperandsOk c (warp f) (c.readers false) [(4, n / 4)] [(2, 1)] ∧ OperandsOk c (warp f) (c.readers false) [] [(2, 1), (4, n / 4)] ∧
        ((c.readers false).filterMap fun k => s.spadCheck c (scratched f) (warp f) .read k ((warp f).reg 2 k).toNat n) = [] ∧
        s.spad.poisoned ((s.spadAt c (scratched f) (warp f) 0 ((warp f).reg 2 0).toNat n).getD 0) n = false ∧
        ((c.readers false).filterMap fun k => s.spadCheck c (scratched f) (warp f) .write k (((warp f).reg 2 k).toNat + 16) n) ≠ []) := by decide

theorem witness_PrefetchFenceBridgeComplete :
    let c := ctx [0, 1] (2 * 2 ^ 10) 0
    let s := simt [0, 1] (2 * 2 ^ 10) 0 id
    let t := s.modWork 0 fun x => { x with stores := [⟨9, 1, 1, 0, 1, 3, false, false, [], none, false⟩] }
    Issues s c (group id) (warp id) ∧ (s.work c.p).storeCount c.wg c.wid < 63 ∧
      OperandsOk c (warp id) (c.readers (decide (c.word / 2 ^ 31 % 2 = 1))) [] [(c.word / 2 ^ 10 % 2 ^ 7, 2)] ∧ 5 ≤ 5 ∧ (4 ≠ 0 ∧ 4 ≠ 3) ∧
      (∀ l ∈ c.lanes, s.laneOpen c.p c.wg c.wid l = false) ∧ 5 < 6 ∧
      Issues t c (group id) (warp id) ∧ (∃ l ∈ c.lanes, t.laneOpen c.p c.wg c.wid l = true) := by decide

/-- A write on the copy path that nothing on core 0 has seen, then a bridge that brings it to the simt path. -/
theorem witness_PrefetchFenceBridgeComplete_late :
    let y : Late := ⟨false, 0x6000, [1, 2, 3, 4, 5, 6, 7, 8], 0, false, [2], [0], [], [770]⟩
    let s : State := { simt [0, 1] 77 0 id with late := [y] }
    y ∈ s.late ∧ 2 ∈ y.paths ∧ 0 ∈ y.parts ∧ 0 ∉ y.seen ∧ (∃ z ∈ (s.bridgeOn 0 0 2 0).late, z.unit = y.unit ∧ 0 ∈ z.paths ∧ 0 ∈ z.seen) ∧
      s.lateBytes false (fun x => !x.seen.contains 0) 0x30000 1 ≠ [] := by decide

/-! ## Statements have instances: results, barriers, rings, gates, groups -/

/-- The module with a step of the part in front of it. -/
def part (args : List Nat) (s : State) : State := { s with issue := .part args }

theorem witness_ResultsAndStoresLand :
    let r : Result := ⟨5, 0, true, [(3, 7), (4, 8)], [], false, 0⟩
    let f : Warp → Warp := fun w => w.modLanes [1] fun x => { x with results := [r, ⟨6, 0, true, [(3, 9)], [], false, 0⟩] }
    let s := part [0, 1, 0, 5] (simt [0] 77 0 f)
    let x : PendingStore := ⟨9, 0, 1, 0, 0, 3, false, false, located 0x30000 [1, 2], none, false⟩
    let y : PendingStore := ⟨8, 0, 1, 0, 1, 3, false, false, located 0x30000 [3], none, false⟩
    let t := part [0, 1] ((simt [0] 77 0 id).modWork 0 fun v => { v with stores := [y, x] })
    (s.issue = .part [0, 1, 0, 5] ∧ (s.work 0).wg 1 = some (group f) ∧ (group f).warp 0 = some (warp f) ∧ (warp f).lanes.length = 32 ∧
      ((warp f).lane 1).results.filter (fun r => r.ticket == 5 && r.window == 0 && r.ready) = [r] ∧ (r.vals.map (·.1)).Nodup) ∧
    t.issue = .part [0, 1] ∧ (t.work 0).stores[1]? = some x ∧ x.parked = 0 ∧ x.spad = false ∧ x.poison = false ∧ x.red = none ∧
      x.bytes = located 0x30000 [1, 2] ∧ t.placeOf 0 0x30000 = .mem ∧ ∀ v ∈ (t.work 0).stores.take 1, x.after v = false := by decide

theorem witness_BarrierAndPinsComplete :
    let c := ctx [0, 1] 77 0
    let f := regs [(2, 4095, 0), (3, 0, 0), (4, 1, 0), (5, 0, 0), (6, 0x100000, 0)]
    let s := (simt [0, 1] 77 0 f).modWg 0 1 fun _ => scratched f
    let x := programLaunch
    Issues s c (scratched f) (warp f) ∧ (s.work c.p).launch (scratched f).seq = some x ∧ (warp f).trap.hm = false ∧
      (0 < (levelsOf x (scratched f)).length ∧ ((levelsOf x (scratched f)).getD 0 (contLevel 1)).domain ≠ 7) ∧ (levelsOf x (scratched f)).length ≤ 1 ∧
      OperandsOk c (warp f) [c.l0] [] [(2, 1), (5, 1)] ∧ ((warp f).reg 5 c.l0).toNat = 0 ∧ OperandsOk c (warp f) [c.l0] [] [(2, 1), (4, 1)] ∧
      (let x := ((warp f).reg 2 c.l0).toNat
       0 < ((warp f).reg 4 c.l0).toNat ∧ x / 2 ^ 20 = (scratched f).core % 32 ∧ x % 2 ^ 20 + 1 ≤ (scratched f).ownSpace ∧ x < 2 ^ 25) ∧
      OperandsOk c (warp f) [c.l0] [] [(6, 1), (4, 1)] ∧ ((warp f).reg 6 c.l0).toNat / 2 ^ 20 ≠ (scratched f).core % 32 ∧
      (∀ l ∈ c.lanes, s.laneOpen c.p c.wg c.wid l = false) ∧
      (Issues (opened s) c (scratched f) (warp f) ∧ ∃ l ∈ c.lanes, (opened s).laneOpen c.p c.wg c.wid l = true) ∧
      Issues (simt [0, 1] 77 0 handler) c (group handler) (warp handler) ∧ (warp handler).trap.hm = true := by decide

/-- Partition 0 with ring 255. -/
def ringed (r : Ring) (s : State) : State := s.modPart 0 fun x => { x with rings := [(255, r)] }

theorem witness_RingOperationsComplete :
    let c := ctx [0] 77 0
    let f := regs [(2, 255, 0), (3, 256, 0), (4, 7, 0), (5, 0, 0)]
    let full : Ring := ⟨0x30000, 1, true, 5, 7, 0⟩
    let some_ : Ring := ⟨0x30000, 1, true, 5, 6, 1⟩
    let none_ : Ring := ⟨0x30000, 1, true, 6, 6, 2⟩
    let off : Ring := ⟨0x30000, 1, false, 6, 6, 2⟩
    let odd : Ring := ⟨0x30008, 1, true, 6, 6, 2⟩
    let entry : Word → Kind → Acc := fun i kd => ⟨0, (0x30000 + 8 * (i.toNat % 2)) % 2 ^ 64, 8, kd, true⟩
    let s := ringed some_ (simt [0] 77 0 f)
    Issues s c (group f) (warp f) ∧ (warp f).trap.hm = false ∧ c.readers false = [0] ∧ (s.work c.p).waiters = [] ∧ ((warp f).reg 2 0).toNat ≤ 255 ∧
      (s.part 0).ring 255 = some_ ∧ some_.rbase.toNat % 16 = 0 ∧ OperandsOk c (warp f) [0] [] [(2, 1), (4, 2)] ∧
      OperandsOk c (warp f) [0] [(126, 2)] [(2, 1)] ∧ OperandsOk c (warp f) [0] [(127, 1)] [(2, 1), (4, 1)] ∧
      (Issues (opened s) c (group f) (warp f) ∧ (opened s).laneOpen c.p c.wg c.wid 0 = true ∧ s.laneOpen c.p c.wg c.wid 0 = false) ∧
      (some_.free ≠ 0 ∧ (some_.tail - some_.head).toNat < 2 ∧ s.accCheck c (group f) (warp f) (entry some_.tail .write) = none ∧
        leafFmt ((s.fillAll c (group f) [entry some_.tail .write]).landing c (group f) (warp f) (entry some_.tail .write)).2 ≠ 2) ∧
      (Issues (ringed full (simt [0] 77 0 f)) c (group f) (warp f) ∧ full.free = 0 ∧ 2 ≤ (full.tail - full.head).toNat) ∧
      (some_.tail ≠ some_.head ∧ s.accCheck c (group f) (warp f) (entry some_.head .read) = none ∧
        LandsPlain (s.fillAll c (group f) [entry some_.head .read]) c (group f) (warp f) (entry some_.head .read)) ∧
      (Issues (ringed none_ (simt [0] 77 0 f)) c (group f) (warp f) ∧ none_.tail = none_.head) ∧
      Issues (ringed off (simt [0] 77 0 f)) c (group f) (warp f) ∧ off.en = false ∧
      (Issues (ringed odd (simt [0] 77 0 f)) c (group f) (warp f) ∧ odd.rbase.toNat % (8 * 2 ^ odd.rlog) ≠ 0) ∧ 255 < ((warp f).reg 3 0).toNat ∧
      OperandsOk c (warp f) [0] [] [(3, 1), (4, 2)] ∧ OperandsOk c (warp f) [0] [(126, 2)] [(3, 1)] := by
  and_intros <;> decide

/-- Lane 1 pops or pushes and waits; lane 0 comes after it. What the ring then gives the waiter. -/
theorem witness_RingOperationsComplete_waiters :
    let c := ctx [0] 77 0
    let f := regs [(2, 255, 0), (4, 7, 0), (5, 0, 0)]
    let x : Ring := ⟨0x30000, 1, true, 5, 6, 1⟩
    let full : Ring := ⟨0x30000, 1, true, 5, 7, 0⟩
    let none_ : Ring := ⟨0x30000, 1, true, 6, 6, 2⟩
    let pusher : Waiter := ⟨.rbpush 255 9, 1, 0, [1]⟩
    let popper : Waiter := ⟨.rbpop 255 8, 1, 0, [1]⟩
    let s : Ring → Waiter → State := fun r y => (ringed r (simt [0] 77 0 f)).modWork 0 fun w => { w with waiters := [y] }
    let entry : Word → Kind → Acc := fun i kd => ⟨1, (0x30000 + 8 * (i.toNat % 2)) % 2 ^ 64, 8, kd, true⟩
    let d : Ctx := ⟨0, 1, 0, [1], 0, 0⟩
    (Issues (s full pusher) c (group f) (warp f) ∧ (warp f).trap.hm = false ∧ pusher ∈ ((s full pusher).work 0).waiters ∧
      (s full pusher).laneOpen 0 1 0 0 = false ∧ OperandsOk c (warp f) [0] [] [(2, 1), (4, 2)]) ∧
      (Issues (s none_ popper) c (group f) (warp f) ∧ popper ∈ ((s none_ popper).work 0).waiters ∧ OperandsOk c (warp f) [0] [(8, 2)] [(2, 1)]) ∧
      ((s full pusher).work 0).wg 1 = some (group f) ∧ (group f).warp 0 = some (warp f) ∧ full.free = 0 ∧
      (((s x pusher).work 0).waiters.find? fun y => match y.kind with
        | .rbpush j _ => true && j == 255
        | .rbpop j _ => !true && j == 255
        | _ => false) = some pusher ∧
      (((s x popper).work 0).waiters.find? fun y => match y.kind with
        | .rbpush j _ => false && j == 255
        | .rbpop j _ => !false && j == 255
        | _ => false) = some popper ∧
      (x.free ≠ 0 ∧ (x.tail - x.head).toNat < 2 ∧ (s x pusher).accCheck d (group f) (warp f) (entry x.tail .write) = none ∧
        leafFmt (((s x pusher).fillAll d (group f) [entry x.tail .write]).landing d (group f) (warp f) (entry x.tail .write)).2 ≠ 2) ∧
      none_.tail = none_.head ∧ x.tail ≠ x.head ∧ (s x popper).accCheck d (group f) (warp f) (entry x.head .read) = none ∧
      LandsPlain ((s x popper).fillAll d (group f) [entry x.head .read]) d (group f) (warp f) (entry x.head .read) := by
  and_intros <;> decide

/-- Two lanes at one ring: both act, or the ring gives out between them. -/
theorem witness_RingOperationsComplete_twoLanes :
    let c := ctx [0, 1] 77 0
    let f := regs [(2, 255, 255), (4, 7, 8), (5, 0, 0), (6, 1, 1)]
    let fresh : Ring := ⟨0x30000, 1, true, 6, 6, 2⟩
    let one : Ring := ⟨0x30000, 1, true, 6, 6, 1⟩
    let two : Ring := ⟨0x30000, 1, true, 5, 7, 0⟩
    let last : Ring := ⟨0x30000, 1, true, 6, 7, 0⟩
    let entry : Nat → Word → Kind → Acc := fun k i kd => ⟨k, (0x30000 + 8 * (i.toNat % 2)) % 2 ^ 64, 8, kd, true⟩
    let s : Ring → State := fun r => ringed r (simt [0, 1] 77 0 f)
    let plain : State → Nat → Word → Prop := fun t k i =>
      leafFmt ((t.fillAll c (group f) [entry k i .write]).landing c (group f) (warp f) (entry k i .write)).2 ≠ 2
    let pushed : State :=
      let t1 := (s fresh).fillAll c (group f) [entry 0 6 .write]
      ((t1.drainLane c.p c.wg c.wid 0).writeAt c.p [(c.wg, c.wid, 0)] (privOf (group f) (warp f))
        (t1.landing c (group f) (warp f) (entry 0 6 .write)).1 (bytesOf 8 ((warp f).pair 4 0).toNat)).modPart c.p fun y =>
          { y with rings := put y.rings 255 { fresh with tail := fresh.tail + 1, free := fresh.free - 1 } }
    let popped : State :=
      let t1 := (s two).fillAll c (group f) [entry 0 5 .read]
      (((t1.drainRadds c 0).hasRead 0 false (fun _ => false) (t1.landing c (group f) (warp f) (entry 0 5 .read)).1 8).acquireOn c.p 0).modPart c.p
        fun y => { y with rings := put y.rings 255 { two with head := two.head + 1 } }
    (∀ r ∈ [fresh, one, two, last], Issues (s r) c (group f) (warp f) ∧ ((s r).work 0).waiters = [] ∧
      (∀ l ∈ c.lanes, ((warp f).reg 2 l).toNat = 255) ∧ ((s r).part 0).ring 255 = r ∧ r.en = true ∧ r.rbase.toNat % (8 * 2 ^ r.rlog) = 0 ∧
      ∀ k ∈ c.lanes, (s r).laneOpen c.p c.wg c.wid k = false) ∧ (warp f).trap.hm = false ∧ (group f).core = 0 ∧
      OperandsOk c (warp f) c.lanes [] [(2, 1), (4, 2)] ∧ OperandsOk c (warp f) c.lanes [(126, 2)] [(2, 1)] ∧
      OperandsOk c (warp f) c.lanes [(127, 1)] [(2, 1), (6, 1)] ∧ c.lanes.Nodup ∧
      (one.free = 1 ∧ (one.tail - one.head).toNat < 2 ∧ (s one).accCheck c (group f) (warp f) (entry 0 6 .write) = none ∧ plain (s one) 0 6) ∧
      (fresh.free ≠ 0 ∧ fresh.free ≠ 1 ∧ (fresh.tail + 1 - fresh.head).toNat < 2 ∧
        (s fresh).accCheck c (group f) (warp f) (entry 0 6 .write) = none ∧ plain (s fresh) 0 6) ∧
      (pushed.accCheck c (group f) (warp f) (entry 1 7 .write) = none ∧ plain pushed 1 7) ∧
      (last.tail = last.head + 1 ∧ (s last).accCheck c (group f) (warp f) (entry 0 6 .read) = none ∧
        LandsPlain ((s last).fillAll c (group f) [entry 0 6 .read]) c (group f) (warp f) (entry 0 6 .read)) ∧
      (two.tail ≠ two.head ∧ two.tail ≠ two.head + 1 ∧ (s two).accCheck c (group f) (warp f) (entry 0 5 .read) = none ∧
        LandsPlain ((s two).fillAll c (group f) [entry 0 5 .read]) c (group f) (warp f) (entry 0 5 .read)) ∧
      popped.accCheck c (group f) (warp f) (entry 1 6 .read) = none ∧
      LandsPlain (popped.fillAll c (group f) [entry 1 6 .read]) c (group f) (warp f) (entry 1 6 .read) := by
  and_intros <;> decide

/-- A command that only waits to end. -/
def command (id : Nat) : Command := ⟨id, 0, false, 0, 0, .done, [], 0, false, none, none, 0⟩
/-- A sequencer of class `cls`, number 2, with its registers and its commands in flight. -/
def sequencer (cls : Nat) (rs : List (Nat × Word)) (cs : List Command) : Seq :=
  { programSeq cls 0 with
    cur := ⟨0x20000, false, 8, some 0x7FFF80⟩, regs := rs.foldl (fun l e => l.set e.1 e.2) (List.replicate 32 0), cmds := cs }
/-- Partition 0 with that sequencer issuing. -/
def seqs (q : Seq) (word lit : Nat) : State :=
  { (simt [0] 77 0 id).modWork 0 fun w => { w with seqs := [q] } with issue := .seq 0 2 word lit }

theorem witness_TileQueueAndRingSwitch :
    let c := ctx [0] 77 0
    let tiles : TileQueue → State := fun t => (simt [0] 77 0 id).modWork 0 fun y => y.setTileQueue t
    let cm : Command := { command 7 with tiles := [3, 4], queue := 7 }
    let q := sequencer 3 [] [cm]
    let t := part [0, 2, 7] (seqs q 77 0)
    Issues (tiles ⟨1, 0, 7, [9], false⟩) c (group id) (warp id) ∧ (warp id).trap.hm = false ∧ 7 < 8 ∧ 7 ≤ 7 ∧ OperandsOk c (warp id) [] [(127, 1)] [] ∧
      c.readers false = [0] ∧ ((tiles ⟨1, 0, 7, [9], false⟩).work c.p).waiters = [] ∧
      (((tiles ⟨1, 0, 7, [9], false⟩).work 0).tileQueue 1 0 7).tiles = [9] ∧
      (Issues (tiles ⟨1, 0, 7, [], true⟩) c (group id) (warp id) ∧ (((tiles ⟨1, 0, 7, [], true⟩).work 0).tileQueue 1 0 7).tiles = [] ∧
        (((tiles ⟨1, 0, 7, [], true⟩).work 0).tileQueue 1 0 7).closed = true) ∧
      (Issues (tiles ⟨1, 0, 7, [], false⟩) c (group id) (warp id) ∧ (((tiles ⟨1, 0, 7, [], false⟩).work 0).tileQueue 1 0 7).closed = false) ∧
      (t.issue = .part [0, 2, 7] ∧ (t.work 0).seqOf 2 = some q ∧ q.cmd 7 = some cm ∧ cm.id = 7 ∧ cm.wait = .done ∧ cm.tiles ≠ [] ∧
        (t.work 0).waiters = [] ∧ ((t.work 0).tileQueue q.seq (q.cluster / 2) cm.queue).tiles.length < 1024) ∧
      (part [2, 0, 255, 1] (simt [0] 77 0 id)).issue = .part [2, 0, 255, 1] ∧ (simt [0] 77 0 id).mayWrite 2 2 = true ∧
      ((simt [0] 77 0 id).part 0).state = .running ∧ 255 < 256 ∧ 1 % 2 = 1 ∧ ((simt [0] 77 0 id).work 0).waiters = [] := by decide

/-- Gate 4095 in front of a group of level `priv`. -/
def gated (x : Gate) (priv : Nat) (f : Warp → Warp) : State :=
  { (simt [0] 77 0 f).modWg 0 1 fun _ => { group f with priv := priv } with gates := [(4095, x)] }

theorem witness_GateInstructionsComplete :
    let c := ctx [0] 77 0
    let f := regs [(2, 4095, 0), (3, 4096, 0), (4, 5, 0), (5, 0, 0), (6, 6, 0), (7, 0, 0)]
    let g : WorkGroup := { group f with priv := 0 }
    let x : Gate := { Gate.empty with v := true, value := 5, acl := [(0, 15)] }
    let s := gated x 0 f
    let rights := (s.gate 4095).rights (s.part 0).tenant
    Issues s c g (warp f) ∧ (warp f).trap.hm = false ∧ c.readers false = [0] ∧ (s.work c.p).engCountOf c.wg (warp f) < 63 ∧
      OperandsOk c (warp f) [0] [] [(2, 1), (4, 1)] ∧ privOf g (warp f) = 0 ∧
      ((s.fresh.drainLane c.p c.wg c.wid 0).gate 4095 = x ∧ x.v = true ∧ rights.1 = true ∧ x.burst = 0 ∧ x.queued.length < 65535) ∧
      (Issues (opened s) c g (warp f) ∧ (opened s).laneOpen c.p c.wg c.wid 0 = true ∧ s.laneOpen c.p c.wg c.wid 0 = false) ∧
      ((warp f).reg 3 0).toNat = 4096 ∧ OperandsOk c (warp f) [0] [] [(3, 1), (4, 1)] ∧
      (let y : Gate := { x with burst := 1, tokens := 1023 }
       Issues (gated y 0 f) c g (warp f) ∧ ((gated y 0 f).fresh.drainLane c.p c.wg c.wid 0).gate 4095 = y ∧ y.burst ≠ 0 ∧ y.tokens < 1024) ∧
      (let y : Gate := { x with burst := 1, tokens := 1024, frz := true }
       Issues (gated y 0 f) c g (warp f) ∧ ((gated y 0 f).fresh.drainLane c.p c.wg c.wid 0).gate 4095 = y ∧ 1024 ≤ y.tokens) ∧
      OperandsOk c (warp f) (c.readers false) [(126, 2)] [(2, 1), (4, 2)] ∧ rights.2.1 = true ∧ x.frz = false ∧
      (((warp f).reg 4 0).toNat + 2 ^ 32 * ((warp f).reg 5 0).toNat ≤ x.value.toNat) ∧ OperandsOk c (warp f) (c.readers false) [(126, 2)] [(2, 1), (6, 2)] ∧
      (x.value.toNat < ((warp f).reg 6 0).toNat + 2 ^ 32 * ((warp f).reg 7 0).toNat) ∧ OperandsOk c (warp f) (c.readers false) [(126, 2)] [(2, 1)] ∧
      OperandsOk c (warp f) (c.readers false) [(127, 1)] [(2, 1), (4, 2)] ∧ OperandsOk c (warp f) [0] [(126, 2)] [(3, 1)] ∧
      OperandsOk c (warp f) [0] [(127, 1)] [(3, 1), (4, 2)] := by
  and_intros <;> decide

theorem witness_GateEventsAct :
    let x : Gate := { Gate.empty with v := true, value := 5, acl := [(0, 15)] }
    let s := gated x 0 id
    (part [4095, 0, 2 ^ 32 - 1] s).issue = .part [4095, 0, 2 ^ 32 - 1] ∧ 2 ^ 32 - 1 < 2 ^ 32 ∧ (s.gate 4095).v = true ∧ ((s.gate 4095).rights 0).1 = true ∧
      (s.gate 4095).burst = 0 ∧ (s.gate 4095).frz = false ∧ ((s.gate 4095).rights 1).1 = false ∧ (s.gate 0).v = false ∧
      (part [4095] s).issue = .part [4095] ∧ (part [3, 4095, 0, 2 ^ 64 - 1] s).issue = .part [3, 4095, 0, 2 ^ 64 - 1] ∧ s.mayWrite 3 3 = true ∧
      4095 < 4096 ∧ 2 ^ 64 - 1 < 2 ^ 64 ∧ (part [3, 4095, 16, 2 ^ 64 - 1] s).issue = .part [3, 4095, 16, 2 ^ 64 - 1] := by decide

/-- Writes of V and HOME and of the access list: ignored ones, and what they leave a lane that waits in GWAIT. -/
theorem witness_GateEventsAct_writes :
    let x : Gate := { Gate.empty with v := true, value := 5, acl := [(0, 15)] }
    let f := regs []
    let s := (gated x 0 f).modPart 0 fun y => { y with desc := put y.desc 3 0 }
    let y : Waiter := ⟨.gwait 4095 126 6, 1, 0, [0]⟩
    let t := s.modWork 0 fun w => { w with waiters := [y] }
    let at8 : Nat → State := fun v => part [3, 4095, 8, v] s
    let closed : Gate → Gate := fun g => { g with v := false, home := 0 }
    let moved : Nat → Nat → Gate → Gate := fun i e g => if e / 16 % 2 ^ 12 ≠ 0 then g else { g with acl := put g.acl i (BitVec.ofNat 32 e) }
    let listed : Nat → Gate → Gate := fun v g => moved (2 * 0 + 1) (v / 2 ^ 32) (moved (2 * 0) (v % 2 ^ 32) g)
    (∀ v ∈ [2 ^ 57, 2 ^ 16, 28 * 2 ^ 52, 31 * 2 ^ 52, 2 ^ 63 + 27 * 2 ^ 52, 2 ^ 64 - 1], (at8 v).issue = .part [3, 4095, 8, v] ∧ v < 2 ^ 64) ∧
      (s.gate 4095).home ≠ 31 ∧ (s.part 27).state ≠ .running ∧ s.mayWrite 3 3 = true ∧ (∀ e ∈ s.works, e.2.waiters = []) ∧
      t.works = [(0, t.work 0)] ∧ (t.work 0).waiters = [y] ∧ (t.work 0).wg 1 = some { group f with priv := 0 } ∧
      ({ group f with priv := 0 } : WorkGroup).warp 0 = some (warp f) ∧ (warp f).trap.cause.getLsbD 25 = false ∧
      (closed x).v = false ∧ ((listed 15 x).v = true ∧ ((listed 15 x).rights (s.part 0).tenant).2.1 = true) ∧
      ((listed 1 x).rights (s.part 0).tenant).2.1 = false ∧ 0 < 8 ∧ 64 + 8 * 7 < 128 := by
  and_intros <;> decide

/-- Partition 0 with an address group 1. -/
def member (x : Group) (s : State) : State := s.modPart 0 fun y => { y with groups := [(1, x)] }

theorem witness_MulticastAccessesComplete :
    let c := ctx [0] 77 0
    let f := regs [(2, 0x30000, 0), (3, 0x1000000, 0), (4, 0x30000, 0), (5, 0x2000000, 0)]
    let x : Group := { Group.empty with members := [(0, 0), (0, 0)], valid := true }
    let s := member x (simt [0] 77 0 f)
    let t := member { x with absent := [1] } (simt [0] 77 0 f)
    let far := member { x with members := [(0, 0), (5, 2)] } (simt [0] 77 0 f)
    let poisoned : State := { s with mem := s.mem.poisonSpan 0x30000 4 }
    let reads : State → List (Nat × Nat) → Except Nat (State × List (Option Word)) := fun s ms =>
      (s.findAbsent 0 1).memberReads ((s.findAbsent 0 1).walkView c 0) c.p (privOf (group f) (warp f)) 1 0x30000 (fun i => .read c.p c.wg c.wid 0 (s.findAbsent 0 1).ids i) 0 ms
    let writes : List (Nat × Nat) → Except Nat (State × Nat) := fun ms =>
      (s.findAbsent 0 1).memberWrites ((s.findAbsent 0 1).walkView c 0) c.p (privOf (group f) (warp f)) 1 0x30000 [] ((warp f).reg 127 0) false
        (.write ((warp f).reg 127 0) false c.p s.ids 0) 0 ms
    Issues s c (group f) (warp f) ∧ c.readers false = [0] ∧ (warp f).loadCount < 63 ∧ (s.work c.p).storeCount c.wg c.wid < 63 ∧
      OperandsOk c (warp f) [0] [(127, 1)] [(2, 2)] ∧ OperandsOk c (warp f) [0] [] [(2, 2)] ∧
      s.groupCheck c (group f) (warp f) (1, 0x30000) 2 .read 0 = none ∧ ((s.findAbsent 0 1).part 0).group 1 = x ∧
      ((reads s x.members).toOption.map fun r => r.2) = some [some 0, some 0] ∧ (writes x.members).toOption.isSome = true ∧
      (Issues far c (group f) (warp f) ∧ far.groupCheck c (group f) (warp f) (1, 0x30000) 2 .read 0 = none ∧
        ((far.findAbsent 0 1).part 0).group 1 = { x with members := [(0, 0), (5, 2)] } ∧
        ((reads far [(0, 0), (5, 2)]).toOption.map fun r => r.2) = some [some 0, none]) ∧
      (Issues poisoned c (group f) (warp f) ∧ poisoned.groupCheck c (group f) (warp f) (1, 0x30000) 2 .read 0 = none ∧
        ((poisoned.findAbsent 0 1).part 0).group 1 = x ∧ (reads poisoned x.members).toOption.isNone = true) ∧
      (Issues t c (group f) (warp f) ∧ t.groupCheck c (group f) (warp f) (1, 0x30000) 2 .read 0 = none ∧
        (((t.findAbsent 0 1).part 0).group 1).absent ≠ []) ∧
      s.groupCheck c (group f) (warp f) (1, 0x30000) 4 .write 0 = none ∧ ((s.part c.p).group 2).valid = false ∧
      ((warp f).reg 4 0).toNat + 2 ^ 32 * ((warp f).reg 5 0).toNat = 2 * 2 ^ 56 + 0x30000 := by
  and_intros <;> decide

/-! ## Statements have instances: relations, sequencers begun, continuations, registers -/

/-- A launch with a schema for GROUP and one for JOIN and PARK, and its table 4095 in partition 0. -/
def relating : Launch :=
  { programLaunch with schemas := [⟨⟨0, false, 2⟩, [⟨2, false, 3⟩]⟩, ⟨⟨0, false, 2⟩, [⟨0, false, 3⟩]⟩], rcd := { programLaunch.rcd with nsch := 2, levels := [⟨2, 16, 0, 0, 0⟩] } }
def version (n : Nat) : Version := ⟨n, some (false, [false]), [⟨7, [8]⟩], 0⟩
def tabled (t : Option Table) (x : Launch) (s : State) : State :=
  (s.modWork 0 fun y => { y with launches := [(1, x)] }).modPart 0 fun y => { y with
    desc := [(1, 0x10000), (15, 2048), (16, BitVec.ofNat 64 (30 * 2 ^ 58))], pool := 512
    tables := match t with
      | some t => [(4095, t)]
      | none => [] }

theorem witness_RelationRetirement :
    let c := ctx [0] 77 0
    let f := regs [(2, 7, 0), (3, 8, 0), (4, 4095, 0)]
    let g := group f
    let x := relating
    let grouped : Schema := ⟨⟨0, false, 2⟩, [⟨2, false, 3⟩]⟩
    let sch : Schema := ⟨⟨0, false, 2⟩, [⟨0, false, 3⟩]⟩
    let s := tabled (some ⟨some (version 1), some (version 2), []⟩) x (simt [0] 77 0 f)
    let owes : Warp → Warp := fun w => w.modLanes [0] fun y => { y with results := [⟨5, 0, true, [(9, 1)], [], false, 0⟩] }
    Issues s c g (warp f) ∧ 255 < 256 ∧ 0 < 8 ∧ (warp f).trap.hm = false ∧ NoResults c (warp f) ∧ (s.work c.p).launch g.seq = some x ∧
      (schemaFor x g 0 (some 0) = some grouped ∧ grouped.beyond (warp f) = none ∧
        (arriveAll (fun t l => arriveLane c g (warp f) grouped none ⟨false, 0, 255, 0, 0⟩ t l) s c.lanes).2 = (c.lanes, [])) ∧
      (schemaFor x g 1 (some 0) = some sch ∧ sch.beyond (warp f) = none ∧ OperandsOk c (warp f) c.lanes [] [(4, 1)] ∧
        (arriveAll (fun t l => arriveLane c g (warp f) sch (some 4) ⟨true, 0, 255, 1, ((warp f).reg 4 l).toNat⟩ t l) s c.lanes).2 = (c.lanes, [])) ∧
      (schemaFor x g 1 none = some sch ∧ (parkAll (fun t l => parkLane c (warp f) sch 1 4 t l) s c.lanes).2 = (c.lanes, none)) ∧
      (∀ l ∈ c.lanes, s.laneOpen c.p c.wg c.wid l = false) ∧
      (Issues (opened s) c g (warp f) ∧ ∃ l ∈ c.lanes, (opened s).laneOpen c.p c.wg c.wid l = true) ∧
      (Issues (simt [0] 77 0 owes) c (group owes) (warp owes) ∧ ¬NoResults c (warp owes)) ∧
      Issues (simt [0] 77 0 handler) c (group handler) (warp handler) ∧ (warp handler).trap.hm = true := by
  and_intros <;> decide

theorem witness_TableInstructionsComplete :
    let c := ctx [0] 77 0
    let f := regs [(2, 4095, 0)]
    let s : Option Table → State := fun t => tabled t programLaunch (simt [0] 77 0 f)
    let find_ : Option Table → Option Table := fun t => find ((s t).part 0).tables 4095
    let both : Table := ⟨some (version 1), some (version 2), []⟩
    let one : Table := ⟨some (version 1), none, []⟩
    Issues (s none) c (group f) (warp f) ∧ (warp f).relCount < 63 ∧ c.readers false = [0] ∧ ((warp f).reg 2 0).toNat ≤ 4095 ∧
      OperandsOk c (warp f) [0] [(127, 1)] [(2, 1)] ∧ OperandsOk c (warp f) [0] [(126, 2)] [(2, 1)] ∧
      (find_ none = none ∧ ((s none).part 0).tables.length < 4096 ∧ 512 ≤ ((s none).part 0).tpsize - ((s none).part 0).pool) ∧
      (Issues (s (some both)) c (group f) (warp f) ∧ find_ (some both) = some both ∧ both.pend = some (version 2) ∧ (version 2).num < 2 ^ 32) ∧
      (Issues (s (some one)) c (group f) (warp f) ∧ find_ (some one) = some one ∧ one.pend = none ∧
        256 ≤ ((s (some one)).part 0).tpsize - ((s (some one)).part 0).pool) ∧
      ((s (some both)).laneOpen c.p c.wg c.wid 0 = false ∧ Issues (opened (s (some both))) c (group f) (warp f) ∧
        (opened (s (some both))).laneOpen c.p c.wg c.wid 0 = true) ∧
      ((s (some both)).work 0).seals = [] ∧ (part [0, 1, 0] (s none)).issue = .part [0, 1, 0] := by
  and_intros <;> decide

/-- A RELSEAL that is open, as the oldest operation of its warp's counter. -/
theorem witness_TableInstructionsComplete_complete :
    let f : Warp → Warp := fun w => { w with rel := [5] }
    let both : Table := ⟨some (version 1), some (version 2), []⟩
    let s := part [0, 1, 0] ((tabled (some both) programLaunch (simt [0] 77 0 f)).modWork 0 fun y => { y with seals := [(5, 4095)] })
    s.issue = .part [0, 1, 0] ∧ s.warp 0 1 0 = some (warp f) ∧ (warp f).rel = [5] ∧ (s.work 0).seals.filter (·.1 == 5) = [(5, 4095)] ∧
      find (s.part 0).tables 4095 = some both ∧ both.pend = some (version 2) ∧ (version 2).num < 2 ^ 32 := by decide

/-- A launch with programs of the three classes. -/
def programs : Launch := { programLaunch with rcd := { programLaunch.rcd with matprog := 0x40000, copyprog := 0x50000, collprog := 0x60000 } }

theorem witness_SequencersBegin :
    let c := ctx [0] 77 0
    let x := programs
    let s := (simt [0] 77 0 id).modWork 0 fun y => { y with launches := [(1, x)] }
    let q := sequencer 3 [] []
    let t := s.modWork 0 fun y => { y with seqs := [q] }
    let w : Waiter := ⟨.fork 3 (List.replicate 8 5), 1, 0, [0]⟩
    let u := part [0, 0] (s.modWork 0 fun y => { y with waiters := [w] })
    Issues s c (group id) (warp id) ∧ (warp id).trap.hm = false ∧ (s.work c.p).launch (group id).seq = some x ∧
      (s.work c.p).engCountOf c.wg (warp id) < 63 ∧ (1 ≤ 3 ∧ 3 ≤ 3) ∧ 120 ≤ 120 ∧ x.rcd.program 1 ≠ 0 ∧ x.rcd.program 3 ≠ 0 ∧
      OperandsOk c (warp id) [c.l0] [] ((List.range 8).map fun i => (120 + i, 1)) ∧ (s.forkEngine c.p (group id) 1 = some 0) ∧
      ((s.modPart 0 fun y => { y with desc := put y.desc 6 1 }).noCopyEngine 0 = false) ∧
      (s.forkEngine c.p (group id) 3).isSome = true ∧ (s.work c.p).seqsOf c.wg = [] ∧
      (Issues t c (group id) (warp id) ∧ t.forkEngine c.p (group id) 3 = none ∧ (t.work c.p).seqsOf c.wg ≠ []) ∧
      (u.issue = .part [0, 0] ∧ (u.work 0).waiters[0]? = some w ∧ w.kind = .fork 3 (List.replicate 8 5) ∧ (u.work 0).wg w.wg = some (group id) ∧
        (u.work 0).launch (group id).seq = some x ∧ (u.forkEngine 0 (group id) 3).isSome = true) ∧
      (part [0, 1, 0] s).issue = .part [0, 1, 0] := by
  and_intros <;> decide

/-- A continuation record at 0x30000, a join block at 0x30040 with a count and a parent, a launch record's bytes at 0x30100, on a page no L1
takes. -/
def joined (n : Nat) (s : State) : State :=
  { s with mem := { s.mem with cells := writeCells s.mem.cells (located 0x12000 [0x7F] ++ located 0x30000 (bytesOf 8 0x20000) ++
    located 0x30040 (bytesOf 8 n) ++ located 0x30060 (bytesOf 8 0x20000) ++ located 0x30100 [1]) } }
def recorded (s : State) : State := joined 2 s

theorem witness_ContinuationsAndDeques :
    let c := ctx [0] 77 0
    let f := regs [(2, 0x30000, 0), (3, 0, 0), (4, 0x30040, 0), (5, 0, 0), (6, 0x30100, 0), (7, 0, 0), (8, 0xFFFFFFFF, 0), (9, 0xFFFFFFFF, 0), (10, 0, 0)]
    let s := recorded (simt [0] 77 0 f)
    let w := warp f
    let deque : Deque → State := fun q => { s with cores := [(0, { Core.empty with deque := q })] }
    let acc : Acc := ⟨0, 0x30040, 64, .atomic, true⟩
    let s1 := (s.fresh.fillAll c (group f) [acc]).drainLane c.p c.wg c.wid 0
    let pa := (s1.landing c (group f) w acc).1
    let n := ofBytes ((List.range 8).map fun i => s1.mem.byte (pa + i))
    Issues s c (group f) w ∧ c.readers false = [0] ∧ (s.work c.p).engCountOf c.wg w < 63 ∧ OperandsOk c w [0] [] [(2, 2)] ∧
      (((s.fresh.laneRead c (group f) w 0 (w.pair 2 0).toNat 32).toOption.bind fun r => contRec r.2 true).map fun r => r.prio) = some 0 ∧
      (s.part 0).ringFull 0 = false ∧
      (s.fresh.accCheck c (group f) w acc = none ∧ s1.placeOf c.p pa = .mem ∧ s1.mem.poisoned pa 8 = false ∧ 1 < n ∧ n < 2 ^ 63 ∧
        (s.fresh.drainLane c.p c.wg c.wid 0).badParent c (group f) w 0 0x30040 = false) ∧
      (s.laneOpen c.p c.wg c.wid 0 = false ∧ Issues (opened s) c (group f) w ∧ (opened s).laneOpen c.p c.wg c.wid 0 = true) ∧
      OperandsOk c w [0] [(127, 1)] [(2, 2)] ∧ (w.pair 2 0 ≠ 0xFFFFFFFFFFFFFFFF) ∧ ((s.coreOf 0).deque.owner = 0 ∧ (s.coreOf 0).deque.entries.length < 8192) ∧
      (Issues (deque ⟨2, [9]⟩) c (group f) w ∧ ((deque ⟨2, [9]⟩).coreOf 0).deque.owner ≠ 0 ∧ ((deque ⟨2, [9]⟩).coreOf 0).deque.owner ≠ (group f).seq) ∧
      w.pair 8 0 = 0xFFFFFFFFFFFFFFFF ∧ OperandsOk c w [0] [(126, 2)] [(6, 2)] ∧
      (s.fresh.laneRead c (group f) w 0 (w.pair 6 0).toNat 256).toOption.isSome = true ∧ OperandsOk c w [] [(126, 2)] [] ∧
      (Issues (deque ⟨1, [9]⟩) c (group f) w ∧ ((deque ⟨1, [9]⟩).coreOf 0).deque.owner = (group f).seq ∧ ((deque ⟨1, [9]⟩).coreOf 0).deque.entries ≠ []) ∧
      (s.coreOf 0).deque.entries = [] ∧ OperandsOk c w [0] [(126, 2)] [(10, 1)] ∧ ownsCore 0 (w.reg 10 0).toNat = true ∧ ownsCore 0 (w.reg 2 0).toNat = false := by
  and_intros <;> decide +kernel

/-- A count of one, of zero and below zero; a full ring. -/
theorem witness_ContinuationsAndDeques_counts :
    let c := ctx [0] 77 0
    let f := regs [(2, 0x30000, 0), (3, 0, 0), (4, 0x30040, 0), (5, 0, 0)]
    let w := warp f
    let acc : Acc := ⟨0, 0x30040, 64, .atomic, true⟩
    let at_ : State → State := fun s => (s.fresh.fillAll c (group f) [acc]).drainLane c.p c.wg c.wid 0
    (∀ n ∈ [1, 0, 2 ^ 63], let s := joined n (simt [0] 77 0 f)
      Issues s c (group f) w ∧ (s.work c.p).engCountOf c.wg w < 63 ∧ s.laneOpen c.p c.wg c.wid 0 = false ∧ OperandsOk c w [0] [] [(4, 2)] ∧
        s.fresh.accCheck c (group f) w acc = none ∧ (at_ s).placeOf c.p ((at_ s).landing c (group f) w acc).1 = .mem ∧
        (at_ s).mem.poisoned ((at_ s).landing c (group f) w acc).1 8 = false ∧
        (at_ s).mem.poisoned (((at_ s).landing c (group f) w acc).1 + 32) 32 = false ∧
        ofBytes ((List.range 8).map fun i => (at_ s).mem.byte (((at_ s).landing c (group f) w acc).1 + i)) = n) ∧
      (let s := joined 1 (simt [0] 77 0 f)
       let pa := ((at_ s).landing c (group f) w acc).1
       (s.fresh.drainLane c.p c.wg c.wid 0).badParent c (group f) w 0 0x30040 = false ∧
         (contRec (ofBytes (((((at_ s).hasRead 0 false (fun _ => false) pa 8).acquireOn 0 0).writeAt 0 [(1, 0, 0)] (privOf (group f) w) pa
           (bytesOf 8 0)).readAt 0 (pa + 32) 32)) false).isSome = true) ∧
      (let s := (recorded (simt [0] 77 0 f)).modPart 0 fun y => { y with crptr := [(0, (0, 2 ^ 20))] }
       Issues s c (group f) w ∧ OperandsOk c w [0] [] [(2, 2)] ∧
         ((s.fresh.laneRead c (group f) w 0 (w.pair 2 0).toNat 32).toOption.bind fun r => (contRec r.2 true).map fun x =>
           (r.1.part 0).ringFull x.prio) = some true) := by
  and_intros <;> decide +kernel

theorem witness_RegisterAllocationChanges :
    let c := ctx [0] 77 0
    let f : Warp → Warp := fun w => { w with alloc := 4 }
    let s := simt [0] 77 0 f
    let many : WorkGroup := { group f with warps := (warp f) :: (List.range 16).map fun i => { warp f with wid := i + 1, alloc := 16 } }
    let t := s.modWg 0 1 fun _ => many
    let x : Waiter := ⟨.reggrow 16 0, 1, 0, [0]⟩
    let u := part [0, 0] (s.modWork 0 fun y => { y with waiters := [x] })
    Issues s c (group f) (warp f) ∧ (warp f).trap.hm = false ∧ (1 ≤ 4 ∧ 4 ≤ (warp f).alloc) ∧ ((warp f).alloc < 17 ∧ 16 < 17) ∧
      (Issues t c many (warp f) ∧ 256 < (t.work c.p).groupGranules many + (5 - (warp f).alloc)) ∧
      ((warp f).alloc < 16 ∧ (s.work c.p).groupGranules (group f) + (16 - (warp f).alloc) ≤ 256 ∧ (s.work c.p).growQueue (group f).core = [] ∧
        (s.work c.p).usedGranules (group f).core + (16 - (warp f).alloc) ≤ 256) ∧
      (warp f).alloc ≤ 16 ∧ (1 < (warp f).alloc ∧ (warp f).awaitsAbove 8 = false) ∧ (31 < 32 ∧ (warp f).alloc ≤ 16 ∧ ∀ e ∈ (warp f).regs, e.1 < 256 * 4) ∧
      u.issue = .part [0, 0] ∧ (u.work 0).growQueue 0 = [(x, 16)] ∧ (u.work 0).wg x.wg = some (group f) ∧ (group f).warp x.wid = some (warp f) ∧
      (u.work 0).usedGranules 0 + (16 - (warp f).alloc) ≤ 256 := by
  and_intros <;> decide

/-! ## Statements have instances: traps, registers of control, system instructions, clause headers -/

/-- The work-group at level `p`. -/
def atLevel (p : Nat) (f : Warp → Warp) : WorkGroup := { group f with priv := p }
def levelled (p : Nat) (ls : List Nat) (word : Nat) (f : Warp → Warp) : State := (simt ls word 0 f).modWg 0 1 fun _ => atLevel p f

theorem witness_TrapIsTaken :
    let c := ctx [0, 1] 77 0
    let at_ : HaltState → (Warp → Warp) → WorkGroup := fun h f => { group f with halt := h }
    let s : HaltState → (Warp → Warp) → State := fun h f => (simt [0, 1] 77 0 f).modWg 0 1 fun _ => at_ h f
    (∀ h ∈ [HaltState.running, .stopping 3], Issues (s h id) c (at_ h id) (warp id)) ∧ 27 < 28 ∧ (warp id).trap.hm = false ∧
      (warp id).trap.cause.getLsbD 27 = false ∧
      Issues (s (.handling 0) handler) c (at_ (.handling 0) handler) (warp handler) ∧ (warp handler).trap.hm = true := by decide

/-- A word of a two-word form that its clause cuts short, in a handler; one with its second word; the others of the clause. -/
theorem test_handler_trap_goes_past :
    let at_ : Nat → Warp → Warp := fun rem w => { handler w with trap := { (handler w).trap with hcur := ⟨0x20400, false, rem, none⟩ } }
    let t : Nat → Nat → State := fun rem word => raiseTrap (simt [0, 1] word 0 (at_ rem)) (ctx [0, 1] word 0) [(0, 77)]
    let pc : State → Option VAddr := fun s => (s.warp 0 1 0).map fun w => w.trap.hcur.pc
    pc (t 1 (63 * 2 ^ 25)) = some 0x20404 ∧ pc (t 2 (63 * 2 ^ 25)) = some 0x20408 ∧ pc (t 2 77) = some 0x20404 := by decide

theorem witness_TrapBreakpointAndTimer :
    let c := ctx [0, 1] 77 0
    let owes : Warp → Warp := fun w => w.modLanes [1] fun y => { y with results := [⟨5, 0, true, [(9, 1)], [], false, 0⟩] }
    let timed : Warp → Warp := fun w => { w with phase := ⟨101, 100, true⟩ }
    let s := part [0, 1, 0, 1] (simt [0, 1] 77 0 timed)
    Issues (simt [0, 1] 77 0 id) c (group id) (warp id) ∧ (¬∃ l ∈ c.lanes, ∃ r ∈ ((warp id).lane l).results, r.hm = (warp id).trap.hm) ∧
      Issues (simt [0, 1] 77 0 owes) c (group owes) (warp owes) ∧ (∃ l ∈ c.lanes, ∃ r ∈ ((warp owes).lane l).results, r.hm = (warp owes).trap.hm) ∧
      s.issue = .part [0, 1, 0, 1] ∧ (s.work 0).wg 1 = some (group timed) ∧ (group timed).warp 0 = some (warp timed) ∧
      (s.work 0).launch (group timed).seq = some programLaunch ∧ (group timed).halt = .running ∧ (warp timed).phase.armed = true ∧
      (∀ e ∈ [(0, 3), (1, 3), (1, 0)],
        let stops : WorkGroup := { group timed with halt := .stopping e.2 }
        let t := part [0, 1, 0, e.1] ((simt [0, 1] 77 0 timed).modWg 0 1 fun _ => stops)
        t.issue = .part [0, 1, 0, e.1] ∧ (t.work 0).wg 1 = some stops ∧ stops.warp 0 = some (warp timed)) ∧
      (warp timed).phase.budget * (16 + programLaunch.rcd.phmargin) < 16 * (warp timed).phase.count := by decide

/-- The launch with a handler at 0x20400. -/
def handled (s : State) : State :=
  s.modWork 0 fun y => { y with launches := [(1, { programLaunch with rcd := { programLaunch.rcd with handler := 0x20400 } })] }

theorem witness_HandlerEntryAndReturn :
    let c := ctx [0, 1] 77 0
    let f : Warp → Warp := fun w => { w with trap := { w.trap with cause := 0x82, tvals := [(1, 7), (7, 9)] } }
    let stopping : WorkGroup := { group f with halt := .stopping 0 }
    let s := handled (part [0, 1] ((simt [0, 1] 77 0 f).modWg 0 1 fun _ => stopping))
    let more : Warp → Warp := fun w => { handler w with trap := { (handler w).trap with cause := 0x82 } }
    let two : WorkGroup := { group handler with warps := [warp handler, { warp f with wid := 3, slot := 1 }], halt := .handling 0 }
    let t := handled ((simt [0, 1] 77 0 handler).modWg 0 1 fun _ => two)
    let waits := (simt [0, 1] 77 0 handler).modWork 0 fun x => { x with stores := [⟨9, 1, 1, 0, 0, 1, false, false, [], none, true⟩] }
    (s.issue = .part [0, 1] ∧ (s.work 0).wg 1 = some stopping ∧ stopping.warp 0 = some (warp f) ∧ stopping.halt = .stopping 0 ∧ stopping.pre = 0 ∧
      stopping.resultsReady = true ∧ s.handlerOf 0 stopping ≠ 0 ∧ lowestBit (warp f).trap.cause = some 1) ∧
    (Issues (simt [0, 1] 77 0 id) c (group id) (warp id) ∧ (warp id).trap.hm = false) ∧
    (Issues (simt [0, 1] 77 0 more) c (group more) (warp more) ∧ (warp more).trap.hm = true ∧
      (∀ l ∈ c.lanes, ∀ r ∈ ((warp more).lane l).results, r.hm = false) ∧ (warp more).trap.cause ≠ 0) ∧
    (Issues waits c (group handler) (warp handler) ∧ ∃ l ∈ c.lanes, waits.storeOpen c.p c.wg c.wid l true = true) ∧
    (Issues (simt [0, 1] 77 0 handler) c (group handler) (warp handler) ∧ (∀ v ∈ (group handler).warps, v.trap.cause = 0) ∧
      ∀ l ∈ c.lanes, (simt [0, 1] 77 0 handler).storeOpen c.p c.wg c.wid l true = false) ∧
    (Issues t c two (warp handler) ∧ (warp handler).trap.cause = 0 ∧ (∃ v ∈ two.warps, v.wid = 3 ∧ v.trap.cause ≠ 0) ∧
      ∀ v ∈ two.warps, v.trap.cause ≠ 0 → 3 % 32 < v.wid % 32 ∨ v.wid = 3) := by
  and_intros <;> decide

theorem witness_ControlRegistersReadAndWritten :
    let c := ctx [0, 1] 77 0
    let f : Warp → Warp := fun w => regs [(2, 0x20040, 0), (3, 0, 0), (4, 0x100B17, 0), (5, 0, 0), (6, 8, 0), (7, 0, 0), (8, 0, 0), (9, 320, 0), (10, 0, 0),
      (11, 321, 0), (12, 1, 0), (13, 0x1000000, 0), (14, 0x1F10, 0), (15, 0, 0)] (handler w)
    let w := warp f
    Issues (levelled 3 [0, 1] 77 f) c (atLevel 3 f) w ∧ privOf (atLevel 3 f) w = 3 ∧ 13 ≤ 13 ∧ OperandsOk c w [c.l0] [(126, 2)] [] ∧
      OperandsOk c w [c.l0] [] [(2, 2)] ∧ w.trap.hm = true ∧
      ((w.pair 2 c.l0).toNat % 4 = 0 ∧ (w.pair 2 c.l0).toNat < 2 ^ 56 ∧ (w.lane w.trap.hlane).status = .running) ∧
      (w.pair 12 c.l0).toNat % 4 ≠ 0 ∧ 2 ^ 56 ≤ (w.pair 12 c.l0).toNat ∧
      (let v := (w.pair 14 c.l0).toNat
       v / 2 ^ 21 = 0 ∧ v / 2 ^ 13 % 8 = 0 ∧ v / 2 ^ 5 % 8 = 0 ∧ v / 2 ^ 3 % 2 = 0) ∧
      ((w.pair 4 c.l0).toNat / 2 ^ 21 ≠ 0 ∨ (w.pair 6 c.l0).toNat / 2 ^ 3 % 2 ≠ 0) ∧ ¬320 < (w.pair 8 c.l0).toNat / 2 ^ 32 % 2 ^ 16 ∧
      320 < (w.pair 10 c.l0).toNat / 2 ^ 32 % 2 ^ 16 ∧
      Issues (simt [0, 1] 77 0 id) c (group id) (warp id) ∧ 1 ≤ privOf (group id) (warp id) ∧ (warp id).trap.hm = false ∧
      OperandsOk c (warp id) [c.l0] [] [(2, 2)] := by
  and_intros <;> decide

theorem witness_PrivilegedFormsTrapBelowTheirLevel :
    let c := ctx [0, 1] 77 0
    Issues (levelled 0 [0, 1] 77 id) c (atLevel 0 id) (warp id) ∧ privOf (atLevel 0 id) (warp id) < 1 ∧
      Issues (levelled 0 [0, 1] 77 handler) c (atLevel 0 handler) (warp handler) ∧ privOf (atLevel 0 handler) (warp handler) < 2 ∧
      Issues (levelled 2 [0, 1] 77 id) c (atLevel 2 id) (warp id) ∧ privOf (atLevel 2 id) (warp id) < 3 := by decide

theorem witness_MaintenanceWatchSleepComplete :
    let c := ctx [0, 1] 77 0
    let f := regs [(0, 0, 0), (1, 0, 0), (2, 0x30000, 0), (3, 0, 0), (4, 0x20000040, 0), (5, 1, 0), (6, 3, 0), (7, 0x20000000, 0), (8, 0x10000001, 0),
      (10, 0x30040, 0), (11, 0, 0), (12, 0x40000000, 0), (13, 0xC7, 0), (14, 0x100, 0), (15, 0xD0, 0), (16, 0x1000001, 0), (17, 0xC0, 0), (18, 2, 0),
      (19, 0x30000000, 0)]
    let w := warp f
    let s := simt [0, 1] 77 0 f
    let ctl : Nat → Nat := fun b => (w.reg b c.l0).toNat
    let asleep : Warp → Warp := fun w => w.modLanes [0, 1] fun x => { x with hold := .sleep 5 }
    let t : State := part [0, 1, 0, 1] { simt [0, 1] 77 0 asleep with cycle := 5 }
    Issues s c (group f) w ∧ 2 ≤ privOf (group f) w ∧ OperandsOk c w [c.l0] [] [(2, 2), (5, 1)] ∧ ctl 0 = 0 ∧ ctl 5 = 1 ∧ ctl 18 = 2 ∧ 3 ≤ ctl 6 ∧
      s.storeOpen c.p c.wg c.wid c.l0 false = false ∧ (Issues (opened s) c (group f) w ∧ (opened s).storeOpen c.p c.wg c.wid c.l0 false = true) ∧
      ctl 7 = 2 ^ 29 ∧ ctl 19 = 3 * 2 ^ 28 ∧ ((w.pair 2 c.l0).toNat % 128 = 0 ∧
        (ctl 5 < 2 ^ 28 ∧ s.cinvFault c (group f) (w.pair 2 c.l0).toNat (128 * (ctl 5 % 2 ^ 28)) = none) ∧
        2 ^ 28 ≤ ctl 8 ∧ ctl 8 < 2 ^ 29 ∧ s.cinvFault c (group f) (w.pair 2 c.l0).toNat (128 * (ctl 8 % 2 ^ 28)) = none) ∧
      (w.pair 10 c.l0).toNat % 128 ≠ 0 ∧ 2 ^ 30 ≤ ctl 12 ∧ (2 ^ 8 ≤ ctl 14 ∧ 12 < ctl 15 / 2 ^ 4 % 2 ^ 4) ∧
      (ctl 17 < 2 ^ 8 ∧ ctl 17 / 2 ^ 4 % 2 ^ 4 ≤ 12 ∧ (w.pair 10 c.l0).toNat % 2 ^ 12 ≠ 0) ∧ (w.pair 2 c.l0).toNat % 2 ^ 12 = 0 ∧ w.trap.hm = false ∧
      OperandsOk c w [c.l0] [] [(16, 1)] ∧ 2 ^ 24 ≤ ctl 16 ∧ (Issues (simt [0, 1] 77 0 handler) c (group handler) (warp handler) ∧
        (warp handler).trap.hm = true) ∧
      t.issue = .part [0, 1, 0, 1] ∧ t.warp 0 1 0 = some (warp asleep) ∧ ((warp asleep).lane 1).hold = .sleep 5 ∧ 5 ≤ t.cycle := by
  and_intros <;> decide

theorem witness_PowerInstructionsComplete :
    let c := ctx [0] 77 0
    let f := regs [(2, 0xFFFF, 0), (3, 0x10000, 0), (4, 320, 0), (5, 321, 0), (6, 255, 0), (7, 2400, 0), (8, 700, 0), (9, 0, 0), (10, 601, 0), (11, 256, 0)]
    let w := warp f
    let s := simt [0] 77 0 f
    let x : Group := { Group.empty with valid := true }
    let named : Nat → State := fun n => s.modPart 0 fun y => { y with groups := [(n, x)] }
    let away : State := { named 255 with fabric := { s.fabric with inDomain := false } }
    let y : Partition := { programPart with groups := [(255, x)], clk := ⟨true, 0, 0, some (255, 700, 0)⟩ }
    let t := part [0, 255] { s with parts := [(0, y)], cycle := 3000 }
    let low := { t with power := { t.power with clock := 600 } }
    let v : Nat → Nat := fun r => (w.reg r c.l0).toNat
    Issues s c (group f) w ∧ 3 ≤ privOf (group f) w ∧ OperandsOk c w [c.l0] [(127, 1)] [(2, 1), (4, 1)] ∧ 2 ^ 16 ≤ v 3 ∧ (v 2 < 2 ^ 16 ∧ v 9 = 0) ∧
      s.power.held - s.power.floor < v 5 ∧ (0 < v 4 ∧ v 4 ≤ s.power.held - s.power.floor) ∧ w.trap.hm = false ∧
      OperandsOk c w [c.l0] [] [(6, 1), (7, 1)] ∧ 2 ^ 8 ≤ v 11 ∧ ¬(v 10 = 0 ∨ 600 ≤ v 10 ∧ v 10 ≤ 2400 ∧ v 10 % 100 = 0) ∧
      (v 6 < 2 ^ 8 ∧ 600 ≤ v 7 ∧ v 7 ≤ 2400 ∧ v 7 % 100 = 0 ∧ ((s.part c.p).group 255).valid = false) ∧
      (Issues away c (group f) w ∧ away.fabric.inDomain = false) ∧
      (Issues (named 255) c (group f) w ∧ (named 255).fabric.inDomain = true ∧ (((named 255).part c.p).group 255).valid = true ∧
        ((named 255).part c.p).clk.pending = none) ∧
      t.issue = .part [0, 255] ∧ t.parts = [(0, y)] ∧ y.clk.pending = some (255, 700, 0) ∧ slotAt t.fabric.slot (0 + 1000) ≤ t.time ∧
      (t.work 0).waiters = [] ∧ (∀ m ∈ (y.group 255).members, m = (t.fabric.module, 0)) ∧ 700 ≤ t.power.clock ∧
      (low.issue = .part [0, 255] ∧ low.parts = [(0, y)] ∧ slotAt low.fabric.slot (0 + 1000) ≤ low.time ∧ (low.work 0).waiters = [] ∧
        (∀ m ∈ (y.group 255).members, m = (low.fabric.module, 0)) ∧ low.power.clock < 700) := by
  and_intros <;> decide

theorem witness_ClauseHeadersAct :
    let good := encodeHeader ⟨0, true, true, 15, 15, 14, 15, 0, 15⟩
    let bad := encodeHeader ⟨1, false, false, 15, 15, 15, 15, 0, 1⟩
    let f : Warp → Warp := fun w => w.modLanes [0, 1] fun x => { x with cur := ⟨0x20000, false, 1, some (BitVec.ofNat 32 good)⟩ }
    let s := { simt [0, 1] 77 0 f with mem := ⟨writeCells [] (programTables ++ located 0x20000 (bytesOf 4 0)), [], []⟩ }
    let first := encodeHeader ⟨0, false, false, 15, 0, 15, 15, 1, 1⟩
    let q := sequencer 1 [] []
    let busy := sequencer 1 [] [command 4]
    Issues (simt [0, 1] good 0 id) (ctx [0, 1] good 0) (group id) (warp id) ∧ (warp id).trap.hm = false ∧ (decodeHeader good).ok 0 = true ∧
      (decodeHeader good).wst = 14 ∧ (decodeHeader good).phase = true ∧
      Issues (simt [0, 1] bad 0 id) (ctx [0, 1] bad 0) (group id) (warp id) ∧ (decodeHeader bad).ok 0 = false ∧
      (∀ l ∈ [0, 1], l < (warp id).lanes.length) ∧
      ((∃ e ∈ s.runnable 0 (group f) (warp f), 0 ∈ e.1 ∧ ∀ l ∈ e.1, ((warp f).lane l).cur.hdr = false) ∧ (warp f).trap.hm = false ∧
        ((warp f).lane 0).cur.first = some (BitVec.ofNat 32 good) ∧ (decodeHeader (BitVec.ofNat 32 good).toNat).wst = 14) ∧
      SeqIssues (seqs q first 0) 0 q first 0 ∧ (decodeHeader first).ok q.cls = true ∧ ¬((decodeHeader first).wen < 15 ∧ (decodeHeader first).wen < q.cmds.length) ∧
      SeqIssues (seqs busy first 0) 0 busy first 0 ∧ ((decodeHeader first).wen < 15 ∧ (decodeHeader first).wen < busy.cmds.length) ∧
      SeqIssues (seqs q bad 0) 0 q bad 0 ∧ (decodeHeader bad).ok q.cls = false := by
  and_intros <;> decide

/-! ## Statements have instances: sequencers and commands -/

theorem witness_SequencerScalarResults :
    let q := sequencer 1 [(31, 1), (30, 2)] []
    let busy := sequencer 4 [] [command 4]
    SeqIssues (seqs q 77 0) 0 q 77 0 ∧ 2 ^ 18 - 1 < 2 ^ 18 ∧ 31 < 32 ∧ q.reg 31 = 1 ∧ q.reg 30 ≠ 1 ∧ q.reg 30 ≠ 0 ∧ q.reg 0 = 0 ∧ q.cmds = [] ∧
      32 ≤ 32 ∧ SeqIssues (seqs busy 77 0) 0 busy 77 0 ∧ busy.cmds ≠ [] := by decide

theorem witness_SequencerFlagsRecordsAndSlots :
    let q := sequencer 3 [(0, 0x30000), (2, 0x30004), (4, 0), (5, 0x1000000), (6, 0x30002)] []
    let s := seqs q 77 0
    let busy := sequencer 3 [(0, 0x30000)] [command 4]
    let event : State := s.modWork 0 fun x => { x with guidons := [(0, ⟨[⟨1, 2, 3⟩], []⟩)] }
    let next : State := { s with mem := { s.mem with cells := writeCells s.mem.cells (located 0x20004 (bytesOf 4 0x20000000)) } }
    let c : Command := { command 7 with wait := .slot 1000 .egjoin [1, 5] }
    let d : Command := { command 7 with wait := .slot 1000 .coll [1, 3, 4, 0, 9] }
    let t : Command → State := fun c => part [0, 2, 7] { seqs (sequencer 3 [] [c]) 77 0 with cycle := 2400 }
    SeqIssues s 0 q 77 0 ∧ 0 % 2 = 0 ∧ 30 + 2 ≤ 32 ∧ q.cmds = [] ∧ (31 < 32 ∧ 30 % 2 = 0 ∧ 30 < 32) ∧
      (s.memLoc ⟨0, q.die, q.priv, q.cls == 2⟩ .write 0x30000 4 true).toOption = some (.mem 0x30000 0x3F) ∧
      (s.memLoc ⟨0, q.die, q.priv, q.cls == 2⟩ .write 0x30000 8 true).toOption = some (.mem 0x30000 0x3F) ∧
      (s.memLoc ⟨0, q.die, q.priv, q.cls == 2⟩ .atomic 0x30000 8 true).toOption = some (.mem 0x30000 0x3F) ∧
      (s.memLoc ⟨0, q.die, q.priv, q.cls == 2⟩ .read 0x30000 8 true).toOption = some (.mem 0x30000 0x3F) ∧
      (s.memLoc ⟨0, q.die, q.priv, q.cls == 2⟩ .read 0x30004 4 true).toOption = some (.mem 0x30004 0x3F) ∧
      leafFmt 0x3F ≠ 2 ∧ s.placeOf 0 0x30000 = .mem ∧ s.mem.poisoned 0x30000 8 = false ∧ 2 ^ 56 ≤ (q.pair 4).toNat ∧
      ((q.pair 6).toNat < 2 ^ 56 ∧ (q.pair 6).toNat % 4 ≠ 0) ∧ SeqIssues (seqs busy 77 0) 0 busy 77 0 ∧ busy.cmds ≠ [] ∧
      (28 % 4 = 0 ∧ 28 + 4 ≤ 32) ∧ (SeqIssues event 0 q 77 0 ∧ (findD (event.work 0).guidons q.cluster ⟨[], []⟩).events = [⟨1, 2, 3⟩]) ∧
      (findD (s.work 0).guidons q.cluster ⟨[], []⟩).events = [] ∧ (SeqIssues next 0 q 77 0 ∧ next.nextIsCollective 0 q = true) ∧
      s.nextIsCollective 0 q = false ∧
      ((t c).issue = .part [0, 2, 7] ∧ ((t c).work 0).seqOf 2 = some (sequencer 3 [] [c]) ∧ (sequencer 3 [] [c]).cmd 7 = some c ∧
        c.wait = .slot 1000 .egjoin [1, 5] ∧ 1000 ≤ (t c).time ∧ (t c).time < 1000 + (t c).fabric.slot) ∧
      (let late := { t c with cycle := 4800 }
       late.issue = .part [0, 2, 7] ∧ (late.work 0).seqOf 2 = some (sequencer 3 [] [c]) ∧ 1000 + late.fabric.slot ≤ late.time) ∧
      (let late := { t d with cycle := 4800 }
       late.issue = .part [0, 2, 7] ∧ (late.work 0).seqOf 2 = some (sequencer 3 [] [d]) ∧ 1000 + late.fabric.slot ≤ late.time) ∧
      (let g := sequencer 4 [(0, 0x30000), (4, 0), (5, 0x1000000), (8, 0), (9, 0x80000000)] []
       SeqIssues (seqs g 77 0) 0 g 77 0 ∧ g.cmds = [] ∧ 2 ^ 56 ≤ (g.pair 4).toNat ∧ g.cls = 4 ∧ (g.pair 8).toNat / 2 ^ 25 = 0x80 * 2 ^ 31) ∧
      ((t d).issue = .part [0, 2, 7] ∧ ((t d).work 0).seqOf 2 = some (sequencer 3 [] [d]) ∧ d.collOf.isSome = true) := by
  and_intros <;> decide

theorem witness_MatrixCommandsIssue :
    let q := sequencer 1 [(8, 0x10000010), (12, 0x101), (13, 0x141), (14, 63), (15, 64), (16, 255), (17, 256), (18, 17), (19, 4), (20, 6), (21, 0x4000)] []
    let full := sequencer 1 [] ((List.range 63).map command)
    let waits : Command := { command 4 with wait := .todo .mma [7, 0] }
    let busy := sequencer 1 [(14, 63)] [waits]
    let s := seqs q 77 0
    let x : Nat → Nat := fun r => (q.reg r).toNat
    let rowsOk : Nat → Bool := fun v => decide (v < 2 ^ 15 ∧ v / 64 % 4 = 0 ∧ 0 < v / 256 % 128 ∧ v % 64 + v / 256 % 128 ≤ 64)
    let cfgOk : Nat → Bool := fun v => decide (v < 2 ^ 30 ∧ v / 2 ^ 28 ≤ 1 ∧ v / 32 % 2048 = 0 ∧ 1 ≤ v % 32 ∧ v % 32 ≤ 16)
    let away := (seqs q 77 0).modWg 0 1 fun g => { g with core := 1 }
    SeqIssues s 0 q 77 0 ∧ 31 < 32 ∧ q.cmds.length < 63 ∧ 7 < 8 ∧ cfgOk (x 8) = true ∧ cfgOk (x 18) = false ∧ rowsOk (x 12) = true ∧
      rowsOk (x 13) = false ∧ rowsOk (x 21) = true ∧ x 19 % 4 = 0 ∧ x 20 % 4 ≠ 0 ∧ s.seqCore 0 q % 4 = 0 ∧
      (SeqIssues away 0 q 77 0 ∧ away.seqCore 0 q % 4 ≠ 0) ∧ (∀ c ∈ q.cmds, c.tile ≠ some 7) ∧ x 14 < 64 ∧ 64 ≤ x 15 ∧
      (SeqIssues (seqs busy 77 0) 0 busy 77 0 ∧ (∃ c ∈ busy.cmds, c.tile = some 7) ∧ busy.cmds.length < 63) ∧ 8 ≤ 8 ∧
      (SeqIssues (seqs full 77 0) 0 full 77 0 ∧ ¬full.cmds.length < 63) ∧ x 16 < 256 ∧ q.cmds = [] ∧ 256 ≤ x 17 ∧ busy.cmds ≠ [] := by
  and_intros <;> decide

/-- A record of an embedding table at 0x60000, and a collective's descriptor for group 1 at 0x30000. -/
def described (s : State) : State :=
  (s.modPart 0 fun x => { x with edbase := 0x60000, groups := [(1, { Group.empty with members := [(0, 0)], valid := true }),
      (2, { Group.empty with members := [(0, 0)], valid := true, elastic := true }), (3, { Group.empty with valid := true, elastic := true })] }).modWork 0 id
    |> fun t => { t with mem := { t.mem with cells := writeCells t.mem.cells (located 0x60000 (bytesOf 4 64) ++ located 0x60080 (bytesOf 4 64 ++ bytesOf 4 1 ++ bytesOf 4 10) ++
      located 0x30000 (bytesOf 4 0x10000001 ++ bytesOf 4 0 ++ bytesOf 8 1 ++ bytesOf 8 0xFFFFFFFFFFFFFFFF) ++
      located 0x30020 (bytesOf 8 4) ++ located 0x30080 (bytesOf 4 0x10000005 ++ bytesOf 4 0 ++ bytesOf 8 1 ++ bytesOf 8 0xFFFFFFFFFFFFFFFF) ++
      located 0x300A0 (bytesOf 8 4)) } }

theorem witness_CopyAndCollectiveCommandsIssue :
    let q := sequencer 2 [(0, 0x30000), (2, 0x30080), (4, 1), (6, 2), (8, 4096), (10, 0x30040), (14, 64), (18, 65), (22, 0x10000000), (24, 3), (27, 256)] []
    let s := described (seqs q 77 0)
    let low : Seq := { q with priv := 1 }
    let x : Nat → Nat := fun r => (q.pair r).toNat
    let r32 : Nat → Nat := fun r => (q.reg r).toNat
    let away := s.modWg 0 1 fun g => { g with core := 1 }
    SeqIssues s 0 q 77 0 ∧ q.cmds.length < 63 ∧ (30 % 2 = 0 ∧ 30 < 32 ∧ 28 % 2 = 0 ∧ 28 + 4 ≤ 32) ∧ 2 ≤ q.priv ∧
      (SeqIssues (seqs low 77 0) 0 low 77 0 ∧ low.priv < 2) ∧ s.seqCore 0 q % 4 = 0 ∧ (SeqIssues away 0 q 77 0 ∧ away.seqCore 0 q % 4 ≠ 0) ∧
      (r32 14 < 2 ^ 28 ∧ r32 15 = 0 ∧ r32 14 % 64 = 0) ∧ r32 18 % 64 ≠ 0 ∧ 2 ^ 28 ≤ r32 22 ∧ 4096 ≤ r32 8 ∧ r32 4 < 4096 ∧
      s.binding 0 (r32 4) = .error 13 ∧ r32 6 < 4096 ∧ (s.binding 0 (r32 6)).toOption.isSome = true ∧
      (s.busyAt 0 (r32 6) (((s.binding 0 (r32 6)).toOption.map fun v => v.slot).getD 9)).toOption = some 0x600B0 ∧
      (let z := { s with mem := { s.mem with cells := writeCells s.mem.cells (located 0x12000 [0x37]) } }
       SeqIssues z 0 q 77 0 ∧ (z.binding 0 (r32 6)).toOption.isSome = true ∧
         (z.busyAt 0 (r32 6) (((z.binding 0 (r32 6)).toOption.map fun v => v.slot).getD 9)).toOption = none) ∧
      (let v := (s.fetchRecord 0 q (x 0) 64).toOption.getD 0
       (s.fetchRecord 0 q (x 0) 64).toOption.isSome = true ∧ (collDesc v).ok v = true ∧ s.member 0 ((s.part 0).group (collDesc v).ag) = true) ∧
      (let v := (s.fetchRecord 0 q (x 2) 64).toOption.getD 0
       (collDesc v).ok v = true ∧ s.member 0 ((s.part 0).group (collDesc v).ag) = false) ∧
      (let v := (s.fetchRecord 0 q (x 10) 64).toOption.getD 0
       (s.fetchRecord 0 q (x 10) 64).toOption.isSome = true ∧ (collDesc v).ok v = false) ∧
      (s.fetchRecord 0 q (x 26) 64).toOption = none ∧ (s.findAbsent 0 2).elasticStat 0 q 2 true = some 12 ∧
      (s.findAbsent 0 3).elasticStat 0 q 3 true = none ∧ (s.findAbsent 0 3).begins q = .now ∧
      (s.findAbsent 0 2).elasticStat 0 q 2 false = none ∧ (((s.findAbsent 0 4).part 0).group 4).valid = false ∧
      (((s.findAbsent 0 1).part 0).group 1).elastic = false := by
  and_intros <;> decide +kernel

theorem witness_CommandsHaveTheirEffects :
    let c : CmdWait → Command := fun w => { command 7 with wait := w }
    let q : Command → Seq := fun c => sequencer 1 [] [command 6, c]
    let s : Command → Nat → State := fun c o => part [0, 2, 7] { seqs (q c) 77 0 with cores := [(0, { Core.empty with owner := o })] }
    let events : Nat → State := fun n => (s (c .done) 1).modWork 0 fun w => { w with guidons := [(0, ⟨List.replicate n ⟨0, 0, 0⟩, []⟩)] }
    let told : Command := { c .done with notify := true }
    let failed : Command := { c .done with stat := 2 }
    (∀ op ∈ [CmdOp.tcfg, .tzero, .twr, .mma, .mmas, .mmao, .accrd true, .accrd false, .accnorm, .cpy, .gather, .scatter, .stage, .topk, .agset, .cpym 2],
      ((s (c (.todo op [7])) 1).issue = .part [0, 2, 7] ∧ ((s (c (.todo op [7])) 1).work 0).seqOf 2 = some (q (c (.todo op [7])))) ∧
        (q (c (.todo op [7]))).cmd 7 = some (c (.todo op [7])) ∧
        ((s (c (.todo op [7])) 1).coreOf ((s (c (.todo op [7])) 1).seqCore 0 (q (c (.todo op [7]))))).owner = (q (c (.todo op [7]))).wg ∧
        ((s (c (.todo op [7])) 0).coreOf ((s (c (.todo op [7])) 0).seqCore 0 (q (c (.todo op [7]))))).owner ≠ (q (c (.todo op [7]))).wg ∧
        ∀ y ∈ (q (c (.todo op [7]))).cmds.takeWhile (·.id != 7), y.tile ≠ some 7) ∧
      (((s (c (.follow 2 7 64)) 1).work 0).seqOf 2 = some (q (c (.follow 2 7 64))) ∧ (q (c (.follow 2 7 64))).cmd 7 = some (c (.follow 2 7 64))) ∧
      ((((s (c .done) 1).work 0).seqOf 2 = some (q (c .done))) ∧ (q (c .done)).cmd 7 = some (c .done) ∧ (c .done).tiles = [] ∧ (c .done).close = false ∧
        (c .done).bound = none ∧ (c .done).notify = false ∧ (c .done).stat = 0 ∧ (q (c .done)).ending = false ∧ (q (c .done)).stopped = false ∧
        (q (c .done)).discard = false) ∧
      (((s told 1).work 0).seqOf 2 = some (q told) ∧ (q told).cmd 7 = some told ∧ told.notify = true ∧
        (findD ((s told 1).work 0).guidons (q told).cluster ⟨[], []⟩).events.length < 256) ∧
      256 ≤ (findD ((events 256).work 0).guidons (q told).cluster ⟨[], []⟩).events.length ∧
      (let c := c (.product 0 7 0 0 [] [])
       ((s c 1).work 0).seqOf 2 = some (q c) ∧ (q c).cmd 7 = some c) ∧
      (let c := { c .done with bound := some 0x600B0 }
       ((s c 1).work 0).seqOf 2 = some (q c) ∧ (q c).cmd 7 = some c ∧ c.tiles = [] ∧ c.close = false ∧ c.notify = false ∧ c.stat = 0) ∧
      (((s failed 1).work 0).seqOf 2 = some (q failed) ∧ (q failed).cmd 7 = some failed ∧ failed.notify = false ∧ failed.stat ≠ 0) := by
  and_intros <;> decide +kernel

/-- An ACCRD of a row to a misaligned place, within the own space and outside it. -/
theorem witness_MatrixCommandsIssue_outside :
    let q := sequencer 1 [(20, 6), (12, 0x101)] []
    let s := (seqs q 77 0).modWg 0 1 fun _ => scratched id
    SeqIssues s 0 q 77 0 ∧ 6 % 4 ≠ 0 ∧ (s.ownNats 0 q.wg 1 [(6, 64 * 4 * 1)]).isNone = false ∧
      (s.ownNats 0 q.wg 1 [(4094, 64 * 4 * 1)]).isNone = true := by
  and_intros <;> decide +kernel


/-- Sequencer 2 on a work-group whose space holds sixty-four zero words, which are exponents too, and an operand block at 256. -/
def blocked (c : Command) (owner : Nat) : State :=
  { (seqs (sequencer 1 [] [c]) 77 0).modWg 0 1 (fun _ => scratched id) with
    issue := .part [0, 2, 7], cores := [(0, { Core.empty with owner := owner })]
    spad := ⟨located (spadKey 1 0) (List.replicate 256 (0 : Byte) ++ bytesOf 64 0x42420122), [], 2⟩ }

/-- A product of a work-group that does not own the tiles, its block and first step in order. -/
theorem witness_CommandsHaveTheirEffects_product :
    let c : Command := { command 7 with wait := .todo .mma [7, 256] }
    let q := sequencer 1 [] [c]
    let s := blocked c 0
    let v := 0x42420122
    let b : OpBlock := ⟨1, 2, 2, 0, 0, 0, 0, 0, 0, 0, 0, 0⟩
    s.issue = .part [0, 2, 7] ∧ (s.work 0).seqOf 2 = some q ∧ q.cmd 7 = some c ∧ (s.coreOf (s.seqCore 0 q)).owner ≠ q.wg ∧ 256 % 64 = 0 ∧
      s.ownNat 0 q.wg 64 256 64 = some (v, false) ∧ opBlock v (0 == 1) = some b ∧ s.stepsInSpace 0 q.wg 0 b = true ∧
      b.nstep ≠ 0 ∧ ((s.readStep 0 q.wg 0 b 0).bind fun r => (b.stepOf 0 r.1).map fun _ => r.2) = some false := by
  and_intros <;> decide +kernel

/-- Rows on which an event stays within the headroom, with bits lost and without, needs room, or does not find it. -/
theorem witness_TileContentsAfterCommands_events :
    let r : TileRow := ⟨List.replicate 64 1, 0, 0, false⟩
    let sums : TileRow → List Pair → List Int := fun r xs => (r.m.zip xs).map fun e =>
      e.1 + (if r.e ≤ e.2.2 then e.2.1 * 2 ^ (e.2.2 - r.e).toNat else e.2.1 / 2 ^ (r.e - e.2.2).toNat)
    let room : TileRow → List Pair → Int := fun r xs => 39 - (((sums r xs).map sigBits).foldl max 0 : Nat)
    let xs : Int → Int → List Pair := fun m e => List.replicate 64 (m, e)
    r.m.length = 64 ∧ (xs 3 (-1)).length = 64 ∧ -2048 ≤ r.e ∧ (16 ≤ room r (xs 3 (-1)) ∧ ∃ x ∈ xs 3 (-1), x.2 < r.e ∧ x.1 % 2 ^ (r.e - x.2).toNat ≠ 0) ∧
      (16 ≤ room r (xs 3 0) ∧ ¬∃ x ∈ xs 3 0, x.2 < r.e ∧ x.1 % 2 ^ (r.e - x.2).toNat ≠ 0) ∧
      (room r (xs (-2 ^ 30) 0) < 16 ∧ r.e + (16 - room r (xs (-2 ^ 30) 0)).toNat ≤ 2047) ∧
      (let z : TileRow := { r with e := 2047 }
       room z (xs (-2 ^ 30) 2047) < 16 ∧ 2047 < z.e + (16 - room z (xs (-2 ^ 30) 2047)).toNat) := by decide +kernel

/-- TWR of row 63 with values and with an infinity among them; ACCRD of it; a product that has its first step, with no port step made. -/
theorem witness_TileContentsAfterCommands_commands :
    let q := sequencer 1 [] [command 7]
    let s := blocked (command 7) 1
    let at_ : Nat → Nat := fun i => spadKey 1 (4 * i)
    let hot : State := { s with spad := s.spad.write (at_ 5) (bytesOf 4 0x7F800000) }
    let v := 0x42420122
    let b : OpBlock := ⟨1, 2, 2, 0, 0, 0, 0, 0, 0, 0, 0, 0⟩
    let tile := (s.coreOf (s.seqCore 0 q)).tiles.getD 7 Tile.zero
    7 < 8 ∧ 63 + 1 ≤ 64 ∧ (s.coreOf (s.seqCore 0 q)).tiles.length = 8 ∧ tile.rows.length = 64 ∧ tile.ofmt = 0 ∧ s.late = [] ∧
      (∀ i, i < 64 → s.seqSpad 0 q.wg true (0 + 4 * i) 4 = some (at_ i) ∧ s.spad.poisoned (at_ i) 4 = false) ∧
      (∀ j, j < 64 → ofBytes (s.spad.bytes (at_ (64 * (63 - 63) + j)) 4) / 2 ^ 23 % 256 ≠ 255) ∧
      (∀ i, i < 64 → hot.seqSpad 0 q.wg true (0 + 4 * i) 4 = some (at_ i) ∧ hot.spad.poisoned (at_ i) 4 = false) ∧
      ofBytes (hot.spad.bytes (at_ (64 * (63 - 63) + 5)) 4) / 2 ^ 23 % 256 = 255 ∧
      (∀ i, i < 64 → ∀ j, j < 64 → i ≠ j → at_ i + 4 ≤ at_ j ∨ at_ j + 4 ≤ at_ i) ∧
      (List.replicate 64 0).length = 64 ∧ opBlock v (0 == 1) = some b ∧
      ((b.stepOf 0 [0, 0, 0, 0, 0, 0]).map fun x => ((x.events 0 63).length, (x.ga.getD 127 (false, 0)).1,
        (List.range 64).any fun j => (x.gb.getD (2 * j + 1) (false, 0)).1)) = some (2, false, false) ∧
      ((b.stepOf 0 [0, 0, 0, 0, 2 ^ 15, 0]).map fun x => (x.ga.getD 0 (false, 0)).1) = some true := by
  and_intros <;> decide +kernel

/-! Copies, lookups, rows of TOPK, groups of STAGE, shards of COLL -/

/-- A copy sequencer, and a state with a shape record at 0x30000 of two rows of eight bytes and an index list at 0x30020, a directory entry
at 0x60100 for rows at 0x30040, and a stage descriptor at 0x30080; the page is of a stack. -/
def copier : Seq := sequencer 2 [] [command 7]
def copied : State :=
  let s := (seqs copier 77 0).modWg 0 1 fun _ => scratched id
  { s with mem := { s.mem with cells := writeCells s.mem.cells (located 0x12007 [2] ++
      located 0x30000 (bytesOf 4 2 ++ bytesOf 4 8 ++ bytesOf 4 16 ++ bytesOf 4 12 ++ bytesOf 4 20) ++ located 0x30020 (bytesOf 4 0 ++ bytesOf 4 1) ++
      located 0x30080 (bytesOf 4 0x200 ++ bytesOf 4 1 ++ bytesOf 4 0 ++ bytesOf 4 2048) ++ located 0x30100 [1, 2, 3, 4, 5, 6, 7, 8] ++
      located 0x60100 (bytesOf 8 0x30040)) } }
/-- `n` words moved by the copy sequencer from a place to another. -/
def moved (src dst : Nat) : Nat → State → State
  | 0, s => s
  | n + 1, s =>
    let t := moved src dst n s
    match t.fetch 0 copier (src + 4 * n) 4 with
    | .ok x => ((t.deposit 0 copier (dst + 4 * n) x.1 false).toOption).getD t
    | .error _ => t
/-- Whether the word after `n` moved words moves, sound, and leaves no poison. -/
def moves (src dst n : Nat) (s : State) : Bool :=
  let t := moved src dst n s
  match t.fetch 0 copier (src + 4 * n) 4 with
  | .ok x => !x.2 && (t.deposit 0 copier (dst + 4 * n) x.1 false).toOption.isSome && (moved src dst (n + 1) s).mem.poison.isEmpty
  | .error _ => false
theorem moves_step {src dst n : Nat} {s : State} (h : moves src dst n s = true) :
    ∃ bs, (moved src dst n s).fetch 0 copier (src + 4 * n) 4 = .ok (bs, false) ∧
      (moved src dst n s).deposit 0 copier (dst + 4 * n) bs false = .ok (moved src dst (n + 1) s) ∧ (moved src dst (n + 1) s).mem.poison = [] := by
  unfold moves at h
  cases e : (moved src dst n s).fetch 0 copier (src + 4 * n) 4 with
  | error x => simp [e] at h
  | ok x =>
    cases hy : (moved src dst n s).deposit 0 copier (dst + 4 * n) x.1 false with
    | error y => simp [e, hy, Except.toOption] at h
    | ok y =>
      have hm : moved src dst (n + 1) s = y := by simp [moved, e, hy, Except.toOption]
      simp only [e, hm, Bool.and_eq_true, Bool.not_eq_true', List.isEmpty_iff] at h
      exact ⟨x.1, by rw [← h.1.1], by rw [hm, hy], by rw [hm]; exact h.2⟩

/-- CPY of two rows; one whose second row leaves the page; GATHER and SCATTER by the list 0, 1. -/
theorem witness_CopiedWordsAndExchanges_rows :
    let s := copied
    let r1 := moved 0x30100 0x30200 2 s
    let f1 := moved 0x30100 (2 ^ 30 - 12) 2 s
    ((s.fetchShape 0 copier 0x30000).toOption = some ⟨2, 8, 16, 12, 20⟩ ∧ (2 - 1) * 12 + 8 ≤ 20) ∧
      ((s.resolve 0 copier .read 0x30100 4).toOption.isSome = true ∧ s.late = []) ∧
      (moves 0x30100 0x30200 0 s = true ∧ moves 0x30100 0x30200 1 s = true ∧ moves 0x30110 0x3020C 0 r1 = true ∧ moves 0x30110 0x3020C 1 r1 = true) ∧
      (moves 0x30100 (2 ^ 30 - 12) 0 s = true ∧ moves 0x30100 (2 ^ 30 - 12) 1 s = true ∧
        (f1.fetch 0 copier 0x30110 4).toOption = some ([0, 0, 0, 0], false) ∧
        (f1.deposit 0 copier (2 ^ 30 - 12 + 12) [0, 0, 0, 0] false).toOption.isNone = true) ∧
      (s.fetch 0 copier (2 ^ 30) 4).toOption.isNone = true ∧
      (∀ i, i < 2 → (s.fetchNat 0 copier (0x30020 + 4 * i) 4).toOption = some i ∧ i * 12 + 8 ≤ 20) := by
  and_intros <;> decide +kernel

/-- An EMBLK of one row of a table without shards, and its words; a TOPK of a row of two; words put at the start of scratchpad. -/
theorem witness_CopiedWordsAndExchanges_lookups :
    let s := copied
    let b : Binding := ⟨0, 10, 0, 0x60100, 8⟩
    let l := { s with mem := s.mem.write 0x30000 (bytesOf 4 1) }
    (l.fetchShape 0 copier 0x30000).toOption = some ⟨1, 8, 16, 12, 20⟩ ∧ (l.fetchNat 0 copier 0x30020 4).toOption = some 0 ∧ 0 < b.rows ∧
      (l.dirEntry 0 b 0).toOption = some ⟨0x60100, 0x30040, (0, 0), 0, false⟩ ∧ (l.fabric.module, 0) = (0, 0) ∧ l.lost 0 (0, 0) = false ∧
      l.reaches 0 (0, 0) = true ∧ (∀ k, k < 2 → (l.fetch 0 copier (0x30040 + 4 * k) 4).toOption = some ([0, 0, 0, 0], false)) ∧
      ((l.lookupRow 0 copier b 0).2 = .row [([0, 0, 0, 0], false), ([0, 0, 0, 0], false)] ∧
        ((l.lookupRow 0 copier b 0).1.depositWords 0 copier 0 0x30200 [([0, 0, 0, 0], false), ([0, 0, 0, 0], false)]).toOption.isSome = true) ∧
      (s.stackLocal 0 copier 0x30100 8 = true ∧ (s.fetchNat 0 copier 0x30100 8).toOption = some 0x0807060504030201 ∧
        ((s.deposit 0 copier 0x30200 (bytesOf 4 1 ++ bytesOf 4 0x08070605) false).toOption.bind fun t =>
          (t.deposit 0 copier 0x30208 (bytesOf 4 0 ++ bytesOf 4 0x04030201) false).toOption).isSome = true) ∧
      (s.resolve 0 copier .write (0x80 * 2 ^ 56) 4).toOption = some (.spad (spadKey 1 0)) := by
  and_intros <;> decide +kernel

/-- A STAGE whose second group lies past the page; its places in the own space. -/
theorem witness_CopiedWordsAndExchanges_stage :
    let s := copied
    let x : StageDesc := ⟨0, 0, 2, 1, 0, 2048, 0, 0, 0⟩
    (s.fetchRecord 0 copier 0x30080 32).toOption.bind (fun v => (stageDesc v).toOption) = some x ∧ s.stageFits 0 copier.wg x = true ∧
      ((s.stageSource 0 copier x (2 ^ 30 - 64) 0).toOption.map fun e => (e.1.invalid, e.2)) = some (false, []) ∧
      (s.stageSource 0 copier x (2 ^ 30 - 64) 1).toOption.isNone = true ∧
      (∀ e ∈ [(0, 8), (1024, 8), (2048, 2)], s.seqSpad 0 copier.wg true e.1 e.2 = some (spadKey 1 e.1)) := by
  and_intros <;> decide +kernel

/-- Meshes of three members over six elements, with each layout of either side; an exchange of a member alone. -/
theorem witness_CopiedWordsAndExchanges_exchange :
    let mesh : Bool → Bool → Nat → CollDesc := fun from_ to_ spart => ⟨1, 0, 0, if spart = 0 then 0 else 1, 1, [3, 1, 1, 1],
      [if from_ then 0 else 255, 255, 255, 255], [if to_ then 0 else 255, 255, 255, 255], spart, false, false, 0, 0, [6, 1, 1, 1], 0, 0⟩
    let y : Party := ⟨0, 0, copier, 7, [0x10000001, 1, 2 ^ 64 - 1, 0, 2 ^ 32 + 1, 2 ^ 32 + 1, 0x30100, 0x30200]⟩
    (∀ e ∈ [(false, false, 1), (false, true, 1), (true, false, 0), (true, true, 0), (false, true, 0)],
      (mesh e.1 e.2.1 e.2.2).ndim = 1 ∧ 3 ∣ 6 ∧ 2 < 3 ∧ 1 < (if e.2.1 then 6 / 3 else 6)) ∧
      (y.x.op = 0 ∧ y.x.size = 4 ∧ productOf (y.x.shard y.x.dstlay) = 1 ∧ y.x.src = 0x30100 ∧ y.x.dst = 0x30200 ∧
        (copied.destShard [y] [(0, 0)] y).toOption = some [(0x04030201, false)] ∧
        (copied.deposit 0 copier 0x30200 (bytesOf 4 0x04030201) false).toOption.isSome = true ∧ (copied.putShard y 0 [(0x04030201, false)]).2 = 0) := by
  and_intros <;> decide +kernel

/-! ## Statements have instances: queues, placement, partitions, fabric, host -/

/-- Queue 63 of partition 0, with a ring of two packets at 0x30000 that holds `bs`. -/
def queued (x : Queue) (bs : List Byte) : State :=
  let s := (simt [0] 77 0 id).modPart 0 fun y => { y with queues := [(63, x)] }
  { s with mem := { s.mem with cells := writeCells s.mem.cells (located 0x30000 bs) }, cycle := 2400 }
def queue (w : DWord) : Queue := ⟨0x30000, 1, 1, true, 0, w, [], 0, none⟩

theorem witness_QueueRegistersAndPackets :
    let reset : Queue := ⟨0x30040, 1, 0, false, 0, 0, [], 0, none⟩
    let at3 : Queue := { queue 1 with state := 3 }
    let head : List Byte → Option Nat := fun bs => ((queued (queue 2) bs).packetRead 0 63 0 8).toOption
    let slot : List Byte → Nat → Option Nat := fun bs o => ((queued (queue 2) bs).packetRead 0 63 o 8).toOption
    let g : Agent := ⟨0, homeDie 0, 0, false⟩
    let launch := bytesOf 8 1 ++ bytesOf 8 0x30100
    let fence : Nat → List Byte := fun v => bytesOf 8 (2 + 256) ++ bytesOf 8 0 ++ bytesOf 8 0x30100 ++ bytesOf 8 v
    let write : Nat → List Byte := fun f => bytesOf 8 (3 + 16 * f) ++ bytesOf 8 0x30100 ++ bytesOf 8 7
    let timed : Nat → List Byte := fun t => bytesOf 8 4 ++ bytesOf 8 t
    let s := queued (queue 2) (bytesOf 8 0)
    (s.part 0).state = .running ∧ 63 < 64 ∧ s.mayWrite 0 0 = true ∧ (queue 2).state < 4 ∧ 2 ^ (queue 2).qlog < ((3 : DWord) - (queue 2).qrptr).toNat ∧
      ((2 : DWord) - (queue 2).qrptr).toNat ≤ 2 ^ (queue 2).qlog ∧ 2 ≤ at3.state ∧ s.mayWrite 2 2 = true ∧
      (queue 2).qbase.toNat % (64 * 2 ^ (queue 2).qlog) = 0 ∧ reset.qbase.toNat % (64 * 2 ^ reset.qlog) ≠ 0 ∧
      ((s.part 0).queue 63 = queue 2 ∧ (queue 2).en = true ∧ (queue 2).state < 2 ∧ (queue 2).qrptr ≠ (queue 2).qwptr) ∧
      ((queued { queue 2 with qbase := 0x80000000 } []).packetRead 0 63 0 8).toOption = none ∧ head (bytesOf 8 0) = some 0 ∧ head (bytesOf 8 5) = some 5 ∧
      (head launch = some 1 ∧ slot launch 8 = some 0x30100 ∧ 0x30100 % 256 = 0 ∧ (s.agentRead g 0x30100 256).toOption.isSome = true) ∧
      (head (fence 0) = some 258 ∧ ((queued (queue 2) (fence 0)).fenceList 0 63 0 1).toOption = some [(0x30100, 0)] ∧
        ((queued (queue 2) (fence 0)).unmetOf g [(0x30100, 0)]).toOption = some []) ∧
      ((queued (queue 2) (fence 1)).unmetOf g [(0x30100, 1)]).toOption = some [(0x30100, 1)] ∧
      (2 + 256 * 12 = 3074 ∧ head (bytesOf 8 3074) = some 3074 ∧ ((queue 2).qwptr - (queue 2).qrptr).toNat < (12 + 4) / 4) ∧
      (head (write 0) = some 3 ∧ slot (write 0) 8 = some 0x30100 ∧ slot (write 0) 16 = some 7 ∧
        (s.memLoc g .write 0x30100 8 false).toOption = some (.mem 0x30100 0x3F) ∧ s.placeOf 0 0x30100 = .mem) ∧
      (head (write 1) = some 19 ∧ (s.memLoc g .atomic 0x30100 8 true).toOption = some (.mem 0x30100 0x3F) ∧ s.mem.poisoned 0x30100 8 = false) ∧
      (head (timed 1000) = some 4 ∧ slot (timed 1000) 8 = some 1000 ∧ s.time = 1000) ∧
      (((queued { queue 2 with state := 2, unmet := [(0x30100, 0)], limit := some 1000 } []).part 0).queue 63).limit = some 1000 ∧
      ((queued (queue 2) []).unmetOf g [(0x30100, 0)]).toOption = some [] ∧
      (part [0, 63] s).issue = .part [0, 63] ∧ (part [2, 0, 63, 2] s).issue = .part [2, 0, 63, 2] := by
  and_intros <;> decide +kernel

/-- A launch that has ended but for its completion. -/
def ended (even pushing : Bool) : Launch := { programLaunch with pushing := pushing, rcd := { programLaunch.rcd with even := even, ctlprog := 0x50000 } }

theorem witness_WorkIsPlacedAndLaunchesEnd :
    let item : Item := ⟨1, 2, 3, 0, 3, false, false, .cont ⟨0x20000, 0, 0, 0, 0, 2, 1, false⟩⟩
    let s := part [0] ((simt [0] 77 0 id).modWork 0 fun w => { w with items := [item] })
    let full := part [0] ((simt [0] 77 0 id).modWork 0 fun w => { w with items := [{ item with kind := .cont ⟨0x20000, 0, 0, 0, 0, 16, 32, false⟩ }] })
    let late : State := part [0, 0] { s with cycle := 1048576 }
    let ts := [thread 0]
    let o : Output := ⟨1, 0, [], 4, [(1, 0)], [(0, ts)], []⟩
    let t := part [0, 0] ((simt [0] 77 0 id).modWork 0 fun w => { w with outputs := [o] })
    let done : Bool → Bool → State := fun e p => part [0, 1] ((simt [0] 77 0 id).modWork 0 fun w => { w with launches := [(1, ended e p)], wgs := [] })
    let busy := part [0, 1] (simt [0] 77 0 id)
    let ctl := part [0, 0] ((simt [0] 77 0 id).modWork 0 fun w => { w with launches := [(1, ended true false)], guidons := [(0, ⟨[], [1]⟩)] })
    let room : State → Prop := fun t => (findD (t.work 0).guidons 0 ⟨[], []⟩).events.length < 256
    (s.issue = .part [0] ∧ (s.part 0).state = .running ∧ (s.work 0).tryOrder = [(0, item)] ∧ (s.placeOne 0 item).isSome = true) ∧
      (full.issue = .part [0] ∧ ∀ x ∈ (full.work 0).tryOrder, full.placeOne 0 x.2 = none) ∧
      (late.issue = .part [0, 0] ∧ (late.work 0).items[0]? = some item ∧ item.since + 1048576 ≤ late.cycle) ∧
      (t.issue = .part [0, 0] ∧ (t.work 0).outputs[0]? = some o ∧ o.warps = [(0, ts)] ∧ o.seats[0]? = some (1, 0) ∧ (t.work 0).wg 1 = some (group id) ∧
        (t.work 0).launch o.seq = some programLaunch ∧ ((t.work 0).usedSlots (group id).core).length < 32 ∧
        (t.work 0).usedGranules (group id).core + o.granules ≤ 256) ∧
      (let o : Output := { o with warps := [(1, ts)], started := [(0, 5)] }
       let t := part [0, 0] ((simt [0] 77 0 id).modWork 0 fun w => { w with outputs := [o] })
       (t.work 0).outputs[0]? = some o ∧ o.seats.length ≤ 1 ∧ o.seats[1 % max 1 o.seats.length]? = some (1, 0) ∧ find o.started 0 = some 5 ∧
         (group id).warp 5 = none) ∧
      ((done true false).issue = .part [0, 1] ∧ ((done true false).work 0).launch 1 = some (ended true false) ∧ (ended true false).pushing = false ∧
        ((done true false).work 0).launchDone (ended true false) = true ∧ room ((done true false).endSteps 0 (ended true false))) ∧
      ((busy.work 0).launch 1 = some programLaunch ∧ (busy.work 0).launchDone programLaunch = false) ∧
      (((done true true).work 0).launch 1 = some (ended true true) ∧ (ended true true).pushing = true ∧ room (done true true)) ∧
      (ctl.issue = .part [0, 0] ∧ findD (ctl.work 0).guidons 0 ⟨[], []⟩ = ⟨[], [1]⟩ ∧ (ctl.work 0).launch 1 = some (ended true false) ∧
        ∀ q ∈ (ctl.work 0).seqs, ¬(q.cls = 4 ∧ q.cluster = 0)) := by
  and_intros <;> decide +kernel

theorem witness_WithdrawalAndPreemption :
    let s := part [2, 0, 1] (simt [0] 77 0 id)
    let busy := s.modPart 0 fun x => { x with withdraw := ⟨9, 1⟩, preempt := ⟨9, 1⟩ }
    let bare := s.modWork 0 fun w => { w with wgs := [] }
    let t : Nat → Nat → State := fun e c => part [0] { simt [0] 77 0 id with cores := [(0, { Core.empty with spill := true, swapEnd := e })], cycle := c }
    let held : Warp → Warp := fun w => w.modLanes [0, 1] fun x => { x with hold := .lbar 0 }
    let item : Item := ⟨1, 1, 0, 0, 0, false, false, .restored 0 [(2, [thread 1])] 0 300⟩
    let fits : Item := { item with kind := .restored 0 [(2, [thread 1])] 0 235 }
    let others := [{ group id with id := 2, warps := [{ warp id with slot := 1, alloc := 10 }] }]
    let x : Launch := { programLaunch with rcd := { programLaunch.rcd with levels := [⟨3, 16, 0, 6, 0⟩] } }
    let u : Item → List WorkGroup → State := fun i gs =>
      part [0, 1] ((simt [0] 77 0 held).modWork 0 fun w => { w with launches := [(1, x)], items := [i], wgs := w.wgs ++ gs })
    let takes : Item → List WorkGroup → Bool := fun i gs =>
      ((group held).openRounds x.rcd.levels).any ((u i gs).lbarVictim 0 x (group held)) &&
        (((u i gs).preemptGroup 0 (group held) false).work 0).items[0]? == some i
    let placed : Item → List WorkGroup → Bool := fun i gs => (((u i gs).preemptGroup 0 (group held) false).placeOne 0 i).isSome
    s.issue = .part [2, 0, 1] ∧ (s.part 0).state = .running ∧ s.mayWrite 2 2 = true ∧ (s.part 0).withdraw.state ≠ 1 ∧
      (s.work 0).launch 1 = some programLaunch ∧ (s.work 0).launch 2 = none ∧ (busy.part 0).withdraw.state = 1 ∧ (busy.part 0).preempt.state = 1 ∧
      (s.part 0).preempt.state ≠ 1 ∧ ownsCore 0 70 = false ∧ ownsCore 0 1 = true ∧ (bare.work 0).onCore 0 = [] ∧
      (∀ m ∈ (bare.work 0).images, m.spilled = true) ∧ (∀ g ∈ (bare.work 0).wgs, g.pre = 0) ∧
      (ownsCore 0 0 = true ∧ (s.work 0).onCore 0 = [group id] ∧ (s.work 0).wg (group id).id = some (group id) ∧ (group id).kept = false ∧
        (group id).pre = 0 ∧ (s.work 0).peers (group id) = [group id] ∧ s.canLeave (group id) = true) ∧
      (part [2, 0] s).issue = .part [2, 0] ∧ 1 < 2 ∧
      ((t 64 64).issue = .part [0] ∧ ((t 64 64).coreOf 0).swapEnd ≤ (t 64 64).cycle ∧ (t 64 63).cycle < ((t 64 63).coreOf 0).swapEnd ∧
        (t 64 64).holderOf 0 = some 0 ∧ ((t 64 64).coreOf 0).spill = true) ∧
      ((u item others).issue = .part [0, 1] ∧ ((u item others).part 0).state = .running ∧ ((u item others).work 0).wg 1 = some (group held) ∧
        ((u item others).work 0).launch (group held).seq = some x ∧ (group held).pre = 0 ∧ (group held).cont = false ∧ item.seq = x.seq ∧
        item.missing x.rcd.levels 0 [] = true ∧ takes item others = true ∧ placed item others = false) ∧
      (fits.seq = x.seq ∧ fits.missing x.rcd.levels 0 [] = true ∧ takes fits others = true ∧ placed fits others = true) ∧
      ∀ r ∈ (group id).openRounds programLaunch.rcd.levels, (part [0, 1] s).lbarVictim 0 programLaunch (group id) r = false := by
  and_intros <;> decide +kernel

/-- A descriptor that activation accepts. -/
def tenantDesc : Map DWord := [(0, BitVec.ofNat 64 (2 ^ 48)), (8, 6), (9, 6), (10, 6), (11, 6)]
/-- Partition 27 in a state, every other one off. -/
def tenant (st : PartState) (d : Map DWord) (args : List Nat) : State :=
  part args { State.reset with
    parts := [(27, { Partition.empty with state := st, desc := d })], works := [(27, Work.empty)],
    gates := [(4095, { Gate.empty with v := true, home := 27 })] }

/-- An image alone, with its mark at address 0. -/
def marked (m : SaveImage) (s : State) : State :=
  { s with images := [m], mem := { s.mem with cells := located 0 (bytesOf 64 (imageMark m.serial)), runs := [] } }
theorem ofBytes_bytesOf (n v : Nat) : ofBytes (bytesOf n v) = v % 256 ^ n := by
  induction n generalizing v with
  | zero => simp [bytesOf, ofBytes, Nat.mod_one]
  | succ n ih => rw [bytesOf, ofBytes, ih, Nat.pow_succ, Nat.mul_comm (256 ^ n), Nat.mod_mul]; simp
theorem marked_read (m : SaveImage) (s : State) (h : m.serial < 2 ^ 64) : (marked m s).mem.read 0 64 = imageMark m.serial := by
  have e : (marked m s).mem.read 0 64 = ofBytes (bytesOf 64 (imageMark m.serial)) := rfl
  have l : imageMark m.serial < 256 ^ 64 := by
    have y := Nat.mod_lt (Config.freeNat (2 ^ 100 + m.serial)) (Nat.two_pow_pos 448)
    have z : (256 : Nat) ^ 64 = 2 ^ 64 * 2 ^ 448 := (Nat.pow_mul 2 8 64).symm.trans (Nat.pow_add 2 64 448)
    unfold imageMark
    rw [z]
    generalize Config.freeNat (2 ^ 100 + m.serial) % 2 ^ 448 = w at *
    generalize 2 ^ 448 = k at *
    omega
  rw [e, ofBytes_bytesOf, Nat.mod_eq_of_lt l]
theorem imageAt_marked (m : SaveImage) (s : State) (h : m.serial < 2 ^ 64) : (marked m s).imageAt 0 = some m := by
  unfold State.imageAt
  rw [marked_read m s h]
  simp [marked]

theorem witness_PartitionCommandsAct_marked :
    ∃ (s : State) (m : SaveImage), s.images = [m] ∧ m.serial < 2 ^ 64 ∧ s.mem.read 0 64 = imageMark m.serial :=
  ⟨marked ⟨0, 4, 27, Partition.empty, Work.empty, [], []⟩ State.reset, _, rfl, by decide, marked_read _ _ (by decide)⟩

theorem witness_PartitionCommandsAct :
    let s : PartState → State := fun st => tenant st tenantDesc [3, 27]
    let bad := tenant .off [(8, 1)] [3, 27]
    let image : SaveImage := ⟨0, 4, 27, Partition.empty, Work.empty, [], []⟩
    let kept : PartState → State := fun st => marked image (s st)
    let open_ : SaveImage := { image with kind := 0, work := { Work.empty with launches := [(1, programLaunch)] } }
    let frozen := marked open_ (s .frozen)
    let reserved := tenant .running [(0, BitVec.ofNat 64 (2 ^ 8))] [3, 27]
    let f : PartState → Nat → Nat → State := fun st off v => tenant st [] [3, 27, off, v]
    let two := { f .running 128 (30 * 2 ^ 58 + 2 ^ 30) with
      parts := [(26, { Partition.empty with state := .running, desc := [(16, BitVec.ofNat 64 (30 * 2 ^ 58 + 2 ^ 30))] }),
      (27, { Partition.empty with state := .running })] }
    let iced := two.modPart 27 fun y => { y with state := .frozen }
    ((s .off).issue = .part [3, 27] ∧ (s .off).mayWrite 3 3 = true ∧ (s .off).mayWrite 2 3 = false ∧ 27 < 28 ∧ ((s .running).part 27).state ≠ .off) ∧
      ((bad.part 27).state = .off ∧ (bad.activationWhy 27).isSome = true) ∧ (((s .off).part 27).state = .off ∧ (s .off).activationWhy 27 = none) ∧
      (((s .running).part 27).state = .running ∧ ((s .running).part 27).parked = [] ∧ ((s .running).gate 4095).v = true ∧ ((s .running).gate 4095).home = 27) ∧
      (s .off).images = [] ∧
      ((kept .off).imageAt ((kept .off).part 27).imageAddr = some image ∧ image.kind ≠ 0 ∧ (kept .off).activationWhy 27 = none ∧
        (kept .off).gatesWhy image = none ∧ (image.deques (64 * sliceCount 27)).isSome = true ∧ (image.tileQueues 27).isSome = true ∧ image.gates = [] ∧
        ∀ ds, image.deques (64 * sliceCount 27) = some ds → ∀ d ∈ ds, d.entries = []) ∧
      (∃ m, m = { image with kind := 5, gates := [(4095, Gate.empty)] } ∧ (kept .off).gatesWhy m = some 6) ∧ ((kept .running).part 27).state ≠ .off ∧
      (((s .running).work 27).launches = [] ∧ ((s .running).frozenWork 27).launches = []) ∧
      (bitsOf ((reserved.part 27).dword 0) 10 8 ≠ 0 ∧ ¬(bitsOf (((s .off).part 27).dword 0) 47 16 ≠ 0 ∨ bitsOf (((s .off).part 27).dword 0) 10 8 ≠ 0)) ∧
      ((frozen.part 27).state = .frozen ∧ ((frozen.frozenWork 27).launches.filter fun l => !l.2.pushing).length = 1) ∧
      (frozen.imageAt (frozen.part 27).imageAddr = some open_ ∧ open_.kind = 0 ∧
        ((marked image bad).imageAt (bad.part 27).imageAddr = some image ∧ ((marked image bad).activationWhy 27).isSome = true)) ∧
      ((tenant .freezing [] [27]).quiet 27 = true ∧
        ((tenant .freezing [] [27]).modWork 27 fun w => { w with wgs := [group id] }).quiet 27 = false) ∧
      (((f .running 0 4).part 27).dword 0 = 0 ∧ 4 / 2 ^ 16 * 2 ^ 16 + 4 / 2 ^ 8 % 8 * 256 = 0 ∧ 2 ^ 8 / 2 ^ 16 * 2 ^ 16 + 2 ^ 8 / 2 ^ 8 % 8 * 256 ≠ 0) ∧
      ((tenant .freezing [] [27]).issue = .part [27] ∧ ((tenant .freezing [] [27]).part 27).state = .freezing ∧ (tenant .freezing [] [27]).quiet 27 = true) ∧
      (((tenant .tearing [] [27]).part 27).state = .tearing ∧ (∀ q ∈ ((tenant .tearing [] [27]).work 27).seqs, q.cmds = []) ∧
        ((tenant .tearing [] [27]).work 27).stores = [] ∧ ((tenant .tearing [] [27]).work 27).launches = []) ∧
      ((f .off 255 (2 ^ 64 - 1)).issue = .part [3, 27, 255, 2 ^ 64 - 1] ∧ 255 < 256 ∧ 2 ^ 64 - 1 < 2 ^ 64) ∧
      (216 ∈ [216, 8] ∧ fieldOk 216 0 = true ∧ windowsClash (((f .running 216 0).part 27)) (((f .running 216 0).inUse 27).map (·.2)) = false) ∧
      (¬(16 ∈ [8, 32, 40, 48, 56, 96, 104, 240] ∨ 128 ≤ 16 ∧ 16 < 224) ∧ fieldOk 8 1 = false) ∧
      (fieldOk 128 (30 * 2 ^ 58 + 2 ^ 30) = true ∧ windowsClash { two.part 27 with desc := [(16, BitVec.ofNat 64 (30 * 2 ^ 58 + 2 ^ 30))] } ((two.inUse 27).map (·.2)) = true ∧
        (iced.part 27).state = .frozen ∧ windowsClash { iced.part 27 with desc := [(16, BitVec.ofNat 64 (30 * 2 ^ 58 + 2 ^ 30))] } ((iced.inUse 27).map (·.2)) = true) := by
  and_intros
  all_goals first | decide +kernel | exact imageAt_marked _ _ (by decide) | exact ⟨_, rfl, by decide +kernel⟩

/-! ## Statements have instances: fabric, power, host, reset, steps -/

/-- Partition 0 with one embedding table of one row of 4 bytes at 0x30000, whose other location is 0x31000. -/
def sharded (w : Nat) (x : Channel) : State :=
  let s := (simt [0] 77 0 id).modPart 0 fun y => { y with edbase := 0x60000, channels := [(1, x)] }
  let entry := bytesOf 8 0x30000 ++ bytesOf 8 0 ++ bytesOf 8 0x31000 ++ bytesOf 8 0 ++ bytesOf 4 w
  let table := bytesOf 4 4 ++ bytesOf 4 1 ++ bytesOf 4 1 ++ bytesOf 4 0 ++ bytesOf 8 0x50000
  { s with mem := ⟨writeCells (writeCells s.mem.cells (located 0x50000 entry)) (located 0x60000 table), [], []⟩ }
def channel (rsvd state entry : Nat) (copied : Bool) : Channel := ⟨0, 0, rsvd, state, 0x31000, 0, 0, 0, entry, 0x50001, 4, copied, []⟩
/-- Partition 0 with group 1 of the members `ms`, and a peer (5, 2) in its federation table at 0x40000. -/
def federated (g : Group) (args : List Nat) : State :=
  let s := part args ((simt [0] 77 0 id).modPart 0 fun x =>
    { x with groups := [(1, g)], desc := put (put x.desc 28 0x40000) 29 1 })
  { s with mem := { s.mem with cells := writeCells s.mem.cells (located 0x40000 (bytesOf 4 (5 * 65536 + 2))) }, cycle := 2400000 }

theorem witness_FabricEventsAct :
    let go := fun r => part [2, 0, 1] (sharded 0 (channel r 0 0 false))
    let sw := fun entry copied => part [0, 1, 10] (sharded 4 (channel 0 1 entry copied))
    let away := { sw 1 false with mem := (sw 1 false).mem.write 0x50018 (bytesOf 4 (7 * 65536)) }
    let copy : State → State → Except (Bool × Nat × Nat) State := fun s t =>
      t.migrationCopy 0 (0, 0) (s.otherLocation 0x50000).2 0 0x30000 (s.otherLocation 0x50000).1 1
    let g : Group := ⟨[(0, 0), (5, 2)], [], 3, 0, true, true, [], none, [], [], 0, [], none, 0⟩
    let serve : Nat → Nat → State := fun op va => federated g [0, op, va, 9, 5, 2, 3]
    let peer : State → Prop := fun s => s.fabric.inDomain = true ∧ (s.part 0).state = .running ∧ (s.fedPeers 0).contains (5, 2) = true
    let a : Agent := ⟨0, homeDie 0, 3, false⟩
    let e : Nat → Parked := fun va => ⟨BitVec.ofNat 64 va, 5, 2, 2, 18, 0, 3, .remote (bytesOf 4 77)⟩
    let parked : Nat → State := fun va => (federated g [2, 0, 3]).modPart 0 fun x => { x with parked := [(3, e va)] }
    let round : Group := { g with members := [(0, 0)], round := some 250, unacked := [1] }
    let asked : Nat → Group := fun t => { g with members := [(0, 0)], requests := [⟨true, 5, 1, none, t⟩] }
    let r := federated round [0, 1]
    let f := federated g [0, 1, 1]
    let waits : State := { f with fabric := { f.fabric with sent := [⟨0, 1, (5, 2), 0x30000, 1, .channel 0 1⟩] } }
    let c : Command := { command 7 with wait := .coll 1 3 0 [(5, 2)] [] }
    let bound : State := f.modWork 0 fun x => { x with seqs := [sequencer 3 [] [c]] }
    (¬(((go 1).part 0).channel 1).state = 1 ∧ ((go 1).migrationCheck 0 (((go 1).part 0).channel 1)).toOption = none) ∧
      ((go 0).issue = .part [2, 0, 1] ∧ ((go 0).migrationCheck 0 (((go 0).part 0).channel 1)).toOption = some (⟨0x50000, 0x30000, (0, 0), 0, false⟩, 4)) ∧
      ((sw 0 false).issue = .part [0, 1, 10] ∧ (((sw 0 false).part 0).channel 1).state = 1 ∧ (((sw 0 false).part 0).channel 1).entry = 0 ∧
        ∀ x ∈ (sw 0 false).parts, ∀ k ∈ x.2.parked, k.2.act ≠ .channel 0 1) ∧
      ((((sw 1 false).part 0).channel 1).entry ≠ 0 ∧ (((sw 1 false).part 0).channel 1).copied = false ∧ (copy (sw 1 false) (sw 1 false)).toOption.isSome = true) ∧
      ((((sw 1 true).part 0).channel 1).entry ≠ 0 ∧ (((sw 1 true).part 0).channel 1).copied = true ∧
        (copy (sw 1 true) ((sw 1 true).drainRows ((0, 0), 0x30000) 4)).toOption.isSome = true) ∧
      (away.issue = .part [0, 1, 10] ∧ ((away.part 0).channel 1).entry ≠ 0 ∧ ((away.part 0).channel 1).copied = false ∧
        (match copy away away with | .error x => x.2.2 == 0 | .ok _ => false) = true) ∧
      ((serve 0 0x30000).issue = .part [0, 0, 0x30000, 9, 5, 2, 3] ∧ peer (serve 0 0x30000) ∧
        ((serve 0 0x30000).memLoc a .write 0x30000 4 false).toOption = some (.mem 0x30000 0x3F) ∧ leafFmt 0x3F ≠ 2 ∧
        (serve 0 0x30000).placeOf 0 0x30000 = .mem) ∧
      (peer (serve 1 0x30000) ∧ ((serve 1 0x30000).memLoc a .read 0x30000 2 false).toOption = some (.mem 0x30000 0x3F)) ∧
      (peer (serve 5 0x70000000) ∧ ((serve 5 0x70000000).memLoc a .write 0x70000000 4 false).toOption = none) ∧
      ((parked 0x30000).issue = .part [2, 0, 3] ∧ find ((parked 0x30000).part 0).parked 3 = some (e 0x30000) ∧
        ((parked 0x30000).performParked 0 (e 0x30000)).toOption.isSome = true) ∧
      (find ((parked 0x70000000).part 0).parked 3 = some (e 0x70000000) ∧
        ((parked 0x70000000).performParked 0 (e 0x70000000)).toOption = none) ∧
      (e 0).ptime + 1000000 ≤ (parked 0).time ∧
      ((federated g [0, 1, 0]).boundMembers 0 1)[0]? = some (0, 0) ∧ (federated g [0, 1, 0]).reaches 0 (0, 0) = true ∧
      ((f.boundMembers 0 1)[1]? = some (5, 2) ∧ f.reaches 0 (5, 2) = false ∧ (5, 2).1 ≠ f.fabric.module ∧ f.fabric.sent = [] ∧ (f.work 0).commands = []) ∧
      ((waits.boundMembers 0 1)[1]? = some (5, 2) ∧ waits.reaches 0 (5, 2) = false ∧
        ∃ x ∈ waits.fabric.sent, x.p = 0 ∧ x.group = 1 ∧ x.member = (5, 2) ∧ x.since + 16000 ≤ waits.time) ∧
      ((bound.boundMembers 0 1)[1]? = some (5, 2) ∧ bound.reaches 0 (5, 2) = false ∧
        ((bound.work 0).commands.any fun e => e.2.collOf == some (1, 3, 0, [(5, 2)], [])) = true) ∧
      ((f.part 0).group 1).members[1]? = some (5, 2) ∧
      (let s := federated { round with members := [(0, 0), (5, 2)] } [0, 1, 1]
       ((s.part 0).group 1).members[1]? = some (5, 2) ∧ ((s.part 0).group 1).round = some 250 ∧ s.roundParts 0 1 = [0] ∧
         1 ∈ ((s.part 0).group 1).unacked ∧ 250 + 4 * s.fabric.slot ≤ s.time ∧ 0 < s.fabric.slot) ∧
      (let s := federated (asked 1) [0, 1]
       s.issue = .part [0, 1] ∧ s.roundParts 0 1 = [0] ∧ 0 < s.fabric.slot ∧ ((s.part 0).group 1).valid = true ∧ ((s.part 0).group 1).elastic = true ∧
         ((s.part 0).group 1).round = none ∧ s.coordinator 0 1 = s.fabric.module ∧ max ((1 / s.fabric.slot + 1) * s.fabric.slot) 0 ≤ s.time) ∧
      (let s := federated (asked 1000000) [0, 1]
       s.roundParts 0 1 = [0] ∧ s.coordinator 0 1 = s.fabric.module ∧ s.time < max ((1000000 / s.fabric.slot + 1) * s.fabric.slot) 0) ∧
      (let s := federated { round with unacked := [] } [0, 1]
       ((s.part 0).group 1).round = some 250 ∧ ((s.part 0).group 1).unacked = [] ∧ ((s.part 0).group 1).stamp / s.fabric.slot < s.time / s.fabric.slot ∧
         ((s.part 0).group 1).members.contains (s.fabric.module, 0) = true ∧ ((s.part 0).group 1).taken = []) ∧
      (((r.part 0).group 1).round = some 250 ∧ ((r.part 0).group 1).unacked ≠ []) ∧ (part [8] r).issue = .part [8] ∧ r.fabric.inDomain = true ∧
      ({ r with fabric := { r.fabric with inDomain := false } } : State).fabric.inDomain = false ∧ (part [5, 8000] r).issue = .part [5, 8000] ∧
      0 < 8000 ∧ 8000 % 125 = 0 := by
  and_intros
  all_goals decide +kernel

/-- Destinations that fault, at the module's other partition and at the own one; one that no port carries; a first word copied; peers that
write and read; a round of joins only in a full group, one with room, one of a leave, one of an absence; a slot that is missed. -/
theorem witness_FabricEventsAct_destinations :
    let s : List (Nat × List Byte) → State := fun l =>
      let t := part [0, 1, 10] (sharded 4 (channel 0 1 1 false))
      { t with parts := t.parts ++ [(1, { programPart with desc := put (put programPart.desc 28 0x40000) 29 1 })], mem := l.foldl (fun m e => m.write e.1 e.2) t.mem }
    let copy : State → Except (Bool × Nat × Nat) State := fun t =>
      t.migrationCopy 0 (0, 0) (t.otherLocation 0x50000).2 0 0x30000 (t.otherLocation 0x50000).1 1
    let fails : State → (Bool × Nat × Nat → Bool) → Bool := fun t f => match copy t with | .error x => f x | .ok _ => false
    let other := s [(0x50010, bytesOf 8 0x70000000), (0x50018, bytesOf 4 1)]
    let own := s [(0x50010, bytesOf 8 0x70000000)]
    let shut : State → State := fun t => { t with host := { t.host with limiters := (List.range 16).map fun q => (q, (0 : Word)) } }
    let away := shut (s [(0x50018, bytesOf 4 (7 * 65536))])
    (fails other fun x => x.1 && decide (18 ≤ x.2.2) && decide (x.2.2 ≤ 23)) = true ∧ (other.otherLocation 0x50000).2 ≠ (other.fabric.module, 0) ∧
      (fails own fun x => x.1 && decide (1 < x.2.2)) = true ∧ (own.otherLocation 0x50000).2 = (own.fabric.module, 0) ∧
      (fails away fun x => x.2.2 == 1) = true ∧ (away.part 0).channel 1 = channel 0 1 1 false := by
  and_intros <;> decide +kernel
theorem witness_FabricEventsAct_rounds :
    let round : List Request → List Nat → List (Nat × Nat) → State := fun l n ms =>
      federated ⟨ms, n, 3, 0, true, true, [], some 250, l, [], 0, [], none, 0⟩ [0, 1]
    let join : Request := ⟨true, 5, 1, none, 0⟩
    let leave : Request := ⟨false, 5, 2, none, 0⟩
    let two := [(0, 0), (5, 2)]
    let full := (0, 0) :: (List.range 63).map fun n => (6, n)
    let ends : State → Prop := fun s => s.issue = .part [0, 1] ∧ s.roundParts 0 1 = [0] ∧ 0 < s.fabric.slot ∧
      ((s.part 0).group 1).round = some 250 ∧ ((s.part 0).group 1).unacked = [] ∧ ((s.part 0).group 1).stamp / s.fabric.slot < s.time / s.fabric.slot ∧
      ((s.part 0).group 1).members.contains (s.fabric.module, 0) = true
    let missed : Work := { Work.empty with seqs := [sequencer 3 [] [{ command 7 with wait := .slot 3 .egjoin [1, 5] }]] }
    let early : Parked := ⟨0x30000, 5, 2, 2, 18, 0, 3, .write 77 true 0 9 0⟩
    let f := federated ⟨two, [], 3, 0, true, true, [], none, [], [], 0, [], none, 0⟩ [2, 0, 3]
    (ends (round [] [1] two) ∧ ends (round [leave] [] two) ∧ ends (round [join] [] two) ∧ (5, 1) ∉ two ∧ two.length < 64) ∧
      (ends (round [join] [] full) ∧ (5, 1) ∉ full ∧ 64 ≤ full.length) ∧
      (f.carries 0 = true ∧ { f with works := [(0, missed)] }.works = [(0, missed)]) ∧
      (early.smodule = 5 ∧ (f.serveWrite f 0 3 3 0x30000 (bytesOf 4 77) true).toOption.isSome = true ∧
        (f.serveRead f 0 3 (some 3) 0x30000 2).toOption = some ([0, 0], false)) := by
  and_intros <;> decide +kernel

/-- Whatever the draws, the clamp's clock lies between 100 and 2,400 MHz: above the clock of `slow` below, and below the lock of `fast`. -/
theorem clampClock_bounds (s : State) : 100 ≤ s.clampClock ∧ s.clampClock ≤ 2400 := by
  unfold State.clampClock
  cases h : ((upto 1 24).reverse.map (100 * ·)).find? fun c => decide (Config.freeDraw s.tick c ≤ 10 * s.power.held) with
  | none => decide
  | some c =>
    have : ∀ c ∈ (upto 1 24).reverse.map (100 * ·), 100 ≤ c ∧ c ≤ 2400 := by decide
    exact this c (List.mem_of_find?_eq_some h)

theorem witness_PowerAndHostEventsAct :
    let s : List Nat → State := fun l => part l { simt [0] 77 0 id with host := { State.reset.host with elect := ⟨7, 15, 0⟩ } }
    let owned : Nat → Nat → List Nat → State := fun o pend l => { s l with host := { (s l).host with elect := ⟨o, pend, 0⟩ } }
    let rows := { (s []).modPart 0 fun x => { x with desc := put x.desc 13 1 } with power := { (s []).power with held := 20, floor := 8, sent := [(0, 5), (9, 7)] } }
    let poisoned := { s [3, 0x30000, 64] with mem := (s []).mem.poisonSpan 0x30000 1 }
    let reached : State → Nat → Nat → Prop := fun s a n => a + n ≤ 1536 * 2 ^ 30 ∧ ∀ e ∈ s.parts, e.2.state = .off ∨ e.2.inWindow a n = true ∨
      ∀ w ∈ e.2.windows, a + n ≤ w.1 ∨ w.1 + w.2 ≤ a
    let paged := (owned 3 15 []).modPart 0 fun x => { x with desc := put x.desc 3 0x200000 }
    (s [7, 3]).issue = .part [7, 3] ∧ (part [4, 0] rows).power.sent[0]? = some (0, 5) ∧ rows.fabric.module = 0 ∧ (part [4, 1] rows).power.sent[1]? = some (9, 7) ∧
      rows.fabric.remotes = [] ∧ (part [4, 2] rows).power.sent[2]? = none ∧
      (part [12, 0, 7] rows).issue = .part [12, 0, 7] ∧ 12 ≤ rows.power.held - rows.power.floor ∧ (part [13, 0, 7] rows).issue = .part [13, 0, 7] ∧
      rows.power.held - rows.power.floor < 13 ∧ (part [5, 1, 7] rows).issue = .part [5, 1, 7] ∧
      (part [0] rows).issue = .part [0] ∧ (rows.part 0).state = .running ∧ 1 ≤ (rows.part 0).encount ∧
      (s [2400]).parts = [(0, programPart)] ∧ programPart.clk.mhz ≤ 100 ∧
      (let fast := { programPart with clk := { programPart.clk with mhz := 2500 } }
       let slow : State := { s [] with parts := [(0, fast)], power := { (s []).power with clock := 50 } }
       slow.parts = [(0, fast)] ∧ 2400 < fast.clk.mhz ∧ slow.power.clock < 100) ∧
      7 < 8 ∧ (owned 15 15 [7]).host.elect.owner = 15 ∧ (owned 1 7 [7]).host.elect.pend = 7 ∧ (owned 7 15 [7, 0]).host.elect.owner = 7 ∧
      ((s [23, 27, 15, 2 ^ 16 + 511]).issue = .part [23, 27, 15, 2 ^ 16 + 511] ∧ (s [23]).mayWrite 23 3 = true ∧ 27 < 28 ∧ 15 < 16 ∧
        (2 ^ 16 + 511) / 2 ^ 28 = 0 ∧ (2 ^ 16 + 511) / 2 ^ 9 % 2 ^ 7 = 0) ∧ ¬((2 ^ 28) / 2 ^ 28 = 0) ∧
      ((s [23, 15, 1, 2 ^ 52 - 4096]).issue = .part [23, 15, 1, 2 ^ 52 - 4096] ∧ (2 ^ 52 - 4096) / 2 ^ 52 = 0 ∧ (2 ^ 52 - 4096) % 2 ^ 12 = 0) ∧
      (s []).mayWrite 1 3 = false ∧
      ((s [3, 2 ^ 51, 64]).issue = .part [3, 2 ^ 51, 64] ∧ ¬reached (s []) (1536 * 2 ^ 30 - 63) 64 ∧ 2 ^ 51 < 2 ^ 60) ∧
      (¬reached (s []) (2 ^ 30 - 8) 64) ∧
      (reached (s []) 0x30000 64 ∧ reached (s []) (1536 * 2 ^ 30 - 64) 64 ∧ (s []).pageOwner 0x30000 = none ∧ (s []).mem.poisoned 0x30000 64 = false) ∧
      (reached poisoned 0x30000 64 ∧ poisoned.pageOwner 0x30000 = none ∧ poisoned.mem.poisoned 0x30000 64 = true) ∧
      ((owned 3 15 [3, 0x30000, 8, 5]).issue = .part [3, 0x30000, 8, 5] ∧ (owned 3 15 []).host.elect.owner = 3 ∧
        reached (owned 3 15 []) 0x30000 8 ∧ (owned 3 15 []).pageOwner 0x30000 = none) ∧
      (paged.host.elect.owner = 3 ∧ reached paged 0x200018 8 ∧ paged.pageOwner 0x200018 ≠ none) ∧
      ((s [3, 2 ^ 60, 8]).issue = .part [3, 2 ^ 60, 8] ∧ 8 ≤ 64) := by
  and_intros
  all_goals decide +kernel

/-- A return that overflows the held tokens, from a module that is reached and from one that is not; a limiter that is raised from 0. -/
theorem witness_PowerAndHostEventsAct_more :
    let s : State := part [9, 0] { simt [0] 77 0 id with power := { State.reset.power with held := 318, sent := [(9, 7)] } }
    let near : State := { s with fabric := { s.fabric with remotes := [⟨9, 0, true, [], []⟩] } }
    let shut : State := part [23, 0, 3, 450] { s with host := { s.host with elect := ⟨7, 15, 0⟩, limiters := (List.range 16).map fun q => (q, (0 : Word)) } }
    s.power.sent[0]? = some (9, 7) ∧ s.fabric.remotes = [] ∧ (∃ r ∈ near.fabric.remotes, r.module = 9 ∧ r.up = true) ∧ min 7 (320 - s.power.held) ≠ 7 ∧
      shut.carries 0 = false ∧ shut.mayWrite 23 3 = true ∧
      { shut with host := { shut.host with limiters := put shut.host.limiters (16 * 0 + 3) 450 } }.carries 0 = true := by
  and_intros <;> decide +kernel

theorem witness_ResetBootAndRecordsAct :
    let s : List Nat → State := fun l => part l { simt [0] 77 0 id with host := { State.reset.host with elect := ⟨7, 15, 0⟩ } }
    let boot : Nat → State := fun n => { s [23, 1] with boot := ⟨0, 0, n, 0⟩ }
    let snap := { s [7] with bb := { (s []).bb with snap := some ([⟨1, 2, 3, 4, 5, 6⟩], 1) } }
    let spdm : Bool → State := fun b => { s [3, 4] with host := { (s []).host with spdmVersion := b, spdmCaps := b, spdmAlgs := b } }
    let noted : List Nat → Nat → State := fun l c => { s l with bb := { (s []).bb with corrected := [(1, (3, 0))] }, cycle := c }
    let paged := (s []).modPart 0 fun x => { x with desc := put x.desc 3 0x200000 }
    State.reset.parts = [] ∧ (boot 3).issue = .part [23, 1] ∧ (boot 0).mayWrite 23 3 = true ∧ (boot 1).boot.state = 1 ∧ (boot 2).boot.state = 2 ∧
      (s [7]).issue = .part [7] ∧ (s []).bb.snap = none ∧ snap.bb.snap = some ([⟨1, 2, 3, 4, 5, 6⟩], 1) ∧ (spdm true).host.spdmAlgs = true ∧
      (spdm false).host.spdmVersion = false ∧ (spdm true).issue = .part [3, 4] ∧
      ((noted [1, 0] 0).issue = .part [1, 0] ∧ find (noted [1, 0] 0).bb.corrected 1 = some (3, 0) ∧ (noted [1, 0] 0).time < 1000000 ∧
        1000000 ≤ (noted [1, 0] 2400000).time) ∧ find (s []).bb.corrected 0 = none ∧
      ((s [4, 0, 1024, 4095]).issue = .part [4, 0, 1024, 4095] ∧ ((s []).work 0).wg (1024 / 1024) = some (group id)) ∧
      ((s [6, 0, 1, 0]).issue = .part [6, 0, 1, 0] ∧ ((s []).work 0).launch 1 = some programLaunch) ∧
      ((part [2, 0x200000 + 32 * 63 + 24, 2 ^ 64 - 1] paged).issue = .part [2, 0x200000 + 32 * 63 + 24, 2 ^ 64 - 1] ∧
        paged.pageOwner (0x200000 + 32 * 63 + 24) = some (0, 32 * 63 + 24) ∧ paged.pageOwner (0x200000 + 0x5000) = some (0, 0x5000) ∧
        paged.mayWrite 2 2 = true ∧ paged.mayWrite 1 2 = false ∧ paged.mayWrite 2 0 = true ∧ paged.mayWrite 16 0 = false) ∧ (s []).pageOwner 0x200000 = none ∧
      (part [16, 2 ^ 60 + 0x2008, 7] paged).issue = .part [16, 2 ^ 60 + 0x2008, 7] := by
  and_intros
  all_goals decide +kernel

/-! ## Words written out from the encoding tables (R151, R154, R155, R157) -/

/-- Every word of a table, of its class, is the instruction beside it. -/
def reads (ts : List (Nat × List Nat × Instr)) : Bool := ts.all fun e => decode e.1 e.2.1 == .instr e.2.2 e.2.1.length

def words_control_and_integer_0 : List (Nat × List Nat × Instr) := [
  (0, [0b00000000000000000000000000000000], .nop),
  (0, [0b00000000001000000000000000000000], .yield),
  (0, [0b00000000010000000000000000000000], .exit),
  (0, [0b00000000011000000000000000000000], .phase),
  (0, [0b10000000100000010100000000000110], .srd true 5 6),
  (0, [0b10000000101000010111000110000000], .callr true 5 99),
  (0, [0b10000000110000000011000110000000], .ret true 99),
  (0, [0b10000000111000000011000110000000], .jmpr true 99),
  (0, [0b10000001000000000000000000001011], .joinm true 11),
  (0, [0b10000001001000000000000000001011], .leavem true 11),
  (0, [0b10000001010000000000000000001011], .waitm true 11),
  (0, [0b10000001011000010100000000001011], .mskrd true 5 11)]
def words_control_and_integer_1 : List (Nat × List Nat × Instr) := [
  (0, [0b10000001100000000011000110001011], .mskwr true 99 11),
  (0, [0b10000010000000010111000110100010], .add true 5 99 34),
  (0, [0b10000010001000010111000110100010], .sub true 5 99 34),
  (0, [0b10000010010000010111000110100010], .mul true 5 99 34),
  (0, [0b10000010011000010111000110100010], .mulhs true 5 99 34),
  (0, [0b10000010100000010111000110100010], .mulhz true 5 99 34),
  (0, [0b10000010101000010111000110100010], .mad true 5 99 34),
  (0, [0b10000010110000010111000110100010], .addc true 5 99 34),
  (0, [0b10000010111000010111000110100010], .subb true 5 99 34),
  (0, [0b10000011000000010111000110000000], .abs true 5 99),
  (0, [0b10000011001000010111000110000000], .neg true 5 99),
  (0, [0b10000011010000010111000110100010], .mins true 5 99 34)]
def words_control_and_integer_2 : List (Nat × List Nat × Instr) := [
  (0, [0b10000011011000010111000110100010], .maxs true 5 99 34),
  (0, [0b10000011100000010111000110100010], .minz true 5 99 34),
  (0, [0b10000011101000010111000110100010], .maxz true 5 99 34),
  (0, [0b10000100000000010111000110100010], .divs true 5 99 34),
  (0, [0b10000100001000010111000110100010], .divz true 5 99 34),
  (0, [0b10000100010000010111000110100010], .rems true 5 99 34),
  (0, [0b10000100011000010111000110100010], .remz true 5 99 34),
  (0, [0b10000101101000010111000111010101], .cmpi true 13 5 99 85)]
theorem test_words_control_and_integer : reads words_control_and_integer_0 = true ∧ reads words_control_and_integer_1 = true ∧ reads words_control_and_integer_2 = true := by decide +kernel

def words_logic_shift_and_immediate_0 : List (Nat × List Nat × Instr) := [
  (0, [0b10000110000000010111000110100010], .and true 5 99 34),
  (0, [0b10000110001000010111000110100010], .or true 5 99 34),
  (0, [0b10000110010000010111000110100010], .xor true 5 99 34),
  (0, [0b10000110011000010111000110100010], .andn true 5 99 34),
  (0, [0b10000110100000010111000110000000], .not true 5 99),
  (0, [0b10000110101000010111000110000000], .popc true 5 99),
  (0, [0b10000110110000010111000110000000], .clz true 5 99),
  (0, [0b10000110111000010111000110000000], .ffs true 5 99),
  (0, [0b10000111000000010111000110000000], .brev true 5 99),
  (0, [0b10000111001000010111000110000000], .mov true 5 99),
  (0, [0b10000111010000010111000110100010], .sel true 5 99 34),
  (0, [0b10001000000000010111000110100010], .shl true 5 99 34)]
def words_logic_shift_and_immediate_1 : List (Nat × List Nat × Instr) := [
  (0, [0b10001000001000010111000110100010], .shr true 5 99 34),
  (0, [0b10001000010000010111000110100010], .sar true 5 99 34),
  (0, [0b10001000011000010111000110100010], .rot true 5 99 34),
  (0, [0b10001000100000010111000110100010], .bfes true 5 99 34),
  (0, [0b10001000101000010111000110100010], .bfez true 5 99 34),
  (0, [0b10001000110000010111000110100010], .bfi true 5 99 34),
  (0, [0b10001001000000010111000111000010], .shli true 5 99 66),
  (0, [0b10001001001000010111000111000010], .shri true 5 99 66),
  (0, [0b10001001010000010111000111000010], .sari true 5 99 66),
  (0, [0b10001001011000010111000111000010], .roti true 5 99 66),
  (0, [0b10001011001000010111000110100010], .cmp true 9 5 99 34),
  (0, [0b10001100000101110001110101010101], .addi true 5 99 1365)]
def words_logic_shift_and_immediate_2 : List (Nat × List Nat × Instr) := [
  (0, [0b10001110000101110001110101010101], .andi true 5 99 1365),
  (0, [0b10010000000101110001110101010101], .ori true 5 99 1365),
  (0, [0b10010010000101110001110101010101], .xori true 5 99 1365),
  (0, [0b10010100000101101010101000000001], .movi true 5 174593),
  (0, [0b10010110000101101010101000000001], .movhi true 5 174593),
  (0, [0b10011000000101101010101000000001], .lea true 5 174593),
  (0, [0b10011011010101010000000000000001], .bra true 22347777),
  (0, [0b10011101100011101010101000000001], .bz true 99 174593),
  (0, [0b10011111100011101010101000000001], .bnz true 99 174593)]
theorem test_words_logic_shift_and_immediate : reads words_logic_shift_and_immediate_0 = true ∧ reads words_logic_shift_and_immediate_1 = true ∧ reads words_logic_shift_and_immediate_2 = true := by decide +kernel

def words_float_and_conversion_0 : List (Nat × List Nat × Instr) := [
  (0, [0b10100000000000010111000110100010], .fadd true 5 99 34),
  (0, [0b10100000001000010111000110100010], .fsub true 5 99 34),
  (0, [0b10100000010000010111000110100010], .fmul true 5 99 34),
  (0, [0b10100000011000010111000110100010], .ffma true 5 99 34),
  (0, [0b10100000100000010111000110100010], .fmin true 5 99 34),
  (0, [0b10100000101000010111000110100010], .fmax true 5 99 34),
  (0, [0b10100000110000010111000110000000], .fabs true 5 99),
  (0, [0b10100000111000010111000110000000], .fneg true 5 99),
  (0, [0b10100010111000010111000110100010], .fcmp true 7 5 99 34),
  (0, [0b10100011000000010111000110000000], .fclass true 5 99),
  (0, [0b10100100000000010111000110000000], .frcp true 5 99),
  (0, [0b10100100001000010111000110000000], .frsq true 5 99)]
def words_float_and_conversion_1 : List (Nat × List Nat × Instr) := [
  (0, [0b10100100010000010111000110000000], .fsqrt true 5 99),
  (0, [0b10100100011000010111000110000000], .fexp2 true 5 99),
  (0, [0b10100100100000010111000110000000], .flog2 true 5 99),
  (0, [0b10100100101000010111000110000000], .fsin true 5 99),
  (0, [0b10100100110000010111000110000000], .fcos true 5 99),
  (0, [0b10100100111000010111000110000000], .ftanh true 5 99),
  (0, [0b10100110000000010111000110100010], .hadd2 true 5 99 34),
  (0, [0b10100110001000010111000110100010], .hmul2 true 5 99 34),
  (0, [0b10100110010000010111000110100010], .hfma2 true 5 99 34),
  (0, [0b10101000000000010111000110000000], .cvtBf16F32Lo true 5 99),
  (0, [0b10101000001000010111000110000000], .cvtBf16F32Hi true 5 99),
  (0, [0b10101000010000010111000110000000], .cvtF16F32Lo true 5 99)]
def words_float_and_conversion_2 : List (Nat × List Nat × Instr) := [
  (0, [0b10101000011000010111000110000000], .cvtF16F32Hi true 5 99),
  (0, [0b10101000100000010111000110100010], .cvtE4m3x2F32Lo true 5 99 34),
  (0, [0b10101000101000010111000110100010], .cvtE4m3x2F32Hi true 5 99 34),
  (0, [0b10101000110000010111000110100010], .cvtE5m2x2F32Lo true 5 99 34),
  (0, [0b10101000111000010111000110100010], .cvtE5m2x2F32Hi true 5 99 34),
  (0, [0b10101001000000010111000110000001], .cvtF32Bf16 true 5 99 1),
  (0, [0b10101001001000010111000110000001], .cvtF32F16 true 5 99 1),
  (0, [0b10101001010000010111000111000010], .cvtF32E4m3 true 5 99 66),
  (0, [0b10101001011000010111000111000010], .cvtF32E5m2 true 5 99 66),
  (0, [0b10101010011000010111000110000000], .cvtS32F32 true 3 5 99),
  (0, [0b10101010111000010111000110000000], .cvtZ32F32 true 3 5 99),
  (0, [0b10101011000000010111000110000000], .cvtF32S32 true 5 99)]
def words_float_and_conversion_3 : List (Nat × List Nat × Instr) := [
  (0, [0b10101011001000010111000110000000], .cvtF32Z32 true 5 99),
  (0, [0b10101011010000010111000110000000], .cvtF32S64 true 5 99),
  (0, [0b10101011011000010111000110000000], .cvtF32Z64 true 5 99),
  (0, [0b10101011100000010111000110000000], .cvtS64F32Rz true 5 99),
  (0, [0b10101011101000010111000110000000], .cvtZ64F32Rz true 5 99),
  (0, [0b10101100000000010111000110000000], .cvtS8S32Sat true 5 99),
  (0, [0b10101100001000010111000110000000], .cvtS16S32Sat true 5 99),
  (0, [0b10101100010000010111000110000000], .cvtZ8S32Sat true 5 99),
  (0, [0b10101100011000010111000110000000], .cvtZ16S32Sat true 5 99),
  (0, [0b10101100100000010111000110000000], .cvtZ8Z32Sat true 5 99),
  (0, [0b10101100101000010111000110000000], .cvtZ16Z32Sat true 5 99),
  (0, [0b10101100110000010111000110000000], .cvtS64S32 true 5 99)]
def words_float_and_conversion_4 : List (Nat × List Nat × Instr) := [
  (0, [0b10101100111000010111000110000000], .cvtZ64Z32 true 5 99),
  (0, [0b10101101000000010111000110000000], .cvtS32S64Sat true 5 99),
  (0, [0b10101101001000010111000110000000], .cvtZ32Z64Sat true 5 99),
  (0, [0b10101111000000010111000110000000], .qnt true 8 5 99),
  (0, [0b10110000000000010111000110000000], .dqnt true 5 99)]
theorem test_words_float_and_conversion : reads words_float_and_conversion_0 = true ∧ reads words_float_and_conversion_1 = true ∧ reads words_float_and_conversion_2 = true ∧ reads words_float_and_conversion_3 = true ∧ reads words_float_and_conversion_4 = true := by decide +kernel

def words_lanes_relations_and_work_0 : List (Nat × List Nat × Instr) := [
  (0, [0b00110100000000010111000110100010], .shfl 5 99 34),
  (0, [0b00110100001000010111000111000010], .bcast 5 99 66),
  (0, [0b00110100010000010111000110001011], .vote 5 99 11),
  (0, [0b00110100011000010111000110000000], .matchLanes 5 99),
  (0, [0b00110101001000010111000110000000], .wred 9 5 99),
  (0, [0b00110101111000010111000110100010], .wscan 15 5 99 34),
  (0, [0b10110111000110000000001000000011], .group true 70 2 3),
  (0, [0b10111001000110110001101000000011], .join true 70 99 2 3),
  (0, [0b10111011000110110001100000000000], .park true 70 99),
  (0, [0b10111100000000010111000110000000], .relopen true 5 99),
  (0, [0b10111100001000010111000110000000], .relseal true 5 99),
  (0, [0b10111100010000010111000110000000], .relcnt true 5 99)]
def words_lanes_relations_and_work_1 : List (Nat × List Nat × Instr) := [
  (0, [0b10111100011000000011000111000011], .fork true 99 67),
  (0, [0b00111100100000000000000000000000], .rdv),
  (0, [0b10111110000000000011000110000000], .cpush true 99),
  (0, [0b10111110001000000011000110000000], .jcdec true 99),
  (0, [0b10111110010000010111000110000000], .dqpush true 5 99),
  (0, [0b10111110011000010100000000000000], .dqpop true 5),
  (0, [0b10111110100000010111000110000000], .dqsteal true 5 99),
  (0, [0b10111110101000000000000000100001], .reggrow true 33),
  (0, [0b10111110110000000000000000100001], .regshrink true 33),
  (0, [0b10111110111000010111000110000000], .launch true 5 99)]
theorem test_words_lanes_relations_and_work : reads words_lanes_relations_and_work_0 = true ∧ reads words_lanes_relations_and_work_1 = true := by decide +kernel

def words_loads_and_stores_0 : List (Nat × List Nat × Instr) := [
  (0, [0b11000001010000010111000111010101], .ldS8 true 10 5 99 85),
  (0, [0b11000011010000010111000111010101], .ldZ8 true 10 5 99 85),
  (0, [0b11000101010000010111000111010101], .ldS16 true 10 5 99 85),
  (0, [0b11000111010000010111000111010101], .ldZ16 true 10 5 99 85),
  (0, [0b11001001010000010111000111010101], .ld true 10 5 99 85),
  (0, [0b11001011010000010111000111010101], .ld64 true 10 5 99 85),
  (0, [0b11001101010000010111000111010101], .ld128 true 10 5 99 85),
  (0, [0b11001111010000010111000111010101], .st8 true 10 5 99 85),
  (0, [0b11010001010000010111000111010101], .st16 true 10 5 99 85),
  (0, [0b11010011010000010111000111010101], .st true 10 5 99 85),
  (0, [0b11010101010000010111000111010101], .st64 true 10 5 99 85),
  (0, [0b11010111010000010111000111010101], .st128 true 10 5 99 85)]
def words_loads_and_stores_1 : List (Nat × List Nat × Instr) := [
  (0, [0b11011001010000011000110100010110], .lds true 10 99 34 6),
  (0, [0b11011001010000111000110100010110], .lds64 true 10 99 34 6),
  (0, [0b11011001010001011000110100010110], .lds128 true 10 99 34 6),
  (0, [0b11011001010010011000110100010110], .sts true 10 99 34 6),
  (0, [0b11011001010010111000110100010110], .sts64 true 10 99 34 6),
  (0, [0b11011001010011011000110100010110], .sts128 true 10 99 34 6),
  (0, [0b11011011010000011000110100010110], .lda true 10 99 34 6),
  (0, [0b11011011010000111000110100010110], .lda64 true 10 99 34 6),
  (0, [0b11011011010010011000110100010110], .stl true 10 99 34 6),
  (0, [0b11011011010010111000110100010110], .stl64 true 10 99 34 6),
  (0, [0b01011100000000000000000000000000], .prefL2),
  (0, [0b01011100000010000000000000000000], .prefL1)]
theorem test_words_loads_and_stores : reads words_loads_and_stores_0 = true ∧ reads words_loads_and_stores_1 = true := by decide +kernel

def words_atomics_and_multicast_0 : List (Nat × List Nat × Instr) := [
  (0, [0b11011111010100011000110100010110], .radd true 10 8 99 34 6),
  (0, [0b11100001010000010111000110100010], .atomAdd true 10 5 99 34),
  (0, [0b11100011010000010111000110100010], .atomF32 true 10 5 99 34),
  (0, [0b11100101010000010111000110100010], .atomMins true 10 5 99 34),
  (0, [0b11100111010000010111000110100010], .atomMaxs true 10 5 99 34),
  (0, [0b11101001010000010111000110100010], .atomMinz true 10 5 99 34),
  (0, [0b11101011010000010111000110100010], .atomMaxz true 10 5 99 34),
  (0, [0b11101101010000010111000110100010], .atomAnd true 10 5 99 34),
  (0, [0b11101111010000010111000110100010], .atomOr true 10 5 99 34),
  (0, [0b11110001010000010111000110100010], .atomXor true 10 5 99 34)]
theorem test_words_atomics_and_multicast : reads words_atomics_and_multicast_0 = true := by decide +kernel

def words_sync_and_system_0 : List (Nat × List Nat × Instr) := [
  (0, [0b11110011010000010111000110100010], .atomExch true 10 5 99 34),
  (0, [0b11110101010000010111000110100010], .atomCas true 10 5 99 34),
  (0, [0b01110110000000000000000000000000], .fence),
  (0, [0b11110110001000000011000110100010], .xfence true 99 34),
  (0, [0b11110110010000000000000000100011], .lbar true 35),
  (0, [0b11110110011000000011000110100010], .sppin true 99 34),
  (0, [0b11110110100000000011000110100010], .spunpin true 99 34),
  (0, [0b11110110101000000011000110100010], .rbpush true 99 34),
  (0, [0b11110110110000010111000110000000], .rbpop true 5 99),
  (0, [0b11110110111000010111000110100010], .rbfree true 5 99 34),
  (0, [0b11110111000000010100000001000010], .tqpop true 5 66),
  (0, [0b11111000000000000011000110100010], .gsig true 99 34)]
def words_sync_and_system_1 : List (Nat × List Nat × Instr) := [
  (0, [0b11111000001000010111000110100010], .gwait true 5 99 34),
  (0, [0b11111000010000010111000110000000], .grd true 5 99),
  (0, [0b11111000011000010111000110100010], .gtry true 5 99 34),
  (0, [0b11111011010000011000110100010110], .mldr true 10 99 34 6),
  (0, [0b11111011010000111000110100010110], .mst true 10 99 34 6),
  (0, [0b01111100000000000000000000000000], .trap),
  (0, [0b01111100001000000000000000000000], .trapret),
  (0, [0b01111100010000000000000000000000], .bkpt),
  (0, [0b11111100011000010100000001000011], .csrr true 5 67),
  (0, [0b11111100100000000011000111000011], .csrw true 99 67),
  (0, [0b11111100101000000011000110100010], .tlbinv true 99 34),
  (0, [0b11111100110000000011000110100010], .cinv true 99 34)]
def words_sync_and_system_2 : List (Nat × List Nat × Instr) := [
  (0, [0b11111100111000010111000110100010], .tokxfer true 5 99 34),
  (0, [0b11111101000000000011000110100010], .clklock true 99 34),
  (0, [0b11111101001000000011000110000000], .sleep true 99),
  (0, [0b11111101010000000011000110100010], .watch true 99 34)]
theorem test_words_sync_and_system : reads words_sync_and_system_0 = true ∧ reads words_sync_and_system_1 = true ∧ reads words_sync_and_system_2 = true := by decide +kernel

def words_wide_forms_0 : List (Nat × List Nat × Instr) := [
  (0, [0b11111110001100000000010111000110, 2309737967], .addiWide true 5 99 2309737967),
  (0, [0b11111110001110000000010111000110, 2309737967], .andiWide true 5 99 2309737967),
  (0, [0b11111110010000000000010111000110, 2309737967], .oriWide true 5 99 2309737967),
  (0, [0b11111110010010000000010111000110, 2309737967], .xoriWide true 5 99 2309737967),
  (0, [0b11111110010100000000010100000000, 2309737967], .moviWide true 5 2309737967),
  (0, [0b11111110010110000000010100000000, 2309737967], .movhiWide true 5 2309737967),
  (0, [0b11111110011000000000010100000000, 2309737967], .leaWide true 5 2309737967),
  (0, [0b11111110110110000000010100000000, 2309737967], .groupWide true 5 2309737967),
  (0, [0b11111110111000000000010111000110, 2309737967], .joinWide true 5 99 2309737967),
  (0, [0b11111110111010000000010111000110, 2309737967], .parkWide true 5 99 2309737967),
  (0, [0b11111110000101101000010111000110, 4294967294], .cmpiWide true 13 5 99 4294967294),
  (0, [0b11111111111110000000000000000000, 64], .meet)]
def words_wide_forms_1 : List (Nat × List Nat × Instr) := [
  (0, [0b11111111111110001111111000000000, 4294967292], .call true 126 4294967292),
  (1, [0b01111110000010000001111100000000, 2147483649], .sliWide 31 2147483649)]
theorem test_words_wide_forms : reads words_wide_forms_0 = true ∧ reads words_wide_forms_1 = true := by decide +kernel

def words_sequencers_and_matrix_0 : List (Nat × List Nat × Instr) := [
  (1, [0b10000000000000010111000110000000], .smov true 5 99),
  (1, [0b10000000001000010111000110100010], .sadd true 5 99 34),
  (1, [0b00000000010000000000000000000000], .swait),
  (1, [0b10000000011000000011000110100010], .ssig true 99 34),
  (1, [0b10000000011000000111000110100010], .ssig64 true 99 34),
  (1, [0b10000000011000001011000110100010], .ssigAdd64 true 99 34),
  (1, [0b10000000100000010111000110000000], .slda true 5 99),
  (1, [0b10000000100000010111000110000001], .slda64 true 5 99),
  (1, [0b00000000101000000000000000000000], .endProg),
  (1, [0b10000010000101101010101000000001], .sli true 5 174593),
  (1, [0b10000101100011101010101000000001], .sbnz true 99 174593),
  (1, [0b10000111100011101010101000000001], .sloop true 99 174593)]
def words_sequencers_and_matrix_1 : List (Nat × List Nat × Instr) := [
  (1, [0b10100001000000010111000110000000], .tcfg true true 5 99),
  (1, [0b10100011000000010100000000000000], .tzero true true 5),
  (1, [0b10100011001000010100000000100010], .tzeroRows true true 5 34),
  (1, [0b10100101000000010111000110100010], .twr true true 5 99 34),
  (1, [0b10100111000000010111000110000000], .mma true true 5 99),
  (1, [0b10101001000000010111000110000000], .mmas true true 5 99),
  (1, [0b10101011000000010111000110000000], .mmao true true 5 99),
  (1, [0b10101101000000010111000110100010], .accrd true true 5 99 34),
  (1, [0b10101101001000010111000110100010], .accrdClr true true 5 99 34),
  (1, [0b10101111000000010100000000000000], .accnorm true true 5),
  (1, [0b10101111001000010100000000100010], .accnormRows true true 5 34),
  (1, [0b10110001000000010111000110100010], .acchrRow true true 5 99 34)]
def words_sequencers_and_matrix_2 : List (Nat × List Nat × Instr) := [
  (1, [0b10110001001000010111000110100010], .acchrExp true true 5 99 34),
  (1, [0b10110001010000010111000110000000], .acchrTile true true 5 99),
  (1, [0b10110011000000000011000110000000], .msync true true 99)]
theorem test_words_sequencers_and_matrix : reads words_sequencers_and_matrix_0 = true ∧ reads words_sequencers_and_matrix_1 = true ∧ reads words_sequencers_and_matrix_2 = true := by decide +kernel

def words_copy_collective_and_control_0 : List (Nat × List Nat × Instr) := [
  (2, [0b10100001000000010111000110100010], .cpy true true 5 99 34),
  (2, [0b10100011010000010111000110100010], .cpym true true 2 5 99 34),
  (2, [0b10100101000000010111000110100010], .gather true true 5 99 34),
  (2, [0b10100111000000010111000110100010], .scatter true true 5 99 34),
  (2, [0b10101001000000000011000110100010], .stage true true 99 34),
  (2, [0b10101011000000010111000110100010], .emblk true true 5 99 34),
  (2, [0b10101101000000010111000110100010], .topk true true 5 99 34),
  (3, [0b10100001000000000011000110000000], .coll true true 99),
  (3, [0b10100011000000000011000110100010], .agset true true 99 34),
  (3, [0b10100101000000010111000110000000], .egjoin true true 5 99),
  (3, [0b10100111000000010111000110000000], .egleave true true 5 99),
  (3, [0b10101000000000000011000110000000], .ttop true 99)]
def words_copy_collective_and_control_1 : List (Nat × List Nat × Instr) := [
  (4, [0b10100000000000010100000000000000], .evpop true 5),
  (4, [0b10100010000000010100000000000000], .evwait true 5)]
theorem test_words_copy_collective_and_control : reads words_copy_collective_and_control_0 = true ∧ reads words_copy_collective_and_control_1 = true := by decide +kernel

/-! ## Well-formedness refuses -/

/-- One ill-formed term for every check of every shape of operands: the field is one past its bits, or names an unassigned variant. -/
def illFormed_0 : List Instr :=
  [.srd true 128 31, .srd true 127 32, .callr true 128 127, .callr true 127 128, .ret true 128,
   .joinm true 128, .mskrd true 128 127, .mskrd true 127 128, .mskwr true 128 127, .mskwr true 127 128,
   .add true 128 127 127, .add true 127 128 127, .add true 127 127 128, .cmpi true 16 127 127 127, .cmpi true 15 128 127 127,
   .cmpi true 15 127 128 127, .cmpi true 15 127 127 128, .cmpi true 5 127 127 127, .cmpiWide true 16 127 127 4294967295, .cmpiWide true 15 128 127 4294967295,
   .cmpiWide true 15 127 128 4294967295, .cmpiWide true 15 127 127 4294967296, .cmpiWide true 5 127 127 4294967295, .shli true 128 127 127, .shli true 127 128 127,
   .shli true 127 127 128, .cmp true 10 127 127 127, .cmp true 9 128 127 127, .cmp true 9 127 128 127, .cmp true 9 127 127 128]
def illFormed_1 : List Instr :=
  [.addi true 128 127 2047, .addi true 127 128 2047, .addi true 127 127 2048, .addiWide true 128 127 4294967295, .addiWide true 127 128 4294967295,
   .addiWide true 127 127 4294967296, .movi true 128 262143, .movi true 127 262144, .moviWide true 128 4294967295, .moviWide true 127 4294967296,
   .bra true 33554432, .bz true 128 262143, .bz true 127 262144, .fcmp true 8 127 127 127, .fcmp true 7 128 127 127,
   .fcmp true 7 127 128 127, .fcmp true 7 127 127 128, .cvtF32Bf16 true 128 127 127, .cvtF32Bf16 true 127 128 127, .cvtF32Bf16 true 127 127 128,
   .cvtS32F32 true 4 127 127, .cvtS32F32 true 3 128 127, .cvtS32F32 true 3 127 128, .qnt true 9 127 127, .qnt true 8 128 127,
   .qnt true 8 127 128, .shfl 128 127 127, .shfl 127 128 127, .shfl 127 127 128, .bcast 128 127 127]
def illFormed_2 : List Instr :=
  [.bcast 127 128 127, .bcast 127 127 128, .vote 128 127 127, .vote 127 128 127, .vote 127 127 128,
   .matchLanes 128 127, .matchLanes 127 128, .wred 10 127 127, .wred 9 128 127, .wred 9 127 128,
   .wred 3 127 127, .wscan 16 127 127 127, .wscan 15 128 127 127, .wscan 15 127 128 127, .wscan 15 127 127 128,
   .wscan 9 127 127 127, .group true 128 7 255, .group true 127 8 255, .group true 127 7 256, .groupWide true 128 4294967295,
   .groupWide true 127 4294967296, .join true 128 127 7 255, .join true 127 128 7 255, .join true 127 127 8 255, .join true 127 127 7 256,
   .joinWide true 128 127 4294967295, .joinWide true 127 128 4294967295, .joinWide true 127 127 4294967296, .park true 128 127, .park true 127 128]
def illFormed_3 : List Instr :=
  [.fork true 128 127, .fork true 127 128, .dqpop true 128, .reggrow true 128, .ldS8 true 16 127 127 127,
   .ldS8 true 15 128 127 127, .ldS8 true 15 127 128 127, .ldS8 true 15 127 127 128, .lds true 16 127 127 7, .lds true 15 128 127 7,
   .lds true 15 127 128 7, .lds true 15 127 127 8, .radd true 16 8 127 127 7, .radd true 15 9 127 127 7, .radd true 15 8 128 127 7,
   .radd true 15 8 127 128 7, .radd true 15 8 127 127 8, .atomAdd true 16 127 127 127, .atomAdd true 15 128 127 127, .atomAdd true 15 127 128 127,
   .atomAdd true 15 127 127 128, .xfence true 128 127, .xfence true 127 128, .lbar true 128, .tqpop true 128 127,
   .tqpop true 127 128, .csrr true 128 127, .csrr true 127 128, .sliWide 128 4294967295, .sliWide 127 4294967296]
def illFormed_4 : List Instr :=
  [.tcfg true true 128 127, .tcfg true true 127 128, .tzero true true 128, .tzeroRows true true 128 127, .tzeroRows true true 127 128,
   .twr true true 128 127 127, .twr true true 127 128 127, .twr true true 127 127 128, .msync true true 128, .cpym true true 3 127 127 127,
   .cpym true true 2 128 127 127, .cpym true true 2 127 128 127, .cpym true true 2 127 127 128, .stage true true 128 127, .stage true true 127 128]
/-- The same shapes with every field at the end of its range. -/
def wellFormed_0 : List Instr :=
  [.srd true 127 31, .callr true 127 127, .ret true 127, .joinm true 127, .mskrd true 127 127,
   .mskwr true 127 127, .add true 127 127 127, .cmpi true 15 127 127 127, .cmpi true 6 127 127 127, .cmpiWide true 15 127 127 4294967295,
   .cmpiWide true 6 127 127 4294967295, .shli true 127 127 127, .cmp true 9 127 127 127, .addi true 127 127 2047, .addiWide true 127 127 4294967295,
   .movi true 127 262143, .moviWide true 127 4294967295, .bra true 33554431, .bz true 127 262143, .fcmp true 7 127 127 127,
   .cvtF32Bf16 true 127 127 127, .cvtS32F32 true 3 127 127, .qnt true 8 127 127, .shfl 127 127 127, .bcast 127 127 127,
   .vote 127 127 127, .matchLanes 127 127, .wred 9 127 127, .wred 4 127 127, .wscan 15 127 127 127]
def wellFormed_1 : List Instr :=
  [.wscan 10 127 127 127, .group true 127 7 255, .groupWide true 127 4294967295, .join true 127 127 7 255, .joinWide true 127 127 4294967295,
   .park true 127 127, .fork true 127 127, .dqpop true 127, .reggrow true 127, .ldS8 true 15 127 127 127,
   .lds true 15 127 127 7, .radd true 15 8 127 127 7, .atomAdd true 15 127 127 127, .xfence true 127 127, .lbar true 127,
   .tqpop true 127 127, .csrr true 127 127, .sliWide 127 4294967295, .tcfg true true 127 127, .tzero true true 127,
   .tzeroRows true true 127 127, .twr true true 127 127 127, .msync true true 127, .cpym true true 2 127 127 127, .stage true true 127 127]
theorem test_wf_refuses : (illFormed_0 ++ illFormed_1 ++ illFormed_2 ++ illFormed_3 ++ illFormed_4).all (fun i => !i.wf) = true := by decide +kernel
theorem test_wf_accepts : (wellFormed_0 ++ wellFormed_1).all (fun i => i.wf) = true := by decide +kernel

/-! ## Steps -/

/-- ADDI v5, v3, −1; MMA; both after reset, and behind a register write that a step has brought about. -/
def running : State := State.reset.withProgram 0x0C141FFF 0
def matrixRunning : State := State.reset.withProgram 0x27008280 0
def followed : State := { running with follow := [⟨.qwptrWrite, [2, 0, 63, 1]⟩] }
def late : State := running.modWork 0 fun w => { w with items := [⟨1, 2, 3, 0, 3, false, false, .units 0 1⟩] }
def eventFirst : State := { running with tape := [(running.turns.findIdx? fun t => match t with | .event _ => true | _ => false).getD 0] }

/-- The lane of `running` before the clause header at 0x20000. -/
def entering : State :=
  { running.modWarp 0 1 0 fun w => w.modLanes [0] fun x => { x with cur := ⟨0x20000, true, 0, none⟩ } with
    mem := ⟨writeCells [] (programTables ++ located 0x20000 (bytesOf 4 0x7FFF81)), [], []⟩ }

/-- A SIMT turn, a sequencer's turn, an event's, a step that follows another, and one that a passed time forces. -/
theorem witness_StepRunsTheDecodedInstruction :
    let word : State → Agent → Nat → Prop := fun s g w => (s.memLoc g .fetch 0x20000 4 false).toOption = some (.mem 0x20000 0x3F) ∧ leafFmt 0x3F ≠ 2 ∧
      s.placeOf g.p 0x20000 = .mem ∧ s.mem.poisoned 0x20000 4 = false ∧
      w = ofBytes [s.mem.byte 0x20000, s.mem.byte (0x20000 + 1), s.mem.byte (0x20000 + 2), s.mem.byte (0x20000 + 3)]
    (followed.follow = [⟨.qwptrWrite, [2, 0, 63, 1]⟩]) ∧
      (entering.follow = [] ∧ entering.headers.map (fun e => (e.1, e.2.1.id, e.2.2.1.wid, e.2.2.2)) = some (0, 1, 0, [0], 0x7FFF81)) ∧
      (({ late with cycle := 2 ^ 30 } : State).follow = [] ∧ ({ late with cycle := 2 ^ 30 } : State).headers = none ∧
        ({ late with cycle := 2 ^ 30 } : State).forced.isSome = true) ∧
      (running.follow = [] ∧ running.headers = none ∧ running.forced = none ∧ running.tape.headD 0 = 0 ∧ running.turns[0]? = some (.sched 0 0 0) ∧
        ((pickWarp (running.candidates 0 0 0) ((running.coreOf 0).last.getD 0 0)).any fun c =>
          c.w.pickGroup c.gs 0 == some ([0], running.groupNext 0 c.g c.w [0]) && !c.w.trap.hm && !(c.w.lane 0).cur.hdr &&
            (c.w.lane 0).cur.next == 0x20000) = true ∧
        word running ⟨0, dieOfSlice (sliceOfCore 0), 3, false⟩ 0x0C141FFF ∧ 0x0C141FFF / 2 ^ 25 % 64 ≠ 63 ∧
        decode 0 [0x0C141FFF] = .instr (.addi false 5 3 2047) 1) ∧
      (matrixRunning.follow = [] ∧ matrixRunning.headers = none ∧ matrixRunning.forced = none ∧ matrixRunning.turns[0]? = some (.seq 0 2) ∧
        ((matrixRunning.work 0).seqOf 2).any (fun q => q.cls == 1 && !q.cur.hdr && q.cur.next == 0x20000) = true ∧
        word matrixRunning ⟨0, 0, 3, false⟩ 0x27008280 ∧ decode 1 [0x27008280] = .instr (.mma false true 2 5) 1) ∧
      (eventFirst.follow = [] ∧ eventFirst.headers = none ∧ eventFirst.forced = none ∧
        (match eventFirst.turns[eventFirst.tape.headD 0 % max 1 eventFirst.turns.length]? with
          | some (.event _) => true
          | _ => false) = true) := by
  and_intros <;> decide +kernel

theorem witness_StepKeepsMemoryCanonical :
    running.Canonical ∧ (match step running with | .next _ => true | _ => false) = true := by
  and_intros <;> decide +kernel

/-- The step of a program: the first word after reset runs, here ADDI v5, v3, −1 on v3 = 0, and the pc moves past it. -/
theorem test_step_runs_a_program :
    (match step (State.reset.withProgram 0x0C141FFF 0) with
      | .next t => ((t.warp 0 1 0).map fun w => ((w.lane 0).cur.pc.toNat, (w.reg 5 0).toNat)) == some (0x20004, 0xFFFFFFFF)
      | _ => false) = true := by decide +kernel

/-! ## The spec's own worked words -/

/-- Worked from R151, R154 and R155 in chapters 11 and 12. -/
def specWords_0 : List (Nat × List Nat × Instr) := [
  (0, [0x20618082], .ffma false 6 1 2), (0, [0x2821C080], .cvtBf16F32Hi false 7 1), (0, [0x35414203], .wscan 10 5 4 3),
  (0, [0x58080C00], .sts false 0 3 0 0), (0, [0x5A001008], .lda false 0 4 1 0), (0, [0x5E020828], .radd false 0 1 2 5 0),
  (0, [0x74018108], .atomCas false 0 6 2 8), (0, [0x76200100], .xfence false 2 0), (0, [0x76400000], .lbar false 0),
  (0, [0x78228308], .gwait false 10 6 8), (0, [0x340B12AB], .shfl 44 37 43), (0, [0x04CBD51F], .cmpi false 6 47 42 31),
  (0, [0x58009D40], .lds false 0 39 40 0), (0, [0x1800002F], .lea false 0 47), (0, [0x72028003], .atomExch false 0 10 0 3),
  (0, [0x1C28000B], .bz false 10 11), (0, [0x5A083041], .stl false 0 12 8 1), (0, [0x00200000], .yield), (0, [0x1BFFFFFC], .bra false 0x1FFFFFC),
  (0, [0x1E28000B], .bnz false 10 11)]
/-- Of chapters 14, 16, 22 to 28. -/
def specWords_1 : List (Nat × List Nat × Instr) := [
  (0, [0x36000001], .group false 0 0 1), (0, [0x38044802], .join false 1 9 0 2), (0, [0x3A004800], .park false 0 9), (0, [0x3C20C480], .relseal false 3 9),
  (0, [0x3C600402], .fork false 8 2), (0, [0x3C800000], .rdv), (0, [0x3E000200], .cpush false 4), (0, [0x3E200100], .jcdec false 2),
  (0, [0x3E618000], .dqpop false 6), (0, [0x3EA0000C], .reggrow false 12), (0, [0x3EE28600], .launch false 10 12), (0, [0xBC02C500], .relopen true 11 10),
  (0, [0x7C000005], .trap), (0, [0x7C200000], .trapret), (0, [0x7C400000], .bkpt), (0, [0x7C610009], .csrr false 4 9), (0, [0x7C800303], .csrw false 6 3),
  (0, [0x7CA00105], .tlbinv false 2 5), (0, [0x7D200100], .sleep false 2), (0, [0x7D400105], .watch false 2 5), (0, [0x4C010400], .ld128 false 0 4 8 0),
  (0, [0x56050400], .st128 false 0 20 8 0), (0, [0x20458309], .fmul false 22 6 9), (0, [0x16602000], .movhi false 24 0x2000),
  (0, [0x09030998], .shli false 12 19 24), (0, [0x7A002860], .mldr false 0 10 12 0), (0, [0x22C3460C], .fcmp false 6 13 12 12),
  (0, [0x0C202900], .addi false 8 5 256), (0, [0x78000209], .gsig false 4 9), (0, [0x48050900], .ld false 0 20 18 0)]
/-- Of chapters 13, 15, 23 and 27: the classes of the engines. -/
def specWords_2 : List (Nat × List Nat × Instr) := [
  (1, [0x20000100], .tcfg false false 0 2), (1, [0x22000000], .tzero false false 0), (1, [0x2400C50B], .twr false false 3 10 11),
  (1, [0x26000200], .mma false false 0 4), (1, [0x28004200], .mmas false false 1 4), (1, [0x2A008300], .mmao false false 2 6),
  (1, [0x2C200409], .accrdClr false false 0 8 9), (1, [0x2E000000], .accnorm false false 0), (1, [0x3000C005], .acchrRow false false 3 0 5),
  (1, [0x30228009], .acchrExp false false 10 0 9), (1, [0x3042C000], .acchrTile false false 11 0), (1, [0x32000380], .msync false false 7),
  (2, [0x20008004], .cpy false false 2 0 4), (2, [0x21008004], .cpy false true 2 0 4), (2, [0x24008008], .gather false false 2 0 8),
  (2, [0x28000206], .stage false false 4 6), (3, [0x20000200], .coll false false 4), (3, [0x22000002], .agset false false 0 2),
  (4, [0x22010000], .evwait false 4), (2, [0x00400000], .swait), (3, [0x00600309], .ssig false 6 9), (4, [0x00804300], .slda false 1 6),
  (1, [0x00A00000], .endProg), (2, [0x02100064], .sli false 4 100), (3, [0x0617FFFD], .sloop false 5 0x3FFFD), (1, [0x00210206], .sadd false 4 4 6)]
theorem test_spec_words : reads specWords_0 = true ∧ reads specWords_1 = true ∧ reads specWords_2 = true := by decide +kernel

/-- Clause headers of the listings: fields in the order of the structure. -/
theorem test_spec_headers :
    decodeHeader 0x007FFF93 = ⟨0, false, false, 15, 15, 15, 15, 1, 3⟩ ∧ decodeHeader 0x007FFFA2 = ⟨0, false, false, 15, 15, 15, 15, 2, 2⟩ ∧
      decodeHeader 0x0007FF81 = ⟨0, false, false, 0, 15, 15, 15, 0, 1⟩ ∧ decodeHeader 0x007FFFB2 = ⟨0, false, false, 15, 15, 15, 15, 3, 2⟩ := by decide

/-- Unassigned majors and FN, unused fields, wide forms that stand for nothing (R152, R155, R156, R157). -/
theorem test_decode_refuses :
    decode 0 [0x19 * 2 ^ 25] = .bad .unassignedMajor ∧ decode 1 [0x1A * 2 ^ 25] = .bad .unassignedMajor ∧ decode 4 [0x12 * 2 ^ 25] = .bad .unassignedMajor ∧
      decode 0 [13 * 2 ^ 21] = .bad .unassignedFn ∧ decode 0 [2 * 2 ^ 25 + 4 * 2 ^ 21] = .bad .unassignedFn ∧ decode 0 [2 ^ 14] = .bad .unusedField ∧
      decode 0 [2 ^ 25 + 8 * 2 ^ 21 + 1] = .bad .unusedField ∧ decode 0 [63 * 2 ^ 25 + 13 * 2 ^ 19, 0] = .bad .wideForm ∧
      decode 0 [63 * 2 ^ 25 + 10 * 2 ^ 19 + 2, 0] = .bad .unusedField ∧ decode 3 [63 * 2 ^ 25 + 2 ^ 19] = .bad .literalMissing := by decide

/-! ## The spec's worked results -/

/-- The table after R209. -/
theorem test_float_examples :
    fadd 0x4B800000 0x3F800000 = 0x4B800000 ∧ fmul 0x1A000000 0x1A000000 = 0 ∧ fmin 0x80000000 0 = 0x80000000 ∧
      fcondition 0 0 0x80000000 = true ∧ Fmt.bf16.round (f32 0x3F808000) = 0x3F80 ∧ Fmt.bf16.round (f32 0x7F7FFFFF) = 0x7F80 ∧
      fp8Pair .e4m3 0x43FA0000 0x7F800000 = 0x7E7E ∧ toIntSat 0 (-(2 ^ 31)) (2 ^ 31 - 1) (f32 0x40200000) = 2 ∧
      toIntSat 2 (-(2 ^ 31)) (2 ^ 31 - 1) (f32 0xC0200000) = -3 ∧ toIntSat 1 (-(2 ^ 31)) (2 ^ 31 - 1) (f32 0x4F32D05E) = 0x7FFFFFFF ∧
      toIntSat 0 0 (2 ^ 32 - 1) (f32 0x7FC00000) = 0 := by decide +kernel

/-- The block of R84: 3, −2, four zeros but for 40 at element 5, from the tail. -/
theorem test_tagged_block :
    let v := 0x44 + 0x81 * 2 ^ 8 + 0xE3 * 2 ^ 16 + 2 ^ 272 + 0x05 * 2 ^ 280 + 0x20 * 2 ^ 288 + 0x42 * 2 ^ 296
    ((decodeBlock v).map fun d => (d.elems.take 6).map Fmt.f32.round) = some [0x40400000, 0xC0000000, 0, 0, 0, 0x42200000] := by decide +kernel

/-- The row of chapter 13's worked example: −32 at exponent −5, then 1,920 at −4; 119 is read as 0x42EE0000. -/
theorem test_accumulator_row :
    let col : Int → Int → List Pair := fun x e => (x, e) :: List.replicate 63 (0, e)
    let r1 := (TileRow.reset (-2048)).apply 4 (.add (col (-32) (-5)))
    let r2 := r1.apply 4 (.add (col 1920 (-4)))
    (r1.m.headD 0 = -0x800000000 ∧ r1.e = -35 ∧ r1.l = 0 ∧ r1.read 0 0 = 0xBF800000) ∧
      (r2.m.headD 0 = 0x0770000000 ∧ r2.e = -28 ∧ r2.l = 0 ∧ r2.read 0 0 = 0x42EE0000) := by decide +kernel

/-! ## Single instructions, by hand from the rules cited -/

/-- The state after an instruction of the lanes `ls`; the state after reset stands for a stop. -/
def after (i : Instr) (s : State) : State :=
  match exec i s with
  | .next t => t
  | _ => State.reset
def given (w : Nat) (vs : List (Nat × Word × Word)) : State := simt [0, 1] w 0 (regs vs)
def result (i : Instr) (vs : List (Nat × Word × Word)) (r : Nat) : List Word :=
  (((after i (given 0 vs)).warp 0 1 0).map fun w => [w.reg r 0, w.reg r 1]).getD []

/-- R181, R182: wrap, the high half of signed and unsigned products, the carry into the high word. -/
theorem test_arithmetic :
    result (.add false 3 1 2) [(1, 0xFFFFFFFF, 1), (2, 2, 2)] 3 = [1, 3] ∧ result (.sub false 3 1 2) [(1, 0, 5), (2, 1, 3)] 3 = [0xFFFFFFFF, 2] ∧
      result (.mulhs false 3 1 2) [(1, 0xFFFFFFFF, 0x80000000), (2, 1, 0x80000000)] 3 = [0xFFFFFFFF, 0x40000000] ∧
      result (.mulhz false 3 1 2) [(1, 0xFFFFFFFF, 0x80000000), (2, 0xFFFFFFFF, 2)] 3 = [0xFFFFFFFE, 1] ∧
      result (.mad false 1 1 2) [(1, 3, 4), (2, 5, 6)] 1 = [18, 28] ∧
      result (.addc false 4 0 2) [(0, 0xFFFFFFFF, 1), (1, 0, 7), (2, 1, 1), (3, 0, 0)] 5 = [1, 7] ∧
      result (.subb false 4 0 2) [(0, 0, 5), (1, 1, 0), (2, 1, 6), (3, 0, 0)] 5 = [0, 0xFFFFFFFF] := by decide +kernel

/-- R183 to R191: division's corners, shifts of 32 and more, a field that ends at bit 31, an immediate read as Z32. -/
theorem test_division_shifts_and_fields :
    result (.divs false 3 1 2) [(1, 0x80000000, 7), (2, 0xFFFFFFFF, 0)] 3 = [0x80000000, 0xFFFFFFFF] ∧
      result (.rems false 3 1 2) [(1, 0xFFFFFFF9, 7), (2, 2, 0)] 3 = [0xFFFFFFFF, 7] ∧
      result (.shl false 3 1 2) [(1, 1, 3), (2, 31, 32)] 3 = [0x80000000, 0] ∧ result (.sar false 3 1 2) [(1, 0x80000000, 1), (2, 40, 40)] 3 = [0xFFFFFFFF, 0] ∧
      result (.rot false 3 1 2) [(1, 0x80000001, 5), (2, 33, 32)] 3 = [3, 5] ∧ result (.bfes false 3 1 2) [(1, 0xF0000000, 0x80), (2, 0x0A1C, 0x0107)] 3 = [0xFFFFFFFF, 0xFFFFFFFF] ∧
      result (.clz false 3 1) [(1, 0, 1)] 3 = [32, 31] ∧ result (.ffs false 3 1) [(1, 0, 8)] 3 = [32, 3] ∧ result (.brev false 3 1) [(1, 1, 6)] 3 = [0x80000000, 0x60000000] ∧
      result (.cmpi false 12 3 1 127) [(1, 5, 0xFFFFFFFF)] 3 = [1, 0] := by decide +kernel

/-- R168, R166: CALLR links the next word and jumps; BZ moves only the lanes that it takes. -/
theorem test_branches :
    let pcs : State → List Nat := fun t => ((t.warp 0 1 0).map fun w => [((w.lane 0).cur.pc).toNat, ((w.lane 1).cur.pc).toNat]).getD []
    pcs (after (.bz false 1 3) (given 0 [(1, 0, 1)])) = [0x2000C, 0x20004] ∧
      pcs (after (.bra false 0x1FFFFFC) (given 0 [])) = [0x1FFF0, 0x1FFF0] := by decide +kernel

/-- R91: a load of 4 bytes at 2 modulo 4 raises the misaligned-access trap: the warp's handler has it, and nothing was loaded. -/
theorem test_misaligned_load_traps :
    ((after (.ld false 0 3 4 0) (given 0x48010200 [(4, 0x30002, 0x30002), (5, 0, 0)])).warp 0 1 0).map
      (fun w => (w.trap.cause.toNat, (w.lane 0).results.length)) = some (2 ^ causeAlignment, 0) := by decide +kernel

/-- R309, R310: a write of HSTATE keeps HLANE and SS, and refuses a reserved bit; a write of HPC needs a multiple of 4. -/
theorem test_hstate_write :
    let t : TrapState := (warp id).trap
    (t.writeHstate 8).isNone = true ∧ (t.writeHstate (31 * 256 + 16)).map (fun x => (x.hlane, x.ss)) = some (31, true) := by decide

/-- R388: lane 0's own store that clears its page's leaf still waits, and lane 0's walk reads it; lane 1's walk reads what stands. -/
theorem test_walk_reads_own_store :
    let c := ctx [0, 1] 77 0
    let s := (simt [0, 1] 77 0 id).modWork 0 fun x => { x with stores := [⟨1, 0, 1, 0, 0, 3, false, false, located 0x12000 [0, 0, 0, 0, 0, 0, 0, 0], none, false⟩] }
    [0, 1].map (fun l => (s.accCheck c (group id) (warp id) ⟨l, 0x30010, 4, .read, false⟩).map (·.1)) = [some causeTranslation, none] := by decide

end Sys2Proof.Tests
end

section
/-! FORK, RDV and the engine counter (R15, R142, R149, R273): what a sequencer's start and a waiter's release do to the work of a
partition, what each instruction answers, and the obligation put together from them. -/
namespace Sys2Proof.Machine

/-! ## Numbers in a row -/

theorem upto_eq_map_range (a n : Nat) : upto a n = (List.range n).map (a + ·) := by
  induction n generalizing a with
  | zero => rfl
  | succ n ih =>
    rw [upto, ih, List.range_succ_eq_map, List.map_cons, List.map_map]
    congr 1
    exact List.map_congr_left fun i _ => Nat.add_right_comm a 1 i

theorem upto_map {α : Type} (a n : Nat) (f : Nat → α) : (upto a n).map f = (List.range n).map fun i => f (a + i) := by
  rw [upto_eq_map_range, List.map_map]
  rfl

/-! ## What the start of a sequencer and the release of a waiter do to a partition's work -/

@[simp] theorem State.startOn_work (s : State) (p path q : Nat) : (s.startOn p path).work q = s.work q := rfl

/-- The sequencer of a class that a work-group forks under a launch: it stands at the launch's program (R15, R65). -/
def State.forked (s : State) (g : WorkGroup) (x : Launch) (cls priv : Nat) (sregs : List Word) (engine : Nat) : Seq where
  id := s.ids
  cls := cls
  wg := g.id
  cluster := clusterOfCore g.core
  seq := g.seq
  priv := priv
  base := (x.rcd.program cls).setWidth 56
  cur := Cursor.at ((x.rcd.program cls).setWidth 56)
  regs := sregs ++ List.replicate 24 0
  cmds := []
  ending := false
  stopped := false
  discard := false
  ttop := none
  engine := engine

/-- A start adds one sequencer, the newest, and changes no other work. -/
theorem State.startSeq_work {s : State} {p : Nat} {g : WorkGroup} {x : Launch} (h : (s.work p).launch g.seq = some x) (cls priv : Nat)
    (sregs : List Word) (engine : Nat) : (s.startSeq p g cls priv sregs engine).work p =
      { s.work p with seqs := (s.work p).seqs ++ [s.forked g x cls priv sregs engine] } := by
  simp only [State.startSeq, h, State.startOn_work, apply_ite (State.work · p), State.modCore_work, State.modWork_work_same,
    State.fresh_work, ite_self]
  rfl

@[simp] theorem Work.modWg_seqs (w : Work) (id : Nat) (f : WorkGroup → WorkGroup) : (w.modWg id f).seqs = w.seqs := rfl
@[simp] theorem Work.modWg_waiters (w : Work) (id : Nat) (f : WorkGroup → WorkGroup) : (w.modWg id f).waiters = w.waiters := rfl

@[simp] theorem State.releaseWaiter_seqs (s : State) (p : Nat) (x : Waiter) (vals : List (Nat × Word)) :
    ((s.releaseWaiter p x vals).work p).seqs = (s.work p).seqs := by
  simp [State.releaseWaiter, State.modWg]

@[simp] theorem State.releaseWaiter_waiters (s : State) (p : Nat) (x : Waiter) (vals : List (Nat × Word)) :
    ((s.releaseWaiter p x vals).work p).waiters = (s.work p).waiters.filter (· ≠ x) := by
  simp [State.releaseWaiter, State.modWg, bne, beq_eq_decide]

/-! ## FORK and RDV -/

/-- FORK past its checks: all that is left to decide is whether an engine is free. -/
theorem execFork_checked {s : State} {c : Ctx} {g : WorkGroup} {w : Warp} {x : Launch} {a cls : Nat} (hi : Issues s c g w)
    (hm : w.trap.hm = false) (hx : (s.work c.p).launch g.seq = some x) (hroom : (s.work c.p).engCountOf c.wg w < 63)
    (hlo : 1 ≤ cls) (hhi : cls ≤ 3) (ha : a ≤ 120) (hprog : x.rcd.program cls ≠ 0) (hcopy : cls = 2 → s.noCopyEngine c.p = false)
    (hregs : OperandsOk c w [c.l0] [] ((List.range 8).map fun i => (a + i, 1))) (u : Bool) :
    let sregs := (List.range 8).map fun i => w.reg (a + i) c.l0
    execFork u a cls s = (s.forkEngine c.p g cls).elim (.next (pendAt s c (.fork cls sregs)))
      fun e => .next (retire (s.startSeq c.p g cls g.priv sregs e) c) := by
  have hok : ¬(cls = 0 ∨ 3 < cls ∨ 120 < a ∨ x.rcd.program cls = 0 ∨ (cls = 2 ∧ s.noCopyEngine c.p = true)) := by
    rintro (h | h | h | h | ⟨h2, h⟩)
    · omega
    · omega
    · omega
    · exact hprog h
    · exact absurd (hcopy h2) (by simp [h])
  simp only [execFork, withGroup_issues hi, hm, Bool.false_eq_true, if_false, if_neg (Nat.not_le.mpr hroom), hx, if_neg hok, upto_map,
    withRegs_ok hregs]
  cases s.forkEngine c.p g cls <;> rfl

theorem execRdv_none_running {s : State} {c : Ctx} {g : WorkGroup} {w : Warp} (hi : Issues s c g w) (hm : w.trap.hm = false)
    (h : (s.work c.p).seqsOf c.wg = []) : execRdv s = .next (retire s c) := by
  simp [execRdv, withGroup_issues hi, hm, h]

theorem execRdv_running {s : State} {c : Ctx} {g : WorkGroup} {w : Warp} (hi : Issues s c g w) (hm : w.trap.hm = false)
    (h : (s.work c.p).seqsOf c.wg ≠ []) : execRdv s = .next (pendAt s c .rdv) := by
  simp [execRdv, withGroup_issues hi, hm, h]

/-! ## Steps of the part -/

theorem State.arg_part {s : State} {l : List Nat} (h : s.issue = .part l) (n : Nat) : s.arg n = l.getD n 0 := by
  simp only [State.arg, State.args, h]

/-- SEQUENCER_START for a waiter that has an engine now. -/
theorem execSequencerStart_engine {s : State} {p n cls e : Nat} {sregs : List Word} {wt : Waiter} {g : WorkGroup}
    (hp : s.issue = .part [p, n]) (hw : (s.work p).waiters[n]? = some wt) (hk : wt.kind = .fork cls sregs)
    (hg : (s.work p).wg wt.wg = some g) (he : s.forkEngine p g cls = some e) :
    execSequencerStart s = .next ((s.startSeq p g cls g.priv sregs e).releaseWaiter p wt []) := by
  simp only [execSequencerStart, State.arg_part hp, List.getD_cons_zero, List.getD_cons_succ, hw, hk, hg, he]

/-- A ticket is queued when some gate holds it. -/
theorem State.queuedTickets_contains (s : State) (t : Nat) :
    s.queuedTickets.contains t = s.gates.any fun e => e.2.queued.any fun q => q.2 == t := by
  rw [Bool.eq_iff_iff]
  simp [State.queuedTickets, List.mem_flatMap]

theorem execEngineCounterOperationComplete_part {s : State} {p wg wid : Nat} (hp : s.issue = .part [p, wg, wid]) :
    execEngineCounterOperationComplete s = .next (s.modWarp p wg wid fun w =>
      match w.eng.find? fun t => !(s.gates.any fun e => e.2.queued.any fun q => q.2 == t) with
      | some t => { w with eng := w.eng.filter (· ≠ t) }
      | none => w) := by
  simp only [execEngineCounterOperationComplete, State.arg_part hp, List.getD_cons_zero, List.getD_cons_succ,
    State.queuedTickets_contains, bne, beq_eq_decide, ne_eq, decide_not] <;> rfl

/-! ## The obligation -/

/-- Settles O36: each clause is what its instruction answers, read at the work that a start and a release leave. -/
theorem sequencersBegin : Obligations.SequencersBegin := by
  unfold Obligations.SequencersBegin
  refine ⟨fun u a cls s c g w hi hm => ⟨?fork, execRdv_none_running hi hm, execRdv_running hi hm⟩, ?start,
    fun s p wg wid hp => execEngineCounterOperationComplete_part hp⟩
  case fork =>
    intro x hx hroom hlo hhi ha hprog hcopy hregs
    have hfork := execFork_checked hi hm hx hroom hlo hhi ha hprog hcopy hregs u
    refine ⟨fun e he => ?_, fun he => ?_⟩
    · refine ⟨_, s.forked g x cls g.priv _ e, ?_, congrArg Work.seqs (State.startSeq_work hx cls g.priv _ e), rfl, rfl, rfl, rfl, rfl, rfl,
        rfl, rfl⟩
      rw [exec_fork, hfork, he, Option.elim_some]
    · rw [exec_fork, hfork, he, Option.elim_none]
      rfl
  case start =>
    intro s p n cls e sregs wt g x hp hw hk hg hx he
    refine ⟨_, s.forked g x cls g.priv sregs e, execSequencerStart_engine hp hw hk hg he, ?_, rfl, rfl, rfl, ?_⟩
    · rw [State.releaseWaiter_seqs, State.startSeq_work hx]
    · rw [State.releaseWaiter_waiters, State.startSeq_work hx]

end Sys2Proof.Machine
end

section
/-! Masks (R21, R22, R177): the bits of a mask, what each mask instruction answers, and the obligation put together from them. -/
namespace Sys2Proof.Machine

/-! ## The bits of a mask -/

theorem getLsbD_ofNat_two_pow {i : Nat} (hi : i < 32) (l : Nat) : (BitVec.ofNat 32 (2 ^ l)).getLsbD i = true ↔ i = l := by
  rw [BitVec.getLsbD_ofNat, Nat.testBit_two_pow]
  simp [hi, eq_comm]

/-- The mask of some lanes has their bits and no other. -/
theorem getLsbD_maskOf {i : Nat} (hi : i < 32) (ls : List Nat) : (maskOf ls).getLsbD i = true ↔ i ∈ ls := by
  suffices h : ∀ m : Word, (ls.foldl (fun m l => m ||| BitVec.ofNat 32 (2 ^ l)) m).getLsbD i = true ↔ m.getLsbD i = true ∨ i ∈ ls by
    simpa [maskOf] using h 0
  induction ls with
  | nil => simp
  | cons l r ih =>
    intro m
    rw [List.foldl_cons, ih, BitVec.getLsbD_or, Bool.or_eq_true, getLsbD_ofNat_two_pow hi, List.mem_cons, or_assoc]

theorem getLsbD_or_maskOf {i : Nat} (hi : i < 32) (m : Word) (ls : List Nat) :
    (m ||| maskOf ls).getLsbD i = true ↔ m.getLsbD i = true ∨ i ∈ ls := by
  rw [BitVec.getLsbD_or, Bool.or_eq_true, getLsbD_maskOf hi]

theorem getLsbD_andNot_maskOf {i : Nat} (hi : i < 32) (m : Word) (ls : List Nat) :
    (m &&& ~~~maskOf ls).getLsbD i = true ↔ m.getLsbD i = true ∧ i ∉ ls := by
  simp [hi, ← getLsbD_maskOf hi ls]

/-! ## What the mask instructions answer -/

section
variable {s : State} {c : Ctx} {g : WorkGroup} {w : Warp} {m : Nat} (hi : Issues s c g w)
include hi

theorem maskOp_inRange (hm : m ≤ 11) (f : Ctx → Warp → Word) :
    maskOp m f s = .next (retire (s.modWarp c.p c.wg c.wid fun x => x.setMask m (f c w)) c) := by
  rw [maskOp, withGroup_issues hi, if_neg (Nat.not_lt.mpr hm)]

theorem maskOp_outOfRange (hm : 11 < m) (f : Ctx → Warp → Word) : maskOp m f s = trapWord s c causeOperand := by
  rw [maskOp, withGroup_issues hi, if_pos hm]

theorem execMskrd_outOfRange (hm : 11 < m) (u : Bool) (d : Nat) : execMskrd u d m s = trapWord s c causeOperand := by
  rw [execMskrd, withGroup_issues hi, if_pos hm]

theorem execMskwr_outOfRange (hm : 11 < m) (u : Bool) (a : Nat) : execMskwr u a m s = trapWord s c causeOperand := by
  rw [execMskwr, withGroup_issues hi, if_pos hm]

theorem execWaitm_handler (hh : w.trap.hm = true) (u : Bool) : execWaitm u m s = trapWord s c causeIllegal := by
  rw [execWaitm, withGroup_issues hi, if_pos hh]

theorem execWaitm_outOfRange (hh : w.trap.hm = false) (hm : 11 < m) (u : Bool) : execWaitm u m s = trapWord s c causeOperand := by
  rw [execWaitm, withGroup_issues hi, if_neg (by simp [hh]), if_pos hm]

/-- WAITM outside a handler: the lanes of `heldBy` are held, the others go on. -/
theorem execWaitm_holds (hh : w.trap.hm = false) (hm : m ≤ 11) (u : Bool) :
    let held := c.lanes.filter fun l => w.heldBy l m
    execWaitm u m s = .next (retireTo
      (s.modWarp c.p c.wg c.wid fun v => v.modLanes held fun x => { x with hold := .waitm m x.mr }) c
      (c.lanes.filter fun l => l ∉ held)) := by
  simp [execWaitm, withGroup_issues hi, hh, Nat.not_lt.mpr hm]

end

/-! ## The obligation -/

/-- Settles O21: JOINM and LEAVEM by the bits of the masks they write, WAITM by the lanes that `heldBy` names, and the five traps. -/
theorem maskMembershipAndWaiting : Obligations.MaskMembershipAndWaiting := by
  unfold Obligations.MaskMembershipAndWaiting
  intro u d a m s c g w hi word
  refine ⟨fun hm => ?_, fun hm hh => ?_, fun hh => ?_, fun hm hh => ?_⟩
  · refine ⟨w.mask m ||| maskOf c.lanes, w.mask m &&& ~~~maskOf c.lanes,
      fun i h => ⟨getLsbD_or_maskOf h _ _, getLsbD_andNot_maskOf h _ _⟩, ?_, ?_⟩
    · rw [exec_joinm, execJoinm, maskOp_inRange hi hm]
    · rw [exec_leavem, execLeavem, maskOp_inRange hi hm]
  · exact execWaitm_holds hi hh hm u
  · rw [exec_waitm, execWaitm_handler hi hh]
    rfl
  · simp only [List.forall_mem_cons, List.not_mem_nil, false_imp_iff, implies_true, and_true]
    rw [exec_joinm, exec_leavem, exec_waitm, exec_mskrd, exec_mskwr, execJoinm, execLeavem, maskOp_outOfRange hi hm,
      maskOp_outOfRange hi hm, execWaitm_outOfRange hi hh hm, execMskrd_outOfRange hi hm, execMskwr_outOfRange hi hm]
    exact ⟨rfl, rfl, rfl, rfl, rfl⟩

end Sys2Proof.Machine
end

section
/-! Steps (R19, R24, R26, R148, R157, R167): what a fetch finds, what stands before an agent, and what each way of choosing a step runs. -/
namespace Sys2Proof.Machine

/-! ## What a fetch finds -/

/-- A read that synchronises finds the bytes that stand. -/
theorem lateBytes_synchronising (s : State) (a n : Nat) : s.lateBytes false (findsOn none) a n = s.mem.bytes a n :=
  lateBytes_current (fun _ _ _ => rfl) a n

/-- The word `w` stands in plain memory without poison where an agent's fetch at `va` leads, its walk reading `v` (R73). -/
def State.WordAt (s v : State) (g : Agent) (va : VAddr) (w : Nat) : Prop :=
  ∃ pa leaf, v.memLoc g .fetch va.toNat 4 false = .ok (.mem pa leaf) ∧ leafFmt leaf ≠ 2 ∧ s.placeOf g.p pa = .mem ∧
    s.mem.poisoned pa 4 = false ∧ w = ofBytes [s.mem.byte pa, s.mem.byte (pa + 1), s.mem.byte (pa + 2), s.mem.byte (pa + 3)]

theorem fetchWord_wordAt {s v : State} {g : Agent} {va : VAddr} {w : Nat} (h : s.WordAt v g va w) : s.fetchWord v g va = .ok w := by
  obtain ⟨pa, leaf, hloc, hfmt, hplace, hpoison, rfl⟩ := h
  simp only [State.fetchWord, hloc, State.fetchLoc, if_neg hfmt, hplace, if_true, hpoison, lateBytes_synchronising]
  rfl

/-- `i` with its word and literal stands before an agent of a class: a header that it has reached, a one-word instruction, or a wide one
whose literal lies inside the clause (R148, R157). -/
def State.Stands (s v : State) (g : Agent) (cls : Nat) (hdr : Bool) (va : VAddr) (rem : Nat) (i : Instr) (w lit : Nat) : Prop :=
  (hdr = true ∧ s.WordAt v g (va - 4) w ∧ i = .clauseHeader ∧ lit = 0) ∨
  (hdr = false ∧ s.WordAt v g va w ∧ w / 2 ^ 25 % 64 ≠ 63 ∧ lit = 0 ∧ ∃ n, decode cls [w] = .instr i n) ∨
  (hdr = false ∧ s.WordAt v g va w ∧ w / 2 ^ 25 % 64 = 63 ∧ 2 ≤ rem ∧ s.WordAt v g (va + 4) lit ∧ ∃ n, decode cls [w, lit] = .instr i n)

theorem lookAt_stands {s v : State} {g : Agent} {cls : Nat} {hdr : Bool} {va : VAddr} {rem : Nat} {i : Instr} {w lit : Nat}
    (h : s.Stands v g cls hdr va rem i w lit) : s.lookAt v g cls hdr va rem = .step i w lit := by
  obtain ⟨rfl, hw, rfl, rfl⟩ | ⟨rfl, hw, hsize, rfl, n, hdec⟩ | ⟨rfl, hw, hsize, hrem, hlit, n, hdec⟩ := h
  · simp only [State.lookAt, if_true, fetchWord_wordAt hw]
  · have hone : wordSize w = 1 := if_neg hsize
    simp only [State.lookAt, Bool.false_eq_true, if_false, fetchWord_wordAt hw, hone, if_true, hdec]
  · have htwo : wordSize w = 2 := if_pos hsize
    simp only [State.lookAt, Bool.false_eq_true, if_false, fetchWord_wordAt hw, htwo, OfNat.ofNat_ne_one, Nat.not_lt.mpr hrem,
      fetchWord_wordAt hlit, hdec]

/-- Where a group stands: in handler mode at the handler's cursor, else at its lowest lane's (R371). -/
def Warp.cursorOf (w : Warp) (ls : List Nat) : Cursor := if w.trap.hm then w.trap.hcur else (w.lane (ls.headD 0)).cur

theorem cursorOf_next (w : Warp) (ls : List Nat) :
    (w.cursorOf ls).next = if w.trap.hm then w.trap.hcur.next else (w.lane (ls.headD 0)).cur.next := apply_ite Cursor.next _ _ _

theorem atHeader_cursorOf (w : Warp) (ls : List Nat) :
    w.atHeader ls = if w.trap.hm then (w.cursorOf ls).hdr else ls.any fun l => (w.lane l).cur.hdr := by
  cases hm : w.trap.hm <;> simp [Warp.atHeader, Warp.cursorOf, hm]

theorem groupNext_stands {s : State} {p : Nat} {g : WorkGroup} {w : Warp} {ls : List Nat} {i : Instr} {word lit : Nat}
    (h : s.Stands (s.fetchView p g.id w.wid ls) (fetchAgent p g w) 0
      (if w.trap.hm then (w.cursorOf ls).hdr else ls.any fun l => (w.lane l).cur.hdr) (w.cursorOf ls).next (w.cursorOf ls).rem i word lit) :
    s.groupNext p g w ls = .step i word lit := by
  rw [← atHeader_cursorOf] at h
  exact lookAt_stands h

theorem seqNextOf_stands {s : State} {p : Nat} {q : Seq} {i : Instr} {word lit : Nat}
    (h : s.Stands s ⟨p, q.die, q.priv, false⟩ q.cls q.cur.hdr q.cur.next q.cur.rem i word lit) :
    s.seqNextOf p q = .step i word lit := lookAt_stands h

/-! ## The choice of a turn -/

/-- The turns among which a choice is made: all that are possible, or a scheduler that has waited for long alone (log 102). -/
def State.choices (s : State) : List Turn := s.overdue.elim s.turns fun t => [t]

/-- The number that names the turn and, in a scheduler's turn, the group: the head of the tape, or a free one (log 5). -/
def State.pick (s : State) : Nat := s.tape.headD (Config.freeTurn s.tick)

/-- The turn that the number names. -/
def State.chosen (s : State) : Option Turn := s.choices[s.pick % max 1 s.choices.length]?

/-- What the number has left over, by which a warp's group is picked. -/
def State.groupPick (s : State) : Nat := s.pick / max 1 s.choices.length

/-- The state in which a turn is taken: the head of the tape has been read, which no turn looks at again. -/
def State.readTape (s : State) : State := { s with tape := s.tape.tail }

theorem State.readTape_work (s : State) (p : Nat) : s.readTape.work p = s.work p := rfl
theorem State.readTape_coreOf (s : State) (c : Nat) : s.readTape.coreOf c = s.coreOf c := rfl
theorem State.readTape_candidates (s : State) (p core q : Nat) : s.readTape.candidates p core q = s.candidates p core q := rfl
theorem State.readTape_seqNextOf (s : State) (p : Nat) (q : Seq) : s.readTape.seqNextOf p q = s.seqNextOf p q := rfl

theorem take_sched {s : State} {p core q choice : Nat} {c : Cand} {ls : List Nat} {n : Next}
    (hc : pickWarp (s.candidates p core q) ((s.coreOf core).last.getD q 0) = some c) (hg : c.w.pickGroup c.gs choice = some (ls, n)) :
    s.take choice (.sched p core q) = (s.picked p core q (s.candidates p core q) c ls).takeGroup p c.g c.w ls n := by
  simp only [State.take, hc, hg]

theorem take_seq {s : State} {p id choice : Nat} {q : Seq} (hq : (s.work p).seqOf id = some q) :
    s.take choice (.seq p id) = s.takeSeq p q := by
  simp only [State.take, hq]

/-! ## What a step runs -/

theorem step_follow {s : State} {e : Input} {r : List Input} (h : s.follow = e :: r) :
    step s = exec e.step { s with follow := r, tick := s.tick + 1, issue := .part e.args } := by
  simp only [step, State.upcoming, h, runAct]

section
variable {s : State} (hf : s.follow = [])
include hf

theorem step_header {p : Nat} {g : WorkGroup} {w : Warp} {ls : List Nat} {word : Nat} (h : s.headers = some (p, g, w, ls, word)) :
    step s = exec .clauseHeader (s.takeHeader p g w ls word).1 := by
  simp only [step, State.upcoming, hf, h]
  rfl

variable (hh : s.headers = none)
include hh

theorem step_forced {e : Input} (h : s.forced = some e) : step s = exec e.step { s.passCycle with issue := .part e.args } := by
  simp only [step, State.upcoming, hf, hh, h]
  rfl

variable (hn : s.forced = none)
include hn

theorem upcoming_turn {t : Turn} (h : s.chosen = some t) : s.upcoming = s.readTape.take s.groupPick t := by
  simp only [State.chosen, State.choices, State.pick] at h
  simp only [State.readTape, State.groupPick, State.choices, State.pick]
  cases ho : s.overdue <;> simp only [ho, Option.elim_some, Option.elim_none] at h <;>
    simp only [State.upcoming, hf, hh, hn, ho, h, Option.elim_some, Option.elim_none]

theorem step_event {e : Input} (h : s.chosen = some (.event e)) :
    step s = exec e.step { s.readTape.passCycle with issue := .part e.args } := by
  rw [step, upcoming_turn hf hh hn h]
  rfl

theorem step_sched {p core q : Nat} {c : Cand} {ls : List Nat} {i : Instr} {w lit : Nat} (h : s.chosen = some (.sched p core q))
    (hc : pickWarp (s.candidates p core q) ((s.coreOf core).last.getD q 0) = some c)
    (hg : c.w.pickGroup c.gs s.groupPick = some (ls, .step i w lit)) :
    step s = exec i ((s.readTape.picked p core q (s.candidates p core q) c ls).takeGroup p c.g c.w ls (.step i w lit)).1 := by
  rw [← s.readTape_candidates, ← s.readTape_coreOf] at hc
  rw [step, upcoming_turn hf hh hn h, take_sched hc hg, s.readTape_candidates]
  rfl

theorem step_seq {p id : Nat} {q : Seq} {i : Instr} {w lit : Nat} (h : s.chosen = some (.seq p id))
    (hq : (s.work p).seqOf id = some q) (hs : s.seqNextOf p q = .step i w lit) :
    step s = exec i (s.readTape.passCycle.issuing s.readTape.passCycle (.seq p q.id w lit) p q.die q.cur.next.toNat) := by
  rw [← s.readTape_work] at hq
  rw [step, upcoming_turn hf hh hn h, take_seq hq, State.takeSeq, s.readTape_seqNextOf, hs]
  rfl

end

/-! ## The obligation -/

/-- Settles O3: what stands before the agent of a turn is what its bytes decode to (`lookAt_stands`), and the step executes it. -/
theorem stepRunsTheDecodedInstruction : Obligations.StepRunsTheDecodedInstruction := by
  unfold Obligations.StepRunsTheDecodedInstruction
  intro s holds stands k ts n s0
  have hts : ts = s.choices := by
    cases ho : s.overdue <;> simp only [ts, State.choices, ho, Option.elim_some, Option.elim_none]
  have hn : n = max 1 s.choices.length := by rw [← hts]
  have hchosen : ts[k % n]? = s.chosen := by rw [hn, hts]; rfl
  have hpick : k / n = s.groupPick := by rw [hn]; rfl
  rw [hchosen, hpick]
  refine ⟨fun e r => step_follow, fun hf p g w ls word => step_header hf, fun hf hh e => step_forced hf hh,
    fun hf hh hn => ⟨fun e => step_event hf hh hn, ?sched, ?seq⟩⟩
  case sched =>
    intro p core q c ls i w lit h hc hg cur s1 hs
    have hnext : s.groupNext p c.g c.w ls = .step i w lit := groupNext_stands hs
    rw [hnext] at hg
    have hva : cur.next = _ := cursorOf_next c.w ls
    rw [step_sched hf hh hn h hc hg, hva]
    rfl
  case seq =>
    intro p id q i w lit h hq hs
    exact step_seq hf hh hn h hq (seqNextOf_stands hs)

end Sys2Proof.Machine
end

section
/-! Frames (R58, R62, R65, R153, R369): what a group's answer, a load's answer, a trap and a sequencer's change leave as it was, each from
what its updates of work-groups and warps keep, and the obligation put together from them. -/
namespace Sys2Proof.Machine

/-! ## Work-groups and states that hold the same registers -/

/-- What a warp holds that the statements below read: its number, its masks, and what its registers read. -/
def Warp.held (w : Warp) : Nat × List Word × Map Word × Fill × Nat := (w.wid, w.masks, w.regs, w.fill, w.zeroed)

theorem Warp.held_eq_iff {v w : Warp} : v.held = w.held ↔ v.SameRegs w := by simp [Warp.held, Warp.SameRegs]

theorem map_reg_of_held {a b : Option Warp} (h : a.map Warp.held = b.map Warp.held) (r l : Nat) :
    a.map (·.reg r l) = b.map (·.reg r l) := by
  cases a <;> cases b <;> simp only [Option.map_none, Option.map_some, reduceCtorEq, Option.some.injEq] at h ⊢
  obtain ⟨-, -, hregs, hfill, hzeroed⟩ := Warp.held_eq_iff.mp h
  exact reg_congr hregs hfill hzeroed r l

theorem map_masks_of_held {a b : Option Warp} (h : a.map Warp.held = b.map Warp.held) : a.map (·.masks) = b.map (·.masks) := by
  have hmasks := congrArg (Option.map (·.2.1)) h
  rw [Option.map_map, Option.map_map] at hmasks
  exact hmasks

/-- Two forms of a work-group whose warps hold the same. -/
def WorkGroup.SameRegs (h g : WorkGroup) : Prop := h.id = g.id ∧ ∀ k, (h.warp k).map Warp.held = (g.warp k).map Warp.held

theorem WorkGroup.SameRegs.trans {i h g : WorkGroup} (hi : i.SameRegs h) (hh : h.SameRegs g) : i.SameRegs g :=
  ⟨hi.1.trans hh.1, fun k => (hi.2 k).trans (hh.2 k)⟩

theorem WorkGroup.modWarp_sameRegs (g : WorkGroup) (wid : Nat) {f : Warp → Warp} (hf : ∀ w, (f w).SameRegs w) :
    (g.modWarp wid f).SameRegs g := by
  have hwid : ∀ w, (f w).wid = w.wid := fun w => (hf w).1
  refine ⟨rfl, fun k => ?_⟩
  by_cases hk : k = wid
  · subst hk
    rw [g.modWarp_warp_same k f hwid, Option.map_map]
    exact congrArg (Option.map · _) (funext fun w => Warp.held_eq_iff.mpr (hf w))
  · rw [g.modWarp_warp_other f hwid hk]

theorem WorkGroup.halted_sameRegs (g : WorkGroup) (wid : Nat) : (g.halted wid).SameRegs g := by
  refine ⟨(halted_warp g wid 0).1, fun k => ?_⟩
  obtain ⟨-, hnone, hsome⟩ := halted_warp g wid k
  cases hk : (g.halted wid).warp k with
  | none => rw [hnone.mp hk]
  | some v =>
    obtain ⟨w, hw, hv⟩ := hsome v hk
    rw [hw]
    exact congrArg some (Warp.held_eq_iff.mpr hv)

/-- Two states whose warps hold the same. -/
def State.SameRegs (t s : State) : Prop := ∀ p wg wid, (t.warp p wg wid).map Warp.held = (s.warp p wg wid).map Warp.held

theorem State.SameRegs.trans {u t s : State} (hu : u.SameRegs t) (ht : t.SameRegs s) : u.SameRegs s := fun p wg wid =>
  (hu p wg wid).trans (ht p wg wid)

theorem State.SameRegs.regAt_eq {t s : State} (h : t.SameRegs s) (p wg wid r l : Nat) : regAt t p wg wid r l = regAt s p wg wid r l :=
  map_reg_of_held (h p wg wid) r l

theorem State.SameRegs.masksKept {t s : State} (h : t.SameRegs s) : MasksKept s t := fun p wg wid => map_masks_of_held (h p wg wid)

/-- States with the same work hold the same registers. -/
theorem State.sameRegs_of_work {t s : State} (h : ∀ p, t.work p = s.work p) : t.SameRegs s := fun p wg wid => by
  simp only [State.warp, h p]

/-- An update of a work-group that keeps its registers keeps those of the state. -/
theorem State.modWg_sameRegs (s : State) (p wg : Nat) {f : WorkGroup → WorkGroup} (hf : ∀ g, (f g).SameRegs g) :
    (s.modWg p wg f).SameRegs s := by
  intro p' wg' wid
  by_cases hp : p' = p
  · subst hp
    simp only [State.warp, State.modWg, State.modWork_work_same]
    by_cases hg : wg' = wg
    · subst hg
      rw [Work.modWg_wg_same _ _ _ fun g => (hf g).1]
      cases (s.work p').wg wg' with
      | none => rfl
      | some g => exact (hf g).2 wid
    · rw [Work.modWg_wg_other _ _ (fun g => (hf g).1) hg]
  · simp only [State.warp, State.modWg, State.modWork_work_other s _ hp]

/-- An update of a warp that keeps its registers keeps those of the state. -/
theorem State.modWarp_sameRegs (s : State) (p wg wid : Nat) {f : Warp → Warp} (hf : ∀ w, (f w).SameRegs w) :
    (s.modWarp p wg wid f).SameRegs s :=
  s.modWg_sameRegs p wg fun g => g.modWarp_sameRegs wid hf

/-- The end of an issue slot changes no register and no mask (R153). -/
theorem retire_sameRegs (s : State) (c : Ctx) : (retire s c).SameRegs s := by
  refine s.modWg_sameRegs c.p c.wg fun g => ?_
  have hissued := g.modWarp_sameRegs c.wid fun w => issued_same w c.lanes c.lanes c.size (g.skids c.wid)
  dsimp only
  split
  · split
    · exact (WorkGroup.halted_sameRegs _ _).trans hissued
    · exact hissued
  · exact hissued

/-! ## What updates leave of the rest of a state -/

/-- Nothing differs but work-groups, the black box and the model's counters. -/
def State.LeavesRest (s t : State) : Prop := Spared s t ∧ ∀ p, { t.work p with wgs := [] } = { s.work p with wgs := [] }

theorem State.LeavesRest.trans {s t u : State} (h : s.LeavesRest t) (k : t.LeavesRest u) : s.LeavesRest u := by
  obtain ⟨⟨h1, h2, h3, h4, h5, h6, h7, h8, h9, h10, h11, h12, h13, h14⟩, hw⟩ := h
  obtain ⟨⟨k1, k2, k3, k4, k5, k6, k7, k8, k9, k10, k11, k12, k13, k14⟩, kw⟩ := k
  exact ⟨⟨k1.trans h1, k2.trans h2, k3.trans h3, k4.trans h4, k5.trans h5, k6.trans h6, k7.trans h7, k8.trans h8, k9.trans h9,
    k10.trans h10, k11.trans h11, k12.trans h12, k13.trans h13, k14.trans h14⟩, fun p => (kw p).trans (hw p)⟩

theorem State.modWork_spared (s : State) (p : Nat) (f : Work → Work) : Spared s (s.modWork p f) :=
  ⟨rfl, rfl, rfl, rfl, rfl, rfl, rfl, rfl, rfl, rfl, rfl, rfl, rfl, rfl⟩

theorem State.modWg_leavesRest (s : State) (p wg : Nat) (f : WorkGroup → WorkGroup) : s.LeavesRest (s.modWg p wg f) := by
  refine ⟨s.modWork_spared p _, fun q => ?_⟩
  by_cases hq : q = p
  · subst hq
    rw [State.modWg, State.modWork_work_same]
    rfl
  · rw [State.modWg, State.modWork_work_other s _ hq]

theorem State.fresh_leavesRest (s : State) : s.LeavesRest s.fresh :=
  ⟨⟨rfl, rfl, rfl, rfl, rfl, rfl, rfl, rfl, rfl, rfl, rfl, rfl, rfl, rfl⟩, fun _ => rfl⟩

theorem State.notePoison_leavesRest (s : State) (p wg : Nat) (causes : List (Nat × DWord)) : s.LeavesRest (s.notePoison p wg causes) := by
  unfold State.notePoison
  split <;> exact ⟨⟨rfl, rfl, rfl, rfl, rfl, rfl, rfl, rfl, rfl, rfl, rfl, rfl, rfl, rfl⟩, fun _ => rfl⟩

@[simp] theorem State.notePoison_work (s : State) (p wg : Nat) (causes : List (Nat × DWord)) (q : Nat) :
    (s.notePoison p wg causes).work q = s.work q := by
  unfold State.notePoison
  split <;> rfl

/-! ## Registers written -/

section
variable {s : State} {p wg wid p' wg' wid' r l : Nat} {f : Warp → Warp}

theorem regAt_modWarp_same (hf : ∀ w, (f w).wid = w.wid) :
    regAt (s.modWarp p wg wid f) p wg wid r l = (s.warp p wg wid).map fun w => (f w).reg r l := by
  rw [regAt, State.modWarp_warp_same s p wg wid f hf, Option.map_map]
  rfl

theorem regAt_modWarp_other (hf : ∀ w, (f w).wid = w.wid) (hne : ¬(p' = p ∧ wg' = wg ∧ wid' = wid)) :
    regAt (s.modWarp p wg wid f) p' wg' wid' r l = regAt s p' wg' wid' r l := by
  rw [regAt, State.modWarp_warp_other s f hf hne, regAt]

theorem modWarp_masksKept (hf : ∀ w, (f w).wid = w.wid) (hm : ∀ w, (f w).masks = w.masks) : MasksKept s (s.modWarp p wg wid f) := by
  intro p' wg' wid'
  by_cases hsame : p' = p ∧ wg' = wg ∧ wid' = wid
  · obtain ⟨rfl, rfl, rfl⟩ := hsame
    rw [masksAt, State.modWarp_warp_same s p' wg' wid' f hf, Option.map_map, masksAt]
    exact congrArg (Option.map · _) (funext hm)
  · rw [masksAt, State.modWarp_warp_other s f hf hsame, masksAt]

end

/-- Of different registers of a lane, each holds the value written to it. -/
theorem reg_setRegs_of_mem {l : Nat} (hl : l < 32) : ∀ (vs : List (Nat × Word)) (w : Warp), (vs.map (·.1)).Nodup → ∀ e ∈ vs,
    (w.setRegs l vs).reg e.1 l = e.2
  | x :: vs, w, hnodup, e, he => by
    obtain ⟨hx, hvs⟩ := List.nodup_cons.mp hnodup
    rcases List.mem_cons.mp he with rfl | he
    · rw [Warp.setRegs, reg_setRegs_other vs _ fun y hy hkey => hx ?_]
      · exact reg_setReg_same w _ l _
      · exact List.mem_map.mpr ⟨y, hy, ((regKey_inj hl hl).mp hkey).1.symm⟩
    · exact reg_setRegs_of_mem hl vs _ hvs e he

/-- Lanes with values written hold them, also a lane that is named more than once. -/
theorem reg_setLanes_of_mem {f : Nat → List (Nat × Word)} {l : Nat} {e : Nat × Word} (hnodup : ((f l).map (·.1)).Nodup) (he : e ∈ f l) :
    ∀ (ls : List Nat) (w : Warp), (∀ k ∈ ls, k < 32) → l ∈ ls → (w.setLanes (ls.map fun k => (k, f k))).reg e.1 l = e.2
  | k :: ls, w, hls, hl => by
    obtain ⟨hk, hrest⟩ := List.forall_mem_cons.mp hls
    rw [List.map_cons, Warp.setLanes]
    by_cases hmem : l ∈ ls
    · exact reg_setLanes_of_mem hnodup he ls _ hrest hmem
    · obtain rfl : l = k := (List.mem_cons.mp hl).resolve_right hmem
      rw [reg_setLanes_other _ _ fun y hy x _ hkey => hmem ?_]
      · exact reg_setRegs_of_mem hk (f l) w hnodup e he
      · obtain ⟨j, hj, rfl⟩ := List.mem_map.mp hy
        rwa [((regKey_inj hk (hrest j hj)).mp hkey).2]

/-- Registers written change no mask. -/
theorem masksKept_of_written {s t : State} {c : Ctx} {vs : List (Nat × List (Nat × Word))} (h : t.SameRegs (writeLanes s c vs)) :
    MasksKept s t := fun p wg wid =>
  (h.masksKept p wg wid).trans
    (modWarp_masksKept (fun w => (setLanes_frame vs w).1) (fun w => (setLanes_frame vs w).2.1) p wg wid)

section
variable {s : State} {c : Ctx} {f : Nat → List (Nat × Word)} (hlanes : ∀ l ∈ c.lanes, l < 32)
include hlanes

/-- A group's write reaches only registers of its list, in its lanes. -/
theorem writeLanes_regAt_other {p wg wid r l : Nat} (hl : l < 32)
    (hne : ¬(p = c.p ∧ wg = c.wg ∧ wid = c.wid ∧ l ∈ c.lanes ∧ ∃ e ∈ f l, e.1 = r)) :
    regAt (writeLanes s c (c.lanes.map fun l => (l, f l))) p wg wid r l = regAt s p wg wid r l := by
  by_cases hsame : p = c.p ∧ wg = c.wg ∧ wid = c.wid
  · obtain ⟨rfl, rfl, rfl⟩ := hsame
    rw [writeLanes, regAt_modWarp_same fun w => (setLanes_frame _ w).1, regAt]
    refine congrArg (Option.map · _) (funext fun w => reg_setLanes_other _ w fun y hy x hx hkey => hne ⟨rfl, rfl, rfl, ?_⟩)
    obtain ⟨k, hk, rfl⟩ := List.mem_map.mp hy
    obtain ⟨rfl, rfl⟩ := (regKey_inj hl (hlanes k hk)).mp hkey
    exact ⟨hk, x, hx, rfl⟩
  · exact regAt_modWarp_other (fun w => (setLanes_frame _ w).1) hsame

theorem writeLanes_regAt_of_mem {w : Warp} (hw : s.warp c.p c.wg c.wid = some w) {l : Nat} (hl : l ∈ c.lanes)
    (hnodup : ((f l).map (·.1)).Nodup) {e : Nat × Word} (he : e ∈ f l) :
    regAt (writeLanes s c (c.lanes.map fun l => (l, f l))) c.p c.wg c.wid e.1 l = some e.2 := by
  rw [writeLanes, regAt_modWarp_same fun w => (setLanes_frame _ w).1, hw, Option.map_some,
    reg_setLanes_of_mem hnodup he c.lanes w hlanes hl]

end

/-- Updates of a warp after which it holds the same lead to states that hold the same. -/
theorem modWarp_sameRegs_modWarp (s : State) (p wg wid : Nat) {f g : Warp → Warp} (hfg : ∀ w, (f w).SameRegs (g w))
    (hg : ∀ w, (g w).wid = w.wid) : (s.modWarp p wg wid f).SameRegs (s.modWarp p wg wid g) := by
  have hf : ∀ w, (f w).wid = w.wid := fun w => (hfg w).1.trans (hg w)
  intro p' wg' wid'
  by_cases hsame : p' = p ∧ wg' = wg ∧ wid' = wid
  · obtain ⟨rfl, rfl, rfl⟩ := hsame
    rw [s.modWarp_warp_same _ _ _ f hf, s.modWarp_warp_same _ _ _ g hg, Option.map_map, Option.map_map]
    exact congrArg (Option.map · _) (funext fun w => Warp.held_eq_iff.mpr (hfg w))
  · rw [s.modWarp_warp_other f hf hsame, s.modWarp_warp_other g hg hsame]

/-- A part written leaves in the masks and registers what a write of the whole leaves; only poison may differ (R60). -/
theorem writePart_sameRegs (s : State) (c : Ctx) (d : Nat) (f : Nat → Word) :
    (writePart s c d f).SameRegs (writeLanes s c (c.lanes.map fun l => (l, [(d, f l)]))) :=
  modWarp_sameRegs_modWarp s c.p c.wg c.wid (fun _ => ⟨rfl, rfl, rfl, rfl, rfl⟩) fun w => (setLanes_frame _ w).1

/-! ## A group's answers and its traps -/

theorem answer_leavesRest (s : State) (c : Ctx) (f : Nat → List (Nat × Word)) : s.LeavesRest (answer s c f) :=
  (s.modWg_leavesRest c.p c.wg _).trans (State.modWg_leavesRest _ c.p c.wg _)

theorem answer_sameRegs (s : State) (c : Ctx) (f : Nat → List (Nat × Word)) :
    (answer s c f).SameRegs (writeLanes s c (c.lanes.map fun l => (l, f l))) := retire_sameRegs _ c

theorem answerPart_leavesRest (s : State) (c : Ctx) (d : Nat) (f : Nat → Word) : s.LeavesRest (answerPart s c d f) :=
  (s.modWg_leavesRest c.p c.wg _).trans (State.modWg_leavesRest _ c.p c.wg _)

/-- A part answered shows in the registers as the whole written. -/
theorem answerPart_sameRegs (s : State) (c : Ctx) (d : Nat) (f : Nat → Word) :
    (answerPart s c d f).SameRegs (writeLanes s c (c.lanes.map fun l => (l, [(d, f l)]))) :=
  (retire_sameRegs _ c).trans (writePart_sameRegs s c d f)

theorem loadAnswer_leavesRest (s : State) (c : Ctx) (la : Nat) (f : Nat → List (Nat × Word)) : s.LeavesRest (loadAnswer s c la f) :=
  ((s.modWg_leavesRest c.p c.wg _).trans (retire s c).fresh_leavesRest).trans (State.modWg_leavesRest _ c.p c.wg _)

theorem foldl_modLanes_sameRegs {α : Type} (ls : α → List Nat) (f : α → Lane → Lane) (xs : List α) (w : Warp) :
    (xs.foldl (fun y x => y.modLanes (ls x) (f x)) w).SameRegs w := by
  induction xs generalizing w with
  | nil => exact SameRegs.refl w
  | cons x xs ih => exact SameRegs.trans (ih (w.modLanes (ls x) (f x))) (modLanes_frame w (ls x) (f x))

/-- Outstanding results change no register before they are written (R153). -/
theorem loadAnswer_sameRegs (s : State) (c : Ctx) (la : Nat) (f : Nat → List (Nat × Word)) : (loadAnswer s c la f).SameRegs s :=
  ((State.modWarp_sameRegs _ c.p c.wg c.wid fun w => foldl_modLanes_sameRegs _ _ _ w).trans
    (State.sameRegs_of_work (retire s c).fresh_work)).trans (retire_sameRegs s c)

theorem raiseTrap_leavesRest (s : State) (c : Ctx) (causes : List (Nat × DWord)) : s.LeavesRest (raiseTrap s c causes) :=
  (s.notePoison_leavesRest c.p c.wg causes).trans (State.modWg_leavesRest _ c.p c.wg _)

/-- A trap taken changes no register and no mask (R369). -/
theorem raiseTrap_sameRegs (s : State) (c : Ctx) (causes : List (Nat × DWord)) : (raiseTrap s c causes).SameRegs s := by
  refine (State.modWg_sameRegs _ c.p c.wg fun g => (WorkGroup.halted_sameRegs _ c.wid).trans ?_).trans
    (State.sameRegs_of_work (s.notePoison_work c.p c.wg causes))
  refine g.modWarp_sameRegs c.wid fun w => ?_
  split <;> exact ⟨rfl, rfl, rfl, rfl, rfl⟩

/-! ## A sequencer's change -/

theorem Work.modSeq_seqOf_other (w : Work) {id j : Nat} (f : Seq → Seq) (h : ∀ q, (f q).id = q.id) (hj : j ≠ id) :
    (w.modSeq id f).seqOf j = w.seqOf j :=
  find?_updFirst_other _ _ _ _ fun q hq => by
    obtain rfl : q.id = id := by simpa using hq
    simp [h q, hj.symm]

theorem modSeq_frame (s : State) (p id : Nat) {f : Seq → Seq} (hf : ∀ q, (f q).id = q.id) :
    let t := s.modSeq p id f
    (∀ k, k ≠ p → t.work k = s.work k) ∧ { t.work p with seqs := [] } = { s.work p with seqs := [] } ∧
      (∀ j, j ≠ id → (t.work p).seqOf j = (s.work p).seqOf j) ∧ (t.work p).seqOf id = ((s.work p).seqOf id).map f := by
  simp only [State.modSeq, State.modWork_work_same]
  exact ⟨fun k hk => State.modWork_work_other s _ hk, rfl, fun j => Work.modSeq_seqOf_other _ f hf,
    Work.modSeq_seqOf_same _ id f hf⟩

/-! ## The obligation -/

/-- Settles O6: the updates leave all but work-groups (`LeavesRest`), the ends of issue slots, traps and outstanding results keep what warps
hold (`State.SameRegs`), and `writeLanes` writes the registers that it names. -/
theorem answersLeaveTheRestAlone : Obligations.AnswersLeaveTheRestAlone := by
  unfold Obligations.AnswersLeaveTheRestAlone
  refine ⟨?group, fun s p id f hf => ⟨s.modWork_spared p _, rfl, modSeq_frame s p id hf⟩⟩
  intro s c f hlanes regs rest
  have hrest : ∀ t, s.LeavesRest t → MasksKept s t → rest t := by
    intro t ⟨hspared, hwork⟩ hmasks
    refine ⟨hspared, hmasks, fun a => congrArg (Memory.byte · a) hspared.1, fun p => ?_⟩
    obtain ⟨hlaunches, hitems, -, hseqs, hpoints, -, hwaiters, hstores, -⟩ := Work.mk.inj (hwork p)
    exact ⟨hseqs, hlaunches, hstores, hwaiters, hitems, hpoints⟩
  refine ⟨?answer, fun d => ?part, fun la => ?load, fun causes => ?trap⟩
  case answer =>
    have hwritten := answer_sameRegs s c f
    refine ⟨hrest _ (answer_leavesRest s c f) (masksKept_of_written hwritten), rfl, fun p wg wid r l hl hne => ?_,
      fun _ w hw l hl hnodup e he => ?_⟩
    · rw [hwritten.regAt_eq, writeLanes_regAt_other hlanes hl hne]
    · rw [hwritten.regAt_eq, writeLanes_regAt_of_mem hlanes hw hl hnodup he]
  case part =>
    intro g t
    have hwritten := answerPart_sameRegs s c d g
    refine ⟨hrest _ (answerPart_leavesRest s c d g) (masksKept_of_written hwritten), rfl, fun p wg wid r l hl hne => ?_,
      fun w hw l hl => ?_⟩
    · rw [hwritten.regAt_eq, writeLanes_regAt_other hlanes hl]
      simpa [eq_comm] using hne
    · rw [hwritten.regAt_eq, writeLanes_regAt_of_mem (f := fun l => [(d, g l)]) hlanes hw hl (List.nodup_singleton d)
        (List.mem_singleton_self (d, g l))]
  case load =>
    have hsame := loadAnswer_sameRegs s c la f
    exact ⟨hrest _ (loadAnswer_leavesRest s c la f) hsame.masksKept, rfl, fun p wg wid r l _ _ => hsame.regAt_eq p wg wid r l⟩
  case trap =>
    have hsame := raiseTrap_sameRegs s c causes
    exact ⟨hrest _ (raiseTrap_leavesRest s c causes) hsame.masksKept, fun p wg wid r l _ _ => hsame.regAt_eq p wg wid r l⟩

end Sys2Proof.Machine
end

section
/-! Memory's canonical form (R69, R91; log 4), the rules of the proof: what it takes for a fold, a result, an answer to end with memory in
canonical form. -/
namespace Sys2Proof.Machine

/-! ## Folds, results, answers -/

/-- What a computation answers, when it does not fail, is as told. -/
def AllOk {ε α : Type} (P : α → Prop) (r : Except ε α) : Prop := ∀ x, r = .ok x → P x

/-- If a step answers a next state, memory is in canonical form in it. -/
def EndsCanonical (o : Out) : Prop := ∀ t, o = .next t → t.mem.wf = true

/-- Memory stands as it was after each of some operations. -/
def LeavesMem {β : Type} (f : State → β → State) : Prop := ∀ s b, (f s b).mem = s.mem

section
variable {ε α β : Type} {P : α → Prop} {Q : β → Prop}

@[simp] theorem allOk_ok {a : α} : AllOk P (.ok a : Except ε α) ↔ P a := ⟨fun h => h a rfl, fun h _ e => Except.ok.inj e ▸ h⟩
@[simp] theorem allOk_error {e : ε} : AllOk P (.error e : Except ε α) := fun _ h => nomatch h
@[simp] theorem allOk_pure {a : α} : AllOk P (pure a : Except ε α) ↔ P a := allOk_ok

theorem allOk_bind {r : Except ε α} {f : α → Except ε β} (h : ∀ a, r = .ok a → AllOk Q (f a)) : AllOk Q (r >>= f) := by
  cases r with
  | ok a => exact h a rfl
  | error e => exact allOk_error

theorem allOk_map {r : Except ε α} {f : α → β} (h : ∀ a, r = .ok a → Q (f a)) : AllOk Q (r.map f) := by
  cases r with
  | ok a => exact allOk_ok.mpr (h a rfl)
  | error e => exact allOk_error

theorem allOk_foldlM {f : α → β → Except ε α} (hf : ∀ a b, P a → AllOk P (f a b)) (l : List β) {a : α} (h : P a) :
    AllOk P (l.foldlM f a) := by
  induction l generalizing a with
  | nil => exact allOk_ok.mpr h
  | cons b l ih => exact allOk_bind fun x hx => ih (hf a b h x hx)

/-- The same of `Option`. -/
theorem forall_mem_foldlM {f : α → β → Option α} (hf : ∀ a b, P a → ∀ x ∈ f a b, P x) (l : List β) {a : α} (h : P a) :
    ∀ x ∈ l.foldlM f a, P x := by
  induction l generalizing a with
  | nil => exact fun x hx => Option.some.inj hx ▸ h
  | cons b l ih =>
    intro x hx
    obtain ⟨y, hy, hx⟩ := Option.bind_eq_some_iff.mp hx
    exact ih (hf a b h y hy) x hx

/-- A fold of which one part is kept by each of its steps keeps it. -/
theorem foldl_keeps {π : α → Prop} {f : α → β → α} (hf : ∀ a b, π a → π (f a b)) (l : List β) {a : α} (h : π a) :
    π (l.foldl f a) := by
  induction l generalizing a with
  | nil => exact h
  | cons b l ih => exact ih (hf a b h)

@[simp] theorem leavesMem_iff {f : State → β → State} : LeavesMem f ↔ ∀ s b, (f s b).mem = s.mem := Iff.rfl

@[simp] theorem foldl_mem {f : State → β → State} (hf : LeavesMem f) (l : List β) (s : State) : (l.foldl f s).mem = s.mem :=
  foldl_keeps (π := fun t => t.mem = s.mem) (fun a b h => (hf a b).trans h) l rfl

theorem foldl_wf {f : State → β → State} (hf : ∀ s b, s.mem.wf = true → (f s b).mem.wf = true) (l : List β) {s : State}
    (h : s.mem.wf = true) : (l.foldl f s).mem.wf = true :=
  foldl_keeps (π := fun t : State => t.mem.wf = true) hf l h

theorem fst_wf {r : State × α} {s : State} {a : α} (h : r.1.mem.wf = true) (e : r = (s, a)) : s.mem.wf = true := by
  subst e
  exact h

end

@[simp] theorem ite_mem {c : Prop} [Decidable c] {s t : State} : (if c then s else t).mem = if c then s.mem else t.mem := apply_ite ..
@[simp] theorem ite_wf {c : Prop} [Decidable c] {m m' : Memory} : (if c then m else m').wf = if c then m.wf else m'.wf := apply_ite ..

@[simp] theorem endsCanonical_next {t : State} : EndsCanonical (.next t) ↔ t.mem.wf = true :=
  ⟨fun h => h t rfl, fun h _ e => Host.Outcome.next.inj e ▸ h⟩
@[simp] theorem endsCanonical_fault {f : Fault} : EndsCanonical (.fault f) := fun _ h => nomatch h

@[simp] theorem endsCanonical_ite {c : Prop} [Decidable c] {o o' : Out} :
    EndsCanonical (if c then o else o') ↔ if c then EndsCanonical o else EndsCanonical o' := by split <;> rfl

end Sys2Proof.Machine
end

section
/-! The operations over the state that leave memory alone. -/
namespace Sys2Proof.Machine
variable {s : State} {c : Ctx} {g : WorkGroup} {w : Warp} {l : Launch} {m : Member} {ms : List Member} {hold : Bool}
  {p wg wid core id cid seq n a stat off who word ver ord lane ticket i cmd why group t k : Nat}

/-! ## Traps, the end of an issue slot -/

@[simp] theorem State.raiseWarp_mem {bit : Nat} {tval : DWord} : (s.raiseWarp p wg wid bit tval).mem = s.mem := rfl

@[simp] theorem State.notePoison_mem {causes : List (Nat × DWord)} : (s.notePoison p wg causes).mem = s.mem := by
  unfold State.notePoison
  split <;> rfl

@[simp] theorem raiseTrap_mem {causes : List (Nat × DWord)} : (raiseTrap s c causes).mem = s.mem := by simp [raiseTrap]
@[simp] theorem retireTo_mem {adv : List Nat} : (retireTo s c adv).mem = s.mem := rfl
@[simp] theorem retire_mem : (retire s c).mem = s.mem := rfl
@[simp] theorem stall_mem : (stall s c).mem = s.mem := rfl
@[simp] theorem resumeGroup_mem : (resumeGroup s p wg).mem = s.mem := rfl

@[simp] theorem returnFromHandler_mem {handler : VAddr} : (returnFromHandler s p wg wid handler).mem = s.mem := by
  unfold returnFromHandler
  split
  · split
    · simp only [ite_mem]
      split
      · rfl
      · split <;> simp
    · rfl
  · rfl

/-! ## Translation, registers, transfers of control -/

@[simp] theorem State.fillTlb_mem {die va : Nat} : (s.fillTlb p die va).mem = s.mem := by
  unfold State.fillTlb
  split
  · rfl
  · split
    · simp
    · rfl

@[simp] theorem State.aliasWrote_mem {path : Nat} {who : List (Nat × Nat × Nat)} {x : AliasAt} :
    (s.aliasWrote p path who x n).mem = s.mem := by
  simp [State.aliasWrote]

@[simp] theorem writeLanes_mem {vs : List (Nat × List (Nat × Word))} : (writeLanes s c vs).mem = s.mem := rfl
@[simp] theorem writePart_mem {d : Nat} {f : Nat → Word} : (writePart s c d f).mem = s.mem := rfl

@[simp] theorem transfer_mem {targets : List (Nat × VAddr)} : (transfer s c w targets).mem = s.mem := by
  unfold transfer
  split
  · dsimp only
    split <;> simp
  · simp

/-! ## Relations, rounds, waiting stores -/

@[simp] theorem State.freeDeques_mem : (s.freeDeques p).mem = s.mem := rfl

@[simp] theorem State.arrive_mem {inst : List Nat} {op : RelOp} {version : Nat} {row : Arrived} :
    (s.arrive p seq inst op version row).mem = s.mem := by
  unfold State.arrive
  split <;> simp

@[simp] theorem State.completePoint_mem {pt : Point} : (s.completePoint p pt).mem = s.mem := by
  unfold State.completePoint
  dsimp only
  split
  · rfl
  · split
    · rfl
    · split
      · rfl
      · split
        · rfl
        · split <;> rfl

@[simp] theorem State.sealWhere_mem {t : Nat × Nat → Bool} : (s.sealWhere p t).mem = s.mem := by
  unfold State.sealWhere
  refine (State.modWork_mem ..).trans (foldl_mem (fun s e => ?_) _ _)
  split <;> rfl

@[simp] theorem State.sealLost_mem : (s.sealLost p).mem = s.mem := by simp [State.sealLost]

@[simp] theorem State.completePoints_mem : (s.completePoints p n).mem = s.mem := by
  induction n generalizing s with
  | zero => rfl
  | succ n ih =>
    unfold State.completePoints
    split
    · rw [ih, State.completePoint_mem]
    · rfl

@[simp] theorem State.preemptDone_mem : (s.preemptDone p).mem = s.mem := by unfold State.preemptDone; split <;> rfl

@[simp] theorem State.settle_mem : (s.settle p).mem = s.mem := by
  simp [State.settle]

@[simp] theorem State.addStore_mem {x : PendingStore} : (s.addStore c x).mem = s.mem := rfl

@[simp] theorem State.addUnits_mem {spad : Bool} {bs : List (Nat × Byte)} : (s.addUnits c g w lane spad bs).mem = s.mem := by
  simp [State.addUnits]

/-! ## Placement, pre-emption, the end of launches -/

@[simp] theorem State.settleShare_mem {c : Nat} {empty : Bool} : (s.settleShare p c empty).mem = s.mem := rfl
@[simp] theorem State.putGroup_mem {ls : List Level} : (s.putGroup p ls g).mem = s.mem := rfl

@[simp] theorem State.putFresh_mem {num prio alloc : Nat} {fill : Bool} {groups : List (List (List (List NewThread)))} {cores : List Nat} :
    (s.putFresh p l num prio alloc fill groups cores).mem = s.mem := by
  simp [State.putFresh]

@[simp] theorem State.leaveRing_mem {r : ContRec} : (s.leaveRing p r).mem = s.mem := by unfold State.leaveRing; split <;> rfl
@[simp] theorem State.startPhase_mem {at_ : VAddr} : (s.startPhase p wg wid at_).mem = s.mem := by unfold State.startPhase; split <;> rfl

@[simp] theorem State.leave_mem {gs : List WorkGroup} : (s.leave p gs hold).mem = s.mem := by
  unfold State.leave
  split <;> simp

@[simp] theorem State.preemptGroup_mem : (s.preemptGroup p g hold).mem = s.mem := by simp [State.preemptGroup]

@[simp] theorem State.preemptEach_mem {ids : List Nat} : (s.preemptEach p ids hold).mem = s.mem :=
  foldl_mem (fun s id => by split <;> simp) _ _

@[simp] theorem State.preemptWaiting_mem : (s.preemptWaiting p).mem = s.mem := foldl_mem (fun s g => by
    split
    · simp
    · rfl) _ _

@[simp] theorem State.backPages_mem {pins : List Nat} : (s.backPages g pins).mem = s.mem := rfl
@[simp] theorem State.preemptCommand_mem : (s.preemptCommand p core hold).mem = s.mem := by simp [State.preemptCommand]
@[simp] theorem State.preemptReleaseAll_mem : (s.preemptReleaseAll p).mem = s.mem := rfl

@[simp] theorem State.growDeadlock_mem : (s.growDeadlock p core).mem = s.mem := by
  unfold State.growDeadlock
  dsimp only
  split
  · split <;> simp
  · rfl

@[simp] theorem State.releaseWaiter_mem {x : Waiter} {vals : List (Nat × Word)} : (s.releaseWaiter p x vals).mem = s.mem := rfl
@[simp] theorem State.faultWaiter_mem {x : Waiter} {bit : Nat} {tval : DWord} : (s.faultWaiter p x bit tval).mem = s.mem := rfl
@[simp] theorem State.releaseRdv_mem : (s.releaseRdv p).mem = s.mem := by simp [State.releaseRdv]
@[simp] theorem State.retireSeq_mem : (s.retireSeq p id).mem = s.mem := by unfold State.retireSeq; split <;> simp
@[simp] theorem State.dropSeqs_mem : (s.dropSeqs p).mem = s.mem := by simp [State.dropSeqs]
@[simp] theorem State.dropDeques_mem : (s.dropDeques p seq).mem = s.mem := by simp [State.dropDeques]
@[simp] theorem State.dropRings_mem : (s.dropRings p seq).mem = s.mem := foldl_mem (fun s i => by split <;> simp) _ _
@[simp] theorem State.endLaunch_mem {why : Ending} : (s.endLaunch p seq why).mem = s.mem := by simp [State.endLaunch]

@[simp] theorem State.faultLaunch_mem {code data : Nat} : (s.faultLaunch p seq code core data).mem = s.mem := by
  unfold State.faultLaunch
  split <;> simp

@[simp] theorem State.pushLaunch_mem : (s.pushLaunch p l).mem = s.mem := by
  unfold State.pushLaunch
  dsimp only
  split
  · rfl
  · split <;> rfl

@[simp] theorem State.withdraw_mem : (s.withdraw p).mem = s.mem := by
  unfold State.withdraw
  dsimp only
  split
  · rfl
  · split <;> simp

/-! ## Groups that issue or wait -/

@[simp] theorem State.fillAll_mem {as : List Acc} : (s.fillAll c g as).mem = s.mem := by simp [State.fillAll]
@[simp] theorem giveResults_mem {la : Nat} {vals : List (Nat × List (Nat × Word))} : (giveResults s c la vals).mem = s.mem := rfl
@[simp] theorem advance_mem {ls : List Nat} : (advance s c ls).mem = s.mem := rfl
@[simp] theorem awaitOwn_mem : (awaitOwn s c).mem = s.mem := rfl

@[simp] theorem State.startSeq_mem {cls priv : Nat} {sregs : List Word} {engine : Nat} :
    (s.startSeq p g cls priv sregs engine).mem = s.mem := by
  unfold State.startSeq
  split <;> simp

@[simp] theorem pendAt_mem {k : WaitKind} : (pendAt s c k).mem = s.mem := rfl
@[simp] theorem State.openEngine_mem : (s.openEngine c t).mem = s.mem := rfl

@[simp] theorem State.grantGrows_mem : (s.grantGrows p core n).mem = s.mem := by
  induction n generalizing s with
  | zero => rfl
  | succ n ih =>
    unfold State.grantGrows
    split
    · split
      · rw [ih, State.releaseWaiter_mem, State.modWarp_mem]
      · rfl
    · rfl

@[simp] theorem awaitAbove_mem {r : Nat} : (awaitAbove s c r).mem = s.mem := rfl
@[simp] theorem State.tileBridge_mem {v : Nat} : (s.tileBridge p core v).mem = s.mem := by unfold State.tileBridge; split <;> rfl

@[simp] theorem State.serveTiles_mem {slice : Nat} : (s.serveTiles p seq slice n k).mem = s.mem := by
  induction k generalizing s with
  | zero => rfl
  | succ k ih =>
    unfold State.serveTiles
    split
    · rw [ih, State.releaseWaiter_mem, State.tileBridge_mem, State.modWork_mem]
    · rfl

/-! ## Gates -/

@[simp] theorem State.gateFault_mem : (s.gateFault n).mem = s.mem := by simp [State.gateFault]

@[simp] theorem State.serveGate_mem : (s.serveGate n).mem = s.mem := by
  unfold State.serveGate
  dsimp only
  split
  · rfl
  · refine foldl_mem (fun s e => foldl_mem (fun s x => ?_) _ _) _ _
    split <;> simp

@[simp] theorem State.noteGate_mem {t : Nat × DWord} : (s.noteGate t).mem = s.mem := by simp [State.noteGate]
@[simp] theorem State.applyQueued_mem : (s.applyQueued n).mem = s.mem := by simp [State.applyQueued]

/-! ## Sequencers and their commands -/

@[simp] theorem State.seqNext_mem {q : Seq} : (s.seqNext p q word).mem = s.mem := rfl
@[simp] theorem State.seqJump_mem {q : Seq} {t : VAddr} : (s.seqJump p q t).mem = s.mem := rfl
@[simp] theorem State.enginePoison_mem {q : Seq} {what : Nat} : (s.enginePoison p q what).mem = s.mem := rfl
@[simp] theorem State.consumed_mem {q : Seq} : (s.consumed p q stat).mem = s.mem := by unfold State.consumed; split <;> rfl

@[simp] theorem State.noteStop_mem {q : Seq} {trap : Bool} {code : Nat} : (s.noteStop p q trap code).mem = s.mem := by
  unfold State.noteStop
  split <;> rfl

@[simp] theorem State.tellStop_mem {q : Seq} {trap : Bool} {code pcoff : Nat} : (s.tellStop p q trap code pcoff).mem = s.mem := by
  unfold State.tellStop
  split
  · rfl
  · split
    · rfl
    · dsimp only
      split <;> simp

@[simp] theorem State.endIfDone_mem : (s.endIfDone p id).mem = s.mem := by unfold State.endIfDone; split <;> simp

@[simp] theorem State.stopSeq_mem {q : Seq} {trap : Bool} {code pcoff : Nat} : (s.stopSeq p q trap code pcoff).mem = s.mem := by
  simp [State.stopSeq]

@[simp] theorem State.seqTrap_mem {q : Seq} {cause : Nat} : (s.seqTrap p q cause).mem = s.mem := by simp [State.seqTrap]

@[simp] theorem State.issueCmd_mem {q : Seq} {wait : CmdWait} {group bound : Option Nat} :
    (s.issueCmd p q word wait stat group bound).mem = s.mem := by
  simp [State.issueCmd]

@[simp] theorem State.modCmd_mem {f : Command → Command} : (s.modCmd p id cid f).mem = s.mem := rfl
@[simp] theorem State.endCmd_mem : (s.endCmd p id cid stat).mem = s.mem := by unfold State.endCmd; split <;> simp
@[simp] theorem State.closeQueue_mem {slice : Nat} : (s.closeQueue p seq slice n).mem = s.mem := by simp [State.closeQueue]

/-! ## Other modules, clocks -/

@[simp] theorem State.remoteWrite_mem {bs : List Byte} {poison : Bool} : (s.remoteWrite m a bs poison).mem = s.mem := rfl
@[simp] theorem State.markAbsent_mem : (s.markAbsent p a m).mem = s.mem := by unfold State.markAbsent; dsimp only; split <;> simp
@[simp] theorem State.giveMember_mem {v : Option Word} : (s.giveMember p wg wid lane ticket i v).mem = s.mem := rfl
@[simp] theorem State.writeDone_mem : (s.writeDone p ticket lane).mem = s.mem := rfl
@[simp] theorem State.failColl_mem : (s.failColl p a ver ord ms stat).mem = s.mem := by simp [State.failColl]
@[simp] theorem State.failColls_mem : (s.failColls p a m).mem = s.mem := foldl_mem (fun s e => by split <;> simp) _ _
@[simp] theorem State.recordAbsent_mem : (s.recordAbsent p a m).mem = s.mem := by simp [State.recordAbsent]
@[simp] theorem State.noteParked_mem {code : Nat} {e : Parked} : (s.noteParked p code e).mem = s.mem := rfl
@[simp] theorem State.addSent_mem {va : Nat} {act : ParkedAct} : (s.addSent p a va m act).mem = s.mem := rfl
@[simp] theorem State.findAbsent_mem : (s.findAbsent p a).mem = s.mem := by simp [State.findAbsent]

@[simp] theorem State.giveRead_mem {sp va : Nat} {r : List Byte × Bool} : (s.giveRead sp wg wid lane ticket i va r).mem = s.mem := by
  unfold State.giveRead
  split <;> rfl

@[simp] theorem State.answerSent_mem {x : Sent} : (s.answerSent x).mem = s.mem := by unfold State.answerSent; split <;> simp
@[simp] theorem State.resumeSent_mem : (s.resumeSent).mem = s.mem := by simp [State.resumeSent]
@[simp] theorem State.endClock_mem {x : Waiter} : (s.endClock p x).mem = s.mem := by unfold State.endClock; split <;> rfl
@[simp] theorem State.endClocks_mem : (s.endClocks p).mem = s.mem := by simp [State.endClocks]
@[simp] theorem State.loseLocks_mem : (s.loseLocks).mem = s.mem := by simp [State.loseLocks]
@[simp] theorem State.missSlots_mem : (s.missSlots).mem = s.mem := by simp [State.missSlots]

/-! ## Tiles, staging, collectives, agreement -/

@[simp] theorem State.setTile_mem {x : Tile} : (s.setTile core t x).mem = s.mem := rfl

@[simp] theorem State.productStep_mem {q : Seq} {kind v : Nat} : (s.productStep p q cid kind t v k).mem = s.mem := by
  unfold State.productStep
  split
  · simp
  · split
    · simp
    · split <;> simp

@[simp] theorem State.productBegin_mem {q : Seq} {kind block : Nat} : (s.productBegin p q cid kind t block).mem = s.mem := by
  unfold State.productBegin
  split
  · simp
  · split
    · simp
    · simp
    · split <;> simp

@[simp] theorem State.productTurn_mem {q : Seq} {kind v : Nat} {data done : List Nat} :
    (s.productTurn p q cid kind t v k data done).mem = s.mem := by
  unfold State.productTurn
  split <;> simp

@[simp] theorem State.issueTile_mem {q : Seq} {op : CmdOp} {args : List Nat} : (s.issueTile p q word op args).mem = s.mem := rfl

@[simp] theorem State.issueAligned_mem {q : Seq} {op : CmdOp} {args : List Nat} : (s.issueAligned p q word op args).mem = s.mem := by
  simp [State.issueAligned]

@[simp] theorem State.ownPut_mem {bs : List Byte} : (s.ownPut p wg a bs).mem = s.mem := by unfold State.ownPut; split <;> rfl

@[simp] theorem State.stagePut_mem {x : StageDesc} {g : Staged} {tail : List (Nat × Nat)} : (s.stagePut p wg x n g tail).mem = s.mem := by
  simp [State.stagePut]

@[simp] theorem State.failParty_mem {y : Party} : (s.failParty a ver ord ms y stat).mem = s.mem := by simp [State.failParty]
@[simp] theorem State.failAll_mem : (s.failAll p a ver ord ms stat).mem = s.mem := by simp [State.failAll]
@[simp] theorem State.openQueue_mem {q : Seq} : (s.openQueue p q n).mem = s.mem := rfl
@[simp] theorem State.request_mem {q d : Nat} {join : Bool} : (s.request p q cid d a join).mem = s.mem := rfl

@[simp] theorem State.roundStart_mem {more : List Request} : (s.roundStart p a more).mem = s.mem := by
  unfold State.roundStart
  split
  · rfl
  · simp

@[simp] theorem State.acknowledge_mem : (s.acknowledge p a).mem = s.mem := by simp [State.acknowledge]
@[simp] theorem State.acknowledges_mem : (s.acknowledges).mem = s.mem := by simp [State.acknowledges]

@[simp] theorem State.answer_mem {full : List Request} {r : Request} : (s.answer ver full r).mem = s.mem := by
  unfold State.answer
  split <;> simp

@[simp] theorem State.roundEnd_mem {told : Nat} : (s.roundEnd p a told).mem = s.mem := by
  unfold State.roundEnd
  dsimp only
  split
  · rfl
  · simp

/-! ## Privileged instructions -/

@[simp] theorem awaitResults_mem : (awaitResults s c).mem = s.mem := rfl
@[simp] theorem giveAll_mem {vs : List (Nat × Word)} : (giveAll s c vs).mem = s.mem := rfl

@[simp] theorem State.dropLines_mem {mode : Nat} {spans : List (Nat × Nat)} : (s.dropLines p core mode spans).mem = s.mem := by
  unfold State.dropLines
  split <;> rfl

@[simp] theorem State.clampLock_mem {mhz : Nat} : (s.clampLock mhz p).mem = s.mem := by simp [State.clampLock]
@[simp] theorem State.setClock_mem {mhz : Nat} : (s.setClock mhz).mem = s.mem := by simp [State.setClock]
@[simp] theorem State.sendTokens_mem {module : Nat} : (s.sendTokens p module n).mem = s.mem := by simp [State.sendTokens]
@[simp] theorem State.awaitClock_mem : (s.awaitClock c w group).mem = s.mem := by unfold State.awaitClock; split <;> rfl
@[simp] theorem State.clockEffect_mem : (s.clockEffect p a).mem = s.mem := by simp [State.clockEffect]

/-! ## Queues, output warps -/

@[simp] theorem State.modQueue_mem {q : Nat} {f : Queue → Queue} : (s.modQueue p q f).mem = s.mem := rfl
@[simp] theorem State.queueFault_mem {q type : Nat} : (s.queueFault p q type).mem = s.mem := rfl
@[simp] theorem State.passPacket_mem {q : Nat} : (s.passPacket p q n).mem = s.mem := rfl

@[simp] theorem State.fenceRead_mem {q : Nat} {cs : List (Nat × Nat)} {slots : Nat} {limit : Option Nat} :
    (s.fenceRead p q cs slots limit).mem = s.mem := by
  unfold State.fenceRead
  split <;> rfl

@[simp] theorem State.startOutput_mem : (s.startOutput p n).mem = s.mem := by
  unfold State.startOutput
  dsimp only
  split
  · rfl
  · split
    · rfl
    · split
      · split <;> simp
      · rfl

/-! ## Partitions, gates and rings, the host -/

@[simp] theorem State.refuse_mem : (s.refuse p cmd why).mem = s.mem := rfl
@[simp] theorem State.carryOut_mem : (s.carryOut p cmd).mem = s.mem := rfl
@[simp] theorem State.clearCores_mem : (s.clearCores p).mem = s.mem := rfl

@[simp] theorem State.activate_mem : (s.activate p).mem = s.mem := by
  unfold State.activate
  split
  · rfl
  · split <;> simp

@[simp] theorem State.revoke_mem : (s.revoke n).mem = s.mem := by
  unfold State.revoke
  refine foldl_mem (fun s e => foldl_mem (fun s x => ?_) _ _) _ _
  split <;> simp

@[simp] theorem State.resumeGates_mem {m : SaveImage} : (s.resumeGates p m).mem = s.mem := by simp [State.resumeGates]

@[simp] theorem State.resume_mem : (s.resume p).mem = s.mem := by
  unfold State.resume
  dsimp only
  split
  · rfl
  · split
    · rfl
    · split
      · rfl
      · split <;> simp

@[simp] theorem State.fieldError_mem : (s.fieldError p why).mem = s.mem := rfl
@[simp] theorem State.fieldWrite_mem {v : DWord} : (s.fieldWrite p off v).mem = s.mem := by simp [State.fieldWrite]
@[simp] theorem State.gateControl_mem {v : Nat} : (s.gateControl n v).mem = s.mem := by simp [State.gateControl]
@[simp] theorem State.gateWrite_mem {v : Nat} : (s.gateWrite n off v).mem = s.mem := by simp [State.gateWrite]
@[simp] theorem State.faultRing_mem {q : Nat} : (s.faultRing p q).mem = s.mem := foldl_mem (fun s x => by split <;> simp) _ _
@[simp] theorem State.ringEnable_mem {q : Nat} {en : Bool} : (s.ringEnable p q en).mem = s.mem := by simp [State.ringEnable]
@[simp] theorem State.setOwner_mem {owner : Nat} : (s.setOwner owner cmd).mem = s.mem := rfl
@[simp] theorem State.election_mem {m target : Nat} : (s.election m cmd target).mem = s.mem := by unfold State.election; split <;> simp
@[simp] theorem State.electionWrite_mem {m v : Nat} : (s.electionWrite m v).mem = s.mem := by simp [State.electionWrite]
@[simp] theorem State.resumeTraffic_mem : (s.resumeTraffic p).mem = s.mem := by simp [State.resumeTraffic]
@[simp] theorem State.limiterWrite_mem {q v : Nat} : (s.limiterWrite who p q v).mem = s.mem := by simp [State.limiterWrite]

@[simp] theorem State.windowWrite_mem {h half v : Nat} : (s.windowWrite who h half v).mem = s.mem := by
  unfold State.windowWrite
  split <;> rfl

@[simp] theorem State.bootWrite_mem {v : Nat} : (s.bootWrite who v).mem = s.mem := by unfold State.bootWrite; split <;> rfl
@[simp] theorem State.snap_mem : (s.snap).mem = s.mem := by unfold State.snap; split <;> rfl
@[simp] theorem State.answers_mem {code : Nat} {body : List DWord} : (s.answers code body).mem = s.mem := rfl

@[simp] theorem State.attested_mem {code : Nat} {body : List DWord} : (s.attested code body).mem = s.mem := by
  unfold State.attested
  split <;> rfl

@[simp] theorem State.setHeld_mem : (s.setHeld n).mem = s.mem := rfl
@[simp] theorem State.receive_mem {module : Nat} : (s.receive module n).mem = s.mem := rfl
@[simp] theorem State.corrections_mem {die : Nat} : (s.corrections die n).mem = s.mem := by simp [State.corrections]
@[simp] theorem State.queueWrite_mem {v : Nat} : (s.queueWrite who p off n v).mem = s.mem := by simp [State.queueWrite]
@[simp] theorem State.ringWrite_mem {v : Nat} : (s.ringWrite who p off n v).mem = s.mem := by simp [State.ringWrite]
@[simp] theorem State.withdrawWrite_mem {v : Nat} : (s.withdrawWrite who p off n v).mem = s.mem := by simp [State.withdrawWrite]

@[simp] theorem State.preemptWrite_mem {v : Nat} : (s.preemptWrite who p off n v).mem = s.mem := by
  unfold State.preemptWrite
  dsimp only
  split
  · rfl
  · split <;> simp

@[simp] theorem State.bbCtlWrite_mem {v : Nat} : (s.bbCtlWrite off n v).mem = s.mem := by simp [State.bbCtlWrite]
@[simp] theorem awaitAll_mem {rs : List Nat} : (awaitAll s c rs).mem = s.mem := rfl
@[simp] theorem State.picked_mem {q : Nat} {cs : List Cand} {c : Cand} {ls : List Nat} : (s.picked p core q cs c ls).mem = s.mem := rfl

end Sys2Proof.Machine
end

section
/-! Placement. -/
namespace Sys2Proof.Machine

section
variable {s : State} {c p core num prio alloc gran : Nat} {l : Launch} {i : Item}

theorem State.placeUnits_mem {first count : Nat} : ∀ r ∈ s.placeUnits p l i first count, r.1.mem = s.mem := by
  intro r hr
  obtain ⟨u, -, hu⟩ := List.exists_of_findSome?_eq_some hr
  dsimp only at hu
  split at hu
  · cases hu
  · obtain rfl := Option.some.inj hu
    exact State.putFresh_mem

theorem State.placeCont_mem {r : ContRec} : ∀ t ∈ s.placeCont p l i r, t.mem = s.mem := by
  intro t ht
  unfold State.placeCont at ht
  dsimp only at ht
  split at ht
  · obtain rfl := Option.some.inj ht
    simp
  · cases ht

theorem State.putSeq_mem {q : Seq} : ∀ t ∈ s.putSeq p core q, t.mem = s.mem := by
  intro t ht
  obtain ⟨e, -, rfl⟩ := Option.map_eq_some_iff.mp ht
  rfl

theorem State.putImage_mem {m : Image} : ∀ t ∈ s.putImage p m c, t.mem = s.mem := by
  intro t ht
  obtain ⟨u, hu, rfl⟩ := Option.map_eq_some_iff.mp ht
  refine State.modWork_mem .. |>.trans <|
    forall_mem_foldlM (P := fun x => x.mem = s.mem) (fun a q h x hx => (State.putSeq_mem x hx).trans h) m.seqs ?_ u hu
  split <;> simp

theorem State.placeSaved_mem {imgs : List Image} : ∀ t ∈ s.placeSaved p l imgs, t.mem = s.mem := by
  intro t ht
  unfold State.placeSaved at ht
  dsimp only at ht
  split at ht
  · exact forall_mem_foldlM (P := fun x => x.mem = s.mem) (fun a e h =>
      forall_mem_foldlM (fun b m h x hx => (State.putImage_mem x hx).trans h) e.1 h) _ rfl t ht
  · cases ht

theorem State.placeOutput_mem {k : Nat} {units : List (List NewThread)} :
    ∀ r ∈ s.placeOutput p l i k units gran, r.1.mem = s.mem := by
  intro r hr
  obtain ⟨u, -, hu⟩ := List.exists_of_findSome?_eq_some hr
  dsimp only at hu
  split at hu
  · cases hu
  · obtain rfl := Option.some.inj hu
    exact State.putFresh_mem

theorem State.restoreUnit_mem {unit : List WorkGroup} {back : WorkGroup → WorkGroup} :
    ∀ t ∈ s.restoreUnit p l unit back, t.mem = s.mem := by
  intro t ht
  exact (State.placeSaved_mem t ht).trans (by simp)

theorem State.placeRestored_mem {ts : List (Nat × List NewThread)} {tval : DWord} :
    ∀ t ∈ s.placeRestored p l ts tval gran, t.mem = s.mem := by
  refine forall_mem_foldlM (P := fun x : State => x.mem = s.mem) (fun a e h x hx => ?_) ts rfl
  split at hx
  · obtain rfl := Option.some.inj hx
    exact h
  · split at hx
    · split at hx
      · exact (State.restoreUnit_mem x hx).trans h
      · obtain rfl := Option.some.inj hx
        exact h
    · split at hx
      · obtain rfl := Option.some.inj hx
        exact h
      · cases hx

end

end Sys2Proof.Machine
end

section
/-! Stores performed, records written, accesses of lanes. -/
namespace Sys2Proof.Machine

/-! ## Operations of memory -/

section
variable {m : Memory}

theorem wf_sound (a : Nat) (h : m.wf = true) : (m.sound a).wf = true := h

theorem wf_requantise {d : AliasDesc} {k : ElemFmt} {grp : Nat} {new : List (Nat × FVal)} (h : m.wf = true) :
    (m.requantise d k grp new).wf = true := wf_write _ _ _ (wf_write _ _ _ h)

/-- A write in an aliased page (R89) is made of plain writes. -/
theorem wf_aliasWrite {x : AliasAt} {bs : List Byte} (h : m.wf = true) : AllOk (fun y : Memory => y.wf = true) (m.aliasWrite x bs) := by
  unfold Memory.aliasWrite
  split
  · exact allOk_error
  · split
    · exact allOk_ok.mpr (foldl_keeps (π := fun y : Memory => y.wf = true) (fun _ _ => wf_requantise) _ h)
    · dsimp only
      split
      · exact allOk_error
      · split
        · exact allOk_ok.mpr (wf_write _ _ _ h)
        · exact allOk_error

theorem wf_reduce {a f pick : Nat} {v : Word} (h : m.wf = true) : (m.reduce a f v pick).wf = true := by
  unfold Memory.reduce
  split
  · exact wf_write _ _ _ h
  · exact wf_raddF32 _ _ _ _ h

end

section
variable {s : State} {c : Ctx} {g : WorkGroup} {w : Warp} {l : Launch} {a : Acc} {bs : List Byte}
  {p wg wid lane n seq level pa : Nat} (h : s.mem.wf = true)
include h

/-! ## Stores performed -/

@[simp] theorem State.writeAt_wf {who : List (Nat × Nat × Nat)} : (s.writeAt p who level pa bs).mem.wf = true := by
  unfold State.writeAt
  split
  · exact wf_write _ _ _ h
  · exact h
  · exact h

theorem State.perform_wf {x : PendingStore} : (s.perform p x).mem.wf = true := by
  unfold State.perform
  split
  · exact h
  · dsimp only
    split
    · exact h
    · split
      · exact wf_reduce h
      · split
        · exact wf_poisonSpan _ _ _ (wf_write _ _ _ h)
        · exact wf_write _ _ _ h

@[simp] theorem State.performStore_wf : (s.performStore p n).mem.wf = true := by
  unfold State.performStore
  split
  · exact h
  · split
    · exact h
    · exact foldl_wf (fun _ _ hs => State.perform_wf hs) _ h

@[simp] theorem State.drainWhere_wf {t : PendingStore → Bool} : (s.drainWhere p t).mem.wf = true := by
  refine foldl_wf (fun s x hs => ?_) _ h
  split
  · exact s.performStore_wf hs
  · exact hs

@[simp] theorem State.drainLane_wf : (s.drainLane p wg wid lane).mem.wf = true := State.drainWhere_wf h
@[simp] theorem State.drainTicket_wf : (s.drainTicket p n).mem.wf = true := State.drainWhere_wf h
@[simp] theorem State.drainReds_wf : (s.drainReds c lane pa n).mem.wf = true := State.drainWhere_wf h
@[simp] theorem State.drainRadds_wf : (s.drainRadds c lane).mem.wf = true := State.drainWhere_wf h
@[simp] theorem State.drainLanes_wf {ls : List Nat} : (s.drainLanes c ls).mem.wf = true :=
  foldl_wf (fun _ _ hs => State.drainLane_wf hs) ls h

/-! ## Records written for launches and continuations -/

@[simp] theorem State.launchWrite_wf {va : Nat} {red : Bool} {f : Nat → Nat} : (s.launchWrite p seq va n red f).mem.wf = true := by
  unfold State.launchWrite
  dsimp only
  split
  · exact h
  · split
    · split
      · exact h
      · split
        · exact wf_aliasWrite h _ ‹_›
        · exact h
    · split
      · exact wf_write _ _ _ h
      · exact h

@[simp] theorem State.writeStatus_wf {addr state why : Nat} {clamp dqdrop : Bool} :
    (s.writeStatus p seq addr state why clamp dqdrop).mem.wf = true := by
  unfold State.writeStatus
  split
  · exact h
  · split <;> simp [h]

@[simp] theorem State.startLaunch_wf : (s.startLaunch p seq).mem.wf = true := by
  unfold State.startLaunch
  split
  · exact h
  · split
    · exact h
    · dsimp only
      split <;> simp [h]

@[simp] theorem State.accept_wf {who : Agent} {priv v : Nat} : (s.accept who priv v).mem.wf = true := by
  unfold State.accept
  dsimp only
  split <;> simp [h]

@[simp] theorem State.pushCont_wf {r : ContRec} {bytes : Nat} : (s.pushCont p seq r bytes).mem.wf = true := by
  unfold State.pushCont
  dsimp only
  split
  · exact wf_write _ _ _ h
  · exact h

@[simp] theorem State.addEnergy_wf {base slot milli : Nat} : (s.addEnergy p seq base slot milli).mem.wf = true := by
  unfold State.addEnergy
  dsimp only
  split
  · exact h
  · split
    · exact wf_write _ _ _ h
    · exact h

@[simp] theorem State.endSteps_wf : (s.endSteps p l).mem.wf = true := by
  unfold State.endSteps
  dsimp only
  split
  · simp [h]
  · simp only [ite_mem, State.bbWrite_mem, State.modPart_mem, ite_self]
    exact State.launchWrite_wf (State.writeStatus_wf (by simp [h]))

@[simp] theorem State.completeLaunch_wf : (s.completeLaunch p seq).mem.wf = true := by
  unfold State.completeLaunch
  split
  · exact h
  · simp [h]

theorem State.placeOne_wf {i : Item} : ∀ r ∈ s.placeOne p i, r.1.mem.wf = true := by
  intro r hr
  unfold State.placeOne at hr
  split at hr
  · cases hr
  · obtain ⟨t, ht, rfl⟩ := Option.map_eq_some_iff.mp hr
    suffices t.1.mem = s.mem from State.startLaunch_wf (this.symm ▸ h)
    split at ht
    · exact State.placeUnits_mem t ht
    · obtain ⟨u, hu, rfl⟩ := Option.map_eq_some_iff.mp ht
      exact State.leaveRing_mem.trans (State.placeCont_mem u hu)
    · obtain ⟨u, hu, rfl⟩ := Option.map_eq_some_iff.mp ht
      exact State.placeSaved_mem u hu
    · exact State.placeOutput_mem t ht
    · obtain ⟨u, hu, rfl⟩ := Option.map_eq_some_iff.mp ht
      exact State.placeRestored_mem u hu

/-! ## Accesses of lanes -/

theorem State.loadAcc_wf : AllOk (·.1.mem.wf = true) (s.loadAcc c g w a) := by
  unfold State.loadAcc
  dsimp only
  split
  · split <;> simp [h]
  · split
    · simp [h]
    · split <;> simp [h]

theorem State.storeAcc_wf : AllOk (·.mem.wf = true) (s.storeAcc c g w a bs) := by
  unfold State.storeAcc
  dsimp only
  split
  · split
    · exact allOk_ok.mpr (wf_aliasWrite (State.drainLane_wf h) _ ‹_›)
    · exact allOk_error
  · split <;> simp [h]

theorem State.atomAcc_wf {f : Word → Option Word} : AllOk (·.1.mem.wf = true) (s.atomAcc c g w a f) := by
  unfold State.atomAcc
  dsimp only
  split
  · exact allOk_error
  · split <;> simp [h]

theorem State.raddAcc_wf {v : Word} {f : Nat} : AllOk (·.mem.wf = true) (s.raddAcc c g w a v f) := by
  unfold State.raddAcc
  dsimp only
  split
  · simp [h]
  · split <;> simp [h]

theorem State.spadLoad_wf {l a : Nat} : AllOk (·.1.mem.wf = true) (s.spadLoad c g w l a n) := by
  unfold State.spadLoad
  dsimp only
  split <;> simp [h]

end

end Sys2Proof.Machine
end

section
/-! Lanes in order, relations, continuations, rings, what a core spills. -/
namespace Sys2Proof.Machine

/-! ## Lanes in order -/

section
variable {s : State} {c : Ctx} {as : List Acc} {ls : List Nat}

theorem loadAll_wf {α : Type} {f : State → Acc → Except (Nat × DWord) (State × α)}
    (hf : ∀ s a, s.mem.wf = true → AllOk (·.1.mem.wf = true) (f s a)) (h : s.mem.wf = true) : (loadAll f s as).1.mem.wf = true := by
  induction as generalizing s with
  | nil => exact h
  | cons a as ih =>
    unfold loadAll
    split
    · exact h
    · have hr := ih (hf s a h _ ‹_›)
      split <;> exact fst_wf hr ‹_›

theorem storeAll_wf {f : State → Acc → Except (Nat × DWord) State}
    (hf : ∀ s a, s.mem.wf = true → AllOk (·.mem.wf = true) (f s a)) (h : s.mem.wf = true) : (storeAll f s as).1.mem.wf = true := by
  induction as generalizing s with
  | nil => exact h
  | cons a as ih =>
    unfold storeAll
    split
    · exact h
    · exact ih (hf s a h _ ‹_›)

theorem laneSteps_wf {f : LaneStep} (hf : ∀ s l, s.mem.wf = true → AllOk (·.1.mem.wf = true) (f s l)) (h : s.mem.wf = true) :
    (laneSteps f s ls).1.mem.wf = true := by
  induction ls generalizing s with
  | nil => exact h
  | cons l ls ih =>
    unfold laneSteps
    split
    · exact h
    · exact ih (hf s l h _ ‹_›)

theorem arriveAll_wf {f : State → Nat → Except (Nat × DWord) State}
    (hf : ∀ s l, s.mem.wf = true → AllOk (·.mem.wf = true) (f s l)) (h : s.mem.wf = true) : (arriveAll f s ls).1.mem.wf = true := by
  induction ls generalizing s with
  | nil => exact h
  | cons l ls ih =>
    unfold arriveAll
    split
    · exact ih (hf s l h _ ‹_›)
    · exact ih h

theorem parkAll_wf {f : State → Nat → Except (Nat × DWord) State}
    (hf : ∀ s l, s.mem.wf = true → AllOk (·.mem.wf = true) (f s l)) (h : s.mem.wf = true) : (parkAll f s ls).1.mem.wf = true := by
  induction ls generalizing s with
  | nil => exact h
  | cons l ls ih =>
    unfold parkAll
    split
    · exact ih (hf s l h _ ‹_›)
    · exact h

theorem waitSteps_wf {kind : Nat → WaitKind} {group : Nat → List Nat} {f : WaitStep}
    (hf : ∀ s l, s.mem.wf = true → AllOk (fun r => ∀ x ∈ r, x.1.mem.wf = true) (f s l)) (h : s.mem.wf = true) :
    (waitSteps kind group c f s ls).1.mem.wf = true := by
  induction ls generalizing s with
  | nil => exact h
  | cons l ls ih =>
    unfold waitSteps
    split
    · exact h
    · exact ih (hf s l h _ ‹_› _ rfl)
    · exact ih (s := s.modWork ..) h

end

section
variable {s : State} {c : Ctx} {g : WorkGroup} {w : Warp} {x : Schema} {op : RelOp} {q' : Seq}
  {p wg core l d n a va q sc : Nat} {ls : List Nat} (h : s.mem.wf = true)
include h

/-! ## Arrival and parking -/

theorem arriveLane_wf {a : Option Nat} : AllOk (·.mem.wf = true) (arriveLane c g w x a op s l) := by
  unfold arriveLane
  dsimp only
  split
  · exact allOk_error
  · generalize (if op.join = true then !x.joins else !x.groups) = barred
    split
    · exact allOk_error
    · split
      · exact allOk_error
      · split <;> simp [h]

theorem parkLane_wf : AllOk (·.mem.wf = true) (parkLane c w x sc a s l) := by
  unfold parkLane
  dsimp only
  split
  · exact allOk_error
  · split
    · exact allOk_error
    · split
      · exact allOk_error
      · split <;> simp [h]

theorem State.arriveSaved_wf {l : Launch} {k : Nat} : ∀ t ∈ s.arriveSaved p l g w k, t.mem.wf = true := by
  intro t ht
  unfold State.arriveSaved at ht
  split at ht
  · cases ht
  · dsimp only at ht
    split at ht
    · split at ht
      · cases ht
      · split at ht
        · obtain rfl := Option.some.inj ht
          simp [h]
        · cases ht
    · cases ht

theorem State.arriveWarp_wf {l : Launch} : (s.arriveWarp p l g w).1.mem.wf = true := by
  refine foldl_keeps (π := fun r : State × Warp => r.1.mem.wf = true) (fun r k hr => ?_) _ h
  split
  · exact State.arriveSaved_wf hr _ ‹_›
  · exact hr

/-! ## What a core spills -/

theorem State.spillImage_wf {m : Image} : (s.spillImage p m).1.mem.wf = true := by
  unfold State.spillImage
  dsimp only
  split
  · exact h
  · dsimp only
    split
    · exact h
    · exact foldl_keeps (π := fun r : State × List Warp => r.1.mem.wf = true) (fun r x hr => State.arriveWarp_wf hr) _ h

theorem State.spillItem_wf {i : Item} : (s.spillItem p core i).1.mem.wf = true := by
  unfold State.spillItem
  split
  · refine foldl_keeps (π := fun r : State × List Image => r.1.mem.wf = true) (fun r m hr => ?_) _ h
    split
    · exact State.spillImage_wf hr
    · exact hr
  · exact h

@[simp] theorem State.spillCore_wf : (s.spillCore p core).mem.wf = true := by
  have hr := foldl_keeps (π := fun r : State × List Item => r.1.mem.wf = true) (a := (s, [])) (f := fun acc i =>
    ((acc.1.spillItem p core i).1, acc.2 ++ [(acc.1.spillItem p core i).2])) (fun r i hr => State.spillItem_wf hr) (s.work p).items h
  simpa [State.spillCore] using hr

/-! ## Continuations, launches -/

theorem State.laneRead_wf : AllOk (·.1.mem.wf = true) (s.laneRead c g w l va n) := by
  unfold State.laneRead
  split
  · exact allOk_error
  · dsimp only
    split
    · exact allOk_ok.mpr (fst_wf (loadAll_wf (fun _ _ hs => State.loadAcc_wf hs) (State.fillAll_mem ▸ h)) ‹_›)
    · exact allOk_error

theorem State.jcdec_wf : AllOk (·.mem.wf = true) (s.jcdec c g w l va) := by
  unfold State.jcdec
  dsimp only
  split
  · exact allOk_error
  · split
    · exact allOk_error
    · split
      · exact allOk_error
      · split
        · exact allOk_error
        · have hw : ((s.fillAll c g [⟨l, va, 64, .atomic, true⟩]).drainLane c.p c.wg c.wid l).mem.wf = true := by simp [h]
          split
          · simp [hw]
          · split <;> simp [hw]

theorem jcdecAll_wf : (jcdecAll c g w a s ls).1.mem.wf = true := by
  induction ls generalizing s with
  | nil => exact h
  | cons l ls ih =>
    unfold jcdecAll
    dsimp only
    split
    · exact h
    · have ht := State.jcdec_wf h _ ‹_›
      split
      · exact ht
      · exact ih ht

theorem launchAll_wf {vs : List (Nat × Nat)} : (launchAll c g w d s vs).1.mem.wf = true := by
  induction vs generalizing s with
  | nil => exact h
  | cons v vs ih => exact ih (by simp [h])

/-! ## Rings -/

theorem State.ringPush_wf {e : DWord} : AllOk (fun r => ∀ t ∈ r, t.mem.wf = true) (s.ringPush c g w l q e) := by
  refine allOk_bind fun r _ => ?_
  dsimp only
  split
  · exact allOk_ok.mpr (by simp)
  · split
    · exact allOk_error
    · refine allOk_bind fun t ht => allOk_ok.mpr ?_
      have hw := State.storeAcc_wf (s := s.fillAll c g _) (by simp [h]) t ht
      simp [hw]

theorem State.ringPop_wf : AllOk (fun r => ∀ x ∈ r, x.1.mem.wf = true) (s.ringPop c g w l q) := by
  refine allOk_bind fun r _ => ?_
  dsimp only
  split
  · exact allOk_ok.mpr (by simp)
  · split
    · exact allOk_error
    · refine allOk_bind fun e he => allOk_ok.mpr ?_
      have hw := State.loadAcc_wf (s := s.fillAll c g _) (by simp [h]) e he
      simp [hw]

theorem State.serveOne_wf {push : Bool} : ∀ t ∈ s.serveOne p q push, t.mem.wf = true := by
  intro t ht
  obtain ⟨x, -, ht⟩ := Option.bind_eq_some_iff.mp ht
  obtain ⟨g, -, ht⟩ := Option.bind_eq_some_iff.mp ht
  obtain ⟨w, -, ht⟩ := Option.bind_eq_some_iff.mp ht
  dsimp only at ht
  split at ht
  · split at ht
    · obtain rfl := Option.some.inj ht
      simpa using State.ringPush_wf h _ ‹_› _ rfl
    · cases ht
    · obtain rfl := Option.some.inj ht
      simp [h]
  · split at ht
    · obtain rfl := Option.some.inj ht
      simpa using State.ringPop_wf h _ ‹_› _ rfl
    · cases ht
    · obtain rfl := Option.some.inj ht
      simp [h]
  · cases ht

theorem State.serveRing_wf {k : Nat} : (s.serveRing p q k).mem.wf = true := by
  induction k generalizing s with
  | zero => exact h
  | succ k ih =>
    unfold State.serveRing
    split
    · exact ih (State.serveOne_wf h _ ‹_›)
    · split
      · exact ih (State.serveOne_wf h _ ‹_›)
      · exact h

theorem State.serveRings_wf {qs : List Nat} : (State.serveRings p qs s).mem.wf = true :=
  foldl_wf (fun _ _ hs => State.serveRing_wf hs) _ h

end

/-! ## Gates -/

theorem State.signal_mem {s : State} {n tenant level ticket : Nat} {inc : Word} :
    AllOk (fun t : State => t.mem = s.mem) (s.signal n tenant level inc ticket) := by
  unfold State.signal
  dsimp only
  split
  · exact allOk_error
  · split
    · exact allOk_error
    · split
      · exact allOk_error
      · split <;> simp

end Sys2Proof.Machine
end

section
/-! Writes for engines, for channels, for members of groups. -/
namespace Sys2Proof.Machine

section
variable {s v : State} {q : Seq} {m : Member} {bs : List Byte} {poison : Bool} {act : ParkedAct} {e : Parked}
  {p level path a va addr id cid n k ch stat : Nat} (h : s.mem.wf = true)
include h

/-! ## What engines write -/

theorem State.putLoc_wf {l : Loc} : AllOk (·.mem.wf = true) (s.putLoc p level path l bs poison) := by
  unfold State.putLoc
  split
  · exact allOk_ok.mpr h
  · exact allOk_ok.mpr h
  · split
    · refine allOk_map fun m hm => ?_
      have hw : m.wf = true := wf_aliasWrite h m hm
      dsimp only
      split
      · exact foldl_keeps (π := fun y : Memory => y.wf = true) (fun y e hy => wf_poisonSpan y _ _ hy) _ hw
      · exact hw
    · split
      · refine allOk_ok.mpr ?_
        dsimp only
        split
        · exact wf_poisonSpan _ _ _ (wf_write _ _ _ h)
        · exact wf_write _ _ _ h
      · simp [h]

theorem State.depositPiece_wf : AllOk (·.mem.wf = true) (s.depositPiece p q addr bs poison) := by
  refine allOk_bind fun l _ => ?_
  split
  · exact allOk_ok.mpr (State.putLoc_wf h _ ‹_›)
  · exact allOk_error

theorem State.deposit_wf : AllOk (·.mem.wf = true) (s.deposit p q addr bs poison) :=
  allOk_foldlM (P := fun x : State => x.mem.wf = true) (fun _ _ hs => State.depositPiece_wf hs) _ h

@[simp] theorem State.busy_wf {up : Bool} : (s.busy p a up).mem.wf = true := wf_write _ _ _ h

@[simp] theorem State.finishCmd_wf : (s.finishCmd p id cid).mem.wf = true := by
  unfold State.finishCmd
  split
  · exact h
  · split
    · exact h
    · split
      · exact h
      · split
        · exact h
        · simp only [State.endIfDone_mem, ite_mem, State.stopSeq_mem, State.closeQueue_mem, ite_self]
          split <;> simp [h]

@[simp] theorem State.soundAt_wf : (s.soundAt p q a).mem.wf = true := by
  unfold State.soundAt
  split
  · split
    · exact wf_sound _ h
    · exact h
  · exact h

/-! ## Channels and parked accesses -/

theorem State.serveWrite_wf : AllOk (·.mem.wf = true) (s.serveWrite v p level path va bs poison) :=
  allOk_bind fun _ _ => State.putLoc_wf h

theorem State.spoil_wf {to_ : Nat × Member} : (s.spoil to_ n).mem.wf = true := by
  refine foldl_wf (fun s k hs => ?_) _ h
  dsimp only
  split
  · split
    · exact State.serveWrite_wf hs _ ‹_›
    · exact hs
  · simp [hs]

@[simp] theorem State.failChannel_wf : (s.failChannel p ch stat).mem.wf = true := by
  unfold State.failChannel
  dsimp only
  split <;> split <;> simp [h, wf_write, State.spoil_wf]

@[simp] theorem State.dropAct_wf : (s.dropAct act).mem.wf = true := by
  unfold State.dropAct
  split
  · simp [h]
  · simp [h]
  · split
    · split <;> simp [h]
    · exact h
  · simp [h]
  · exact h

@[simp] theorem State.parkAccess_wf : (s.parkAccess p e).mem.wf = true := by
  unfold State.parkAccess
  split <;> simp [h]

@[simp] theorem State.dropParked_wf : (s.dropParked p k).mem.wf = true := by
  unfold State.dropParked
  split <;> simp [h]

@[simp] theorem State.dropAllParked_wf : (s.dropAllParked p).mem.wf = true :=
  foldl_wf (fun _ _ hs => State.dropParked_wf hs) _ h

@[simp] theorem State.failSent_wf : (s.failSent p a m).mem.wf = true :=
  foldl_wf (fun _ _ hs => State.dropAct_wf hs) _ h

/-! ## Accesses at members of a group -/

theorem State.memberRead_wf : AllOk (·.1.mem.wf = true) (s.memberRead v p level a va m act) := by
  unfold State.memberRead
  split
  · split
    · exact allOk_ok.mpr h
    · exact allOk_error
    · dsimp only
      split
      · exact allOk_error
      · split <;> simp [h]
  · split
    · split <;> simp [h]
    · simp [h]

theorem State.memberReads_wf {acts : Nat → ParkedAct} {ms : List Member} :
    AllOk (·.1.mem.wf = true) (s.memberReads v p level a va acts n ms) := by
  induction ms generalizing s n with
  | nil => exact allOk_ok.mpr h
  | cons m ms ih =>
    refine allOk_bind fun e he => allOk_bind fun f hf => allOk_ok.mpr ?_
    exact ih (State.memberRead_wf h e he) f hf

theorem State.memberWrite_wf {x : Word} : AllOk (·.1.mem.wf = true) (s.memberWrite v p level a va m x poison act) := by
  unfold State.memberWrite
  split
  · split
    · exact allOk_ok.mpr (State.serveWrite_wf h _ ‹_›)
    · dsimp only
      split
      · exact allOk_error
      · split <;> simp [h]
  · split <;> simp [h]

theorem State.memberWrites_wf {absent : List Nat} {x : Word} {ms : List Member} :
    AllOk (·.1.mem.wf = true) (s.memberWrites v p level a va absent x poison act n ms) := by
  induction ms generalizing s n with
  | nil => exact allOk_ok.mpr h
  | cons m ms ih =>
    unfold State.memberWrites
    dsimp only
    have rest (e : State × Nat) (he : e.1.mem.wf = true) : AllOk (fun x => x.1.mem.wf = true) (do
        let f ← e.1.memberWrites v p level a va absent x poison act (n + 1) ms
        pure (f.1, e.2 + f.2)) :=
      allOk_bind fun f hf => allOk_pure.mpr (ih he f hf)
    split
    · exact rest (s, 0) h
    · exact allOk_bind fun e he => rest e (State.memberWrite_wf h e he)

theorem State.mldrLane_wf {c : Ctx} {g : WorkGroup} {w : Warp} {absent u : Bool} {at_ : Nat × Nat} :
    AllOk (·.1.mem.wf = true) (s.mldrLane c g w absent u at_ n) := by
  unfold State.mldrLane
  split
  · exact allOk_ok.mpr h
  · dsimp only
    split
    · exact allOk_ok.mpr (State.memberReads_wf h _ ‹_›)
    · exact allOk_error

/-! ## Copies -/

theorem State.moveSpan_wf {left run src dst : Nat} : (s.moveSpan p q left run src dst).1.mem.wf = true := by
  induction left generalizing s run src dst with
  | zero => exact h
  | succ left ih =>
    unfold State.moveSpan
    split
    · exact h
    · split
      · exact h
      · have hw := State.deposit_wf h _ ‹_›
        exact ih (by simp [hw])

theorem State.moveRows_wf {rows : List (Nat × Nat)} : (s.moveRows p q n rows).1.mem.wf = true := by
  induction rows generalizing s with
  | nil => exact h
  | cons r rows ih =>
    unfold State.moveRows
    split
    · exact ih (fst_wf (State.moveSpan_wf h) ‹_›)
    · exact fst_wf (State.moveSpan_wf h) ‹_›

theorem State.copyRun_wf {dst src shape : Nat} : (s.copyRun p q dst src shape).1.mem.wf = true := by
  unfold State.copyRun
  split
  · exact h
  · split
    · exact h
    · split
      · exact h
      · exact State.moveRows_wf h

theorem State.indexRun_wf {scatter : Bool} {dst src shape list : Nat} :
    (s.indexRun p q scatter dst src shape list).1.mem.wf = true := by
  unfold State.indexRun
  split
  · exact h
  · split
    · exact h
    · split
      · exact h
      · dsimp only
        generalize List.any _ _ = outside
        split
        · exact h
        · exact State.moveRows_wf h

end

end Sys2Proof.Machine
end

section
/-! Commands of engines, migration, collectives. -/
namespace Sys2Proof.Machine

/-! ## Commands on tiles and scratchpads leave memory alone -/

section
variable {s : State} {q : Seq} {op : CmdOp} {args : List Nat} {p t n k : Nat}

@[simp] theorem State.tileWrite_mem {base lo : Nat} : (s.tileWrite p q t base lo n).1.mem = s.mem := by
  unfold State.tileWrite
  dsimp only
  split <;> rfl

@[simp] theorem State.tileRead_mem {clear : Bool} {base lo : Nat} : (s.tileRead p q clear t base lo n).1.mem = s.mem := by
  unfold State.tileRead
  dsimp only
  split
  · rfl
  · simp only [ite_mem, State.setTile_mem, ite_self]
    exact foldl_mem (fun s e => by split <;> rfl) _ _

@[simp] theorem State.matrixRun_mem : (s.matrixRun p q op args).1.mem = s.mem := by
  unfold State.matrixRun
  dsimp only
  split
  · rfl
  · split <;> simp

theorem State.stageGroups_mem {x : StageDesc} {src : Nat} : (s.stageGroups p q x src n k).1.mem = s.mem := by
  induction k generalizing s n with
  | zero => rfl
  | succ k ih =>
    unfold State.stageGroups
    split
    · rw [ih, State.stagePut_mem]
    · rfl

@[simp] theorem State.stageRun_mem {src desc : Nat} : (s.stageRun p q src desc).1.mem = s.mem := by
  unfold State.stageRun
  split
  · rfl
  · split
    · rfl
    · exact State.stageGroups_mem

@[simp] theorem State.agsetRun_mem {id list : Nat} : (s.agsetRun p q id list).1.mem = s.mem := by
  unfold State.agsetRun
  split
  · rfl
  · split
    · rfl
    · dsimp only
      split
      · rfl
      · split
        · rfl
        · split
          · rfl
          · split
            · rfl
            · split <;> rfl

@[simp] theorem State.tearGates_mem {exporting : Bool} : (s.tearGates p exporting).1.mem = s.mem := by
  refine foldl_keeps (π := fun r : State × Map Gate => r.1.mem = s.mem) (fun r n hr => ?_) _ rfl
  dsimp only
  split <;> simpa using hr

end

section
variable {s : State} {q : Seq} {b : Binding} {args : List Nat} {e : Parked} {y : Party} {m to_ src dst : Member} {ms : List Member}
  {ps : List Party} {p n k id cid c a va cause run : Nat} (h : s.mem.wf = true)
include h

/-! ## TOPK and EMBLK -/

theorem State.topRow_wf {src dst : Nat} : AllOk (·.mem.wf = true) (s.topRow p q n k src dst) :=
  allOk_bind fun _ _ => allOk_foldlM (P := fun x : State => x.mem.wf = true) (fun _ _ hs => State.deposit_wf hs) _ h

theorem State.topRows_wf {src dst i m : Nat} : (s.topRows p q n k src dst i m).1.mem.wf = true := by
  induction m generalizing s i with
  | zero => exact h
  | succ m ih =>
    unfold State.topRows
    split
    · exact ih (State.topRow_wf h _ ‹_›)
    · exact h

theorem State.topkRun_wf {dst src ctl : Nat} : (s.topkRun p q dst src n ctl).1.mem.wf = true := by
  unfold State.topkRun
  dsimp only
  split
  · exact h
  · split
    · exact State.topRows_wf h
    · exact h

theorem State.countLookup_wf {e : DirEntry} : (s.countLookup p e).mem.wf = true := wf_write _ _ _ h

theorem State.lookupRow_wf {i : Nat} : (s.lookupRow p q b i).1.mem.wf = true := by
  unfold State.lookupRow
  split
  · exact h
  · split
    · exact h
    · split
      · exact h
      · split
        · exact h
        · dsimp only
          split
          · exact h
          · exact State.countLookup_wf h

theorem State.depositWords_wf {dst : Nat} {ws : List (List Byte × Bool)} :
    AllOk (·.mem.wf = true) (s.depositWords p q run dst ws) := by
  induction ws generalizing s run dst with
  | nil => exact allOk_ok.mpr h
  | cons w ws ih =>
    refine allOk_bind fun t ht => ih ?_
    have hw := State.deposit_wf h t ht
    simp [hw]

theorem State.lookups_wf {dst dstride : Nat} {ixs : List (Nat × Nat)} :
    (s.lookups p q cid b dst dstride args ixs).mem.wf = true := by
  induction ixs generalizing s with
  | nil => simp [State.lookups, h]
  | cons x ixs ih =>
    unfold State.lookups
    dsimp only
    split
    all_goals have hw := fst_wf (State.lookupRow_wf h) ‹_›
    · split
      · exact ih (State.depositWords_wf hw _ ‹_›)
      · simp [hw]
    · simp [hw]
    · simp [hw]
    · simp [hw]

theorem State.emblkRun_wf : (s.emblkRun p q cid args).mem.wf = true := by
  unfold State.emblkRun
  dsimp only
  split
  · exact State.lookups_wf h
  · split
    · simp [h]
    · split
      · simp [h]
      · split
        · simp [h]
        · split
          · simp [h]
          · split
            · simp [h]
            · split
              · simp [h]
              · exact State.lookups_wf h

theorem State.copyEffect_wf {op : CmdOp} : (s.copyEffect p q op args).1.mem.wf = true := by
  unfold State.copyEffect
  dsimp only
  split
  · exact State.copyRun_wf h
  · exact State.indexRun_wf h
  · exact State.indexRun_wf h
  · simp [h]
  · exact State.topkRun_wf h
  · simp [h]

/-! ## Migration -/

theorem State.migrationGo_wf : (s.migrationGo p c).mem.wf = true := by
  unfold State.migrationGo
  dsimp only
  split
  · exact h
  · split
    · simp [h]
    · exact wf_write _ _ _ (wf_write _ _ _ (wf_write _ _ _ h))

@[simp] theorem State.soundServed_wf : (s.soundServed m a).mem.wf = true := by
  unfold State.soundServed
  split
  · split
    · split
      · exact wf_sound _ h
      · exact h
    · exact h
  · exact h

theorem State.migrationPut_wf {bs : List Byte} {poison : Bool} : AllOk (·.mem.wf = true) (s.migrationPut p m a bs poison) := by
  unfold State.migrationPut
  split
  · exact allOk_error
  · split
    · exact State.serveWrite_wf h
    · simp [h]

theorem State.migrationStop_wf {writing : Bool} : (s.migrationStop p c to_ writing a cause).mem.wf = true := by
  unfold State.migrationStop
  split
  · exact h
  · split
    · simp [h]
    · split
      · split <;> simp [h]
      · simp [h]

theorem State.mirrorChannel_wf : (s.mirrorChannel p c).mem.wf = true := by
  unfold State.mirrorChannel
  dsimp only
  split
  · exact h
  · split
    · exact h
    · refine (congrArg Memory.wf (State.modPart_mem ..)).trans (foldl_wf (fun s e hs => ?_) _ h)
      split
      · exact hs
      · split
        · exact State.migrationPut_wf hs _ ‹_›
        · exact State.migrationStop_wf hs

@[simp] theorem State.mirror_wf : s.mirror.mem.wf = true :=
  foldl_wf (fun _ _ hs => foldl_wf (fun _ _ hs => State.mirrorChannel_wf hs) _ hs) _ h

theorem State.migrationCopy_wf {b : Nat} : AllOk (·.mem.wf = true) (s.migrationCopy p src dst run a b n) := by
  induction n generalizing s run a b with
  | zero => exact allOk_ok.mpr h
  | succ n ih =>
    unfold State.migrationCopy
    split
    · exact allOk_error
    · split
      · exact allOk_error
      · have hw := State.migrationPut_wf h _ ‹_›
        exact ih (by simp [hw])

@[simp] theorem State.drainRows_wf {at_ : Member × Nat} : (s.drainRows at_ n).mem.wf = true :=
  foldl_wf (fun _ _ hs => State.drainWhere_wf hs) _ h

theorem State.switchOver_wf : (s.switchOver p c).mem.wf = true := by
  unfold State.switchOver
  dsimp only
  split
  · exact h
  · split
    · simp [h]
    · split
      · have hd : (if (s.part p).channel c |>.copied then s.drainRows (s.sourceOf ((s.part p).channel c).src)
            ((s.part p).channel c).size else s).mem.wf = true := by simp [h]
        have hw := State.migrationCopy_wf hd _ ‹_›
        split
        · exact wf_write _ _ _ hw
        · simp [hw]
      · exact State.migrationStop_wf h

/-! ## Collectives -/

theorem State.putShard_wf {i : Nat} {vs : List (Nat × Bool)} : (s.putShard y i vs).1.mem.wf = true := by
  induction vs generalizing s i with
  | nil => exact h
  | cons v vs ih =>
    unfold State.putShard
    split
    · exact ih (State.deposit_wf h _ ‹_›)
    · exact h

theorem State.putShards_wf {es : List (Party × List (Nat × Bool))} : (s.putShards es).1.mem.wf = true := by
  induction es generalizing s with
  | nil => exact h
  | cons e es ih =>
    unfold State.putShards
    split
    · exact ih (fst_wf (State.putShard_wf h) ‹_›)
    · exact fst_wf (State.putShard_wf h) ‹_›

theorem State.exchange_wf {ver ord : Nat} : (s.exchange a ver ord ms ps).mem.wf = true := by
  unfold State.exchange
  split
  · simp [h]
  · split
    · simp [h]
    · split
      all_goals have hw := fst_wf (State.putShards_wf h) ‹_›
      · simp [hw]
      · simp [hw]

@[simp] theorem State.tryColl_wf {ver ord : Nat} : (s.tryColl p a ver ord ms).mem.wf = true := by
  unfold State.tryColl
  dsimp only
  split
  · exact h
  · split
    · simp [h]
    · split
      · simp [h]
      · split
        · simp [h]
        · split
          · split <;> simp [h]
          · exact State.exchange_wf h

theorem State.collStart_wf {word v : Nat} {x : CollDesc} : (s.collStart p q word v x).mem.wf = true := by
  unfold State.collStart
  dsimp only
  split
  · simp only [State.failColl_mem, State.modCmd_mem, State.issueCmd_mem]
    split <;> simp [h]
  · refine State.tryColl_wf ?_
    simp only [State.modCmd_mem, State.issueCmd_mem]
    split <;> simp [h]

/-! ## Commands and parked accesses carried out -/

theorem State.runCmd_wf {c : Command} : (s.runCmd p q c).mem.wf = true := by
  unfold State.runCmd
  split
  · split
    · exact h
    · split
      · simp [h]
      · simp [h]
      · simp [h]
      · exact State.emblkRun_wf h
      · exact h
      · simp [h]
      · simp [State.copyEffect_wf h]
  · simp [h]
  · simp [h]
  · exact h

theorem State.retryRow_wf {sp : Nat} : AllOk (·.mem.wf = true) (s.retryRow p e sp q cid args) := by
  unfold State.retryRow
  dsimp only
  split
  · split
    · exact allOk_error
    · simp [h]
    · exact allOk_ok.mpr h
    · split
      · simp only [allOk_ok, State.modCmd_mem]
        refine State.depositWords_wf ?_ _ ‹_›
        split
        · exact State.countLookup_wf h
        · exact h
      · simp only [allOk_ok, State.endCmd_mem]
        split
        · exact State.countLookup_wf h
        · exact h
  · simp [h]

theorem State.retryWord_wf {sp : Nat} : AllOk (·.mem.wf = true) (s.retryWord p e sp c) := by
  unfold State.retryWord
  dsimp only
  split
  · exact allOk_ok.mpr h
  · split
    · exact allOk_ok.mpr h
    · exact State.serveWrite_wf h

theorem State.performParked_wf : AllOk (·.mem.wf = true) (s.performParked p e) := by
  unfold State.performParked
  dsimp only
  split
  · exact allOk_map fun t ht => by simp [State.serveWrite_wf h t ht]
  · split
    · simp [h]
    · split <;> simp [h]
  · split
    · exact allOk_map fun _ _ => h
    · exact State.serveWrite_wf h
  · split
    · exact allOk_ok.mpr h
    · split
      · exact State.retryRow_wf h
      · exact allOk_map fun _ _ => h
      · exact allOk_ok.mpr h
  · exact State.retryWord_wf h

@[simp] theorem State.goOn_wf {act : ParkedAct} : (s.goOn act).mem.wf = true := by
  unfold State.goOn
  split
  · split <;> simp [h]
  · exact h

theorem State.retryParked_wf : (s.retryParked p k).mem.wf = true := by
  unfold State.retryParked
  split
  · exact h
  · split
    · have hw := State.performParked_wf h _ ‹_›
      simp [hw]
    · split <;> simp [h]

end

end Sys2Proof.Machine
end

section
/-! Placement, the commands of a partition, writes of registers. -/
namespace Sys2Proof.Machine

section
variable {s : State} {p q who off n v c k cmd a wid seq : Nat} (h : s.mem.wf = true)
include h

/-! ## Packets, traps, placement -/

@[simp] theorem State.enterOrEnd_wf {g : WorkGroup} : (s.enterOrEnd p g wid).mem.wf = true := by
  unfold State.enterOrEnd
  split
  · simp [h]
  · dsimp only
    split <;> simp [h]

theorem State.packetWrite_wf {add : Bool} : ∀ t ∈ s.packetWrite p q a v add, t.mem.wf = true := by
  intro t ht
  unfold State.packetWrite at ht
  dsimp only at ht
  split at ht
  · cases ht
  · split at ht
    · cases ht
    · split at ht
      · cases ht
      · split at ht
        · obtain rfl := Option.some.inj ht
          exact State.putLoc_wf h _ ‹_›
        · cases ht

/-- A packet's own effect decides. -/
theorem State.onPacket_wf {type : Nat} {f : Nat → State} (hf : ∀ n, (f n).mem.wf = true) : (s.onPacket p q type f).mem.wf = true := by
  unfold State.onPacket
  dsimp only
  split
  · exact h
  · split
    · simp [h]
    · split
      · simp [h]
      · split
        · simp [h]
        · split
          · exact hf _
          · exact h

theorem State.placeNext_wf : (s.placeNext p).mem.wf = true := by
  unfold State.placeNext
  split
  · exact h
  · split
    · obtain ⟨e, -, he⟩ := List.exists_of_findSome?_eq_some ‹_›
      obtain ⟨r, hr, he⟩ := Option.map_eq_some_iff.mp he
      have hw := State.placeOne_wf h r hr
      cases he
      simpa using hw
    · exact h

theorem State.placeMissing_wf {l : Launch} {rs : List (Nat × List Nat)} : (s.placeMissing p l rs).mem.wf = true := by
  unfold State.placeMissing
  dsimp only
  split
  · exact h
  · split
    · obtain ⟨i, -, hi⟩ := Option.bind_eq_some_iff.mp ‹_›
      simpa using State.placeOne_wf h _ hi
    · simp [h]

/-! ## Commands of a partition -/

@[simp] theorem State.freeze_wf : (s.freeze p).mem.wf = true := by
  unfold State.freeze
  split <;> simp [h]

@[simp] theorem State.addImage_wf {m : SaveImage} : (s.addImage a m).mem.wf = true := wf_write _ _ _ h

theorem State.freezeComplete_wf : (s.freezeComplete p).mem.wf = true := by
  unfold State.freezeComplete
  dsimp only
  split <;> simp [h]

@[simp] theorem State.closeImage_wf {gs : Map Gate} : (s.closeImage p k gs).mem.wf = true := State.addImage_wf h

@[simp] theorem State.tearDown_wf : (s.tearDown p cmd).mem.wf = true := by
  unfold State.tearDown
  dsimp only
  split <;> simp [h]

theorem State.completeLaunches_wf {seqs : List Nat} : (seqs.foldl (fun st seq => st.completeLaunch p seq) s).mem.wf = true :=
  foldl_wf (fun _ _ hs => State.completeLaunch_wf hs) _ h

theorem State.tearComplete_wf : (s.tearComplete p).mem.wf = true := by
  unfold State.tearComplete
  dsimp only
  split
  · exact h
  · have hw := State.completeLaunches_wf (p := p) (seqs := (s.work p).launches.map (·.1)) h
    split <;> simp [hw]

@[simp] theorem State.command_wf : (s.command p cmd).mem.wf = true := by
  unfold State.command
  split
  · simp [h]
  · split <;> simp [h]

@[simp] theorem State.headWrite_wf : (s.headWrite p v).mem.wf = true := by
  unfold State.headWrite
  dsimp only
  split
  · split <;> simp [h]
  · simp [h]

@[simp] theorem State.descWrite_wf : (s.descWrite p off v).mem.wf = true := by
  unfold State.descWrite
  split <;> simp [h]

theorem State.endPartition_wf : (s.endPartition p).mem.wf = true := by
  refine foldl_wf (fun s seq hs => ?_) _ h
  dsimp only
  split
  · split <;> simp [hs]
  · simp [hs]

/-! ## Writes of registers -/

@[simp] theorem State.channelWrite_wf : (s.channelWrite who p off n v).mem.wf = true := by
  unfold State.channelWrite
  dsimp only
  split
  · exact h
  · split
    · simp [h, State.migrationGo_wf]
    · simp [h]
    · simp [h]
    · exact h

@[simp] theorem State.parkedWrite_wf : (s.parkedWrite who p off n v).mem.wf = true := by
  unfold State.parkedWrite
  split
  · exact h
  · split
    · exact State.retryParked_wf h
    · simp [h]
    · exact h

@[simp] theorem State.pageWrite_wf : (s.pageWrite who p off n v).mem.wf = true := by
  simp [State.pageWrite, h]

@[simp] theorem State.barWrite_wf : (s.barWrite who off n v).mem.wf = true := by
  simp [State.barWrite, h]

theorem State.csrWrite_wf {c : Ctx} {w : Warp} {v : DWord} : ∀ t ∈ s.csrWrite c w n v, t.mem.wf = true := by
  intro t ht
  suffices t.mem = s.mem from this.symm ▸ h
  unfold State.csrWrite at ht
  dsimp only at ht
  split at ht
  · cases ht
  · split at ht
    · obtain rfl := Option.some.inj ht
      rfl
    · obtain ⟨x, -, rfl⟩ := Option.map_eq_some_iff.mp ht
      rfl
    · split at ht
      · cases ht
      · obtain rfl := Option.some.inj ht
        rfl
    · obtain rfl := Option.some.inj ht
      rfl
    · obtain rfl := Option.some.inj ht
      split <;> rfl
    · obtain rfl := Option.some.inj ht
      rfl
    · cases ht

end

end Sys2Proof.Machine
end

section
/-! Shared forms of instructions: what each form asks of its parts. -/
namespace Sys2Proof.Machine

variable {s : State} {c : Ctx} {g : WorkGroup} {w : Warp} {writes reads : List RegUse} {ls : List Nat} {u : Bool} {p d a b n m : Nat}
  {us : List SUse} {q : Seq}

/-! ## The issuer -/

theorem endsCanonical_withGroup {k : Ctx → WorkGroup → Warp → Out} (hk : ∀ c g w, EndsCanonical (k c g w)) :
    EndsCanonical (withGroup s k) := by
  unfold withGroup
  split
  · split
    · split
      · exact hk _ _ _
      · exact endsCanonical_fault
    · exact endsCanonical_fault
  · exact endsCanonical_fault

theorem endsCanonical_withSeq {k : Nat → Seq → Nat → Nat → Out} (hk : ∀ p q word lit, EndsCanonical (k p q word lit)) :
    EndsCanonical (withSeq s k) := by
  unfold withSeq
  split
  · split
    · exact hk _ _ _ _
    · exact endsCanonical_fault
  · exact endsCanonical_fault

section
variable (h : s.mem.wf = true)
include h

@[simp] theorem endsCanonical_trapWord {bit : Nat} : EndsCanonical (trapWord s c bit) := by simp [trapWord, h]
@[simp] theorem endsCanonical_trapRange {r : Nat} : EndsCanonical (trapRange s c r) := by simp [trapRange, h]

theorem endsCanonical_withRegs {k : Unit → Out} (hk : EndsCanonical (k ())) : EndsCanonical (withRegs s c w ls writes reads k) := by
  unfold withRegs
  split
  · simp [h]
  · exact hk

theorem endsCanonical_releasing {k : Unit → Out} (hk : EndsCanonical (k ())) : EndsCanonical (releasing s c ls k) := by
  unfold releasing
  split
  · simp [h]
  · exact hk

theorem endsCanonical_withAccs {as : List Acc} {k : State → Out} (hk : ∀ t : State, t.mem.wf = true → EndsCanonical (k t)) :
    EndsCanonical (withAccs s c g w as k) := by
  unfold withAccs
  dsimp only
  split
  · exact hk _ (by simp [h])
  · simp [h]

theorem endsCanonical_withSpad {kind : Kind} {f : Nat → Nat} {k : Unit → Out} (hk : EndsCanonical (k ())) :
    EndsCanonical (withSpad s c g w kind n ls f k) := by
  unfold withSpad
  dsimp only
  split
  · exact hk
  · simp [h]

theorem endsCanonical_engineRelease {k : Unit → Out} (hk : EndsCanonical (k ())) :
    EndsCanonical (engineRelease s c u w writes reads k) := by
  unfold engineRelease
  split
  · simp [h]
  · exact endsCanonical_withRegs h (endsCanonical_releasing h hk)

theorem endsCanonical_withSregs {k : Nat → Seq → Nat → Nat → Out} (hk : ∀ p q word lit, EndsCanonical (k p q word lit)) :
    EndsCanonical (withSregs s us k) :=
  endsCanonical_withSeq fun p q word lit => by
    split
    · exact hk _ _ _ _
    · simp [h]

theorem endsCanonical_withTile {k : Nat → Seq → Nat → Out} (hk : ∀ p q word, EndsCanonical (k p q word)) :
    EndsCanonical (withTile s n us k) :=
  endsCanonical_withSeq fun p q word _ => by
    split
    · simp [h]
    · split
      · simp [h]
      · exact hk _ _ _

theorem endsCanonical_withRows {k : Nat × Nat → Out} (hk : ∀ r, EndsCanonical (k r)) : EndsCanonical (withRows s p q b k) := by
  unfold withRows
  split
  · exact hk _
  · simp [h]

theorem endsCanonical_systemOp {level : Nat} {k : Ctx → WorkGroup → Warp → Out} (hk : ∀ c g w, EndsCanonical (k c g w)) :
    EndsCanonical (systemOp level writes reads k s) :=
  endsCanonical_withGroup fun c g w => by
    split
    · simp [h]
    · exact endsCanonical_withRegs h (hk _ _ _)

/-! ## Lanes -/

theorem endsCanonical_laneByLane {fin : State → State} {f : LaneStep}
    (hf : ∀ s l, s.mem.wf = true → AllOk (·.1.mem.wf = true) (f s l)) (hfin : ∀ t : State, t.mem.wf = true → (fin t).mem.wf = true) :
    EndsCanonical (laneByLane s c u fin f) := by
  unfold laneByLane
  have hr := laneSteps_wf (ls := c.readers u) hf h
  split
  · have hw := fst_wf hr ‹_›
    exact endsCanonical_next.mpr (hfin _ (by simp [hw]))
  · have hw := fst_wf hr ‹_›
    simp [hw]

theorem endsCanonical_laneWaits {kind : Nat → WaitKind} {f : WaitStep} {fin : State → State}
    (hf : ∀ s l, s.mem.wf = true → AllOk (fun r => ∀ x ∈ r, x.1.mem.wf = true) (f s l))
    (hfin : ∀ t : State, t.mem.wf = true → (fin t).mem.wf = true) : EndsCanonical (laneWaits s c w u kind f fin) := by
  unfold laneWaits
  have hr := waitSteps_wf (c := c) (ls := c.readers u) (kind := kind) (group := fun l => if u = true then c.lanes else [l]) hf h
  generalize waitSteps kind _ c f s _ = e at hr
  dsimp only
  split
  · simp [h]
  · split <;> exact endsCanonical_next.mpr (hfin _ (by simp [hr]))

theorem endsCanonical_laneOp {f : Ctx → Warp → Nat → List (Nat × Word)} : EndsCanonical (laneOp u writes reads f s) :=
  endsCanonical_withGroup fun c g w => endsCanonical_withRegs h (by simp [h])

theorem endsCanonical_unary {f : Word → Word} : EndsCanonical (unary u d a f s) := endsCanonical_laneOp h
theorem endsCanonical_binary {f : Word → Word → Word} : EndsCanonical (binary u d a b f s) := endsCanonical_laneOp h
theorem endsCanonical_ternary {f : Word → Word → Word → Word} : EndsCanonical (ternary u d a b f s) := endsCanonical_laneOp h
theorem endsCanonical_constant {x : Word} : EndsCanonical (constant u d x s) := endsCanonical_laneOp h
theorem endsCanonical_pairOp {f : DWord → DWord → DWord} : EndsCanonical (pairOp u d a b f s) := endsCanonical_laneOp h
theorem endsCanonical_fromPair {f : DWord → Word} : EndsCanonical (fromPair u d a f s) := endsCanonical_laneOp h
theorem endsCanonical_toPair {f : Word → DWord} : EndsCanonical (toPair u d a f s) := endsCanonical_laneOp h
theorem endsCanonical_addressOf {off : Int} : EndsCanonical (addressOf u d off s) := endsCanonical_laneOp h

theorem endsCanonical_reject {bit : Nat} : EndsCanonical (reject bit s) := endsCanonical_withGroup fun c g w => by simp [h]

theorem endsCanonical_shiftImm {f : Word → Nat → Word} : EndsCanonical (shiftImm u d a n f s) := by
  unfold shiftImm
  split
  · exact endsCanonical_reject h
  · exact endsCanonical_laneOp h

theorem endsCanonical_widenPart {bits limit : Nat} {f : Fmt} : EndsCanonical (widenPart u d a n bits limit f s) := by
  unfold widenPart
  split
  · exact endsCanonical_reject h
  · exact endsCanonical_laneOp h

theorem endsCanonical_partOp {f : Warp → Nat → Nat} {put_ : Word → Nat → Word} : EndsCanonical (partOp u d reads f put_ s) :=
  endsCanonical_withGroup fun c g w => endsCanonical_withRegs h (by simp [h])

theorem endsCanonical_narrowHalf {put_ : Word → Nat → Word} {f : Fmt} : EndsCanonical (narrowHalf u d a put_ f s) :=
  endsCanonical_partOp h

theorem endsCanonical_narrowPair {put_ : Word → Nat → Word} {f : Fmt} : EndsCanonical (narrowPair u d a b put_ f s) :=
  endsCanonical_partOp h

theorem endsCanonical_exchange {f : Ctx → Warp → Nat → Word} : EndsCanonical (exchange d reads f s) :=
  endsCanonical_withGroup fun c g w => by
    split
    · simp [h]
    · exact endsCanonical_laneOp h

theorem endsCanonical_maskOp {f : Ctx → Warp → Word} : EndsCanonical (maskOp m f s) :=
  endsCanonical_withGroup fun c g w => by simp [h]

/-! ## Control transfers -/

theorem endsCanonical_branchIf {test : Word → Bool} : EndsCanonical (branchIf u a n test s) :=
  endsCanonical_withGroup fun c g w => endsCanonical_withRegs h (by simp [h])

theorem endsCanonical_indirect {link : List Nat} : EndsCanonical (indirect u link a s) :=
  endsCanonical_withGroup fun c g w => by
    dsimp only
    split
    · simp [h]
    · refine endsCanonical_withRegs h ?_
      split <;> simp [h]

/-! ## Loads, stores, atomics -/

theorem endsCanonical_loadOp {la : Nat} {off : Int} {sign sync : Bool} : EndsCanonical (loadOp u la d a off n sign sync s) :=
  endsCanonical_withGroup fun c g w => by
    split
    · simp [h]
    · refine endsCanonical_withRegs h (endsCanonical_withAccs h fun s1 h1 => ?_)
      split
      all_goals have hw := fst_wf (loadAll_wf (fun _ _ hs => State.loadAcc_wf hs) h1) ‹_›
      · simp [hw]
      · simp [hw]

theorem endsCanonical_storeOp {off : Int} {sync : Bool} : EndsCanonical (storeOp u d a off n sync s) :=
  endsCanonical_withGroup fun c g w => by
    split
    · simp [h]
    · refine endsCanonical_withRegs h (endsCanonical_withAccs h fun s1 h1 => endsCanonical_releasing h1 ?_)
      split
      all_goals have hw := fst_wf (storeAll_wf (fun _ _ hs => State.storeAcc_wf hs) h1) ‹_›
      · simp [hw]
      · simp [hw]

theorem endsCanonical_ldsOp {la x : Nat} : EndsCanonical (ldsOp u la a b x n s) :=
  endsCanonical_withGroup fun c g w => by
    split
    · simp [h]
    · refine endsCanonical_withRegs h (endsCanonical_withSpad h ?_)
      split
      all_goals have hw := fst_wf (loadAll_wf (fun _ _ hs => State.spadLoad_wf hs) h) ‹_›
      · simp [hw]
      · simp [hw]

theorem endsCanonical_stsOp {x : Nat} : EndsCanonical (stsOp u a b x n s) :=
  endsCanonical_withGroup fun c g w => by
    split
    · simp [h]
    · exact endsCanonical_withRegs h (endsCanonical_withSpad h (by simp [h]))

theorem endsCanonical_prefetch : EndsCanonical (prefetch s) :=
  endsCanonical_withGroup fun c g w => by
    split
    · simp [h]
    · split <;> simp [h]

theorem endsCanonical_atomOp {la : Nat} {f : Warp → Nat → Word → Option Word} : EndsCanonical (atomOp u la d a reads f s) :=
  endsCanonical_withGroup fun c g w => by
    split
    · simp [h]
    · refine endsCanonical_withRegs h (endsCanonical_withAccs h fun s1 h1 => endsCanonical_releasing h1 ?_)
      split
      all_goals have hw := fst_wf (loadAll_wf (fun _ _ hs => State.atomAcc_wf hs) h1) ‹_›
      · simp [hw]
      · simp [hw]

theorem endsCanonical_atomWith {la : Nat} {op : Word → Word → Word} : EndsCanonical (atomWith u la d a b op s) := endsCanonical_atomOp h

/-! ## Relations, engines, gates -/

theorem endsCanonical_relationOp {join : Bool} {bad a : Option Nat} {sc k rid : Nat} :
    EndsCanonical (relationOp join bad sc a k rid s) :=
  endsCanonical_withGroup fun c g w => by
    dsimp only
    split
    · simp [h]
    · split
      · simp [h]
      · split
        · simp [h]
        · split
          · exact endsCanonical_fault
          · split
            · simp [h]
            · refine endsCanonical_withRegs h ?_
              split
              · simp [h]
              · refine endsCanonical_releasing h ?_
                simp only [endsCanonical_next, State.settle_mem, ite_mem, retireTo_mem, raiseTrap_mem, State.modWarp_mem, ite_self]
                exact arriveAll_wf (fun _ _ hs => arriveLane_wf hs) h

theorem endsCanonical_parkOp {bad : Option Nat} {sc : Nat} : EndsCanonical (parkOp bad sc a s) :=
  endsCanonical_withGroup fun c g w => by
    dsimp only
    split
    · simp [h]
    · split
      · simp [h]
      · split
        · simp [h]
        · split
          · exact endsCanonical_fault
          · split
            · simp [h]
            · refine endsCanonical_withRegs h ?_
              split
              · simp [h]
              · refine endsCanonical_releasing h ?_
                simp only [endsCanonical_next, State.settle_mem]
                split
                all_goals simp only [retireTo_mem, raiseTrap_mem, State.modWarp_mem]
                all_goals exact parkAll_wf (fun _ _ hs => parkLane_wf hs) h

theorem endsCanonical_relationCounted {release : Bool} {f : Ctx → WorkGroup → Warp → LaneStep}
    (hf : ∀ c g w s l, s.mem.wf = true → AllOk (·.1.mem.wf = true) (f c g w s l)) :
    EndsCanonical (relationCounted u release writes a f s) :=
  endsCanonical_withGroup fun c g w => by
    split
    · simp [h]
    · refine endsCanonical_withRegs h (endsCanonical_releasing h (endsCanonical_laneByLane (by simp [h]) (fun t l ht => ?_) ?_))
      · split
        · exact allOk_error
        · exact hf _ _ _ _ _ ht
      · simp

theorem endsCanonical_engineCounted {f : LaneStep} (hf : ∀ s l, s.mem.wf = true → AllOk (·.1.mem.wf = true) (f s l)) :
    EndsCanonical (engineCounted s c u w writes reads f) :=
  endsCanonical_engineRelease h (endsCanonical_laneByLane (by simp [h]) hf (by simp))

theorem endsCanonical_pinOp {f : List Nat → List Nat → List Nat} : EndsCanonical (pinOp a b f s) :=
  endsCanonical_withGroup fun c g w => endsCanonical_withRegs h (by simp [h])

theorem endsCanonical_gateRead {f : Warp → Nat → DWord → List (Nat × Word)} : EndsCanonical (gateRead u d n a reads f s) :=
  endsCanonical_withGroup fun c g w => by
    refine endsCanonical_withRegs h ?_
    have hf (t : State) (l : Nat) (ht : t.mem.wf = true) : AllOk (fun r : State × List (Nat × Word) => r.1.mem.wf = true) (do
        let x ← t.gateFor c g w true (w.reg a l).toNat
        return (t.gateAcquire c.p g.core, f w l x.2.value)) := allOk_bind fun x _ => by simp [ht]
    dsimp only
    split
    all_goals simp only [endsCanonical_next, retire_mem, writeLanes_mem, raiseTrap_mem, advance_mem, State.noteGate_mem]
    all_goals exact laneSteps_wf hf h

/-! ## Engines, commands of a partition, elections -/

theorem endsCanonical_copyCmd {k : Nat → Seq → Nat → State} (hk : ∀ p q word, (k p q word).mem.wf = true) :
    EndsCanonical (copyCmd us k s) :=
  endsCanonical_withSregs h fun p q word _ => by simp [h, hk]

theorem endsCanonical_ssigOp {k : Kind} {f : Seq → Nat → Nat} : EndsCanonical (ssigOp a n us k f s) :=
  endsCanonical_withSregs h fun p q word _ => by
    split
    · simp [h]
    · split
      · simp [h]
      · split
        · simp [h]
        · split
          · simp [h]
          · split
            · have hw := State.putLoc_wf h _ ‹_›
              simp [hw]
            · simp [h]

theorem endsCanonical_sldaOp : EndsCanonical (sldaOp d a n us s) :=
  endsCanonical_withSregs h fun p q word _ => by
    dsimp only
    split
    · simp [h]
    · split <;> simp [h]

theorem endsCanonical_hrOp {ok : Seq → Bool} {f : Seq → Tile → Word} : EndsCanonical (hrOp d a us ok f s) :=
  endsCanonical_withTile h fun p q word => by simp [h]

theorem endsCanonical_elasticOp {join : Bool} : EndsCanonical (elasticOp join d a s) :=
  endsCanonical_copyCmd h fun p q word => by
    dsimp only
    split
    · simp [h]
    · split <;> simp [h]

theorem endsCanonical_eventOp {empty : State → Nat → Seq → Nat → State}
    (he : ∀ p q word, (empty s p q word).mem.wf = true) : EndsCanonical (eventOp d empty s) :=
  endsCanonical_withSregs h fun p q word _ => by
    dsimp only
    split
    · simp [he]
    · simp [h]

theorem endsCanonical_commandOp {cmd : Nat} : EndsCanonical (commandOp cmd s) := by simp [commandOp, h]

theorem endsCanonical_electionOp {cmd : Nat} : EndsCanonical (electionOp cmd s) := by simp [electionOp, h]

end

end Sys2Proof.Machine
end

section
/-! Instructions of the groups that no shared form covers. -/
namespace Sys2Proof.Machine

variable {s : State} {u v : Bool} {a b d e f k l m n x : Nat} (h : s.mem.wf = true)
include h

/-! ## Control, masks -/

theorem endsCanonical_execBra : EndsCanonical (execBra u n s) := endsCanonical_withGroup fun c g w => by simp [h]

theorem endsCanonical_execCall : EndsCanonical (execCall u d n s) :=
  endsCanonical_withGroup fun c g w => by
    split
    · simp [h]
    · split
      · simp [h]
      · exact endsCanonical_withRegs h (by simp [h])

theorem endsCanonical_execNop : EndsCanonical (execNop s) := endsCanonical_withGroup fun c g w => by simp [h]
theorem endsCanonical_execYield : EndsCanonical (execYield s) := endsCanonical_withGroup fun c g w => by simp [h]
theorem endsCanonical_execPhase : EndsCanonical (execPhase s) := endsCanonical_withGroup fun c g w => by simp [h]
theorem endsCanonical_execMeet : EndsCanonical (execMeet s) := endsCanonical_withGroup fun c g w => by simp [h]

theorem endsCanonical_execSrd : EndsCanonical (execSrd u d n s) :=
  endsCanonical_withGroup fun c g w => by
    split
    · simp [h]
    · exact endsCanonical_withRegs h (by simp [h])

theorem endsCanonical_execMskwr : EndsCanonical (execMskwr u a m s) :=
  endsCanonical_withGroup fun c g w => by
    split
    · simp [h]
    · exact endsCanonical_withRegs h (by simp [h])

theorem endsCanonical_execMskrd : EndsCanonical (execMskrd u d m s) :=
  endsCanonical_withGroup fun c g w => by
    split
    · simp [h]
    · exact endsCanonical_laneOp h

theorem endsCanonical_execWaitm : EndsCanonical (execWaitm u m s) := endsCanonical_withGroup fun c g w => by simp [h]
theorem endsCanonical_execExit : EndsCanonical (execExit s) := endsCanonical_withGroup fun c g w => by simp [h]

theorem endsCanonical_headerStep : EndsCanonical (headerStep s) :=
  endsCanonical_withGroup fun c g w => by
    dsimp only
    split
    · split <;> simp [h]
    · simp [h]

/-! ## Lanes with each other, blocks -/

theorem endsCanonical_execBcast : EndsCanonical (execBcast d a n s) :=
  endsCanonical_withGroup fun c g w => by
    split
    · simp [h]
    · exact endsCanonical_exchange h

theorem endsCanonical_execVote : EndsCanonical (execVote d a m s) :=
  endsCanonical_withGroup fun c g w => by
    split
    · simp [h]
    · split
      · simp [h]
      · exact endsCanonical_exchange h

theorem endsCanonical_execQnt : EndsCanonical (execQnt u f d a s) :=
  endsCanonical_withGroup fun c g w => by
    dsimp only
    split
    · simp [h]
    · split
      · simp [h]
      · split <;> simp [h]

theorem endsCanonical_execDqnt : EndsCanonical (execDqnt u d a s) :=
  endsCanonical_withGroup fun c g w => by
    split
    · simp [h]
    · split
      · simp [h]
      · split
        · simp [h]
        · split <;> simp [h]

theorem endsCanonical_execRadd : EndsCanonical (execRadd u l f a b x s) :=
  endsCanonical_withGroup fun c g w => by
    split
    · simp [h]
    · refine endsCanonical_withRegs h (endsCanonical_withAccs h fun s1 h1 => ?_)
      split
      all_goals have hw := fst_wf (storeAll_wf (fun _ _ hs => State.raddAcc_wf hs) h1) ‹_›
      · simp [hw]
      · simp [hw]

/-! ## Fences, LBAR -/

theorem endsCanonical_execFence : EndsCanonical (execFence s) :=
  endsCanonical_withGroup fun c g w => endsCanonical_releasing h (by simp [h])

theorem endsCanonical_execXfence : EndsCanonical (execXfence u a b s) :=
  endsCanonical_withGroup fun c g w => by
    split
    · simp [h]
    · split
      · simp [h]
      · exact endsCanonical_releasing h (by simp [h])

theorem endsCanonical_execLbar : EndsCanonical (execLbar u k s) :=
  endsCanonical_withGroup fun c g w => by
    split
    · simp [h]
    · split
      · exact endsCanonical_fault
      · dsimp only
        split
        · simp [h]
        · exact endsCanonical_releasing h (by simp [h])

/-! ## Relations, programs, continuations, deques, registers -/

theorem endsCanonical_execRelopen : EndsCanonical (execRelopen u d a s) :=
  endsCanonical_relationCounted h fun c g w s l hs => allOk_bind fun t _ => allOk_bind fun r _ => by simp [hs]

theorem endsCanonical_execRelseal : EndsCanonical (execRelseal u d a s) :=
  endsCanonical_relationCounted h fun c g w s l hs => allOk_bind fun t _ => allOk_bind fun r _ => by simp [hs]

theorem endsCanonical_execRelcnt : EndsCanonical (execRelcnt u d a s) :=
  endsCanonical_relationCounted h fun c g w s l hs => allOk_bind fun t _ => by
    split
    · exact allOk_error
    · split <;> simp [hs]

theorem endsCanonical_execFork : EndsCanonical (execFork u a n s) :=
  endsCanonical_withGroup fun c g w => by
    split
    · simp [h]
    · split
      · simp [h]
      · split
        · exact endsCanonical_fault
        · split
          · simp [h]
          · refine endsCanonical_withRegs h ?_
            dsimp only
            split <;> simp [h]

theorem endsCanonical_execRdv : EndsCanonical (execRdv s) := endsCanonical_withGroup fun c g w => by simp [h]

theorem endsCanonical_execCpush : EndsCanonical (execCpush u a s) :=
  endsCanonical_withGroup fun c g w => endsCanonical_engineCounted h fun s l hs => allOk_bind fun r hr => by
    have hw := State.laneRead_wf hs r hr
    split
    · exact allOk_error
    · split
      · exact allOk_error
      · simp [hw]

theorem endsCanonical_execJcdec : EndsCanonical (execJcdec u a s) :=
  endsCanonical_withGroup fun c g w => endsCanonical_engineRelease h (by
    have hf : s.fresh.mem.wf = true := by simp [h]
    split
    all_goals have hw := fst_wf (jcdecAll_wf hf) ‹_›
    · simp [hw]
    · simp [hw])

theorem endsCanonical_execDqpush : EndsCanonical (execDqpush u d a s) :=
  endsCanonical_withGroup fun c g w => endsCanonical_engineCounted h fun s l hs => by
    dsimp only
    split
    · exact allOk_error
    · split <;> simp [hs]

theorem endsCanonical_execDqpop : EndsCanonical (execDqpop u d s) :=
  endsCanonical_withGroup fun c g w => endsCanonical_withRegs h (endsCanonical_laneByLane h
    (fun s l hs => by split <;> simp [hs]) fun t ht => ht)

theorem endsCanonical_execDqsteal : EndsCanonical (execDqsteal u d a s) :=
  endsCanonical_withGroup fun c g w => endsCanonical_withRegs h (endsCanonical_laneByLane h
    (fun s l hs => by dsimp only; split <;> simp [hs]) fun t ht => ht)

theorem endsCanonical_execReggrow : EndsCanonical (execReggrow u n s) := endsCanonical_withGroup fun c g w => by simp [h]
theorem endsCanonical_execRegshrink : EndsCanonical (execRegshrink u n s) := endsCanonical_withGroup fun c g w => by simp [h]

theorem endsCanonical_execLaunch : EndsCanonical (execLaunch u d a s) :=
  endsCanonical_withGroup fun c g w => endsCanonical_engineRelease h (by
    have hf : s.fresh.mem.wf = true := by simp [h]
    dsimp only
    split
    · simp [h]
    · split
      · simp [h]
      · simp only [endsCanonical_next, State.openEngine_mem, retire_mem, writeLanes_mem]
        exact launchAll_wf (fst_wf (loadAll_wf (fun _ _ hs => State.laneRead_wf hs) hf) ‹_›))

/-! ## Rings, tile queues -/

theorem endsCanonical_execRbpush : EndsCanonical (execRbpush u a b s) :=
  endsCanonical_withGroup fun c g w => endsCanonical_withRegs h (endsCanonical_releasing h
    (endsCanonical_laneWaits h (fun s l hs => allOk_bind fun _ _ => by
      split
      · simp
      · refine allOk_bind fun r hr => allOk_pure.mpr fun x hx => ?_
        obtain ⟨t, ht, rfl⟩ := Option.map_eq_some_iff.mp hx
        exact State.ringPush_wf hs r hr t ht) fun t ht => State.serveRings_wf ht))

theorem endsCanonical_execRbpop : EndsCanonical (execRbpop u d a s) :=
  endsCanonical_withGroup fun c g w => by
    split
    · simp [h]
    · refine endsCanonical_withRegs h (endsCanonical_laneWaits h (fun s l hs => allOk_bind fun _ _ => ?_)
        fun t ht => State.serveRings_wf ht)
      split
      · simp
      · refine allOk_bind fun r hr => allOk_pure.mpr fun x hx => ?_
        obtain ⟨t, ht, rfl⟩ := Option.map_eq_some_iff.mp hx
        exact State.ringPop_wf hs r hr t ht

theorem endsCanonical_execRbfree : EndsCanonical (execRbfree u d a b s) :=
  endsCanonical_withGroup fun c g w => endsCanonical_withRegs h (endsCanonical_laneWaits h
    (fun s l hs => allOk_bind fun r _ => by simp [hs]) fun t ht => State.serveRings_wf ht)

theorem endsCanonical_execTqpop : EndsCanonical (execTqpop u d n s) :=
  endsCanonical_withGroup fun c g w => by
    split
    · simp [h]
    · split
      · simp [h]
      · refine endsCanonical_withRegs h (endsCanonical_laneWaits h (fun s l hs => ?_) fun t ht => ht)
        split
        · simp
        · split <;> simp [hs]

/-! ## Gates -/

theorem endsCanonical_execGsig : EndsCanonical (execGsig u a b s) :=
  endsCanonical_withGroup fun c g w => endsCanonical_engineRelease h (by
    dsimp only
    split
    all_goals simp only [endsCanonical_next, retire_mem, raiseTrap_mem, advance_mem, State.noteGate_mem, ite_mem, State.openEngine_mem,
      ite_self]
    all_goals
      refine laneSteps_wf (fun t l ht => allOk_bind fun n _ => ?_) h
      split
      · have hw := State.signal_mem _ ‹_›
        simp [hw, ht]
      · exact allOk_error)

theorem endsCanonical_execGwait : EndsCanonical (execGwait u d a b s) :=
  endsCanonical_withGroup fun c g w => by
    split
    · simp [h]
    · refine endsCanonical_withRegs h (endsCanonical_laneWaits h (fun s l hs => allOk_bind fun x _ => ?_) fun t ht => ?_)
      · split
        · simp
        · simp [hs]
      · split <;> simp [ht]

/-! ## Groups -/

theorem endsCanonical_execMldr : EndsCanonical (execMldr u l a b x s) :=
  endsCanonical_withGroup fun c g w => by
    split
    · simp [h]
    · refine endsCanonical_withRegs h ?_
      dsimp only
      split
      · simp [h]
      · generalize e : List.foldl _ s _ = s0
        have h0 : s0.mem.wf = true := by simp [← e, h]
        split
        all_goals have hw := fst_wf (loadAll_wf (fun _ _ hs => State.mldrLane_wf hs) h0) ‹_›
        · simp [hw]
        · simp [hw]

theorem endsCanonical_execMst : EndsCanonical (execMst u l a b x s) :=
  endsCanonical_withGroup fun c g w => by
    dsimp only
    split
    · simp [h]
    · split
      · simp [h]
      · split
        · simp [h]
        · generalize e : List.foldl _ s _ = s0
          have h0 : s0.mem.wf = true := by simp [← e, h]
          split
          all_goals
            simp only [endsCanonical_next, retire_mem, raiseTrap_mem, State.fresh_mem]
            refine fst_wf (storeAll_wf (fun t y ht => ?_) h0) ‹_›
            split
            · have hw := State.memberWrites_wf ht _ ‹_›
              simp [hw]
            · exact allOk_error

/-! ## Privileged instructions -/

theorem endsCanonical_execTrap : EndsCanonical (execTrap s) := endsCanonical_withGroup fun c g w => by simp [h]
theorem endsCanonical_execBkpt : EndsCanonical (execBkpt s) := endsCanonical_withGroup fun c g w => by simp [h]
theorem endsCanonical_execTrapret : EndsCanonical (execTrapret s) := endsCanonical_withGroup fun c g w => by simp [h]

theorem endsCanonical_execCsrr : EndsCanonical (execCsrr u d n s) :=
  endsCanonical_withGroup fun c g w => by
    split
    · simp [h]
    · exact endsCanonical_systemOp h fun c g w => by simp [h]

theorem endsCanonical_execCsrw : EndsCanonical (execCsrw u a n s) :=
  endsCanonical_withGroup fun c g w => by
    split
    · simp [h]
    · split
      · simp [h]
      · refine endsCanonical_systemOp h fun c g w => ?_
        split
        · have hw := State.csrWrite_wf h _ ‹_›
          simp [hw]
        · simp [h]

theorem endsCanonical_execTlbinv : EndsCanonical (execTlbinv u a b s) := endsCanonical_systemOp h fun c g w => by simp [h]

theorem endsCanonical_execCinv : EndsCanonical (execCinv u a b s) :=
  endsCanonical_systemOp h fun c g w => by
    dsimp only
    split
    · simp [h]
    · split
      · simp [h]
      · split
        · simp [h]
        · split <;> simp [h]

theorem endsCanonical_execTokxfer : EndsCanonical (execTokxfer u d a b s) := endsCanonical_systemOp h fun c g w => by simp [h]

theorem endsCanonical_execClklock : EndsCanonical (execClklock u a b s) :=
  endsCanonical_systemOp h fun c g w => by
    dsimp only
    split
    · simp [h]
    · split
      · simp [h]
      · split <;> simp [h]

theorem endsCanonical_execSleep : EndsCanonical (execSleep u a s) :=
  endsCanonical_withGroup fun c g w => by
    split
    · simp [h]
    · exact endsCanonical_withRegs h (by simp [h])

theorem endsCanonical_execWatch : EndsCanonical (execWatch u a b s) := endsCanonical_systemOp h fun c g w => by simp [h]

end Sys2Proof.Machine
end

section
/-! Instructions of sequencers, events. -/
namespace Sys2Proof.Machine

variable {s : State} {u v : Bool} {a b d f n : Nat} (h : s.mem.wf = true)
include h

/-! ## Sequencers -/

theorem endsCanonical_execSmov : EndsCanonical (execSmov u d a s) := endsCanonical_withSregs h fun p q word lit => by simp [h]
theorem endsCanonical_execSadd : EndsCanonical (execSadd u d a b s) := endsCanonical_withSregs h fun p q word lit => by simp [h]
theorem endsCanonical_execSli : EndsCanonical (execSli u d n s) := endsCanonical_withSregs h fun p q word lit => by simp [h]
theorem endsCanonical_execSliWide : EndsCanonical (execSliWide d n s) := endsCanonical_withSregs h fun p q word lit => by simp [h]
theorem endsCanonical_execSbnz : EndsCanonical (execSbnz u a n s) := endsCanonical_withSregs h fun p q word lit => by simp [h]
theorem endsCanonical_execSloop : EndsCanonical (execSloop u a n s) := endsCanonical_withSregs h fun p q word lit => by simp [h]
theorem endsCanonical_execSwait : EndsCanonical (execSwait s) := endsCanonical_withSeq fun p q word lit => by simp [h]
theorem endsCanonical_execEndProg : EndsCanonical (execEndProg s) := endsCanonical_withSeq fun p q word lit => by simp [h]
theorem endsCanonical_execTtop : EndsCanonical (execTtop u a s) := endsCanonical_withSregs h fun p q word lit => by simp [h]
theorem endsCanonical_execAgset : EndsCanonical (execAgset u v a b s) := endsCanonical_withSregs h fun p q word lit => by simp [h]
theorem endsCanonical_execMsync : EndsCanonical (execMsync u v a s) := endsCanonical_withSeq fun p q word lit => by simp [h]
theorem endsCanonical_seqHeader : EndsCanonical (seqHeader s) := endsCanonical_withSeq fun p q word lit => by simp [h]

theorem endsCanonical_execClauseHeader : EndsCanonical (execClauseHeader s) := by
  unfold execClauseHeader
  split
  · exact endsCanonical_seqHeader h
  · exact endsCanonical_headerStep h

theorem endsCanonical_execEvpop : EndsCanonical (execEvpop u d s) := endsCanonical_eventOp h fun p q word => by simp [h]
theorem endsCanonical_execEvwait : EndsCanonical (execEvwait u d s) := endsCanonical_eventOp h fun _ _ _ => h

/-! ### Tiles -/

theorem endsCanonical_execTcfg : EndsCanonical (execTcfg u v d a s) := endsCanonical_withTile h fun p q word => by simp [h]
theorem endsCanonical_execTzero : EndsCanonical (execTzero u v d s) := endsCanonical_withTile h fun p q word => by simp [h]
theorem endsCanonical_execMma : EndsCanonical (execMma u v d a s) := endsCanonical_withTile h fun p q word => by simp [h]
theorem endsCanonical_execMmas : EndsCanonical (execMmas u v d a s) := endsCanonical_withTile h fun p q word => by simp [h]
theorem endsCanonical_execMmao : EndsCanonical (execMmao u v d a s) := endsCanonical_withTile h fun p q word => by simp [h]
theorem endsCanonical_execAccnorm : EndsCanonical (execAccnorm u v d s) := endsCanonical_withTile h fun p q word => by simp [h]

theorem endsCanonical_execTzeroRows : EndsCanonical (execTzeroRows u v d b s) :=
  endsCanonical_withTile h fun p q word => endsCanonical_withRows h fun r => by simp [h]
theorem endsCanonical_execTwr : EndsCanonical (execTwr u v d a b s) :=
  endsCanonical_withTile h fun p q word => endsCanonical_withRows h fun r => by simp [h]
theorem endsCanonical_execAccrd : EndsCanonical (execAccrd u v d a b s) :=
  endsCanonical_withTile h fun p q word => endsCanonical_withRows h fun r => by simp [h]
theorem endsCanonical_execAccrdClr : EndsCanonical (execAccrdClr u v d a b s) :=
  endsCanonical_withTile h fun p q word => endsCanonical_withRows h fun r => by simp [h]
theorem endsCanonical_execAccnormRows : EndsCanonical (execAccnormRows u v d b s) :=
  endsCanonical_withTile h fun p q word => endsCanonical_withRows h fun r => by simp [h]

/-! ### Copies, look-ups, collectives -/

theorem endsCanonical_execCpy : EndsCanonical (execCpy u v d a b s) := endsCanonical_copyCmd h fun p q word => by simp [h]
theorem endsCanonical_execGather : EndsCanonical (execGather u v d a b s) := endsCanonical_copyCmd h fun p q word => by simp [h]
theorem endsCanonical_execScatter : EndsCanonical (execScatter u v d a b s) := endsCanonical_copyCmd h fun p q word => by simp [h]
theorem endsCanonical_execStage : EndsCanonical (execStage u v a b s) := endsCanonical_copyCmd h fun p q word => by simp [h]
theorem endsCanonical_execTopk : EndsCanonical (execTopk u v d a b s) := endsCanonical_copyCmd h fun p q word => by simp [h]
theorem endsCanonical_execCpym : EndsCanonical (execCpym u v f d a b s) := endsCanonical_withSregs h fun p q word lit => by simp [h]

theorem endsCanonical_execEmblk : EndsCanonical (execEmblk u v d a b s) :=
  endsCanonical_copyCmd h fun p q word => by
    dsimp only
    split
    · simp [h]
    · split <;> simp [h]

theorem endsCanonical_execColl : EndsCanonical (execColl u v a s) :=
  endsCanonical_copyCmd h fun p q word => by
    split
    · simp [h]
    · dsimp only
      split
      · simp [h]
      · exact State.collStart_wf h

theorem endsCanonical_execCpymFollowOn : EndsCanonical (execCpymFollowOn s) := by
  refine endsCanonical_next.mpr ?_
  split
  · exact h
  · split
    · exact h
    · split
      · simp [State.copyRun_wf h]
      · simp [h]
      · exact h

theorem endsCanonical_execTtopSlotStart : EndsCanonical (execTtopSlotStart s) := by
  refine endsCanonical_next.mpr ?_
  split
  · exact h
  · split
    · dsimp only
      split
      · exact h
      · split
        · split <;> simp [h]
        · simp [h]
    · exact h

theorem endsCanonical_execArrivedTilePush : EndsCanonical (execArrivedTilePush s) := by
  refine endsCanonical_next.mpr ?_
  split
  · exact h
  · split
    · exact h
    · dsimp only
      split
      · exact h
      · split <;> simp [h]

theorem endsCanonical_execEngineCommandComplete : EndsCanonical (execEngineCommandComplete s) := by
  refine endsCanonical_next.mpr ?_
  split
  · exact h
  · split
    · exact h
    · exact State.finishCmd_wf (State.runCmd_wf h)

/-! ## Migration, federation, agreement -/

theorem endsCanonical_execMigrationGo : EndsCanonical (execMigrationGo s) := by simp [execMigrationGo, State.migrationGo_wf, h]
theorem endsCanonical_execMigrationSwitchOver : EndsCanonical (execMigrationSwitchOver s) := endsCanonical_next.mpr (State.switchOver_wf h)
theorem endsCanonical_execMigrationFailure : EndsCanonical (execMigrationFailure s) := by simp [execMigrationFailure, h]
theorem endsCanonical_execParkedRetry : EndsCanonical (execParkedRetry s) := by simp [execParkedRetry, State.retryParked_wf, h]
theorem endsCanonical_execParkedDrop : EndsCanonical (execParkedDrop s) := by simp [execParkedDrop, h]

theorem endsCanonical_execParkedExpiry : EndsCanonical (execParkedExpiry s) := by
  refine endsCanonical_next.mpr ?_
  split
  · simp [h]
  · exact h

theorem endsCanonical_execFabricAccessServe : EndsCanonical (execFabricAccessServe s) := by
  unfold execFabricAccessServe
  dsimp only
  split
  · simp [h]
  · refine endsCanonical_next.mpr ?_
    split
    · exact State.performParked_wf h _ ‹_›
    · simp [h]

theorem endsCanonical_execMemberAbsentTimeout : EndsCanonical (execMemberAbsentTimeout s) := by
  refine endsCanonical_next.mpr ?_
  split
  · exact h
  · simp [h]

theorem endsCanonical_execSwitchUnreachable : EndsCanonical (execSwitchUnreachable s) := by
  refine endsCanonical_next.mpr ?_
  split
  · simp [h]
  · exact h

theorem endsCanonical_execSwitchReset : EndsCanonical (execSwitchReset s) := by simp [execSwitchReset, h]
theorem endsCanonical_execFabricFormation : EndsCanonical (execFabricFormation s) := by simp [execFabricFormation, h]
theorem endsCanonical_execTimeDomainLeave : EndsCanonical (execTimeDomainLeave s) := by simp [execTimeDomainLeave, h]
theorem endsCanonical_execTimeDomainRejoin : EndsCanonical (execTimeDomainRejoin s) := by simp [execTimeDomainRejoin, h]
theorem endsCanonical_execAgreementRoundStart : EndsCanonical (execAgreementRoundStart s) := by simp [execAgreementRoundStart, h]
theorem endsCanonical_execAgreementRoundEnd : EndsCanonical (execAgreementRoundEnd s) := by simp [execAgreementRoundEnd, h]

theorem endsCanonical_execAgreementAckTimeout : EndsCanonical (execAgreementAckTimeout s) := by
  refine endsCanonical_next.mpr ?_
  dsimp only
  split
  · exact h
  · simp [h]

/-! ## Work, groups, programs -/

theorem endsCanonical_execSequencerStart : EndsCanonical (execSequencerStart s) := by
  refine endsCanonical_next.mpr ?_
  split
  · split
    · split <;> simp [h]
    · exact h
  · exact h

theorem endsCanonical_execEngineCounterOperationComplete : EndsCanonical (execEngineCounterOperationComplete s) := endsCanonical_next.mpr h

theorem endsCanonical_execRelationOperationComplete : EndsCanonical (execRelationOperationComplete s) := by
  refine endsCanonical_next.mpr ?_
  split <;> simp [h]

theorem endsCanonical_execReggrowGrant : EndsCanonical (execReggrowGrant s) := by simp [execReggrowGrant, h]

theorem endsCanonical_execGateSignalApply : EndsCanonical (execGateSignalApply s) := by
  refine endsCanonical_next.mpr ?_
  split
  · exact (State.signal_mem _ ‹_›).symm ▸ h
  · simp [h]

theorem endsCanonical_execGateTokenRefill : EndsCanonical (execGateTokenRefill s) := by simp [execGateTokenRefill, h]

theorem endsCanonical_execCompletionRecordPush : EndsCanonical (execCompletionRecordPush s) := by
  refine endsCanonical_next.mpr ?_
  split <;> simp [h]

theorem endsCanonical_execControlProgramStart : EndsCanonical (execControlProgramStart s) := by
  refine endsCanonical_next.mpr ?_
  dsimp only
  split
  · exact h
  · split
    · exact h
    · split <;> simp [h]

theorem endsCanonical_execLookaheadResultWrite : EndsCanonical (execLookaheadResultWrite s) := endsCanonical_next.mpr h
theorem endsCanonical_execStorePerformed : EndsCanonical (execStorePerformed s) := by simp [execStorePerformed, h]
theorem endsCanonical_execSleepWake : EndsCanonical (execSleepWake s) := endsCanonical_next.mpr h

theorem endsCanonical_execPhaseTimerExpiry : EndsCanonical (execPhaseTimerExpiry s) := by
  refine endsCanonical_next.mpr ?_
  dsimp only
  split <;> simp [h]

theorem endsCanonical_execHandlerEntry : EndsCanonical (execHandlerEntry s) := by
  refine endsCanonical_next.mpr ?_
  split
  · exact h
  · split <;> simp [h]

theorem endsCanonical_execPlaceItem : EndsCanonical (execPlaceItem s) := endsCanonical_next.mpr (State.placeNext_wf h)
theorem endsCanonical_execPriorityAging : EndsCanonical (execPriorityAging s) := endsCanonical_next.mpr h
theorem endsCanonical_execPlacementReserve : EndsCanonical (execPlacementReserve s) := endsCanonical_next.mpr h
theorem endsCanonical_execOutputWarpStart : EndsCanonical (execOutputWarpStart s) := by simp [execOutputWarpStart, h]

theorem endsCanonical_execLbarPlacementPreempt : EndsCanonical (execLbarPlacementPreempt s) := by
  refine endsCanonical_next.mpr ?_
  split
  · exact h
  · split
    · dsimp only
      split
      · exact State.placeMissing_wf (by simp [h])
      · exact h
    · exact h

theorem endsCanonical_execLaunchComplete : EndsCanonical (execLaunchComplete s) := by simp [execLaunchComplete, h]
theorem endsCanonical_execWithdrawLaunch : EndsCanonical (execWithdrawLaunch s) := by simp [execWithdrawLaunch, h]
theorem endsCanonical_execPreempt : EndsCanonical (execPreempt s) := by simp [execPreempt, h]
theorem endsCanonical_execPreemptAndHold : EndsCanonical (execPreemptAndHold s) := by simp [execPreemptAndHold, h]
theorem endsCanonical_execPreemptRelease : EndsCanonical (execPreemptRelease s) := by simp [execPreemptRelease, h]
theorem endsCanonical_execPreemptSwapComplete : EndsCanonical (execPreemptSwapComplete s) := by simp [execPreemptSwapComplete, h]

theorem endsCanonical_execPreemptSpillComplete : EndsCanonical (execPreemptSpillComplete s) := by
  refine endsCanonical_next.mpr ?_
  split <;> simp [h]

/-! ## Queues -/

theorem endsCanonical_execQwptrWrite : EndsCanonical (execQwptrWrite s) := by simp [execQwptrWrite, h]
theorem endsCanonical_execQueueReset : EndsCanonical (execQueueReset s) := by simp [execQueueReset, h]
theorem endsCanonical_execQueueEnable : EndsCanonical (execQueueEnable s) := by simp [execQueueEnable, h]

theorem endsCanonical_execNopPacket : EndsCanonical (execNopPacket s) :=
  endsCanonical_next.mpr (State.onPacket_wf h fun _ => by simp [h])

theorem endsCanonical_execLaunchPacket : EndsCanonical (execLaunchPacket s) :=
  endsCanonical_next.mpr (State.onPacket_wf h fun _ => by
    split
    · simp [h]
    · split
      · simp [h]
      · split <;> simp [h])

theorem endsCanonical_execFencePacket : EndsCanonical (execFencePacket s) :=
  endsCanonical_next.mpr (State.onPacket_wf h fun _ => by split <;> simp [h])

theorem endsCanonical_execFenceCountersMet : EndsCanonical (execFenceCountersMet s) := by simp [execFenceCountersMet, h]

theorem endsCanonical_execFenceTimeout : EndsCanonical (execFenceTimeout s) := by
  refine endsCanonical_next.mpr ?_
  split <;> simp [h]

theorem endsCanonical_execWritePacket : EndsCanonical (execWritePacket s) :=
  endsCanonical_next.mpr (State.onPacket_wf h fun _ => by
    split
    · split
      · simp [h]
      · split
        · have hw := State.packetWrite_wf h _ ‹_›
          simp [hw]
        · simp [h]
    · simp [h])

theorem endsCanonical_execTimedPacket : EndsCanonical (execTimedPacket s) :=
  endsCanonical_next.mpr (State.onPacket_wf h fun _ => by split <;> simp [h])

theorem endsCanonical_execTimedReached : EndsCanonical (execTimedReached s) := by
  refine endsCanonical_next.mpr ?_
  split <;> simp [h]

/-! ## Registers, partitions, the host -/

theorem endsCanonical_execFreezeComplete : EndsCanonical (execFreezeComplete s) := endsCanonical_next.mpr (State.freezeComplete_wf h)
theorem endsCanonical_execTeardownComplete : EndsCanonical (execTeardownComplete s) := endsCanonical_next.mpr (State.tearComplete_wf h)
theorem endsCanonical_execPartitionFieldWrite : EndsCanonical (execPartitionFieldWrite s) := by simp [execPartitionFieldWrite, h]
theorem endsCanonical_execGateEntryWrite : EndsCanonical (execGateEntryWrite s) := by simp [execGateEntryWrite, h]
theorem endsCanonical_execRingEnWrite : EndsCanonical (execRingEnWrite s) := by simp [execRingEnWrite, h]
theorem endsCanonical_execOwnerLinkDown : EndsCanonical (execOwnerLinkDown s) := by simp [execOwnerLinkDown, h]
theorem endsCanonical_execPortLimiterWrite : EndsCanonical (execPortLimiterWrite s) := by simp [execPortLimiterWrite, h]
theorem endsCanonical_execHostWindowWrite : EndsCanonical (execHostWindowWrite s) := by simp [execHostWindowWrite, h]
theorem endsCanonical_execBootctlWrite : EndsCanonical (execBootctlWrite s) := by simp [execBootctlWrite, h]

theorem endsCanonical_execGenericRegisterWrite : EndsCanonical (execGenericRegisterWrite s) := by
  refine endsCanonical_next.mpr ?_
  generalize (if s.arg 3 = 0 then 8 else s.arg 3) = n
  split
  · exact h
  · split
    · simp [h]
    · split <;> simp [h]

theorem endsCanonical_execHostMemRead : EndsCanonical (execHostMemRead s) := by simp [execHostMemRead, h]

theorem endsCanonical_execHostMemWrite : EndsCanonical (execHostMemWrite s) := by
  refine endsCanonical_next.mpr ?_
  dsimp only
  split
  · exact h
  · split
    · exact h
    · exact wf_write _ _ _ h

/-! ## Resets, boot, errors -/

omit h in
/-- Reset leaves memory empty, with no byte listed (log 4). -/
theorem endsCanonical_execColdReset : EndsCanonical (execColdReset s) := endsCanonical_next.mpr rfl

theorem endsCanonical_execWarmReset : EndsCanonical (execWarmReset s) := by
  have hw : ((s.parts.map (·.1)).foldl (fun st p => st.endPartition p) s).mem.wf = true :=
    foldl_wf (fun _ _ hs => State.endPartition_wf hs) _ h
  simp [execWarmReset, hw]

theorem endsCanonical_execBootCheckComplete : EndsCanonical (execBootCheckComplete s) := by
  refine endsCanonical_next.mpr ?_
  dsimp only
  split
  · exact h
  · split <;> simp [h]

theorem endsCanonical_execBlackboxSnap : EndsCanonical (execBlackboxSnap s) := by simp [execBlackboxSnap, h]

theorem endsCanonical_execBlackboxSnapComplete : EndsCanonical (execBlackboxSnapComplete s) := by
  refine endsCanonical_next.mpr ?_
  split <;> exact h

theorem endsCanonical_execUncorrectableError : EndsCanonical (execUncorrectableError s) := by
  refine endsCanonical_next.mpr ?_
  split
  · simp [wf_poisonSpan, h]
  · simp [wf_poisonSpan, h]
  · simp [h]
  · split <;> simp [h]
  · simp [h]
  · split <;> simp [h]
  · exact h

theorem endsCanonical_execPatrolScrub : EndsCanonical (execPatrolScrub s) := by simp [execPatrolScrub, h]

/-! ## Attestation, power, clocks -/

theorem endsCanonical_execGetVersion : EndsCanonical (execGetVersion s) := by simp [execGetVersion, h]
theorem endsCanonical_execGetCapabilities : EndsCanonical (execGetCapabilities s) := by simp [execGetCapabilities, h]
theorem endsCanonical_execNegotiateAlgorithms : EndsCanonical (execNegotiateAlgorithms s) := by simp [execNegotiateAlgorithms, h]
theorem endsCanonical_execGetDigests : EndsCanonical (execGetDigests s) := by simp [execGetDigests, h]
theorem endsCanonical_execGetCertificate : EndsCanonical (execGetCertificate s) := by simp [execGetCertificate, h]
theorem endsCanonical_execChallenge : EndsCanonical (execChallenge s) := by simp [execChallenge, h]

theorem endsCanonical_execGetMeasurements : EndsCanonical (execGetMeasurements s) := by
  refine endsCanonical_next.mpr ?_
  split <;> simp [h]

theorem endsCanonical_execEnergyAttributionInterval : EndsCanonical (execEnergyAttributionInterval s) := endsCanonical_next.mpr h
theorem endsCanonical_execEnergyIdleSlotAdd : EndsCanonical (execEnergyIdleSlotAdd s) := by simp [execEnergyIdleSlotAdd, h]
theorem endsCanonical_execTokenReceive : EndsCanonical (execTokenReceive s) := by simp [execTokenReceive, h]
theorem endsCanonical_execTokenBrokerMove : EndsCanonical (execTokenBrokerMove s) := by simp [execTokenBrokerMove, h]

theorem endsCanonical_execTokenReturnArrival : EndsCanonical (execTokenReturnArrival s) := by
  refine endsCanonical_next.mpr ?_
  dsimp only
  split <;> exact h

theorem endsCanonical_execPowerClampAdjust : EndsCanonical (execPowerClampAdjust s) := by simp [execPowerClampAdjust, h]
theorem endsCanonical_execClockLockEffect : EndsCanonical (execClockLockEffect s) := by simp [execClockLockEffect, h]

end Sys2Proof.Machine
end

section
/-! Every step keeps memory in its canonical form. -/
namespace Sys2Proof.Machine

variable {s t : State} (h : s.mem.wf = true)
include h

/-! ## Every instruction and event -/

theorem endsCanonical_exec (i : Instr) : EndsCanonical (exec i s) := by
  unfold exec
  cases i with
  | add | sub | mul | mulhs | mulhz | mins | maxs | minz | maxz | divs | divz | rems | remz | and | or | xor | andn | shl | shr | sar
    | rot | bfes | bfez | cmp | fadd | fsub | fmul | fmin | fmax | fcmp | hadd2 | hmul2 => exact endsCanonical_binary h
  | mad | sel | bfi | ffma | hfma2 => exact endsCanonical_ternary h
  | addc | subb => exact endsCanonical_pairOp h
  | abs | neg | cmpi | cmpiWide | not | popc | clz | ffs | brev | mov | addi | addiWide | andi | andiWide | ori | oriWide | xori
    | xoriWide | fabs | fneg | fclass | frcp | frsq | fsqrt | fexp2 | flog2 | fsin | fcos | ftanh | cvtS32F32 | cvtZ32F32 | cvtF32S32
    | cvtF32Z32 | cvtS8S32Sat | cvtS16S32Sat | cvtZ8S32Sat | cvtZ16S32Sat | cvtZ8Z32Sat | cvtZ16Z32Sat => exact endsCanonical_unary h
  | cvtF32S64 | cvtF32Z64 | cvtS32S64Sat | cvtZ32Z64Sat => exact endsCanonical_fromPair h
  | cvtS64F32Rz | cvtZ64F32Rz | cvtS64S32 | cvtZ64Z32 => exact endsCanonical_toPair h
  | movi | moviWide | movhi | movhiWide => exact endsCanonical_constant h
  | lea | leaWide => exact endsCanonical_addressOf h
  | shli | shri | sari | roti => exact endsCanonical_shiftImm h
  | cvtF32Bf16 | cvtF32F16 | cvtF32E4m3 | cvtF32E5m2 => exact endsCanonical_widenPart h
  | cvtBf16F32Lo | cvtBf16F32Hi | cvtF16F32Lo | cvtF16F32Hi => exact endsCanonical_narrowHalf h
  | cvtE4m3x2F32Lo | cvtE4m3x2F32Hi | cvtE5m2x2F32Lo | cvtE5m2x2F32Hi => exact endsCanonical_narrowPair h
  | callr | ret | jmpr => exact endsCanonical_indirect h
  | bz | bnz => exact endsCanonical_branchIf h
  | joinm | leavem => exact endsCanonical_maskOp h
  | shfl | matchLanes | wred | wscan => exact endsCanonical_exchange h
  | group | groupWide | join | joinWide => exact endsCanonical_relationOp h
  | park | parkWide => exact endsCanonical_parkOp h
  | ldS8 | ldZ8 | ldS16 | ldZ16 | ld | ld64 | ld128 | lda | lda64 => exact endsCanonical_loadOp h
  | st8 | st16 | st | st64 | st128 | stl | stl64 => exact endsCanonical_storeOp h
  | lds | lds64 | lds128 => exact endsCanonical_ldsOp h
  | sts | sts64 | sts128 => exact endsCanonical_stsOp h
  | atomAdd | atomF32 | atomMins | atomMaxs | atomMinz | atomMaxz | atomAnd | atomOr | atomXor | atomExch => exact endsCanonical_atomWith h
  | atomCas => exact endsCanonical_atomOp h
  | prefL2 | prefL1 => exact endsCanonical_prefetch h
  | sppin | spunpin => exact endsCanonical_pinOp h
  | grd | gtry => exact endsCanonical_gateRead h
  | ssig | ssig64 | ssigAdd64 => exact endsCanonical_ssigOp h
  | slda | slda64 => exact endsCanonical_sldaOp h
  | acchrRow | acchrExp | acchrTile => exact endsCanonical_hrOp h
  | egjoin | egleave => exact endsCanonical_elasticOp h
  | activate | freeze | resume | tearDownKeepingGates | tearDownExportingGates => exact endsCanonical_commandOp h
  | ownerClaim | ownerHandOver | ownerAccept | ownerRelease => exact endsCanonical_electionOp h
  | srd => exact endsCanonical_execSrd h
  | waitm => exact endsCanonical_execWaitm h
  | mskrd => exact endsCanonical_execMskrd h
  | mskwr => exact endsCanonical_execMskwr h
  | bra => exact endsCanonical_execBra h
  | call => exact endsCanonical_execCall h
  | qnt => exact endsCanonical_execQnt h
  | dqnt => exact endsCanonical_execDqnt h
  | bcast => exact endsCanonical_execBcast h
  | vote => exact endsCanonical_execVote h
  | relopen => exact endsCanonical_execRelopen h
  | relseal => exact endsCanonical_execRelseal h
  | relcnt => exact endsCanonical_execRelcnt h
  | fork => exact endsCanonical_execFork h
  | cpush => exact endsCanonical_execCpush h
  | jcdec => exact endsCanonical_execJcdec h
  | dqpush => exact endsCanonical_execDqpush h
  | dqpop => exact endsCanonical_execDqpop h
  | dqsteal => exact endsCanonical_execDqsteal h
  | reggrow => exact endsCanonical_execReggrow h
  | regshrink => exact endsCanonical_execRegshrink h
  | launch => exact endsCanonical_execLaunch h
  | radd => exact endsCanonical_execRadd h
  | xfence => exact endsCanonical_execXfence h
  | lbar => exact endsCanonical_execLbar h
  | rbpush => exact endsCanonical_execRbpush h
  | rbpop => exact endsCanonical_execRbpop h
  | rbfree => exact endsCanonical_execRbfree h
  | tqpop => exact endsCanonical_execTqpop h
  | gsig => exact endsCanonical_execGsig h
  | gwait => exact endsCanonical_execGwait h
  | mldr => exact endsCanonical_execMldr h
  | mst => exact endsCanonical_execMst h
  | csrr => exact endsCanonical_execCsrr h
  | csrw => exact endsCanonical_execCsrw h
  | tlbinv => exact endsCanonical_execTlbinv h
  | cinv => exact endsCanonical_execCinv h
  | tokxfer => exact endsCanonical_execTokxfer h
  | clklock => exact endsCanonical_execClklock h
  | sleep => exact endsCanonical_execSleep h
  | watch => exact endsCanonical_execWatch h
  | smov => exact endsCanonical_execSmov h
  | sadd => exact endsCanonical_execSadd h
  | sli => exact endsCanonical_execSli h
  | sliWide => exact endsCanonical_execSliWide h
  | sbnz => exact endsCanonical_execSbnz h
  | sloop => exact endsCanonical_execSloop h
  | tcfg => exact endsCanonical_execTcfg h
  | tzero => exact endsCanonical_execTzero h
  | tzeroRows => exact endsCanonical_execTzeroRows h
  | twr => exact endsCanonical_execTwr h
  | mma => exact endsCanonical_execMma h
  | mmas => exact endsCanonical_execMmas h
  | mmao => exact endsCanonical_execMmao h
  | accrd => exact endsCanonical_execAccrd h
  | accrdClr => exact endsCanonical_execAccrdClr h
  | accnorm => exact endsCanonical_execAccnorm h
  | accnormRows => exact endsCanonical_execAccnormRows h
  | msync => exact endsCanonical_execMsync h
  | cpy => exact endsCanonical_execCpy h
  | cpym => exact endsCanonical_execCpym h
  | gather => exact endsCanonical_execGather h
  | scatter => exact endsCanonical_execScatter h
  | stage => exact endsCanonical_execStage h
  | emblk => exact endsCanonical_execEmblk h
  | topk => exact endsCanonical_execTopk h
  | coll => exact endsCanonical_execColl h
  | agset => exact endsCanonical_execAgset h
  | ttop => exact endsCanonical_execTtop h
  | evpop => exact endsCanonical_execEvpop h
  | evwait => exact endsCanonical_execEvwait h
  | nop => exact endsCanonical_execNop h
  | yield => exact endsCanonical_execYield h
  | exit => exact endsCanonical_execExit h
  | phase => exact endsCanonical_execPhase h
  | meet => exact endsCanonical_execMeet h
  | clauseHeader => exact endsCanonical_execClauseHeader h
  | outputWarpStart => exact endsCanonical_execOutputWarpStart h
  | rdv => exact endsCanonical_execRdv h
  | sequencerStart => exact endsCanonical_execSequencerStart h
  | reggrowGrant => exact endsCanonical_execReggrowGrant h
  | lookaheadResultWrite => exact endsCanonical_execLookaheadResultWrite h
  | storePerformed => exact endsCanonical_execStorePerformed h
  | fence => exact endsCanonical_execFence h
  | lbarPlacementPreempt => exact endsCanonical_execLbarPlacementPreempt h
  | gateSignalApply => exact endsCanonical_execGateSignalApply h
  | trap => exact endsCanonical_execTrap h
  | trapret => exact endsCanonical_execTrapret h
  | bkpt => exact endsCanonical_execBkpt h
  | sleepWake => exact endsCanonical_execSleepWake h
  | phaseTimerExpiry => exact endsCanonical_execPhaseTimerExpiry h
  | handlerEntry => exact endsCanonical_execHandlerEntry h
  | swait => exact endsCanonical_execSwait h
  | endProg => exact endsCanonical_execEndProg h
  | cpymFollowOn => exact endsCanonical_execCpymFollowOn h
  | ttopSlotStart => exact endsCanonical_execTtopSlotStart h
  | arrivedTilePush => exact endsCanonical_execArrivedTilePush h
  | engineCommandComplete => exact endsCanonical_execEngineCommandComplete h
  | completionRecordPush => exact endsCanonical_execCompletionRecordPush h
  | controlProgramStart => exact endsCanonical_execControlProgramStart h
  | qwptrWrite => exact endsCanonical_execQwptrWrite h
  | queueReset => exact endsCanonical_execQueueReset h
  | queueEnable => exact endsCanonical_execQueueEnable h
  | nopPacket => exact endsCanonical_execNopPacket h
  | launchPacket => exact endsCanonical_execLaunchPacket h
  | fencePacket => exact endsCanonical_execFencePacket h
  | fenceCountersMet => exact endsCanonical_execFenceCountersMet h
  | fenceTimeout => exact endsCanonical_execFenceTimeout h
  | writePacket => exact endsCanonical_execWritePacket h
  | timedPacket => exact endsCanonical_execTimedPacket h
  | timedReached => exact endsCanonical_execTimedReached h
  | placeItem => exact endsCanonical_execPlaceItem h
  | priorityAging => exact endsCanonical_execPriorityAging h
  | placementReserve => exact endsCanonical_execPlacementReserve h
  | launchComplete => exact endsCanonical_execLaunchComplete h
  | withdrawLaunch => exact endsCanonical_execWithdrawLaunch h
  | preempt => exact endsCanonical_execPreempt h
  | preemptAndHold => exact endsCanonical_execPreemptAndHold h
  | preemptRelease => exact endsCanonical_execPreemptRelease h
  | preemptSwapComplete => exact endsCanonical_execPreemptSwapComplete h
  | preemptSpillComplete => exact endsCanonical_execPreemptSpillComplete h
  | freezeComplete => exact endsCanonical_execFreezeComplete h
  | teardownComplete => exact endsCanonical_execTeardownComplete h
  | partitionFieldWrite => exact endsCanonical_execPartitionFieldWrite h
  | gateEntryWrite => exact endsCanonical_execGateEntryWrite h
  | gateTokenRefill => exact endsCanonical_execGateTokenRefill h
  | ringEnWrite => exact endsCanonical_execRingEnWrite h
  | migrationGo => exact endsCanonical_execMigrationGo h
  | migrationSwitchOver => exact endsCanonical_execMigrationSwitchOver h
  | migrationFailure => exact endsCanonical_execMigrationFailure h
  | fabricAccessServe => exact endsCanonical_execFabricAccessServe h
  | parkedRetry => exact endsCanonical_execParkedRetry h
  | parkedDrop => exact endsCanonical_execParkedDrop h
  | parkedExpiry => exact endsCanonical_execParkedExpiry h
  | memberAbsentTimeout => exact endsCanonical_execMemberAbsentTimeout h
  | agreementRoundStart => exact endsCanonical_execAgreementRoundStart h
  | agreementAckTimeout => exact endsCanonical_execAgreementAckTimeout h
  | agreementRoundEnd => exact endsCanonical_execAgreementRoundEnd h
  | switchReset => exact endsCanonical_execSwitchReset h
  | timeDomainLeave => exact endsCanonical_execTimeDomainLeave h
  | timeDomainRejoin => exact endsCanonical_execTimeDomainRejoin h
  | tokenReceive => exact endsCanonical_execTokenReceive h
  | tokenReturnArrival => exact endsCanonical_execTokenReturnArrival h
  | clockLockEffect => exact endsCanonical_execClockLockEffect h
  | powerClampAdjust => exact endsCanonical_execPowerClampAdjust h
  | energyAttributionInterval => exact endsCanonical_execEnergyAttributionInterval h
  | energyIdleSlotAdd => exact endsCanonical_execEnergyIdleSlotAdd h
  | hostMemRead => exact endsCanonical_execHostMemRead h
  | hostMemWrite => exact endsCanonical_execHostMemWrite h
  | ownerLinkDown => exact endsCanonical_execOwnerLinkDown h
  | portLimiterWrite => exact endsCanonical_execPortLimiterWrite h
  | hostWindowWrite => exact endsCanonical_execHostWindowWrite h
  | coldReset => exact endsCanonical_execColdReset
  | warmReset => exact endsCanonical_execWarmReset h
  | bootctlWrite => exact endsCanonical_execBootctlWrite h
  | bootCheckComplete => exact endsCanonical_execBootCheckComplete h
  | blackboxSnap => exact endsCanonical_execBlackboxSnap h
  | blackboxSnapComplete => exact endsCanonical_execBlackboxSnapComplete h
  | getVersion => exact endsCanonical_execGetVersion h
  | getCapabilities => exact endsCanonical_execGetCapabilities h
  | negotiateAlgorithms => exact endsCanonical_execNegotiateAlgorithms h
  | getDigests => exact endsCanonical_execGetDigests h
  | getCertificate => exact endsCanonical_execGetCertificate h
  | challenge => exact endsCanonical_execChallenge h
  | getMeasurements => exact endsCanonical_execGetMeasurements h
  | patrolScrub => exact endsCanonical_execPatrolScrub h
  | uncorrectableError => exact endsCanonical_execUncorrectableError h
  | genericRegisterWrite => exact endsCanonical_execGenericRegisterWrite h
  | relationOperationComplete => exact endsCanonical_execRelationOperationComplete h
  | engineCounterOperationComplete => exact endsCanonical_execEngineCounterOperationComplete h
  | switchUnreachable => exact endsCanonical_execSwitchUnreachable h
  | fabricFormation => exact endsCanonical_execFabricFormation h
  | tokenBrokerMove => exact endsCanonical_execTokenBrokerMove h

/-! ## The turn before the instruction -/

/-- The end of a cycle brings what migration carries along (R343). -/
theorem State.passCycle_wf : s.passCycle.mem.wf = true := by
  unfold State.passCycle
  simp [h]

theorem State.takeGroup_wf {p : Nat} {g : WorkGroup} {w : Warp} {ls : List Nat} {n : Next} :
    (s.takeGroup p g w ls n).1.mem.wf = true := by
  cases n <;> exact State.passCycle_wf h

theorem State.takeSeq_wf {p : Nat} {q : Seq} : (s.takeSeq p q).1.mem.wf = true := by
  unfold State.takeSeq
  split <;> exact State.passCycle_wf h

theorem State.takeHeader_wf {p : Nat} {g : WorkGroup} {w : Warp} {ls : List Nat} {word : Nat} :
    (s.takeHeader p g w ls word).1.mem.wf = true := h

theorem State.takeEvent_wf {e : Input} : (s.takeEvent e).1.mem.wf = true := State.passCycle_wf h
theorem State.idles_wf : s.idles.1.mem.wf = true := State.passCycle_wf h

theorem State.take_wf {choice : Nat} {u : Turn} : (s.take choice u).1.mem.wf = true := by
  unfold State.take
  split
  · exact State.takeEvent_wf h
  · split
    · next r _ =>
      have hr : ({ s with inputs := r } : State).mem.wf = true := h
      split
      · exact State.takeEvent_wf hr
      · exact State.idles_wf hr
    · exact State.idles_wf h
  · split
    · exact State.takeSeq_wf h
    · exact State.idles_wf h
  · dsimp only
    split
    · exact State.idles_wf h
    · split
      · exact State.idles_wf h
      · exact State.takeGroup_wf (by simp [h])

theorem State.upcoming_wf : s.upcoming.1.mem.wf = true := by
  unfold State.upcoming
  split
  · exact h
  · split
    · exact State.takeHeader_wf h
    · split
      · exact State.takeEvent_wf h
      · dsimp only
        split
        · exact State.take_wf (s := { s with tape := s.tape.tail }) h
        · exact State.idles_wf h

theorem endsCanonical_runAct (a : Act) : EndsCanonical (runAct a s) := by
  cases a with
  | exec i => exact endsCanonical_exec h i
  | trap c bit tval => simp [runAct, h]
  | seqTrap p id bit =>
    unfold runAct
    dsimp only
    split <;> simp [h]
  | idle => exact endsCanonical_next.mpr h

omit h in
/-- Settles O4: memory is written only by its own operations, each of which keeps the form; what comes before the instruction (the
end of a cycle, the picked issuer, a page-table walk) keeps it too. -/
theorem stepKeepsMemoryCanonical : Obligations.StepKeepsMemoryCanonical :=
  fun _ t hs e => endsCanonical_runAct (State.upcoming_wf hs) _ t e

end Sys2Proof.Machine
end

section
/-! Rows of a tile (R116, R118, R119): the number of significant bits, halving to nearest even, an add event in one pass, reading. -/
namespace Sys2Proof.Machine

/-! ## Significant bits and halving -/

theorem natLen_le_iff (n b : Nat) : natLen n ≤ b ↔ n < 2 ^ b := by
  unfold natLen
  split
  · next h => simp [h]
  · next h => rw [Nat.add_one_le_iff, Nat.log2_lt h]

theorem sigBits_le_iff (x : Int) (b : Nat) : sigBits x ≤ b ↔ -2 ^ b ≤ x ∧ x < 2 ^ b := by
  have hp : ((2 ^ b : Nat) : Int) = 2 ^ b := by push_cast; rfl
  unfold sigBits
  split
  · rw [natLen_le_iff]; omega
  · rw [natLen_le_iff]; omega

/-- Halving `n` times goes to the nearest integer, to an even one when two are as near. -/
theorem rneShift_nearest (x : Int) (n : Nat) : (2 * 2 ^ n * rneShift x n - 2 * x).natAbs ≤ 2 ^ n ∧
    ((2 * 2 ^ n * rneShift x n - 2 * x).natAbs = 2 ^ n → rneShift x n % 2 = 0) := by
  have hp : ((2 ^ n : Nat) : Int) = 2 ^ n := by push_cast; rfl
  have hd : (0 : Int) < 2 ^ n := by positivity
  have hx := Int.mul_ediv_add_emod x (2 ^ n)
  have h0 := Int.emod_nonneg x hd.ne'
  have h1 := Int.emod_lt_of_pos x hd
  unfold rneShift
  dsimp only
  generalize x / 2 ^ n = q at hx ⊢
  generalize x % 2 ^ n = r at *
  have hq : 2 * 2 ^ n * q = 2 * (2 ^ n * q) := mul_assoc ..
  have hq1 : 2 * 2 ^ n * (q + 1) = 2 * (2 ^ n * q) + 2 * 2 ^ n := by ring
  split
  · rw [hq]; omega
  · split
    · rw [hq1]; omega
    · split
      · rw [hq]; omega
      · rw [hq1]; omega

/-! ## Add events (R118) -/

theorem addend_fst (e : Int) (x : Pair) :
    (addend e x).1 = if e ≤ x.2 then x.1 * 2 ^ (x.2 - e).toNat else x.1 / 2 ^ (e - x.2).toNat := by
  unfold addend
  split <;> rfl

theorem addend_snd (e : Int) (x : Pair) : (addend e x).2 = true ↔ x.2 < e ∧ x.1 % 2 ^ (e - x.2).toNat ≠ 0 := by
  unfold addend
  split
  · next h => simp [h]
  · next h => simp [not_le.mp h]

/-- The mantissas of a row with the addends of an event. -/
def TileRow.sums (r : TileRow) (xs : List Pair) : List Int := (r.m.zip xs).map fun y => y.1 + (addend r.e y.2).1
/-- The headroom that the mantissas of an event leave. -/
def TileRow.roomFor (r : TileRow) (xs : List Pair) : Int := Machine.headroom (r.sums xs)
/-- How many halvings a row lacks for an event. -/
def TileRow.lacks (r : TileRow) (h : Nat) (xs : List Pair) : Nat := (h - r.roomFor xs).toNat
/-- A row halved `n` times. -/
def TileRow.halved (r : TileRow) (n : Nat) : TileRow := { r with m := r.m.map fun x => rneShift x n, e := r.e + n }

@[simp] theorem TileRow.halved_e (r : TileRow) (n : Nat) : (r.halved n).e = r.e + n := rfl

section
variable {h : Nat} {xs : List Pair} {r : TileRow}

theorem TileRow.sums_eq (r : TileRow) (xs : List Pair) : r.sums xs =
    (r.m.zip xs).map fun y => y.1 + (if r.e ≤ y.2.2 then y.2.1 * 2 ^ (y.2.2 - r.e).toNat else y.2.1 / 2 ^ (r.e - y.2.2).toNat) := by
  simp only [TileRow.sums, addend_fst]

theorem TileRow.addEvent_succ (fuel : Nat) : r.addEvent h xs (fuel + 1) =
    if r.n then r
    else if (h : Int) ≤ r.roomFor xs then
      { r with m := r.sums xs, l := if xs.any fun x => (addend r.e x).2 then min (r.l + 1) 65535 else r.l }
    else if 2047 < r.e + r.lacks h xs then { r with n := true }
    else (r.halved (r.lacks h xs)).addEvent h xs fuel := by
  have hs : (r.m.zip (xs.map (addend r.e))).map (fun y => y.1 + y.2.1) = r.sums xs := by
    simp [TileRow.sums, List.zip_map_right, Function.comp_def]
  rw [TileRow.addEvent]
  simp only [hs, List.any_map, Function.comp_def]
  rfl

theorem TileRow.lacks_pos (hh : r.roomFor xs < h) : 0 < r.lacks h xs := by
  unfold TileRow.lacks
  omega

/-- Every pass that halves raises the exponent, so passes enough to bring it above 2,047 are as good as any other such number. -/
theorem TileRow.addEvent_fuel (f g : Nat) (r : TileRow) (hf : 2048 - r.e ≤ f) (hg : 2048 - r.e ≤ g) (hf0 : 0 < f) (hg0 : 0 < g) :
    r.addEvent h xs f = r.addEvent h xs g := by
  induction f generalizing g r with
  | zero => exact absurd hf0 (Nat.lt_irrefl 0)
  | succ f ih =>
    obtain ⟨g, rfl⟩ := Nat.exists_eq_succ_of_ne_zero hg0.ne'
    rw [TileRow.addEvent_succ, TileRow.addEvent_succ]
    split
    · rfl
    · split
      · rfl
      · split
        · rfl
        · next hh ho =>
          have hl : 0 < r.lacks h xs := TileRow.lacks_pos (not_le.mp hh)
          exact ih g _ (by simp; omega) (by simp; omega) (by omega) (by omega)

theorem TileRow.apply_invalid_row (hn : r.n = true) : r.apply h (.add xs) = r := by
  rw [TileRow.apply, TileRow.addEvent_succ, if_pos hn]

theorem TileRow.apply_within (hn : r.n = false) (hh : (h : Int) ≤ r.roomFor xs) : r.apply h (.add xs) =
    { r with m := r.sums xs, l := if xs.any fun x => (addend r.e x).2 then min (r.l + 1) 65535 else r.l } := by
  rw [TileRow.apply, TileRow.addEvent_succ, if_neg (by simp [hn]), if_pos hh]

theorem TileRow.apply_overflow (hn : r.n = false) (hh : r.roomFor xs < h) (ho : 2047 < r.e + r.lacks h xs) :
    r.apply h (.add xs) = { r with n := true } := by
  rw [TileRow.apply, TileRow.addEvent_succ, if_neg (by simp [hn]), if_neg (not_le.mpr hh), if_pos ho]

theorem TileRow.apply_halved (hn : r.n = false) (hh : r.roomFor xs < h) (ho : r.e + r.lacks h xs ≤ 2047) (he : -2048 ≤ r.e) :
    r.apply h (.add xs) = (r.halved (r.lacks h xs)).apply h (.add xs) := by
  have hl := TileRow.lacks_pos hh
  rw [TileRow.apply, TileRow.addEvent_succ, if_neg (by simp [hn]), if_neg (not_le.mpr hh), if_neg (not_lt.mpr ho), TileRow.apply]
  exact TileRow.addEvent_fuel _ _ _ (by simp; omega) (by simp; omega) (by omega) (by omega)

end

/-- R118: what an add event makes of a row. -/
theorem TileRow.apply_add (h : Nat) (xs : List Pair) (r : TileRow) (he : -2048 ≤ r.e) :
    let add : Pair → Int := fun x => if r.e ≤ x.2 then x.1 * 2 ^ (x.2 - r.e).toNat else x.1 / 2 ^ (r.e - x.2).toNat
    let lost := ∃ x ∈ xs, x.2 < r.e ∧ x.1 % 2 ^ (r.e - x.2).toNat ≠ 0
    let sums := (r.m.zip xs).map fun e => e.1 + add e.2
    let room : Int := 39 - ((sums.map sigBits).foldl max 0 : Nat)
    let n := (h - room).toNat
    (r.n = true → r.apply h (.add xs) = r) ∧
    (r.n = false → (h : Int) ≤ room → (lost → r.apply h (.add xs) = { r with m := sums, l := min (r.l + 1) 65535 }) ∧
      (¬lost → r.apply h (.add xs) = { r with m := sums })) ∧
    (r.n = false → room < h → 2047 < r.e + n → r.apply h (.add xs) = { r with n := true }) ∧
    (r.n = false → room < h → r.e + n ≤ 2047 →
      r.apply h (.add xs) = TileRow.apply h { r with m := r.m.map fun x => rneShift x n, e := r.e + n } (.add xs)) := by
  intro add lost sums room n
  have hs : r.sums xs = sums := r.sums_eq xs
  have hr : r.roomFor xs = room := by rw [TileRow.roomFor, hs]; rfl
  have hn : r.lacks h xs = n := by rw [TileRow.lacks, hr]
  have hl : (xs.any fun x => (addend r.e x).2) = true ↔ lost := by simp only [List.any_eq_true, addend_snd, lost]
  refine ⟨TileRow.apply_invalid_row, fun h0 hh => ?_, fun h0 hh ho => ?_, fun h0 hh ho => ?_⟩
  · rw [TileRow.apply_within h0 (hr ▸ hh), hs]
    exact ⟨fun k => by rw [if_pos (hl.mpr k)], fun k => by rw [if_neg (mt hl.mp k)]⟩
  · exact TileRow.apply_overflow h0 (hr ▸ hh) (hn ▸ ho)
  · rw [TileRow.apply_halved h0 (hr ▸ hh) (hn ▸ ho) he, hn]
    rfl

/-! ## Reading (R119) -/

theorem Fmt.round_zero (f : Fmt) (e : Int) : f.round (.fin false 0 e) = 0 := by
  simp [Fmt.round, Fmt.magCode, Fmt.sign]

theorem TileRow.read_invalid {r : TileRow} (hn : r.n = true) (ofmt j : Nat) :
    r.read ofmt j = if ofmt = 1 then 0x7FC0 else 0x7FC00000 := by
  unfold TileRow.read
  rw [if_pos hn]
  split <;> rfl

theorem TileRow.read_zero {r : TileRow} {j : Nat} (hn : r.n = false) (hj : r.m[j]? = some 0) (ofmt : Nat) : r.read ofmt j = 0 := by
  unfold TileRow.read
  rw [if_neg (by simp [hn]), List.getD_eq_getElem?_getD, hj]
  exact Fmt.round_zero _ _

end Sys2Proof.Machine
end

section
/-! Port steps of a matrix step (R245, R252, R256): the integer of a staged element, the events of a row, their sums. -/
namespace Sys2Proof.Machine

/-! ## Numbers in a row, beside what stands at them -/

theorem eq_map_range_getD {α : Type} {l : List α} {n : Nat} (hl : l.length = n) (d : α) : l = (List.range n).map fun i => l.getD i d := by
  subst hl
  refine List.ext_getElem (by simp) fun i h1 h2 => ?_
  simp [List.getD_eq_getElem?_getD, h1]

theorem zip_map_range {α β : Type} {l : List α} {n : Nat} (hl : l.length = n) (d : α) (f : Nat → β) :
    l.zip ((List.range n).map f) = (List.range n).map fun i => (l.getD i d, f i) := by
  conv_lhs => rw [eq_map_range_getD hl d]
  rw [List.zip_map']

theorem zip_upto {α : Type} {l : List α} {n : Nat} (hl : l.length = n) (d : α) :
    (upto 0 n).zip l = (List.range n).map fun i => (i, l.getD i d) := by
  conv_lhs => rw [eq_map_range_getD hl d]
  rw [upto_eq_map_range, List.zip_map']
  simp

theorem getD_map_range {α : Type} (f : Nat → α) (d : α) {i n : Nat} (hi : i < n) : ((List.range n).map f).getD i d = f i := by
  simp [List.getD_eq_getElem?_getD, hi]

/-! ## Staged integers (R245) -/

theorem stagedInt_cons (p : Nat) {ps : List Nat} (hps : ps ≠ []) (i : Nat) :
    stagedInt (p :: ps) i = (if p.testBit i then 1 else 0) + 2 * stagedInt ps i := by
  cases ps with
  | nil => exact absurd rfl hps
  | cons q r => rfl

/-- R245: a staged element is the two's complement number of its bits, the lowest plane first. -/
theorem stagedInt_twos_complement (ps : List Nat) (i : Nat) (hps : ps ≠ []) :
    stagedInt ps i = ((List.range (ps.length - 1)).map fun b => if (ps.getD b 0).testBit i then (2 : Int) ^ b else 0).sum -
      (if (ps.getD (ps.length - 1) 0).testBit i then 2 ^ (ps.length - 1) else 0) := by
  induction ps with
  | nil => exact absurd rfl hps
  | cons p ps ih =>
    cases ps with
    | nil => by_cases hp : p.testBit i <;> simp [stagedInt, hp]
    | cons q r =>
      have hdouble : ∀ (c : Bool) (b : Nat), (if c then (2 : Int) ^ (b + 1) else 0) = 2 * if c then 2 ^ b else 0 := by
        intro c b
        cases c <;> simp [pow_succ, mul_comm]
      have ih := ih (List.cons_ne_nil q r)
      simp only [List.length_cons, Nat.add_sub_cancel] at ih ⊢
      rw [stagedInt_cons p (List.cons_ne_nil q r), ih, List.range_succ_eq_map, List.map_cons, List.map_map, List.sum_cons]
      simp only [Function.comp_def, Nat.succ_eq_add_one, List.getD_cons_zero, List.getD_cons_succ, hdouble, List.sum_map_mul_left,
        pow_zero]
      ring

/-! ## The events of a row (R252, R256) -/

theorem Step.events_mma (x : Step) (r : Nat) : x.events 0 r = [x.main false 0 r, x.main false 1 r] := rfl

theorem Step.dense_eq_sum (x : Step) (h r j : Nat) : x.dense h r j = ((List.range 64).map fun i =>
    if x.live j ((64 * h + i) / 16) = true then stagedInt x.a (128 * r + (64 * h + i)) * stagedInt x.b (128 * j + (64 * h + i)) else 0).sum := by
  rw [Step.dense, upto_map, List.sum_eq_foldl]

theorem Step.main_invalid {x : Step} {h r : Nat}
    (hi : (x.ga.getD (2 * r + h) (false, 0)).1 = true ∨ ∃ j, j < 64 ∧ (x.gb.getD (2 * j + h) (false, 0)).1 = true) (comp : Bool) :
    x.main comp h r = .invalid := by
  unfold Step.main
  refine if_pos ?_
  simpa [upto_map, List.any_map] using hi

theorem Step.main_dense {x : Step} {h r : Nat} (ha : (x.ga.getD (2 * r + h) (false, 0)).1 = false)
    (hb : ∀ j, j < 64 → (x.gb.getD (2 * j + h) (false, 0)).1 = false) :
    x.main false h r = .add ((List.range 64).map fun j => (x.dense h r j,
      (x.ga.getD (2 * r + h) (false, 0)).2 - ((x.a.length : Int) - 2) +
        ((x.gb.getD (2 * j + h) (false, 0)).2 - ((x.b.length : Int) - 2)))) := by
  unfold Step.main
  dsimp only
  rw [if_neg (by simpa [upto_map, ← List.getD_eq_getElem?_getD, ha] using hb), zip_upto (by simp [upto_map]) (false, 0), List.map_map]
  congr 1
  refine List.map_congr_left fun j hj => ?_
  rw [Function.comp_apply, upto_map, getD_map_range _ _ (List.mem_range.mp hj)]
  simp [add_sub_assoc]

/-! ## Turns of a product -/

/-- Every row takes its own number of port steps; where any are left, some row takes one. -/
theorem portSteps_spec (seed : Nat) (left : List Nat) (hl : ∃ r, r < left.length ∧ 0 < left.getD r 0) :
    (portSteps seed left).length = left.length ∧
      ∃ r, r < left.length ∧ 0 < (portSteps seed left).getD r 0 ∧ 0 < left.getD r 0 := by
  unfold portSteps
  rw [zip_upto rfl 0, List.map_map]
  dsimp only
  split
  · obtain ⟨r, hr, h0⟩ := hl
    exact ⟨rfl, r, hr, h0, h0⟩
  · next h =>
    simp only [List.all_map, List.all_eq_true, List.mem_range, Function.comp_apply, beq_iff_eq, not_forall] at h
    obtain ⟨r, hr, h0⟩ := h
    refine ⟨by simp, r, hr, ?_⟩
    rw [getD_map_range _ _ hr, Function.comp_apply]
    dsimp only
    omega

/-- The port steps that the rows have left, in their order. -/
def Step.left (x : Step) (kind : Nat) (done : List Nat) (r : Nat) : List Event := (x.events kind r).drop (done.getD r 0)
/-- How many of them each row takes in a turn. -/
def State.takes (s : State) (x : Step) (kind : Nat) (done : List Nat) (r : Nat) : Nat :=
  (portSteps s.tick ((List.range 64).map fun r => (x.left kind done r).length)).getD r 0

theorem State.exists_takes (s : State) {x : Step} {kind : Nat} {done : List Nat}
    (hl : ∃ r, r < 64 ∧ done.getD r 0 < (x.events kind r).length) :
    (portSteps s.tick ((List.range 64).map fun r => (x.left kind done r).length)).length = 64 ∧
      ∃ r, r < 64 ∧ 0 < s.takes x kind done r ∧ done.getD r 0 < (x.events kind r).length := by
  have hpos : ∀ r, r < 64 → (0 < ((List.range 64).map fun r => (x.left kind done r).length).getD r 0 ↔
      done.getD r 0 < (x.events kind r).length) := by
    intro r hr
    rw [getD_map_range _ _ hr, Step.left, List.length_drop, Nat.sub_pos_iff_lt]
  obtain ⟨r, hr, h0⟩ := hl
  obtain ⟨hlen, r', hr', ht, h0'⟩ := portSteps_spec s.tick ((List.range 64).map fun r => (x.left kind done r).length)
    ⟨r, by simpa using hr, (hpos r hr).mpr h0⟩
  simp only [List.length_map, List.length_range] at hlen hr'
  exact ⟨hlen, r', hr', ht, (hpos r' hr').mp h0'⟩

/-- R252: in a turn each row takes the next of its port steps, and the step is over when none is left. -/
theorem State.productTurn_eq (s : State) (p cid t k : Nat) (q : Seq) {kind v : Nat} {data done : List Nat} {b : OpBlock} {x : Step}
    (hd : done.length = 64) (hrows : (s.tile (s.seqCore p q) t).rows.length = 64) (hb : opBlock v (kind == 1) = some b)
    (hx : b.stepOf kind data = some x) (hl : ∃ r, r < 64 ∧ done.getD r 0 < (x.events kind r).length) :
    let core := s.seqCore p q
    let tile := s.tile core t
    let y : Tile := { tile with rows := (List.range 64).map fun r =>
      ((x.left kind done r).take (s.takes x kind done r)).foldl (TileRow.apply tile.h) (tile.rows.getD r TileRow.zero) }
    s.productTurn p q cid kind t v k data done =
      if ∀ r, r < 64 → (x.events kind r).length ≤ done.getD r 0 + s.takes x kind done r then
        (s.setTile core t y).productStep p q cid kind t v (k + 1)
      else (s.setTile core t y).modCmd p q.id cid fun c =>
        { c with wait := .product kind t v k data ((List.range 64).map fun r => done.getD r 0 + s.takes x kind done r) } := by
  intro core tile y
  have hstep : (opBlock v (kind == 1) >>= fun b => b.stepOf kind data) = some x := by rw [hb]; exact hx
  have hlen := (s.exists_takes hl).1
  have hleft : ((upto 0 64).zip done).map (fun e => (x.events kind e.1).drop e.2) = (List.range 64).map (x.left kind done) := by
    rw [zip_upto hd 0, List.map_map]
    rfl
  have htakes : portSteps s.tick ((List.range 64).map fun r => (x.left kind done r).length) = (List.range 64).map (s.takes x kind done) :=
    eq_map_range_getD hlen 0
  have hall : ∀ r, (x.left kind done r).length ≤ s.takes x kind done r ↔
      (x.events kind r).length ≤ done.getD r 0 + s.takes x kind done r := by
    intro r
    rw [Step.left, List.length_drop]
    omega
  unfold State.productTurn
  rw [hstep]
  dsimp only
  rw [hleft, List.map_map, show ((fun e : List Event => e.length) ∘ x.left kind done) = fun r => (x.left kind done r).length from rfl, htakes,
    List.zip_map', zip_map_range hrows TileRow.zero, zip_map_range hd 0]
  simp only [List.map_map, List.all_map, List.all_eq_true, List.mem_range, Function.comp_def, decide_eq_true_eq, hall]
  rfl

end Sys2Proof.Machine
end

section
/-! Words of the own scratchpad and rows of a tile (R250, R255): what TWR reads and what it leaves. -/
namespace Sys2Proof.Machine

/-! ## Words read (R250) -/

section
variable {s : State} {p wg : Nat}

theorem State.ownNat_word {a k : Nat} (hk : s.seqSpad p wg true a 4 = some k) :
    s.ownNat p wg 4 a 4 = some (ofBytes (s.lateBytes true (findsOn (some 1)) k 4), s.spad.poisoned k 4) := by
  simp [State.ownNat, State.ownBytes, hk]

theorem State.ownNats_of_each {unit : Nat} {l : List (Nat × Nat)} {v : Nat × Nat → Nat × Bool}
    (hv : ∀ e ∈ l, s.ownNat p wg unit e.1 e.2 = some (v e)) :
    s.ownNats p wg unit l = some (l.map fun e => (v e).1, l.any fun e => (v e).2) := by
  induction l with
  | nil => rfl
  | cons e r ih =>
    have hr : s.ownNats p wg unit r = _ := ih fun x hx => hv x (List.mem_cons_of_mem _ hx)
    unfold State.ownNats at hr ⊢
    rw [List.foldr_cons, hr, hv e List.mem_cons_self]
    rfl

/-- Words of the own space, as the matrix path finds them. -/
theorem State.ownNats_words {base n : Nat} {key : Nat → Nat}
    (hk : ∀ i, i < n → s.seqSpad p wg true (base + 4 * i) 4 = some (key i)) :
    s.ownNats p wg 4 ((upto 0 n).map fun i => (base + 4 * i, 4)) =
      some ((List.range n).map fun i => ofBytes (s.lateBytes true (findsOn (some 1)) (key i) 4),
        (List.range n).any fun i => s.spad.poisoned (key i) 4) := by
  have hv : ∀ e ∈ (upto 0 n).map fun i => (base + 4 * i, 4), s.ownNat p wg 4 e.1 e.2 =
      some (ofBytes (s.lateBytes true (findsOn (some 1)) (key ((e.1 - base) / 4)) 4), s.spad.poisoned (key ((e.1 - base) / 4)) 4) := by
    intro e he
    simp only [upto_map, List.mem_map, List.mem_range, Nat.zero_add] at he
    obtain ⟨i, hi, rfl⟩ := he
    rw [State.ownNat_word (hk i hi), show (base + 4 * i - base) / 4 = i by omega]
  rw [State.ownNats_of_each hv]
  simp [upto_map, Function.comp_def, List.any_map]

/-- Engines on the matrix path that have read every overwritten unit find the bytes that stand. -/
theorem State.lateBytes_seen (hs : ∀ x ∈ s.late, 769 ∈ x.seen) (k n : Nat) :
    s.lateBytes true (findsOn (some 1)) k n = s.spad.bytes k n :=
  lateBytes_current (spad := true) (fun x hx _ => by simp [findsOn, Late.showsEngine, hs x hx]) k n

end

/-! ## Lists cut into pieces -/

theorem pieces_eq_map {α : Type} {c : Nat} (hc : 0 < c) {n fuel : Nat} {l : List α} (hl : l.length = c * n) (hf : n ≤ fuel) :
    pieces c fuel l = (List.range n).map fun i => (l.drop (c * i)).take c := by
  induction n generalizing fuel l with
  | zero =>
    have : l = [] := List.eq_nil_of_length_eq_zero (by simpa using hl)
    subst this
    cases fuel <;> rfl
  | succ n ih =>
    obtain ⟨fuel, rfl⟩ := Nat.exists_eq_add_of_le' (Nat.le_trans (Nat.succ_le_succ n.zero_le) hf)
    have hpos : 0 < l.length := by rw [hl]; positivity
    have hd : (l.drop c).length = c * n := by rw [List.length_drop, hl, Nat.mul_succ, Nat.add_sub_cancel]
    rw [pieces, ih hd (Nat.le_of_succ_le_succ hf), List.range_succ_eq_map, List.map_cons, List.map_map]
    · simp [Function.comp_def, Nat.mul_succ, Nat.add_comm]
    · rintro rfl
      exact absurd hpos (Nat.lt_irrefl 0)

theorem drop_take_map_range {α : Type} (f : Nat → α) {a c n : Nat} (h : a + c ≤ n) :
    (((List.range n).map f).drop a).take c = (List.range c).map fun j => f (a + j) := by
  refine List.ext_getElem (by simp; omega) fun i h1 h2 => ?_
  simp

/-! ## Rows of a tile -/

theorem Tile.modRows_eq (y : Tile) (lo n : Nat) (f : Nat → TileRow → TileRow) : y.modRows lo n f =
    { y with rows := (List.range y.rows.length).map fun r =>
        if lo ≤ r ∧ r < lo + n then f (r - lo) (y.rows.getD r TileRow.zero) else y.rows.getD r TileRow.zero } := by
  unfold Tile.modRows
  rw [zip_upto rfl TileRow.zero, List.map_map]
  rfl

theorem Tile.modRows_congr (y : Tile) (lo : Nat) {n : Nat} {f g : Nat → TileRow → TileRow} (h : ∀ i, i < n → ∀ x, f i x = g i x) :
    y.modRows lo n f = y.modRows lo n g := by
  unfold Tile.modRows
  congr 1
  refine List.map_congr_left fun e _ => if_ctx_congr Iff.rfl (fun hr => ?_) fun _ => rfl
  exact h _ (by omega) _

@[simp] theorem Tile.length_modRows (y : Tile) (lo n : Nat) (f : Nat → TileRow → TileRow) :
    (y.modRows lo n f).rows.length = y.rows.length := by
  simp [Tile.modRows_eq]

theorem Tile.getElem?_modRows {y : Tile} {r : Nat} (hr : r < y.rows.length) (lo n : Nat) (f : Nat → TileRow → TileRow) :
    (y.modRows lo n f).rows[r]? =
      if lo ≤ r ∧ r < lo + n then some (f (r - lo) (y.rows.getD r TileRow.zero)) else y.rows[r]? := by
  rw [Tile.modRows_eq]
  split <;> simp_all

theorem twrRow_not_finite {y : Tile} {vs : List Nat} (hv : ∃ v ∈ vs, v / 2 ^ 23 % 256 = 255) :
    twrRow y vs = { TileRow.reset y.einit with n := true } := by
  unfold twrRow
  exact if_pos (by simpa using hv)

theorem twrRow_finite {y : Tile} {vs : List Nat} (hv : ∀ v ∈ vs, v / 2 ^ 23 % 256 ≠ 255) :
    twrRow y vs = (TileRow.reset y.einit).apply y.h (.add (vs.map twrPair)) := by
  unfold twrRow
  exact if_neg (by simpa using hv)

theorem twrPair_eq (v : Nat) : twrPair v =
    let e : Nat := v / 2 ^ 23 % 256
    let m : Nat := if e = 0 then v % 2 ^ 23 else 2 ^ 23 + v % 2 ^ 23
    (if ((v / 2 ^ 31 % 2 : Nat) = 1) then -(m : Int) else (m : Int), if e = 0 then -149 else (e : Int) - 150) := by
  unfold twrPair
  dsimp only
  split <;> rfl

/-! ## TWR (R255) -/

/-- TWR of sound words: every row that it names is made of its 64 values. -/
theorem State.tileWrite_sound {s : State} {p base n : Nat} {q : Seq} {key : Nat → Nat} (t lo : Nat) (hs : ∀ x ∈ s.late, 769 ∈ x.seen)
    (hk : ∀ i, i < 64 * n → s.seqSpad p q.wg true (base + 4 * i) 4 = some (key i) ∧ s.spad.poisoned (key i) 4 = false) :
    s.tileWrite p q t base lo n = (s.setTile (s.seqCore p q) t ((s.tile (s.seqCore p q) t).modRows lo n fun i _ =>
      twrRow (s.tile (s.seqCore p q) t) ((List.range 64).map fun j => ofBytes (s.spad.bytes (key (64 * i + j)) 4))), 0) := by
  have hsound : ((List.range (64 * n)).any fun i => s.spad.poisoned (key i) 4) = false := by
    simpa using fun i hi => (hk i hi).2
  have hread := State.ownNats_words fun i hi => (hk i hi).1
  simp only [hsound, State.lateBytes_seen hs] at hread
  unfold State.tileWrite
  rw [hread]
  dsimp only
  congr 2
  refine Tile.modRows_congr _ _ fun i hi _ => ?_
  rw [pieces_eq_map (n := n) (by decide) (by simp) (by omega), getD_map_range _ _ hi, drop_take_map_range _ (by omega)]

/-- R255: a row that TWR names becomes the reset row with the event of its values, invalid with a NaN or an infinity among them. -/
theorem twrRow_eq (y : Tile) (bits : Nat → Nat) :
    let fresh : TileRow := ⟨List.replicate 64 0, y.einit, 0, false⟩
    ((∃ j, j < 64 ∧ bits j / 2 ^ 23 % 256 = 255) → twrRow y ((List.range 64).map bits) = { fresh with n := true }) ∧
    ((∀ j, j < 64 → bits j / 2 ^ 23 % 256 ≠ 255) → twrRow y ((List.range 64).map bits) =
      fresh.apply y.h (.add ((List.range 64).map fun j =>
        let e : Nat := bits j / 2 ^ 23 % 256
        let m : Nat := if e = 0 then bits j % 2 ^ 23 else 2 ^ 23 + bits j % 2 ^ 23
        (if ((bits j / 2 ^ 31 % 2 : Nat) = 1) then -(m : Int) else (m : Int), if e = 0 then -149 else (e : Int) - 150)))) := by
  refine ⟨fun ⟨j, hj, hb⟩ => ?_, fun hb => ?_⟩
  · exact twrRow_not_finite ⟨bits j, List.mem_map.mpr ⟨j, List.mem_range.mpr hj, rfl⟩, hb⟩
  · rw [twrRow_finite (by simpa using hb), List.map_map]
    exact congrArg (fun xs => (TileRow.reset y.einit).apply y.h (.add xs)) (List.map_congr_left fun j _ => twrPair_eq (bits j))

/-- R255: TWR of sound words leaves every row that it does not name, and makes each row that it names of its 64 values. -/
theorem State.tileWrite_writes {s : State} {p base n t lo : Nat} {q : Seq} {key : Nat → Nat}
    (hrows : (s.tile (s.seqCore p q) t).rows.length = 64) (hs : ∀ x ∈ s.late, 769 ∈ x.seen)
    (hk : ∀ i, i < 64 * n → s.seqSpad p q.wg true (base + 4 * i) 4 = some (key i) ∧ s.spad.poisoned (key i) 4 = false) :
    let tile := s.tile (s.seqCore p q) t
    ∃ y : Tile, s.tileWrite p q t base lo n = (s.setTile (s.seqCore p q) t y, 0) ∧ y.h = tile.h ∧ y.einit = tile.einit ∧
      y.ofmt = tile.ofmt ∧ y.rows.length = 64 ∧ ∀ r, r < 64 → (r < lo ∨ lo + n ≤ r → y.rows[r]? = tile.rows[r]?) ∧
        (lo ≤ r → r < lo + n → y.rows[r]? =
          some (twrRow tile ((List.range 64).map fun j => ofBytes (s.spad.bytes (key (64 * (r - lo) + j)) 4)))) := by
  intro tile
  refine ⟨_, State.tileWrite_sound t lo hs hk, rfl, rfl, rfl, (Tile.length_modRows ..).trans hrows, fun r hr => ?_⟩
  rw [Tile.getElem?_modRows (by omega)]
  exact ⟨fun h => if_neg (by omega), fun h1 h2 => if_pos ⟨h1, h2⟩⟩

end Sys2Proof.Machine
end

section
/-! Bytes of the scratchpad after a write, and what ACCRD leaves in the words and in the tile (R119, R260). -/
namespace Sys2Proof.Machine

/-! ## A byte of the scratchpad after a write -/

theorem Spad.byte_writeAll_other (l : List (Nat × Byte)) (d : Spad) {k : Nat} (hk : ∀ e ∈ l, e.1 ≠ k) : (d.writeAll l).byte k = d.byte k := by
  induction l generalizing d with
  | nil => rfl
  | cons e r ih =>
    rw [Spad.writeAll, ih _ fun x hx => hk x (List.mem_cons_of_mem _ hx)]
    simp only [Spad.byte, find_put_other _ _ (hk e List.mem_cons_self).symm]

theorem Spad.byte_writeAll_located (bs : List Byte) (d : Spad) (a : Nat) {o : Nat} (ho : o < bs.length) :
    (d.writeAll (located a bs)).byte (a + o) = bs.getD o 0 := by
  induction bs generalizing d a o with
  | nil => exact absurd ho (Nat.not_lt_zero o)
  | cons b r ih =>
    rw [located, Spad.writeAll]
    cases o with
    | zero =>
      rw [Spad.byte_writeAll_other _ _ fun e he => by have := located_addr r (a + 1) e he; omega]
      simp [Spad.byte, find_put_same]
    | succ o =>
      rw [show a + (o + 1) = a + 1 + o by omega, ih _ _ (by simpa using ho)]
      rfl

theorem Spad.byte_write_other (d : Spad) {a k : Nat} {bs : List Byte} (hk : k < a ∨ a + bs.length ≤ k) : (d.write a bs).byte k = d.byte k :=
  Spad.byte_writeAll_other _ d fun e he => by have := located_addr bs a e he; omega

theorem Spad.byte_write_at (d : Spad) (a : Nat) {bs : List Byte} {o : Nat} (ho : o < bs.length) : (d.write a bs).byte (a + o) = bs.getD o 0 :=
  Spad.byte_writeAll_located bs d a ho

/-! ## Words written one after another -/

/-- The scratchpad with words written at the keys of some numbers, in order. -/
def Spad.writeWords (d : Spad) (key : Nat → Nat) (word : Nat → List Byte) (l : List Nat) : Spad := l.foldl (fun x i => x.write (key i) (word i)) d

section
variable {key : Nat → Nat} {word : Nat → List Byte}

theorem Spad.byte_writeWords_other (l : List Nat) (d : Spad) {k : Nat} (hk : ∀ i ∈ l, k < key i ∨ key i + (word i).length ≤ k) :
    (d.writeWords key word l).byte k = d.byte k := by
  induction l generalizing d with
  | nil => rfl
  | cons i r ih =>
    exact (ih (d.write (key i) (word i)) fun j hj => hk j (List.mem_cons_of_mem _ hj)).trans (Spad.byte_write_other d (hk i List.mem_cons_self))

theorem Spad.byte_writeWords_mem {l : List Nat} (d : Spad) (hl : l.Nodup)
    (hd : ∀ i ∈ l, ∀ j ∈ l, i ≠ j → key i + (word i).length ≤ key j ∨ key j + (word j).length ≤ key i) {i o : Nat} (hi : i ∈ l)
    (ho : o < (word i).length) : (d.writeWords key word l).byte (key i + o) = (word i).getD o 0 := by
  induction l generalizing d with
  | nil => exact absurd hi List.not_mem_nil
  | cons j r ih =>
    obtain ⟨hj, hr⟩ := List.nodup_cons.mp hl
    change ((d.write (key j) (word j)).writeWords key word r).byte (key i + o) = _
    by_cases hir : i ∈ r
    · exact ih _ hr (fun a ha b hb => hd a (List.mem_cons_of_mem _ ha) b (List.mem_cons_of_mem _ hb)) hir
    · obtain rfl : i = j := (List.mem_cons.mp hi).resolve_right hir
      rw [Spad.byte_writeWords_other r _ fun a ha => ?_, Spad.byte_write_at d _ ho]
      have := hd i hi a (List.mem_cons_of_mem _ ha) (fun h => hj (h ▸ ha))
      omega

end

/-! ## Bytes in a row -/

@[simp] theorem length_bytesOf (n v : Nat) : (bytesOf n v).length = n := by
  induction n generalizing v with
  | zero => rfl
  | succ n ih => simp [bytesOf, ih]

theorem getElem?_bytesOf {n b : Nat} (hb : b < n) (v : Nat) : (bytesOf n v)[b]? = some (BitVec.ofNat 8 (v / 256 ^ b)) := by
  induction n generalizing v b with
  | zero => exact absurd hb (Nat.not_lt_zero b)
  | succ n ih =>
    cases b with
    | zero => simp [bytesOf]
    | succ b => rw [bytesOf, List.getElem?_cons_succ, ih (Nat.lt_of_succ_lt_succ hb), Nat.div_div_eq_div_mul, Nat.pow_succ']

theorem length_flatMap_of_length {α β : Type} {f : α → List β} {c : Nat} (l : List α) (hf : ∀ x ∈ l, (f x).length = c) :
    (l.flatMap f).length = c * l.length := by
  rw [List.length_flatMap, List.map_congr_left hf, List.map_const', List.sum_replicate, smul_eq_mul, Nat.mul_comm]

theorem getElem?_flatMap_of_length {α β : Type} {f : α → List β} {c : Nat} (l : List α) (hf : ∀ x ∈ l, (f x).length = c) (i : Nat)
    {k : Nat} (hk : k < c) : (l.flatMap f)[c * i + k]? = l[i]?.bind fun x => (f x)[k]? := by
  induction l generalizing i with
  | nil => simp
  | cons x r ih =>
    have hx := hf x List.mem_cons_self
    rw [List.flatMap_cons]
    cases i with
    | zero => simp [List.getElem?_append_left, hx, hk]
    | succ i =>
      rw [List.getElem?_append_right (by rw [hx, Nat.mul_succ]; omega), hx, show c * (i + 1) + k - c = c * i + k by rw [Nat.mul_succ]; omega,
        ih fun y hy => hf y (List.mem_cons_of_mem _ hy)]
      rfl

/-- The bytes of an element of a tile as ACCRD writes it (R119). -/
def Tile.elemSize (y : Tile) : Nat := if y.ofmt = 1 then 2 else 4
/-- The bytes of a row. -/
def Tile.rowBytes (y : Tile) (r : TileRow) : List Byte := (upto 0 64).flatMap fun j => bytesOf y.elemSize (r.read y.ofmt j)
/-- The bytes of the rows from `lo` on, `n` of them. -/
def Tile.readBytes (y : Tile) (lo n : Nat) : List Byte := ((y.rows.drop lo).take n).flatMap y.rowBytes

theorem Tile.length_rowBytes (y : Tile) (r : TileRow) : (y.rowBytes r).length = y.elemSize * 64 :=
  length_flatMap_of_length _ fun _ _ => length_bytesOf _ _

theorem Tile.length_readBytes {y : Tile} {lo n : Nat} (h : lo + n ≤ y.rows.length) : (y.readBytes lo n).length = 4 * (16 * y.elemSize * n) := by
  have hn : ((y.rows.drop lo).take n).length = n := by
    rw [List.length_take, List.length_drop]
    omega
  rw [Tile.readBytes, length_flatMap_of_length _ fun r _ => y.length_rowBytes r, hn]
  ring

/-- Byte `b` of element `j` of the `i`-th row read. -/
theorem Tile.getElem?_readBytes {y : Tile} {lo n i j b : Nat} (h : lo + n ≤ y.rows.length) (hi : i < n) (hj : j < 64) (hb : b < y.elemSize) :
    (y.readBytes lo n)[y.elemSize * (64 * i + j) + b]? =
      some (BitVec.ofNat 8 ((y.rows.getD (lo + i) TileRow.zero).read y.ofmt j / 256 ^ b)) := by
  have hk : y.elemSize * j + b < y.elemSize * 64 := by nlinarith
  have hrow : ((y.rows.drop lo).take n)[i]? = some (y.rows.getD (lo + i) TileRow.zero) := by
    rw [List.getElem?_take_of_lt hi, List.getElem?_drop, List.getD_eq_getElem?_getD, List.getElem?_eq_getElem (by omega), Option.getD_some]
  rw [show y.elemSize * (64 * i + j) + b = y.elemSize * 64 * i + (y.elemSize * j + b) by ring, Tile.readBytes,
    getElem?_flatMap_of_length _ (fun r _ => y.length_rowBytes r) _ hk, hrow, Option.bind_some, Tile.rowBytes,
    getElem?_flatMap_of_length _ (fun _ _ => length_bytesOf _ _) _ hb, upto_eq_map_range]
  simp [hj, getElem?_bytesOf hb]

/-- The words of a list of bytes, by number. -/
def wordOf (bytes : List Byte) (i : Nat) : List Byte := (bytes.drop (4 * i)).take 4

theorem length_wordOf {bytes : List Byte} {n i : Nat} (hlen : bytes.length = 4 * n) (hi : i < n) : (wordOf bytes i).length = 4 := by
  rw [wordOf, List.length_take, List.length_drop]
  omega

section
variable {d : Spad} {key : Nat → Nat} {bytes : List Byte} {n : Nat} (hlen : bytes.length = 4 * n)
include hlen

/-- Bytes written word by word, at keys that keep the words apart, are the bytes read. -/
theorem Spad.byte_writeWords_wordOf (hd : ∀ i j, i < n → j < n → i ≠ j → key i + 4 ≤ key j ∨ key j + 4 ≤ key i) {o : Nat}
    (ho : o < 4 * n) :
    (d.writeWords key (wordOf bytes) (List.range n)).byte (key (o / 4) + o % 4) = bytes.getD o 0 := by
  have hw : ∀ i ∈ List.range n, (wordOf bytes i).length = 4 := fun i hi => length_wordOf hlen (List.mem_range.mp hi)
  have hi : o / 4 ∈ List.range n := List.mem_range.mpr (by omega)
  rw [Spad.byte_writeWords_mem d List.nodup_range (fun i hi j hj hij => ?_) hi (by rw [hw _ hi]; omega)]
  · rw [wordOf, List.getD_eq_getElem?_getD, List.getElem?_take_of_lt (by omega), List.getElem?_drop, Nat.div_add_mod,
      List.getD_eq_getElem?_getD]
  · rw [hw i hi, hw j hj]
    exact hd i j (List.mem_range.mp hi) (List.mem_range.mp hj) hij

theorem Spad.byte_writeWords_wordOf_other {k : Nat} (hk : ∀ i, i < n → k < key i ∨ key i + 4 ≤ k) :
    (d.writeWords key (wordOf bytes) (List.range n)).byte k = d.byte k :=
  Spad.byte_writeWords_other _ d fun i hi => by
    rw [length_wordOf hlen (List.mem_range.mp hi)]
    exact hk i (List.mem_range.mp hi)

end

/-! ## ACCRD (R260) -/

/-- A word put at its place in the own space, on the matrix path. -/
def State.putWord (s : State) (p wg base : Nat) (e : Nat × List Byte) : State :=
  match s.seqSpad p wg true (base + 4 * e.1) 4 with
  | some k => { s.wrote true [p] 1 [] k 4 with spad := s.spad.write k e.2 }
  | none => s
/-- Words put one after another. -/
def State.putWords (s : State) (p wg base : Nat) (l : List (Nat × List Byte)) : State := l.foldl (fun u e => u.putWord p wg base e) s

theorem State.seqSpad_of_works {s u : State} (h : u.works = s.works) (p wg : Nat) (own : Bool) (a n : Nat) :
    u.seqSpad p wg own a n = s.seqSpad p wg own a n := by
  simp only [State.seqSpad, State.work, h]

/-- Words put one after another change the scratchpad, and leave the work and the cores. -/
theorem State.putWords_keys {s : State} {p wg base : Nat} {key : Nat → Nat} (word : Nat → List Byte) (l : List Nat)
    (hk : ∀ i ∈ l, s.seqSpad p wg true (base + 4 * i) 4 = some (key i)) :
    let u := s.putWords p wg base (l.map fun i => (i, word i))
    u.works = s.works ∧ u.cores = s.cores ∧ u.spad = s.spad.writeWords key word l := by
  induction l generalizing s with
  | nil => exact ⟨rfl, rfl, rfl⟩
  | cons i r ih =>
    have hi : s.putWord p wg base (i, word i) = { s.wrote true [p] 1 [] (key i) 4 with spad := s.spad.write (key i) (word i) } := by
      unfold State.putWord
      rw [hk i List.mem_cons_self]
    rw [State.putWords, List.map_cons, List.foldl_cons, hi]
    exact ih fun j hj => (State.seqSpad_of_works rfl _ _ _ _ _).trans (hk j (List.mem_cons_of_mem _ hj))

/-- The state once ACCRD has put its words. -/
def State.accrdPut (s : State) (p : Nat) (q : Seq) (t base lo n : Nat) : State :=
  s.putWords p q.wg base ((List.range (16 * (s.tile (s.seqCore p q) t).elemSize * n)).map fun i =>
    (i, wordOf ((s.tile (s.seqCore p q) t).readBytes lo n) i))

section
variable {s : State} {p base n t lo : Nat} {q : Seq} {key : Nat → Nat}
  (hk : ∀ i, i < 16 * (s.tile (s.seqCore p q) t).elemSize * n → s.seqSpad p q.wg true (base + 4 * i) 4 = some (key i))
include hk

theorem State.accrdPut_keys (lo : Nat) :
    (s.accrdPut p q t base lo n).works = s.works ∧ (s.accrdPut p q t base lo n).cores = s.cores ∧ (s.accrdPut p q t base lo n).spad =
      s.spad.writeWords key (wordOf ((s.tile (s.seqCore p q) t).readBytes lo n)) (List.range (16 * (s.tile (s.seqCore p q) t).elemSize * n)) :=
  State.putWords_keys _ _ fun i hi => hk i (List.mem_range.mp hi)

/-- ACCRD of rows whose words lie in the own space: the words are put in order, and ACCRD.CLR resets the rows. -/
theorem State.tileRead_inSpace (clear : Bool) (hrows : lo + n ≤ (s.tile (s.seqCore p q) t).rows.length) :
    s.tileRead p q clear t base lo n = (if clear then (s.accrdPut p q t base lo n).setTile (s.seqCore p q) t
      ((s.tile (s.seqCore p q) t).modRows lo n fun _ _ => TileRow.reset (s.tile (s.seqCore p q) t).einit)
      else s.accrdPut p q t base lo n, 0) := by
  have hlen := Tile.length_readBytes hrows
  have hpieces : (upto 0 (16 * (s.tile (s.seqCore p q) t).elemSize * n)).zip
      (pieces 4 ((s.tile (s.seqCore p q) t).readBytes lo n).length ((s.tile (s.seqCore p q) t).readBytes lo n)) =
      (List.range (16 * (s.tile (s.seqCore p q) t).elemSize * n)).map fun i => (i, wordOf ((s.tile (s.seqCore p q) t).readBytes lo n) i) := by
    rw [pieces_eq_map (by decide) hlen (by omega), upto_eq_map_range, List.zip_map']
    simp [wordOf]
  have hroom := State.ownNats_words hk
  unfold Tile.elemSize at hroom
  unfold State.tileRead
  dsimp only
  rw [hroom, State.accrdPut, ← hpieces]
  rfl

end

@[simp] theorem State.setTile_spad (s : State) (core t : Nat) (y : Tile) : (s.setTile core t y).spad = s.spad := rfl

theorem State.tile_of_cores {s u : State} (h : u.cores = s.cores) (core t : Nat) : u.tile core t = s.tile core t := by
  simp only [State.tile, State.coreOf, h]

theorem State.tile_setTile {s : State} {core t : Nat} (ht : t < (s.coreOf core).tiles.length) (y : Tile) :
    (s.setTile core t y).tile core t = y := by
  simp [State.tile, State.setTile, List.getD_eq_getElem?_getD, ht]

/-- R260: ACCRD writes every element of its rows, little-endian, and no other byte; ACCRD.CLR resets the rows. -/
theorem State.tileRead_writes {s : State} {p base n : Nat} {q : Seq} {key : Nat → Nat} (clear : Bool) {t lo : Nat}
    (ht : t < (s.coreOf (s.seqCore p q)).tiles.length) (hrows : lo + n ≤ (s.tile (s.seqCore p q) t).rows.length)
    (hk : ∀ i, i < 16 * (s.tile (s.seqCore p q) t).elemSize * n → s.seqSpad p q.wg true (base + 4 * i) 4 = some (key i))
    (hd : ∀ i j, i < 16 * (s.tile (s.seqCore p q) t).elemSize * n → j < 16 * (s.tile (s.seqCore p q) t).elemSize * n → i ≠ j →
      key i + 4 ≤ key j ∨ key j + 4 ≤ key i) :
    let tile := s.tile (s.seqCore p q) t
    ∃ s1, s.tileRead p q clear t base lo n = (s1, 0) ∧ s1.mem = s.mem ∧ s1.works = s.works ∧
      (∀ i j b, i < n → j < 64 → b < tile.elemSize →
        let o := tile.elemSize * (64 * i + j) + b
        s1.spad.byte (key (o / 4) + o % 4) = BitVec.ofNat 8 (((tile.rows.getD (lo + i) TileRow.zero).read tile.ofmt j) / 256 ^ b)) ∧
      (∀ k, (∀ i, i < 16 * tile.elemSize * n → k < key i ∨ key i + 4 ≤ k) → s1.spad.byte k = s.spad.byte k) ∧
      ∀ r, r < tile.rows.length → (s1.tile (s.seqCore p q) t).rows[r]? =
        if clear = true ∧ lo ≤ r ∧ r < lo + n then some (TileRow.reset tile.einit) else tile.rows[r]? := by
  intro tile
  have hread := State.tileRead_inSpace hk clear hrows
  have hmem : (s.tileRead p q clear t base lo n).1.mem = s.mem := State.tileRead_mem
  have hlen := Tile.length_readBytes hrows
  obtain ⟨hworks, hcores, hspad⟩ := State.accrdPut_keys hk lo
  rw [hread] at hmem
  refine ⟨_, hread, hmem, ?_, fun i j b hi hj hb => ?_, fun k hfar => ?_, fun r hr => ?_⟩
  · split <;> exact hworks
  · intro o
    have hbyte := Tile.getElem?_readBytes hrows hi hj hb
    have ho : o < 4 * (16 * tile.elemSize * n) := hlen ▸ (List.getElem?_eq_some_iff.mp hbyte).1
    rw [apply_ite State.spad, State.setTile_spad, ite_self, hspad, Spad.byte_writeWords_wordOf hlen hd ho, List.getD_eq_getElem?_getD, hbyte,
      Option.getD_some]
  · rw [apply_ite State.spad, State.setTile_spad, ite_self, hspad, Spad.byte_writeWords_wordOf_other hlen hfar]
  · cases clear with
    | false => simp [State.tile_of_cores hcores, tile]
    | true =>
      rw [if_pos rfl, State.tile_setTile (by simpa only [State.coreOf, hcores] using ht), Tile.getElem?_modRows hr]
      simp [tile]

end Sys2Proof.Machine
end

section
/-! What the commands leave in tiles and scratchpad (O52), put together. -/
namespace Sys2Proof.Machine

/-- Settles O52: an event on a row is one pass of it with passes enough left (R118); TWR, the products' turns and ACCRD are read off
their rows and words one by one. -/
theorem tileContentsAfterCommands : Obligations.TileContentsAfterCommands := by
  refine ⟨fun h xs r _ _ _ _ he => TileRow.apply_add h xs r he, rneShift_nearest, fun _ _ => rfl, sigBits_le_iff, ?_, ?_, ?_,
    Step.events_mma, ?_, stagedInt_twos_complement⟩
  · intro s p q t base lo n key ht hlo _ core tile htiles hrows size
    refine ⟨fun hs hk => ?_, fun clear hk hd => ?_⟩
    · obtain ⟨y, hy, hh, he, hf, hlen, hr⟩ := State.tileWrite_writes (t := t) (lo := lo) hrows hs hk
      refine ⟨y, hy, hh, he, hf, hlen, fun r h64 => ⟨(hr r h64).1, fun h1 h2 => ?_⟩⟩
      intro bits fresh
      rw [(hr r h64).2 h1 h2]
      obtain ⟨hbad, hgood⟩ := twrRow_eq tile bits
      exact ⟨fun hb => congrArg some (hbad hb), fun hb => congrArg some (hgood hb)⟩
    · obtain ⟨s1, h1, hmem, hworks, hbytes, hfar, hr⟩ := State.tileRead_writes clear (htiles ▸ ht) (hlo.trans hrows.ge) hk hd
      exact ⟨s1, h1, hmem, hworks, hbytes, hfar, fun r h64 => hr r (hrows ▸ h64)⟩
  · exact fun r ofmt j _ _ => ⟨fun hn => TileRow.read_invalid hn ofmt j, fun hn hz => TileRow.read_zero hn hz ofmt⟩
  · intro s p cid kind t v k q data done b x _ hd core tile _ hrows hb hx hl
    exact ⟨s.takes x kind done, (s.exists_takes hl).2, State.productTurn_eq s p cid t k q hd hrows hb hx hl⟩
  · intro x h r _ _ ga gb
    refine ⟨fun hi => Step.main_invalid hi false, fun ha hb => ?_⟩
    simpa only [Step.dense_eq_sum] using Step.main_dense ha hb

end Sys2Proof.Machine
end

section
/-! Command queues (R124 to R127, R145): what a write of their registers leaves, when a packet is reached and when its queue halts, what
each packet does, and the obligation put together from them. -/
namespace Sys2Proof.Machine

/-! ## Registers of a queue -/

namespace Queue
variable {x : Queue} {v : DWord}

theorem setWptr_beyond (hs : x.state < 4) (hv : 2 ^ x.qlog < (v - x.qrptr).toNat) : x.setWptr v = { x with qwptr := v }.halted 4 := by
  simp only [setWptr, if_neg (Nat.not_le.mpr hs), if_pos hv]

theorem setWptr_within (hs : x.state < 4) (hv : (v - x.qrptr).toNat ≤ 2 ^ x.qlog) : x.setWptr v = { x with qwptr := v }.refresh := by
  simp only [setWptr, if_neg (Nat.not_le.mpr hs), if_neg (Nat.not_lt.mpr hv)]

theorem enable_aligned (hs : x.state < 4) (hb : x.qbase.toNat % (64 * 2 ^ x.qlog) = 0) : x.enable = { x with en := true }.refresh := by
  simp only [enable, if_neg (Nat.not_le.mpr hs), ne_eq, hb, not_true_eq_false, if_false]

theorem enable_misaligned (hs : x.state < 4) (hb : x.qbase.toNat % (64 * 2 ^ x.qlog) ≠ 0) :
    x.enable = { x with en := true }.halted 5 := by
  simp only [enable, if_neg (Nat.not_le.mpr hs), if_pos hb]

/-- A queue that waits or has halted stays so. -/
theorem refresh_of_two_le (hs : 2 ≤ x.state) : x.refresh = x := if_neg (Nat.not_le.mpr hs)

/-- A queue that is neither parses when it is enabled and its pointers differ. -/
theorem refresh_of_lt_two (hs : x.state < 2) : x.refresh = { x with state := if x.en = true ∧ x.qrptr ≠ x.qwptr then 1 else 0 } := by
  rw [refresh, if_pos (Nat.lt_succ_iff.mp hs)]
  simp

end Queue

section
variable {s : State} {who p n v : Nat}

theorem State.present_of_running (hr : (s.part p).state = .running) : s.present p = true := by simp [State.present, hr]

theorem execQwptrWrite_running (hi : s.issue = .part [who, p, n, v]) (hw : s.mayWrite who 0 = true)
    (hr : (s.part p).state = .running) (hn : n < 64) :
    execQwptrWrite s = .next (s.modQueue p n fun x => x.setWptr (BitVec.ofNat 64 v)) := by
  simp [execQwptrWrite, State.arg_part hi, hw, State.present_of_running hr, hn]

theorem execQueueReset_running (hi : s.issue = .part [who, p, n]) (hw : s.mayWrite who 2 = true)
    (hr : (s.part p).state = .running) (hn : n < 64) : execQueueReset s = .next (s.modQueue p n Queue.reset) := by
  simp [execQueueReset, State.arg_part hi, hw, State.present_of_running hr, hn]

theorem execQueueEnable_running (hi : s.issue = .part [who, p, n]) (hw : s.mayWrite who 2 = true)
    (hr : (s.part p).state = .running) (hn : n < 64) : execQueueEnable s = .next (s.modQueue p n Queue.enable) := by
  simp [execQueueEnable, State.arg_part hi, hw, State.present_of_running hr, hn]

/-- An agent below level 2 is no supervisor (R145). -/
theorem State.mayWrite_two_of_lt (hw : who < 2) : s.mayWrite who 2 = false := by
  simp [State.mayWrite, show who < 16 by omega, hw]

end

/-! ## Reaching a packet -/

/-- Queue `n` of a running partition parses: it is enabled, neither waits nor has halted, and its pointers differ (R127). -/
structure State.Parses (s : State) (p n : Nat) : Prop where
  running : (s.part p).state = .running
  enabled : ((s.part p).queue n).en = true
  active : ((s.part p).queue n).state < 2
  apart : ((s.part p).queue n).qrptr ≠ ((s.part p).queue n).qwptr

/-- R125, bit by bit. -/
theorem packetBad_iff (h : Nat) : packetBad h = true ↔
    5 ≤ h % 16 ∨ h / 2 ^ 5 % 8 ≠ 0 ∨ h / 2 ^ 12 % 2 ^ 20 ≠ 0 ∨ h % 16 = 2 ∧ (h / 2 ^ 8 % 16 = 0 ∨ 12 < h / 2 ^ 8 % 16) := by
  have hupper : bitsOf h 31 12 = h / 2 ^ 12 % 2 ^ 20 := rfl
  have hflags : bitsOf h 7 5 = h / 2 ^ 5 % 8 := rfl
  have hcount : bitsOf h 11 8 = h / 2 ^ 8 % 16 := rfl
  simp only [packetBad, hupper, hflags, hcount, Bool.or_eq_true, Bool.and_eq_true, bne_iff_ne, beq_iff_eq, decide_eq_true_iff]
  omega

section
variable {s : State} {p n h type : Nat} {k : Nat → State}

/-- A queue that parses passes the first test of a packet's step. -/
theorem State.Parses.passes (hs : s.Parses p n) :
    let x := (s.part p).queue n
    (!s.present p || !x.en || decide (1 < x.state) || x.qrptr == x.qwptr) = false := by
  simp [State.present_of_running hs.running, hs.enabled, hs.apart, Nat.lt_succ_iff.mp hs.active]

theorem State.onPacket_unreadable (hs : s.Parses p n) {e : Nat} (hr : s.packetRead p n 0 8 = .error e) :
    s.onPacket p n type k = s.queueFault p n 0 := by
  simp only [State.onPacket, hs.passes, Bool.false_eq_true, if_false, hr]

theorem State.onPacket_bad (hs : s.Parses p n) (hr : s.packetRead p n 0 8 = .ok h) (hb : packetBad h = true) :
    s.onPacket p n type k = s.modQueue p n fun y => y.halted 5 := by
  simp only [State.onPacket, hs.passes, Bool.false_eq_true, if_false, hr, if_pos hb]

theorem State.onPacket_overflowing (hs : s.Parses p n) (hr : s.packetRead p n 0 8 = .ok h) (hb : ¬packetBad h = true)
    (hl : (((s.part p).queue n).qwptr - ((s.part p).queue n).qrptr).toNat < packetSlots h) :
    s.onPacket p n type k = s.modQueue p n fun y => y.halted 4 := by
  simp only [State.onPacket, hs.passes, Bool.false_eq_true, if_false, hr, if_neg hb, if_pos hl]

/-- Queue `n` has reached a packet that it can read whole. -/
structure State.Reaches (s : State) (p n h : Nat) : Prop extends s.Parses p n where
  header : s.packetRead p n 0 8 = .ok h
  good : ¬packetBad h = true
  whole : packetSlots h ≤ (((s.part p).queue n).qwptr - ((s.part p).queue n).qrptr).toNat

theorem State.onPacket_reaches (hs : s.Reaches p n h) (ht : h % 16 = type) : s.onPacket p n type k = k h := by
  simp only [State.onPacket, hs.passes, Bool.false_eq_true, if_false, hs.header, if_neg hs.good, if_neg (Nat.not_lt.mpr hs.whole),
    if_pos ht]

/-- The five packets, whatever they do, go through the same checks. -/
theorem exec_packet_eq_onPacket (hi : s.issue = .part [p, n]) :
    ∀ i ∈ [Instr.nopPacket, .launchPacket, .fencePacket, .writePacket, .timedPacket],
      ∃ type k, exec i s = .next (s.onPacket p n type k) := by
  simp only [List.forall_mem_cons, List.not_mem_nil, false_imp_iff, implies_true, and_true, exec_nopPacket, exec_launchPacket,
    exec_fencePacket, exec_writePacket, exec_timedPacket, execNopPacket, execLaunchPacket, execFencePacket, execWritePacket,
    execTimedPacket, State.arg_part hi]
  exact ⟨⟨_, _, rfl⟩, ⟨_, _, rfl⟩, ⟨_, _, rfl⟩, ⟨_, _, rfl⟩, ⟨_, _, rfl⟩⟩

end

/-! ## What each packet does -/

section
variable {s : State} {p n h : Nat} (hi : s.issue = .part [p, n])
include hi

theorem execNopPacket_reaches (hs : s.Reaches p n h) (ht : h % 16 = 0) : execNopPacket s = .next (s.passPacket p n 1) := by
  simp only [execNopPacket, State.arg_part hi, List.getD_cons_zero, List.getD_cons_succ, State.onPacket_reaches hs ht]

theorem execLaunchPacket_accepts (hs : s.Reaches p n h) (ht : h % 16 = 1) {a v : Nat} (ha : s.packetRead p n 8 8 = .ok a)
    (h256 : a % 256 = 0) (hv : s.agentRead (s.queueAgent p n) a 256 = .ok v) : execLaunchPacket s =
    .next ((s.accept (s.queueAgent p n) ((s.part p).queueLevel n) v).passPacket p n 1) := by
  simp only [execLaunchPacket, State.arg_part hi, List.getD_cons_zero, List.getD_cons_succ, State.onPacket_reaches hs ht, ha, h256, hv,
    ne_eq, not_true_eq_false, if_false]

theorem execLaunchPacket_misaligned (hs : s.Reaches p n h) (ht : h % 16 = 1) {a : Nat} (ha : s.packetRead p n 8 8 = .ok a)
    (h256 : a % 256 ≠ 0) : execLaunchPacket s = .next (s.modQueue p n fun x => x.halted 5) := by
  simp only [execLaunchPacket, State.arg_part hi, List.getD_cons_zero, List.getD_cons_succ, State.onPacket_reaches hs ht, ha, if_pos h256]

theorem execFencePacket_misaligned (hs : s.Reaches p n h) (ht : h % 16 = 2) {cs : List (Nat × Nat)}
    (hcs : s.fenceList p n 0 (h / 2 ^ 8 % 16) = .ok cs) (h8 : ∃ c ∈ cs, c.1 % 8 ≠ 0) :
    execFencePacket s = .next (s.modQueue p n fun x => x.halted 5) := by
  have hcs : s.fenceList p n 0 (bitsOf h 11 8) = .ok cs := hcs
  have hany : (cs.any fun e => e.1 % 8 != 0) = true := by simpa using h8
  simp only [execFencePacket, State.arg_part hi, List.getD_cons_zero, List.getD_cons_succ, State.onPacket_reaches hs ht, hcs, if_pos hany]

theorem execFencePacket_reads (hs : s.Reaches p n h) (ht : h % 16 = 2) {cs : List (Nat × Nat)}
    (hcs : s.fenceList p n 0 (h / 2 ^ 8 % 16) = .ok cs) (h8 : ∀ c ∈ cs, c.1 % 8 = 0) : execFencePacket s =
    .next (s.fenceRead p n cs (packetSlots h) (if h / 2 ^ 32 = 0 then none else some (s.time + 1000 * (h / 2 ^ 32)))) := by
  have hcs : s.fenceList p n 0 (bitsOf h 11 8) = .ok cs := hcs
  have hany : ¬(cs.any fun e => e.1 % 8 != 0) = true := by simpa using h8
  simp only [execFencePacket, State.arg_part hi, List.getD_cons_zero, List.getD_cons_succ, State.onPacket_reaches hs ht, hcs, if_neg hany]

theorem execWritePacket_misaligned (hs : s.Reaches p n h) (ht : h % 16 = 3) {a v : Nat} (ha : s.packetRead p n 8 8 = .ok a)
    (hv : s.packetRead p n 16 8 = .ok v) (h8 : a % 8 ≠ 0) : execWritePacket s = .next (s.modQueue p n fun x => x.halted 5) := by
  simp only [execWritePacket, State.arg_part hi, List.getD_cons_zero, List.getD_cons_succ, State.onPacket_reaches hs ht, ha, hv, if_pos h8]

theorem execWritePacket_writes (hs : s.Reaches p n h) (ht : h % 16 = 3) {a v : Nat} (ha : s.packetRead p n 8 8 = .ok a)
    (hv : s.packetRead p n 16 8 = .ok v) (h8 : a % 8 = 0) {t : State} (hw : s.packetWrite p n a v (h / 16 % 2 == 1) = some t) :
    execWritePacket s = .next (t.passPacket p n 1) := by
  have hw : s.packetWrite p n a v (bitsOf h 4 4 == 1) = some t := hw
  simp only [execWritePacket, State.arg_part hi, List.getD_cons_zero, List.getD_cons_succ, State.onPacket_reaches hs ht, ha, hv, h8, hw,
    ne_eq, not_true_eq_false, if_false]

theorem execTimedPacket_reads (hs : s.Reaches p n h) (ht : h % 16 = 4) {t : Nat} (hr : s.packetRead p n 8 8 = .ok t) :
    execTimedPacket s =
      .next (if t ≤ s.time then s.passPacket p n 1 else s.modQueue p n fun x => { x with state := 3, limit := some t }) := by
  simp only [execTimedPacket, State.arg_part hi, List.getD_cons_zero, List.getD_cons_succ, State.onPacket_reaches hs ht, hr]

end

section
variable {s : State} {p n slots : Nat} {cs l : List (Nat × Nat)} {limit : Option Nat}

theorem State.fenceRead_met (hu : s.unmetOf (s.queueAgent p n) cs = .ok []) :
    s.fenceRead p n cs slots limit = s.passPacket p n slots := by
  simp only [State.fenceRead, hu]

theorem State.fenceRead_unmet (hu : s.unmetOf (s.queueAgent p n) cs = .ok l) (hl : l ≠ []) : s.fenceRead p n cs slots limit =
    s.modQueue p n fun x => { x with state := 2, unmet := l, slots := slots, limit := limit } := by
  cases l with
  | nil => exact absurd rfl hl
  | cons e r => simp only [State.fenceRead, hu]

end

/-! ## What a WRITE writes -/

theorem bytesOf_eq_map_range (n v : Nat) : bytesOf n v = (List.range n).map fun i => BitVec.ofNat 8 (v / 256 ^ i) := by
  refine List.ext_getElem? fun i => ?_
  by_cases hi : i < n
  · rw [getElem?_bytesOf hi, List.getElem?_map, List.getElem?_range hi, Option.map_some]
  · rw [List.getElem?_eq_none (by simpa using hi), List.getElem?_eq_none (by simpa using hi)]

theorem Memory.bytes_eq_map_range (m : Memory) (a n : Nat) : m.bytes a n = (List.range n).map fun i => m.byte (a + i) := by
  induction n generalizing a with
  | zero => rfl
  | succ n ih =>
    rw [Memory.bytes, ih, List.range_succ_eq_map, List.map_cons, List.map_map]
    congr 1
    exact List.map_congr_left fun i _ => congrArg m.byte (Nat.add_right_comm a 1 i)

section
variable {s : State} {p pa leaf : Nat} (hf : leafFmt leaf ≠ 2) (hp : s.placeOf p pa = .mem)
include hf hp

/-- What a synchronising access finds in plain memory: the bytes that stand. -/
theorem State.fetchLoc_plain (n : Nat) :
    s.fetchLoc p none (.mem pa leaf) n = .ok (s.mem.bytes pa n, s.mem.poisoned pa n) := by
  simp only [State.fetchLoc, if_neg hf, if_pos hp, lateBytes_synchronising]

theorem State.putLoc_plain (level path : Nat) (bs : List Byte) : s.putLoc p level path (.mem pa leaf) bs false =
    .ok { s.wrote false [p] path [] pa bs.length with mem := s.mem.write pa bs } := by
  simp only [State.putLoc, if_neg hf, if_pos hp, Bool.false_eq_true, if_false]

theorem State.packetWrite_store {n a : Nat} (hl : s.memLoc (s.queueAgent p n) .write a 8 false = .ok (.mem pa leaf)) (v : Nat) :
    s.packetWrite p n a v false = some { s.wrote false [p] 0 [] pa 8 with
      mem := s.mem.write pa ((List.range 8).map fun i => BitVec.ofNat 8 (v / 256 ^ i)) } := by
  rw [← bytesOf_eq_map_range]
  simp only [State.packetWrite, Bool.false_eq_true, if_false, hl, State.fetchLoc_plain hf hp, Bool.false_and, State.putLoc_plain hf hp,
    length_bytesOf]

theorem State.packetWrite_add {n a : Nat} (hl : s.memLoc (s.queueAgent p n) .atomic a 8 true = .ok (.mem pa leaf))
    (hs : s.mem.poisoned pa 8 = false) (v : Nat) :
    let sum := (ofBytes ((List.range 8).map fun i => s.mem.byte (pa + i)) + v) % 2 ^ 64
    s.packetWrite p n a v true = some { s.wrote false [p] 0 [] pa 8 with
      mem := s.mem.write pa ((List.range 8).map fun i => BitVec.ofNat 8 (sum / 256 ^ i)) } := by
  intro sum
  rw [← bytesOf_eq_map_range, show sum = (ofBytes (s.mem.bytes pa 8) + v) % 2 ^ 64 by rw [Memory.bytes_eq_map_range]]
  simp only [State.packetWrite, if_true, hl, State.fetchLoc_plain hf hp, hs, Bool.and_false, Bool.false_eq_true, if_false,
    State.putLoc_plain hf hp, length_bytesOf]

end

/-! ## The end of a wait -/

section
variable {s : State} {p n t : Nat} (hi : s.issue = .part [p, n]) (hr : (s.part p).state = .running)
include hi hr

theorem execFenceCountersMet_waiting (he : ((s.part p).queue n).en = true) (hs : ((s.part p).queue n).state = 2) :
    let x := (s.part p).queue n
    execFenceCountersMet s = .next (s.fenceRead p n x.unmet x.slots x.limit) := by
  simp [execFenceCountersMet, State.arg_part hi, State.present_of_running hr, he, hs]

theorem execFenceTimeout_waiting (hl : ((s.part p).queue n).limit = some t) (ht : t ≤ s.time)
    (hs : ((s.part p).queue n).state = 2) : execFenceTimeout s = .next (s.modQueue p n fun x => x.halted 6) := by
  simp [execFenceTimeout, State.arg_part hi, State.present_of_running hr, hl, ht, hs]

theorem execTimedReached_waiting (hl : ((s.part p).queue n).limit = some t) (ht : t ≤ s.time)
    (he : ((s.part p).queue n).en = true) (hs : ((s.part p).queue n).state = 3) :
    execTimedReached s = .next (s.passPacket p n 1) := by
  simp [execTimedReached, State.arg_part hi, State.present_of_running hr, hl, ht, he, hs]

end

/-! ## The obligation -/

/-- Settles O54: the writes of the registers by what they leave of the queue, each packet by the checks that it passes and what it does
behind them. -/
theorem queueRegistersAndPackets : Obligations.QueueRegistersAndPackets := by
  unfold Obligations.QueueRegistersAndPackets
  refine ⟨fun s who p n v hr hn => ?registers, fun s p n hi hr => ?queue⟩
  case registers =>
    intro x sets halts ptr
    have hsets {y z : Queue} (h : y = z) : Host.Outcome.next (sets y) = (.next (sets z) : Out) := congrArg _ (congrArg sets h)
    refine ⟨fun hi hw hs => ?qwptr, fun hi => ⟨fun hw => ⟨?reset, fun hs hb => ?aligned, fun hs hb => ?misaligned⟩,
      fun hw => ?refused⟩⟩
    case qwptr =>
      rw [exec_qwptrWrite, execQwptrWrite_running hi hw hr hn]
      exact ⟨fun hv => hsets (Queue.setWptr_beyond hs hv),
        fun hv h2 => hsets ((Queue.setWptr_within hs hv).trans (Queue.refresh_of_two_le h2)),
        fun hv h2 => hsets ((Queue.setWptr_within hs hv).trans (Queue.refresh_of_lt_two h2))⟩
    case reset => exact execQueueReset_running hi hw hr hn
    case aligned =>
      rw [exec_queueEnable, execQueueEnable_running hi hw hr hn]
      refine hsets (((Queue.enable_aligned (Nat.lt_trans hs (by decide)) hb).trans (Queue.refresh_of_lt_two hs)).trans ?_)
      simp
    case misaligned =>
      rw [exec_queueEnable, execQueueEnable_running hi hw hr hn]
      exact hsets (Queue.enable_misaligned hs hb)
    case refused => simp [execQueueReset, execQueueEnable, State.arg_part hi, State.mayWrite_two_of_lt hw]
  case queue =>
    intro x g sets halts pass waits packets
    have hpass (t : State) (k : Nat) : t.passPacket p n k = pass t k := rfl
    have hfault : s.queueFault p n 0 = (halts 7).bbWrite 0x0703 p (homeDie p) 2 (n * 65536) := by
      rw [State.queueFault, Nat.add_zero]
      rfl
    have hpackets {t : State} (h : ∀ type k, s.onPacket p n type k = t) : ∀ i ∈ packets, exec i s = .next t := fun i hm => by
      obtain ⟨type, k, he⟩ := exec_packet_eq_onPacket hi i hm
      rw [he, h]
    refine ⟨fun hen hst hne => ?packets, fun hen hst l hl => ⟨fun hnil => ?met, fun hnil => ?unmet⟩,
      fun t hl ht => ⟨execFenceTimeout_waiting hi hr hl ht, execTimedReached_waiting hi hr hl ht⟩⟩
    case met =>
      rw [exec_fenceCountersMet, execFenceCountersMet_waiting hi hr hen hst, State.fenceRead_met (hnil ▸ hl), hpass]
    case unmet =>
      rw [exec_fenceCountersMet, execFenceCountersMet_waiting hi hr hen hst, State.fenceRead_unmet hl hnil]
      rfl
    case packets =>
      have hs : s.Parses p n := ⟨hr, hen, hst, hne⟩
      refine ⟨fun e he => hpackets fun _ _ => (State.onPacket_unreadable hs he).trans hfault, fun h hh => ?_⟩
      intro type ctrs slots bad
      refine ⟨fun hb => hpackets fun _ _ => State.onPacket_bad hs hh ((packetBad_iff h).mpr hb),
        fun hb hl => hpackets fun _ _ => State.onPacket_overflowing hs hh (mt (packetBad_iff h).mp hb) hl, fun hb hl => ?_⟩
      have hreach : s.Reaches p n h := ⟨hs, hh, mt (packetBad_iff h).mp hb, hl⟩
      refine ⟨execNopPacket_reaches hi hreach, ?launch, ?fence, ?write, ?timed⟩
      case launch =>
        exact fun a ht ha =>
          ⟨fun v h256 hv => execLaunchPacket_accepts hi hreach ht ha h256 hv, execLaunchPacket_misaligned hi hreach ht ha⟩
      case fence =>
        refine fun cs ht hcs => ⟨execFencePacket_misaligned hi hreach ht hcs, fun h8 l hu => ?_⟩
        rw [exec_fencePacket, execFencePacket_reads hi hreach ht hcs h8]
        exact ⟨fun hnil => by rw [State.fenceRead_met (hnil ▸ hu)]; rfl, fun hnil => by rw [State.fenceRead_unmet hu hnil]; rfl⟩
      case write =>
        refine fun a v ht ha hv => ⟨execWritePacket_misaligned hi hreach ht ha hv, fun pa leaf h8 hf hp => ⟨fun hadd hloc => ?store,
          fun hadd hloc hsound => ?add⟩⟩
        case store => exact execWritePacket_writes hi hreach ht ha hv h8 (by rw [hadd]; exact State.packetWrite_store hf hp hloc v)
        case add => exact execWritePacket_writes hi hreach ht ha hv h8 (by rw [hadd]; exact State.packetWrite_add hf hp hloc hsound v)
      case timed =>
        intro t ht htime
        rw [exec_timedPacket, execTimedPacket_reads hi hreach ht htime]
        exact ⟨fun hle => congrArg _ (if_pos hle), fun hlt => congrArg _ (if_neg (Nat.not_le.mpr hlt))⟩

end Sys2Proof.Machine
end

section
/-! Placement and completion (R52, R53, R65, R134, R136, R137, R143, R144): what a try of the pending items, the ageing of one, the start
of an output warp, the end of a launch and the start of a control program leave, and the obligation put together from them. -/
namespace Sys2Proof.Machine

/-! ## Pending items -/

theorem upd_eq_set {α : Type} {l : List α} {n : Nat} {x : α} (h : l[n]? = some x) (f : α → α) : upd l n f = l.set n (f x) := by
  induction l generalizing n with
  | nil => simp at h
  | cons y r ih =>
    cases n with
    | zero => simp_all [upd]
    | succ n => simpa [upd] using ih (by simpa using h)

section
variable {s : State} {p n : Nat}

/-- The first item of the trying order that fits is placed. -/
theorem State.placeNext_fits {l1 l2 : List (Nat × Item)} {e : Nat × Item} {t : State} {left : List Item}
    (hr : (s.part p).state = .running) (ho : (s.work p).tryOrder = l1 ++ e :: l2) (h1 : ∀ x ∈ l1, s.placeOne p x.2 = none)
    (he : s.placeOne p e.2 = some (t, left)) :
    s.placeNext p = t.modWork p fun w => { w with items := replaceNth w.items e.1 left } := by
  have hfirst : (s.work p).tryOrder.findSome? (fun e => (s.placeOne p e.2).map fun r => (e.1, r)) = some (e.1, t, left) := by
    rw [ho, List.findSome?_append, List.findSome?_eq_none_iff.mpr fun x hx => by rw [h1 x hx]; rfl, Option.none_or,
      List.findSome?_cons, he]
    rfl
  simp only [State.placeNext, State.present_of_running hr, hfirst, Bool.not_true, Bool.false_eq_true, if_false]

theorem State.placeNext_none (h : ∀ x ∈ (s.work p).tryOrder, s.placeOne p x.2 = none) : s.placeNext p = s := by
  have hfirst : (s.work p).tryOrder.findSome? (fun e => (s.placeOne p e.2).map fun r => (e.1, r)) = none :=
    List.findSome?_eq_none_iff.mpr fun x hx => by rw [h x hx]; rfl
  simp only [State.placeNext, hfirst, ite_self]

/-- A change of one pending item that is there puts the changed item in its place. -/
theorem State.modWork_upd_items {i : Item} (h : (s.work p).items[n]? = some i) (f : Item → Item) :
    s.modWork p (fun w => { w with items := upd w.items n f }) = s.modWork p fun w => { w with items := w.items.set n (f i) } := by
  simp only [State.modWork, upd_eq_set h]

end

/-! ## Output warps -/

theorem Work.wg_id {w : Work} {id : Nat} {g : WorkGroup} (h : w.wg id = some g) : g.id = id := by
  simpa using List.find?_some h

/-- A work-group that an output warp joins, with the regions of scratchpad that it then has (R52, R54). -/
def WorkGroup.joinedBy (g : WorkGroup) (x : Warp) (space : List Region) : WorkGroup := { g with warps := g.warps ++ [x], space := space }

/-- What the start of an output warp does: it joins its work-group, after an acquire on that one's core. -/
theorem State.startOutput_starts {s : State} {p n j gid idx : Nat} {o : Output} {ts : List NewThread} {rest : List (Nat × List NewThread)}
    {g : WorkGroup} {l : Launch} (hr : (s.part p).state = .running) (ho : (s.work p).outputs[n]? = some o) (hw : o.warps = (j, ts) :: rest)
    (hseat : o.seat j = some (gid, idx))
    (hfree : max 1 o.seats.length ≤ j → ∀ k, find o.started (j % max 1 o.seats.length) = some k → g.warp k = none)
    (hg : (s.work p).wg gid = some g) (hl : (s.work p).launch o.seq = some l) (hslots : ((s.work p).usedSlots g.core).length < 32)
    (hgran : (s.work p).usedGranules g.core + o.granules ≤ 256) : ∃ key space next outputs,
    s.startOutput p n = (({ s with spad := { s.spad with next := next } }).acquireOn p g.core).modWork p fun v =>
      { v.modWg g.id (·.joinedBy (mkWarp key (((s.work p).freeSlots g.core).headD 0) o.granules .zero ts) space) with
        outputs := outputs } := by
  simp only [State.startOutput, ho, hw, State.present_of_running hr, if_true, hseat, Option.bind_eq_bind, Option.bind_some, hg,
    Option.map_some, hl]
  rw [if_neg]
  · exact ⟨_, _, _, _, rfl⟩
  · by_cases hj : max 1 o.seats.length ≤ j
    · cases hk : find o.started (j % max 1 o.seats.length) with
      | none => simp [hslots, hgran]
      | some k => simp [hslots, hgran, hfree hj k hk]
    · simp [hslots, hgran, hj]

/-! ## The end of a launch -/

section
variable {s : State} {p n : Nat} {l : Launch}

/-- A launch whose event queue has room pushes its record and is gone; one without a record, or torn down, is gone at once (R134, R317). -/
theorem State.pushLaunch_room :
    let cl := 2 * firstSlice p + l.rcd.gcl
    let gd := findD (s.work p).guidons cl ⟨[], []⟩
    gd.events.length < 256 → s.pushLaunch p l =
      if l.rcd.even = false ∨ (s.part p).state = .tearing then s.modWork p fun w => { w with launches := drop w.launches l.seq }
      else s.modWork p fun w => { w with
        launches := drop w.launches l.seq
        guidons := put w.guidons cl { gd with events := gd.events ++ [⟨0, 0, BitVec.ofNat 64 l.seq⟩] } } := by
  intro cl gd hroom
  have hpush : (s.work p).pushEvent cl ⟨0, 0, BitVec.ofNat 64 l.seq⟩ = some { s.work p with
      guidons := put (s.work p).guidons cl { gd with events := gd.events ++ [⟨0, 0, BitVec.ofNat 64 l.seq⟩] } } := if_pos hroom
  simp only [State.pushLaunch, Bool.or_eq_true, Bool.not_eq_true', beq_iff_eq]
  split
  · rfl
  · rw [hpush]
    rfl

theorem execLaunchComplete_done (hi : s.issue = .part [p, n]) (hl : (s.work p).launch n = some l) (hp : l.pushing = false)
    (hd : (s.work p).launchDone l = true) : execLaunchComplete s = .next ((s.endSteps p l).pushLaunch p l) := by
  simp [execLaunchComplete, State.completeLaunch, State.arg_part hi, hl, hp, hd]

theorem execLaunchComplete_busy (hi : s.issue = .part [p, n]) (hl : (s.work p).launch n = some l) (hp : l.pushing = false)
    (hd : (s.work p).launchDone l = false) : execLaunchComplete s = .next s := by
  simp [execLaunchComplete, State.completeLaunch, State.arg_part hi, hl, hp, hd]

theorem execLaunchComplete_pushing (hi : s.issue = .part [p, n]) (hl : (s.work p).launch n = some l) (hp : l.pushing = true) :
    execLaunchComplete s = .next (s.pushLaunch p l) := by
  simp [execLaunchComplete, State.completeLaunch, State.arg_part hi, hl, hp]

theorem execCompletionRecordPush_launch (hi : s.issue = .part [p, n]) (hl : (s.work p).launch n = some l) :
    execCompletionRecordPush s = .next (if l.pushing then s.pushLaunch p l else s) := by
  simp [execCompletionRecordPush, State.arg_part hi, hl]

end

/-! ## Control programs -/

/-- An idle Guidon starts the first program that waits for it: a sequencer of class 4 with zeroed registers (R65, R144). -/
theorem execControlProgramStart_idle {s : State} {p cl n : Nat} {r : List Nat} {es : List EventRec} {l : Launch}
    (hi : s.issue = .part [p, cl]) (hg : findD (s.work p).guidons cl ⟨[], []⟩ = ⟨es, n :: r⟩) (hl : (s.work p).launch n = some l)
    (hidle : ∀ q ∈ (s.work p).seqs, ¬(q.cls = 4 ∧ q.cluster = cl)) :
    let at_ : VAddr := l.rcd.ctlprog.setWidth 56
    let q : Seq := ⟨s.ids, 4, 0, cl, n, l.priv, at_, Cursor.at at_, List.replicate 32 0, [], false, false, false, none, 0⟩
    execControlProgramStart s = .next (s.fresh.modWork p fun w => { w with
      guidons := put w.guidons cl ⟨es, r⟩, seqs := w.seqs ++ [q] }) := by
  have hany : ((s.work p).seqs.any fun q => q.cls == 4 && q.cluster == cl) = false := by simpa using hidle
  simp only [execControlProgramStart, State.arg_part hi, List.getD_cons_zero, List.getD_cons_succ, hg, hany,
    Bool.false_eq_true, if_false, hl]

/-! ## The obligation -/

/-- Settles O55: each step of the part by what it leaves, an output warp read at its work-group. -/
theorem workIsPlacedAndLaunchesEnd : Obligations.WorkIsPlacedAndLaunchesEnd := by
  unfold Obligations.WorkIsPlacedAndLaunchesEnd
  refine ⟨fun s p hi hr => ⟨?fits, ?none⟩, fun s p n i hi hn => ⟨?ages, ?reserves⟩, ?output, ?launch, ?control⟩
  case fits =>
    intro l1 e l2 t left ho h1 he
    rw [exec_placeItem, execPlaceItem, State.arg_part hi]
    exact congrArg _ (State.placeNext_fits hr ho h1 he)
  case none =>
    intro h
    rw [exec_placeItem, execPlaceItem, State.arg_part hi]
    exact congrArg _ (State.placeNext_none h)
  case ages =>
    rw [exec_priorityAging, execPriorityAging, State.arg_part hi, State.arg_part hi]
    exact congrArg _ (State.modWork_upd_items hn _)
  case reserves =>
    intro hold
    rw [exec_placementReserve, execPlacementReserve, State.arg_part hi, State.arg_part hi]
    refine congrArg _ ((State.modWork_upd_items hn _).trans ?_)
    simp only [if_pos hold]
  case output =>
    intro s p n j gid idx o ts rest g l hi hr ho hw hseat hfree hg hl hslots hgran
    obtain ⟨key, space, next, outputs, he⟩ := State.startOutput_starts hr ho hw hseat
      (fun hj => hfree (Nat.le_trans (Nat.le_max_right 1 _) hj)) hg hl hslots hgran
    obtain rfl := Work.wg_id hg
    have hexec : exec .outputWarpStart s = .next (s.startOutput p n) := by
      rw [exec_outputWarpStart, execOutputWarpStart, State.arg_part hi, State.arg_part hi]
      rfl
    rw [he] at hexec
    refine ⟨_, g.joinedBy (mkWarp key (((s.work p).freeSlots g.core).headD 0) o.granules .zero ts) space, key, _, hexec, ?_,
      rfl, rfl, rfl, rfl, rfl, rfl⟩
    rw [State.modWork_work_same]
    exact (Work.modWg_wg_same (s.work p) g.id (·.joinedBy _ space) fun _ => rfl).trans (congrArg (Option.map _) hg)
  case launch =>
    intro s p n l hi hl cl pushed room
    have hpush (t : State) (h : room t) : t.pushLaunch p l = pushed t := State.pushLaunch_room h
    refine ⟨fun hp hd h => ?_, execLaunchComplete_busy hi hl, fun hp h => ?_, fun hp => ?_⟩
    · rw [exec_launchComplete, execLaunchComplete_done hi hl hp hd, hpush _ h]
    · rw [exec_completionRecordPush, exec_launchComplete, execCompletionRecordPush_launch hi hl, execLaunchComplete_pushing hi hl hp,
        if_pos hp, hpush s h]
      exact ⟨rfl, rfl⟩
    · rw [exec_completionRecordPush, execCompletionRecordPush_launch hi hl, hp]
      rfl
  case control =>
    intro s p cl n r es l hi hg hl hidle
    exact execControlProgramStart_idle hi hg hl hidle

end Sys2Proof.Machine
end

section
/-! Withdrawal and pre-emption (R30, R135, R379, R380, R420): what the commands of the two registers leave, how a work-group that stands
alone leaves its core, how the missing member of a round is placed, and the obligation put together from them. -/
namespace Sys2Proof.Machine

/-! ## Updates one after another -/

theorem put_put_same {α : Type} (m : Map α) (k : Nat) (v w : α) : put (put m k v) k w = put m k w := by
  induction m with
  | nil => simp [put]
  | cons e r ih =>
    obtain ⟨j, x⟩ := e
    by_cases h1 : k < j
    · simp [put, h1]
    · by_cases h2 : k = j
      · simp [put, h2]
      · simp [put, h1, h2, ih]

/-- Two changes of one partition are one. -/
theorem State.modPart_modPart (s : State) (p : Nat) (f g : Partition → Partition) :
    (s.modPart p f).modPart p g = s.modPart p fun x => g (f x) := by
  show { s with parts := put (put s.parts p (f (s.part p))) p (g ((s.modPart p f).part p)) } = _
  rw [put_put_same, State.modPart_part_same]
  rfl

/-! ## Withdrawal -/

section
variable {s : State} {who p n : Nat}

theorem execWithdrawLaunch_running (hi : s.issue = .part [who, p, n]) (hw : s.mayWrite who 2 = true) (hr : (s.part p).state = .running) :
    execWithdrawLaunch s =
      .next ((s.modPart p fun x => { x with withdraw := { x.withdraw with arg := n % 2 ^ 64 } }).withdraw p) := by
  simp only [execWithdrawLaunch, State.arg_part hi, List.getD_cons_zero, List.getD_cons_succ, hw, State.present_of_running hr,
    Bool.and_self, if_true]

theorem State.withdraw_busy (h : (s.part p).withdraw.state = 1) : s.withdraw p = s := if_pos h

theorem State.withdraw_launch {l : Launch} (h : (s.part p).withdraw.state ≠ 1) (hl : (s.work p).launch (s.part p).withdraw.arg = some l) :
    s.withdraw p = if l.pushing then s.modPart p fun x => { x with withdraw := { x.withdraw with state := 3 } }
      else (s.modPart p fun x => { x with withdraw := { x.withdraw with state := 1 } }).endLaunch p (s.part p).withdraw.arg .aborted := by
  simp only [State.withdraw, if_neg h, hl]

theorem State.withdraw_absent (h : (s.part p).withdraw.state ≠ 1) (hl : (s.work p).launch (s.part p).withdraw.arg = none) :
    s.withdraw p = s.modPart p fun x => { x with withdraw := { x.withdraw with state := 3 } } := by
  simp only [State.withdraw, if_neg h, hl]

/-! ## The commands of the pre-emption register -/

theorem exec_preempt_eq_command (hi : s.issue = .part [who, p, n]) (hw : s.mayWrite who 2 = true) (hr : (s.part p).state = .running) :
    ∀ e ∈ [(Instr.preempt, false), (.preemptAndHold, true)], exec e.1 s = .next (s.preemptCommand p (n % 1024) e.2) := by
  simp [execPreempt, execPreemptAndHold, State.arg_part hi, hw, State.present_of_running hr]

theorem execPreemptRelease_running (hi : s.issue = .part [who, p]) (hw : s.mayWrite who 2 = true) (hr : (s.part p).state = .running) :
    execPreemptRelease s = .next (s.preemptReleaseAll p) := by
  simp [execPreemptRelease, State.arg_part hi, hw, State.present_of_running hr]

end

section
variable {s : State} {p core : Nat} {hold : Bool}

theorem State.preemptCommand_busy (h : (s.part p).preempt.state = 1) : s.preemptCommand p core hold = s := if_pos h

theorem State.preemptCommand_foreign (h : (s.part p).preempt.state ≠ 1) (ho : ownsCore p core = false) :
    s.preemptCommand p core hold = s.modPart p fun x => { x with preempt := ⟨core, 3⟩ } := by
  simp [State.preemptCommand, h, ho]

theorem State.preemptCommand_own (h : (s.part p).preempt.state ≠ 1) (ho : ownsCore p core = true) : s.preemptCommand p core hold =
    ((s.modPart p fun x => { x with preempt := ⟨core, 1⟩ }).preemptEach p
      ((((s.work p).onCore core).filter fun g => !g.kept).map (·.id)) hold).preemptDone p := by
  simp [State.preemptCommand, h, ho]

theorem State.preemptDone_done (h1 : (s.part p).preempt.state = 1) (hi : ∀ m ∈ (s.work p).images, m.spilled = true)
    (hg : ∀ g ∈ (s.work p).wgs, g.pre = 0) :
    s.preemptDone p = s.modPart p fun x => { x with preempt := { x.preempt with state := 2 } } :=
  if_pos ⟨h1, by simpa using hi, by simpa using hg⟩

theorem State.preemptDone_spilling {m : Image} (hm : m ∈ (s.work p).images) (hs : m.spilled = false) : s.preemptDone p = s :=
  if_neg fun ⟨_, h, _⟩ => by simp [List.all_eq_true.mp h m hm] at hs

theorem State.preemptCommand_empty (h : (s.part p).preempt.state ≠ 1) (ho : ownsCore p core = true) (hc : (s.work p).onCore core = [])
    (hi : ∀ m ∈ (s.work p).images, m.spilled = true) (hg : ∀ g ∈ (s.work p).wgs, g.pre = 0) :
    s.preemptCommand p core hold = s.modPart p fun x => { x with preempt := ⟨core, 2⟩ } := by
  rw [State.preemptCommand_own h ho, hc]
  have hstate : ((s.modPart p fun x => { x with preempt := ⟨core, 1⟩ }).part p).preempt.state = 1 := by rw [State.modPart_part_same]
  have hdone := State.preemptDone_done hstate hi hg
  exact hdone.trans (State.modPart_modPart s p _ _)

end

/-! ## Leaving the core -/

/-- A map whose values are changed, each by its key. -/
theorem find_map_keeping {α : Type} {f : Nat × α → Nat × α} (hf : ∀ e, (f e).1 = e.1) (m : Map α) (k : Nat) :
    find (m.map f) k = (find m k).map fun v => (f (k, v)).2 := by
  induction m with
  | nil => rfl
  | cons e r ih =>
    have hcons : find (f e :: r.map f) k = if (f e).1 = k then some (f e).2 else find (r.map f) k := rfl
    rw [List.map_cons, hcons, hf, ih]
    by_cases h : e.1 = k
    · subst h
      simp [find]
    · simp [find, h]

@[simp] theorem State.freeDeques_work (s : State) (p q : Nat) : (s.freeDeques p).work q = s.work q := rfl

/-- Freeing deques changes a core in nothing but its deque. -/
theorem State.freeDeques_coreOf (s : State) (p c : Nat) : ∃ d, (s.freeDeques p).coreOf c = { s.coreOf c with deque := d } := by
  unfold State.freeDeques State.coreOf findD
  rw [find_map_keeping fun e => by split <;> rfl]
  cases find s.cores c with
  | none => exact ⟨_, rfl⟩
  | some x =>
    simp only [Option.map_some, Option.getD_some]
    split
    · exact ⟨_, rfl⟩
    · exact ⟨x.deque, rfl⟩

section
variable (s : State) (p : Nat) (g : WorkGroup) (hold : Bool)

/-! ### A work-group that leaves alone -/

theorem State.leave_alone_part (q : Nat) : (s.leave p [g] hold).part q = s.part q := rfl

theorem State.leave_alone_core :
    ((s.leave p [g] hold).coreOf g.core).spill = true ∧ ((s.leave p [g] hold).coreOf g.core).swapEnd = s.cycle + 64 := by
  unfold State.leave
  obtain ⟨d, hd⟩ := State.freeDeques_coreOf _ p g.core
  rw [hd]
  simp

theorem State.leave_alone_wg : ((s.leave p [g] hold).work p).wg g.id = none := by
  simp [State.leave, Work.wg]

variable {s p g} in
theorem State.leave_alone_items {l : Launch} (hl : (s.work p).launch g.seq = some l) : ((s.leave p [g] hold).work p).items =
    (s.work p).items ++ [⟨g.seq, g.num, l.rcd.prio, s.cycle, l.rcd.prio, hold, false, .saved [(s.work p).imageOf g]⟩] := by
  simp [State.leave, hl]

end

/-- A work-group stands on its core without peers, waits for no pre-emption, and can leave now (R379, R380, R428). -/
structure State.LeavesAlone (s : State) (p : Nat) (g : WorkGroup) : Prop where
  stands : (s.work p).wg g.id = some g
  pre : g.pre = 0
  peers : (s.work p).peers g = [g]
  can : s.canLeave g = true

section
variable {s : State} {p : Nat} {g : WorkGroup}

theorem State.preemptGroup_alone (h : s.LeavesAlone p g) (hold : Bool) : s.preemptGroup p g hold = s.leave p [g] hold := by
  have hstands : ((s.work p).wgs.any fun x => x.id == g.id) = true :=
    List.any_eq_true.mpr ⟨g, List.mem_of_find?_eq_some h.stands, beq_self_eq_true g.id⟩
  simp [State.preemptGroup, h.peers, hstands, h.can, h.pre]

/-- What a work-group that has just left keeps is still to be spilled, so that the register is not done. -/
theorem State.preemptDone_leave_alone {l : Launch} (hl : (s.work p).launch g.seq = some l) (hold : Bool) :
    (s.leave p [g] hold).preemptDone p = s.leave p [g] hold := by
  refine State.preemptDone_spilling (m := (s.work p).imageOf g) ?_ rfl
  simp [Work.images, State.leave_alone_items hold hl]

/-- The command for a core on which one work-group stands, alone: it leaves, and the register waits for its spill. -/
theorem State.preemptCommand_alone {core : Nat} (h : (s.part p).preempt.state ≠ 1) (ho : ownsCore p core = true)
    (hc : (s.work p).onCore core = [g]) (hkept : g.kept = false) (hg : s.LeavesAlone p g) {l : Launch}
    (hl : (s.work p).launch g.seq = some l) (hold : Bool) :
    s.preemptCommand p core hold = (s.modPart p fun x => { x with preempt := ⟨core, 1⟩ }).leave p [g] hold := by
  let s1 := s.modPart p fun x => { x with preempt := ⟨core, 1⟩ }
  have hg1 : s1.LeavesAlone p g := ⟨hg.stands, hg.pre, hg.peers, hg.can⟩
  have hids : (((s.work p).onCore core).filter fun g => !g.kept).map (·.id) = [g.id] := by simp [hc, hkept]
  have heach : s1.preemptEach p [g.id] hold = s1.leave p [g] hold := by
    rw [State.preemptEach, List.foldl_cons, List.foldl_nil, hg1.stands]
    exact State.preemptGroup_alone hg1 hold
  rw [State.preemptCommand_own h ho, hids]
  exact (congrArg (·.preemptDone p) heach).trans (State.preemptDone_leave_alone (s := s1) hl hold)

end

/-! ## The missing member of a round -/

/-- An item holds a member that one of some rounds still misses, and is not held itself (R30). -/
def Item.MemberOf (i : Item) (l : Launch) (rs : List (Nat × List Nat)) : Prop :=
  i.seq = l.seq ∧ i.held = false ∧ ∃ r ∈ rs, i.missing l.rcd.levels r.1 r.2 = true

theorem Item.memberOf_iff (i : Item) (l : Launch) (rs : List (Nat × List Nat)) :
    (i.seq == l.seq && !i.held && rs.any fun r => i.missing l.rcd.levels r.1 r.2) = true ↔ i.MemberOf l rs := by
  simp [Item.MemberOf, and_assoc]

/-- The first place of a list whose element passes a test. -/
theorem find?_upto_any {α : Type} {xs : List α} {k : Nat} {x : α} {q : α → Bool} (hk : xs[k]? = some x) (hx : q x = true)
    (hlt : ∀ y ∈ xs.take k, ¬q y = true) : (upto 0 xs.length).find? (fun n => (xs[n]?).any q) = some k := by
  obtain ⟨hlen, rfl⟩ := List.getElem?_eq_some_iff.mp hk
  have hupto : upto 0 xs.length = List.range xs.length := by simp [upto_eq_map_range]
  rw [hupto, List.find?_range_eq_some]
  refine ⟨by simp [hk, hx], List.mem_range.mpr hlen, fun j hj => ?_⟩
  have hjl : j < xs.length := Nat.lt_trans hj hlen
  have hmem : xs[j] ∈ xs.take k := List.mem_take_iff_getElem.mpr ⟨j, by omega, rfl⟩
  simpa [hjl] using hlt _ hmem

section
variable {s : State} {p : Nat} {l : Launch} {rs : List (Nat × List Nat)}

theorem State.placeMissing_absent (h : ∀ i ∈ (s.work p).items, ¬i.MemberOf l rs) : s.placeMissing p l rs = s := by
  have hnone : (upto 0 (s.work p).items.length).find? (fun n => ((s.work p).items[n]?).any fun i =>
      i.seq == l.seq && !i.held && rs.any fun r => i.missing l.rcd.levels r.1 r.2) = none := by
    refine List.find?_eq_none.mpr fun n _ => ?_
    cases hn : (s.work p).items[n]? with
    | none => simp
    | some i => exact mt (Item.memberOf_iff i l rs).mp (h i (List.mem_of_getElem? hn))
  simp only [State.placeMissing, hnone]

section
variable {k : Nat} {i : Item} (hk : (s.work p).items[k]? = some i) (hi : i.MemberOf l rs)
  (hlt : ∀ j ∈ (s.work p).items.take k, ¬j.MemberOf l rs)
include hk hi hlt

/-- The first such item is the one that is tried. -/
theorem find?_memberOf : (upto 0 (s.work p).items.length).find? (fun n => ((s.work p).items[n]?).any fun i =>
    i.seq == l.seq && !i.held && rs.any fun r => i.missing l.rcd.levels r.1 r.2) = some k :=
  find?_upto_any hk ((Item.memberOf_iff i l rs).mpr hi) fun j hj => mt (Item.memberOf_iff j l rs).mp (hlt j hj)

theorem State.placeMissing_placed {t : State} {left : List Item} (ht : s.placeOne p i = some (t, left)) :
    s.placeMissing p l rs = t.modWork p fun w => { w with items := replaceNth w.items k left } := by
  simp only [State.placeMissing, find?_memberOf hk hi hlt, hk, Option.bind_eq_bind, Option.bind_some, ht]

theorem State.placeMissing_reserved (ht : s.placeOne p i = none) : s.placeMissing p l rs =
    s.modWork p fun w => { w with items := (s.work p).items.set k { i with reserved := true } } := by
  simp only [State.placeMissing, find?_memberOf hk hi hlt, hk, Option.bind_eq_bind, Option.bind_some, ht]
  exact State.modWork_upd_items hk _

end

end

section
variable {s : State} {p n : Nat} {g : WorkGroup} {l : Launch}

theorem execLbarPlacementPreempt_group (hi : s.issue = .part [p, n]) (hr : (s.part p).state = .running) (hg : (s.work p).wg n = some g)
    (hl : (s.work p).launch g.seq = some l) (hpre : g.pre = 0) (hcont : g.cont = false) :
    let rs := (g.openRounds l.rcd.levels).filter fun r => s.lbarVictim p l g r
    execLbarPlacementPreempt s = .next (if rs = [] then s else (s.preemptGroup p g false).placeMissing p l rs) := by
  intro rs
  have h0 : s.arg 0 = p := by rw [State.arg_part hi]; rfl
  have h1 : s.arg 1 = n := by rw [State.arg_part hi]; rfl
  have hgoes : (s.present p && g.pre == 0 && !g.cont && !rs.isEmpty) = true ↔ ¬rs = [] := by
    simp [State.present_of_running hr, hpre, hcont]
  simp only [execLbarPlacementPreempt, h0, h1, hg, hl]
  exact congrArg _ ((if_congr hgoes rfl rfl).trans (ite_not ..))

end

/-! ## The obligation -/

/-- Settles O56: each command by what it leaves, a work-group's leave read at the parts of the state that it changes. -/
theorem withdrawalAndPreemption : Obligations.WithdrawalAndPreemption := by
  unfold Obligations.WithdrawalAndPreemption
  refine ⟨fun s who p n hi hr hw => ?commands, fun s who p hi hr hw => ?release, fun s who p n hi hw => ?refused,
    fun s core hi => ⟨fun hle => ?swapped, fun hlt => ?swapping, fun p hp hs hle => ?spilled⟩,
    fun s p n g l hi hr hg hl hpre hcont => ?round⟩
  case commands =>
    intro sets
    let asked := s.modPart p fun x => { x with withdraw := { x.withdraw with arg := n % 2 ^ 64 } }
    have hsets (st : Nat) : (asked.modPart p fun x => { x with withdraw := { x.withdraw with state := st } }) = sets st :=
      State.modPart_modPart s p _ _
    have hreg : (asked.part p).withdraw = ⟨n % 2 ^ 64, (s.part p).withdraw.state⟩ := by rw [State.modPart_part_same]
    have hexec : exec .withdrawLaunch s = .next (asked.withdraw p) := execWithdrawLaunch_running hi hw hr
    refine ⟨fun l hs hl => ?launch, fun hs hl => ?absent, fun hs => ?busy, ?command⟩
    case launch =>
      rw [hexec, State.withdraw_launch (l := l) (by rwa [hreg]) (by rwa [hreg]), hsets, hsets, hreg]
    case absent => rw [hexec, State.withdraw_absent (by rwa [hreg]) (by rwa [hreg]), hsets]
    case busy =>
      rw [hexec, State.withdraw_busy (by rwa [hreg])]
      simp only [asked, sets, State.modPart, hs]
    case command =>
      intro core state e he
      rw [exec_preempt_eq_command hi hw hr e he]
      refine ⟨fun h => congrArg _ (State.preemptCommand_busy h), fun h ho => congrArg _ (State.preemptCommand_foreign h ho),
        fun h ho hc himages hpre => congrArg _ (State.preemptCommand_empty h ho hc himages hpre),
        fun g l hl h ho hc hg hkept hpre hpeers hleave => ?_⟩
      have hcore : g.core = core := by simpa using (List.mem_filter.mp (hc ▸ List.mem_singleton_self g : g ∈ (s.work p).onCore core)).2
      have hcmd := State.preemptCommand_alone h ho hc hkept ⟨hg, hpre, hpeers, hleave⟩ hl e.2
      have hleft := State.leave_alone_core (state 1) p g e.2
      rw [hcore] at hleft
      refine ⟨(state 1).leave p [g] e.2, congrArg _ hcmd, ?_, State.leave_alone_wg (state 1) p g e.2, hleft.1, hleft.2,
        State.leave_alone_items (s := state 1) e.2 hl⟩
      rw [State.leave_alone_part, State.modPart_part_same]
  case release => exact execPreemptRelease_running hi hw hr
  case refused =>
    simp [execWithdrawLaunch, execPreempt, execPreemptAndHold, execPreemptRelease, State.arg_part hi, State.mayWrite_two_of_lt hw]
  case swapped => simp [execPreemptSwapComplete, State.arg_part hi, hle]
  case swapping =>
    have hnot : ¬(s.coreOf core).swapEnd ≤ s.cycle := Nat.not_le.mpr hlt
    refine ⟨by simp [execPreemptSwapComplete, State.arg_part hi, hnot], ?_⟩
    cases hp : s.holderOf core <;> simp [execPreemptSpillComplete, State.arg_part hi, hp, hnot]
  case spilled => simp [execPreemptSpillComplete, State.arg_part hi, hp, hs, hle]
  case round =>
    intro rs t items member
    rw [exec_lbarPlacementPreempt, execLbarPlacementPreempt_group hi hr hg hl hpre hcont]
    refine ⟨fun hnil => congrArg _ (if_pos hnil), fun hne ha => ?_, fun k i hne hk hm hlt => ⟨fun t' left ht => ?_, fun ht => ?_⟩⟩
    · exact congrArg _ ((if_neg hne).trans (State.placeMissing_absent ha))
    · exact congrArg _ ((if_neg hne).trans (State.placeMissing_placed hk hm hlt ht))
    · exact congrArg _ ((if_neg hne).trans (State.placeMissing_reserved hk hm hlt ht))

end Sys2Proof.Machine
end

section
/-! The words of instructions (R151, R157): the fields that the decoder cuts out of a word which the encoder has put together, one lemma
per format. -/
namespace Sys2Proof

/-! ## Words with register fields -/

/-- The fields of a word of the format U, OP, FN, D, A, B as the decoder reads them: alone, and joined where a row leaves some unused. -/
structure RegWord (u : Bool) (m f d a b w : Nat) : Prop where
  top : w / 2147483648 % 2 = u.toNat
  uniform : decide (w / 2147483648 % 2 = 1) = u
  major : w / 33554432 % 64 = m
  notify : w / 16777216 % 2 = f / 8
  fn : w / 2097152 % 16 = f
  fn3 : w / 2097152 % 8 = f % 8
  fn2 : w / 2097152 % 4 = f % 4
  regs : w % 2097152 = d * 16384 + a * 128 + b
  regD : w / 16384 % 128 = d
  regDA : w / 128 % 16384 = d * 128 + a
  regA : w / 128 % 128 = a
  regAB : w % 16384 = a * 128 + b
  mid : w / 32 % 512 = a * 4 + b / 32
  regB : w % 128 = b

/-- The fields of a word of the format U, OP, D, A and an immediate of 11 bits. -/
structure ImmWord (u : Bool) (m d a i w : Nat) : Prop where
  uniform : decide (w / 2147483648 % 2 = 1) = u
  major : w / 33554432 % 64 = m
  regD : w / 262144 % 128 = d
  regA : w / 2048 % 128 = a
  imm : w % 2048 = i
  level : w / 256 % 8 = i / 256
  relation : w % 256 = i % 256

/-- The fields of a word of the format U, OP, D and an immediate of 18 bits. -/
structure LongWord (u : Bool) (m d i w : Nat) : Prop where
  uniform : decide (w / 2147483648 % 2 = 1) = u
  major : w / 33554432 % 64 = m
  regD : w / 262144 % 128 = d
  imm : w % 262144 = i

/-- The fields of a word of the format U, OP, L, FN, A, B, X. -/
structure IndexWord (u : Bool) (m l f a b x w : Nat) : Prop where
  uniform : decide (w / 2147483648 % 2 = 1) = u
  major : w / 33554432 % 64 = m
  look : w / 2097152 % 16 = l
  fn : w / 131072 % 16 = f
  regA : w / 1024 % 128 = a
  regB : w / 8 % 128 = b
  index : w % 8 = x

/-- The fields of the first word of a wide form: U, OP 0x3F, WOP, WFN, D, A and an unused bit. -/
structure WideWord (u : Bool) (wop wfn d a w : Nat) : Prop where
  uniform : decide (w / 2147483648 % 2 = 1) = u
  major : w / 33554432 % 64 = 63
  wop : w / 524288 % 64 = wop
  wfn : w / 32768 % 16 = wfn
  regD : w / 256 % 128 = d
  regA : w / 2 % 128 = a
  unused : w % 2 = 0

theorem ubit_eq (u : Bool) : ubit u = u.toNat * 2147483648 := by cases u <;> rfl
theorem nbit_eq (n : Bool) : nbit n = n.toNat * 16777216 := by cases n <;> rfl

/-- The uniform bit of an instruction that has no field for it. -/
theorem ubit_mod_two (n : Nat) : n % 2 * 2147483648 = ubit (decide (n % 2 = 1)) := by
  obtain h | h := Nat.mod_two_eq_zero_or_one n <;> simp [h, ubit]

/-- What stands above bit 25 of a word: the major code and the uniform bit. -/
theorem top_fields {u : Bool} {m w : Nat} (hm : m < 64) (hw : w / 33554432 = u.toNat * 64 + m) :
    w / 2147483648 % 2 = u.toNat ∧ decide (w / 2147483648 % 2 = 1) = u ∧ w / 33554432 % 64 = m := by
  have hu := u.toNat_lt
  have htop : w / 2147483648 % 2 = u.toNat := by omega
  refine ⟨htop, ?_, by omega⟩
  cases u <;> simp [htop]

theorem regWord_sum {u : Bool} {m f d a b : Nat} (hm : m < 64) (hf : f < 16) (hd : d < 128) (ha : a < 128) (hb : b < 128) :
    RegWord u m f d a b (ubit u + m * 33554432 + f * 2097152 + d * 16384 + a * 128 + b) := by
  rw [ubit_eq]
  generalize hw : u.toNat * 2147483648 + m * 33554432 + f * 2097152 + d * 16384 + a * 128 + b = w
  have hhigh : w / 2097152 = (u.toNat * 64 + m) * 16 + f := by omega
  obtain ⟨htop, hu, hmajor⟩ := top_fields (u := u) (w := w) hm (by omega)
  exact ⟨htop, hu, hmajor, by omega, by omega, by omega, by omega, by omega, by omega, by omega, by omega, by omega, by omega, by omega⟩

theorem immWord_sum {u : Bool} {m d a i : Nat} (hm : m < 64) (hd : d < 128) (ha : a < 128) (hi : i < 2048) :
    ImmWord u m d a i (ubit u + m * 33554432 + d * 262144 + a * 2048 + i) := by
  rw [ubit_eq]
  generalize hw : u.toNat * 2147483648 + m * 33554432 + d * 262144 + a * 2048 + i = w
  obtain ⟨-, hu, hmajor⟩ := top_fields (u := u) (w := w) hm (by omega)
  exact ⟨hu, hmajor, by omega, by omega, by omega, by omega, by omega⟩

theorem longWord_sum {u : Bool} {m d i : Nat} (hm : m < 64) (hd : d < 128) (hi : i < 262144) :
    LongWord u m d i (ubit u + m * 33554432 + d * 262144 + i) := by
  rw [ubit_eq]
  generalize hw : u.toNat * 2147483648 + m * 33554432 + d * 262144 + i = w
  obtain ⟨-, hu, hmajor⟩ := top_fields (u := u) (w := w) hm (by omega)
  exact ⟨hu, hmajor, by omega, by omega⟩

theorem indexWord_sum {u : Bool} {m l f a b x : Nat} (hm : m < 64) (hl : l < 16) (hf : f < 16) (ha : a < 128) (hb : b < 128)
    (hx : x < 8) : IndexWord u m l f a b x (ubit u + m * 33554432 + l * 2097152 + f * 131072 + a * 1024 + b * 8 + x) := by
  rw [ubit_eq]
  generalize hw : u.toNat * 2147483648 + m * 33554432 + l * 2097152 + f * 131072 + a * 1024 + b * 8 + x = w
  have hhigh : w / 131072 = ((u.toNat * 64 + m) * 16 + l) * 16 + f := by omega
  obtain ⟨-, hu, hmajor⟩ := top_fields (u := u) (w := w) hm (by omega)
  exact ⟨hu, hmajor, by omega, by omega, by omega, by omega, by omega⟩

theorem wideWord_fields {u : Bool} {wop wfn d a : Nat} (hop : wop < 64) (hfn : wfn < 16) (hd : d < 128) (ha : a < 128) :
    WideWord u wop wfn d a (wideWord u wop wfn d a) := by
  rw [wideWord, ubit_eq]
  generalize hw : u.toNat * 2147483648 + 2113929216 + wop * 524288 + wfn * 32768 + d * 256 + a * 2 = w
  have hhigh : w / 32768 = ((u.toNat * 64 + 63) * 64 + wop) * 16 + wfn := by omega
  obtain ⟨-, hu, hmajor⟩ := top_fields (u := u) (m := 63) (w := w) (by decide) (by omega)
  exact ⟨hu, hmajor, by omega, by omega, by omega, by omega, by omega⟩

/-! ## Clause headers -/

theorem decodeHeader_encodeHeader (h : Header) (hr : h.rsvd < 128) (hrl : h.wrl < 16) (hen : h.wen < 16) (hst : h.wst < 16)
    (hld : h.wld < 16) (hcl : h.cls < 8) (hco : h.count < 16) :
    encodeHeader h < 4294967296 ∧ decodeHeader (encodeHeader h) = h := by
  obtain ⟨rsvd, phase, yld, wrl, wen, wst, wld, cls, count⟩ := h
  simp only at hr hrl hen hst hld hcl hco
  have hphase : (if phase then 16777216 else 0) = phase.toNat * 16777216 := by cases phase <;> rfl
  have hyld : (if yld then 8388608 else 0) = yld.toNat * 8388608 := by cases yld <;> rfl
  have hp := phase.toNat_lt
  have hy := yld.toNat_lt
  simp only [encodeHeader, hphase, hyld]
  generalize hw : rsvd * 33554432 + phase.toNat * 16777216 + yld.toNat * 8388608 + wrl * 524288 + wen * 32768 + wst * 2048 + wld * 128 +
    cls * 16 + count = w
  have hlow : w % 32768 = wst * 2048 + wld * 128 + cls * 16 + count := by omega
  have hhigh : w / 32768 = (((rsvd * 2 + phase.toNat) * 2 + yld.toNat) * 16 + wrl) * 16 + wen := by omega
  have hphase : w / 16777216 % 2 = phase.toNat := by omega
  have hyld : w / 8388608 % 2 = yld.toNat := by omega
  refine ⟨by omega, ?_⟩
  rw [decodeHeader, hphase, hyld]
  congr 1
  · omega
  · cases phase <;> rfl
  · cases yld <;> rfl
  · omega
  · omega
  · omega
  · omega
  · omega
  · omega

end Sys2Proof
end

section
/-! Encoding and decoding by format (R151, R154, R155, R157): an instruction whose words have a format, in classes that send the format's
major code to one table, comes back from its words when that table has it in the row of the words' fields. -/
namespace Sys2Proof

/-- Decoding the words of the instruction gives the instruction and the number of its words, in every class that holds it. -/
def Instr.RoundTrips (i : Instr) : Prop := ∀ (own cls : Nat) (rest : List Nat), i.wf = true → cls ∈ i.classes →
  decode cls (encode i own ++ rest) = .instr i (encode i own).length ∧ encode i own ≠ []

/-- In every class that holds the instruction, words with major code `m` are read by `dec`. -/
def Instr.ReadBy (i : Instr) (m : Nat) (dec : Nat → Option Nat → Decoded) : Prop :=
  ∀ cls ∈ i.classes, ∀ w lit, w / 33554432 % 64 = m → decodeWord cls w lit = dec w lit

section
variable {i : Instr} {m : Nat}

theorem Instr.roundTrips_of_classes_nil (h : i.classes = []) : i.RoundTrips := fun _ _ _ _ hc => absurd (h ▸ hc) List.not_mem_nil

theorem Instr.readBy_of_class {c : Nat} (h : i.classes = [c]) : i.ReadBy m (decodeWord c) := by
  intro cls hc w lit _
  rw [h, List.mem_singleton] at hc
  rw [hc]

theorem Instr.readBy_simt (h : i.classes = [0]) : i.ReadBy m decodeSimt := readBy_of_class h
theorem Instr.readBy_matrix (h : i.classes = [1]) : i.ReadBy m decodeMatrix := readBy_of_class h
theorem Instr.readBy_copy (h : i.classes = [2]) : i.ReadBy m decodeCopy := readBy_of_class h
theorem Instr.readBy_coll (h : i.classes = [3]) : i.ReadBy m decodeColl := readBy_of_class h
theorem Instr.readBy_ctl (h : i.classes = [4]) : i.ReadBy m decodeCtl := readBy_of_class h

/-- Classes 1 to 4 read the major codes of the scalar set and of the wide forms alike (R155). -/
theorem Instr.readBy_shared (h : i.classes = [1, 2, 3, 4]) (hm : m ∈ [0, 1, 2, 3, 63]) : i.ReadBy m decodeCtl := by
  intro cls hc w lit hw
  rw [h] at hc
  simp only [List.mem_cons, List.not_mem_nil, or_false] at hc hm
  obtain rfl | rfl | rfl | rfl := hc
  case inr.inr.inr => rfl
  case inl =>
    change decodeMatrix w lit = _
    unfold decodeMatrix decodeCtl
    obtain rfl | rfl | rfl | rfl | rfl := hm <;> (rw [hw]; rfl)
  case inr.inl =>
    change decodeCopy w lit = _
    unfold decodeCopy decodeCtl
    obtain rfl | rfl | rfl | rfl | rfl := hm <;> (rw [hw]; rfl)
  case inr.inr.inl =>
    change decodeColl w lit = _
    unfold decodeColl decodeCtl
    obtain rfl | rfl | rfl | rfl | rfl := hm <;> (rw [hw]; rfl)

theorem Instr.roundTrips_one {w : Nat → Nat} {dec : Nat → Option Nat → Decoded} (he : ∀ own, encode i own = [w own]) (hr : i.ReadBy m dec)
    (hm : i.wf = true → ∀ own, w own / 33554432 % 64 = m) (hd : i.wf = true → ∀ own lit, dec (w own) lit = .instr i 1) :
    i.RoundTrips := by
  intro own cls rest hwf hc
  have hdec (lit : Option Nat) : decodeWord cls (w own) lit = .instr i 1 := (hr cls hc _ lit (hm hwf own)).trans (hd hwf own lit)
  rw [he]
  cases rest <;> exact ⟨hdec _, List.cons_ne_nil _ _⟩

theorem Instr.roundTrips_two {w v : Nat → Nat} {dec : Nat → Option Nat → Decoded} (he : ∀ own, encode i own = [w own, v own])
    (hr : i.ReadBy m dec) (hm : i.wf = true → ∀ own, w own / 33554432 % 64 = m)
    (hd : i.wf = true → ∀ own, dec (w own) (some (v own)) = .instr i 2) : i.RoundTrips := by
  intro own cls rest hwf hc
  rw [he]
  exact ⟨(hr cls hc _ _ (hm hwf own)).trans (hd hwf own), List.cons_ne_nil _ _⟩

end

/-! ## Register fields

`base` is the word without its fields: a major code, and in rows with a fixed function code that code too. -/

/-- The table has the instruction where a word has the register fields; `f` counts from the function code of `base`. -/
def Instr.RegRow (i : Instr) (dec : Nat → Option Nat → Decoded) (u : Bool) (base f d a b : Nat) : Prop :=
  ∀ w lit, RegWord u (base / 33554432) (base / 2097152 % 16 + f) d a b w → dec w lit = .instr i 1

section
variable {i : Instr} {base f d a b : Nat} {u n p : Bool} {dec : Nat → Option Nat → Decoded}

theorem Instr.roundTrips_reg {w : Nat} (he : ∀ own, encode i own = [w]) (hr : i.ReadBy (base / 33554432) dec)
    (hb : base % 2097152 = 0 ∧ base < 2147483648)
    (hw : i.wf = true → w = base + ubit u + f * 2097152 + d * 16384 + a * 128 + b ∧
      base / 2097152 % 16 + f < 16 ∧ d < 128 ∧ a < 128 ∧ b < 128)
    (hrow : i.wf = true → i.RegRow dec u base f d a b) : i.RoundTrips := by
  have hword (h : i.wf = true) : RegWord u (base / 33554432) (base / 2097152 % 16 + f) d a b w := by
    obtain ⟨rfl, hf, hd, ha, hb'⟩ := hw h
    have hsum : base + ubit u + f * 2097152 + d * 16384 + a * 128 + b =
        ubit u + base / 33554432 * 33554432 + (base / 2097152 % 16 + f) * 2097152 + d * 16384 + a * 128 + b := by omega
    rw [hsum]
    exact regWord_sum (by omega) hf hd ha hb'
  exact roundTrips_one he hr (fun h _ => (hword h).major) fun h _ lit => hrow h w lit (hword h)

section
variable (hr : i.ReadBy (base / 33554432) dec) (hb : base % 2097152 = 0 ∧ base < 2147483648)
include hr hb

theorem Instr.roundTrips_dab (he : ∀ own, encode i own = [base + ubit u + d * 16384 + a * 128 + b])
    (hw : i.wf = (decide (d < 128) && decide (a < 128) && decide (b < 128))) (hrow : i.RegRow dec u base 0 d a b) : i.RoundTrips :=
  roundTrips_reg he hr hb (fun h => by simp only [hw, Bool.and_eq_true, decide_eq_true_eq] at h; omega) fun _ => hrow

/-- The same fields where the uniform bit must be 0. -/
theorem Instr.roundTrips_lanes (he : ∀ own, encode i own = [base + d * 16384 + a * 128 + b])
    (hw : i.wf = (decide (d < 128) && decide (a < 128) && decide (b < 128))) (hrow : i.RegRow dec false base 0 d a b) : i.RoundTrips :=
  roundTrips_dab hr hb he hw hrow

theorem Instr.roundTrips_da (he : ∀ own, encode i own = [base + ubit u + d * 16384 + a * 128])
    (hw : i.wf = (decide (d < 128) && decide (a < 128))) (hrow : i.RegRow dec u base 0 d a 0) : i.RoundTrips :=
  roundTrips_reg he hr hb (fun h => by simp only [hw, Bool.and_eq_true, decide_eq_true_eq] at h; omega) fun _ => hrow

theorem Instr.roundTrips_ab (he : ∀ own, encode i own = [base + ubit u + a * 128 + b])
    (hw : i.wf = (decide (a < 128) && decide (b < 128))) (hrow : i.RegRow dec u base 0 0 a b) : i.RoundTrips :=
  roundTrips_reg he hr hb (fun h => by simp only [hw, Bool.and_eq_true, decide_eq_true_eq] at h; omega) fun _ => hrow

theorem Instr.roundTrips_db (he : ∀ own, encode i own = [base + ubit u + d * 16384 + b])
    (hw : i.wf = (decide (d < 128) && decide (b < 128))) (hrow : i.RegRow dec u base 0 d 0 b) : i.RoundTrips :=
  roundTrips_reg he hr hb (fun h => by simp only [hw, Bool.and_eq_true, decide_eq_true_eq] at h; omega) fun _ => hrow

theorem Instr.roundTrips_d (he : ∀ own, encode i own = [base + ubit u + d * 16384]) (hw : i.wf = decide (d < 128))
    (hrow : i.RegRow dec u base 0 d 0 0) : i.RoundTrips :=
  roundTrips_reg he hr hb (fun h => by simp only [hw, decide_eq_true_eq] at h; omega) fun _ => hrow

theorem Instr.roundTrips_a (he : ∀ own, encode i own = [base + ubit u + a * 128]) (hw : i.wf = decide (a < 128))
    (hrow : i.RegRow dec u base 0 0 a 0) : i.RoundTrips :=
  roundTrips_reg he hr hb (fun h => by simp only [hw, decide_eq_true_eq] at h; omega) fun _ => hrow

theorem Instr.roundTrips_b (he : ∀ own, encode i own = [base + ubit u + b]) (hw : i.wf = decide (b < 128))
    (hrow : i.RegRow dec u base 0 0 0 b) : i.RoundTrips :=
  roundTrips_reg he hr hb (fun h => by simp only [hw, decide_eq_true_eq] at h; omega) fun _ => hrow

/-! The function code, or the lookahead in its place, is a field of its own; `p` is what well-formedness asks of it. -/

theorem Instr.roundTrips_fdab (he : ∀ own, encode i own = [base + ubit u + f * 2097152 + d * 16384 + a * 128 + b])
    (hw : i.wf = (p && decide (d < 128) && decide (a < 128) && decide (b < 128))) (hf : p = true → base / 2097152 % 16 + f < 16)
    (hrow : p = true → i.RegRow dec u base f d a b) : i.RoundTrips := by
  have hwf (h : i.wf = true) : ((p = true ∧ d < 128) ∧ a < 128) ∧ b < 128 := by
    simpa only [hw, Bool.and_eq_true, decide_eq_true_eq] using h
  refine roundTrips_reg he hr hb (fun h => ?_) fun h => hrow (hwf h).1.1.1
  obtain ⟨⟨⟨hp, hd⟩, ha⟩, hb'⟩ := hwf h
  exact ⟨rfl, hf hp, hd, ha, hb'⟩

theorem Instr.roundTrips_fda (he : ∀ own, encode i own = [base + ubit u + f * 2097152 + d * 16384 + a * 128])
    (hw : i.wf = (p && decide (d < 128) && decide (a < 128))) (hf : p = true → base / 2097152 % 16 + f < 16)
    (hrow : p = true → i.RegRow dec u base f d a 0) : i.RoundTrips := by
  have hwf (h : i.wf = true) : (p = true ∧ d < 128) ∧ a < 128 := by
    simpa only [hw, Bool.and_eq_true, decide_eq_true_eq] using h
  refine roundTrips_reg he hr hb (fun h => ?_) fun h => hrow (hwf h).1.1
  obtain ⟨⟨hp, hd⟩, ha⟩ := hwf h
  exact ⟨rfl, hf hp, hd, ha, by decide⟩

/-- Loads, stores and atomics: the lookahead stands in the place of the function code. -/
theorem Instr.roundTrips_look (hb0 : base % 33554432 = 0)
    (he : ∀ own, encode i own = [base + ubit u + f * 2097152 + d * 16384 + a * 128 + b])
    (hw : i.wf = (decide (f < 16) && decide (d < 128) && decide (a < 128) && decide (b < 128)))
    (hrow : ∀ w lit, RegWord u (base / 33554432) f d a b w → dec w lit = .instr i 1) : i.RoundTrips := by
  have hfn : base / 2097152 % 16 + f = f := by omega
  refine roundTrips_fdab hr hb he hw (fun h => by rw [hfn]; exact of_decide_eq_true h) fun _ w lit F => ?_
  rw [hfn] at F
  exact hrow w lit F

/-! Commands of the engines: the notify bit is the top bit of the function code (R281). -/

section
variable (hn : base / 2097152 % 16 < 8)
include hn

theorem Instr.roundTrips_ndab (he : ∀ own, encode i own = [base + ubit u + nbit n + d * 16384 + a * 128 + b])
    (hw : i.wf = (decide (d < 128) && decide (a < 128) && decide (b < 128))) (hrow : i.RegRow dec u base (n.toNat * 8) d a b) :
    i.RoundTrips := by
  have := n.toNat_lt
  refine roundTrips_reg he hr hb (fun h => ?_) fun _ => hrow
  simp only [hw, Bool.and_eq_true, decide_eq_true_eq] at h
  rw [nbit_eq]
  omega

theorem Instr.roundTrips_nda (he : ∀ own, encode i own = [base + ubit u + nbit n + d * 16384 + a * 128])
    (hw : i.wf = (decide (d < 128) && decide (a < 128))) (hrow : i.RegRow dec u base (n.toNat * 8) d a 0) : i.RoundTrips := by
  have := n.toNat_lt
  refine roundTrips_reg he hr hb (fun h => ?_) fun _ => hrow
  simp only [hw, Bool.and_eq_true, decide_eq_true_eq] at h
  rw [nbit_eq]
  omega

theorem Instr.roundTrips_nab (he : ∀ own, encode i own = [base + ubit u + nbit n + a * 128 + b])
    (hw : i.wf = (decide (a < 128) && decide (b < 128))) (hrow : i.RegRow dec u base (n.toNat * 8) 0 a b) : i.RoundTrips := by
  have := n.toNat_lt
  refine roundTrips_reg he hr hb (fun h => ?_) fun _ => hrow
  simp only [hw, Bool.and_eq_true, decide_eq_true_eq] at h
  rw [nbit_eq]
  omega

theorem Instr.roundTrips_ndb (he : ∀ own, encode i own = [base + ubit u + nbit n + d * 16384 + b])
    (hw : i.wf = (decide (d < 128) && decide (b < 128))) (hrow : i.RegRow dec u base (n.toNat * 8) d 0 b) : i.RoundTrips := by
  have := n.toNat_lt
  refine roundTrips_reg he hr hb (fun h => ?_) fun _ => hrow
  simp only [hw, Bool.and_eq_true, decide_eq_true_eq] at h
  rw [nbit_eq]
  omega

theorem Instr.roundTrips_nd (he : ∀ own, encode i own = [base + ubit u + nbit n + d * 16384]) (hw : i.wf = decide (d < 128))
    (hrow : i.RegRow dec u base (n.toNat * 8) d 0 0) : i.RoundTrips := by
  have := n.toNat_lt
  refine roundTrips_reg he hr hb (fun h => ?_) fun _ => hrow
  simp only [hw, decide_eq_true_eq] at h
  rw [nbit_eq]
  omega

theorem Instr.roundTrips_na (he : ∀ own, encode i own = [base + ubit u + nbit n + a * 128]) (hw : i.wf = decide (a < 128))
    (hrow : i.RegRow dec u base (n.toNat * 8) 0 a 0) : i.RoundTrips := by
  have := n.toNat_lt
  refine roundTrips_reg he hr hb (fun h => ?_) fun _ => hrow
  simp only [hw, decide_eq_true_eq] at h
  rw [nbit_eq]
  omega

end
end

/-- A word whose fields the instruction does not keep: `own` gives its uniform bit and its last field. -/
theorem Instr.roundTrips_ownReg {w b : Nat → Nat} {u : Nat → Bool} (hr : i.ReadBy (base / 33554432) dec)
    (hb : base % 2097152 = 0 ∧ base < 2147483648) (he : ∀ own, encode i own = [w own])
    (hw : ∀ own, w own = base + ubit (u own) + b own ∧ b own < 128) (hrow : ∀ own, i.RegRow dec (u own) base 0 0 0 (b own)) : i.RoundTrips := by
  have hword (own : Nat) : RegWord (u own) (base / 33554432) (base / 2097152 % 16 + 0) 0 0 (b own) (w own) := by
    obtain ⟨hsum, hlt⟩ := hw own
    have hsum : w own = ubit (u own) + base / 33554432 * 33554432 + (base / 2097152 % 16 + 0) * 2097152 + 0 * 16384 + 0 * 128 + b own := by
      omega
    rw [hsum]
    exact regWord_sum (by omega) (by omega) (by decide) (by decide) hlt
  exact roundTrips_one he hr (fun _ own => (hword own).major) fun _ own lit => hrow own _ lit (hword own)

theorem Instr.roundTrips_bare (hr : i.ReadBy (base / 33554432) dec) (hb : base % 2097152 = 0 ∧ base < 2147483648)
    (he : ∀ own, encode i own = [base + own % 2 * 2147483648]) (hrow : ∀ u, i.RegRow dec u base 0 0 0 0) : i.RoundTrips :=
  roundTrips_ownReg (b := fun _ => 0) hr hb he (fun own => by rw [ubit_mod_two]; exact ⟨rfl, by decide⟩) fun own => hrow _

/-! ## Immediates and indexed addresses -/

section
variable {w x : Nat} (hr : i.ReadBy (base / 33554432) dec) (hb : base % 33554432 = 0 ∧ base < 2147483648)
include hr hb

theorem Instr.roundTrips_imm (he : ∀ own, encode i own = [w])
    (hw : i.wf = true → w = base + ubit u + d * 262144 + a * 2048 + x ∧ d < 128 ∧ a < 128 ∧ x < 2048)
    (hrow : i.wf = true → ∀ w lit, ImmWord u (base / 33554432) d a x w → dec w lit = .instr i 1) : i.RoundTrips := by
  have hword (h : i.wf = true) : ImmWord u (base / 33554432) d a x w := by
    obtain ⟨rfl, hd, ha, hx⟩ := hw h
    have hsum : base + ubit u = ubit u + base / 33554432 * 33554432 := by omega
    rw [hsum]
    exact immWord_sum (by omega) hd ha hx
  exact roundTrips_one he hr (fun h _ => (hword h).major) fun h _ lit => hrow h w lit (hword h)

theorem Instr.roundTrips_dai (he : ∀ own, encode i own = [base + ubit u + d * 262144 + a * 2048 + x])
    (hw : i.wf = (decide (d < 128) && decide (a < 128) && decide (x < 2048)))
    (hrow : ∀ w lit, ImmWord u (base / 33554432) d a x w → dec w lit = .instr i 1) : i.RoundTrips :=
  roundTrips_imm hr hb he (fun h => by simp only [hw, Bool.and_eq_true, decide_eq_true_eq] at h; omega) fun _ => hrow

theorem Instr.roundTrips_long (he : ∀ own, encode i own = [w])
    (hw : i.wf = true → w = base + ubit u + d * 262144 + x ∧ d < 128 ∧ x < 262144)
    (hrow : i.wf = true → ∀ w lit, LongWord u (base / 33554432) d x w → dec w lit = .instr i 1) : i.RoundTrips := by
  have hword (h : i.wf = true) : LongWord u (base / 33554432) d x w := by
    obtain ⟨rfl, hd, hx⟩ := hw h
    have hsum : base + ubit u = ubit u + base / 33554432 * 33554432 := by omega
    rw [hsum]
    exact longWord_sum (by omega) hd hx
  exact roundTrips_one he hr (fun h _ => (hword h).major) fun h _ lit => hrow h w lit (hword h)

theorem Instr.roundTrips_di (he : ∀ own, encode i own = [base + ubit u + d * 262144 + x])
    (hw : i.wf = (decide (d < 128) && decide (x < 262144)))
    (hrow : ∀ w lit, LongWord u (base / 33554432) d x w → dec w lit = .instr i 1) : i.RoundTrips :=
  roundTrips_long hr hb he (fun h => by simp only [hw, Bool.and_eq_true, decide_eq_true_eq] at h; omega) fun _ => hrow

end

/-- The indexed formats; `f` counts from the function code of `base`. -/
theorem Instr.roundTrips_index {w l x : Nat} (hr : i.ReadBy (base / 33554432) dec)
    (hb : base % 131072 = 0 ∧ base / 2097152 % 16 = 0 ∧ base < 2147483648) (he : ∀ own, encode i own = [w])
    (hw : i.wf = true → w = base + ubit u + l * 2097152 + f * 131072 + a * 1024 + b * 8 + x ∧
      l < 16 ∧ base / 131072 % 16 + f < 16 ∧ a < 128 ∧ b < 128 ∧ x < 8)
    (hrow : i.wf = true → ∀ w lit, IndexWord u (base / 33554432) l (base / 131072 % 16 + f) a b x w → dec w lit = .instr i 1) :
    i.RoundTrips := by
  have hword (h : i.wf = true) : IndexWord u (base / 33554432) l (base / 131072 % 16 + f) a b x w := by
    obtain ⟨rfl, hl, hf, ha, hb', hx⟩ := hw h
    have hsum : base + ubit u + l * 2097152 + f * 131072 =
        ubit u + base / 33554432 * 33554432 + l * 2097152 + (base / 131072 % 16 + f) * 131072 := by omega
    rw [hsum]
    exact indexWord_sum (by omega) hl hf ha hb' hx
  exact roundTrips_one he hr (fun h _ => (hword h).major) fun h _ lit => hrow h w lit (hword h)

theorem Instr.roundTrips_labx {l x : Nat} (hr : i.ReadBy (base / 33554432) dec)
    (hb : base % 131072 = 0 ∧ base / 2097152 % 16 = 0 ∧ base < 2147483648)
    (he : ∀ own, encode i own = [base + ubit u + l * 2097152 + a * 1024 + b * 8 + x])
    (hw : i.wf = (decide (l < 16) && decide (a < 128) && decide (b < 128) && decide (x < 8)))
    (hrow : ∀ w lit, IndexWord u (base / 33554432) l (base / 131072 % 16 + 0) a b x w → dec w lit = .instr i 1) : i.RoundTrips :=
  roundTrips_index hr hb he (fun h => by simp only [hw, Bool.and_eq_true, decide_eq_true_eq] at h; omega) fun _ => hrow

/-- A prefetch, which keeps none of its fields: `own` gives them. -/
theorem Instr.roundTrips_ownIndex (hr : i.ReadBy (base / 33554432) dec)
    (hb : base % 131072 = 0 ∧ base / 2097152 % 16 = 0 ∧ base / 131072 % 16 ≤ 12 ∧ base < 2147483648)
    (he : ∀ own, encode i own = [base + own % 8 + own / 8 % 128 * 1024 + own / 1024 % 4 * 131072 + own / 4096 % 16 * 2097152 +
      own / 65536 % 2 * 2147483648])
    (hrow : ∀ w lit u l f a x, f < 4 → IndexWord u (base / 33554432) l (base / 131072 % 16 + f) a 0 x w → dec w lit = .instr i 1) :
    i.RoundTrips := by
  have hword (own : Nat) : IndexWord (decide (own / 65536 % 2 = 1)) (base / 33554432) (own / 4096 % 16)
      (base / 131072 % 16 + own / 1024 % 4) (own / 8 % 128) 0 (own % 8)
      (base + own % 8 + own / 8 % 128 * 1024 + own / 1024 % 4 * 131072 + own / 4096 % 16 * 2097152 + own / 65536 % 2 * 2147483648) := by
    have hx : own % 8 < 8 := Nat.mod_lt _ (by decide)
    have ha : own / 8 % 128 < 128 := Nat.mod_lt _ (by decide)
    have hf : own / 1024 % 4 < 4 := Nat.mod_lt _ (by decide)
    have hl : own / 4096 % 16 < 16 := Nat.mod_lt _ (by decide)
    rw [ubit_mod_two]
    generalize own % 8 = x at *
    generalize own / 8 % 128 = a at *
    generalize own / 1024 % 4 = f at *
    generalize own / 4096 % 16 = l at *
    generalize decide (own / 65536 % 2 = 1) = u
    have hsum : base + x + a * 1024 + f * 131072 + l * 2097152 + ubit u = ubit u + base / 33554432 * 33554432 + l * 2097152 +
        (base / 131072 % 16 + f) * 131072 + a * 1024 + 0 * 8 + x := by omega
    rw [hsum]
    exact indexWord_sum (by omega) hl (by omega) ha (by decide) hx
  exact roundTrips_one he hr (fun _ own => (hword own).major) fun _ own lit => hrow _ lit _ _ _ _ _ (Nat.mod_lt _ (by decide)) (hword own)

/-! ## Wide forms -/

section
variable {wop wfn : Nat} {v : Nat → Nat} (hr : i.ReadBy 63 dec)
include hr

theorem Instr.roundTrips_wide {u : Nat → Bool} (he : ∀ own, encode i own = [wideWord (u own) wop wfn d a, v own]) (hop : wop < 64)
    (hw : i.wf = true → wfn < 16 ∧ d < 128 ∧ a < 128)
    (hrow : i.wf = true → ∀ own w, WideWord (u own) wop wfn d a w → dec w (some (v own)) = .instr i 2) : i.RoundTrips := by
  have hword (h : i.wf = true) (own : Nat) : WideWord (u own) wop wfn d a (wideWord (u own) wop wfn d a) := by
    obtain ⟨hfn, hd, ha⟩ := hw h
    exact wideWord_fields hop hfn hd ha
  exact roundTrips_two he hr (fun h own => (hword h own).major) fun h own => hrow h own _ (hword h own)

theorem Instr.roundTrips_wideImm {x : Nat} (he : ∀ own, encode i own = [wideWord u wop 0 d a, x]) (hop : wop < 64)
    (hw : i.wf = (decide (d < 128) && decide (a < 128) && decide (x < 4294967296)))
    (hrow : ∀ w, WideWord u wop 0 d a w → dec w (some x) = .instr i 2) : i.RoundTrips :=
  roundTrips_wide (u := fun _ => u) (v := fun _ => x) hr he hop
    (fun h => by simp only [hw, Bool.and_eq_true, decide_eq_true_eq] at h; omega) fun _ _ => hrow

theorem Instr.roundTrips_wideLong {x : Nat} (he : ∀ own, encode i own = [wideWord u wop wfn d 0, x]) (hop : wop < 64)
    (hfn : wfn < 16) (hw : i.wf = (decide (d < 128) && decide (x < 4294967296)))
    (hrow : ∀ w, WideWord u wop wfn d 0 w → dec w (some x) = .instr i 2) : i.RoundTrips :=
  roundTrips_wide (u := fun _ => u) (v := fun _ => x) hr he hop
    (fun h => by simp only [hw, Bool.and_eq_true, decide_eq_true_eq] at h; omega) fun _ _ => hrow

end
end
end Sys2Proof
end

section
/-! Instructions with a format of their own: a field narrower than its place, fields that the instruction does not keep, or a function
code that is a field (R151, R154, R155, R157). -/
namespace Sys2Proof.Instr

/-! ## A field narrower than its place, or wider -/

theorem srd_roundTrips (u : Bool) (d s : Nat) : (srd u d s).RoundTrips := by
  have hwf (h : (srd u d s).wf = true) : d < 128 ∧ s < 32 := by
    have h : (decide (d < 128) && decide (s < 32)) = true := h
    simpa only [Bool.and_eq_true, decide_eq_true_eq] using h
  refine roundTrips_reg (u := u) (base := 8388608) (f := 0) (d := d) (a := 0) (b := s) (fun _ => rfl) (readBy_simt rfl) (by decide)
    (fun h => by have := hwf h; omega) fun h w lit F => ?_
  obtain ⟨-, hs⟩ := hwf h
  have hmid : w / 32 % 512 = 0 := F.mid.trans (by omega)
  have hlow : w % 32 = s := by have := F.regB; omega
  unfold decodeSimt decSimt00
  rw [F.major, F.fn, F.uniform, F.regD, hmid, hlow]
  rfl

theorem bra_roundTrips (u : Bool) (o : Nat) : (bra u o).RoundTrips := by
  have hwf (h : (bra u o).wf = true) : o < 33554432 := of_decide_eq_true h
  refine roundTrips_long (u := u) (base := 436207616) (d := o / 262144) (x := o % 262144) (readBy_simt rfl) (by decide) (fun _ => rfl)
    (fun h => by have := hwf h; omega) fun h w lit F => ?_
  have ho : w % 33554432 = o := by have := hwf h; have := F.regD; have := F.imm; omega
  unfold decodeSimt decSimt0D
  rw [F.major, F.uniform, ho]
  rfl

/-! ## Relations: a level and a number in the immediate -/

theorem group_roundTrips (u : Bool) (s l r : Nat) : (group u s l r).RoundTrips := by
  have hwf (h : (group u s l r).wf = true) : (s < 128 ∧ l < 8) ∧ r < 256 := by
    have h : (decide (s < 128) && decide (l < 8) && decide (r < 256)) = true := h
    simpa only [Bool.and_eq_true, decide_eq_true_eq] using h
  refine roundTrips_imm (u := u) (base := 905969664) (d := s) (a := 0) (x := l * 256 + r) (readBy_simt rfl) (by decide) (fun _ => rfl)
    (fun h => by have := hwf h; omega) fun h w lit F => ?_
  have hlevel : w / 256 % 8 = l := F.level.trans (by have := hwf h; omega)
  have hrelation : w % 256 = r := F.relation.trans (by have := hwf h; omega)
  unfold decodeSimt decSimt1B
  rw [F.major, F.uniform, F.regD, F.regA, hlevel, hrelation]
  rfl

theorem join_roundTrips (u : Bool) (s a l r : Nat) : (join u s a l r).RoundTrips := by
  have hwf (h : (join u s a l r).wf = true) : ((s < 128 ∧ a < 128) ∧ l < 8) ∧ r < 256 := by
    have h : (decide (s < 128) && decide (a < 128) && decide (l < 8) && decide (r < 256)) = true := h
    simpa only [Bool.and_eq_true, decide_eq_true_eq] using h
  refine roundTrips_imm (u := u) (base := 939524096) (d := s) (a := a) (x := l * 256 + r) (readBy_simt rfl) (by decide) (fun _ => rfl)
    (fun h => by have := hwf h; omega) fun h w lit F => ?_
  have hlevel : w / 256 % 8 = l := F.level.trans (by have := hwf h; omega)
  have hrelation : w % 256 = r := F.relation.trans (by have := hwf h; omega)
  unfold decodeSimt decSimt1C
  rw [F.major, F.uniform, F.regD, F.regA, hlevel, hrelation]
  rfl

theorem park_roundTrips (u : Bool) (s a : Nat) : (park u s a).RoundTrips := by
  have hwf (h : (park u s a).wf = true) : s < 128 ∧ a < 128 := by
    have h : (decide (s < 128) && decide (a < 128)) = true := h
    simpa only [Bool.and_eq_true, decide_eq_true_eq] using h
  refine roundTrips_imm (u := u) (base := 973078528) (d := s) (a := a) (x := 0) (readBy_simt rfl) (by decide) (fun _ => rfl)
    (fun h => by have := hwf h; omega) fun h w lit F => ?_
  unfold decodeSimt decSimt1D
  rw [F.major, F.uniform, F.regD, F.regA, F.imm]
  rfl

/-! ## Fields that the instruction does not keep -/

theorem trap_roundTrips : trap.RoundTrips := by
  refine roundTrips_ownReg (base := 2080374784) (u := fun own => decide (own / 128 % 2 = 1)) (b := fun own => own % 128)
    (readBy_simt rfl) (by decide) (fun _ => rfl) (fun own => ⟨?_, Nat.mod_lt _ (by decide)⟩) fun own w lit F => ?_
  · rw [ubit_mod_two, Nat.add_right_comm]
  · unfold decodeSimt decSimt3E
    rw [F.major, F.fn, F.regDA]
    rfl

theorem meet_roundTrips : meet.RoundTrips := by
  refine roundTrips_wide (readBy_simt rfl) (fun _ => rfl) (by decide) (fun _ => by decide) fun _ own w F => ?_
  unfold decodeSimt decSimtWide
  rw [F.major, F.unused, F.wop, F.wfn, F.regD, F.regA]
  rfl

/-! ## A function code that is a field -/

theorem cmpiWide_roundTrips (u : Bool) (c d a x : Nat) : (cmpiWide u c d a x).RoundTrips := by
  have hwf (h : (cmpiWide u c d a x).wf = true) : 6 ≤ c ∧ c < 16 ∧ d < 128 ∧ a < 128 := by
    have h : (decide (6 ≤ c) && decide (c < 16) && decide (d < 128) && decide (a < 128) && decide (x < 4294967296)) = true := h
    simp only [Bool.and_eq_true, decide_eq_true_eq] at h
    omega
  refine roundTrips_wide (u := fun _ => u) (v := fun _ => x) (readBy_simt rfl) (fun _ => rfl) (by decide) (fun h => (hwf h).2)
    fun h _ w F => ?_
  unfold decodeSimt decSimtWide
  rw [F.major, F.unused, F.wop, F.wfn, F.regD, F.regA, F.uniform]
  exact if_pos (hwf h).1

theorem cmpi_roundTrips (u : Bool) (f d a x : Nat) : (cmpi u f d a x).RoundTrips := by
  refine roundTrips_fdab (readBy_simt rfl) (by decide) (fun _ => rfl) rfl (fun h => ?_) fun h w lit F => ?_ <;>
    simp only [Bool.and_eq_true, decide_eq_true_eq] at h
  · omega
  · obtain ⟨hlo, hhi⟩ := h
    unfold decodeSimt decSimt02
    rw [F.major, F.fn, F.uniform, F.regD, F.regA, F.regB]
    interval_cases f <;> rfl

theorem wred_roundTrips (f d a : Nat) : (wred f d a).RoundTrips := by
  refine roundTrips_fda (u := false) (base := 872415232) (readBy_simt rfl) (by decide) (fun _ => rfl) rfl (fun h => ?_) fun h w lit F => ?_ <;>
    simp only [Bool.and_eq_true, decide_eq_true_eq] at h
  · omega
  · obtain ⟨hlo, hhi⟩ := h
    unfold decodeSimt decSimt1A
    rw [F.major, F.fn, F.top, F.regD, F.regA, F.regB]
    interval_cases f <;> rfl

theorem wscan_roundTrips (f d a b : Nat) : (wscan f d a b).RoundTrips := by
  refine roundTrips_fdab (u := false) (base := 872415232) (readBy_simt rfl) (by decide) (fun _ => rfl) rfl (fun h => ?_) fun h w lit F => ?_ <;>
    simp only [Bool.and_eq_true, decide_eq_true_eq] at h
  · omega
  · obtain ⟨hlo, hhi⟩ := h
    unfold decodeSimt decSimt1A
    rw [F.major, F.fn, F.top, F.regD, F.regA, F.regB]
    interval_cases f <;> rfl

theorem radd_roundTrips (u : Bool) (l f a b x : Nat) : (radd u l f a b x).RoundTrips := by
  have hwf (h : (radd u l f a b x).wf = true) : (((l < 16 ∧ f < 9) ∧ a < 128) ∧ b < 128) ∧ x < 8 := by
    have h : (decide (l < 16) && decide (f < 9) && decide (a < 128) && decide (b < 128) && decide (x < 8)) = true := h
    simpa only [Bool.and_eq_true, decide_eq_true_eq] using h
  refine roundTrips_index (u := u) (base := 1577058304) (l := l) (f := f) (a := a) (b := b) (x := x) (readBy_simt rfl) (by decide)
    (fun _ => rfl) (fun h => by have := hwf h; omega) fun h w lit F => ?_
  obtain ⟨⟨⟨⟨-, hf⟩, -⟩, -⟩, -⟩ := hwf h
  unfold decodeSimt decSimt2F
  rw [F.major, F.fn, F.uniform, F.look, F.regA, F.regB, F.index]
  interval_cases f <;> rfl

theorem cpym_roundTrips (u n : Bool) (f d a b : Nat) : (cpym u n f d a b).RoundTrips := by
  have hwf (h : (cpym u n f d a b).wf = true) : ((f < 3 ∧ d < 128) ∧ a < 128) ∧ b < 128 := by
    have h : (decide (f < 3) && decide (d < 128) && decide (a < 128) && decide (b < 128)) = true := h
    simpa only [Bool.and_eq_true, decide_eq_true_eq] using h
  refine roundTrips_reg (u := u) (base := 570425344) (f := n.toNat * 8 + f) (d := d) (a := a) (b := b) (fun _ => rfl) (readBy_copy rfl)
    (by decide) (fun h => ?_) fun h w lit F => ?_
  · have := hwf h
    have := n.toNat_lt
    rw [nbit_eq]
    omega
  · obtain ⟨⟨⟨hf, -⟩, -⟩, -⟩ := hwf h
    unfold decodeCopy decCopy11
    rw [F.major, F.fn, F.fn2, F.notify, F.uniform, F.regD, F.regA, F.regB]
    cases n <;> interval_cases f <;> rfl

/-! ## The scalar set of the sequencers (R283, R284) -/

theorem sliWide_roundTrips (d x : Nat) : (sliWide d x).RoundTrips := by
  refine roundTrips_wideLong (readBy_shared rfl (by decide)) (fun _ => rfl) (by decide) (by decide) rfl fun w F => ?_
  unfold decodeCtl decSharedWide
  rw [F.major, F.unused, F.wop, F.wfn, F.regD, F.regA]
  rfl

theorem smov_roundTrips (u : Bool) (d a : Nat) : (smov u d a).RoundTrips := by
  refine roundTrips_da (u := u) (base := 0) (readBy_shared rfl (by decide)) (by decide) (fun _ => by rw [Nat.zero_add]; rfl) rfl
    fun w lit F => ?_
  unfold decodeCtl decShared00
  rw [F.major, F.fn, F.uniform, F.regD, F.regA, F.regB]
  rfl

/-- SSIG's width stands in D. -/
theorem ssig64_roundTrips (u : Bool) (a b : Nat) : (ssig64 u a b).RoundTrips := by
  refine roundTrips_reg (u := u) (base := 6291456) (f := 0) (d := 1) (a := a) (b := b) (fun _ => rfl) (readBy_shared rfl (by decide))
    (by decide) (fun h => ?_) fun _ w lit F => ?_
  · have h : (decide (a < 128) && decide (b < 128)) = true := h
    simp only [Bool.and_eq_true, decide_eq_true_eq] at h
    omega
  · unfold decodeCtl decShared00
    rw [F.major, F.fn, F.uniform, F.regD, F.regA, F.regB]
    rfl

theorem ssigAdd64_roundTrips (u : Bool) (a b : Nat) : (ssigAdd64 u a b).RoundTrips := by
  refine roundTrips_reg (u := u) (base := 6291456) (f := 0) (d := 2) (a := a) (b := b) (fun _ => rfl) (readBy_shared rfl (by decide))
    (by decide) (fun h => ?_) fun _ w lit F => ?_
  · have h : (decide (a < 128) && decide (b < 128)) = true := h
    simp only [Bool.and_eq_true, decide_eq_true_eq] at h
    omega
  · unfold decodeCtl decShared00
    rw [F.major, F.fn, F.uniform, F.regD, F.regA, F.regB]
    rfl

/-- SLDA's width stands in B. -/
theorem slda64_roundTrips (u : Bool) (d a : Nat) : (slda64 u d a).RoundTrips := by
  refine roundTrips_reg (u := u) (base := 8388608) (f := 0) (d := d) (a := a) (b := 1) (fun _ => rfl) (readBy_shared rfl (by decide))
    (by decide) (fun h => ?_) fun _ w lit F => ?_
  · have h : (decide (d < 128) && decide (a < 128)) = true := h
    simp only [Bool.and_eq_true, decide_eq_true_eq] at h
    omega
  · unfold decodeCtl decShared00
    rw [F.major, F.fn, F.uniform, F.regD, F.regA, F.regB]
    rfl

end Sys2Proof.Instr
end

section
/-! Every instruction comes back from its words (R147, R151, R154, R155, R157). The instructions stand in groups of one format: the fields
of their words (`F`) pick the table and its row, find the unused fields 0, and give the instruction's own fields. -/
namespace Sys2Proof.Instr

theorem roundTrips_of_simt {i : Instr} (h : i.classes.all (· == 0) = true) : i.RoundTrips := by
  cases i with
  -- register fields
  | add | sub | mul | mulhs | mulhz | mad | addc | subb | mins | maxs | minz | maxz =>
    refine roundTrips_dab (readBy_simt rfl) (by decide) (fun _ => rfl) rfl fun w lit F => ?_
    unfold decodeSimt decSimt01
    rw [F.major, F.fn, ← F.uniform, ← F.regD, ← F.regA, ← F.regB]
    rfl
  | divs | divz | rems | remz | and | or | xor | andn | sel =>
    refine roundTrips_dab (readBy_simt rfl) (by decide) (fun _ => rfl) rfl fun w lit F => ?_
    unfold decodeSimt decSimt02 decSimt03
    rw [F.major, F.fn, ← F.uniform, ← F.regD, ← F.regA, ← F.regB]
    rfl
  | shl | shr | sar | rot | bfes | bfez | bfi | shli | shri | sari | roti =>
    refine roundTrips_dab (readBy_simt rfl) (by decide) (fun _ => rfl) rfl fun w lit F => ?_
    unfold decodeSimt decSimt04
    rw [F.major, F.fn, ← F.uniform, ← F.regD, ← F.regA, ← F.regB]
    rfl
  | fadd | fsub | fmul | ffma | fmin | fmax | hadd2 | hmul2 | hfma2 =>
    refine roundTrips_dab (readBy_simt rfl) (by decide) (fun _ => rfl) rfl fun w lit F => ?_
    unfold decodeSimt decSimt10 decSimt13
    rw [F.major, F.fn, ← F.uniform, ← F.regD, ← F.regA, ← F.regB]
    rfl
  | cvtE4m3x2F32Lo | cvtE4m3x2F32Hi | cvtE5m2x2F32Lo | cvtE5m2x2F32Hi | cvtF32Bf16 | cvtF32F16 | cvtF32E4m3 | cvtF32E5m2 =>
    refine roundTrips_dab (readBy_simt rfl) (by decide) (fun _ => rfl) rfl fun w lit F => ?_
    unfold decodeSimt decSimt14
    rw [F.major, F.fn, ← F.uniform, ← F.regD, ← F.regA, ← F.regB]
    rfl
  | rbfree | gwait | gtry | tokxfer =>
    refine roundTrips_dab (readBy_simt rfl) (by decide) (fun _ => rfl) rfl fun w lit F => ?_
    unfold decodeSimt decSimt3B decSimt3C decSimt3E
    rw [F.major, F.fn, ← F.uniform, ← F.regD, ← F.regA, ← F.regB]
    rfl
  | shfl | bcast | vote =>
    refine roundTrips_lanes (readBy_simt rfl) (by decide) (fun _ => rfl) rfl fun w lit F => ?_
    unfold decodeSimt decSimt1A
    rw [F.major, F.fn, F.top, ← F.regD, ← F.regA, ← F.regB]
    rfl
  | callr | abs | neg | not | popc | clz | ffs | brev | mov =>
    refine roundTrips_da (readBy_simt rfl) (by decide) (fun _ => rfl) rfl fun w lit F => ?_
    unfold decodeSimt decSimt00 decSimt01 decSimt03
    rw [F.major, F.fn, F.regB, ← F.uniform, ← F.regD, ← F.regA]
    rfl
  | fabs | fneg | frcp | frsq | fsqrt | fexp2 | flog2 | fsin | fcos | ftanh | dqnt =>
    refine roundTrips_da (readBy_simt rfl) (by decide) (fun _ => rfl) rfl fun w lit F => ?_
    unfold decodeSimt decSimt10 decSimt12 decSimt18
    rw [F.major, F.fn, F.regB, ← F.uniform, ← F.regD, ← F.regA]
    rfl
  | fclass | cvtBf16F32Lo | cvtBf16F32Hi | cvtF16F32Lo | cvtF16F32Hi =>
    refine roundTrips_da (readBy_simt rfl) (by decide) (fun _ => rfl) rfl fun w lit F => ?_
    unfold decodeSimt decSimt11 decSimt14
    rw [F.major, F.fn, F.regB, ← F.uniform, ← F.regD, ← F.regA]
    rfl
  | cvtF32S32 | cvtF32Z32 | cvtF32S64 | cvtF32Z64 | cvtS64F32Rz | cvtZ64F32Rz =>
    refine roundTrips_da (readBy_simt rfl) (by decide) (fun _ => rfl) rfl fun w lit F => ?_
    unfold decodeSimt decSimt15
    rw [F.major, F.fn, F.regB, ← F.uniform, ← F.regD, ← F.regA]
    rfl
  | cvtS8S32Sat | cvtS16S32Sat | cvtZ8S32Sat | cvtZ16S32Sat | cvtZ8Z32Sat | cvtZ16Z32Sat | cvtS64S32 | cvtZ64Z32 | cvtS32S64Sat
    | cvtZ32Z64Sat =>
    refine roundTrips_da (readBy_simt rfl) (by decide) (fun _ => rfl) rfl fun w lit F => ?_
    unfold decodeSimt decSimt16
    rw [F.major, F.fn, F.regB, ← F.uniform, ← F.regD, ← F.regA]
    rfl
  | relopen | relseal | relcnt | dqpush | dqsteal | launch | rbpop | grd =>
    refine roundTrips_da (readBy_simt rfl) (by decide) (fun _ => rfl) rfl fun w lit F => ?_
    unfold decodeSimt decSimt1E decSimt1F decSimt3B decSimt3C
    rw [F.major, F.fn, F.regB, ← F.uniform, ← F.regD, ← F.regA]
    rfl
  | mskwr | fork | xfence | sppin | spunpin | rbpush | gsig | csrw | tlbinv | cinv | clklock | watch =>
    refine roundTrips_ab (readBy_simt rfl) (by decide) (fun _ => rfl) rfl fun w lit F => ?_
    unfold decodeSimt decSimt00 decSimt1E decSimt3B decSimt3C decSimt3E
    rw [F.major, F.fn, F.regD, ← F.uniform, ← F.regA, ← F.regB]
    rfl
  | mskrd | tqpop | csrr =>
    refine roundTrips_db (readBy_simt rfl) (by decide) (fun _ => rfl) rfl fun w lit F => ?_
    unfold decodeSimt decSimt00 decSimt3B decSimt3E
    rw [F.major, F.fn, F.regA, ← F.uniform, ← F.regD, ← F.regB]
    rfl
  | ret | jmpr | cpush | jcdec | sleep =>
    refine roundTrips_a (readBy_simt rfl) (by decide) (fun _ => rfl) rfl fun w lit F => ?_
    unfold decodeSimt decSimt00 decSimt1F decSimt3E
    rw [F.major, F.fn, F.regD, F.regB, ← F.uniform, ← F.regA]
    rfl
  | joinm | leavem | waitm | reggrow | regshrink | lbar =>
    refine roundTrips_b (readBy_simt rfl) (by decide) (fun _ => rfl) rfl fun w lit F => ?_
    unfold decodeSimt decSimt00 decSimt1F decSimt3B
    rw [F.major, F.fn, F.regDA, ← F.uniform, ← F.regB]
    rfl
  | dqpop =>
    refine roundTrips_d (readBy_simt rfl) (by decide) (fun _ => rfl) rfl fun w lit F => ?_
    unfold decodeSimt decSimt1F
    rw [F.major, F.fn, F.uniform, F.regD, F.regAB]
    rfl
  | matchLanes d a =>
    refine roundTrips_da (u := false) (base := 878706688) (readBy_simt rfl) (by decide) (fun _ => rfl) rfl fun w lit F => ?_
    unfold decodeSimt decSimt1A
    rw [F.major, F.fn, F.top, F.regD, F.regA, F.regB]
    rfl
  | nop | yield | exit | phase | rdv | fence | trapret | bkpt =>
    refine roundTrips_bare (readBy_simt rfl) (by decide) (fun _ => rfl) fun _ w lit F => ?_
    unfold decodeSimt decSimt00 decSimt1E decSimt3B decSimt3E
    rw [F.major, F.fn, F.regs]
    rfl
  -- a function code that is a field
  | cmp u c d a b =>
    refine roundTrips_fdab (readBy_simt rfl) (by decide) (fun _ => rfl) rfl (fun h => ?_) fun h w lit F => ?_
    · have := of_decide_eq_true h; omega
    · have hlt := of_decide_eq_true h
      unfold decodeSimt decSimt05
      rw [F.major, F.fn, F.uniform, F.regD, F.regA, F.regB]
      interval_cases c <;> rfl
  | fcmp u c d a b =>
    refine roundTrips_fdab (readBy_simt rfl) (by decide) (fun _ => rfl) rfl (fun h => ?_) fun h w lit F => ?_
    · have := of_decide_eq_true h; omega
    · have hlt := of_decide_eq_true h
      unfold decodeSimt decSimt11
      rw [F.major, F.fn, F.fn3, F.uniform, F.regD, F.regA, F.regB]
      interval_cases c <;> rfl
  | cvtS32F32 u r d a | cvtZ32F32 u r d a =>
    refine roundTrips_fda (readBy_simt rfl) (by decide) (fun _ => rfl) rfl (fun h => ?_) fun h w lit F => ?_
    · have := of_decide_eq_true h; omega
    · have hlt := of_decide_eq_true h
      unfold decodeSimt decSimt15
      rw [F.major, F.fn, F.fn2, F.uniform, F.regD, F.regA, F.regB]
      interval_cases r <;> rfl
  | qnt u f d a =>
    refine roundTrips_fda (readBy_simt rfl) (by decide) (fun _ => rfl) rfl (fun h => ?_) fun h w lit F => ?_
    · have := of_decide_eq_true h; omega
    · have hlt := of_decide_eq_true h
      unfold decodeSimt decSimt17
      rw [F.major, F.fn, F.uniform, F.regD, F.regA, F.regB]
      interval_cases f <;> rfl
  | cmpi u f d a x => exact cmpi_roundTrips u f d a x
  | wred f d a => exact wred_roundTrips f d a
  | wscan f d a b => exact wscan_roundTrips f d a b
  -- memory, immediates, relations, wide forms
  | ldS8 | ldZ8 | ldS16 | ldZ16 | ld | ld64 | ld128 | st8 | st16 | st | st64 | st128 | atomAdd | atomF32 | atomMins | atomMaxs
    | atomMinz | atomMaxz | atomAnd | atomOr | atomXor | atomExch | atomCas =>
    refine roundTrips_look (readBy_simt rfl) (by decide) (by decide) (fun _ => rfl) rfl fun w lit F => ?_
    unfold decodeSimt
    rw [F.major, ← F.uniform, ← F.fn, ← F.regD, ← F.regA, ← F.regB]
    rfl
  | lds | lds64 | lds128 | sts | sts64 | sts128 | lda | lda64 | stl | stl64 | mldr | mst =>
    refine roundTrips_labx (readBy_simt rfl) (by decide) (fun _ => rfl) rfl fun w lit F => ?_
    unfold decodeSimt decSimt2C decSimt2D decSimt3D
    rw [F.major, F.uniform, F.look, F.fn, F.regA, F.regB, F.index]
    rfl
  | radd u l f a b x => exact radd_roundTrips u l f a b x
  | prefL2 | prefL1 =>
    refine roundTrips_ownIndex (readBy_simt rfl) (by decide) (fun _ => rfl) fun w lit u l f a x hf F => ?_
    unfold decodeSimt decSimt2E
    rw [F.major, F.fn, F.regB]
    interval_cases f <;> rfl
  | addi | andi | ori | xori =>
    refine roundTrips_dai (readBy_simt rfl) (by decide) (fun _ => rfl) rfl fun w lit F => ?_
    unfold decodeSimt
    rw [F.major, ← F.uniform, ← F.regD, ← F.regA, ← F.imm]
    rfl
  | movi | movhi | lea | bz | bnz =>
    refine roundTrips_di (readBy_simt rfl) (by decide) (fun _ => rfl) rfl fun w lit F => ?_
    unfold decodeSimt
    rw [F.major, ← F.uniform, ← F.regD, ← F.imm]
    rfl
  | srd u d s => exact srd_roundTrips u d s
  | bra u o => exact bra_roundTrips u o
  | group u s l r => exact group_roundTrips u s l r
  | join u s a l r => exact join_roundTrips u s a l r
  | park u s a => exact park_roundTrips u s a
  | trap => exact trap_roundTrips
  | addiWide | andiWide | oriWide | xoriWide | joinWide | parkWide =>
    refine roundTrips_wideImm (readBy_simt rfl) (fun _ => rfl) (by decide) rfl fun w F => ?_
    unfold decodeSimt decSimtWide
    rw [F.major, F.unused, F.wop, F.wfn, F.regD, F.regA, F.uniform]
    rfl
  | moviWide | movhiWide | leaWide | groupWide | call =>
    refine roundTrips_wideLong (readBy_simt rfl) (fun _ => rfl) (by decide) (by decide) rfl fun w F => ?_
    unfold decodeSimt decSimtWide
    rw [F.major, F.unused, F.wop, F.wfn, F.regD, F.regA, F.uniform]
    rfl
  | cmpiWide u c d a x => exact cmpiWide_roundTrips u c d a x
  | meet => exact meet_roundTrips
  -- the sequencers' instructions are not of class 0 alone; a step of the part has no word and stands in no class
  | smov | sadd | swait | ssig | ssig64 | ssigAdd64 | slda | slda64 | endProg | sli | sliWide | sbnz | sloop | tcfg | tzero | tzeroRows
    | twr | mma | mmas | mmao | accrd | accrdClr | accnorm | accnormRows | acchrRow | acchrExp | acchrTile | msync | cpy | cpym | gather
    | scatter | stage | emblk | topk | coll | agset | egjoin | egleave | ttop | evpop | evwait =>
    exact absurd h Bool.false_ne_true
  | _ => exact roundTrips_of_classes_nil rfl

theorem roundTrips_of_sequencers {i : Instr} (h : i.classes.all (· == 0) = false) : i.RoundTrips := by
  cases i with
  -- the scalar set of classes 1 to 4 (R155, R283, R284)
  | sadd =>
    refine roundTrips_dab (readBy_shared rfl (by decide)) (by decide) (fun _ => rfl) rfl fun w lit F => ?_
    unfold decodeCtl decShared00
    rw [F.major, F.fn, ← F.uniform, ← F.regD, ← F.regA, ← F.regB]
    rfl
  | ssig =>
    refine roundTrips_ab (readBy_shared rfl (by decide)) (by decide) (fun _ => rfl) rfl fun w lit F => ?_
    unfold decodeCtl decShared00
    rw [F.major, F.fn, F.regD, ← F.uniform, ← F.regA, ← F.regB]
    rfl
  | slda =>
    refine roundTrips_da (readBy_shared rfl (by decide)) (by decide) (fun _ => rfl) rfl fun w lit F => ?_
    unfold decodeCtl decShared00
    rw [F.major, F.fn, F.regB, ← F.uniform, ← F.regD, ← F.regA]
    rfl
  | swait | endProg =>
    refine roundTrips_bare (readBy_shared rfl (by decide)) (by decide) (fun _ => rfl) fun _ w lit F => ?_
    unfold decodeCtl decShared00
    rw [F.major, F.fn, F.regs]
    rfl
  | sli | sbnz | sloop =>
    refine roundTrips_di (readBy_shared rfl (by decide)) (by decide) (fun _ => rfl) rfl fun w lit F => ?_
    unfold decodeCtl
    rw [F.major, ← F.uniform, ← F.regD, ← F.imm]
    rfl
  | smov u d a => exact smov_roundTrips u d a
  | ssig64 u a b => exact ssig64_roundTrips u a b
  | ssigAdd64 u a b => exact ssigAdd64_roundTrips u a b
  | slda64 u d a => exact slda64_roundTrips u d a
  | sliWide d x => exact sliWide_roundTrips d x
  -- the commands of the engines (R155): matrix, copy, collective, control
  | twr u n d a b | accrd u n d a b | accrdClr u n d a b | acchrRow u n d a b | acchrExp u n d a b =>
    refine roundTrips_ndab (readBy_matrix rfl) (by decide) (by decide) (fun _ => rfl) rfl fun w lit F => ?_
    unfold decodeMatrix decMatrix12 decMatrix16 decMatrix18
    rw [F.major, F.fn, F.notify, F.uniform, F.regD, F.regA, F.regB]
    cases n <;> rfl
  | tcfg u n d a | mma u n d a | mmas u n d a | mmao u n d a | acchrTile u n d a =>
    refine roundTrips_nda (readBy_matrix rfl) (by decide) (by decide) (fun _ => rfl) rfl fun w lit F => ?_
    unfold decodeMatrix decMatrix10 decMatrix13 decMatrix14 decMatrix15 decMatrix18
    rw [F.major, F.fn, F.notify, F.uniform, F.regD, F.regA, F.regB]
    cases n <;> rfl
  | tzeroRows u n d b | accnormRows u n d b =>
    refine roundTrips_ndb (readBy_matrix rfl) (by decide) (by decide) (fun _ => rfl) rfl fun w lit F => ?_
    unfold decodeMatrix decMatrix11 decMatrix17
    rw [F.major, F.fn, F.notify, F.uniform, F.regD, F.regA, F.regB]
    cases n <;> rfl
  | tzero u n d | accnorm u n d =>
    refine roundTrips_nd (readBy_matrix rfl) (by decide) (by decide) (fun _ => rfl) rfl fun w lit F => ?_
    unfold decodeMatrix decMatrix11 decMatrix17
    rw [F.major, F.fn, F.notify, F.uniform, F.regD, F.regAB]
    cases n <;> rfl
  | msync u n a =>
    refine roundTrips_na (readBy_matrix rfl) (by decide) (by decide) (fun _ => rfl) rfl fun w lit F => ?_
    unfold decodeMatrix decMatrix19
    rw [F.major, F.fn, F.notify, F.uniform, F.regD, F.regA, F.regB]
    cases n <;> rfl
  | cpy u n d a b | gather u n d a b | scatter u n d a b | emblk u n d a b | topk u n d a b =>
    refine roundTrips_ndab (readBy_copy rfl) (by decide) (by decide) (fun _ => rfl) rfl fun w lit F => ?_
    unfold decodeCopy decCopy10 decCopy12 decCopy13 decCopy15 decCopy16
    rw [F.major, F.fn, F.notify, F.uniform, F.regD, F.regA, F.regB]
    cases n <;> rfl
  | stage u n a b =>
    refine roundTrips_nab (readBy_copy rfl) (by decide) (by decide) (fun _ => rfl) rfl fun w lit F => ?_
    unfold decodeCopy decCopy14
    rw [F.major, F.fn, F.notify, F.uniform, F.regD, F.regA, F.regB]
    cases n <;> rfl
  | cpym u n f d a b => exact cpym_roundTrips u n f d a b
  | coll u n a =>
    refine roundTrips_na (readBy_coll rfl) (by decide) (by decide) (fun _ => rfl) rfl fun w lit F => ?_
    unfold decodeColl decColl10
    rw [F.major, F.fn, F.notify, F.uniform, F.regD, F.regA, F.regB]
    cases n <;> rfl
  | agset u n a b =>
    refine roundTrips_nab (readBy_coll rfl) (by decide) (by decide) (fun _ => rfl) rfl fun w lit F => ?_
    unfold decodeColl decColl11
    rw [F.major, F.fn, F.notify, F.uniform, F.regD, F.regA, F.regB]
    cases n <;> rfl
  | egjoin u n d a | egleave u n d a =>
    refine roundTrips_nda (readBy_coll rfl) (by decide) (by decide) (fun _ => rfl) rfl fun w lit F => ?_
    unfold decodeColl decColl12 decColl13
    rw [F.major, F.fn, F.notify, F.uniform, F.regD, F.regA, F.regB]
    cases n <;> rfl
  | ttop =>
    refine roundTrips_a (readBy_coll rfl) (by decide) (fun _ => rfl) rfl fun w lit F => ?_
    unfold decodeColl decColl14
    rw [F.major, F.fn, F.regD, F.regB, ← F.uniform, ← F.regA]
    rfl
  | evpop | evwait =>
    refine roundTrips_d (readBy_ctl rfl) (by decide) (fun _ => rfl) rfl fun w lit F => ?_
    unfold decodeCtl decCtl10 decCtl11
    rw [F.major, F.fn, F.uniform, F.regD, F.regAB]
    rfl
  -- the instructions of class 0 and the steps of the part
  | _ => exact absurd h.symm Bool.false_ne_true

theorem roundTrips (i : Instr) : i.RoundTrips := by
  cases h : i.classes.all (· == 0) with
  | true => exact roundTrips_of_simt h
  | false => exact roundTrips_of_sequencers h

end Sys2Proof.Instr
end

section
/-! The obligations on the decoder and the encoder (R147, R151, R154 to R157). -/
namespace Sys2Proof.Machine

/-- Settles O1: each instruction by the table that reads its words, each field of a header by the bits below and above it. -/
theorem decodeOfEncode : Obligations.DecodeOfEncode :=
  ⟨fun i own cls rest => i.roundTrips own cls rest, decodeHeader_encodeHeader⟩

/-- Settles O2: the decoder evaluated on each word. -/
theorem wordsDecode : Obligations.WordsDecode := by
  unfold Obligations.WordsDecode
  refine ⟨?_, ?_, ?_, ?_, ?_, ?_, ?_, ?_, ?_, ?_, ?_, ?_, ?_, ?_, ?_, ?_, ?_, ?_⟩ <;> rfl

end Sys2Proof.Machine
end

section
/-! Clause headers (R147 to R150): what a header leaves its group or its sequencer, and what its wait fields hold back. -/
namespace Sys2Proof.Machine

/-! ## Lanes by number -/

theorem getElem?_mapLanes (ls : List Nat) (f : Lane → Lane) (i : Nat) (xs : List Lane) (k : Nat) :
    (mapLanes ls f i xs)[k]? = xs[k]?.map fun x => if i + k ∈ ls then f x else x := by
  induction xs generalizing i k with
  | nil => rfl
  | cons x xs ih =>
    cases k with
    | zero => simp [mapLanes]
    | succ k => simp [mapLanes, ih, Nat.add_right_comm i 1 k, Nat.add_assoc]

theorem length_mapLanes (ls : List Nat) (f : Lane → Lane) (i : Nat) (xs : List Lane) :
    (mapLanes ls f i xs).length = xs.length := by
  induction xs generalizing i with
  | nil => rfl
  | cons x xs ih => simp [mapLanes, ih]

theorem Warp.lane_modLanes_of_mem {w : Warp} {ls : List Nat} {l : Nat} (f : Lane → Lane) (hl : l ∈ ls) (hlt : l < w.lanes.length) :
    (w.modLanes ls f).lane l = f (w.lane l) := by
  simp [Warp.lane, Warp.modLanes, List.getD_eq_getElem?_getD, getElem?_mapLanes, hl, hlt]

/-! ## Wait fields -/

/-- No counter is above its wait field, where that is below 15 (R149). -/
theorem headerWaits_eq_false_iff (h : Header) (load store eng rel : Nat) : headerWaits h load store eng rel = false ↔
    (15 ≤ h.wld ∨ load ≤ h.wld) ∧ (15 ≤ h.wst ∨ store ≤ h.wst) ∧ (15 ≤ h.wen ∨ eng ≤ h.wen) ∧ (15 ≤ h.wrl ∨ rel ≤ h.wrl) := by
  simp only [headerWaits, Bool.or_eq_false_iff, Bool.and_eq_false_iff, decide_eq_false_iff_not, not_lt, and_assoc]

/-- Of a header's counters, a sequencer has the engine counter alone. -/
theorem headerWaits_engine (h : Header) (n : Nat) : headerWaits h 0 0 n 0 = true ↔ h.wen < 15 ∧ h.wen < n := by
  simp [headerWaits]

theorem decodeHeader_waits_le (w : Nat) :
    (decodeHeader w).wld ≤ 15 ∧ (decodeHeader w).wst ≤ 15 ∧ (decodeHeader w).wen ≤ 15 ∧ (decodeHeader w).wrl ≤ 15 := by
  simp only [decodeHeader]
  omega

/-- The headers that hold a runnable group's next instruction do not wait (R24, R149). -/
theorem headerWaits_of_runnable {s : State} {p : Nat} {g : WorkGroup} {w : Warp} {e : List Nat × Next} (he : e ∈ s.runnable p g w)
    (hat : w.atHeader e.1 = false) {word : Word} (hword : word ∈ w.openHeaders e.1) :
    headerWaits (decodeHeader word.toNat) w.loadCount ((s.work p).storeCount g.id w.wid) ((s.work p).engCountOf g.id w) w.relCount =
      false := by
  have hstalled : s.stalled p g w e.1 e.2 = false := by simpa using (List.mem_filter.mp he).2
  have hcounter : s.counterStall p g w e.1 e.2 = false := (Bool.or_eq_false_iff.mp hstalled).1
  have hopen := (Bool.or_eq_false_iff.mp hcounter).1
  rw [hat, Bool.not_false, Bool.true_and, List.any_eq_false] at hopen
  exact Bool.eq_false_iff.mpr (hopen word hword)

/-! ## Headers -/

theorem Warp.enterClause_cur {w : Warp} (hm : w.trap.hm = false) {ls : List Nat} {l : Nat} (hl : l ∈ ls) (hlt : l < w.lanes.length)
    (h : Header) (word : Nat) :
    ((w.enterClause ls h word).lane l).cur = ⟨(w.lane l).cur.next, false, h.count, some (BitVec.ofNat 32 word)⟩ := by
  have henter : w.enterClause ls h word =
      w.modLanes ls fun x => { x with cur := ⟨x.cur.next, false, h.count, some (BitVec.ofNat 32 word)⟩ } := by
    simp [Warp.enterClause, hm]
  rw [henter, Warp.lane_modLanes_of_mem _ hl hlt]

section
variable {s : State} {c : Ctx} {g : WorkGroup} {w : Warp} (hi : Issues s c g w)
include hi

theorem execClauseHeader_refused (hm : w.trap.hm = false) (h : (decodeHeader c.word).ok 0 = false) :
    execClauseHeader s = trapWord s c causeIllegal := by
  simp only [execClauseHeader, hi.1]
  rw [headerStep, withGroup_issues hi]
  simp [h, hm]

theorem execClauseHeader_group (h : (decodeHeader c.word).ok 0 = true) : execClauseHeader s =
    .next ((if (decodeHeader c.word).phase then s.startPhase c.p c.wg c.wid (w.pcOf c - 4) else s).modWarp c.p c.wg c.wid fun v =>
      let y := v.enterClause c.lanes (decodeHeader c.word) c.word
      if (decodeHeader c.word).yld ∧ v.trap.hm = false ∧ (∃ l ∈ c.lanes, l ∈ v.turn) then { y with turnEnd := true, turn := c.lanes }
      else y) := by
  simp only [execClauseHeader, hi.1]
  rw [headerStep, withGroup_issues hi]
  simp [h, and_assoc]

end

theorem execClauseHeader_sequencer {s : State} {p word lit : Nat} {q : Seq} (hi : SeqIssues s p q word lit) : execClauseHeader s =
    let h := decodeHeader word
    if h.ok q.cls = false then .next (s.seqTrap p q causeIllegal)
    else if h.wen < 15 ∧ h.wen < q.cmds.length then .next s
    else .next (s.modSeq p q.id fun y => { y with cur := ⟨y.cur.next, false, h.count, some (BitVec.ofNat 32 word)⟩ }) := by
  simp only [execClauseHeader, hi.1]
  rw [seqHeader, withSeq_issues hi]
  simp only [Bool.not_eq_eq_eq_not, Bool.not_true, headerWaits_engine]

/-- Settles O46: a header's answer by its check, and the wait fields of a runnable group by what keeps a group from being stalled. -/
theorem clauseHeadersAct : Obligations.ClauseHeadersAct := by
  unfold Obligations.ClauseHeadersAct
  refine ⟨fun s c g w hi hm => ⟨fun h => execClauseHeader_refused hi hm h, fun h => ⟨execClauseHeader_group hi h, ?entered⟩⟩,
    fun s p g w e he hm hdr l hl word hword => ?waits, fun s p word lit q hi => ?sequencer⟩
  case entered => exact fun l hl hlt => Warp.enterClause_cur hm hl hlt _ _
  case waits =>
    intro h
    have hat : w.atHeader e.1 = false := by simpa [Warp.atHeader, hm] using hdr
    have hopen : word ∈ w.openHeaders e.1 := by
      simp only [Warp.openHeaders, hm, Bool.false_eq_true, if_false]
      exact List.mem_filterMap.mpr ⟨l, hl, hword⟩
    obtain ⟨hld, hst, hen, hrl⟩ := (headerWaits_eq_false_iff ..).mp (headerWaits_of_runnable he hat hopen)
    obtain ⟨hld', hst', hen', hrl'⟩ := decodeHeader_waits_le word.toNat
    exact ⟨hld.imp_left (Nat.le_antisymm hld'), hst.imp_left (Nat.le_antisymm hst'), hen.imp_left (Nat.le_antisymm hen'),
      hrl.imp_left (Nat.le_antisymm hrl')⟩
  case sequencer =>
    intro h
    rw [exec_clauseHeader, execClauseHeader_sequencer hi]
    exact ⟨fun hno => if_pos hno, fun hok hw => by simp only [h, hok] at hw ⊢; exact if_pos hw,
      fun hok hw => by simp only [h, hok] at hw ⊢; exact if_neg hw⟩

end Sys2Proof.Machine
end

section
/-! LOOKAHEAD_RESULT_WRITE and STORE_PERFORMED (R94, R149, R153): a due result lands in its lane; a store lands in memory of the canonical
form, which O27 does not ask for. -/
namespace Sys2Proof.Machine

/-! ## Results -/

/-- A result of the instruction `t` whose window is over and whose values are there (R153). -/
def Result.due (t : Nat) (r : Result) : Bool := r.ticket == t && r.window == 0 && r.ready

/-- The due results of a lane are written into its registers and leave it. -/
def Warp.landResults (t : Nat) (w : Warp) (l : Nat) : Warp :=
  (((w.lane l).results.filter (Result.due t)).foldl (fun v r => v.setRegs l r.vals) w).modLanes [l] fun x =>
    { x with results := x.results.filter fun r => !r.due t }

theorem foldl_setRegs_frame (rs : List Result) (w : Warp) (l : Nat) :
    (rs.foldl (fun v r => v.setRegs l r.vals) w).wid = w.wid ∧ (rs.foldl (fun v r => v.setRegs l r.vals) w).lanes = w.lanes := by
  induction rs generalizing w with
  | nil => exact ⟨rfl, rfl⟩
  | cons r rs ih =>
    obtain ⟨hwid, -, hlanes, -⟩ := setRegs_frame r.vals w l
    exact ⟨(ih _).1.trans hwid, (ih _).2.trans hlanes⟩

theorem reg_foldl_setRegs_other (rs : List Result) (w : Warp) {l k : Nat} (hl : l < 32) (hk : k < 32) (hne : k ≠ l) (i : Nat) :
    (rs.foldl (fun v r => v.setRegs l r.vals) w).reg i k = w.reg i k := by
  induction rs generalizing w with
  | nil => rfl
  | cons r rs ih => exact (ih _).trans (reg_setRegs_other _ _ fun e _ hkey => hne ((regKey_inj hk hl).mp hkey).2)

section
variable (t : Nat) (w : Warp) (l : Nat)

theorem Warp.landResults_wid : (w.landResults t l).wid = w.wid := (foldl_setRegs_frame _ w l).1

theorem Warp.landResults_lanes : (w.landResults t l).lanes =
    mapLanes [l] (fun x => { x with results := x.results.filter fun r => !r.due t }) 0 w.lanes := by
  simp only [Warp.landResults, Warp.modLanes, (foldl_setRegs_frame _ w l).2]

theorem Warp.landResults_reg (i k : Nat) : (w.landResults t l).reg i k =
    (((w.lane l).results.filter (Result.due t)).foldl (fun v r => v.setRegs l r.vals) w).reg i k := reg_congr rfl rfl rfl i k

variable {t w l}

theorem Warp.landResults_results (hl : l < w.lanes.length) :
    ((w.landResults t l).lane l).results = (w.lane l).results.filter fun r => !r.due t := by
  simp [Warp.lane, Warp.landResults_lanes, List.getD_eq_getElem?_getD, getElem?_mapLanes, hl]

theorem Warp.landResults_lane_other {k : Nat} (hne : k ≠ l) : (w.landResults t l).lane k = w.lane k := by
  simp [Warp.lane, Warp.landResults_lanes, List.getD_eq_getElem?_getD, getElem?_mapLanes, hne]

theorem Warp.landResults_reg_other {k : Nat} (hl : l < 32) (hk : k < 32) (hne : k ≠ l) (i : Nat) :
    (w.landResults t l).reg i k = w.reg i k := by
  rw [Warp.landResults_reg, reg_foldl_setRegs_other _ _ hl hk hne]

theorem Warp.landResults_reg_same (hl : l < 32) {r : Result} (hr : (w.lane l).results.filter (Result.due t) = [r])
    (hnodup : (r.vals.map (·.1)).Nodup) {e : Nat × Word} (he : e ∈ r.vals) : (w.landResults t l).reg e.1 l = e.2 := by
  rw [Warp.landResults_reg, hr]
  exact reg_setRegs_of_mem hl r.vals w hnodup e he

end

theorem foldl_landResults_other {t k : Nat} (hk : k < 32) : ∀ (ls : List Nat) (w : Warp), (∀ l ∈ ls, l < 32) → k ∉ ls →
    (ls.foldl (Warp.landResults t) w).lane k = w.lane k ∧ ∀ i, (ls.foldl (Warp.landResults t) w).reg i k = w.reg i k
  | [], _, _, _ => ⟨rfl, fun _ => rfl⟩
  | l :: ls, w, hls, hmem => by
    obtain ⟨hl, hrest⟩ := List.forall_mem_cons.mp hls
    obtain ⟨hne, hnot⟩ := not_or.mp (mt List.mem_cons.mpr hmem)
    obtain ⟨hlane, hreg⟩ := foldl_landResults_other hk ls (w.landResults t l) hrest hnot
    exact ⟨hlane.trans (Warp.landResults_lane_other hne), fun i => (hreg i).trans (Warp.landResults_reg_other hl hk hne i)⟩

/-- A lane of the list ends with its due results in its registers, wherever in the list it stands. -/
theorem foldl_landResults {t k : Nat} : ∀ (ls : List Nat) (w : Warp), (∀ l ∈ ls, l < 32) → ls.Nodup → w.lanes.length = 32 → k ∈ ls →
    ((ls.foldl (Warp.landResults t) w).lane k).results = ((w.lane k).results.filter fun r => !r.due t) ∧
      ∀ r, (w.lane k).results.filter (Result.due t) = [r] → (r.vals.map (·.1)).Nodup →
        ∀ e ∈ r.vals, (ls.foldl (Warp.landResults t) w).reg e.1 k = e.2
  | l :: ls, w, hls, hnodup, hlen, hmem => by
    obtain ⟨hl, hrest⟩ := List.forall_mem_cons.mp hls
    obtain ⟨hnot, hnodup⟩ := List.nodup_cons.mp hnodup
    by_cases hkl : k = l
    · subst hkl
      obtain ⟨hlane, hreg⟩ := foldl_landResults_other (t := t) hl ls (w.landResults t k) hrest hnot
      refine ⟨(congrArg _ hlane).trans (Warp.landResults_results (by omega)), fun r hr hvals e he => ?_⟩
      exact (hreg e.1).trans (Warp.landResults_reg_same hl hr hvals he)
    · have hk := (List.mem_cons.mp hmem).resolve_left hkl
      have hlen' : (w.landResults t l).lanes.length = 32 := by
        rw [Warp.landResults_lanes, length_mapLanes, hlen]
      have ih := foldl_landResults (t := t) ls (w.landResults t l) hrest hnodup hlen' hk
      rwa [Warp.landResults_lane_other hkl] at ih

theorem foldl_landResults_wid (t : Nat) (ls : List Nat) (w : Warp) : (ls.foldl (Warp.landResults t) w).wid = w.wid := by
  induction ls generalizing w with
  | nil => rfl
  | cons l ls ih => exact (ih _).trans (Warp.landResults_wid t w l)

theorem execLookaheadResultWrite_part {s : State} {p wg wid t : Nat} (hi : s.issue = .part [p, wg, wid, t]) :
    execLookaheadResultWrite s = .next (s.modWarp p wg wid fun w => (upto 0 w.lanes.length).foldl (Warp.landResults t) w) := by
  simp only [execLookaheadResultWrite, State.arg_part hi]
  rfl

/-- The first half of what O27 says: due results land in their lanes. -/
theorem lookaheadResultWrite_lands {s : State} {p wg wid t : Nat} {g : WorkGroup} {w : Warp} (hi : s.issue = .part [p, wg, wid, t])
    (hg : (s.work p).wg wg = some g) (hw : g.warp wid = some w) (hlen : w.lanes.length = 32) :
    ∃ s' v, exec .lookaheadResultWrite s = .next s' ∧ s'.warp p wg wid = some v ∧ ∀ l, l < 32 →
      (v.lane l).results = ((w.lane l).results.filter fun r => !r.due t) ∧
        ∀ r, (w.lane l).results.filter (Result.due t) = [r] → (r.vals.map (·.1)).Nodup → ∀ e ∈ r.vals, v.reg e.1 l = e.2 := by
  have hwarp : s.warp p wg wid = some w := by simp [State.warp, hg, hw]
  have hupto : upto 0 32 = List.range 32 := by decide
  refine ⟨_, (upto 0 w.lanes.length).foldl (Warp.landResults t) w, execLookaheadResultWrite_part hi, ?_, fun l hl => ?_⟩
  · exact (State.modWarp_warp_same s p wg wid _ fun w => foldl_landResults_wid t _ w).trans (congrArg _ hwarp)
  · rw [hlen, hupto]
    exact foldl_landResults _ w (fun k hk => List.mem_range.mp hk) List.nodup_range hlen (List.mem_range.mpr hl)

/-! ## Stores -/

theorem byte_write_same {m : Memory} (hm : m.wf = true) (a : Nat) (bs : List Byte) {i : Nat} (hi : i < bs.length) :
    (m.write a bs).byte (a + i) = bs.getD i 0 := by
  change (m.writeAll (located a bs)).byte (a + i) = _
  induction bs generalizing m a i with
  | nil => exact absurd hi (Nat.not_lt_zero i)
  | cons b bs ih =>
    rw [located, Memory.writeAll]
    cases i with
    | zero =>
      rw [byte_writeAll_other _ _ _ (fun e he => by have := located_addr bs (a + 1) e he; omega) (wf_writeByte m a b hm)]
      exact byte_writeByte_same m a b hm
    | succ i =>
      rw [← Nat.add_assoc, Nat.add_right_comm]
      exact ih (wf_writeByte m a b hm) (a + 1) (Nat.lt_of_succ_lt_succ hi)

theorem closure_alone {x : PendingStore} : ∀ {ys : List PendingStore}, (∀ y ∈ ys, x.after y = false) → closure ys [x] = [x]
  | [], _ => rfl
  | y :: ys, h => by
    obtain ⟨hy, hys⟩ := List.forall_mem_cons.mp h
    simp [closure, hy, closure_alone hys]

section
variable {s : State} {p n : Nat} {x : PendingStore} (hx : (s.work p).stores[n]? = some x) (hpark : x.parked = 0)
  (hfirst : ∀ y ∈ (s.work p).stores.take n, x.after y = false)
include hx hpark hfirst

/-- A store that comes after no earlier one is performed alone. -/
theorem State.performStore_alone : s.performStore p n =
    (s.perform p x).modWork p fun w => { w with stores := w.stores.filter fun y => decide (y ≠ x) } := by
  have hdue : closure ((s.work p).stores.take n).reverse [x] = [x] := closure_alone fun y hy => hfirst y (List.mem_reverse.mp hy)
  simp only [State.performStore, hx, hpark, hdue]
  simp

end

theorem located_map_snd (a : Nat) (bs : List Byte) : (located a bs).map (·.2) = bs := by
  induction bs generalizing a with
  | nil => rfl
  | cons b bs ih => simp [located, ih]

/-- Plain bytes into plain memory: the memory is written, and the work of partitions stands. -/
theorem State.perform_plain {s : State} {p pa : Nat} {x : PendingStore} {bs : List Byte} (hspad : x.spad = false)
    (hpoison : x.poison = false) (hred : x.red = none) (hbytes : x.bytes = located pa bs) (hne : bs ≠ []) :
    (s.perform p x).mem = s.mem.write pa bs ∧ ∀ q, (s.perform p x).work q = s.work q := by
  obtain ⟨b, r, rfl⟩ := List.exists_cons_of_ne_nil hne
  have hmap := located_map_snd pa (b :: r)
  rw [← hbytes] at hmap
  have hhead : x.bytes = (pa, b) :: located (pa + 1) r := hbytes
  unfold State.perform
  rw [hhead] at hmap ⊢
  simp only [hmap, hspad, hpoison, hred]
  exact ⟨rfl, fun _ => rfl⟩

/-- The second half of what O27 says, with memory in its canonical form. -/
theorem storePerformed_lands {s : State} {p n pa : Nat} {x : PendingStore} {bs : List Byte} (hs : s.Canonical)
    (hi : s.issue = .part [p, n]) (hx : (s.work p).stores[n]? = some x) (hpark : x.parked = 0) (hspad : x.spad = false)
    (hpoison : x.poison = false) (hred : x.red = none) (hbytes : x.bytes = located pa bs) (hne : bs ≠ [])
    (hfirst : ∀ y ∈ (s.work p).stores.take n, x.after y = false) :
    ∃ s', exec .storePerformed s = .next s' ∧ (s'.work p).stores = (s.work p).stores.filter (fun y => y ≠ x) ∧
      (∀ i, i < bs.length → s'.mem.byte (pa + i) = bs.getD i 0) ∧
      ∀ a, a < pa ∨ pa + bs.length ≤ a → s'.mem.byte a = s.mem.byte a := by
  obtain ⟨hmem, hwork⟩ := State.perform_plain (s := s) (p := p) hspad hpoison hred hbytes hne
  have hexec : exec .storePerformed s = .next ((s.perform p x).modWork p fun w =>
      { w with stores := w.stores.filter fun y => decide (y ≠ x) }) := by
    rw [exec_storePerformed, execStorePerformed, State.arg_part hi, State.arg_part hi]
    exact congrArg _ (State.performStore_alone hx hpark hfirst)
  refine ⟨_, hexec, ?_, fun i hlt => ?_, fun a ha => ?_⟩
  · rw [State.modWork_work_same, hwork]
  · rw [State.modWork_mem, hmem]
    exact byte_write_same hs pa bs hlt
  · rw [State.modWork_mem, hmem]
    exact byte_write_other s.mem pa a bs ha hs

/-! ## The obligation -/

/-- A store of one byte 0 to 0x30000. -/
def zeroStore : PendingStore := ⟨0, 0, 0, 0, 0, 3, false, false, located 0x30000 [0], none, false⟩

/-- Memory lists the address of the waiting store twice, so that it is not in the canonical form: no step brings this about (O4). -/
def State.listedTwice : State :=
  { State.reset.modWork 0 fun w => { w with stores := [zeroStore] } with
    mem := ⟨[(0x30000, 1), (0x30000, 2)], [], []⟩, issue := .part [0, 0] }

/-- The store takes the first of the two cells away, and the address reads what the second holds. -/
theorem listedTwice_reads : (State.listedTwice.performStore 0 0).mem.byte 0x30000 = 2 := by decide

/-- Refutes O27: the statement does not ask for memory in its canonical form, and a byte 0 written where an address is listed twice
uncovers the second cell. With that form both halves hold (`lookaheadResultWrite_lands`, `storePerformed_lands`). -/
theorem not_resultsAndStoresLand : ¬Obligations.ResultsAndStoresLand := by
  unfold Obligations.ResultsAndStoresLand
  intro h
  have hexec : exec .storePerformed State.listedTwice = .next (State.listedTwice.performStore 0 0) := rfl
  obtain ⟨s', hnext, -, hbytes, -⟩ := h.2 State.listedTwice 0 0 0x30000 zeroStore [0] rfl rfl rfl rfl rfl rfl rfl
    (List.cons_ne_nil _ _) (by decide) (fun y hy => nomatch hy)
  obtain rfl : State.listedTwice.performStore 0 0 = s' := Host.Outcome.next.inj (hexec.symm.trans hnext)
  have hzero := hbytes 0 (by decide)
  rw [Nat.add_zero, listedTwice_reads] at hzero
  exact absurd hzero (by decide)

end Sys2Proof.Machine
end

section
/-! Integer arithmetic, logic, shifts and bit fields (R181 to R189): the operand forms with one result per lane, each result function as the
spec writes it, and the obligations put together from them. -/
namespace Sys2Proof.Machine

/-! ## Pairs (R58) -/

theorem toNat_ofPair (lo hi : Word) : (DWord.ofPair lo hi).toNat = lo.toNat + 2 ^ 32 * hi.toNat := by
  have hlo := lo.isLt
  have hhi := hi.isLt
  have hshift : (hi.setWidth 64 <<< 32).toNat = 2 ^ 32 * hi.toNat := by
    rw [BitVec.toNat_shiftLeft, BitVec.toNat_setWidth, Nat.shiftLeft_eq]
    omega
  rw [DWord.ofPair, BitVec.toNat_or, hshift, BitVec.toNat_setWidth, Nat.mod_eq_of_lt (by omega), ← Nat.two_pow_add_eq_or_of_lt hlo,
    Nat.add_comm]

theorem toNat_pair (w : Warp) (r l : Nat) : (w.pair r l).toNat = (w.reg r l).toNat + 2 ^ 32 * (w.reg (r + 1) l).toNat := toNat_ofPair _ _

/-- The two words of a dword. -/
theorem pairOf_eq (d : Nat) (v : DWord) :
    pairOf d v = [(d, BitVec.ofNat 32 (v.toNat % 2 ^ 32)), (d + 1, BitVec.ofNat 32 (v.toNat / 2 ^ 32))] := by
  have hlo : v.lo = BitVec.ofNat 32 (v.toNat % 2 ^ 32) := BitVec.eq_of_toNat_eq (by simp [DWord.lo])
  have hhi : v.hi = BitVec.ofNat 32 (v.toNat / 2 ^ 32) :=
    BitVec.eq_of_toNat_eq (by simp [DWord.hi, Nat.shiftRight_eq_div_pow])
  rw [pairOf, hlo, hhi]

/-! ## Operand forms with one result per lane

The statements pair instructions with results. `IsUnary` and its like say that an instruction has an operand form and that its result is as
told; from that its answer follows, once for the form. -/

section
variable {u : Bool} {d a b : Nat}

/-- One source, one destination, with a result as told. -/
abbrev IsUnary (u : Bool) (d a : Nat) (i : Instr) (r : Word → Word) : Prop := ∃ f, (∀ s, exec i s = unary u d a f s) ∧ ∀ x, f x = r x

/-- Two sources. -/
abbrev IsBinary (u : Bool) (d a b : Nat) (i : Instr) (r : Word → Word → Word) : Prop :=
  ∃ f, (∀ s, exec i s = binary u d a b f s) ∧ ∀ x y, f x y = r x y

/-- Three sources, of which the third is the old vD. -/
abbrev IsTernary (u : Bool) (d a b : Nat) (i : Instr) (r : Word → Word → Word → Word) : Prop :=
  ∃ f, (∀ s, exec i s = ternary u d a b f s) ∧ ∀ x y z, f x y z = r x y z

/-- A pair operation (R182), its result said of the numbers that the pairs hold. -/
abbrev IsPairOp (u : Bool) (d a b : Nat) (i : Instr) (r : Nat → Nat → Nat) : Prop :=
  ∃ f, (∀ s, exec i s = pairOp u d a b f s) ∧ ∀ x y, (f x y).toNat = r x.toNat y.toNat

variable {i : Instr} {s : State} {c : Ctx} {g : WorkGroup} {w : Warp} (hi : Issues s c g w)
include hi

theorem IsUnary.answers {r : Word → Word} (h : IsUnary u d a i r) (ho : OperandsOk c w (c.readers u) [(d, 1)] [(a, 1)]) :
    exec i s = .next (answer s c fun l => [(d, r (w.reg a (c.readerOf u l)))]) := by
  obtain ⟨f, hexec, hr⟩ := h
  rw [hexec, unary, laneOp_answers hi _ ho, funext hr]

theorem IsBinary.answers {r : Word → Word → Word} (h : IsBinary u d a b i r)
    (ho : OperandsOk c w (c.readers u) [(d, 1)] [(a, 1), (b, 1)]) :
    exec i s = .next (answer s c fun l => [(d, r (w.reg a (c.readerOf u l)) (w.reg b (c.readerOf u l)))]) := by
  obtain ⟨f, hexec, hr⟩ := h
  simp only [hexec, binary, laneOp_answers hi _ ho, hr]

theorem IsTernary.answers {r : Word → Word → Word → Word} (h : IsTernary u d a b i r)
    (ho : OperandsOk c w (c.readers u) [(d, 1)] [(d, 1), (a, 1), (b, 1)]) : exec i s = .next (answer s c fun l =>
      [(d, r (w.reg a (c.readerOf u l)) (w.reg b (c.readerOf u l)) (w.reg d (c.readerOf u l)))]) := by
  obtain ⟨f, hexec, hr⟩ := h
  simp only [hexec, ternary, laneOp_answers hi _ ho, hr]

theorem IsPairOp.answers {r : Nat → Nat → Nat} (h : IsPairOp u d a b i r)
    (ho : OperandsOk c w (c.readers u) [(d, 2)] [(a, 2), (b, 2)]) : exec i s = .next (answer s c fun l =>
      let k := c.readerOf u l
      let v := r ((w.reg a k).toNat + 2 ^ 32 * (w.reg (a + 1) k).toNat) ((w.reg b k).toNat + 2 ^ 32 * (w.reg (b + 1) k).toNat)
      [(d, BitVec.ofNat 32 (v % 2 ^ 32)), (d + 1, BitVec.ofNat 32 (v / 2 ^ 32))]) := by
  obtain ⟨f, hexec, hr⟩ := h
  simp only [hexec, pairOp, laneOp_answers hi _ ho, pairOf_eq, hr, toNat_pair]

end

/-! ## Remainders (R183) -/

theorem ofInt_tmod (x y : Word) :
    BitVec.ofInt 32 (x.toInt.tmod y.toInt) = x - y * BitVec.ofInt 32 (x.toInt.tdiv y.toInt) := by
  have hsplit := congrArg (BitVec.ofInt 32) (Int.tmod_add_mul_tdiv x.toInt y.toInt)
  rw [BitVec.ofInt_add, BitVec.ofInt_mul, BitVec.ofInt_toInt, BitVec.ofInt_toInt] at hsplit
  exact BitVec.eq_sub_iff_add_eq.mpr hsplit

theorem ofNat_mod (x y : Word) : BitVec.ofNat 32 (x.toNat % y.toNat) = x - y * BitVec.ofNat 32 (x.toNat / y.toNat) := by
  have hsplit := congrArg (BitVec.ofNat 32) (Nat.mod_add_div x.toNat y.toNat)
  rw [BitVec.ofNat_add, BitVec.ofNat_mul, BitVec.ofNat_toNat, BitVec.ofNat_toNat, BitVec.setWidth_eq, BitVec.setWidth_eq] at hsplit
  exact BitVec.eq_sub_iff_add_eq.mpr hsplit

theorem remS_eq (x y : Word) : remS x y = if y = 0 then x else x - y * BitVec.ofInt 32 (x.toInt.tdiv y.toInt) := by
  rw [remS, ofInt_tmod]

theorem remZ_eq (x y : Word) : remZ x y = if y = 0 then x else x - y * BitVec.ofNat 32 (x.toNat / y.toNat) := by
  rw [remZ, ofNat_mod]

/-! ## Shifts by a whole word (R186) -/

theorem shiftLeft_eq (x : Word) (n : Nat) : shiftLeft x n = if n ≤ 31 then BitVec.ofNat 32 (x.toNat * 2 ^ n) else 0 := by
  rw [shiftLeft]
  congr 1
  exact BitVec.eq_of_toNat_eq (by simp [Nat.shiftLeft_eq])

theorem shiftRight_eq (x : Word) (n : Nat) : shiftRight x n = if n ≤ 31 then BitVec.ofNat 32 (x.toNat / 2 ^ n) else 0 := by
  rw [shiftRight]
  congr 1
  exact BitVec.eq_of_toNat_eq (by simp [Nat.shiftRight_eq_div_pow, Nat.mod_eq_of_lt (Nat.lt_of_le_of_lt (Nat.div_le_self _ _) x.isLt)])

/-- An arithmetic shift divides by a power of 2; beyond the word every bit is the sign. -/
theorem shiftArith_eq (x : Word) (n : Nat) :
    shiftArith x n = if n ≤ 31 then BitVec.ofInt 32 (x.toInt / 2 ^ n) else if x.msb then 0xFFFFFFFF else 0 := by
  rw [shiftArith]
  split
  case isTrue hn => rw [Nat.min_eq_left hn, BitVec.sshiftRight, Int.shiftRight_eq_div_pow, Nat.cast_pow, Nat.cast_ofNat]
  case isFalse hn =>
    rw [Nat.min_eq_right (by omega)]
    have hones : (0xFFFFFFFF : Word) = BitVec.allOnes 32 := by decide
    ext i hi
    have hsign : (x.sshiftRight 31)[i] = x.msb := by
      rw [BitVec.getElem_sshiftRight, BitVec.msb_eq_getLsbD_last, BitVec.getLsbD_eq_getElem (by decide)]
      split
      · next h =>
        obtain rfl : i = 0 := by omega
        rfl
      · rfl
    rw [hsign, hones]
    cases x.msb with
    | false => exact (BitVec.getElem_zero hi).symm
    | true => exact (BitVec.getElem_allOnes i hi).symm

/-! ## Bit fields (R188, R189) -/

/-- The clamped width of a field as the statements write it: 0 where the field is empty. -/
theorem fieldOf_eq_none {y : Word} (h : fieldOf y = none) : min (min (y.toNat / 256 % 256) 32) (32 - y.toNat % 256) = 0 := by
  simp only [fieldOf] at h
  split at h
  · omega
  · nomatch h

theorem fieldOf_eq_some {y : Word} {pos wid : Nat} (h : fieldOf y = some (pos, wid)) :
    pos = y.toNat % 256 ∧ wid = min (min (y.toNat / 256 % 256) 32) (32 - y.toNat % 256) ∧ wid ≠ 0 := by
  simp only [fieldOf] at h
  split at h
  · nomatch h
  · obtain ⟨rfl, rfl⟩ := Prod.mk.inj (Option.some.inj h)
    omega

theorem fieldZ_eq (x y : Word) : fieldZ x y =
    BitVec.ofNat 32 (x.toNat / 2 ^ (y.toNat % 256) % 2 ^ min (min (y.toNat / 256 % 256) 32) (32 - y.toNat % 256)) := by
  rw [fieldZ]
  cases h : fieldOf y with
  | none => rw [fieldOf_eq_none h, pow_zero, Nat.mod_one]; rfl
  | some e =>
    obtain ⟨hpos, hwid, -⟩ := fieldOf_eq_some h
    simp only [hpos, hwid]

/-- The number that a field of `wid` bits holds, in two's complement. -/
theorem fieldS_eq (x y : Word) :
    let wid := min (min (y.toNat / 256 % 256) 32) (32 - y.toNat % 256)
    let f := x.toNat / 2 ^ (y.toNat % 256) % 2 ^ wid
    fieldS x y = if wid = 0 then 0 else BitVec.ofInt 32 (if 2 ^ (wid - 1) ≤ f then (f : Int) - 2 ^ wid else f) := by
  intro wid f
  rw [fieldS]
  cases h : fieldOf y with
  | none => rw [if_pos (fieldOf_eq_none h)]
  | some e =>
    obtain ⟨hpos, hwid, hne⟩ := fieldOf_eq_some h
    rw [if_neg (ne_of_eq_of_ne hwid.symm hne)]
    simp only [hpos, hwid]
    rfl

theorem fieldInsert_eq (x y z : Word) :
    let pos := y.toNat % 256
    let wid := min (y.toNat / 256 % 256) 32
    fieldInsert x y z = if 32 ≤ pos ∨ wid = 0 then z
      else
        let mask := BitVec.ofNat 32 ((2 ^ min wid (32 - pos) - 1) * 2 ^ pos)
        (z &&& ~~~mask) ||| (BitVec.ofNat 32 (x.toNat * 2 ^ pos) &&& mask) := by
  intro pos wid
  simp only [fieldInsert, fieldOf]
  by_cases h : 32 ≤ pos ∨ wid = 0
  · rw [if_pos h, if_pos h]
  · rw [if_neg h, if_neg h]

/-! ## Counting bits (R184) -/

theorem onesOf_eq (x : Word) : onesOf x = (List.range 32).filter fun i => x.getLsbD i := by
  rw [onesOf, upto_eq_map_range]
  simp

theorem mem_onesOf {x : Word} {i : Nat} : i ∈ onesOf x ↔ i < 32 ∧ x.getLsbD i = true := by
  rw [onesOf_eq, List.mem_filter, List.mem_range]

theorem onesOf_sorted (x : Word) : (onesOf x).Pairwise (· < ·) := by
  rw [onesOf_eq]
  exact List.pairwise_lt_range.filter _

theorem toNat_popCount (x : Word) : (popCount x).toNat = ((List.range 32).filter fun i => x.getLsbD i).length := by
  have hle := List.length_filter_le (fun i => x.getLsbD i) (List.range 32)
  rw [List.length_range] at hle
  rw [popCount, onesOf_eq, BitVec.toNat_ofNat, Nat.mod_eq_of_lt (by omega)]

/-- No bit is 1 below the first of `onesOf`. -/
theorem firstSet_spec (x : Word) : (firstSet x).toNat ≤ 32 ∧ (∀ i, i < (firstSet x).toNat → x.getLsbD i = false) ∧
    ((firstSet x).toNat < 32 → x.getLsbD (firstSet x).toNat = true) := by
  rw [firstSet, onesOf_eq, List.head?_filter]
  cases h : (List.range 32).find? fun i => x.getLsbD i with
  | none =>
    have hno := List.find?_eq_none.mp h
    exact ⟨Nat.le_refl 32, fun i hi => Bool.eq_false_iff.mpr (hno i (List.mem_range.mpr hi)), fun hlt => absurd hlt (by decide)⟩
  | some k =>
    obtain ⟨hk, hmem, hbelow⟩ := List.find?_range_eq_some.mp h
    have hlt := List.mem_range.mp hmem
    have hval : (BitVec.ofNat 32 k).toNat = k := Nat.mod_eq_of_lt (by omega)
    simp only [hval]
    exact ⟨by omega, fun i hi => by simpa using hbelow i hi, fun _ => hk⟩

/-- No bit is 1 above the last of `onesOf`. -/
theorem leadingZeros_spec (x : Word) : (leadingZeros x).toNat ≤ 32 ∧
    (∀ i, i < (leadingZeros x).toNat → x.getLsbD (31 - i) = false) ∧
    ((leadingZeros x).toNat < 32 → x.getLsbD (31 - (leadingZeros x).toNat) = true) := by
  rw [leadingZeros]
  cases h : (onesOf x).getLast? with
  | none =>
    have hno : onesOf x = [] := List.getLast?_eq_none_iff.mp h
    refine ⟨Nat.le_refl 32, fun i _ => Bool.eq_false_iff.mpr fun hone => ?_, fun hlt => absurd hlt (by decide)⟩
    exact absurd (mem_onesOf.mpr ⟨by omega, hone⟩) (by simp [hno])
  | some k =>
    obtain ⟨before, hsplit⟩ := List.getLast?_eq_some_iff.mp h
    have hlast := (List.pairwise_append.mp (hsplit ▸ onesOf_sorted x)).2.2
    obtain ⟨hk, hone⟩ := mem_onesOf.mp (hsplit ▸ List.mem_append_right before (List.mem_singleton_self k))
    have hval : (BitVec.ofNat 32 (31 - k)).toNat = 31 - k := Nat.mod_eq_of_lt (by omega)
    simp only [hval]
    refine ⟨by omega, fun i hi => Bool.eq_false_iff.mpr fun habove => ?_, fun _ => by rwa [Nat.sub_sub_self (by omega)]⟩
    rcases List.mem_append.mp (hsplit ▸ mem_onesOf.mpr ⟨by omega, habove⟩) with hmem | hmem
    · have := hlast _ hmem k (List.mem_singleton_self k)
      omega
    · have := List.mem_singleton.mp hmem
      omega

theorem getLsbD_bitReverse (x : Word) {i : Nat} (hi : i < 32) : (bitReverse x).getLsbD i = x.getLsbD (31 - i) := by
  rw [Bool.eq_iff_iff, bitReverse, getLsbD_maskOf hi, List.mem_map]
  constructor
  · rintro ⟨j, hj, rfl⟩
    obtain ⟨hlt, hone⟩ := mem_onesOf.mp hj
    rwa [Nat.sub_sub_self (by omega)]
  · exact fun hone => ⟨31 - i, mem_onesOf.mpr ⟨by omega, hone⟩, Nat.sub_sub_self (by omega)⟩

/-! ## The obligations -/

/-- Settles O7: each entry is a result per lane, and a remainder is what the truncated quotient leaves. -/
theorem integerArithmeticResults : Obligations.IntegerArithmeticResults := by
  unfold Obligations.IntegerArithmeticResults
  intro u d a b e he s c g w hi ho
  refine IsBinary.answers hi (?_ : IsBinary u d a b e.1 e.2) ho
  revert e
  simp only [List.forall_mem_cons, List.not_mem_nil, false_imp_iff, implies_true, and_true]
  exact ⟨⟨_, exec_add u d a b, fun _ _ => rfl⟩,
    ⟨_, exec_sub u d a b, fun _ _ => rfl⟩,
    ⟨_, exec_mul u d a b, fun _ _ => rfl⟩,
    ⟨_, exec_mulhs u d a b, fun _ _ => rfl⟩,
    ⟨_, exec_mulhz u d a b, fun _ _ => rfl⟩,
    ⟨_, exec_mins u d a b, fun _ _ => rfl⟩,
    ⟨_, exec_maxs u d a b, fun _ _ => rfl⟩,
    ⟨_, exec_minz u d a b, fun _ _ => rfl⟩,
    ⟨_, exec_maxz u d a b, fun _ _ => rfl⟩,
    ⟨_, exec_divs u d a b, fun _ _ => rfl⟩,
    ⟨_, exec_divz u d a b, fun _ _ => rfl⟩,
    ⟨_, exec_rems u d a b, remS_eq⟩,
    ⟨_, exec_remz u d a b, remZ_eq⟩⟩

/-- Settles O8: each entry is a result per lane, its function written as the spec has it. -/
theorem logicShiftResults : Obligations.LogicShiftResults := by
  unfold Obligations.LogicShiftResults
  intro u d a b e he s c g w hi ho
  refine IsBinary.answers hi (?_ : IsBinary u d a b e.1 e.2) ho
  revert e
  simp only [List.forall_mem_cons, List.not_mem_nil, false_imp_iff, implies_true, and_true]
  exact ⟨⟨_, exec_and u d a b, fun _ _ => rfl⟩,
    ⟨_, exec_or u d a b, fun _ _ => rfl⟩,
    ⟨_, exec_xor u d a b, fun _ _ => rfl⟩,
    ⟨_, exec_andn u d a b, fun _ _ => rfl⟩,
    ⟨_, exec_shl u d a b, fun x y => shiftLeft_eq x y.toNat⟩,
    ⟨_, exec_shr u d a b, fun x y => shiftRight_eq x y.toNat⟩,
    ⟨_, exec_sar u d a b, fun x y => shiftArith_eq x y.toNat⟩,
    ⟨_, exec_rot u d a b, fun _ _ => rfl⟩,
    ⟨_, exec_bfez u d a b, fieldZ_eq⟩,
    ⟨_, exec_bfes u d a b, fieldS_eq⟩⟩

/-- Settles O9: each entry is a result per lane; the counts are read off the list of the bits that are 1. -/
theorem integerUnaryResults : Obligations.IntegerUnaryResults := by
  unfold Obligations.IntegerUnaryResults
  intro u d a e he s c g w hi ho
  suffices h : ∃ r, (∀ s, exec e.1 s = unary u d a r s) ∧ ∀ x, e.2 x (r x) by
    obtain ⟨r, hexec, hspec⟩ := h
    exact ⟨r, hspec, IsUnary.answers hi ⟨r, hexec, fun _ => rfl⟩ ho⟩
  revert e
  simp only [List.forall_mem_cons, List.not_mem_nil, false_imp_iff, implies_true, and_true]
  exact ⟨⟨_, exec_abs u d a, fun _ => rfl⟩,
    ⟨_, exec_neg u d a, fun _ => rfl⟩,
    ⟨_, exec_not u d a, fun _ => rfl⟩,
    ⟨_, exec_mov u d a, fun _ => rfl⟩,
    ⟨_, exec_popc u d a, toNat_popCount⟩,
    ⟨_, exec_clz u d a, leadingZeros_spec⟩,
    ⟨_, exec_ffs u d a, firstSet_spec⟩,
    ⟨_, exec_brev u d a, fun x _ => getLsbD_bitReverse x⟩⟩

/-- Settles O10: the pair operations by the numbers that pairs hold, the others as results per lane with the old vD as third source. -/
theorem pairAndThirdSourceResults : Obligations.PairAndThirdSourceResults := by
  unfold Obligations.PairAndThirdSourceResults
  refine ⟨fun u d a b e he s c g w hi ho => IsPairOp.answers hi (?pairs : IsPairOp u d a b e.1 e.2) ho,
    fun u d a b e he s c g w hi ho => IsTernary.answers hi (?thirds : IsTernary u d a b e.1 e.2) ho⟩
  case pairs =>
    revert e
    simp only [List.forall_mem_cons, List.not_mem_nil, false_imp_iff, implies_true, and_true]
    refine ⟨⟨_, exec_addc u d a b, BitVec.toNat_add⟩, ⟨_, exec_subb u d a b, fun x y => ?_⟩⟩
    rw [BitVec.toNat_sub, Nat.add_comm, ← Nat.add_sub_assoc (Nat.le_of_lt y.isLt)]
  case thirds =>
    revert e
    simp only [List.forall_mem_cons, List.not_mem_nil, false_imp_iff, implies_true, and_true]
    refine ⟨⟨_, exec_sel u d a b, fun x y z => ?_⟩, ⟨_, exec_mad u d a b, fun _ _ _ => rfl⟩, ⟨_, exec_bfi u d a b, fieldInsert_eq⟩⟩
    simp [nonzero]

end Sys2Proof.Machine
end

section
/-! Immediates and constants (R165, R187, R190 to R196): the fields of an instruction as words, what comparisons and shifts by an immediate
answer, addresses, and the obligations put together from them. -/
namespace Sys2Proof.Machine

/-! ## Fields read as signed numbers (R152) -/

/-- A sign-extended field is the field, or its complement to the word. -/
theorem signWord_eq {n : Nat} (hn : n ≤ 32) (v : Nat) :
    signWord n v = if v < 2 ^ (n - 1) then BitVec.ofNat 32 v else BitVec.ofNat 32 (2 ^ 32 - 2 ^ n + v) := by
  have hpow : (2 : Nat) ^ n ≤ 2 ^ 32 := Nat.pow_le_pow_right (by decide) hn
  rw [signWord, signed]
  by_cases h : v < 2 ^ (n - 1)
  · rw [if_pos h, if_neg (Nat.not_le.mpr h), BitVec.ofInt_natCast]
  · rw [if_neg h, if_pos (Nat.not_lt.mp h), ← BitVec.ofInt_natCast]
    refine BitVec.eq_of_toInt_eq ?_
    have hcast : ((2 ^ 32 - 2 ^ n + v : Nat) : Int) = (v - 2 ^ n) + (2 ^ 32 : Nat) := by
      rw [Nat.cast_add, Nat.cast_sub hpow]
      push_cast
      ring
    rw [BitVec.toInt_ofInt, BitVec.toInt_ofInt, hcast, Int.add_bmod_right]

/-- A signed field as the statements write it. -/
theorem signed_eq (n v : Nat) : signed n v = if v < 2 ^ (n - 1) then (v : Int) else (v : Int) - 2 ^ n := by
  rw [signed]
  by_cases h : v < 2 ^ (n - 1)
  · rw [if_pos h, if_neg (Nat.not_le.mpr h)]
  · rw [if_neg h, if_pos (Nat.not_lt.mp h)]

theorem signedLit_eq {v : Nat} (hv : v < 2 ^ 32) : signedLit v = if v < 2 ^ 31 then (v : Int) else (v : Int) - 2 ^ 32 := by
  rw [signedLit, Nat.mod_eq_of_lt (show v < 4294967296 from hv), signed_eq]

/-! ## Conditions (R165, R190) -/

theorem condition_iff {k : Nat} (hk : k ≤ 9) (x y : Word) : condition k x y = true ↔
    (k = 0 ∧ x = y) ∨ (k = 1 ∧ x ≠ y) ∨ (k = 2 ∧ x.toInt < y.toInt) ∨ (k = 3 ∧ x.toInt ≤ y.toInt) ∨ (k = 4 ∧ x.toInt > y.toInt) ∨
      (k = 5 ∧ x.toInt ≥ y.toInt) ∨ (k = 6 ∧ x.toNat < y.toNat) ∨ (k = 7 ∧ x.toNat ≤ y.toNat) ∨ (k = 8 ∧ x.toNat > y.toNat) ∨
      (k = 9 ∧ x.toNat ≥ y.toNat) := by
  interval_cases k <;> simp [condition]

theorem truth_eq_one {b : Bool} (h : b = true) : truth b = 1 := by rw [h]; rfl
theorem truth_eq_zero {b : Bool} (h : ¬b = true) : truth b = 0 := by rw [Bool.eq_false_iff.mpr h]; rfl

/-! ## Shifts by an immediate (R187) -/

theorem shiftImm_within {n : Nat} (hn : n < 32) (u : Bool) (d a : Nat) (f : Word → Nat → Word) (s : State) :
    shiftImm u d a n f s = unary u d a (fun x => f x n) s := if_neg (by omega)

theorem shiftImm_beyond {s : State} {c : Ctx} {g : WorkGroup} {w : Warp} (hi : Issues s c g w) {n : Nat} (hn : 32 ≤ n) (u : Bool)
    (d a : Nat) (f : Word → Nat → Word) : shiftImm u d a n f s = trapWord s c causeOperand := by
  rw [shiftImm, if_pos (by omega), reject, withGroup_issues hi]

/-! ## Constants and addresses (R194 to R196) -/

section
variable {s : State} {c : Ctx} {g : WorkGroup} {w : Warp} (hi : Issues s c g w)
include hi

/-- Where nothing is read, which lanes read does not matter. -/
theorem laneOp_answers_writeOnly {writes : List RegUse} (ho : OperandsOk c w [] writes []) (u : Bool)
    (f : Ctx → Warp → Nat → List (Nat × Word)) : laneOp u writes [] f s = .next (answer s c fun l => f c w (c.readerOf u l)) :=
  laneOp_answers hi f ⟨ho.1, fun _ _ _ hu => nomatch hu⟩

theorem constant_answers {d : Nat} (ho : OperandsOk c w [] [(d, 1)] []) (u : Bool) (v : Word) :
    constant u d v s = .next (answer s c fun _ => [(d, v)]) := laneOp_answers_writeOnly hi ho u _

/-- The address of the word displaced, modulo 2^64, by its two words. -/
theorem addressOf_answers {d : Nat} (ho : OperandsOk c w [] [(d, 2)] []) (u : Bool) (off : Int) :
    let v := (((w.pcOf c).toNat : Int) + off) % 2 ^ 64
    addressOf u d off s = .next (answer s c fun _ => [(d, BitVec.ofInt 32 (v % 2 ^ 32)), (d + 1, BitVec.ofInt 32 (v / 2 ^ 32))]) := by
  intro v
  have hv : (((w.pcOf c).setWidth 64 + BitVec.ofInt 64 off).toNat : Int) = v := by
    rw [BitVec.toNat_add, BitVec.toNat_ofInt, BitVec.toNat_setWidth_of_le (by decide)]
    omega
  rw [addressOf, laneOp_answers_writeOnly hi ho]
  simp only [pairOf_eq, ← hv, ← BitVec.ofInt_natCast, Nat.cast_ofNat, Int.natCast_emod, Int.natCast_ediv, Nat.cast_pow]

end

/-! ## The obligations -/

/-- Settles O11: the entries are results per lane of one source and the field; a comparison is the truth of its condition. -/
theorem immediateResults : Obligations.ImmediateResults := by
  unfold Obligations.ImmediateResults
  intro cond sx u d a i s c g w hi
  refine ⟨fun ho => ⟨fun e he hlt => IsUnary.answers hi (?entries : IsUnary u d a e.1 e.2.2) ho, fun k hk => ?compare⟩, ?beyond⟩
  case entries =>
    revert e
    simp only [List.forall_mem_cons, List.not_mem_nil, false_imp_iff, implies_true, and_true]
    exact ⟨fun _ => ⟨_, exec_addi u d a i, fun x => congrArg (x + ·) (signWord_eq (by decide) i)⟩,
      fun _ => ⟨_, exec_addiWide u d a i, fun _ => rfl⟩, fun _ => ⟨_, exec_andi u d a i, fun _ => rfl⟩,
      fun _ => ⟨_, exec_andiWide u d a i, fun _ => rfl⟩, fun _ => ⟨_, exec_ori u d a i, fun _ => rfl⟩,
      fun _ => ⟨_, exec_oriWide u d a i, fun _ => rfl⟩, fun _ => ⟨_, exec_xori u d a i, fun _ => rfl⟩,
      fun _ => ⟨_, exec_xoriWide u d a i, fun _ => rfl⟩,
      fun hlt => ⟨_, shiftImm_within hlt u d a shiftLeft, fun x => (shiftLeft_eq x i).trans (if_pos (by omega))⟩,
      fun hlt => ⟨_, shiftImm_within hlt u d a shiftRight, fun x => (shiftRight_eq x i).trans (if_pos (by omega))⟩,
      fun hlt => ⟨_, shiftImm_within hlt u d a shiftArith, fun x => (shiftArith_eq x i).trans (if_pos (by omega))⟩,
      fun hlt => ⟨_, shiftImm_within hlt u d a rotate, fun x => congrArg x.rotateLeft (Nat.mod_eq_of_lt hlt)⟩⟩
  case compare =>
    refine ⟨fun x y => truth (condition k x y), fun x y => ?_, fun _ => ?_, ?_, fun b hob => ?_⟩
    · exact ⟨fun h => truth_eq_one ((condition_iff hk x y).mpr h), fun h => truth_eq_zero (mt (condition_iff hk x y).mp h)⟩
    · refine IsUnary.answers (r := fun x => truth (condition k x (sx 7 i))) hi ⟨_, exec_cmpi u (6 + k) d a i, fun x => ?_⟩ ho
      rw [Nat.add_sub_cancel_left, signWord_eq (by decide) i]
    · refine IsUnary.answers (r := fun x => truth (condition k x (BitVec.ofNat 32 i))) hi ⟨_, exec_cmpiWide u (6 + k) d a i, fun x => ?_⟩ ho
      rw [Nat.add_sub_cancel_left]
    · exact IsBinary.answers (r := fun x y => truth (condition k x y)) hi ⟨_, exec_cmp u k d a b, fun _ _ => rfl⟩ hob
  case beyond =>
    intro hlo _
    simp only [List.forall_mem_cons, List.not_mem_nil, false_imp_iff, implies_true, and_true]
    exact ⟨shiftImm_beyond hi hlo u d a _, shiftImm_beyond hi hlo u d a _, shiftImm_beyond hi hlo u d a _, shiftImm_beyond hi hlo u d a _⟩

/-- Settles O12: constants and addresses as results per lane that read no register. -/
theorem constantsAndAddressesWritten : Obligations.ConstantsAndAddressesWritten := by
  unfold Obligations.ConstantsAndAddressesWritten
  intro u d i s c g w hi hlt
  refine ⟨fun ho => ⟨fun _ => ⟨?movi, constant_answers hi ho u _⟩, constant_answers hi ho u _, constant_answers hi ho u _⟩,
    fun ho => ⟨fun _ => ?lea, ?leaWide⟩⟩
  case movi =>
    rw [exec_movi, execMovi, signWord, signed_eq]
    exact constant_answers hi ho u _
  case lea =>
    rw [exec_lea, execLea, signed_eq]
    exact addressOf_answers hi ho u _
  case leaWide =>
    rw [exec_leaWide, execLeaWide, signedLit_eq hlt]
    exact addressOf_answers hi ho u _

end Sys2Proof.Machine
end

section
/-! Plain control and masks (R61, R173 to R176, R178, R179): what each instruction answers, and the obligations put together from them. -/
namespace Sys2Proof.Machine

theorem displaced_eq (a : VAddr) (off : Int) : displaced a off = BitVec.ofInt 56 (a.toNat + off) := by
  rw [displaced, BitVec.ofInt_add, BitVec.ofInt_natCast, BitVec.ofNat_toNat, BitVec.setWidth_eq]

section
variable {s : State} {c : Ctx} {g : WorkGroup} {w : Warp} (hi : Issues s c g w)
include hi

theorem execNop_answers : execNop s = .next (retire s c) := by rw [execNop, withGroup_issues hi]

theorem execYield_answers : execYield s = .next ((retire s c).modWarp c.p c.wg c.wid fun w => { w with turnEnd := true }) := by
  rw [execYield, withGroup_issues hi]

theorem execPhase_answers {x : Launch} (hx : (s.work c.p).launch g.seq = some x) :
    let b := s.phaseBudget c.p g.core x (w.pcOf c)
    execPhase s = .next (retire (s.modWarp c.p c.wg c.wid fun w => { w with phase := ⟨0, b.getD 0, b.isSome⟩ }) c) := by
  intro b
  rw [execPhase, withGroup_issues hi]
  simp only [State.startPhase, hi.2.1, hx, b]

theorem execMeet_answers (h : c.lit % 4 = 0) : execMeet s = .next (retire (s.modWarp c.p c.wg c.wid fun v =>
    v.modLanes c.lanes fun x => { x with mr := displaced (w.pcOf c) (signedLit c.lit) }) c) := by
  rw [execMeet, withGroup_issues hi, if_neg (not_not.mpr h)]

theorem execSrd_answers {d sel : Nat} (hsel : selectorOk sel = true) (ho : OperandsOk c w [] [(d, 1)] []) (u : Bool) :
    execSrd u d sel s = .next (answer s c fun l => [(d, BitVec.ofNat 32 (specialValue g w sel (c.readerOf u l)))]) := by
  rw [execSrd, withGroup_issues hi, if_neg (by simp [hsel]), withRegs_ok ho, answer]

theorem execSrd_reserved {sel : Nat} (hsel : selectorOk sel = false) (u : Bool) (d : Nat) :
    execSrd u d sel s = trapWord s c causeIllegal := by
  rw [execSrd, withGroup_issues hi, if_pos (by simp [hsel])]

theorem execMskrd_answers {d m : Nat} (hm : m ≤ 11) (ho : OperandsOk c w [] [(d, 1)] []) (u : Bool) :
    execMskrd u d m s = .next (answer s c fun _ => [(d, w.mask m)]) := by
  rw [execMskrd, withGroup_issues hi, if_neg (by omega), laneOp_answers_writeOnly hi ho]

theorem execMskwr_answers {a m : Nat} (hm : m ≤ 11) (ho : OperandsOk c w [c.l0] [] [(a, 1)]) (u : Bool) : execMskwr u a m s =
    .next (retire (s.modWarp c.p c.wg c.wid fun x => x.setMask m (w.reg a c.l0 &&& maskOf w.live)) c) := by
  rw [execMskwr, withGroup_issues hi, if_neg (by omega), withRegs_ok ho]

end

/-- Without a table the timer is disarmed (R376). -/
theorem phaseBudget_absent (s : State) (p core : Nat) {x : Launch} (at_ : VAddr) (h : x.rcd.phbudget = 0) :
    s.phaseBudget p core x at_ = none := by
  simp [State.phaseBudget, h]

theorem selectorOk_iff (sel : Nat) : selectorOk sel = true ↔ sel ≤ 5 ∨ 8 ≤ sel ∧ sel ≤ 15 := by simp [selectorOk]

/-- R61, one selector after the other. -/
theorem specialValue_eq (g : WorkGroup) (w : Warp) (sel l : Nat) : specialValue g w sel l =
    if sel = 0 then 32 * (w.wid % 32) + l else if sel = 1 then l else if sel = 2 then w.wid % 32 else if sel = 3 then g.core % 32
    else if sel = 4 then g.core / 64 else if sel = 5 then (w.lane l).relcnt
    else if g.cont ∧ sel ≠ 8 then 0 else (w.lane l).lix.getD (sel - 8) 0 := by
  unfold specialValue
  split
  · rfl
  · rfl
  · rfl
  · rfl
  · rfl
  · rfl
  · next h0 h1 h2 h3 h4 h5 =>
    rw [if_neg h0, if_neg h1, if_neg h2, if_neg h3, if_neg h4, if_neg h5]
    simp

/-! ## Live lanes (R179) -/

theorem mem_lanesFrom (t : Lane → Bool) (i k : Nat) (xs : List Lane) :
    k ∈ lanesFrom t i xs ↔ ∃ j, k = i + j ∧ ∃ x, xs[j]? = some x ∧ t x = true := by
  induction xs generalizing i with
  | nil => simp [lanesFrom]
  | cons x xs ih =>
    rw [← Nat.or_exists_add_one]
    by_cases h : t x = true
    · simp [lanesFrom, h, ih, Nat.add_assoc, Nat.add_comm 1]
    · simp [lanesFrom, h, ih, Nat.add_assoc, Nat.add_comm 1]

theorem mem_live (w : Warp) (l : Nat) : l ∈ w.live ↔ l < w.lanes.length ∧ (w.lane l).status = .running := by
  simp only [Warp.live, Warp.lanesWhere, mem_lanesFrom, Nat.zero_add, exists_eq_left', beq_iff_eq, Warp.lane,
    List.getD_eq_getElem?_getD]
  by_cases h : l < w.lanes.length
  · simp [h]
  · simp [h]

/-! ## The obligations -/

/-- Settles O19: each instruction by its answer; the displaced address and the selectors as the spec writes them. -/
theorem plainControlCompletes : Obligations.PlainControlCompletes := by
  unfold Obligations.PlainControlCompletes
  intro u d sel s c g w hi
  refine ⟨execNop_answers hi, execYield_answers hi, fun x hx => ⟨execPhase_answers hi hx, phaseBudget_absent s c.p g.core _⟩,
    fun hlt halign => ?meet, fun hsel ho => ?srd, fun hsel => ?reserved⟩
  case meet => rw [exec_meet, execMeet_answers hi halign, displaced_eq, signedLit_eq hlt]
  case srd =>
    rw [exec_srd, execSrd_answers hi ((selectorOk_iff sel).mpr hsel) ho]
    simp only [specialValue_eq]
  case reserved => exact execSrd_reserved hi (Bool.eq_false_iff.mpr (mt (selectorOk_iff sel).mp hsel)) u d

/-- Settles O20: the mask read, and the mask written by its bits. -/
theorem maskReadAndWrite : Obligations.MaskReadAndWrite := by
  unfold Obligations.MaskReadAndWrite
  intro u d a m s c g w hi hm
  refine ⟨fun ho => execMskrd_answers hi hm ho u, fun ho => ⟨_, fun i hlt => ?_, execMskwr_answers hi hm ho u⟩⟩
  rw [BitVec.getLsbD_and, Bool.and_eq_true, getLsbD_maskOf hlt, mem_live]

end Sys2Proof.Machine
end

section
/-! Transfers of control (R148, R166 to R170, R372): where the end of an issue slot leaves the lanes of the issuing warp, what a transfer
makes of that, what each instruction answers, and the obligation put together from them. -/
namespace Sys2Proof.Machine

/-! ## Lanes by number -/

theorem Warp.lane_modLanes (w : Warp) (ls : List Nat) (f : Lane → Lane) (l : Nat) :
    (w.modLanes ls f).lane l = if l ∈ ls ∧ l < w.lanes.length then f (w.lane l) else w.lane l := by
  simp only [Warp.lane, Warp.modLanes, List.getD_eq_getElem?_getD, getElem?_mapLanes, Nat.zero_add]
  by_cases hlt : l < w.lanes.length
  · by_cases hl : l ∈ ls <;> simp [hl, hlt]
  · simp [hlt]

theorem Warp.length_modLanes (w : Warp) (ls : List Nat) (f : Lane → Lane) : (w.modLanes ls f).lanes.length = w.lanes.length :=
  length_mapLanes ls f 0 w.lanes

/-- No lane of a warp is held in WAITM: also none beyond its lanes is. -/
theorem Warp.waitAt_lane {w : Warp} (h : ∀ x ∈ w.lanes, x.waitAt = none) (l : Nat) : (w.lane l).waitAt = none := by
  by_cases hlt : l < w.lanes.length
  · rw [Warp.lane, List.getD_eq_getElem _ _ hlt]
    exact h _ (List.getElem_mem hlt)
  · rw [Warp.lane, List.getD_eq_default _ _ (Nat.not_lt.mp hlt)]
    rfl

/-! ## The end of an issue slot (R19, R23) -/

theorem Warp.testWaits_of_none {w : Warp} (h : ∀ l, (w.lane l).waitAt = none) : w.testWaits = w := by
  simp [Warp.testWaits, h]

theorem Warp.stepFlag_lanes (w : Warp) : w.stepFlag.lanes = w.lanes := by
  unfold Warp.stepFlag
  split <;> rfl

/-- The warp with a group's lanes issued and some of them past an instruction of `n` words. -/
def Warp.advanced (w : Warp) (ls adv : List Nat) (n : Nat) : Warp :=
  (w.modLanes ls Lane.issued).modLanes adv fun x => { x with cur := x.cur.past n }

section
variable (w : Warp) (ls adv : List Nat) (n : Nat) (l : Nat)

theorem Warp.advanced_cur : ((w.advanced ls adv n).lane l).cur =
    if l ∈ adv ∧ l < w.lanes.length then (w.lane l).cur.past n else (w.lane l).cur := by
  have hissued : ((w.modLanes ls Lane.issued).lane l).cur = (w.lane l).cur := by
    rw [Warp.lane_modLanes]
    split <;> rfl
  rw [Warp.advanced, Warp.lane_modLanes, Warp.length_modLanes]
  split <;> simp only [hissued]

theorem Warp.advanced_waitAt : ((w.advanced ls adv n).lane l).waitAt = (w.lane l).waitAt := by
  have hissued : ((w.modLanes ls Lane.issued).lane l).waitAt = (w.lane l).waitAt := by
    rw [Warp.lane_modLanes]
    split <;> rfl
  rw [Warp.advanced, Warp.lane_modLanes]
  split <;> exact hissued

variable {w} (skid : Bool)

/-- Outside a handler, and with no lane that waits for a meeting, nothing else moves a lane. -/
theorem Warp.issued_lane (hm : w.trap.hm = false) (hwait : ∀ k, (w.lane k).waitAt = none) :
    (w.issued ls adv n skid).lane l = (w.advanced ls adv n).lane l := by
  refine congrArg (fun xs : List Lane => xs.getD l Lane.empty) ?_
  rw [Warp.issued, if_neg (by simp [hm])]
  refine (Warp.stepFlag_lanes _).trans ?_
  refine (congrArg Warp.lanes (Warp.testWaits_of_none ?_)).trans rfl
  exact fun k => (w.advanced_waitAt ls adv n k).trans (hwait k)

/-- In handler mode no lane moves. -/
theorem Warp.issued_cur_handler (hm : w.trap.hm = true) : ((w.issued ls adv n skid).lane l).cur = (w.lane l).cur := by
  rw [Warp.issued, if_pos hm]
  refine (congrArg Lane.cur (w.lane_modLanes ls Lane.handled l)).trans ?_
  split <;> rfl

theorem Warp.issued_hcur_handler (hm : w.trap.hm = true) : (w.issued ls adv n skid).trap.hcur = w.trap.hcur.past n := by
  rw [Warp.issued, if_pos hm]

end

/-- What a halt may change of a warp is its skid alone. -/
def Warp.exceptSkid (w : Warp) : Warp := { w with trap := { w.trap with skid := 0 } }

theorem WorkGroup.halted_warp_exceptSkid (g : WorkGroup) (wid k : Nat) :
    ((g.halted wid).warp k).map Warp.exceptSkid = (g.warp k).map Warp.exceptSkid := by
  unfold WorkGroup.halted
  split
  · simp only [WorkGroup.warp, List.find?_map, Option.map_map]
    rfl
  · rfl

theorem State.modWg_warp {s : State} {p wg wid : Nat} {g : WorkGroup} (hg : (s.work p).wg wg = some g) {f : WorkGroup → WorkGroup}
    (hf : ∀ g, (f g).id = g.id) : (s.modWg p wg f).warp p wg wid = (f g).warp wid := by
  rw [State.warp, State.modWg, State.modWork_work_same, Work.modWg_wg_same _ _ _ hf, hg]
  rfl

/-- The issuing warp at the end of its slot. -/
theorem retireTo_warp {s : State} {c : Ctx} {w : Warp} (hw : s.warp c.p c.wg c.wid = some w) (adv : List Nat) :
    ∃ v skid, (retireTo s c adv).warp c.p c.wg c.wid = some v ∧ v.exceptSkid = (w.issued c.lanes adv c.size skid).exceptSkid := by
  obtain ⟨g, hg, hwarp⟩ := Option.bind_eq_some_iff.mp hw
  have hissued : (g.modWarp c.wid fun w => w.issued c.lanes adv c.size (g.skids c.wid)).warp c.wid =
      some (w.issued c.lanes adv c.size (g.skids c.wid)) := by
    rw [WorkGroup.modWarp_warp_same _ _ _ fun w => (issued_same w _ _ _ _).1, hwarp, Option.map_some]
  rw [retireTo, State.modWg_warp hg]
  · simp only [hwarp]
    split
    · have hskid := WorkGroup.halted_warp_exceptSkid (g.modWarp c.wid fun w => w.issued c.lanes adv c.size (g.skids c.wid)) c.wid c.wid
      rw [hissued, Option.map_some] at hskid
      obtain ⟨v, hv, hsame⟩ := Option.map_eq_some_iff.mp hskid
      exact ⟨v, _, hv, hsame⟩
    · exact ⟨_, _, hissued, rfl⟩
  · intro g
    dsimp only
    split
    · split
      · exact (halted_warp _ _ 0).1
      · rfl
    · rfl

theorem Warp.sameRegs_of_exceptSkid {v w : Warp} (h : v.exceptSkid = w.exceptSkid) : v.SameRegs w :=
  ⟨congrArg (·.wid) h, congrArg (·.masks) h, congrArg (·.regs) h, congrArg (·.fill) h, congrArg (·.zeroed) h⟩

/-! ## Targets (R148) -/

/-- The lanes of some targets at theirs. -/
def Warp.jumpAll (w : Warp) (ts : List (Nat × VAddr)) : Warp := ts.foldl (fun y e => y.jump e.1 e.2) w

theorem Warp.jumpAll_sameRegs (w : Warp) (ts : List (Nat × VAddr)) : (w.jumpAll ts).SameRegs w :=
  foldl_modLanes_sameRegs (fun e : Nat × VAddr => [e.1]) (fun e x => { x with cur := Cursor.at e.2 }) ts w

theorem Warp.jumpAll_trap (w : Warp) (ts : List (Nat × VAddr)) : (w.jumpAll ts).trap = w.trap :=
  foldl_keeps (π := fun v : Warp => v.trap = w.trap) (f := fun v (e : Nat × VAddr) => v.jump e.1 e.2) (fun _ _ h => h) ts rfl

theorem Warp.jumpAll_length (w : Warp) (ts : List (Nat × VAddr)) : (w.jumpAll ts).lanes.length = w.lanes.length :=
  foldl_keeps (π := fun v : Warp => v.lanes.length = w.lanes.length) (fun v _ h => (v.length_modLanes _ _).trans h) ts rfl

theorem Warp.jump_lane_other (w : Warp) {l k : Nat} (t : VAddr) (h : k ≠ l) : (w.jump l t).lane k = w.lane k := by
  rw [Warp.jump, Warp.lane_modLanes, if_neg fun hk => h (List.mem_singleton.mp hk.1)]

theorem Warp.jump_waitAt (w : Warp) (l : Nat) (t : VAddr) (k : Nat) : ((w.jump l t).lane k).waitAt = (w.lane k).waitAt := by
  rw [Warp.jump, Warp.lane_modLanes]
  split <;> rfl

theorem Warp.jumpAll_waitAt (w : Warp) (ts : List (Nat × VAddr)) (k : Nat) : ((w.jumpAll ts).lane k).waitAt = (w.lane k).waitAt :=
  foldl_keeps (π := fun v : Warp => (v.lane k).waitAt = (w.lane k).waitAt) (fun v e h => (v.jump_waitAt e.1 e.2 k).trans h) ts rfl

theorem Warp.jumpAll_lane_other {k : Nat} : ∀ (ts : List (Nat × VAddr)) (w : Warp), k ∉ ts.map (·.1) → (w.jumpAll ts).lane k = w.lane k
  | [], _, _ => rfl
  | e :: ts, w, h => by
    obtain ⟨hne, hnot⟩ := not_or.mp (mt List.mem_cons.mpr h)
    exact (Warp.jumpAll_lane_other ts (w.jump e.1 e.2) hnot).trans (w.jump_lane_other e.2 hne)

theorem Warp.jumpAll_cur_of_mem : ∀ (ts : List (Nat × VAddr)) (w : Warp), (ts.map (·.1)).Nodup → ∀ e ∈ ts, e.1 < w.lanes.length →
    ((w.jumpAll ts).lane e.1).cur = Cursor.at e.2
  | x :: ts, w, hnodup, e, he, hlt => by
    obtain ⟨hnot, hnodup⟩ := List.nodup_cons.mp hnodup
    rcases List.mem_cons.mp he with rfl | he
    · refine (congrArg Lane.cur (Warp.jumpAll_lane_other ts (w.jump e.1 e.2) hnot)).trans ?_
      rw [Warp.jump, Warp.lane_modLanes, if_pos ⟨List.mem_singleton_self _, hlt⟩]
    · exact Warp.jumpAll_cur_of_mem ts (w.jump x.1 x.2) hnodup e he (by rwa [Warp.jump, Warp.length_modLanes])

/-! ## What a transfer does -/

section
variable {s : State} {c : Ctx} {w : Warp} (hw : s.warp c.p c.wg c.wid = some w)
include hw

/-- In handler mode the handler's PC alone moves (R372). -/
theorem transfer_handler (hm : w.trap.hm = true) (ts : List (Nat × VAddr)) :
    ∃ v, (transfer s c w ts).warp c.p c.wg c.wid = some v ∧ v.SameRegs w ∧ (∀ l, (v.lane l).cur = (w.lane l).cur) ∧
      v.trap.hcur = (match ts with
        | [] => w.trap.hcur.past c.size
        | e :: _ => Cursor.at e.2) := by
  obtain ⟨v, skid, hv, hsame⟩ := retireTo_warp hw c.lanes
  have hregs := SameRegs.trans (Warp.sameRegs_of_exceptSkid hsame) (issued_same w c.lanes c.lanes c.size skid)
  have hcur (l : Nat) : (v.lane l).cur = (w.lane l).cur :=
    (congrArg (fun u : Warp => (u.lane l).cur) hsame).trans (Warp.issued_cur_handler c.lanes c.lanes c.size l skid hm)
  rw [transfer, if_pos hm]
  cases ts with
  | nil => exact ⟨v, hv, hregs, hcur, (congrArg (·.trap.hcur) hsame).trans (Warp.issued_hcur_handler c.lanes c.lanes c.size skid hm)⟩
  | cons e ts =>
    refine ⟨{ v with trap := { v.trap with hcur := Cursor.at e.2 } }, ?_, hregs, hcur, rfl⟩
    rw [State.modWarp_warp_same _ _ _ _ _ (by exact fun _ => rfl)]
    exact congrArg (Option.map _) hv

/-- Outside it each target lane stands at its target, each other lane of the group past the instruction, and the rest where they stood. -/
theorem transfer_lanes (hm : w.trap.hm = false) (hwait : ∀ l, (w.lane l).waitAt = none) (hlt : ∀ l ∈ c.lanes, l < w.lanes.length)
    {ts : List (Nat × VAddr)} (hnodup : (ts.map (·.1)).Nodup) (hts : ∀ e ∈ ts, e.1 ∈ c.lanes) :
    ∃ v, (transfer s c w ts).warp c.p c.wg c.wid = some v ∧ v.SameRegs w ∧ (∀ e ∈ ts, (v.lane e.1).cur = Cursor.at e.2) ∧
      (∀ l ∈ c.lanes, l ∉ ts.map (·.1) → (v.lane l).cur = (w.lane l).cur.past c.size) ∧
      ∀ l, l ∉ c.lanes → (v.lane l).cur = (w.lane l).cur := by
  let adv := c.lanes.filter fun l => !(ts.map (·.1)).contains l
  have hjump : (s.modWarp c.p c.wg c.wid fun w => w.jumpAll ts).warp c.p c.wg c.wid = some (w.jumpAll ts) := by
    rw [State.modWarp_warp_same _ _ _ _ _ fun w => (w.jumpAll_sameRegs ts).1, hw, Option.map_some]
  obtain ⟨v, skid, hv, hsame⟩ := retireTo_warp hjump adv
  have hcur (l : Nat) : (v.lane l).cur =
      if l ∈ adv ∧ l < (w.jumpAll ts).lanes.length then ((w.jumpAll ts).lane l).cur.past c.size else ((w.jumpAll ts).lane l).cur := by
    refine (congrArg (fun u : Warp => (u.lane l).cur) hsame).trans ?_
    refine (congrArg Lane.cur ?_).trans ((w.jumpAll ts).advanced_cur c.lanes adv c.size l)
    exact Warp.issued_lane c.lanes adv c.size l skid ((congrArg TrapState.hm (w.jumpAll_trap ts)).trans hm)
      fun k => (w.jumpAll_waitAt ts k).trans (hwait k)
  have hadv (l : Nat) : l ∈ adv ↔ l ∈ c.lanes ∧ l ∉ ts.map (·.1) := by simp [adv]
  rw [transfer, if_neg (by simp [hm])]
  refine ⟨v, hv, SameRegs.trans (Warp.sameRegs_of_exceptSkid hsame) (SameRegs.trans (issued_same ..) (w.jumpAll_sameRegs ts)),
    fun e he => ?_, fun l hl hnot => ?_, fun l hl => ?_⟩
  · rw [hcur, if_neg fun h => ((hadv _).mp h.1).2 (List.mem_map_of_mem he),
      Warp.jumpAll_cur_of_mem ts w hnodup e he (hlt _ (hts e he))]
  · rw [hcur, if_pos ⟨(hadv l).mpr ⟨hl, hnot⟩, (w.jumpAll_length ts).symm ▸ hlt l hl⟩, Warp.jumpAll_lane_other ts w hnot]
  · have hnot : l ∉ ts.map (·.1) := fun h => by
      obtain ⟨e, he, rfl⟩ := List.mem_map.mp h
      exact hl (hts e he)
    rw [hcur, if_neg fun h => hl ((hadv l).mp h.1).1, Warp.jumpAll_lane_other ts w hnot]

end

/-! ## What the transfer instructions answer (R166 to R170) -/

theorem returnAddress_eq (c : Ctx) (w : Warp) :
    returnAddress c w = BitVec.ofNat 64 (((w.pcOf c).toNat + 4 * c.size) % 2 ^ 56) := by
  have hlt : ((w.pcOf c).toNat + 4 * c.size) % 2 ^ 56 < 2 ^ 64 := Nat.lt_trans (Nat.mod_lt _ (by decide)) (by decide)
  refine BitVec.eq_of_toNat_eq ?_
  rw [returnAddress, BitVec.toNat_setWidth_of_le (by decide), BitVec.toNat_add, BitVec.toNat_ofNat, BitVec.toNat_ofNat, Nat.add_mod_mod,
    Nat.mod_eq_of_lt hlt]

theorem branchTarget_eq (c : Ctx) (w : Warp) (n o : Nat) : branchTarget c w n o =
    BitVec.ofInt 56 ((w.pcOf c).toNat + 4 * (if o < 2 ^ (n - 1) then (o : Int) else (o : Int) - 2 ^ n)) := by
  rw [branchTarget, displaced_eq, signed_eq]

theorem nonzero_eq (x : Word) : nonzero x = decide (x ≠ 0) := Bool.eq_iff_iff.mpr (by simp [nonzero])
theorem not_nonzero_eq (x : Word) : (!nonzero x) = decide (x = 0) := by simp [nonzero_eq]

/-- Lanes read their own operands, or lane0's. -/
theorem mem_readers {c : Ctx} (h : c.lanes ≠ []) (u : Bool) (k : Nat) : k ∈ c.readers u ↔ ∃ l ∈ c.lanes, c.readerOf u l = k := by
  cases u with
  | false => simp [Ctx.readers, Ctx.readerOf]
  | true =>
    have hl0 : ∃ l, l ∈ c.lanes := List.exists_mem_of_ne_nil _ h
    simp [Ctx.readers, Ctx.readerOf, hl0, eq_comm]

/-! The checks of targets (R169, R170). -/

theorem targetCheck_passes {c : Ctx} {ts : List DWord} (h : ∀ t ∈ ts, t.toNat < 2 ^ 56 ∧ t.toNat % 4 = 0) : targetCheck c ts = none := by
  have hfind : (ts.find? fun t => decide (2 ^ 56 ≤ t.toNat)) = none :=
    List.find?_eq_none.mpr fun t ht => by simpa using (h t ht).1
  have hany : (ts.any fun t => t.toNat % 4 != 0) = false := List.any_eq_false.mpr fun t ht => by simp [(h t ht).2]
  rw [targetCheck, hfind]
  simp only [hany, Bool.false_eq_true, if_false]

theorem targetCheck_beyond (c : Ctx) {ts : List DWord} (h : ∃ t ∈ ts, 2 ^ 56 ≤ t.toNat) :
    ∃ t ∈ ts, 2 ^ 56 ≤ t.toNat ∧ targetCheck c ts = some (causeAddress, t) := by
  cases hfind : ts.find? fun t => decide (2 ^ 56 ≤ t.toNat) with
  | none =>
    obtain ⟨t, ht, hle⟩ := h
    exact absurd (decide_eq_true hle) (List.find?_eq_none.mp hfind t ht)
  | some t => exact ⟨t, List.mem_of_find?_eq_some hfind, by simpa using List.find?_some hfind, by rw [targetCheck, hfind]⟩

theorem targetCheck_misaligned (c : Ctx) {ts : List DWord} (hlt : ∀ t ∈ ts, t.toNat < 2 ^ 56) (h : ∃ t ∈ ts, t.toNat % 4 ≠ 0) :
    targetCheck c ts = some (causeOperand, c.wordTval) := by
  have hfind : (ts.find? fun t => decide (2 ^ 56 ≤ t.toNat)) = none := List.find?_eq_none.mpr fun t ht => by simpa using hlt t ht
  have hany : (ts.any fun t => t.toNat % 4 != 0) = true := List.any_eq_true.mpr (by simpa using h)
  rw [targetCheck, hfind]
  simp only [hany, if_true]

/-- The state in which an indirect transfer has written its link, if it has one. -/
def State.linked (s : State) (c : Ctx) (w : Warp) (link : List Nat) : State :=
  if link.isEmpty then s else writeLanes s c (c.lanes.map fun l => (l, link.flatMap fun d => pairOf d (returnAddress c w)))

section
variable {s : State} {c : Ctx} {g : WorkGroup} {w : Warp} (hi : Issues s c g w)
include hi

theorem execBra_answers (u : Bool) (o : Nat) :
    execBra u o s = .next (transfer s c w (c.lanes.map fun l => (l, branchTarget c w 25 o))) := by
  rw [execBra, withGroup_issues hi]

theorem branchIf_answers {u : Bool} {a : Nat} (ho : OperandsOk c w (c.readers (oneDecides w u)) [] [(a, 1)]) (o : Nat)
    (test : Word → Bool) : branchIf u a o test s = .next (transfer s c w
      ((c.lanes.filter fun l => test (w.reg a (c.readerOf (oneDecides w u) l))).map fun l => (l, branchTarget c w 18 o))) := by
  rw [branchIf, withGroup_issues hi]
  simp only [withRegs_ok ho]

theorem execCall_answers {d i : Nat} (hrem : w.remOf c = 2) (halign : i % 4 = 0) (ho : OperandsOk c w [] [(d, 2)] []) (u : Bool) :
    execCall u d i s = .next (transfer (writeLanes s c (c.lanes.map fun l => (l, pairOf d (returnAddress c w)))) c w
      (c.lanes.map fun l => (l, displaced (w.pcOf c) (signedLit i)))) := by
  rw [execCall, withGroup_issues hi, if_neg (not_not.mpr hrem), if_neg (not_not.mpr halign), withRegs_ok ho]

theorem execCall_elsewhere (hrem : w.remOf c ≠ 2) (u : Bool) (d i : Nat) : execCall u d i s = trapWord s c causeIllegal := by
  rw [execCall, withGroup_issues hi, if_pos hrem]

theorem execCallr_elsewhere (hrem : w.remOf c ≠ 1) (u : Bool) (d a : Nat) : execCallr u d a s = trapWord s c causeIllegal := by
  rw [execCallr, indirect, withGroup_issues hi]
  exact if_pos (by simp [hrem])

/-- An indirect transfer, once its place and its operands pass, by the check of its targets. -/
theorem indirect_checked {u : Bool} {link : List Nat} {a : Nat} (hrem : link = [] ∨ w.remOf c = 1)
    (ho : OperandsOk c w (c.readers (oneDecides w u)) (link.map fun d => (d, 2)) [(a, 2)]) : indirect u link a s =
      .next (match targetCheck c ((c.readers (oneDecides w u)).map (w.pair a)) with
        | some t => raiseTrap s c [t]
        | none => transfer (s.linked c w link) c w
            (c.lanes.map fun l => (l, (w.pair a (c.readerOf (oneDecides w u) l)).setWidth 56))) := by
  have hplace : ¬(!link.isEmpty && w.remOf c != 1) = true := by
    rcases hrem with rfl | hrem
    · simp
    · simp [hrem]
  rw [indirect, withGroup_issues hi]
  simp only [if_neg hplace, withRegs_ok ho]
  cases targetCheck c ((c.readers (oneDecides w u)).map (w.pair a)) <;> rfl

/-- What an indirect transfer answers, by the targets of the group's lanes. -/
theorem indirect_answers {i : Instr} {u : Bool} {link : List Nat} {a : Nat} (hexec : exec i s = indirect u link a s)
    (hrem : link = [] ∨ w.remOf c = 1)
    (ho : OperandsOk c w (c.readers (oneDecides w u)) (link.map fun d => (d, 2)) [(a, 2)]) :
    let target : Nat → Nat := fun l => (w.pair a (c.readerOf (oneDecides w u) l)).toNat
    ((∀ l ∈ c.lanes, target l < 2 ^ 56 ∧ target l % 4 = 0) → c.lanes ≠ [] →
      exec i s = .next (transfer (s.linked c w link) c w (c.lanes.map fun l => (l, BitVec.ofNat 56 (target l))))) ∧
    ((∃ l ∈ c.lanes, 2 ^ 56 ≤ target l) → ∃ l ∈ c.lanes, 2 ^ 56 ≤ target l ∧
      exec i s = .next (raiseTrap s c [(17, BitVec.ofNat 64 (target l))])) ∧
    ((∀ l ∈ c.lanes, target l < 2 ^ 56) → (∃ l ∈ c.lanes, target l % 4 ≠ 0) →
      exec i s = .next (raiseTrap s c [(1, BitVec.ofNat 64 (c.word % 2 ^ 32))])) := by
  intro target
  have hmem (hne : c.lanes ≠ []) (t : DWord) : t ∈ (c.readers (oneDecides w u)).map (w.pair a) ↔
      ∃ l ∈ c.lanes, w.pair a (c.readerOf (oneDecides w u) l) = t := by
    simp [mem_readers hne]
  rw [hexec, indirect_checked hi hrem ho]
  refine ⟨fun hall hne => ?passes, fun ⟨l, hl, hbeyond⟩ => ?beyond, fun hall ⟨l, hl, hodd⟩ => ?misaligned⟩
  case passes =>
    rw [targetCheck_passes fun t ht => by
      obtain ⟨l, hl, rfl⟩ := (hmem hne t).mp ht
      exact hall l hl]
    simp only [target, BitVec.ofNat_toNat]
  case beyond =>
    have hne := List.ne_nil_of_mem hl
    obtain ⟨t, ht, hle, hcheck⟩ := targetCheck_beyond c ⟨_, (hmem hne _).mpr ⟨l, hl, rfl⟩, hbeyond⟩
    obtain ⟨k, hk, rfl⟩ := (hmem hne t).mp ht
    refine ⟨k, hk, hle, ?_⟩
    rw [hcheck, BitVec.ofNat_toNat, BitVec.setWidth_eq]
    rfl
  case misaligned =>
    have hne := List.ne_nil_of_mem hl
    rw [targetCheck_misaligned c (fun t ht => by
      obtain ⟨k, hk, rfl⟩ := (hmem hne t).mp ht
      exact hall k hk) ⟨_, (hmem hne _).mpr ⟨l, hl, rfl⟩, hodd⟩]
    rfl

end

/-! ## The obligation -/

/-- Settles O18: each instruction by its answer, targets and links as the spec writes them; a transfer by the end of the issue slot. -/
theorem transfersComplete : Obligations.TransfersComplete := by
  unfold Obligations.TransfersComplete
  refine ⟨?instructions, ?transfer⟩
  case instructions =>
    intro u d a o s c g w hi here to_ one links word
    have hlinks : links = writeLanes s c (c.lanes.map fun l => (l, pairOf d (returnAddress c w))) := by rw [returnAddress_eq]
    refine ⟨fun _ => ?bra, fun _ ho => ?branches, fun hlt halign hrem ho => ?call, fun hrem => execCall_elsewhere hi hrem u d o,
      fun hrem => execCallr_elsewhere hi hrem u d a, fun e he hrem ho => ?indirect⟩
    case bra => rw [exec_bra, execBra_answers hi, branchTarget_eq]
    case branches =>
      intro t
      have ht : branchTarget c w 18 o = t := branchTarget_eq c w 18 o
      rw [exec_bz, exec_bnz, execBz, execBnz, branchIf_answers hi ho, branchIf_answers hi ho, ht]
      simp only [not_nonzero_eq]
      simp only [nonzero_eq]
      exact ⟨rfl, rfl⟩
    case call => rw [exec_call, execCall_answers hi hrem halign ho, ← hlinks, displaced_eq, signedLit_eq hlt]
    case indirect =>
      have hshape : exec e.1 s = indirect u e.2.1 a s ∧ e.2.2 = s.linked c w e.2.1 := by
        revert e
        simp only [List.forall_mem_cons, List.not_mem_nil, false_imp_iff, implies_true, and_true]
        refine ⟨fun _ _ => ⟨exec_callr u d a s, ?_⟩, fun _ _ => ⟨exec_ret u a s, rfl⟩, fun _ _ => ⟨exec_jmpr u a s, rfl⟩⟩
        simp [State.linked, hlinks]
      rw [hshape.2]
      exact indirect_answers hi hshape.1 hrem ho
  case transfer =>
    intro s c g w ts hi hnodup hts hlt hwait
    have hw : s.warp c.p c.wg c.wid = some w := Option.bind_eq_some_iff.mpr ⟨g, hi.2⟩
    cases hm : w.trap.hm with
    | true =>
      obtain ⟨v, hv, ⟨-, hmasks, hregs, hfill, hzeroed⟩, hcur⟩ := transfer_handler hw hm ts
      exact ⟨v, hv, hmasks, reg_congr hregs hfill hzeroed, hcur⟩
    | false =>
      obtain ⟨v, hv, ⟨-, hmasks, hregs, hfill, hzeroed⟩, hcur⟩ := transfer_lanes hw hm (Warp.waitAt_lane hwait) hlt hnodup hts
      exact ⟨v, hv, hmasks, reg_congr hregs hfill hzeroed, hcur⟩

end Sys2Proof.Machine
end

section
/-! Retirement (R153, R171, R267 to R269, R372): what EXIT, GROUP, JOIN and PARK answer once no result of their lanes is outstanding, and
the obligation put together from them. -/
namespace Sys2Proof.Machine

theorem pendingResults_eq_false_iff {c : Ctx} {w : Warp} : pendingResults c w = false ↔ NoResults c w := by
  simp [pendingResults, NoResults]

/-! ## Releases -/

theorem releasing_open {s : State} {c : Ctx} {ls : List Nat} (h : ∃ l ∈ ls, s.laneOpen c.p c.wg c.wid l = true) (k : Unit → Out) :
    releasing s c ls k = .next (stall s c) := if_pos (List.any_eq_true.mpr h)

theorem releasing_closed {s : State} {c : Ctx} {ls : List Nat} (h : ∀ l ∈ ls, s.laneOpen c.p c.wg c.wid l = false) (k : Unit → Out) :
    releasing s c ls k = k () := if_neg (by simpa using h)

/-! ## The three shapes -/

/-- A group's lanes stop being threads, and the slot ends in that. -/
def State.gone (s : State) (c : Ctx) (st : LaneStatus) : State :=
  (retireTo (s.modWarp c.p c.wg c.wid fun v => v.retireLanes c.lanes st) c []).settle c.p

/-- The operands of a GROUP, or of a JOIN with the register of its table id, in one lane. -/
def Warp.relOp (w : Warp) (join : Bool) (k rid sc : Nat) (a : Option Nat) (l : Nat) : RelOp :=
  ⟨join, k, rid, sc, a.elim 0 fun r => (w.reg r l).toNat⟩

/-- Checks that read lanes' registers find no fault on fewer lanes. -/
theorem operandsOk_noLanes {c : Ctx} {w : Warp} {ls : List Nat} {writes reads : List RegUse} (h : OperandsOk c w ls writes reads) :
    OperandsOk c w [] writes reads := ⟨h.1, fun _ hl => nomatch hl⟩

section
variable {s : State} {c : Ctx} {g : WorkGroup} {w : Warp} (hi : Issues s c g w)
include hi

/-! In handler mode each raises illegal-instruction; with an outstanding result each waits. -/

theorem execExit_handler (hm : w.trap.hm = true) : execExit s = trapWord s c causeIllegal := by
  rw [execExit, withGroup_issues hi, if_pos hm]

theorem relationOp_handler (hm : w.trap.hm = true) (join : Bool) (bad : Option Nat) (sc : Nat) (a : Option Nat) (k rid : Nat) :
    relationOp join bad sc a k rid s = trapWord s c causeIllegal := by
  rw [relationOp, withGroup_issues hi, if_pos hm]

theorem parkOp_handler (hm : w.trap.hm = true) (bad : Option Nat) (sc a : Nat) : parkOp bad sc a s = trapWord s c causeIllegal := by
  rw [parkOp, withGroup_issues hi, if_pos hm]

section
variable (hm : w.trap.hm = false) (hres : ¬NoResults c w)
include hm hres

theorem execExit_awaits : execExit s = .next (awaitOwn s c) := by
  rw [execExit, withGroup_issues hi, if_neg (by simp [hm]), if_pos (by simpa using mt pendingResults_eq_false_iff.mp hres)]

theorem relationOp_awaits (join : Bool) (bad : Option Nat) (sc : Nat) (a : Option Nat) (k rid : Nat) :
    relationOp join bad sc a k rid s = .next (awaitOwn s c) := by
  rw [relationOp, withGroup_issues hi, if_neg (by simp [hm]), if_pos (by simpa using mt pendingResults_eq_false_iff.mp hres)]

theorem parkOp_awaits (bad : Option Nat) (sc a : Nat) : parkOp bad sc a s = .next (awaitOwn s c) := by
  rw [parkOp, withGroup_issues hi, if_neg (by simp [hm]), if_pos (by simpa using mt pendingResults_eq_false_iff.mp hres)]

end

section
variable (hm : w.trap.hm = false) (hres : NoResults c w)
include hm hres

theorem execExit_retires : execExit s = .next (s.gone c .exited) := by
  rw [execExit, withGroup_issues hi, if_neg (by simp [hm]), if_neg (by simp [pendingResults_eq_false_iff.mpr hres])]
  rfl

variable {x : Launch} (hx : (s.work c.p).launch g.seq = some x) {sch : Schema} {sc : Nat} (hbeyond : sch.beyond w = none)
include hx hbeyond

/-- GROUP or JOIN past its operand checks: a release, and its lanes' arrivals. -/
theorem relationOp_checked {k : Nat} (hsch : schemaFor x g sc (some k) = some sch) {a : Option Nat}
    (ho : OperandsOk c w [] [] (a.toList.map fun r => (r, 1))) (join : Bool) (rid : Nat) :
    relationOp join none sc a k rid s = releasing s c c.lanes fun _ =>
      let e := arriveAll (fun st l => arriveLane c g w sch a (w.relOp join k rid sc a l) st l) s c.lanes
      let s1 := e.1.modWarp c.p c.wg c.wid fun w => w.retireLanes e.2.1 .arrived
      let s2 := if e.2.2.isEmpty then retireTo s1 c []
        else (raiseTrap s1 c e.2.2).modWarp c.p c.wg c.wid Warp.testWaits
      .next (s2.settle c.p) := by
  rw [relationOp, withGroup_issues hi, if_neg (by simp [hm]), if_neg (by simp [pendingResults_eq_false_iff.mpr hres]), if_neg (by simp)]
  simp only [hx, hsch, withRegs_ok ho, hbeyond]
  cases a <;> rfl

/-- PARK past its operand checks: a release, and its lanes' rows. -/
theorem parkOp_checked (hsch : schemaFor x g sc none = some sch) {a : Nat} (ho : OperandsOk c w [] [] [(a, 1)]) :
    parkOp none sc a s = releasing s c c.lanes fun _ =>
      let e := parkAll (parkLane c w sch sc a) s c.lanes
      let s1 := e.1.modWarp c.p c.wg c.wid fun w => w.retireLanes e.2.1 .parked
      let s2 := match e.2.2 with
        | none => retireTo s1 c []
        | some t => (raiseTrap s1 c [t]).modWarp c.p c.wg c.wid Warp.testWaits
      .next (s2.settle c.p) := by
  rw [parkOp, withGroup_issues hi, if_neg (by simp [hm]), if_neg (by simp [pendingResults_eq_false_iff.mpr hres]), if_neg (by simp)]
  simp only [hx, hsch, withRegs_ok ho, hbeyond] <;> rfl

theorem relationOp_stalls (hopen : ∃ l ∈ c.lanes, s.laneOpen c.p c.wg c.wid l = true) {k : Nat}
    (hsch : schemaFor x g sc (some k) = some sch) {a : Option Nat} (ho : OperandsOk c w [] [] (a.toList.map fun r => (r, 1)))
    (join : Bool) (rid : Nat) : relationOp join none sc a k rid s = .next (stall s c) := by
  rw [relationOp_checked hi hm hres hx hbeyond hsch ho, releasing_open hopen]

theorem parkOp_stalls (hopen : ∃ l ∈ c.lanes, s.laneOpen c.p c.wg c.wid l = true) (hsch : schemaFor x g sc none = some sch) {a : Nat}
    (ho : OperandsOk c w [] [] [(a, 1)]) : parkOp none sc a s = .next (stall s c) := by
  rw [parkOp_checked hi hm hres hx hbeyond hsch ho, releasing_open hopen]

variable (hclosed : ∀ l ∈ c.lanes, s.laneOpen c.p c.wg c.wid l = false)
include hclosed

/-- GROUP or JOIN of which every lane arrives. -/
theorem relationOp_retires {k : Nat} (hsch : schemaFor x g sc (some k) = some sch) {a : Option Nat}
    (ho : OperandsOk c w [] [] (a.toList.map fun r => (r, 1))) {join : Bool} {rid : Nat} {s1 : State}
    (hall : arriveAll (fun st l => arriveLane c g w sch a (w.relOp join k rid sc a l) st l) s c.lanes = (s1, c.lanes, [])) :
    relationOp join none sc a k rid s = .next (s1.gone c .arrived) := by
  rw [relationOp_checked hi hm hres hx hbeyond hsch ho, releasing_closed hclosed]
  simp only [hall]
  rfl

/-- PARK of which every lane appends its row. -/
theorem parkOp_retires (hsch : schemaFor x g sc none = some sch) {a : Nat} (ho : OperandsOk c w [] [] [(a, 1)]) {s1 : State}
    (hall : parkAll (parkLane c w sch sc a) s c.lanes = (s1, c.lanes, none)) : parkOp none sc a s = .next (s1.gone c .parked) := by
  rw [parkOp_checked hi hm hres hx hbeyond hsch ho, releasing_closed hclosed]
  simp only [hall]
  rfl

end

end

/-! ## The wide forms (R267) -/

/-- A literal of level and relation id has no other bits, so that the wide form acts as the short one. -/
theorem execGroupWide_eq {k rid : Nat} (hk : k < 8) (hrid : rid < 256) (u : Bool) (sc : Nat) (s : State) :
    execGroupWide u sc (256 * k + rid) s = execGroup u sc k rid s := by
  have hlit : ¬2 ^ 11 ≤ 256 * k + rid := by omega
  rw [execGroupWide, wideBits, if_neg hlit, Nat.mul_add_div (by decide), Nat.div_eq_of_lt hrid, Nat.mul_add_mod, Nat.mod_eq_of_lt hrid]
  rfl

theorem execJoinWide_eq {k rid : Nat} (hk : k < 8) (hrid : rid < 256) (u : Bool) (sc a : Nat) (s : State) :
    execJoinWide u sc a (256 * k + rid) s = execJoin u sc a k rid s := by
  have hlit : ¬2 ^ 11 ≤ 256 * k + rid := by omega
  rw [execJoinWide, wideBits, if_neg hlit, Nat.mul_add_div (by decide), Nat.div_eq_of_lt hrid, Nat.mul_add_mod, Nat.mod_eq_of_lt hrid]
  rfl

theorem execParkWide_zero (u : Bool) (sc a : Nat) (s : State) : execParkWide u sc a 0 s = execPark u sc a s := rfl

/-! ## The obligation -/

/-- Settles O34: each instruction by its shape's answer, the wide forms as the short ones. -/
theorem relationRetirement : Obligations.RelationRetirement := by
  unfold Obligations.RelationRetirement
  intro u sc a k rid s c g w hi hrid hk word gone all
  have hgroup := execGroupWide_eq hk hrid u sc s
  have hjoin := execJoinWide_eq hk hrid u sc a s
  refine ⟨fun hm => ?handler, fun hm hres => ?awaits, fun hm hres => ⟨execExit_retires hi hm hres, fun x hx => ⟨?stalls, ?retires⟩⟩⟩
  case handler =>
    simp only [all, List.forall_mem_cons, List.not_mem_nil, false_imp_iff, implies_true, and_true]
    exact ⟨execExit_handler hi hm, relationOp_handler hi hm .., relationOp_handler hi hm .., relationOp_handler hi hm ..,
      relationOp_handler hi hm .., parkOp_handler hi hm .., parkOp_handler hi hm ..⟩
  case awaits =>
    simp only [all, List.forall_mem_cons, List.not_mem_nil, false_imp_iff, implies_true, and_true]
    exact ⟨execExit_awaits hi hm hres, relationOp_awaits hi hm hres .., relationOp_awaits hi hm hres .., relationOp_awaits hi hm hres ..,
      relationOp_awaits hi hm hres .., parkOp_awaits hi hm hres .., parkOp_awaits hi hm hres ..⟩
  case stalls =>
    intro hopen ho
    have ho' := operandsOk_noLanes ho
    refine ⟨fun sch hsch hbeyond => ?_, fun sch hsch hbeyond => ?_⟩
    · have hg := relationOp_stalls hi hm hres hx hbeyond hopen hsch (a := none) ⟨by simp, by simp⟩ false rid
      have hj := relationOp_stalls hi hm hres hx hbeyond hopen hsch (a := some a) ho' true rid
      simp only [List.forall_mem_cons, List.not_mem_nil, false_imp_iff, implies_true, and_true]
      exact ⟨hg, hgroup.trans hg, hj, hjoin.trans hj⟩
    · have hp := parkOp_stalls hi hm hres hx hbeyond hopen hsch ho'
      simp only [List.forall_mem_cons, List.not_mem_nil, false_imp_iff, implies_true, and_true]
      exact ⟨hp, (execParkWide_zero u sc a s).trans hp⟩
  case retires =>
    intro hclosed
    refine ⟨fun sch hsch hbeyond => ⟨fun s1 hall => ?_, fun s1 ho hall => ?_⟩, fun sch hsch hbeyond ho s1 hall => ?_⟩
    · have hg := relationOp_retires hi hm hres hx hbeyond hclosed hsch (a := none) ⟨by simp, by simp⟩ hall
      exact ⟨hg, hgroup.trans hg⟩
    · have hj := relationOp_retires hi hm hres hx hbeyond hclosed hsch (a := some a) (operandsOk_noLanes ho) hall
      exact ⟨hj, hjoin.trans hj⟩
    · have hp := parkOp_retires hi hm hres hx hbeyond hclosed hsch (operandsOk_noLanes ho) hall
      exact ⟨hp, (execParkWide_zero u sc a s).trans hp⟩

end Sys2Proof.Machine
end

section
/-! Floating point (R199 to R201, R205): what an FP32 code reads as by its fields, each result function as the spec writes it, and the
obligation put together from them. -/
namespace Sys2Proof.Machine

/-! ## FP32 codes (R109) -/

/-- What a word reads as in FP32, by its exponent field and its mantissa field. -/
theorem f32_eq (x : Word) : f32 x =
    if x.toNat / 2 ^ 23 % 256 = 255 then if x.toNat % 2 ^ 23 = 0 then .inf x.msb else .nan
    else if x.toNat / 2 ^ 23 % 256 = 0 then .fin x.msb (x.toNat % 2 ^ 23) (-149)
    else .fin x.msb (2 ^ 23 + x.toNat % 2 ^ 23) (-149 + (x.toNat / 2 ^ 23 % 256 : Nat) - 1) := by
  have hsign : decide (x.toNat / 2 ^ (8 + 23) % 2 = 1) = x.msb := by
    have hlt := x.isLt
    rw [BitVec.msb_eq_decide, decide_eq_decide]
    omega
  rw [← hsign]
  by_cases h : x.toNat / 2 ^ 23 % 256 = 255
  · rw [if_pos h, f32, Fmt.value,
      show decide (x.toNat / 2 ^ Fmt.f32.mb % 2 ^ Fmt.f32.eb = 2 ^ Fmt.f32.eb - 1) = true from decide_eq_true h]
    rfl
  · rw [if_neg h, f32, Fmt.value,
      show decide (x.toNat / 2 ^ Fmt.f32.mb % 2 ^ Fmt.f32.eb = 2 ^ Fmt.f32.eb - 1) = false from decide_eq_false h]
    rfl

/-! ## FMIN and FMAX (R199) -/

/-- The order of codes: -0 below +0, and codes of one sign by their magnitudes. -/
theorem f32Key_le_iff (x y : Word) : f32Key x ≤ f32Key y ↔
    if x.msb ≠ y.msb then x.msb = true else if x.msb then y.toNat ≤ x.toNat else x.toNat ≤ y.toNat := by
  have hx := x.isLt
  have hy := y.isLt
  have hxmsb := x.msb_eq_decide
  have hymsb := y.msb_eq_decide
  cases hsx : x.msb <;> cases hsy : y.msb <;> simp [f32Key, hsx, hsy] at hxmsb hymsb ⊢ <;> omega

theorem fmin_eq (x y : Word) : fmin x y =
    if (f32 x).isNan ∨ (f32 y).isNan then 0x7FC00000 else if x.msb ≠ y.msb then (if x.msb then x else y)
    else if x.msb then (if y.toNat ≤ x.toNat then x else y) else if x.toNat ≤ y.toNat then x else y := by
  simp only [fmin, f32Key_le_iff, Bool.or_eq_true]
  split_ifs <;> rfl

theorem fmax_eq (x y : Word) : fmax x y =
    if (f32 x).isNan ∨ (f32 y).isNan then 0x7FC00000 else if x.msb ≠ y.msb then (if x.msb then y else x)
    else if x.msb then (if y.toNat ≤ x.toNat then y else x) else if x.toNat ≤ y.toNat then y else x := by
  simp only [fmax, f32Key_le_iff, Bool.or_eq_true]
  split_ifs <;> rfl

/-! ## FCMP and FCLASS (R200, R201) -/

theorem truth_not (b : Bool) : truth (!b) = if b then 0 else 1 := by cases b <;> rfl
theorem truth_or (a b : Bool) : truth (a || b) = if a ∨ b then 1 else 0 := by simp only [truth, Bool.or_eq_true]
theorem truth_not_or (a b : Bool) : truth (!(a || b)) = if a ∨ b then 0 else 1 := by simp only [truth_not, Bool.or_eq_true]

theorem fclassBit_eq (x : Word) :
    let ex := x.toNat / 2 ^ 23 % 256
    let mn := x.toNat % 2 ^ 23
    fclassBit x = if ex = 255 ∧ mn ≠ 0 then (if x.getLsbD 22 then 8 else 9)
      else if ex = 255 then (if x.msb then 0 else 7)
      else if ex ≠ 0 then (if x.msb then 1 else 6)
      else if mn ≠ 0 then (if x.msb then 2 else 5) else (if x.msb then 3 else 4) := by
  have hmn : x.toNat % 2 ^ 23 < 2 ^ 23 := Nat.mod_lt _ (by decide)
  rw [fclassBit, f32_eq x]
  generalize x.toNat / 2 ^ 23 % 256 = ex
  generalize x.toNat % 2 ^ 23 = mn at hmn ⊢
  by_cases htop : ex = 255
  · by_cases hzero : mn = 0
    · simp [htop, hzero]
    · simp [htop, hzero]
  · by_cases hsub : ex = 0
    · by_cases hzero : mn = 0
      · simp [hsub, hzero]
      · simp [hsub, hzero, show mn < 8388608 from hmn]
    · simp [htop, hsub]

/-! ## Packed BF16 (R205) -/

/-- Each half by a function of the values in that half. -/
theorem halves_eq (op : FVal → FVal → FVal → FVal) (x y z : Word) :
    let hv : Word → Nat → FVal := fun x h => Fmt.bf16.value (x.toNat / 2 ^ (16 * h) % 65536)
    halves op x y z = BitVec.ofNat 32 (Fmt.bf16.round (op (hv x 0) (hv y 0) (hv z 0)) +
      65536 * Fmt.bf16.round (op (hv x 1) (hv y 1) (hv z 1))) := by
  intro hv
  rw [Nat.add_comm, Nat.mul_comm]
  rfl

/-! ## The obligation -/

/-- Settles O13: each entry is a result per lane; additions and products are the model's own, the rest by what their codes say. -/
theorem floatArithmeticResults : Obligations.FloatArithmeticResults := by
  unfold Obligations.FloatArithmeticResults
  intro rn hv h2 u d a b s c g w hi
  refine ⟨fun ho e he => IsBinary.answers hi (?twoSources : IsBinary u d a b e.1 e.2) ho,
    fun ho e he => IsTernary.answers hi (?threeSources : IsTernary u d a b e.1 e.2) ho,
    fun ho e he => IsUnary.answers hi (?oneSource : IsUnary u d a e.1 e.2) ho⟩
  case twoSources =>
    revert e
    simp only [List.forall_mem_cons, List.not_mem_nil, false_imp_iff, implies_true, and_true]
    exact ⟨⟨_, exec_fadd u d a b, fun _ _ => rfl⟩,
      ⟨_, exec_fsub u d a b, fun _ _ => rfl⟩,
      ⟨_, exec_fmul u d a b, fun _ _ => rfl⟩,
      ⟨_, exec_fmin u d a b, fmin_eq⟩,
      ⟨_, exec_fmax u d a b, fmax_eq⟩,
      ⟨_, exec_fcmp u 0 d a b, fun _ _ => rfl⟩,
      ⟨_, exec_fcmp u 1 d a b, fun _ _ => truth_not _⟩,
      ⟨_, exec_fcmp u 2 d a b, fun _ _ => rfl⟩,
      ⟨_, exec_fcmp u 3 d a b, fun _ _ => truth_or _ _⟩,
      ⟨_, exec_fcmp u 4 d a b, fun _ _ => rfl⟩,
      ⟨_, exec_fcmp u 5 d a b, fun _ _ => truth_or _ _⟩,
      ⟨_, exec_fcmp u 6 d a b, fun _ _ => truth_or _ _⟩,
      ⟨_, exec_fcmp u 7 d a b, fun _ _ => truth_not_or _ _⟩,
      ⟨_, exec_hadd2 u d a b, fun x y => halves_eq _ x y 0⟩,
      ⟨_, exec_hmul2 u d a b, fun x y => halves_eq _ x y 0⟩⟩
  case threeSources =>
    revert e
    simp only [List.forall_mem_cons, List.not_mem_nil, false_imp_iff, implies_true, and_true]
    exact ⟨⟨_, exec_ffma u d a b, fun _ _ _ => rfl⟩, ⟨_, exec_hfma2 u d a b, halves_eq _⟩⟩
  case oneSource =>
    revert e
    simp only [List.forall_mem_cons, List.not_mem_nil, false_imp_iff, implies_true, and_true]
    exact ⟨⟨_, exec_fabs u d a, fun _ => rfl⟩, ⟨_, exec_fneg u d a, fun _ => rfl⟩,
      ⟨_, exec_fclass u d a, fun x => congrArg (fun k => BitVec.ofNat 32 (2 ^ k)) (fclassBit_eq x)⟩⟩

end Sys2Proof.Machine
end

section
/-! Exact values (R109, R198): the number that a finite value is and its order, the codes that are read back as the value they were
rounded from. -/
namespace Sys2Proof.Machine

/-! ## The number that a finite value is -/

/-- (−1)^neg × m × 2^e. -/
def finRat (neg : Bool) (m : Nat) (e : Int) : ℚ := (if neg then -1 else 1) * m * 2 ^ e

theorem sint_cast (neg : Bool) (m : Nat) {e lo : Int} (h : lo ≤ e) : (sint neg m e lo : ℚ) = finRat neg m e * 2 ^ (-lo) := by
  have hpow : (2 : ℚ) ^ (e - lo).toNat = 2 ^ e * 2 ^ (-lo) := by
    rw [← zpow_natCast, Int.toNat_of_nonneg (by omega), Int.sub_eq_add_neg, zpow_add₀ (by norm_num)]
  cases neg with
  | false => simp [sint, finRat, hpow, mul_assoc]
  | true => simp [sint, finRat, hpow, mul_assoc]

/-- Finite values have the order of their numbers. -/
theorem lt_fin_iff (a b : Bool) (m n : Nat) (e f : Int) :
    (FVal.fin a m e).lt (.fin b n f) = true ↔ finRat a m e < finRat b n f := by
  have hscale : (0 : ℚ) < 2 ^ (-min e f) := by positivity
  rw [FVal.lt, decide_eq_true_iff, ← Int.cast_lt (R := ℚ), sint_cast a m (Int.min_le_left e f), sint_cast b n (Int.min_le_right e f),
    mul_lt_mul_iff_left₀ hscale]

theorem finRat_ofInt (i : Int) : finRat (decide (i < 0)) i.natAbs 0 = i := by
  by_cases h : i < 0
  · simp [finRat, h, Nat.cast_natAbs, abs_of_neg]
  · simp [finRat, h, Nat.cast_natAbs, abs_of_nonneg (Int.not_lt.mp h)]

theorem lt_ofInt_iff (a : Bool) (m : Nat) (e i : Int) : (FVal.fin a m e).lt (.ofInt i) = true ↔ finRat a m e < i := by
  rw [FVal.ofInt, lt_fin_iff, finRat_ofInt]

theorem ofInt_lt_iff (a : Bool) (m : Nat) (e i : Int) : (FVal.ofInt i).lt (.fin a m e) = true ↔ i < finRat a m e := by
  rw [FVal.ofInt, lt_fin_iff, finRat_ofInt]

theorem finRat_true (m : Nat) (e : Int) : finRat true m e = -finRat false m e := by simp [finRat]

theorem finRat_false_nonneg (m : Nat) (e : Int) : 0 ≤ finRat false m e := by
  simp only [finRat, Bool.false_eq_true, if_false, one_mul]
  positivity

theorem finRat_mul_two_pow (neg : Bool) (m k : Nat) : finRat neg (m * 2 ^ k) (-k) = finRat neg m 0 := by
  simp [finRat]

theorem lt_ofInt_of_le {v : FVal} {i j : Int} (hij : i ≤ j) (h : v.lt (.ofInt i) = true) : v.lt (.ofInt j) = true := by
  cases v with
  | nan => exact h
  | inf n => exact h
  | fin n m e =>
    rw [lt_ofInt_iff] at h ⊢
    exact lt_of_lt_of_le h (Int.cast_le.mpr hij)

/-- What is below zero is −∞ or a negative number other than −0. -/
theorem lt_zero_cases {v : FVal} (h : v.lt (.ofInt 0) = true) : v = .inf true ∨ ∃ m e, v = .fin true (m + 1) e := by
  cases v with
  | nan => nomatch h
  | inf n => exact .inl (congrArg FVal.inf h)
  | fin n m e =>
    rw [lt_ofInt_iff, Int.cast_zero] at h
    cases n with
    | false => exact absurd h (not_lt.mpr (finRat_false_nonneg m e))
    | true =>
      cases m with
      | zero => simp [finRat] at h
      | succ m => exact .inr ⟨m, e, rfl⟩

/-! ## Codes read back (R109) -/

/-- The word of a sign, an exponent field and a significand. -/
theorem f32_ofNat_code (neg : Bool) {k mant : Nat} (hk : k ≤ 253) (hlt : mant < 2 ^ 24) (hnorm : 2 ^ 23 ≤ mant ∨ k = 0) :
    f32 (BitVec.ofNat 32 (Fmt.f32.sign neg + (k * 2 ^ 23 + mant))) = .fin neg mant (k - 149) := by
  obtain ⟨s, hsign, hs⟩ : ∃ s, Fmt.f32.sign neg = s * 2 ^ 31 ∧ s = if neg then 1 else 0 := ⟨_, by cases neg <;> rfl, rfl⟩
  have hs1 : s ≤ 1 := by rw [hs]; cases neg <;> decide
  have hval : (BitVec.ofNat 32 (Fmt.f32.sign neg + (k * 2 ^ 23 + mant))).toNat = s * 2 ^ 31 + (k * 2 ^ 23 + mant) := by
    rw [hsign, BitVec.toNat_ofNat, Nat.mod_eq_of_lt (by omega)]
  have hmsb : (BitVec.ofNat 32 (Fmt.f32.sign neg + (k * 2 ^ 23 + mant))).msb = neg := by
    rw [BitVec.msb_eq_decide, hval]
    cases neg with
    | false => simp at hs; simp; omega
    | true => simp at hs; simp; omega
  rw [f32_eq, hmsb, hval]
  by_cases hsub : mant < 2 ^ 23
  · have hk0 : k = 0 := by omega
    rw [if_neg (by omega), if_pos (by omega), hk0, show (s * 2 ^ 31 + (0 * 2 ^ 23 + mant)) % 2 ^ 23 = mant by omega]
    rfl
  · rw [if_neg (by omega), if_neg (by omega), show 2 ^ 23 + (s * 2 ^ 31 + (k * 2 ^ 23 + mant)) % 2 ^ 23 = mant by omega,
      show (s * 2 ^ 31 + (k * 2 ^ 23 + mant)) / 2 ^ 23 % 256 = k + 1 by omega]
    congr 1
    omega

/-- A value with no bit below the last of its significand is read back from its code. -/
theorem f32_toF32_exact (neg : Bool) {m : Nat} {e q : Int} (hm : m ≠ 0) (hq : q = max (e + m.log2 - 23) (-149)) (hexact : q ≤ e)
    (htop : e + m.log2 ≤ 127) : f32 (toF32 (.fin neg m e)) = .fin neg (m * 2 ^ (e - q).toNat) q := by
  obtain ⟨k, hk⟩ : ∃ k : Nat, (k : Int) = q + 149 := ⟨(q + 149).toNat, by omega⟩
  obtain ⟨j, hj⟩ : ∃ j : Nat, (j : Int) = e - q := ⟨(e - q).toNat, by omega⟩
  have hmant : m * 2 ^ j < 2 ^ 24 := calc
    m * 2 ^ j < 2 ^ (m.log2 + 1) * 2 ^ j := Nat.mul_lt_mul_of_pos_right Nat.lt_log2_self (Nat.two_pow_pos j)
    _ = 2 ^ (m.log2 + 1 + j) := (Nat.pow_add 2 _ _).symm
    _ ≤ 2 ^ 24 := Nat.pow_le_pow_right (by decide) (by omega)
  have hnorm : 2 ^ 23 ≤ m * 2 ^ j ∨ k = 0 := by
    by_cases hk0 : k = 0
    · exact .inr hk0
    · refine .inl (calc
        2 ^ 23 = 2 ^ m.log2 * 2 ^ j := by rw [← Nat.pow_add]; congr 1; omega
        _ ≤ m * 2 ^ j := Nat.mul_le_mul_right _ (Nat.log2_self_le hm))
  have hcode : Fmt.f32.magCode m e = k * 2 ^ 23 + m * 2 ^ j := by
    have hqmin : Fmt.f32.qmin = -149 := by decide
    have hq' : max (e + m.log2 - (Fmt.f32.mb : Int)) (-149) = q := hq.symm
    simp only [Fmt.magCode, if_neg hm, hqmin, hq', if_pos hexact, ← hj, Int.toNat_natCast, show q - -149 = (k : Int) by omega]
    rfl
  have hround : Fmt.f32.round (.fin neg m e) = Fmt.f32.sign neg + (k * 2 ^ 23 + m * 2 ^ j) := by
    have hmax : Fmt.f32.maxCode = 255 * 2 ^ 23 - 1 := by decide
    simp only [Fmt.round, hcode, hmax]
    rw [if_pos (by omega)]
  rw [toF32, hround, f32_ofNat_code neg (by omega) hmant hnorm, ← hj, Int.toNat_natCast, show (k : Int) - 149 = q by omega]

/-- Powers of two are read back, subnormal ones too. -/
theorem f32_toF32_two_pow {i : Int} (hlo : -149 ≤ i) (hhi : i ≤ 127) :
    ∃ k : Nat, f32 (toF32 (.fin false 1 i)) = .fin false (2 ^ k) (i - k) := by
  have hlog : Nat.log2 1 = 0 := Nat.log2_two_pow (n := 0)
  refine ⟨(i - max (i - 23) (-149)).toNat, ?_⟩
  rw [f32_toF32_exact (q := max (i - 23) (-149)) false one_ne_zero (by rw [hlog]; simp) (by omega) (by rw [hlog]; simpa using hhi), one_mul]
  congr 1
  omega

/-- So are integers below 2^24. -/
theorem f32_toF32_ofInt {i : Int} (h : i.natAbs < 2 ^ 24) :
    ∃ k : Nat, f32 (toF32 (.ofInt i)) = .fin (decide (i < 0)) (i.natAbs * 2 ^ k) (-k) := by
  by_cases hzero : i = 0
  · exact ⟨149, by rw [hzero]; decide⟩
  · have hne : i.natAbs ≠ 0 := Int.natAbs_ne_zero.mpr hzero
    have hlog : i.natAbs.log2 < 24 := (Nat.log2_lt hne).mpr h
    refine ⟨23 - i.natAbs.log2, ?_⟩
    rw [FVal.ofInt, f32_toF32_exact (q := i.natAbs.log2 - 23) _ hne (by omega) (by omega) (by omega)]
    congr 1
    · congr 2
      omega
    · omega

end Sys2Proof.Machine
end

section
/-! Transcendental functions (R203, R204): their special values, powers of two and integers, the range of FSIN, FCOS and FTANH, and the
obligation put together from them. -/
namespace Sys2Proof.Machine

/-! ## NaNs, infinities and zeros (R203) -/

theorem eq_nan_of_isNan {v : FVal} (h : v.isNan = true) : v = .nan := by
  cases v with
  | nan => rfl
  | inf n => nomatch h
  | fin n m e => nomatch h

theorem transcendental_nan {x : Word} (hx : f32 x = .nan) :
    ∀ f ∈ [frcp, frsq, fsqrt, fexp2, flog2, fsin, fcos, ftanh], f x = nan32 := by
  simp [frcp, frsq, fsqrt, fexp2, flog2, fsin, fcos, ftanh, hx]

theorem transcendental_inf {x : Word} {n : Bool} (hx : f32 x = .inf n) :
    frcp x = zero32 n ∧ frsq x = (if n then nan32 else zero32 false) ∧ fsqrt x = (if n then nan32 else x) ∧
      fexp2 x = (if n then zero32 false else inf32 false) ∧ flog2 x = (if n then nan32 else inf32 false) ∧ fsin x = nan32 ∧
      fcos x = nan32 ∧ ftanh x = one32 n := by
  simp [frcp, frsq, fsqrt, fexp2, flog2, fsin, fcos, ftanh, hx]

/-- FEXP2 of a zero is `fexp2_zero`. -/
theorem transcendental_zero {x : Word} {n : Bool} {e : Int} (hx : f32 x = .fin n 0 e) :
    frcp x = inf32 n ∧ frsq x = inf32 n ∧ fsqrt x = x ∧ flog2 x = inf32 true ∧ fsin x = zero32 n ∧ fcos x = one32 false ∧
      ftanh x = zero32 n := by
  simp [frcp, frsq, fsqrt, flog2, fsin, fcos, ftanh, hx]

/-! ## FRSQ, FSQRT and FLOG2 below zero (R203) -/

theorem frsq_of_lt_zero {x : Word} (h : (f32 x).lt (.ofInt 0) = true) : frsq x = nan32 := by
  rcases lt_zero_cases h with hx | ⟨m, e, hx⟩ <;> simp [frsq, hx]

theorem fsqrt_of_lt_zero {x : Word} (h : (f32 x).lt (.ofInt 0) = true) : fsqrt x = nan32 := by
  rcases lt_zero_cases h with hx | ⟨m, e, hx⟩ <;> simp [fsqrt, hx]

theorem flog2_of_lt_zero {x : Word} (h : (f32 x).lt (.ofInt 0) = true) : flog2 x = nan32 := by
  rcases lt_zero_cases h with hx | ⟨m, e, hx⟩ <;> simp [flog2, hx]

/-! ## FEXP2 and FLOG2 at integers and powers of two (R203) -/

theorem fexp2_overflow {x : Word} (hnan : (f32 x).isNan = false) (h : (f32 x).lt (.ofInt 128) = false) : fexp2 x = inf32 false := by
  cases hx : f32 x with
  | nan => simp [hx, FVal.isNan] at hnan
  | inf n =>
    have hn : n = false := by rwa [hx] at h
    simp [fexp2, hx, hn]
  | fin n m e =>
    rw [hx] at h
    simp only [fexp2, hx, h, Bool.not_false, if_true]

theorem fexp2_underflow {x : Word} (h : (f32 x).lt (.ofInt (-150)) = true) : fexp2 x = zero32 false := by
  cases hx : f32 x with
  | nan => rw [hx] at h; nomatch h
  | inf n =>
    have hn : n = true := by rwa [hx] at h
    simp [fexp2, hx, hn]
  | fin n m e =>
    rw [hx] at h
    simp only [fexp2, hx, h, lt_ofInt_of_le (show -150 ≤ 128 by decide) h, Bool.not_true, Bool.false_eq_true, if_false, if_true]

theorem fexp2_of_asInt {x : Word} {neg : Bool} {m : Nat} {e i : Int} (hx : f32 x = .fin neg m e) (hint : asInt neg m e = some i)
    (hrat : finRat neg m e = i) (hlo : -149 ≤ i) (hhi : i ≤ 127) : fexp2 x = toF32 (.fin false 1 i) := by
  have hbelow : (FVal.fin neg m e).lt (.ofInt 128) = true := by
    rw [lt_ofInt_iff, hrat, Int.cast_lt]
    omega
  have habove : (FVal.fin neg m e).lt (.ofInt (-150)) = false := by
    rw [Bool.eq_false_iff, ne_eq, lt_ofInt_iff, hrat, Int.cast_lt]
    omega
  simp only [fexp2, hx, hbelow, habove, hint, Bool.not_true, Bool.false_eq_true, if_false, if_pos hlo]

theorem fexp2_zero {x : Word} {n : Bool} (hx : f32 x = .fin n 0 (-149)) : fexp2 x = one32 false :=
  (fexp2_of_asInt (i := 0) hx (by cases n <;> decide) (by simp [finRat]) (by decide) (by decide)).trans (by decide)

theorem asInt_mul_two_pow (i : Int) (k : Nat) : asInt (decide (i < 0)) (i.natAbs * 2 ^ k) (-k) = some i := by
  have hsint : sint (decide (i < 0)) i.natAbs 0 0 = i := by
    by_cases h : i < 0
    · simp [sint, h, abs_of_neg]
    · simp [sint, h, abs_of_nonneg (Int.not_lt.mp h)]
  cases k with
  | zero => simpa [asInt] using hsint
  | succ k =>
    have hneg : ¬(0 : Int) ≤ -((k + 1 : Nat) : Int) := by omega
    rw [asInt, if_neg hneg, Int.neg_neg, Int.toNat_natCast, if_pos (Nat.mul_mod_left _ _), Nat.mul_div_cancel _ (Nat.two_pow_pos _), hsint]

theorem fexp2_ofInt {i : Int} (hlo : -149 ≤ i) (hhi : i ≤ 127) : fexp2 (toF32 (.ofInt i)) = toF32 (.fin false 1 i) := by
  obtain ⟨k, hk⟩ := f32_toF32_ofInt (show i.natAbs < 2 ^ 24 by omega)
  exact fexp2_of_asInt hk (asInt_mul_two_pow i k) ((finRat_mul_two_pow _ _ k).trans (finRat_ofInt i)) hlo hhi

theorem flog2_exact {x : Word} {m : Nat} {e : Int} (hx : f32 x = .fin false m e) (hm : m = 2 ^ m.log2) :
    flog2 x = toF32 (.ofInt (e + m.log2)) := by
  cases m with
  | zero => exact absurd hm (by decide)
  | succ m =>
    simp only [flog2, hx]
    exact if_pos hm

theorem flog2_two_pow {i : Int} (hlo : -149 ≤ i) (hhi : i ≤ 127) : flog2 (toF32 (.fin false 1 i)) = toF32 (.ofInt i) := by
  obtain ⟨k, hk⟩ := f32_toF32_two_pow hlo hhi
  rw [flog2_exact hk (by rw [Nat.log2_two_pow]), Nat.log2_two_pow, Int.sub_add_cancel]

/-! ## FTANH far from zero (R203) -/

theorem ftanh_far {x : Word} {n : Bool} {m : Nat} {e : Int} (hx : f32 x = .fin n m e) (h : 9 ≤ finRat false m e) : ftanh x = one32 n := by
  have hfar : (FVal.fin false m e).lt (.ofInt 9) = false := by
    rw [Bool.eq_false_iff, ne_eq, lt_ofInt_iff]
    exact not_lt.mpr h
  cases m with
  | zero => norm_num [finRat] at h
  | succ m => simp only [ftanh, hx, hfar, Bool.false_eq_true, if_false]

theorem ftanh_of_ge {x : Word} (hnan : (f32 x).isNan = false) (h : (f32 x).lt (.ofInt 9) = false) : ftanh x = one32 false := by
  cases hx : f32 x with
  | nan => simp [hx, FVal.isNan] at hnan
  | inf n =>
    have hn : n = false := by rwa [hx] at h
    simp [ftanh, hx, hn]
  | fin n m e =>
    rw [hx, Bool.eq_false_iff, ne_eq, lt_ofInt_iff, not_lt] at h
    cases n with
    | false => exact ftanh_far hx h
    | true =>
      have hsign := finRat_false_nonneg m e
      rw [finRat_true] at h
      push_cast at h
      linarith

theorem ftanh_of_le {x : Word} (hnan : (f32 x).isNan = false) (h : (FVal.ofInt (-9)).lt (f32 x) = false) : ftanh x = one32 true := by
  cases hx : f32 x with
  | nan => simp [hx, FVal.isNan] at hnan
  | inf n =>
    have hn : n = true := by simpa [hx, FVal.ofInt, FVal.lt] using h
    simp [ftanh, hx, hn]
  | fin n m e =>
    rw [hx, Bool.eq_false_iff, ne_eq, ofInt_lt_iff, not_lt] at h
    cases n with
    | false =>
      have hsign := finRat_false_nonneg m e
      push_cast at h
      linarith
    | true =>
      rw [finRat_true] at h
      exact ftanh_far hx (neg_le_neg_iff.mp (by exact_mod_cast h))

/-! ## The range of FSIN, FCOS and FTANH (R203) -/

/-- A value in [−1, 1]. -/
abbrev InUnit (w : Word) : Prop :=
  (f32 w).isNan = false ∧ (f32 w).lt (.ofInt (-1)) = false ∧ (FVal.ofInt 1).lt (f32 w) = false

theorem inUnit_zero32 (n : Bool) : InUnit (zero32 n) := by cases n <;> decide
theorem inUnit_one32 (n : Bool) : InUnit (one32 n) := by cases n <;> decide

theorem inUnit_within1 (w : Word) : InUnit (within1 w) := by
  unfold within1
  split
  case h_1 n m e hw =>
    split
    case isTrue => exact inUnit_one32 n
    case isFalse hle =>
      rw [ofInt_lt_iff, Int.cast_one, not_lt] at hle
      have hsign := finRat_false_nonneg m e
      have hbounds : -1 ≤ finRat n m e ∧ finRat n m e ≤ 1 := by
        cases n with
        | false => exact ⟨by linarith, hle⟩
        | true => rw [finRat_true]; exact ⟨by linarith, by linarith⟩
      simp only [InUnit, hw, Bool.eq_false_iff, ne_eq, lt_ofInt_iff, ofInt_lt_iff]
      exact ⟨by simp [FVal.isNan], by simpa using hbounds.1, by simpa using hbounds.2⟩
  case h_2 => exact inUnit_zero32 false

theorem fsin_range (x : Word) : fsin x = nan32 ∨ InUnit (fsin x) := by
  unfold fsin
  split
  · exact .inl rfl
  · exact .inl rfl
  · exact .inr (inUnit_zero32 _)
  · split <;> exact .inr (inUnit_within1 _)

theorem fcos_range (x : Word) : fcos x = nan32 ∨ InUnit (fcos x) := by
  unfold fcos
  split
  · exact .inl rfl
  · exact .inl rfl
  · exact .inr (inUnit_one32 _)
  · split <;> exact .inr (inUnit_within1 _)

theorem ftanh_range (x : Word) : ftanh x = nan32 ∨ InUnit (ftanh x) := by
  unfold ftanh
  split
  · exact .inl rfl
  · exact .inr (inUnit_one32 _)
  · exact .inr (inUnit_zero32 _)
  · split
    · exact .inr (inUnit_within1 _)
    · exact .inr (inUnit_one32 _)

/-! ## The obligation -/

/-- Settles O14: each instruction is a result per lane by the model's function, which takes the special values and keeps the range. -/
theorem transcendentalResults : Obligations.TranscendentalResults := by
  unfold Obligations.TranscendentalResults
  intro q pinf ninf num
  have hone : num 1 = one32 false := by decide
  have hminus : num (-1) = one32 true := by decide
  have hpow : num 1 = toF32 (.fin false 1 0) := by decide
  have hzero : f32 0 = .fin false 0 (-149) := by decide
  have hnzero : f32 0x80000000 = .fin true 0 (-149) := by decide
  obtain ⟨rcp0, rsq0, -, lg0, sin0, cos0, tanh0⟩ := transcendental_zero hzero
  obtain ⟨rcp0', rsq0', sqrt0', lg0', sin0', cos0', tanh0'⟩ := transcendental_zero hnzero
  obtain ⟨rcpInf, rsqInf, sqrtInf, exInf, lgInf, sinInf, cosInf, -⟩ := transcendental_inf (show f32 pinf = .inf false by decide)
  obtain ⟨rcpInf', -, -, exInf', -, sinInf', cosInf', -⟩ := transcendental_inf (show f32 ninf = .inf true by decide)
  refine ⟨frcp, frsq, fsqrt, fexp2, flog2, fsin, fcos, ftanh, ?answers, fun f hf x hx => transcendental_nan (eq_nan_of_isNan hx) f hf,
    ?rcp, ?rsq, ?sqrt, ?exp2, ?log2, ?sin, ?cos, ?tanh, ?range⟩
  case answers =>
    intro u d a s c g w hi ho e he
    refine IsUnary.answers hi (?_ : IsUnary u d a e.1 e.2) ho
    revert e
    simp only [List.forall_mem_cons, List.not_mem_nil, false_imp_iff, implies_true, and_true]
    exact ⟨⟨_, exec_frcp u d a, fun _ => rfl⟩, ⟨_, exec_frsq u d a, fun _ => rfl⟩, ⟨_, exec_fsqrt u d a, fun _ => rfl⟩,
      ⟨_, exec_fexp2 u d a, fun _ => rfl⟩, ⟨_, exec_flog2 u d a, fun _ => rfl⟩, ⟨_, exec_fsin u d a, fun _ => rfl⟩,
      ⟨_, exec_fcos u d a, fun _ => rfl⟩, ⟨_, exec_ftanh u d a, fun _ => rfl⟩⟩
  case rcp => exact ⟨rcp0, rcp0', rcpInf, rcpInf'⟩
  case rsq => exact ⟨rsq0, rsq0', rsqInf, fun x => frsq_of_lt_zero⟩
  case sqrt => exact ⟨sqrt0', sqrtInf, fun x => fsqrt_of_lt_zero⟩
  case exp2 =>
    exact ⟨(fexp2_zero hzero).trans hone.symm, (fexp2_zero hnzero).trans hone.symm, exInf', exInf, fun i => fexp2_ofInt,
      fun x => fexp2_overflow, fun x => fexp2_underflow⟩
  case log2 =>
    refine ⟨lg0, lg0', lgInf, ?_, fun x => flog2_of_lt_zero, fun i => flog2_two_pow⟩
    rw [hpow]
    exact flog2_two_pow (by decide) (by decide)
  case sin => exact ⟨sin0, sin0', sinInf, sinInf'⟩
  case cos => exact ⟨cos0.trans hone.symm, cos0'.trans hone.symm, cosInf, cosInf'⟩
  case tanh =>
    exact ⟨tanh0, tanh0', fun x hnan h => (ftanh_of_ge hnan h).trans hone.symm,
      fun x hnan h => (ftanh_of_le hnan h).trans hminus.symm⟩
  case range =>
    simp only [List.forall_mem_cons, List.not_mem_nil, false_imp_iff, implies_true, and_true]
    exact ⟨fsin_range, fcos_range, ftanh_range⟩

end Sys2Proof.Machine
end

section
/-! Conversions (R206 to R209, R60): a half of a register replaced, pairs on one side of a conversion, integers clamped, what each form
answers, and the obligation put together from them. -/
namespace Sys2Proof.Machine

/-! ## A half of a register (R60) -/

/-- Two halves side by side. -/
theorem ofNat_or_half {lo : Nat} (hi : Nat) (hlo : lo < 65536) :
    BitVec.ofNat 32 (hi * 65536) ||| BitVec.ofNat 32 lo = BitVec.ofNat 32 (hi * 65536 + lo) := by
  rw [← BitVec.ofNat_or, show hi * 65536 = hi <<< 16 from (Nat.shiftLeft_eq hi 16).symm,
    Nat.shiftLeft_add_eq_or_of_lt (show lo < 2 ^ 16 from hlo)]

theorem and_upperHalf (z : Word) : z &&& 0xFFFF0000#32 = BitVec.ofNat 32 (z.toNat / 65536 * 65536) := by
  have hshift : z &&& BitVec.allOnes 32 <<< 16 = z >>> 16 <<< 16 := by
    refine BitVec.eq_of_getLsbD_eq fun i hi => ?_
    rw [BitVec.getLsbD_and, BitVec.getLsbD_shiftLeft, BitVec.getLsbD_shiftLeft, BitVec.getLsbD_ushiftRight, BitVec.getLsbD_allOnes]
    by_cases h : i < 16
    · simp [h]
    · simp [h, hi, Nat.add_sub_cancel' (Nat.not_lt.mp h), show i - 16 < 32 by omega]
  refine hshift.trans (BitVec.eq_of_toNat_eq ?_)
  rw [BitVec.toNat_shiftLeft, BitVec.toNat_ushiftRight, BitVec.toNat_ofNat, Nat.shiftLeft_eq, Nat.shiftRight_eq_div_pow]

theorem and_lowerHalf (z : Word) : z &&& 0x0000FFFF#32 = BitVec.ofNat 32 (z.toNat % 65536) := by
  refine BitVec.eq_of_toNat_eq ?_
  have hlt : z.toNat % 65536 < 2 ^ 32 := Nat.lt_of_lt_of_le (Nat.mod_lt _ (by decide)) (by decide)
  rw [BitVec.toNat_and, BitVec.toNat_ofNat, BitVec.toNat_ofNat, Nat.mod_eq_of_lt hlt]
  exact Nat.and_two_pow_sub_one_eq_mod z.toNat 16

theorem withLow_eq (z : Word) (v : Nat) : withLow z v = BitVec.ofNat 32 (z.toNat / 65536 * 65536 + v % 65536) := by
  rw [withLow, and_upperHalf, ofNat_or_half _ (Nat.mod_lt v (by decide))]

theorem withHigh_eq (z : Word) (v : Nat) : withHigh z v = BitVec.ofNat 32 (z.toNat % 65536 + 65536 * (v % 65536)) := by
  rw [withHigh, and_lowerHalf, BitVec.or_comm, ofNat_or_half _ (Nat.mod_lt _ (by decide)), Nat.add_comm, Nat.mul_comm]

/-! ## Clamped integers and pairs (R209) -/

theorem clampWord_eq {lo hi : Int} (h : lo ≤ hi) (v : Int) :
    clampWord lo hi v = BitVec.ofInt 32 (if v < lo then lo else if hi < v then hi else v) := by
  rw [clampWord]
  congr 1
  split_ifs <;> omega

theorem ofPair_eq_append (lo hi : Word) : DWord.ofPair lo hi = hi ++ lo := by
  refine BitVec.eq_of_toNat_eq ?_
  rw [toNat_ofPair, BitVec.toNat_append, ← Nat.shiftLeft_add_eq_or_of_lt lo.isLt, Nat.shiftLeft_eq, Nat.add_comm, Nat.mul_comm]

/-! ## Answers of the conversions' forms -/

/-- A pair source and a word destination, with a result as told. -/
abbrev IsFromPair (u : Bool) (d a : Nat) (i : Instr) (r : DWord → Word) : Prop :=
  ∃ f, (∀ s, exec i s = fromPair u d a f s) ∧ ∀ x, f x = r x

/-- A word source and a pair destination. -/
abbrev IsToPair (u : Bool) (d a : Nat) (i : Instr) (r : Word → DWord) : Prop :=
  ∃ f, (∀ s, exec i s = toPair u d a f s) ∧ ∀ x, f x = r x

section
variable {s : State} {c : Ctx} {g : WorkGroup} {w : Warp} (hi : Issues s c g w) {u : Bool} {d a : Nat}
include hi

theorem partOp_answers {reads : List RegUse} (ho : OperandsOk c w (c.readers u) [(d, 1)] reads) (f : Warp → Nat → Nat)
    (put_ : Word → Nat → Word) :
    partOp u d reads f put_ s = .next (answerPart s c d fun l => put_ (w.reg d l) (f w (c.readerOf u l))) := by
  rw [partOp, withGroup_issues hi, withRegs_ok ho, answerPart]

theorem narrowHalf_answers (ho : OperandsOk c w (c.readers u) [(d, 1)] [(a, 1)]) (put_ : Word → Nat → Word) (f : Fmt) :
    narrowHalf u d a put_ f s = .next (answerPart s c d fun l => put_ (w.reg d l) (f.round (f32 (w.reg a (c.readerOf u l))))) :=
  partOp_answers hi ho _ put_

theorem narrowPair_answers {b : Nat} (ho : OperandsOk c w (c.readers u) [(d, 1)] [(a, 1), (b, 1)]) (put_ : Word → Nat → Word)
    (f : Fmt) :
    narrowPair u d a b put_ f s = .next (answerPart s c d fun l => put_ (w.reg d l)
      (f.roundSat (f32 (w.reg a (c.readerOf u l))) + 256 * f.roundSat (f32 (w.reg b (c.readerOf u l))))) :=
  partOp_answers hi ho _ put_

theorem widenPart_answers {n bits limit : Nat} (hn : n < limit) (ho : OperandsOk c w (c.readers u) [(d, 1)] [(a, 1)]) (f : Fmt) :
    widenPart u d a n bits limit f s = .next (answer s c fun l =>
      [(d, widen f ((w.reg a (c.readerOf u l)).toNat / 2 ^ (n * bits) % 2 ^ bits))]) := by
  rw [widenPart, if_neg (Nat.not_le.mpr hn), unary, laneOp_answers hi _ ho]

theorem widenPart_beyond {n limit : Nat} (hn : limit ≤ n) (bits : Nat) (f : Fmt) :
    widenPart u d a n bits limit f s = trapWord s c causeOperand := by
  rw [widenPart, if_pos hn, reject, withGroup_issues hi]

theorem IsFromPair.answers {i : Instr} {r : DWord → Word} (h : IsFromPair u d a i r)
    (ho : OperandsOk c w (c.readers u) [(d, 1)] [(a, 2)]) :
    exec i s = .next (answer s c fun l => [(d, r (w.reg (a + 1) (c.readerOf u l) ++ w.reg a (c.readerOf u l)))]) := by
  obtain ⟨f, hexec, hr⟩ := h
  simp only [hexec, fromPair, laneOp_answers hi _ ho, Warp.pair, ofPair_eq_append, hr]

theorem IsToPair.answers {i : Instr} {r : Word → DWord} (h : IsToPair u d a i r)
    (ho : OperandsOk c w (c.readers u) [(d, 2)] [(a, 1)]) :
    exec i s = .next (answer s c fun l =>
      let v := (r (w.reg a (c.readerOf u l))).toNat
      [(d, BitVec.ofNat 32 v), (d + 1, BitVec.ofNat 32 (v / 2 ^ 32))]) := by
  obtain ⟨f, hexec, hr⟩ := h
  have hlow : ∀ v : Nat, BitVec.ofNat 32 (v % 2 ^ 32) = BitVec.ofNat 32 v := fun v => BitVec.eq_of_toNat_eq (by simp)
  simp only [hexec, toPair, laneOp_answers hi _ ho, pairOf_eq, hlow, hr]

end

/-! ## The obligation -/

/-- Settles O15: each entry by its form, a kept half and a clamped integer as the spec writes them. -/
theorem conversionResults : Obligations.ConversionResults := by
  unfold Obligations.ConversionResults
  intro rn low high clamp u d a b s c g w hi
  have hlow : withLow = low := funext₂ withLow_eq
  have hhigh : withHigh = high := funext₂ withHigh_eq
  refine ⟨fun ho => ?narrow, fun ho => ?narrowPair, fun ho => ⟨fun n => ?widen, fun rm hrm => ?toInteger, fun e he => ?single⟩,
    fun ho e he => IsFromPair.answers hi (?fromPair : IsFromPair u d a e.1 e.2) ho,
    fun ho e he => IsToPair.answers hi (?toPair : IsToPair u d a e.1 e.2) ho⟩
  case narrow =>
    simp only [List.forall_mem_cons, List.not_mem_nil, false_imp_iff, implies_true, and_true, ← hlow, ← hhigh]
    exact ⟨narrowHalf_answers hi ho withLow .bf16, narrowHalf_answers hi ho withHigh .bf16, narrowHalf_answers hi ho withLow .f16,
      narrowHalf_answers hi ho withHigh .f16⟩
  case narrowPair =>
    simp only [List.forall_mem_cons, List.not_mem_nil, false_imp_iff, implies_true, and_true, ← hlow, ← hhigh]
    exact ⟨narrowPair_answers hi ho withLow .e4m3, narrowPair_answers hi ho withHigh .e4m3, narrowPair_answers hi ho withLow .e5m2,
      narrowPair_answers hi ho withHigh .e5m2⟩
  case widen =>
    simp only [List.forall_mem_cons, List.not_mem_nil, false_imp_iff, implies_true, and_true]
    exact ⟨⟨fun hn => widenPart_answers hi hn ho .bf16, fun hn => widenPart_beyond hi hn 16 .bf16⟩,
      ⟨fun hn => widenPart_answers hi hn ho .f16, fun hn => widenPart_beyond hi hn 16 .f16⟩,
      ⟨fun hn => widenPart_answers hi hn ho .e4m3, fun hn => widenPart_beyond hi hn 8 .e4m3⟩,
      ⟨fun hn => widenPart_answers hi hn ho .e5m2, fun hn => widenPart_beyond hi hn 8 .e5m2⟩⟩
  case toInteger =>
    rw [exec_cvtS32F32, exec_cvtZ32F32, execCvtS32F32, execCvtZ32F32, Nat.mod_eq_of_lt hrm]
    exact ⟨laneOp_answers hi _ ho, laneOp_answers hi _ ho⟩
  case single =>
    refine IsUnary.answers hi (?_ : IsUnary u d a e.1 e.2) ho
    revert e
    simp only [List.forall_mem_cons, List.not_mem_nil, false_imp_iff, implies_true, and_true]
    exact ⟨⟨_, exec_cvtF32S32 u d a, fun _ => rfl⟩,
      ⟨_, exec_cvtF32Z32 u d a, fun _ => rfl⟩,
      ⟨_, exec_cvtS8S32Sat u d a, fun x => clampWord_eq (by decide) x.toInt⟩,
      ⟨_, exec_cvtS16S32Sat u d a, fun x => clampWord_eq (by decide) x.toInt⟩,
      ⟨_, exec_cvtZ8S32Sat u d a, fun x => clampWord_eq (by decide) x.toInt⟩,
      ⟨_, exec_cvtZ16S32Sat u d a, fun x => clampWord_eq (by decide) x.toInt⟩,
      ⟨_, exec_cvtZ8Z32Sat u d a, fun x => clampWord_eq (by decide) x.toNat⟩,
      ⟨_, exec_cvtZ16Z32Sat u d a, fun x => clampWord_eq (by decide) x.toNat⟩⟩
  case fromPair =>
    revert e
    simp only [List.forall_mem_cons, List.not_mem_nil, false_imp_iff, implies_true, and_true]
    exact ⟨⟨_, exec_cvtF32S64 u d a, fun _ => rfl⟩,
      ⟨_, exec_cvtF32Z64 u d a, fun _ => rfl⟩,
      ⟨_, exec_cvtS32S64Sat u d a, fun x => clampWord_eq (by decide) x.toInt⟩,
      ⟨_, exec_cvtZ32Z64Sat u d a, fun x => clampWord_eq (by decide) x.toNat⟩⟩
  case toPair =>
    revert e
    simp only [List.forall_mem_cons, List.not_mem_nil, false_imp_iff, implies_true, and_true]
    exact ⟨⟨_, exec_cvtS64F32Rz u d a, fun _ => rfl⟩,
      ⟨_, exec_cvtZ64F32Rz u d a, fun _ => rfl⟩,
      ⟨_, exec_cvtS64S32 u d a, fun _ => rfl⟩,
      ⟨_, exec_cvtZ64Z32 u d a, fun x => BitVec.eq_of_toNat_eq (by simp)⟩⟩

end Sys2Proof.Machine
end

section
/-! Lane exchange and reductions (R210 to R215): what an exchange answers, the fixed tree and the running values of a scan, and the
obligation put together from them. -/
namespace Sys2Proof.Machine

/-! ## Exchanges (R210) -/

section
variable {s : State} {c : Ctx} {g : WorkGroup} {w : Warp} (hi : Issues s c g w)
include hi

theorem exchange_answers (hu : c.word / 2 ^ 31 % 2 = 0) {d : Nat} {reads : List RegUse} (ho : OperandsOk c w c.lanes [(d, 1)] reads)
    (f : Ctx → Warp → Nat → Word) : exchange d reads f s = .next (answer s c fun l => [(d, f c w l)]) := by
  have hu' : ¬c.word / 2147483648 % 2 = 1 := by omega
  rw [exchange, withGroup_issues hi, if_neg hu']
  exact laneOp_answers hi (u := false) _ ho

/-- U = 1 is an illegal encoding. -/
theorem exchange_uniform (hu : c.word / 2 ^ 31 % 2 = 1) (d : Nat) (reads : List RegUse) (f : Ctx → Warp → Nat → Word) :
    exchange d reads f s = trapWord s c causeIllegal := by
  rw [exchange, withGroup_issues hi]
  exact if_pos hu

theorem execBcast_answers (hu : c.word / 2 ^ 31 % 2 = 0) {d a n : Nat} (hn : n ≤ 31) (ho : OperandsOk c w c.lanes [(d, 1)] [(a, 1)]) :
    execBcast d a n s = .next (answer s c fun _ => [(d, w.reg a (if n ∈ c.lanes then n else c.l0))]) := by
  rw [execBcast, withGroup_issues hi, if_neg (by omega), exchange_answers hi hu ho]
  simp only [List.contains_iff_mem]

theorem execBcast_beyond (hu : c.word / 2 ^ 31 % 2 = 0) {n : Nat} (hn : 31 < n) (d a : Nat) :
    execBcast d a n s = trapWord s c causeOperand := by
  rw [execBcast, withGroup_issues hi]
  exact if_pos ⟨hn, hu⟩

theorem execBcast_uniform (hu : c.word / 2 ^ 31 % 2 = 1) (d a n : Nat) : execBcast d a n s = trapWord s c causeIllegal := by
  rw [execBcast, withGroup_issues hi, if_neg (by omega), exchange_uniform hi hu]

/-- A vote that reads its operand: BALLOT, ANY, ALL. -/
theorem execVote_answers (hu : c.word / 2 ^ 31 % 2 = 0) {d a m : Nat} (hm : m < 3) (ho : OperandsOk c w c.lanes [(d, 1)] [(a, 1)]) :
    execVote d a m s = .next (answer s c fun _ => [(d, match m with
      | 0 => ballot c w a
      | 1 => truth (ballot c w a != 0)
      | _ => truth (ballot c w a == maskOf c.lanes))]) := by
  rw [execVote, withGroup_issues hi, if_neg (by omega), if_neg (by omega), if_neg (by omega), exchange_answers hi hu ho]
  interval_cases m <;> rfl

theorem execVote_group (hu : c.word / 2 ^ 31 % 2 = 0) {d : Nat} (ho : OperandsOk c w c.lanes [(d, 1)] []) :
    execVote d 0 3 s = .next (answer s c fun _ => [(d, maskOf c.lanes)]) := by
  rw [execVote, withGroup_issues hi, if_neg (by omega), if_neg (by omega)]
  exact exchange_answers hi hu ho _

theorem execVote_beyond (hu : c.word / 2 ^ 31 % 2 = 0) {m : Nat} (hm : 3 < m) (d a : Nat) :
    execVote d a m s = trapWord s c causeOperand := by
  rw [execVote, withGroup_issues hi, if_neg (by omega)]
  exact if_pos ⟨hm, hu⟩

theorem execVote_uniform (hu : c.word / 2 ^ 31 % 2 = 1) (d a m : Nat) : execVote d a m s = trapWord s c causeIllegal := by
  rw [execVote, withGroup_issues hi]
  by_cases hgroup : m = 3 ∧ a ≠ 0
  · exact if_pos hgroup
  · rw [if_neg hgroup, if_neg (by omega), exchange_uniform hi hu]

end

/-! ## Masks of lanes (R212, R213) -/

theorem getLsbD_ballot (c : Ctx) (w : Warp) (a : Nat) {k : Nat} (hk : k < 32) :
    (ballot c w a).getLsbD k = true ↔ k ∈ c.lanes ∧ w.reg a k ≠ 0 := by
  rw [ballot, getLsbD_maskOf hk, List.mem_filter, nonzero, bne_iff_ne]

/-! ## Reductions (R214) -/

/-- The operator of WRED and WSCAN as the statement pairs it with its number. -/
def laneOperators : List (Nat × (Word → Word → Word)) :=
  [(0, fun x y => x + y), (1, fadd),
    (2, fun x y => if x.toInt ≤ y.toInt then x else y), (3, fun x y => if x.toInt ≤ y.toInt then y else x),
    (4, fun x y => if x.toNat ≤ y.toNat then x else y), (5, fun x y => if x.toNat ≤ y.toNat then y else x)]

theorem laneOperator_of_mem {o : Nat × (Word → Word → Word)} (h : o ∈ laneOperators) : laneOperator o.1 = o.2 := by
  revert o
  simp only [laneOperators, List.forall_mem_cons, List.not_mem_nil, false_imp_iff, implies_true, and_true]
  exact ⟨rfl, rfl, rfl, rfl, rfl, rfl⟩

/-- One level of the tree over an even number of leaves. -/
theorem pairSums_map_range (t : Nat → Word) (n : Nat) :
    pairSums ((List.range (2 * n)).map t) = (List.range n).map fun i => fadd (t (2 * i)) (t (2 * i + 1)) := by
  induction n generalizing t with
  | zero => rfl
  | succ n ih =>
    have hrange : (List.range (2 * (n + 1))).map t = t 0 :: t 1 :: (List.range (2 * n)).map fun i => t (i + 2) := by
      rw [Nat.mul_succ, List.range_succ_eq_map, List.range_succ_eq_map]
      simp [Function.comp_def]
    rw [hrange, pairSums, ih, List.range_succ_eq_map]
    simp [Function.comp_def, Nat.mul_add, Nat.add_right_comm]

theorem fixedTree_eq (c : Ctx) (w : Warp) (a : Nat) :
    let t0 : Nat → Word := fun i => if i ∈ c.lanes then w.reg a i else 0x80000000
    let t1 : Nat → Word := fun i => fadd (t0 i) (t0 (i + 1))
    let t2 : Nat → Word := fun i => fadd (t1 i) (t1 (i + 2))
    let t4 : Nat → Word := fun i => fadd (t2 i) (t2 (i + 4))
    let t8 : Nat → Word := fun i => fadd (t4 i) (t4 (i + 8))
    fixedTree c w a = fadd (t8 0) (t8 16) := by
  intro t0 t1 t2 t4 t8
  have hleaves : ((upto 0 32).map fun i => if c.lanes.contains i then w.reg a i else 0x80000000#32) = (List.range (2 * 16)).map t0 := by
    rw [upto_map]
    simp [t0]
  rw [fixedTree, hleaves, pairSums_map_range _ 16, pairSums_map_range _ 8, pairSums_map_range _ 4, pairSums_map_range _ 2,
    pairSums_map_range _ 1]
  rfl

/-- A reduction of a group, by the number of its operator. -/
theorem execWred_answers {s : State} {c : Ctx} {g : WorkGroup} {w : Warp} (hi : Issues s c g w) (hu : c.word / 2 ^ 31 % 2 = 0)
    (hne : c.lanes ≠ []) {d a : Nat} (ho : OperandsOk c w c.lanes [(d, 1)] [(a, 1)]) (op : Nat) :
    execWred (4 + op) d a s = .next (answer s c fun _ => [(d, if op = 1 then fixedTree c w a
      else (c.lanes.tail.map (w.reg a)).foldl (laneOperator op) (w.reg a c.l0))]) := by
  obtain ⟨k, r, hlanes⟩ := List.exists_cons_of_ne_nil hne
  rw [execWred, exchange_answers hi hu ho]
  by_cases hop : op = 1
  · simp [hop]
  · simp [hop, hlanes, Ctx.l0, List.foldl_map, show 4 + op ≠ 5 by omega]

/-! ## Scans (R215) -/

/-- The value of a lane of a scan, given that of the group's next lower lane, where there is one. -/
def scanValue (op : Nat) (w : Warp) (a b : Nat) (acc : Option Word) (l : Nat) : Word :=
  match acc with
  | some x => if nonzero (w.reg b l) then w.reg a l else laneOperator op x (w.reg a l)
  | none => w.reg a l

theorem scan_cons (op : Nat) (w : Warp) (a b : Nat) (acc : Option Word) (l : Nat) (r : List Nat) : scan op w a b acc (l :: r) =
    (l, scanValue op w a b acc l) :: scan op w a b (some (scanValue op w a b acc l)) r := by
  cases acc <;> rfl

theorem findD_cons {α : Type} (m : Map α) (j k : Nat) (v d : α) : findD ((j, v) :: m) k d = if j = k then v else findD m k d := by
  rw [findD, find]
  split <;> rfl

/-- The recurrence of R215, lane after lane. -/
theorem findD_scan_next (op : Nat) (w : Warp) (a b : Nat) {ls : List Nat} (hls : ls.Nodup) (acc : Option Word) {i : Nat}
    (hi : i + 1 < ls.length) :
    let v : Nat → Word := fun l => findD (scan op w a b acc ls) l 0
    let l := ls.getD (i + 1) 0
    v l = if w.reg b l ≠ 0 then w.reg a l else laneOperator op (v (ls.getD i 0)) (w.reg a l) := by
  induction ls generalizing acc i with
  | nil => exact absurd hi (Nat.not_lt_zero _)
  | cons k r ih =>
    obtain ⟨hk, hr⟩ := List.nodup_cons.mp hls
    have hlater : ∀ {j}, j < r.length → k ≠ r.getD j 0 := fun hj heq => hk (by
      rw [heq, List.getD_eq_getElem _ _ hj]
      exact List.getElem_mem hj)
    have hlen : i < r.length := Nat.lt_of_succ_lt_succ hi
    simp only [scan_cons, findD_cons, List.getD_cons_succ, if_neg (hlater hlen)]
    cases i with
    | zero =>
      obtain ⟨k', r', rfl⟩ := List.exists_cons_of_length_pos hlen
      simp [scan_cons, findD_cons, scanValue, nonzero]
    | succ i =>
      simp only [List.getD_cons_succ, if_neg (hlater (Nat.lt_of_succ_lt hlen))]
      exact ih hr _ hlen

/-! ## The obligation -/

/-- Settles O16: the exchanges by the lanes that they name, a reduction by its fold or its tree, a scan by its recurrence. -/
theorem laneExchangeAndReductionResults : Obligations.LaneExchangeAndReductionResults := by
  unfold Obligations.LaneExchangeAndReductionResults
  refine ⟨fun d a b n s c g w hi => ⟨fun hu => ?exchanges, fun hu => ?uniform⟩, ?reductions⟩
  case exchanges =>
    simp only [exec_shfl, exec_bcast, exec_vote, exec_matchLanes]
    refine ⟨fun ho => ?shfl, fun ho => ⟨fun hn => execBcast_answers hi hu hn ho, ?matchLanes, ?vote⟩,
      fun ho => ⟨_, fun k hk => getLsbD_maskOf hk c.lanes, execVote_group hi hu ho⟩, fun hn => execBcast_beyond hi hu hn d a,
      fun hn => execVote_beyond hi hu hn d a⟩
    case shfl =>
      rw [execShfl, exchange_answers hi hu ho]
      simp only [List.contains_iff_mem]
    case matchLanes =>
      refine ⟨fun l => maskOf (c.lanes.filter fun k => w.reg a k == w.reg a l), fun l _ k hk => ?_, exchange_answers hi hu ho _⟩
      rw [getLsbD_maskOf hk, List.mem_filter, beq_iff_eq]
    case vote =>
      refine ⟨ballot c w a, maskOf c.lanes, fun k hk => ⟨getLsbD_ballot c w a hk, getLsbD_maskOf hk c.lanes⟩, ?_, ?_, ?_⟩
      · exact execVote_answers hi hu (by decide) ho
      · rw [execVote_answers hi hu (by decide) ho]
        simp [truth]
      · rw [execVote_answers hi hu (by decide) ho]
        simp [truth]
  case uniform =>
    simp only [List.forall_mem_cons, List.not_mem_nil, false_imp_iff, implies_true, and_true, exec_shfl, exec_bcast, exec_vote,
      exec_matchLanes, exec_wred, exec_wscan]
    exact ⟨exchange_uniform hi hu d _ _, execBcast_uniform hi hu d a n, execVote_uniform hi hu d a n, exchange_uniform hi hu d _ _,
      exchange_uniform hi hu d _ _, exchange_uniform hi hu d _ _⟩
  case reductions =>
    intro ops d a b s c g w hi hu hne hrise
    simp only [exec_wred, exec_wscan]
    refine ⟨fun ho o hop => ?wred, fun ho o hop => ?wscan⟩
    case wred =>
      rw [execWred_answers hi hu hne ho, laneOperator_of_mem hop, fixedTree_eq]
    case wscan =>
      have hnodup : c.lanes.Nodup := hrise.imp Nat.ne_of_lt
      refine ⟨fun l => findD (scan o.1 w a b none c.lanes) l 0, ?first, fun i hlt => ?next, ?answers⟩
      case first =>
        obtain ⟨k, r, hlanes⟩ := List.exists_cons_of_ne_nil hne
        simp [hlanes, Ctx.l0, scan_cons, findD_cons, scanValue]
      case next =>
        rw [← laneOperator_of_mem hop]
        exact findD_scan_next o.1 w a b hnodup none hlt
      case answers =>
        rw [execWscan, exchange_answers hi hu ho, Nat.add_sub_cancel_left]

end Sys2Proof.Machine
end

section
/-! Tagged blocks in registers (R216, R217): what QNT and DQNT answer once nothing that they read is outstanding, and the obligation put
together from them. -/
namespace Sys2Proof.Machine

/-- A register of any lane as the statement writes it. -/
theorem wholeReg_eq (w : Warp) (r l : Nat) : w.wholeReg r l = if l ∈ w.live then w.reg r l else 0 := by
  simp only [Warp.wholeReg, List.contains_iff_mem]

theorem awaiting_eq_nil {w : Warp} {rs : List Nat}
    (h : ∀ l ∈ w.live, ∀ r ∈ (w.lane l).results, ∀ v ∈ r.vals, v.1 ∉ rs) : w.awaiting rs = [] := by
  rw [Warp.awaiting, List.filter_eq_nil_iff]
  intro l hl
  simpa [Warp.awaits] using h l hl

theorem quantiseBlock_isSome {f : Nat} (hf : f ≤ 8) (xs : List FVal) : (quantiseBlock (qntCode f) xs).isSome := by
  rw [quantiseBlock, Option.isSome_map]
  revert f
  decide

section
variable {s : State} {c : Ctx} {g : WorkGroup} {w : Warp} (hi : Issues s c g w) {d a : Nat}
include hi

theorem execQnt_answers (ho : OperandsOk c w w.live [(d, 1)] [(a, 2)])
    (hready : ∀ l ∈ w.live, ∀ r ∈ (w.lane l).results, ∀ v ∈ r.vals, v.1 ∉ [a, a + 1]) {f block : Nat}
    (hblock : quantiseBlock (qntCode f) ((List.range 64).map fun j => f32 (w.wholeReg (a + j / 32) (j % 32))) = some block) (u : Bool) :
    execQnt u f d a s = .next (answer s c fun l => [(d, BitVec.ofNat 32 (block / 2 ^ (32 * (l % 16))))]) := by
  have hregs : regCheck c w [(d, 1), (a, 2)] = none := regCheck_none ho.1
  simp only [execQnt, withGroup_issues hi, hregs, awaiting_eq_nil hready, poisonCheck_none ho.2, upto_map, Nat.zero_add, hblock]
  rfl

theorem execDqnt_answers (ho : OperandsOk c w (w.live.filter (· < 16)) [(d, 2)] [(a, 1)])
    (hready : ∀ l ∈ w.live, ∀ r ∈ (w.lane l).results, ∀ v ∈ r.vals, v.1 ∉ [a]) (u : Bool) :
    execDqnt u d a s = match decodeBlock (streamOf 32 ((List.range 16).map fun k => (w.wholeReg a k).toNat)) with
      | some y => .next (answer s c fun l => [(d, toF32 (y.elems.getD l .nan)), (d + 1, toF32 (y.elems.getD (32 + l) .nan))])
      | none => .next (raiseTrap s c [(causeFormat, BitVec.ofNat 64 (2 ^ 63 + c.word % 2 ^ 32))]) := by
  have hregs : regCheck c w [(d, 2), (a, 1)] = none := regCheck_none ho.1
  simp only [execDqnt, withGroup_issues hi, hregs, awaiting_eq_nil hready, poisonCheck_none ho.2, upto_map, Nat.zero_add]
  cases decodeBlock (streamOf 32 ((List.range 16).map fun k => (w.wholeReg a k).toNat)) with
  | none => rw [Nat.add_comm (2 ^ 63)]; rfl
  | some y => rfl

end

/-- Settles O17: both instructions by their answers, at the registers as the statement reads them. -/
theorem taggedBlockResults : Obligations.TaggedBlockResults := by
  unfold Obligations.TaggedBlockResults
  intro u d a s c g w hi value ready
  have hvalue : value = w.wholeReg := funext₂ fun r l => (wholeReg_eq w r l).symm
  refine ⟨fun ho hready e he => ?qnt, fun ho hready => ?dqnt⟩
  case qnt =>
    have hcode : e.1 ≤ 8 ∧ qntCode e.1 = e.2 := by
      revert e
      decide
    obtain ⟨block, hblock⟩ := Option.isSome_iff_exists.mp (quantiseBlock_isSome hcode.1
      ((List.range 64).map fun j => f32 (w.wholeReg (a + j / 32) (j % 32))))
    exact ⟨block, by rw [hvalue, ← hcode.2, hblock], by rw [exec_qnt, execQnt_answers hi ho hready hblock]⟩
  case dqnt =>
    rw [exec_dqnt, execDqnt_answers hi ho hready, hvalue]
    cases decodeBlock (streamOf 32 ((List.range 16).map fun k => (w.wholeReg a k).toNat)) <;> rfl

end Sys2Proof.Machine
end

section
/-! PREF, FENCE and XFENCE (R226, R227, R231, R232): what bridges leave of what reads may still find, what each instruction answers, and the
obligation put together from them. -/
namespace Sys2Proof.Machine

theorem mem_nub {α : Type} [DecidableEq α] (x : α) (l : List α) : x ∈ nub l ↔ x ∈ l := by
  induction l with
  | nil => rfl
  | cons y r ih =>
    by_cases h : x = y
    · simp [nub, h]
    · simp [nub, h, ih]

/-! ## Bridges (R96) -/

/-- A unit that `bridgeOn` carries from a path to another: what stood there, with the new path. -/
def Late.bridged (x : Late) (a b : Nat) : Late := if x.paths.contains a then { x with paths := nub (b :: x.paths) } else x

theorem Late.bridged_of_mem {x : Late} {a : Nat} (h : a ∈ x.paths) (b : Nat) : x.bridged a b = { x with paths := nub (b :: x.paths) } :=
  if_pos (by simpa using h)

theorem Late.bridged_of_not_mem {x : Late} {a : Nat} (h : a ∉ x.paths) (b : Nat) : x.bridged a b = x := if_neg (by simpa using h)

/-- An acquire keeps every unit, with more readers. -/
theorem acquireOn_late_keeps {s : State} {x : Late} (h : x ∈ s.late) (p core : Nat) :
    ∃ seen, { x with seen := seen } ∈ (s.acquireOn p core).late := by
  by_cases ht : (x.paths.contains 0 && x.parts.contains p) = true
  · exact ⟨(x.saw core).seen, List.mem_map.mpr ⟨x, h, by rw [if_pos ht, ← (x.saw_spec core).2.2]⟩⟩
  · exact ⟨x.seen, List.mem_map.mpr ⟨x, h, if_neg ht⟩⟩

/-- The state after the first half of a bridge: chains on `a` go on to `b`. -/
def State.carried (s : State) (a b : Nat) : State := { s with late := s.late.map fun x => x.bridged a b }

theorem bridgeOn_eq (s : State) (p core a b : Nat) :
    s.bridgeOn p core a b = if b = 0 then (s.carried a b).acquireOn p core else s.carried a b := rfl

/-- What a chain on the one path carries stands in the list, on the other path too. -/
theorem bridgeOn_carries {s : State} {a : Nat} {x : Late} (hx : x ∈ s.late) (ha : a ∈ x.paths) (p core b : Nat) :
    ∃ y ∈ (s.bridgeOn p core a b).late, y.spad = x.spad ∧ y.unit = x.unit ∧ y.old = x.old ∧ b ∈ y.paths := by
  have hmem : x.bridged a b ∈ (s.carried a b).late := List.mem_map_of_mem hx
  rw [Late.bridged_of_mem ha] at hmem
  have hb : b ∈ nub (b :: x.paths) := (mem_nub _ _).mpr List.mem_cons_self
  rw [bridgeOn_eq]
  split
  · obtain ⟨seen, hseen⟩ := acquireOn_late_keeps hmem p core
    exact ⟨_, hseen, rfl, rfl, rfl, hb⟩
  · exact ⟨_, hmem, rfl, rfl, rfl, hb⟩

/-- A bridge that reaches simt has brought its core what it carries. -/
theorem bridgeOn_simt_seen {s : State} {p core a : Nat} {y : Late} (hy : y ∈ (s.bridgeOn p core a 0).late) (ha : a ∈ y.paths)
    (hp : p ∈ y.parts) : core ∈ y.seen := by
  obtain ⟨z, hz, heq, -, hseen⟩ := acquireOn_late (show y ∈ ((s.carried a 0).acquireOn p core).late from hy)
  obtain ⟨x, -, rfl⟩ := List.mem_map.mp hz
  have hpaths : y.paths = (x.bridged a 0).paths := by rw [heq]
  have hparts : y.parts = (x.bridged a 0).parts := by rw [heq]
  have hax : a ∈ x.paths := by
    by_contra hax
    rw [hpaths, Late.bridged_of_not_mem hax] at ha
    exact hax ha
  refine hseen ?_ (hparts ▸ hp)
  rw [Late.bridged_of_mem hax]
  exact (mem_nub _ _).mpr List.mem_cons_self

/-! ## What the instructions answer -/

section
variable {s : State} {c : Ctx} {g : WorkGroup} {w : Warp} (hi : Issues s c g w)
include hi

/-- PREF stands in the store counter, an entry without bytes. -/
theorem prefetch_answers (hcount : (s.work c.p).storeCount c.wg c.wid < 63)
    (heven : c.word / 2 ^ 10 % 2 ^ 7 % 2 = 0) (hlt : c.word / 2 ^ 10 % 2 ^ 7 + 2 ≤ 8 * w.alloc) :
    prefetch s = .next (retire
      (s.addStore c ⟨s.ids, 0, c.wg, c.wid, c.l0, privOf g w, false, false, [], none, w.trap.hm⟩).fresh c) := by
  have hregs : regCheck c w [(bitsOf c.word 16 10, 2)] = none := 
    regCheck_none fun u hu => by rw [List.mem_singleton.mp hu]; exact ⟨heven, hlt⟩
  rw [prefetch, withGroup_issues hi, if_neg (Nat.not_le.mpr hcount), hregs]

theorem execFence_releases : execFence s = releasing s c c.lanes fun _ =>
    .next (retire ((s.drainLanes c c.lanes).acquireOn c.p g.core) c) := withGroup_issues hi _

variable {a b : Nat}

theorem execXfence_illegal (h : 5 < a ∨ 5 < b) (u : Bool) : execXfence u a b s = trapWord s c causeOperand := by
  rw [execXfence, withGroup_issues hi, if_pos h]

theorem execXfence_same (ha : a ≤ 5) (u : Bool) : execXfence u a a s = .next (retire s c) := by
  rw [execXfence, withGroup_issues hi, if_neg (by omega), if_pos rfl]

theorem execXfence_bridges (ha : a ≤ 5) (hb : b ≤ 5) (hab : a ≠ b) (u : Bool) :
    execXfence u a b s = releasing s c (if a = 3 then c.lanes else []) fun _ =>
      .next (retire ((if a = 0 then s.drainLanes c c.lanes else s).bridgeOn c.p g.core a b) c) := by
  rw [execXfence, withGroup_issues hi, if_neg (by omega), if_neg hab]

end

/-! ## The obligation -/

/-- Settles O26: each instruction by its answer, the two facts on overwritten bytes by what a bridge and an acquire leave. -/
theorem prefetchFenceBridgeComplete : Obligations.PrefetchFenceBridgeComplete := by
  unfold Obligations.PrefetchFenceBridgeComplete
  intro u a b s c g w hi
  refine ⟨?pref, ?waits, ?fences, ?acquired, ?xfence, ?carried, ?seen, ?illegal⟩
  case pref =>
    intro hcount heven hlt
    simp only [List.forall_mem_cons, List.not_mem_nil, false_imp_iff, implies_true, and_true]
    exact ⟨prefetch_answers hi hcount heven hlt, prefetch_answers hi hcount heven hlt⟩
  case waits =>
    intro hopen
    rw [exec_fence, execFence_releases hi, releasing_open hopen]
  case fences =>
    intro hclosed
    rw [exec_fence, execFence_releases hi, releasing_closed hclosed]
    rfl
  case acquired =>
    intro y hy hpath hpart
    obtain ⟨x, -, heq, -, hseen⟩ := acquireOn_late hy
    rw [heq] at hpath hpart
    exact hseen hpath hpart
  case xfence =>
    intro ha hb
    have hnone : ∀ l ∈ ([] : List Nat), s.laneOpen c.p c.wg c.wid l = false := fun _ h => nomatch h
    refine ⟨fun hab => ?_, fun hab ha0 hclosed => ?_, fun ha0 hb0 => ?_, fun ha3 hb3 hopen => ?_⟩
    · subst hab
      exact execXfence_same hi ha u
    · rw [exec_xfence, execXfence_bridges hi ha hb hab, releasing_closed, if_neg ha0]
      intro l hl
      split at hl
      · next h3 => exact hclosed h3 l hl
      · exact hnone l hl
    · subst ha0
      rw [exec_xfence, execXfence_bridges hi ha hb (Ne.symm hb0), if_neg (by decide), releasing_closed hnone, if_pos rfl]
      rfl
    · subst ha3
      rw [exec_xfence, execXfence_bridges hi ha hb (Ne.symm hb3), if_pos rfl, releasing_open hopen]
  case carried => exact fun y hy ha => bridgeOn_carries hy ha c.p g.core b
  case seen =>
    rintro rfl - y hy ha hp
    exact bridgeOn_simt_seen hy ha hp
  case illegal => exact fun h => execXfence_illegal hi h u

end Sys2Proof.Machine
end

section
/-! LBAR, SPPIN and SPUNPIN (R233, R235, R372): which pages a range touches, what each instruction answers, and the obligation put together
from them. -/
namespace Sys2Proof.Machine

/-! ## Pages that a range touches (R235) -/

/-- The pages of the own space that `n` bytes from `x` on touch, by key. -/
def WorkGroup.pagesOf (g : WorkGroup) (lix : List Nat) (x n : Nat) : List Nat :=
  (upto (x / 4096) ((x + n - 1) / 4096 + 1 - x / 4096)).filterMap (g.pageKey lix)

theorem mem_upto {a n i : Nat} : i ∈ upto a n ↔ a ≤ i ∧ i < a + n := by
  rw [upto_eq_map_range, List.mem_map]
  constructor
  · rintro ⟨k, hk, rfl⟩
    have := List.mem_range.mp hk
    omega
  · rintro ⟨hlo, hhi⟩
    exact ⟨i - a, List.mem_range.mpr (by omega), by omega⟩

/-- A page is touched when it overlaps the range. -/
theorem WorkGroup.mem_pagesOf {g : WorkGroup} {lix : List Nat} {x n y : Nat} (hn : 0 < n) :
    y ∈ g.pagesOf lix x n ↔ ∃ m, m * 4096 < x + n ∧ x < (m + 1) * 4096 ∧ g.pageKey lix m = some y := by
  simp only [WorkGroup.pagesOf, List.mem_filterMap, mem_upto]
  refine exists_congr fun m => ?_
  have hrange : x / 4096 ≤ m ∧ m < x / 4096 + ((x + n - 1) / 4096 + 1 - x / 4096) ↔ m * 4096 < x + n ∧ x < (m + 1) * 4096 := by omega
  rw [hrange, and_assoc]

/-! ## What the instructions answer -/

section
variable {s : State} {c : Ctx} {g : WorkGroup} {w : Warp} (hi : Issues s c g w)
include hi

theorem execLbar_handler (hm : w.trap.hm = true) (u : Bool) (k : Nat) : execLbar u k s = trapWord s c causeIllegal := by
  rw [execLbar, withGroup_issues hi, if_pos hm]

section
variable (hm : w.trap.hm = false) {x : Launch} (hx : (s.work c.p).launch g.seq = some x) {k : Nat}
include hm hx

theorem execLbar_undeclared (hk : (levelsOf x g).length ≤ k ∨ ((levelsOf x g).getD k (contLevel 1)).domain = 7) (u : Bool) :
    execLbar u k s = trapWord s c causeOperand := by
  rw [execLbar, withGroup_issues hi, if_neg (by simp [hm])]
  simp only [hx]
  rw [if_pos hk]

/-- LBAR on a declared level: a release, and the lanes are held. -/
theorem execLbar_declared (hk : k < (levelsOf x g).length) (hdom : ((levelsOf x g).getD k (contLevel 1)).domain ≠ 7) (u : Bool) :
    execLbar u k s = releasing s c c.lanes fun _ =>
      .next ((retireTo ((s.drainLanes c c.lanes).modWarp c.p c.wg c.wid fun v => v.modLanes c.lanes fun y => { y with hold := .lbar k })
        c []).settle c.p) := by
  rw [execLbar, withGroup_issues hi, if_neg (by simp [hm])]
  simp only [hx]
  rw [if_neg (by rintro (h | h); exacts [Nat.not_le.mpr hk h, hdom h])]

end

variable {a b : Nat} (ho : OperandsOk c w [c.l0] [] [(a, 1), (b, 1)])
include ho

theorem pinOp_nothing (hn : (w.reg b c.l0).toNat = 0) (f : List Nat → List Nat → List Nat) : pinOp a b f s = .next (retire s c) := by
  simp only [pinOp, withGroup_issues hi, withRegs_ok ho, hn, if_true]

theorem pinOp_outside (hn : 0 < (w.reg b c.l0).toNat)
    (hout : 2 ^ 25 ≤ (w.reg a c.l0).toNat ∨ (w.reg a c.l0).toNat / 2 ^ 20 ≠ g.core % 32 ∨
      g.ownSpace < (w.reg a c.l0).toNat % 2 ^ 20 + (w.reg b c.l0).toNat) (f : List Nat → List Nat → List Nat) :
    pinOp a b f s = .next (raiseTrap s c [(causeSpad, BitVec.ofNat 64 (w.reg a c.l0).toNat)]) := by
  simp only [pinOp, withGroup_issues hi, withRegs_ok ho]
  rw [if_neg (Nat.pos_iff_ne_zero.mp hn)]
  exact if_pos hout

theorem pinOp_inside (hn : 0 < (w.reg b c.l0).toNat) (hcore : (w.reg a c.l0).toNat / 2 ^ 20 = g.core % 32)
    (hspace : (w.reg a c.l0).toNat % 2 ^ 20 + (w.reg b c.l0).toNat ≤ g.ownSpace) (hlt : (w.reg a c.l0).toNat < 2 ^ 25)
    (f : List Nat → List Nat → List Nat) : pinOp a b f s = .next (retire (s.modWork c.p fun v =>
      { v with pins := f v.pins (g.pagesOf (w.lane c.l0).lix ((w.reg a c.l0).toNat % 2 ^ 20) (w.reg b c.l0).toNat) }) c) := by
  simp only [pinOp, withGroup_issues hi, withRegs_ok ho]
  rw [if_neg (Nat.pos_iff_ne_zero.mp hn), if_neg]
  · rfl
  · rintro (h | h | h)
    exacts [Nat.not_le.mpr hlt h, h hcore, Nat.not_le.mpr h hspace]

end

/-! ## The obligation -/

/-- Settles O28: LBAR by the branches of its checks, SPPIN and SPUNPIN by the pages that the range touches. -/
theorem barrierAndPinsComplete : Obligations.BarrierAndPinsComplete := by
  unfold Obligations.BarrierAndPinsComplete
  intro u k a b s c g w hi word
  refine ⟨fun hm => execLbar_handler hi hm u k, fun x hx hm => ⟨fun hk hdom => ?declared, fun hk => execLbar_undeclared hi hm hx hk u⟩, fun ho => ?pins⟩
  case declared =>
    intro arrived
    rw [exec_lbar, execLbar_declared hi hm hx hk hdom]
    exact ⟨fun hclosed => releasing_closed hclosed _, fun hopen => releasing_open hopen _⟩
  case pins =>
  intro x n page
  rw [exec_sppin, exec_spunpin, execSppin, execSpunpin]
  refine ⟨fun hn => ⟨pinOp_nothing hi ho hn _, pinOp_nothing hi ho hn _⟩, fun hn hcore hspace hlt => ?inside, fun hn hout => ?outside⟩
  case inside =>
    have hmem : ∀ y, y ∈ g.pagesOf (w.lane c.l0).lix (x % 2 ^ 20) n ↔
        ∃ m, m * 4096 < x % 2 ^ 20 + n ∧ x % 2 ^ 20 < (m + 1) * 4096 ∧ page m = some y := fun y => WorkGroup.mem_pagesOf hn
    refine ⟨nub ((s.work c.p).pins ++ g.pagesOf (w.lane c.l0).lix (x % 2 ^ 20) n),
      (s.work c.p).pins.filter fun y => !(g.pagesOf (w.lane c.l0).lix (x % 2 ^ 20) n).contains y, fun y => ?_, fun y => ?_,
      pinOp_inside hi ho hn hcore hspace hlt _, pinOp_inside hi ho hn hcore hspace hlt _⟩
    · rw [mem_nub, List.mem_append, hmem]
    · rw [List.mem_filter, ← hmem]
      simp
  case outside =>
    simp only [List.forall_mem_cons, List.not_mem_nil, false_imp_iff, implies_true, and_true, exec_sppin, exec_spunpin, execSppin, execSpunpin]
    exact ⟨pinOp_outside hi ho hn hout _, pinOp_outside hi ho hn hout _⟩

end Sys2Proof.Machine
end

section
/-! MLDR and MST (R219, R241, R242, R418): what one access answers by what its checks and its members find, and the obligation put together
from that. -/
namespace Sys2Proof.Machine

/-! ## One access for the group (R62) -/

/-- With one reader, its value goes to every lane of the group. -/
theorem spread_one {α : Type} {c : Ctx} {u : Bool} {k : Nat} (h : c.readers u = [k]) (v : α) :
    spread c u [(k, v)] = c.lanes.map fun l => (l, v) := by
  cases u with
  | true => rfl
  | false =>
    have hlanes : c.lanes = [k] := h
    rw [hlanes]
    rfl

/-! ## Address-group addresses and results -/

/-- The group and the address within it that lane `k` names, displaced by `off`. -/
theorem groupAddr_pair (w : Warp) (a k off : Nat) : groupAddr (w.pair a k) off =
    (((w.reg a k).toNat + 2 ^ 32 * (w.reg (a + 1) k).toNat) / 2 ^ 56, ((w.reg a k).toNat + 2 ^ 32 * (w.reg (a + 1) k).toNat + off) % 2 ^ 56) := by
  rw [groupAddr, toNat_pair]

theorem memberTval_eq (id va k cause : Nat) : memberTval (id, va) k cause =
    BitVec.ofNat 64 (if cause = 28 then k * 2 ^ 57 + va % 2 ^ 56 else id * 2 ^ 56 + va) := by
  have hdata : causeData = 28 := rfl
  rw [memberTval, hdata, dataTval, Nat.zero_mul, Nat.zero_add]
  split <;> rfl

/-- Every lane of the group gets one more outstanding result, and the group goes on. -/
def State.resultsGiven (s : State) (c : Ctx) (x : Result) : State :=
  (retire s c).fresh.modWarp c.p c.wg c.wid fun y => c.lanes.foldl (fun y lane =>
    y.modLanes [lane] fun z => { z with results := z.results ++ [x] }) y

/-- A result of which some member still waits. -/
theorem mldrResult_waits {ps : List (Option Word)} (h : none ∈ ps) (t la d : Nat) (hm : Bool) (born : Nat) :
    mldrResult t la d hm born ps = ⟨t, la, false, [(d, 0)], ps, hm, born⟩ := if_neg fun hall => by
  simpa using List.all_eq_true.mp hall none h

/-- A result of which every member has answered. -/
theorem mldrResult_answered (vs : List Word) (t la d : Nat) (hm : Bool) (born : Nat) :
    mldrResult t la d hm born (vs.map some) = ⟨t, la, true, [(d, memberSum vs.length vs)], [], hm, born⟩ := by
  have hall : (vs.map some).all Option.isSome = true := by simp
  have hvals : (vs.map some).map (fun y => y.getD 0) = vs := by simp
  rw [mldrResult, if_pos hall, hvals, List.length_map]

/-- The sums of up to four members, written out. -/
theorem memberSum_eq (vs : List Word) : memberSum vs.length vs = (match vs with
    | [y] => y
    | [y, z] => fadd y z
    | [y, z, t] => fadd (fadd y z) t
    | [y, z, t, v] => fadd (fadd y z) (fadd t v)
    | _ => memberSum vs.length vs) := by
  match vs with
  | [] => rfl
  | [_] => rfl
  | [_, _] => rfl
  | [_, _, _] => rfl
  | [_, _, _, _] => rfl
  | _ :: _ :: _ :: _ :: _ :: _ => rfl

/-! ## What the instructions answer -/

section
variable {s : State} {c : Ctx} {g : WorkGroup} {w : Warp} (hi : Issues s c g w) {u : Bool} {k : Nat} (hk : c.readers u = [k])
  {l a b x id va : Nat}
include hi hk

section
variable (hload : w.loadCount < 63) (ho : OperandsOk c w [k] [(b, 1)] [(a, 2)]) (haddr : groupAddr (w.pair a k) (2 * x) = (id, va))
include hload ho haddr

theorem execMldr_faults {e : Nat × DWord} (hcheck : s.groupCheck c g w (id, va) 2 .read k = some e) :
    execMldr u l a b x s = .next (raiseTrap s c [e]) := by
  simp only [execMldr, withGroup_issues hi, if_neg (Nat.not_le.mpr hload), hk, withRegs_ok ho, List.filterMap_cons, List.filterMap_nil,
    haddr, hcheck, List.isEmpty_cons, Bool.not_false, if_true]

/-- MLDR past its checks: absent members are found, and the group takes what the access of its one lane gives. -/
theorem execMldr_checked (hcheck : s.groupCheck c g w (id, va) 2 .read k = none) : execMldr u l a b x s =
    match (s.findAbsent c.p id).mldrLane c g w ((s.findAbsent c.p id).hasAbsent c.p id) u (id, va) k with
    | .ok (s1, ps) => .next (s1.resultsGiven c (mldrResult s.ids l b w.trap.hm s.cycle ps))
    | .error t => .next (raiseTrap (s.findAbsent c.p id).fresh c [t]) := by
  have hnub : nub [id] = [id] := rfl
  simp only [execMldr, withGroup_issues hi, if_neg (Nat.not_le.mpr hload), hk, withRegs_ok ho, List.filterMap_cons, List.filterMap_nil,
    haddr, hcheck, List.isEmpty_nil, Bool.not_true, Bool.false_eq_true, if_false, List.map_cons, List.map_nil, hnub, List.foldl_cons,
    List.foldl_nil, List.any_cons, List.any_nil, Bool.or_false, loadAll]
  cases (s.findAbsent c.p id).mldrLane c g w ((s.findAbsent c.p id).hasAbsent c.p id) u (id, va) k with
  | error t => rfl
  | ok r => simp only [spread_one hk, List.foldl_map, State.resultsGiven]

end

section
variable (hstore : (s.work c.p).storeCount c.wg c.wid < 63) (ha : OperandsOk c w [k] [] [(a, 2)]) (hb : OperandsOk c w [] [(b, 1)] [])
  (haddr : groupAddr (w.pair a k) (4 * x) = (id, va))

omit hi hk in
theorem mst_operandsPass (ha : OperandsOk c w [k] [] [(a, 2)]) (hb : OperandsOk c w [] [(b, 1)] []) :
    regCheck c w [(a, 2), (b, 1)] = none ∧ poisonCheck w [k] [(a, 2)] = none := by
  refine ⟨regCheck_none fun r hr => ?_, poisonCheck_none ha.2⟩
  rcases List.mem_cons.mp hr with rfl | hr
  · exact ha.1 _ (by simp)
  · exact hb.1 r hr

include hstore ha hb haddr

theorem execMst_faults {e : Nat × DWord} (hcheck : s.groupCheck c g w (id, va) 4 .write k = some e) :
    execMst u l a b x s = .next (raiseTrap s c [e]) := by
  obtain ⟨hreg, hpoison⟩ := mst_operandsPass ha hb
  simp only [execMst, withGroup_issues hi, if_neg (Nat.not_le.mpr hstore), hk, hreg, hpoison, List.filterMap_cons, List.filterMap_nil,
    haddr, hcheck, List.isEmpty_cons, Bool.not_false, if_true]

/-- MST past its checks: absent members are found, and the word goes to the others. -/
theorem execMst_checked (hcheck : s.groupCheck c g w (id, va) 4 .write k = none) : execMst u l a b x s =
    match (s.findAbsent c.p id).memberWrites ((s.findAbsent c.p id).walkView c k) c.p (privOf g w) id va
      (((s.findAbsent c.p id).part c.p).group id).absent (w.reg b k) (w.poison.contains (regKey b k))
      (.write (w.reg b k) (w.poison.contains (regKey b k)) c.p s.ids k) 0 (((s.findAbsent c.p id).part c.p).group id).members with
    | .ok e => .next (retire (e.1.addStore c ⟨s.ids, e.2, c.wg, c.wid, k, privOf g w, false, false, [], none, w.trap.hm⟩).fresh c)
    | .error t => .next (raiseTrap (s.findAbsent c.p id).fresh c [(t, memberTval (id, va) k t)]) := by
  obtain ⟨hreg, hpoison⟩ := mst_operandsPass ha hb
  have hnub : nub [id] = [id] := rfl
  simp only [execMst, withGroup_issues hi, if_neg (Nat.not_le.mpr hstore), hk, hreg, hpoison, List.filterMap_cons, List.filterMap_nil,
    haddr, hcheck, List.isEmpty_nil, Bool.not_true, Bool.false_eq_true, if_false, List.map_cons, List.map_nil, hnub, List.foldl_cons,
    List.foldl_nil, storeAll]
  generalize State.memberWrites _ _ _ _ _ _ _ _ _ _ _ _ = r
  cases r <;> rfl

end

end

/-! ## The obligation -/

/-- Settles O33: each clause is a branch of what MLDR or MST answers past its checks. -/
theorem multicastAccessesComplete : Obligations.MulticastAccessesComplete := by
  unfold Obligations.MulticastAccessesComplete
  intro u l a b x k s c g w hi hk base id s0 gr results result tval
  have hinvalid (hv : ((s.part c.p).group id).valid = false) (va n : Nat) (kd : Kind) :
      s.groupCheck c g w (id, va) n kd k = some (17, BitVec.ofNat 64 (id * 2 ^ 56 + va)) := by
    rw [State.groupCheck, if_pos (by simp [hv])]
    rfl
  refine ⟨fun hload ho => ?mldr, fun hstore ha hb => ?mst⟩
  case mldr =>
    intro at_ reads
    have haddr : groupAddr (w.pair a k) (2 * x) = (id, at_) := groupAddr_pair w a k _
    have hlane (habsent : gr.absent = []) : s0.mldrLane c g w (s0.hasAbsent c.p id) u (id, at_) k = match reads with
        | .ok r => .ok r
        | .error e => .error (e, memberTval (id, at_) k e) := by
      have hnone : s0.hasAbsent c.p id = false := by simp [State.hasAbsent, gr] at habsent ⊢; exact habsent
      rw [State.mldrLane, hnone]
      exact if_neg Bool.false_ne_true
    refine ⟨fun hcheck habsent => ⟨fun s1 ps hreads hwait => ?_, fun cause hreads => ?_, fun s1 vs hreads _ => ?_⟩, fun hcheck habsent => ?_,
      fun hv => execMldr_faults hi hk hload ho haddr (hinvalid hv _ _ _)⟩
    · rw [exec_mldr, execMldr_checked hi hk hload ho haddr hcheck, hlane habsent, hreads]
      simp only [mldrResult_waits hwait]
      rfl
    · rw [exec_mldr, execMldr_checked hi hk hload ho haddr hcheck, hlane habsent, hreads]
      simp only [memberTval_eq]
      rfl
    · rw [exec_mldr, execMldr_checked hi hk hload ho haddr hcheck, hlane habsent, hreads]
      simp only [mldrResult_answered]
      exact congrArg (fun v => Host.Outcome.next (result s1 v)) (memberSum_eq vs)
    · have hsome : s0.hasAbsent c.p id = true := by simp [State.hasAbsent, gr] at habsent ⊢; exact habsent
      rw [exec_mldr, execMldr_checked hi hk hload ho haddr hcheck, State.mldrLane, hsome, if_pos rfl]
      rfl
  case mst =>
    intro at_
    have haddr : groupAddr (w.pair a k) (4 * x) = (id, at_) := groupAddr_pair w a k _
    refine ⟨fun hcheck => ?_, fun hv => execMst_faults (l := l) hi hk hstore ha hb haddr (hinvalid hv _ _ _)⟩
    intro writes
    have hexec := execMst_checked (l := l) hi hk hstore ha hb haddr hcheck
    refine ⟨fun e hwrites => ?_, fun cause hwrites => ?_⟩ <;> simp only [writes, s0, gr] at hwrites
    · rw [exec_mst, hexec, hwrites]
    · rw [exec_mst, hexec, hwrites]
      simp only [memberTval_eq]
      rfl

end Sys2Proof.Machine
end

section
/-! Lanes that act one by one or wait (R62, R153, R238): what the group's lanes give when each of them acts, and what a group leaves alone of
which a lane waits or faults. -/
namespace Sys2Proof.Machine

/-! ## Values of the readers (R62) -/

/-- The readers' values, for every lane of the group. -/
theorem spread_readers {α : Type} (c : Ctx) (u : Bool) (v : Nat → α) :
    spread c u ((c.readers u).map fun l => (l, v l)) = c.lanes.map fun l => (l, v (c.readerOf u l)) := by cases u <;> rfl

theorem map_fst_tagged {α : Type} (ls : List Nat) (v : Nat → α) : (ls.map fun l => (l, v l)).map (·.1) = ls := by
  rw [List.map_map]
  exact List.map_id ls

/-- The readers' values spread to the group, its lanes written with them: an answer. -/
theorem answer_spread (s : State) (c : Ctx) (u : Bool) (v : Nat → List (Nat × Word)) :
    retire (writeLanes s c (spread c u ((c.readers u).map fun l => (l, v l)))) c = answer s c fun l => v (c.readerOf u l) := by
  rw [spread_readers]
  rfl

/-! ## Each lane acts -/

section
variable {P : State → Prop} {next : State → State} {v : Nat → List (Nat × Word)} {ls : List Nat}

/-- Operations of which each succeeds wherever `P` holds, which it leaves to hold. -/
theorem laneSteps_all {f : LaneStep} (hf : ∀ t, P t → P (next t) ∧ ∀ l ∈ ls, f t l = .ok (next t, v l)) {s : State} (hs : P s) :
    laneSteps f s ls = (ls.foldl (fun t _ => next t) s, ls.map fun l => (l, v l), none) := by
  induction ls generalizing s with
  | nil => rfl
  | cons l r ih =>
    obtain ⟨hnext, hstep⟩ := hf s hs
    rw [laneSteps, hstep l List.mem_cons_self]
    simp only [ih (fun t ht => ⟨(hf t ht).1, fun k hk => (hf t ht).2 k (List.mem_cons_of_mem _ hk)⟩) hnext, List.foldl_cons, List.map_cons]

theorem waitSteps_all {kind : Nat → WaitKind} {group : Nat → List Nat} {c : Ctx} {f : WaitStep}
    (hf : ∀ t, P t → P (next t) ∧ ∀ l ∈ ls, f t l = .ok (some (next t, v l))) {s : State} (hs : P s) :
    waitSteps kind group c f s ls = (ls.foldl (fun t _ => next t) s, ls.map fun l => (l, v l), [], none) := by
  induction ls generalizing s with
  | nil => rfl
  | cons l r ih =>
    obtain ⟨hnext, hstep⟩ := hf s hs
    rw [waitSteps, hstep l List.mem_cons_self]
    simp only [ih (fun t ht => ⟨(hf t ht).1, fun k hk => (hf t ht).2 k (List.mem_cons_of_mem _ hk)⟩) hnext, List.foldl_cons, List.map_cons]

end

/-! ## What the group leaves alone -/

/-- A waiter joins the end of the order. -/
def State.waiting (s : State) (p : Nat) (x : Waiter) : State := s.modWork p fun w => { w with waiters := w.waiters ++ [x] }

theorem State.waiting_waiters (s : State) (p : Nat) (x : Waiter) : ((s.waiting p x).work p).waiters = (s.work p).waiters ++ [x] := by
  rw [State.waiting, State.modWork_work_same]

theorem State.LeavesRest.refl (s : State) : s.LeavesRest s :=
  ⟨⟨rfl, rfl, rfl, rfl, rfl, rfl, rfl, rfl, rfl, rfl, rfl, rfl, rfl, rfl⟩, fun _ => rfl⟩

section
variable {s t : State} (h : s.LeavesRest t)
include h

theorem State.LeavesRest.waiters_eq (p : Nat) : (t.work p).waiters = (s.work p).waiters  := by
  have hwork := congrArg Work.waiters (h.2 p)
  exact hwork

theorem State.LeavesRest.mem_eq : t.mem = s.mem := by obtain ⟨⟨hmem, -⟩, -⟩ := h; exact hmem

theorem State.LeavesRest.parts_eq : t.parts = s.parts := by obtain ⟨⟨-, -, -, -, hparts, -⟩, -⟩ := h; exact hparts

theorem State.LeavesRest.gates_eq : t.gates = s.gates := by obtain ⟨⟨-, -, -, -, -, -, hgates, -⟩, -⟩ := h; exact hgates

end

theorem writeLanes_leavesRest (s : State) (c : Ctx) (vs : List (Nat × List (Nat × Word))) : s.LeavesRest (writeLanes s c vs) :=
  State.modWg_leavesRest ..

theorem retireTo_leavesRest (s : State) (c : Ctx) (adv : List Nat) : s.LeavesRest (retireTo s c adv) := State.modWg_leavesRest ..

theorem advance_leavesRest (s : State) (c : Ctx) (ls : List Nat) : s.LeavesRest (advance s c ls) := State.modWg_leavesRest ..

section
variable {s s' : State} {c : Ctx} {w : Warp} {u : Bool} {kind : Nat → WaitKind} {f : WaitStep} {fin : State → State}

/-- The group when every lane acts: an answer. -/
theorem laneWaits_answers {v : Nat → List (Nat × Word)}
    (he : waitSteps kind (fun l => if u then c.lanes else [l]) c f s (c.readers u) = (s', (c.readers u).map fun l => (l, v l), [], none)) :
    laneWaits s c w u kind f fin = .next (fin (answer s' c fun l => v (c.readerOf u l))) := by
  have hu : (u && !((c.readers u).map fun l => (l, v l)).isEmpty) = u := by cases u <;> rfl
  rw [laneWaits, he]
  simp only [hu, spread_readers, map_fst_tagged, List.isEmpty_nil, Bool.not_true, Bool.and_false, Bool.false_eq_true, if_false, if_true]
  rfl

/-- The group of one operation that acts. -/
theorem laneWaits_acts {k : Nat} {v : List (Nat × Word)} (hk : c.readers u = [k]) (hf : f s k = .ok (some (s', v))) :
    laneWaits s c w u kind f fin = .next (fin (answer s' c fun _ => v)) :=
  laneWaits_answers (v := fun _ => v) (by rw [hk, waitSteps, hf]; rfl)

variable (hm : w.trap.hm = false) {vs : List (Nat × List (Nat × Word))} {held : List Nat}
include hm

/-- The group when no lane faults: what its lanes have done is left alone. -/
theorem laneWaits_goesOn
    (he : waitSteps kind (fun l => if u then c.lanes else [l]) c f s (c.readers u) = (s', vs, held, none)) :
    ∃ t, laneWaits s c w u kind f fin = .next (fin t) ∧ s'.LeavesRest t := by
  rw [laneWaits, he]
  simp only [hm, Bool.false_and, Bool.false_eq_true, if_false]
  refine ⟨_, rfl, State.LeavesRest.trans ?_ (retireTo_leavesRest ..)⟩
  split
  · exact writeLanes_leavesRest ..
  · exact (writeLanes_leavesRest ..).trans (State.modWg_leavesRest ..)

/-- The group when a lane faults: the trap is taken after what the lanes below have done. -/
theorem laneWaits_faults {e : Nat × DWord}
    (he : waitSteps kind (fun l => if u then c.lanes else [l]) c f s (c.readers u) = (s', vs, held, some e)) :
    ∃ t, laneWaits s c w u kind f fin = .next (fin (raiseTrap t c [e])) ∧ s'.LeavesRest t := by
  rw [laneWaits, he]
  simp only [hm, Bool.false_and, Bool.false_eq_true, if_false]
  refine ⟨_, rfl, State.LeavesRest.trans ?_ (advance_leavesRest ..)⟩
  refine State.LeavesRest.trans ?_ (State.modWg_leavesRest ..)
  split
  · exact writeLanes_leavesRest ..
  · exact (writeLanes_leavesRest ..).trans (State.modWg_leavesRest ..)

/-- The group of one operation that must wait. -/
theorem laneWaits_waits {k : Nat} (hk : c.readers u = [k]) (hf : f s k = .ok none) :
    ∃ t, laneWaits s c w u kind f fin = .next (fin t) ∧ (s.waiting c.p ⟨kind k, c.wg, c.wid, c.lanes⟩).LeavesRest t := by
  have hgroup : (if u then c.lanes else [k]) = c.lanes := by
    cases u with
    | true => rfl
    | false => exact hk.symm
  have he : waitSteps kind (fun l => if u then c.lanes else [l]) c f s (c.readers u) =
      (s.waiting c.p ⟨kind k, c.wg, c.wid, c.lanes⟩, [], c.lanes ++ [], none) := by
    rw [hk, waitSteps, hf]
    simp only [hgroup]
    rfl
  exact laneWaits_goesOn hm he

end

end Sys2Proof.Machine
end

section
/-! Gates (R149, R243, R244, R318, R319, R416): what a signal and a read of a gate find, what GSIG, GWAIT, GRD and GTRY answer, and the
obligation put together from them. -/
namespace Sys2Proof.Machine

/-- The two words of a dword, said of its number. -/
theorem pairOf_number (d : Nat) (v : DWord) :
    pairOf d v = [(d, BitVec.ofNat 32 v.toNat), (d + 1, BitVec.ofNat 32 (v.toNat / 2 ^ 32))] := by
  have hlow : BitVec.ofNat 32 (v.toNat % 2 ^ 32) = BitVec.ofNat 32 v.toNat := BitVec.eq_of_toNat_eq (by simp)
  rw [pairOf_eq, hlow]

/-! ## Rights and faults -/

theorem gateNumber_within {v : Nat} (h : v ≤ 4095) : gateNumber v = .ok v := if_neg (Nat.not_lt.mpr h)

theorem gateNumber_beyond {v : Nat} (h : 4095 < v) : gateNumber v = .error (causeGate, BitVec.ofNat 64 v) := if_pos h

/-- A fault counted at a gate leaves every value. -/
theorem gateFault_value (s : State) (m n : Nat) : ((s.gateFault m).gate n).value = (s.gate n).value := by
  have hmod (f : Gate → Gate) (hf : ∀ x, (f x).value = x.value) : ((s.modGate m f).gate n).value = (s.gate n).value := by
    by_cases h : n = m
    · rw [h, State.modGate_gate_same, hf]
    · rw [State.modGate_gate_other s f h]
  unfold State.gateFault
  simp only
  split
  · exact hmod (fun x => { x with faults := 0, lastRec := some s.time }) fun _ => rfl
  · split
    · exact hmod (fun x => { x with faults := 0, lastRec := some s.time }) fun _ => rfl
    · exact hmod (fun x => { x with faults := x.faults + 1 }) fun _ => rfl

theorem noteGate_value (s : State) (t : Nat × DWord) (n : Nat) : ((s.noteGate t).gate n).value = (s.gate n).value := by
  unfold State.noteGate
  split
  · exact gateFault_value ..
  · rfl

/-! ## A signal (R319) -/

section
variable {s : State} {n tenant level : Nat} {inc : Word} {ticket : Nat}

theorem signal_refused (h : (s.gate n).v = false ∨ ((s.gate n).rightsAt tenant level).1 = false) :
    s.signal n tenant level inc ticket = .error causeGate := by
  rw [State.signal, if_pos]
  rcases h with h | h <;> simp [h]

variable (hv : (s.gate n).v = true) (hright : ((s.gate n).rightsAt tenant level).1 = true) (hroom : (s.gate n).queued.length < 65535)
include hv hright hroom

theorem signal_empty (hburst : (s.gate n).burst ≠ 0) (htokens : (s.gate n).tokens < 1024) :
    s.signal n tenant level inc ticket = .error causeRate := by
  rw [State.signal, if_neg (by simp [hv, hright]), if_neg (by simp [hroom]), if_pos ⟨hburst, htokens⟩]

theorem signal_accepted (htokens : (s.gate n).burst = 0 ∨ 1024 ≤ (s.gate n).tokens) : s.signal n tenant level inc ticket =
    .ok (
      let left := if (s.gate n).burst ≠ 0 then (s.gate n).tokens - 1024 else (s.gate n).tokens
      if (s.gate n).frz then s.modGate n fun y => { y with tokens := left, queued := y.queued ++ [(inc, ticket)] }
      else (s.modGate n fun y =>
        { y with tokens := left, value := BitVec.ofNat 64 (y.value.toNat + inc.toNat) }).serveGate n) := by
  have hvalue (y : DWord) : y + inc.setWidth 64 = BitVec.ofNat 64 (y.toNat + inc.toNat) := by
    apply BitVec.eq_of_toNat_eq
    have hinc : inc.toNat < 2 ^ 64 := Nat.lt_trans inc.isLt (by decide)
    rw [BitVec.toNat_add, BitVec.toNat_setWidth, BitVec.toNat_ofNat, Nat.mod_eq_of_lt hinc]
  rw [State.signal, if_neg (by simp [hv, hright]), if_neg (by simp [hroom]), if_neg (by omega)]
  simp only [hvalue]
  split <;> rfl

end

/-! ## A gate that is read (R319) -/

/-- A register names a valid gate on which the group holds the wait right, or where it suffices the read right. -/
def State.gateNamed (s : State) (c : Ctx) (g : WorkGroup) (w : Warp) (read : Bool) (v : Nat) : Prop :=
  v ≤ 4095 ∧ (s.gate v).v = true ∧
    (((s.gate v).rightsAt (s.part c.p).tenant (privOf g w)).2.1 = true ∨
      read = true ∧ ((s.gate v).rightsAt (s.part c.p).tenant (privOf g w)).2.2 = true)

section
variable {s : State} {c : Ctx} {g : WorkGroup} {w : Warp} {read : Bool} {v : Nat}

theorem gateFor_named (h : s.gateNamed c g w read v) : s.gateFor c g w read v = .ok (v, s.gate v) := by
  obtain ⟨hno, hv, hright⟩ := h
  have hok : ((s.gate v).v && (((s.gate v).rightsAt (s.part c.p).tenant (privOf g w)).2.1 ||
      (read && ((s.gate v).rightsAt (s.part c.p).tenant (privOf g w)).2.2))) = true := by
    simpa [hv] using hright
  simp only [State.gateFor, gateNumber_within hno, bind, Except.bind, pure, Except.pure]
  rw [if_pos hok]

theorem gateFor_unnamed (h : ¬s.gateNamed c g w read v) : s.gateFor c g w read v = .error (causeGate, BitVec.ofNat 64 v) := by
  by_cases hno : v ≤ 4095
  · have hbad : ¬((s.gate v).v && (((s.gate v).rightsAt (s.part c.p).tenant (privOf g w)).2.1 ||
        (read && ((s.gate v).rightsAt (s.part c.p).tenant (privOf g w)).2.2))) = true := fun hok =>
      h ⟨hno, by simpa using hok⟩
    simp only [State.gateFor, gateNumber_within hno, bind, Except.bind]
    rw [if_neg hbad]
  · simp only [State.gateFor, gateNumber_beyond (Nat.not_le.mp hno), bind, Except.bind]

/-- What a gate's reader finds stands while gates and partitions stand. -/
theorem gateFor_congr {t : State} (hgates : t.gates = s.gates) (hparts : t.parts = s.parts) :
    t.gateFor c g w read v = s.gateFor c g w read v := by
  have hgate : t.gate = s.gate := by
    funext n
    rw [State.gate, State.gate, hgates]
  have hpart : t.part c.p = s.part c.p := by rw [State.part, State.part, hparts]
  simp only [State.gateFor, hgate, hpart]

end

/-! ## A lane's signal -/

/-- One lane's signal of GSIG, under a ticket. -/
def gsigLane (c : Ctx) (g : WorkGroup) (w : Warp) (tenant a b ticket : Nat) : LaneStep := fun st l => do
  let n ← gateNumber (w.reg a l).toNat
  match (st.drainLane c.p c.wg c.wid l).signal n tenant (privOf g w) (w.reg b l) ticket with
  | .ok t => return (t, [])
  | .error cause => .error (cause, BitVec.ofNat 64 n)

/-- What follows the signals of the lanes: an accepted one opens an operation of the engine counter. -/
def gsigEnd (s : State) (c : Ctx) (e : State × List (Nat × List (Nat × Word)) × Option (Nat × DWord)) : Out :=
  match e.2.2 with
  | none => .next (retire (e.1.openEngine c s.ids) c)
  | some t => .next (raiseTrap (advance ((if e.2.1.isEmpty then e.1 else e.1.openEngine c s.ids).noteGate t) c (e.2.1.map (·.1))) c [t])

theorem execGsig_eq (u : Bool) (a b : Nat) (s : State) : execGsig u a b s = withGroup s fun c g w =>
    engineRelease s c u w [] [(a, 1), (b, 1)] fun _ =>
      gsigEnd s c (laneSteps (gsigLane c g w (s.part c.p).tenant a b s.ids) s.fresh (c.readers u)) := rfl

section
variable {c : Ctx} {g : WorkGroup} {w : Warp} {tenant a b ticket l : Nat} {st : State}

theorem gsigLane_beyond (hno : 4095 < (w.reg a l).toNat) :
    gsigLane c g w tenant a b ticket st l = .error (causeGate, BitVec.ofNat 64 (w.reg a l).toNat) := by
  simp only [gsigLane, gateNumber_beyond hno, bind, Except.bind]

variable (hno : (w.reg a l).toNat ≤ 4095)
include hno

theorem gsigLane_ok {t : State} (h : (st.drainLane c.p c.wg c.wid l).signal (w.reg a l).toNat tenant (privOf g w) (w.reg b l)
    ticket = .ok t) : gsigLane c g w tenant a b ticket st l = .ok (t, []) := by
  simp only [gsigLane, gateNumber_within hno, bind, Except.bind, h, pure, Except.pure]

theorem gsigLane_error {cause : Nat} (h : (st.drainLane c.p c.wg c.wid l).signal (w.reg a l).toNat tenant (privOf g w)
    (w.reg b l) ticket = .error cause) : gsigLane c g w tenant a b ticket st l = .error (cause, BitVec.ofNat 64 (w.reg a l).toNat) := by
  simp only [gsigLane, gateNumber_within hno, bind, Except.bind, h]

end

/-! ## A lane's wait, a lane's read -/

/-- One lane of GWAIT: it goes on with the value where that has reached the target. -/
def gwaitLane (c : Ctx) (g : WorkGroup) (w : Warp) (d a b : Nat) : WaitStep := fun st l => do
  let x ← st.gateFor c g w false (w.reg a l).toNat
  if x.2.frz || decide (x.2.value.toNat < (w.pair b l).toNat) then return none
  return some (st.gateAcquire c.p g.core, pairOf d x.2.value)

/-- The first fault that lanes find at the gates on which they would wait. -/
def gateMissing (s : State) (c : Ctx) (g : WorkGroup) (w : Warp) (a : Nat) (ls : List Nat) : Option (Nat × DWord) :=
  ls.findSome? fun l => match s.gateFor c g w false (w.reg a l).toNat with
    | .error t => some t
    | .ok _ => none

theorem execGwait_eq (u : Bool) (d a b : Nat) (s : State) : execGwait u d a b s = withGroup s fun c g w =>
    if w.trap.hm then trapWord s c causeIllegal
    else withRegs s c w (c.readers u) [(d, 2)] [(a, 1), (b, 2)] fun _ =>
      laneWaits s c w u (fun l => .gwait (w.reg a l).toNat d (w.pair b l)) (gwaitLane c g w d a b) fun st =>
        match gateMissing s c g w a (c.readers u) with
        | some t => st.noteGate t
        | none => st := rfl

/-- One lane of GRD or GTRY. -/
def gateReadLane (c : Ctx) (g : WorkGroup) (w : Warp) (a : Nat) (f : Warp → Nat → DWord → List (Nat × Word)) : LaneStep := fun st l => do
  let x ← st.gateFor c g w true (w.reg a l).toNat
  return (st.gateAcquire c.p g.core, f w l x.2.value)

/-- What follows the reads of the lanes. -/
def gateReadEnd (c : Ctx) (u : Bool) (e : State × List (Nat × List (Nat × Word)) × Option (Nat × DWord)) : Out :=
  match e.2.2 with
  | none => .next (retire (writeLanes e.1 c (spread c u e.2.1)) c)
  | some t => .next (raiseTrap (advance ((writeLanes e.1 c e.2.1).noteGate t) c (e.2.1.map (·.1))) c [t])

theorem gateRead_eq (u : Bool) (d n a : Nat) (reads : List RegUse) (f : Warp → Nat → DWord → List (Nat × Word)) (s : State) :
    gateRead u d n a reads f s = withGroup s fun c g w =>
      withRegs s c w (c.readers u) [(d, n)] ((a, 1) :: reads) fun _ =>
        gateReadEnd c u (laneSteps (gateReadLane c g w a f) s (c.readers u)) := rfl

/-! ## What the instructions answer -/

section
variable {s : State} {c : Ctx} {g : WorkGroup} {w : Warp} (hi : Issues s c g w) {u : Bool}
include hi

/-! ### GSIG -/

section
variable {a b k : Nat} (hk : c.readers u = [k]) (hroom : (s.work c.p).engCountOf c.wg w < 63) (ho : OperandsOk c w [k] [] [(a, 1), (b, 1)])
include hk hroom ho

theorem execGsig_stalls (hopen : s.laneOpen c.p c.wg c.wid k = true) : execGsig u a b s = .next (stall s c) := by
  rw [execGsig_eq, withGroup_issues hi, engineRelease, if_neg (Nat.not_le.mpr hroom), hk, withRegs_ok ho,
    releasing_open ⟨k, List.mem_singleton_self k, hopen⟩]

variable (hclosed : s.laneOpen c.p c.wg c.wid k = false)
include hclosed

/-- GSIG past its checks, by what the signal of its one lane gives. -/
theorem execGsig_checked : execGsig u a b s =
    match gsigLane c g w (s.part c.p).tenant a b s.ids s.fresh k with
    | .ok (t, _) => .next (retire (t.openEngine c s.ids) c)
    | .error e => .next (raiseTrap (advance (s.fresh.noteGate e) c []) c [e]) := by
  have hls : ∀ l ∈ [k], s.laneOpen c.p c.wg c.wid l = false := by simpa using hclosed
  rw [execGsig_eq, withGroup_issues hi, engineRelease, if_neg (Nat.not_le.mpr hroom), hk, withRegs_ok ho, releasing_closed hls, laneSteps]
  cases gsigLane c g w (s.part c.p).tenant a b s.ids s.fresh k <;> rfl

theorem execGsig_accepted (hno : (w.reg a k).toNat ≤ 4095) {t : State} (hsig : (s.fresh.drainLane c.p c.wg c.wid k).signal (w.reg a k).toNat
      (s.part c.p).tenant (privOf g w) (w.reg b k) s.ids = .ok t) :
    execGsig u a b s = .next (retire (t.openEngine c s.ids) c) := by
  rw [execGsig_checked hi hk hroom ho hclosed, gsigLane_ok hno hsig]

/-- A fault of GSIG leaves the value of every gate. -/
theorem execGsig_faults {e : Nat × DWord} (hlane : gsigLane c g w (s.part c.p).tenant a b s.ids s.fresh k = .error e) (n : Nat) :
    ∃ t, execGsig u a b s = .next (raiseTrap t c [e]) ∧ (t.gate n).value = (s.gate n).value := by
  refine ⟨advance (s.fresh.noteGate e) c [], ?_, noteGate_value s.fresh e n⟩
  rw [execGsig_checked hi hk hroom ho hclosed, hlane]

end

/-! ### GWAIT -/

section
variable (hm : w.trap.hm = false) {d a b : Nat} (ho : OperandsOk c w (c.readers u) [(d, 2)] [(a, 1), (b, 2)])
  (hnamed : ∀ l ∈ c.readers u, s.gateNamed c g w false (w.reg a l).toNat)
include hm ho hnamed

/-- GWAIT past its checks: no gate is missing, and each lane goes on or waits. -/
theorem execGwait_checked : execGwait u d a b s =
    laneWaits s c w u (fun l => .gwait (w.reg a l).toNat d (w.pair b l)) (gwaitLane c g w d a b) id := by
  have hbad : gateMissing s c g w a (c.readers u) = none := List.findSome?_eq_none_iff.mpr fun l hl => by
    rw [gateFor_named (hnamed l hl)]
  rw [execGwait_eq, withGroup_issues hi, if_neg (by simp [hm]), withRegs_ok ho, hbad]
  rfl

theorem execGwait_met (hmet : ∀ l ∈ c.readers u,
      (s.gate (w.reg a l).toNat).frz = false ∧ (w.pair b l).toNat ≤ (s.gate (w.reg a l).toNat).value.toNat) :
    execGwait u d a b s = .next (answer ((c.readers u).foldl (fun t _ => t.gateAcquire c.p g.core) s) c fun l =>
      pairOf d (s.gate (w.reg a (c.readerOf u l)).toNat).value) := by
  have hlane : ∀ t : State, t.gates = s.gates ∧ t.parts = s.parts →
      ((t.gateAcquire c.p g.core).gates = s.gates ∧ (t.gateAcquire c.p g.core).parts = s.parts) ∧
        ∀ l ∈ c.readers u, gwaitLane c g w d a b t l = .ok (some (t.gateAcquire c.p g.core, pairOf d (s.gate (w.reg a l).toNat).value)) := by
    refine fun t ht => ⟨ht, fun l hl => ?_⟩
    obtain ⟨hfrz, hle⟩ := hmet l hl
    simp only [gwaitLane, gateFor_congr ht.1 ht.2, gateFor_named (hnamed l hl), bind, Except.bind, pure, Except.pure, hfrz,
      Nat.not_lt.mpr hle, decide_false, Bool.or_false, Bool.false_eq_true, if_false]
  rw [execGwait_checked hi hm ho hnamed, laneWaits_answers (waitSteps_all hlane ⟨rfl, rfl⟩)]
  rfl

theorem execGwait_waits {k : Nat} (hk : c.readers u = [k]) (hunmet : (s.gate (w.reg a k).toNat).frz = true ∨
      (s.gate (w.reg a k).toNat).value.toNat < (w.pair b k).toNat) : ∃ t, execGwait u d a b s = .next t ∧
    (s.waiting c.p ⟨.gwait (w.reg a k).toNat d (w.pair b k), c.wg, c.wid, c.lanes⟩).LeavesRest t := by
  have hlane : gwaitLane c g w d a b s k = .ok none := by
    have hstop : ((s.gate (w.reg a k).toNat).frz || decide ((s.gate (w.reg a k).toNat).value.toNat < (w.pair b k).toNat)) = true := by
      simpa using hunmet
    simp only [gwaitLane, gateFor_named (hnamed k (by simp [hk])), bind, Except.bind, pure, Except.pure, hstop, if_true]
  rw [execGwait_checked hi hm ho hnamed]
  exact laneWaits_waits hm hk hlane

end

/-! ### GRD and GTRY -/

section
variable {d n a : Nat} {reads : List RegUse} {f : Warp → Nat → DWord → List (Nat × Word)}
  (ho : OperandsOk c w (c.readers u) [(d, n)] ((a, 1) :: reads))
include ho

theorem gateRead_answers (hnamed : ∀ l ∈ c.readers u, s.gateNamed c g w true (w.reg a l).toNat) :
    gateRead u d n a reads f s = .next (answer ((c.readers u).foldl (fun t _ => t.gateAcquire c.p g.core) s) c fun l =>
      f w (c.readerOf u l) (s.gate (w.reg a (c.readerOf u l)).toNat).value) := by
  have hlane : ∀ t : State, t.gates = s.gates ∧ t.parts = s.parts →
      ((t.gateAcquire c.p g.core).gates = s.gates ∧ (t.gateAcquire c.p g.core).parts = s.parts) ∧
        ∀ l ∈ c.readers u, gateReadLane c g w a f t l =
          .ok (t.gateAcquire c.p g.core, f w l (s.gate (w.reg a l).toNat).value) := by
    refine fun t ht => ⟨ht, fun l hl => ?_⟩
    simp only [gateReadLane, gateFor_congr ht.1 ht.2, gateFor_named (hnamed l hl), bind, Except.bind, pure, Except.pure]
  rw [gateRead_eq, withGroup_issues hi, withRegs_ok ho, laneSteps_all hlane ⟨rfl, rfl⟩]
  exact congrArg _ (answer_spread ..)

theorem gateRead_unnamed {k : Nat} (hk : c.readers u = [k]) (hnamed : ¬s.gateNamed c g w true (w.reg a k).toNat) :
    ∃ t, gateRead u d n a reads f s = .next (raiseTrap t c [(causeGate, BitVec.ofNat 64 (w.reg a k).toNat)]) := by
  have hlane : gateReadLane c g w a f s k = .error (causeGate, BitVec.ofNat 64 (w.reg a k).toNat) := by
    simp only [gateReadLane, gateFor_unnamed hnamed, bind, Except.bind]
  rw [gateRead_eq, withGroup_issues hi, withRegs_ok ho, hk, laneSteps, hlane]
  exact ⟨_, rfl⟩

end

end

/-! ## The obligation -/

/-- Settles O31: GSIG by what its signal finds, GWAIT by whether its targets are reached, GRD and GTRY by the rights on their gates. -/
theorem gateInstructionsComplete : Obligations.GateInstructionsComplete := by
  unfold Obligations.GateInstructionsComplete
  intro u d a b s c g w hi hm no rights named target
  refine ⟨fun k hk hroom ho => ⟨fun hopen => execGsig_stalls hi hk hroom ho hopen, fun hclosed => ?gsig⟩, ?_⟩
  case gsig =>
    intro n s1 x signal left
    have hright : signal = (x.rightsAt (s.part c.p).tenant (privOf g w)).1 := by
      simp only [signal, Gate.rightsAt]
      split <;> rfl
    refine ⟨fun hno hv hsignal htokens hqueued => ?_, fun hbad => ?_, fun hno hv hsignal hburst htokens hqueued => ?_⟩
    · exact execGsig_accepted hi hk hroom ho hclosed hno (signal_accepted hv (hright ▸ hsignal) hqueued htokens)
    · by_cases hno : 4095 < n
      · exact execGsig_faults hi hk hroom ho hclosed (gsigLane_beyond hno) n
      · have hrefused := hbad.resolve_left hno
        rw [hright] at hrefused
        exact execGsig_faults hi hk hroom ho hclosed (gsigLane_error (Nat.not_lt.mp hno) (signal_refused hrefused)) n
    · exact execGsig_faults hi hk hroom ho hclosed (gsigLane_error hno (signal_empty hv (hright ▸ hsignal) hqueued hburst htokens)) n
  intro acquired
  refine ⟨fun ho hnamed => ⟨fun hmet => ?met, fun k hk hunmet => ?waits⟩, fun ho hnamed => ?grd, fun ho hnamed => ?gtry,
    fun k hk hunnamed => ⟨fun ho => ?_, fun ho => ?_⟩⟩
  case met =>
    simp only [target, ← toNat_pair] at hmet
    rw [exec_gwait, execGwait_met hi hm ho hnamed hmet]
    simp only [pairOf_number]
    rfl
  case waits =>
    simp only [target, ← toNat_pair] at hunmet
    obtain ⟨t, hexec, hleft⟩ := execGwait_waits hi hm ho hnamed hk hunmet
    exact ⟨t, hexec, hleft.gates_eq, (hleft.waiters_eq c.p).trans (State.waiting_waiters ..)⟩
  case grd =>
    rw [exec_grd, execGrd, gateRead_answers hi ho hnamed]
    simp only [pairOf_number]
    rfl
  case gtry =>
    rw [exec_gtry, execGtry, gateRead_answers hi ho hnamed]
    simp only [toNat_pair]
    rfl
  · simp only [exec_grd, execGrd]
    exact gateRead_unnamed hi (hk ▸ ho) hk hunnamed
  · simp only [exec_gtry, execGtry]
    exact gateRead_unnamed hi (hk ▸ ho) hk hunnamed

end Sys2Proof.Machine
end

section
/-! The arrived-tile queue and the switch of a ring (R236, R237, R240, R294): what TQPOP takes, what ARRIVED_TILE_PUSH and RING_EN_WRITE
leave when nobody waits, and the obligation put together from that. -/
namespace Sys2Proof.Machine

/-! ## Queues of a launch -/

/-- A queue bears the numbers under which it is looked up. -/
theorem tileQueue_numbers (y : Work) (seq slice n : Nat) :
    (y.tileQueue seq slice n).seq = seq ∧ (y.tileQueue seq slice n).slice = slice ∧ (y.tileQueue seq slice n).n = n := by
  unfold Work.tileQueue
  cases h : y.tqs.find? fun t => t.seq == seq && t.slice == slice && t.n == n with
  | none => exact ⟨rfl, rfl, rfl⟩
  | some t => simpa [and_assoc] using List.find?_some h

theorem tileQueue_setTileQueue (y : Work) (t : TileQueue) : (y.setTileQueue t).tileQueue t.seq t.slice t.n = t := by
  simp [Work.tileQueue, Work.setTileQueue]

/-! ## TQPOP (R240) -/

section
variable {s : State} {c : Ctx} {g : WorkGroup} {w : Warp} (hi : Issues s c g w) (hm : w.trap.hm = false) {n : Nat}
include hi hm

theorem execTqpop_beyond (hn : 7 < n) (u : Bool) (d : Nat) : execTqpop u d n s = trapWord s c causeOperand := by
  rw [execTqpop, withGroup_issues hi, if_neg (by simp [hm]), if_pos hn]

variable (hn : n ≤ 7) {d : Nat} (ho : OperandsOk c w [] [(d, 1)] []) {u : Bool} {k : Nat} (hk : c.readers u = [k])
  (hwait : (s.work c.p).waiters = [])
include hn ho hk hwait

/-- TQPOP with nobody before it takes what its queue gives. -/
theorem execTqpop_takes {t : TileQueue} {v : Nat} (ht : ((s.work c.p).tileQueue g.seq (g.core / 64) n).take = some (t, v)) :
    execTqpop u d n s = .next (answer ((s.modWork c.p fun y => y.setTileQueue t).tileBridge c.p g.core v) c fun _ =>
      [(d, BitVec.ofNat 32 v)]) := by
  have ht' : ((s.work c.p).tileQueue g.seq (sliceOfCore g.core) n).take = some (t, v) := ht
  rw [execTqpop, withGroup_issues hi, if_neg (by simp [hm]), if_neg (Nat.not_lt.mpr hn), withRegs_ok ho]
  refine laneWaits_acts hk ?_
  simp only [hwait, List.any_nil, Bool.false_eq_true, if_false, ht']

/-- TQPOP at an open queue without tiles waits. -/
theorem execTqpop_waits (ht : ((s.work c.p).tileQueue g.seq (g.core / 64) n).take = none) :
    ∃ t, execTqpop u d n s = .next t ∧ (s.waiting c.p ⟨.tqpop n d, c.wg, c.wid, c.lanes⟩).LeavesRest t := by
  have ht' : ((s.work c.p).tileQueue g.seq (sliceOfCore g.core) n).take = none := ht
  rw [execTqpop, withGroup_issues hi, if_neg (by simp [hm]), if_neg (Nat.not_lt.mpr hn), withRegs_ok ho]
  refine laneWaits_waits hm hk ?_
  simp only [hwait, List.any_nil, Bool.false_eq_true, if_false, ht']

end

/-! ## ARRIVED_TILE_PUSH (R294) -/

/-- A tile of a command that has been written stands at the end of a queue. -/
def State.tilePushed (s : State) (p id cid x : Nat) (t : TileQueue) : State :=
  (s.modCmd p id cid fun y => { y with tiles := y.tiles.filter (· != x) }).modWork p fun w =>
    w.setTileQueue { t with tiles := t.tiles ++ [x] }

theorem tilePushed_work (s : State) (p id cid x : Nat) (t : TileQueue) : (s.tilePushed p id cid x t).work p =
    ((s.work p).modSeq id fun q => { q with cmds := updFirst (·.id == cid) (fun y => { y with tiles := y.tiles.filter (· != x) }) q.cmds }).setTileQueue
      { t with tiles := t.tiles ++ [x] } := by
  rw [State.tilePushed, State.modWork_work_same, State.modCmd, State.modSeq, State.modWork_work_same]

/-- With nobody waiting, one of the tiles of the command that has written them goes to its queue. -/
theorem execArrivedTilePush_pushes {s : State} {p id m : Nat} {q : Seq} {c : Command} (hp : s.issue = .part [p, id, m])
    (hq : (s.work p).seqOf id = some q) (hc : q.cmd m = some c) (hdone : c.wait = .done) (hne : c.tiles ≠ [])
    (hwait : (s.work p).waiters = []) (hroom : ((s.work p).tileQueue q.seq (q.cluster / 2) c.queue).tiles.length < 1024) :
    ∃ x ∈ c.tiles, execArrivedTilePush s =
      .next (s.tilePushed p id c.id x ((s.work p).tileQueue q.seq (q.cluster / 2) c.queue)) := by
  have hlen : Config.freeNat s.tick % max 1 c.tiles.length < c.tiles.length := by
    have := List.length_pos_iff.mpr hne
    exact Nat.lt_of_lt_of_eq (Nat.mod_lt _ (by omega)) (by omega)
  refine ⟨c.tiles[Config.freeNat s.tick % max 1 c.tiles.length], List.getElem_mem _, ?_⟩
  generalize hx : c.tiles[Config.freeNat s.tick % max 1 c.tiles.length] = x
  simp only [execArrivedTilePush, State.arg_part hp, List.getD_cons_zero, List.getD_cons_succ, hq, hc, List.getElem?_eq_getElem hlen, hx]
  rw [if_neg (by simp [hdone, hroom])]
  generalize ht : (s.work p).tileQueue q.seq (q.cluster / 2) c.queue = t
  have hfuel : ((s.tilePushed p id c.id x t).work p).waiters.length = 0 := by
    rw [tilePushed_work]
    exact congrArg List.length hwait
  change Host.Outcome.next ((s.tilePushed p id c.id x t).serveTiles p q.seq (q.cluster / 2) c.queue
    ((s.tilePushed p id c.id x t).work p).waiters.length) = _
  rw [hfuel]
  rfl

/-! ## RING_EN_WRITE (R236, R237) -/

/-- With nobody waiting, no lane faults. -/
theorem faultRing_nobody {s : State} {p : Nat} (h : (s.work p).waiters = []) (q : Nat) : s.faultRing p q = s := by
  rw [State.faultRing, h]
  rfl

theorem execRingEnWrite_nobody {s : State} {who p k v : Nat} (hp : s.issue = .part [who, p, k, v]) (hwho : s.mayWrite who 2 = true)
    (hrun : (s.part p).state = .running) (hk : k < 256) (hwait : (s.work p).waiters = []) :
    execRingEnWrite s = .next (s.modPart p fun x => { x with rings := put x.rings k (
      if v % 2 = 1 then { (s.part p).ring k with en := true, head := 0, tail := 0, free := 2 ^ ((s.part p).ring k).rlog }
      else { (s.part p).ring k with en := false }) }) := by
  simp only [execRingEnWrite, State.arg_part hp, List.getD_cons_zero, List.getD_cons_succ, hwho, State.present_of_running hrun, hk,
    decide_true, Bool.and_self, if_true, State.ringEnable, faultRing_nobody hwait, ite_self, beq_iff_eq]

/-! ## The obligation -/

/-- Settles O30: TQPOP by what its queue gives, the two steps of the part by what they leave when nobody waits. -/
theorem tileQueueAndRingSwitch : Obligations.TileQueueAndRingSwitch := by
  unfold Obligations.TileQueueAndRingSwitch
  refine ⟨fun u d n k s c g w hi hm => ⟨fun hn => execTqpop_beyond hi hm hn u d, fun hn ho hk hwait => ?tqpop⟩, ?push, ?switch⟩
  case tqpop =>
    intro t
    refine ⟨fun x r ht => ?_, fun ht hclosed => ?_, fun ht hclosed => ?_⟩
    · have htake : t.take = some ({ t with tiles := r }, x) := by rw [TileQueue.take, ht]
      exact execTqpop_takes hi hm hn ho hk hwait htake
    · have htake : t.take = some (t, 4294967295) := by rw [TileQueue.take, ht, if_pos hclosed]
      exact execTqpop_takes hi hm hn ho hk hwait htake
    · have htake : t.take = none := by rw [TileQueue.take, ht, if_neg (by simp [hclosed])]
      obtain ⟨t', hexec, hleft⟩ := execTqpop_waits hi hm hn ho hk hwait htake
      refine ⟨t', hexec, ?_⟩
      rw [hleft.waiters_eq, State.waiting_waiters, hwait]
      rfl
  case push =>
    intro s p id m q c hp hq hc hid hdone hne hwait t hroom
    obtain ⟨x, hx, hexec⟩ := execArrivedTilePush_pushes hp hq hc hdone hne hwait hroom
    subst hid
    obtain ⟨hseq, hslice, hn⟩ := tileQueue_numbers (s.work p) q.seq (q.cluster / 2) c.queue
    have hwork := tilePushed_work s p id c.id x t
    refine ⟨_, x, hexec, hx, ?_, { q with cmds := updFirst (·.id == c.id) (fun y => { y with tiles := y.tiles.filter (· != x) }) q.cmds },
      { c with tiles := c.tiles.filter (· != x) }, ?_, ?_, ?_⟩
    · have hqueue := tileQueue_setTileQueue ((s.work p).modSeq id fun q =>
        { q with cmds := updFirst (·.id == c.id) (fun y => { y with tiles := y.tiles.filter (· != x) }) q.cmds })
        { t with tiles := t.tiles ++ [x] }
      rw [hwork]
      simpa only [t, hseq, hslice, hn] using hqueue
    · rw [hwork]
      refine (Work.modSeq_seqOf_same _ _ _ ?_).trans ?_
      · exact fun _ => rfl
      · rw [hq]
        rfl
    · refine (find?_updFirst_same _ _ _ ?_).trans ?_
      · exact fun _ h => h
      · exact congrArg _ hc
    · simp [bne, beq_eq_decide]
  case switch =>
    intro s who p k v hp hwho hrun hk hwait r ring
    exact execRingEnWrite_nobody hp hwho hrun hk hwait

end Sys2Proof.Machine
end

section
/-! The accesses of a group's lanes past their checks (R219, R221, R223, R385): their addresses, the bytes of their registers, and where they
land while the lanes before them have made theirs. -/
namespace Sys2Proof.Machine

/-! ## Addresses and bytes of an access (R219, R223) -/

/-- The pair plus the offset, modulo 2^64. -/
theorem addr_eq (w : Warp) (a k : Nat) (off : Int) : w.addr a k off =
    ((((w.reg a k).toNat + 2 ^ 32 * (w.reg (a + 1) k).toNat : Int) + off) % 2 ^ 64).toNat := by
  rw [Warp.addr, BitVec.toNat_add, BitVec.toNat_ofInt, toNat_pair]
  omega

/-- The offset of format M in access sizes. -/
theorem offsetM_eq (o n : Nat) : offsetM o n = (if o < 64 then (o : Int) else (o : Int) - 128) * n := by
  exact congrArg (· * (n : Int)) (signed_eq 7 o)

theorem flatMap_range_four {α : Type} (h : Nat → Nat → α) (m : Nat) :
    ((List.range m).flatMap fun k => (List.range 4).map (h k)) = (List.range (4 * m)).map fun i => h (i / 4) (i % 4) := by
  induction m with
  | zero => rfl
  | succ m ih =>
    have hlast : (List.range 4).map (h m) = ((List.range 4).map (4 * m + ·)).map fun i => h (i / 4) (i % 4) := by
      rw [List.map_map]
      refine List.map_congr_left fun i hi => ?_
      have hi : i < 4 := List.mem_range.mp hi
      have hdiv : (4 * m + i) / 4 = m := by omega
      have hmod : (4 * m + i) % 4 = i := by omega
      simp only [Function.comp_apply, hdiv, hmod]
    rw [List.range_succ (n := m), List.flatMap_append, ih, Nat.mul_succ, List.range_add, List.map_append, List.flatMap_singleton, hlast]

/-- Byte `i` of registers is byte `i % 4` of the register `i / 4` on. -/
theorem regBytes_eq (w : Warp) (d k n : Nat) :
    w.regBytes d k n = (List.range n).map fun i => BitVec.ofNat 8 ((w.reg (d + i / 4) k).toNat / 256 ^ (i % 4)) := by
  have hle : n ≤ 4 * ((n + 3) / 4) := by omega
  simp only [Warp.regBytes, upto_eq_map_range, Nat.zero_add, List.map_id', bytesOf_eq_map_range,
    flatMap_range_four (fun r i => BitVec.ofNat 8 ((w.reg (d + r) k).toNat / 256 ^ i)), ← List.map_take, List.take_range, Nat.min_eq_left hle]

theorem regsFor_eq {n : Nat} (h : n ∈ [1, 2, 4, 8, 16]) : regsFor n = if n < 4 then 1 else n / 4 := by
  fin_cases h <;> rfl

theorem length_located (pa : Nat) (bs : List Byte) : (located pa bs).length = bs.length := by
  rw [← List.length_map (f := Prod.snd), located_map_snd]

/-! ## Checks (R385) -/

theorem withAccs_pass {s : State} {c : Ctx} {g : WorkGroup} {w : Warp} {as : List Acc} (h : ∀ x ∈ as, s.accCheck c g w x = none) (k : State → Out) :
    withAccs s c g w as k = k (s.fillAll c g as) := by
  have hnone : as.filterMap (s.accCheck c g w) = [] := List.filterMap_eq_nil_iff.mpr h
  rw [withAccs, hnone]
  rfl

theorem withAccs_fault {s : State} {c : Ctx} {g : WorkGroup} {w : Warp} {as : List Acc} (h : ∃ x ∈ as, s.accCheck c g w x ≠ none) (k : State → Out) :
    withAccs s c g w as k = .next (raiseTrap (s.fillAll c g as) c (as.filterMap (s.accCheck c g w))) := by
  have hne : (as.filterMap (s.accCheck c g w)).isEmpty = false := by
    obtain ⟨x, hx, hfault⟩ := h
    exact List.isEmpty_eq_false_iff.mpr fun hnil => hfault (List.filterMap_eq_nil_iff.mp hnil x hx)
  rw [withAccs, hne]
  rfl

/-! ## Where accesses land -/

/-- The walks of an instruction's accesses see none of the stores that the instruction itself makes. -/
theorem walkView_addStore (t : State) (c : Ctx) {x : PendingStore} (hx : x.ticket = t.ids) (lane : Nat) :
    (t.addStore c x).walkView c lane = { t.addStore c x with mem := (t.walkView c lane).mem } := by
  have hids : (t.addStore c x).ids = t.ids := rfl
  have hstores : ((t.addStore c x).work c.p).stores = (t.work c.p).stores ++ [x] := by rw [State.addStore, State.modWork_work_same]
  have hself : [x].filter (fun y => y.ticket != t.ids) = [] := by simp [hx]
  have hsame : (((t.addStore c x).work c.p).ownStores c.wg c.wid lane false).filter (fun y => y.ticket != t.ids) =
      ((t.work c.p).ownStores c.wg c.wid lane false).filter (fun y => y.ticket != t.ids) := by
    simp only [Work.ownStores, hstores, List.filter_append]
    rw [List.filter_comm _ _ [x], hself]
    simp
  simp only [State.walkView, hids, hsame]
  rfl

theorem landing_addStore (t : State) (c : Ctx) (g : WorkGroup) (w : Warp) {x : PendingStore} (hx : x.ticket = t.ids) (a : Acc) :
    (t.addStore c x).landing c g w a = t.landing c g w a := by
  have hwalk : ((t.addStore c x).walkView c a.lane).xlate (agentOf c g w) a.kind a.va =
      (t.walkView c a.lane).xlate (agentOf c g w) a.kind a.va := by
    rw [walkView_addStore t c hx]
    rfl
  rw [State.landing, hwalk]
  exact (State.landing.eq_1 ..).symm

theorem fillTlb_onlyParts (s : State) (p die va : Nat) : ∃ ps, s.fillTlb p die va = { s with parts := ps } := by
  unfold State.fillTlb
  split
  · exact ⟨_, rfl⟩
  · split
    · split
      · exact ⟨_, rfl⟩
      · exact ⟨_, rfl⟩
    · exact ⟨_, rfl⟩

/-- Filling a TLB touches nothing but the partitions. -/
theorem fillAll_onlyParts (s : State) (c : Ctx) (g : WorkGroup) (as : List Acc) : ∃ ps, s.fillAll c g as = { s with parts := ps } := by
  induction as generalizing s with
  | nil => exact ⟨_, rfl⟩
  | cons a r ih =>
    have hstep : ∃ ps, s.fillAll c g [a] = { s with parts := ps } := by
      simp only [State.fillAll, List.foldl_cons, List.foldl_nil]
      split
      · obtain ⟨ps, h⟩ := fillTlb_onlyParts (s.walkView c a.lane) c.p (dieOfSlice (sliceOfCore g.core)) a.va
        exact ⟨ps, by rw [h]; rfl⟩
      · exact ⟨_, rfl⟩
    obtain ⟨ps, h⟩ := hstep
    obtain ⟨qs, h'⟩ := ih (s.fillAll c g [a])
    exact ⟨qs, h'.trans (by rw [h])⟩

@[simp] theorem fillAll_ids (s : State) (c : Ctx) (g : WorkGroup) (as : List Acc) : (s.fillAll c g as).ids = s.ids := by
  obtain ⟨ps, h⟩ := fillAll_onlyParts s c g as
  rw [h]

@[simp] theorem fillAll_work (s : State) (c : Ctx) (g : WorkGroup) (as : List Acc) (p : Nat) : (s.fillAll c g as).work p = s.work p := by
  obtain ⟨ps, h⟩ := fillAll_onlyParts s c g as
  rw [h]
  rfl

end Sys2Proof.Machine
end

section
/-! Stores of SIMT lanes (R219, R221, R223, R225, R101): the waiting stores that an ST form adds, what STL performs, and the obligation put
together from that. -/
namespace Sys2Proof.Machine

/-! ## Accesses while stores of the same instruction are added -/

/-- Accesses of the warp land in `t` as in `s`, under the same ticket. -/
structure State.LandsAs (s t : State) (c : Ctx) (g : WorkGroup) (w : Warp) : Prop where
  landing : ∀ a, t.landing c g w a = s.landing c g w a
  place : t.placeOf c.p = s.placeOf c.p
  mem : t.mem = s.mem
  ids : t.ids = s.ids

section
variable {s t : State} {c : Ctx} {g : WorkGroup} {w : Warp}

theorem State.LandsAs.refl : s.LandsAs s c g w := ⟨fun _ => rfl, rfl, rfl, rfl⟩

theorem State.LandsAs.plain (h : s.LandsAs t c g w) {a : Acc} (ha : LandsPlain s c g w a) : LandsPlain t c g w a := by
  rw [LandsPlain, h.landing, h.place, h.mem]
  exact ha

theorem State.LandsAs.addStore (h : s.LandsAs t c g w) {x : PendingStore} (hx : x.ticket = s.ids) : s.LandsAs (t.addStore c x) c g w where
  landing a := (landing_addStore t c g w (hx.trans h.ids.symm) a).trans (h.landing a)
  place := h.place
  mem := h.mem
  ids := h.ids

theorem State.LandsAs.addUnits (h : s.LandsAs t c g w) (lane : Nat) (spad : Bool) (bs : List (Nat × Byte)) :
    s.LandsAs (t.addUnits c g w lane spad bs) c g w := by
  rw [State.addUnits, unitsOf]
  split
  · exact (h.addStore h.ids).addStore h.ids
  · exact h.addStore h.ids

/-- Accesses that each add to the waiting stores: the lanes' stores stand in ascending order. -/
theorem storeAll_adds {f : State → Acc → Except (Nat × DWord) State} {acc : Nat → Acc} {add : State → Nat → State} {ls : List Nat}
    (hstep : ∀ t, ∀ k ∈ ls, s.LandsAs t c g w → f t (acc k) = .ok (add t k) ∧ s.LandsAs (add t k) c g w) (h : s.LandsAs t c g w) :
    storeAll f t (ls.map acc) = (ls.foldl add t, none) := by
  induction ls generalizing t with
  | nil => rfl
  | cons k r ih =>
    obtain ⟨hok, hnext⟩ := hstep t k (List.mem_cons_self ..) h
    rw [List.map_cons, storeAll, hok, List.foldl_cons]
    exact ih (fun t k hk => hstep t k (List.mem_cons_of_mem _ hk)) hnext

/-! ## One store -/

/-- A store into plain memory that is no release waits, unit by unit. -/
theorem storeAcc_plain {a : Acc} (ha : LandsPlain s c g w a) (hsync : a.sync = false) (bs : List Byte) :
    s.storeAcc c g w a bs = .ok (s.addUnits c g w a.lane false (located (s.landing c g w a).1 bs)) := by
  obtain ⟨halias, hplace, -⟩ := ha
  rw [State.storeAcc, if_neg halias, hsync, hplace]
  rfl

/-- A release outside the BF16 window (R86) comes after the lane's stores and is performed at once. -/
theorem storeAcc_release {a : Acc} (ha : leafFmt (s.landing c g w a).2 ≠ 2) (hsync : a.sync = true) (bs : List Byte) :
    s.storeAcc c g w a bs = .ok ((s.drainLane c.p c.wg c.wid a.lane).writeAt c.p [(c.wg, c.wid, a.lane)] (privOf g w)
      (s.landing c g w a).1 bs) := by
  rw [State.storeAcc, if_neg ha, hsync]
  rfl

/-- The units of a store of `n` bytes: one, or the 8-byte halves of 16. -/
theorem addUnits_located {n : Nat} {bs : List Byte} (hn : bs.length = n) (lane pa : Nat) (spad : Bool) :
    s.addUnits c g w lane spad (located pa bs) =
      (if n = 16 then [(located pa bs).take 8, (located pa bs).drop 8] else [located pa bs]).foldl (fun t' unit =>
        t'.addStore c ⟨s.ids, 0, c.wg, c.wid, lane, privOf g w, spad, false, unit, none, w.trap.hm⟩) s := by
  rw [State.addUnits, unitsOf, length_located, hn]

end

/-! ## The shape of the instructions -/

section
variable {s : State} {c : Ctx} {g : WorkGroup} {w : Warp} (hi : Issues s c g w) (hcount : (s.work c.p).storeCount c.wg c.wid < 63) {u : Bool}
  {d a n : Nat} {off : Int} {sync : Bool} (ho : OperandsOk c w (c.readers u) [] [(d, regsFor n), (a, 2)])
include hi hcount ho

/-- A store once its operands pass: its accesses, those of its lanes. -/
theorem storeOp_accesses : storeOp u d a off n sync s =
    withAccs s c g w ((c.readers u).map fun l => ⟨l, w.addr a l off, n, .write, sync⟩) fun s1 =>
      releasing s1 c (if sync then c.readers u else []) fun _ =>
        match storeAll (fun st x => st.storeAcc c g w x (w.regBytes d x.lane n)) s1
          ((c.readers u).map fun l => ⟨l, w.addr a l off, n, .write, sync⟩) with
        | (s2, none) => .next (retire s2.fresh c)
        | (s2, some t) => .next (raiseTrap (s2.drainTicket c.p s.ids).fresh c [t]) := by
  rw [storeOp]
  exact (withGroup_issues hi _).trans ((if_neg (Nat.not_le.mpr hcount)).trans (withRegs_ok ho _))

variable {acc : Nat → Acc} (hacc : acc = fun l => ⟨l, w.addr a l off, n, .write, sync⟩)
  (hpass : ∀ x ∈ (c.readers u).map acc, s.accCheck c g w x = none)
include hacc

theorem storeOp_faults (hfault : ∃ x ∈ (c.readers u).map acc, s.accCheck c g w x ≠ none) : storeOp u d a off n sync s =
    .next (raiseTrap (s.fillAll c g ((c.readers u).map acc)) c (((c.readers u).map acc).filterMap (s.accCheck c g w))) := by
  subst hacc
  rw [storeOp_accesses hi hcount ho, withAccs_fault hfault]

include hpass

theorem storeOp_open (hsync : sync = true)
    (hopen : ∃ k ∈ c.readers u, (s.fillAll c g ((c.readers u).map acc)).laneOpen c.p c.wg c.wid k = true) :
    storeOp u d a off n sync s = .next (stall (s.fillAll c g ((c.readers u).map acc)) c) := by
  subst hacc
  rw [storeOp_accesses hi hcount ho, withAccs_pass hpass, hsync]
  subst hsync
  exact releasing_open hopen _

theorem storeOp_stores {s2 : State}
    (hclosed : sync = true → ∀ k ∈ c.readers u, (s.fillAll c g ((c.readers u).map acc)).laneOpen c.p c.wg c.wid k = false)
    (hall : storeAll (fun t x => t.storeAcc c g w x (w.regBytes d x.lane n)) (s.fillAll c g ((c.readers u).map acc)) ((c.readers u).map acc) =
      (s2, none)) : storeOp u d a off n sync s = .next (retire s2.fresh c) := by
  subst hacc
  have hnone : ∀ k ∈ (if sync then c.readers u else []), (s.fillAll c g ((c.readers u).map fun l =>
      ⟨l, w.addr a l off, n, .write, sync⟩)).laneOpen c.p c.wg c.wid k = false := by
    cases sync with
    | true => exact hclosed rfl
    | false => exact fun k hk => nomatch hk
  rw [storeOp_accesses hi hcount ho, withAccs_pass hpass, releasing_closed hnone, hall]

end

/-- The ST forms: instruction, bytes, byte offset. -/
theorem storeForms {u : Bool} {l d a o : Nat} {off : Int} (hoff : off = if o < 64 then (o : Int) else (o : Int) - 128) {e : Instr × Nat × Int}
    (he : e ∈ ([(.st8 u l d a o, 1, off), (.st16 u l d a o, 2, off * 2), (.st u l d a o, 4, off * 4), (.st64 u l d a o, 8, off * 8),
      (.st128 u l d a o, 16, off * 16)] : List (Instr × Nat × Int))) (s : State) :
    exec e.1 s = storeOp u d a e.2.2 e.2.1 false s ∧ e.2.1 ∈ [1, 2, 4, 8, 16] := by
  have hbyte : offsetM o 1 = off := by rw [offsetM_eq, ← hoff, Nat.cast_one, mul_one]
  have hsize (n : Nat) : offsetM o n = off * n := by rw [offsetM_eq, ← hoff]
  simp only [List.mem_cons, List.not_mem_nil, or_false] at he
  rcases he with rfl | rfl | rfl | rfl | rfl
  · exact ⟨by rw [exec_st8, execSt8, hbyte], by simp⟩
  · exact ⟨by rw [exec_st16, execSt16, hsize]; rfl, by simp⟩
  · exact ⟨by rw [exec_st, execSt, hsize]; rfl, by simp⟩
  · exact ⟨by rw [exec_st64, execSt64, hsize]; rfl, by simp⟩
  · exact ⟨by rw [exec_st128, execSt128, hsize]; rfl, by simp⟩

/-- The STL forms. -/
theorem releaseForms {u : Bool} {l d a o : Nat} {e : Instr × Nat × Int}
    (he : e ∈ ([(.stl u l a d o, 4, (o : Int) * 4), (.stl64 u l a d o, 8, (o : Int) * 8)] : List (Instr × Nat × Int))) (s : State) :
    exec e.1 s = storeOp u d a e.2.2 e.2.1 true s ∧ e.2.1 / 4 = regsFor e.2.1 := by
  simp only [List.mem_cons, List.not_mem_nil, or_false] at he
  rcases he with rfl | rfl
  · exact ⟨by rw [exec_stl, execStl, Nat.cast_mul]; rfl, by simp [regsFor]⟩
  · exact ⟨by rw [exec_stl64, execStl64, Nat.cast_mul]; rfl, by simp [regsFor]⟩

/-! ## The obligation -/

/-- Settles O23: each form is `storeOp`, and its accesses add or perform what `storeAcc` says of one of them. -/
theorem storesComplete : Obligations.StoresComplete := by
  unfold Obligations.StoresComplete
  intro u l d a o s c g w hi hcount ho off data acc
  have hbytes (n k : Nat) : w.regBytes d k n = data n k := regBytes_eq w d k n
  have hacc (n : Nat) (sync : Bool) (off : Int) : acc n sync off = fun k => ⟨k, w.addr a k off, n, .write, sync⟩ := by
    simp only [addr_eq]
    rfl
  refine ⟨?plain, ?release⟩
  case plain =>
    intro e he n as s1 hops
    obtain ⟨hexec, hn⟩ := storeForms (off := off) rfl he s
    have hops : OperandsOk c w (c.readers u) [] [(d, regsFor n), (a, 2)] := by
      rw [regsFor_eq hn]
      exact hops
    rw [hexec]
    refine ⟨fun hpass hplain => ?_, fun s2 hpass hall => ?_, fun hfault => storeOp_faults hi hcount hops (hacc ..) hfault⟩
    · refine storeOp_stores hi hcount hops (hacc ..) hpass (fun h => nomatch h) ?_
      refine storeAll_adds (s := s1) (c := c) (g := g) (w := w) (fun t k hk hlands => ?_) .refl
      have hids : s.ids = t.ids := ((fillAll_ids s c g as).symm).trans hlands.ids.symm
      have hlen : (data n k).length = n := by simp [data]
      have hadd := storeAcc_plain (hlands.plain (hplain _ (List.mem_map_of_mem hk))) rfl (data n k)
      rw [hlands.landing] at hadd
      have hnext := hlands.addUnits k false (located (s1.landing c g w (acc n false e.2.2 k)).1 (data n k))
      rw [addUnits_located hlen, ← hids] at hnext
      refine ⟨?_, hnext⟩
      rw [hbytes, hids, ← addUnits_located hlen]
      exact hadd
    · refine storeOp_stores hi hcount hops (hacc ..) hpass (fun h => nomatch h) ?_
      simpa only [hbytes] using hall
  case release =>
    intro e he n as s1 hops hpass
    obtain ⟨hexec, hn⟩ := releaseForms he s
    have hops : OperandsOk c w (c.readers u) [] [(d, regsFor n), (a, 2)] := by
      rw [← hn]
      exact hops
    rw [hexec]
    refine ⟨fun hopen => storeOp_open hi hcount hops (hacc ..) hpass rfl hopen, fun hclosed => ⟨?_, fun s2 hall => ?_⟩⟩
    · intro k hk at_ halias
      refine storeOp_stores hi hcount hops (hacc ..) hpass (fun _ => hclosed) ?_
      have hone := storeAcc_release (s := s1) (a := acc n true e.2.2 k) halias rfl (data n k)
      have has : as = [acc n true e.2.2 k] := congrArg (List.map (acc n true e.2.2)) hk
      change storeAll _ s1 as = _
      rw [has, storeAll, hbytes, hone]
      rfl
    · refine storeOp_stores hi hcount hops (hacc ..) hpass (fun _ => hclosed) ?_
      simpa only [hbytes] using hall

end Sys2Proof.Machine
end

section
/-! Atomics and reductions of SIMT lanes (R228 to R230, R102, R103): what the one access of a group leaves and returns, what RADD adds to the
waiting stores and what performing it does, and the obligation put together from that. -/
namespace Sys2Proof.Machine

/-! ## Addresses and words -/

theorem addr_nat (w : Warp) (a k m : Nat) : w.addr a k (m : Nat) = ((w.reg a k).toNat + 2 ^ 32 * (w.reg (a + 1) k).toNat + m) % 2 ^ 64 := by
  rw [addr_eq]
  omega

theorem bytesOf_four (v : Nat) :
    bytesOf 4 v = [BitVec.ofNat 8 v, BitVec.ofNat 8 (v / 2 ^ 8), BitVec.ofNat 8 (v / 2 ^ 16), BitVec.ofNat 8 (v / 2 ^ 24)] := by
  simp [bytesOf, Nat.div_div_eq_div_mul]

/-- The word at an address of memory. -/
def Memory.wordAt (m : Memory) (pa : Nat) : Word := BitVec.ofNat 32 (ofBytes [m.byte pa, m.byte (pa + 1), m.byte (pa + 2), m.byte (pa + 3)])

/-- Memory with a word written. -/
def Memory.putWord (m : Memory) (pa : Nat) (v : Word) : Memory := m.write pa (bytesOf 4 v.toNat)

/-! ## One atomic (R102, R229) -/

section
variable {s : State} {c : Ctx} {g : WorkGroup} {w : Warp}

/-- The state in which an atomic of a lane reads: its stores performed, what stands there seen, its core having acquired. -/
def State.atomicView (s : State) (c : Ctx) (g : WorkGroup) (lane pa : Nat) : State :=
  ((s.drainLane c.p c.wg c.wid lane).hasRead g.core false (fun _ => false) pa 4).acquireOn c.p g.core

/-- An atomic on plain memory returns the word that stands there, and leaves the word that the operator gives, if it gives one. -/
theorem atomAcc_plain {a : Acc} {pa : Nat} {t : State} (hpa : (s.landing c g w a).1 = pa) (ht : s.atomicView c g a.lane pa = t)
    (hplace : t.placeOf c.p pa = .mem) (hpoison : t.mem.poisoned pa 4 = false) (f : Word → Option Word) :
    s.atomAcc c g w a f = .ok (match f (t.mem.wordAt pa) with
      | some v => { t.wrote false [c.p] 0 [(c.wg, c.wid, a.lane)] pa 4 with mem := t.mem.putWord pa v }
      | none => t, t.mem.wordAt pa) := by
  have hold : BitVec.ofNat 32 (ofBytes (t.readAt c.p pa 4)) = t.mem.wordAt pa := by
    rw [State.readAt, hplace]
    rfl
  have hwrite (v : Word) : t.writeAt c.p [(c.wg, c.wid, a.lane)] (privOf g w) pa (bytesOf 4 v.toNat) =
      { t.wrote false [c.p] 0 [(c.wg, c.wid, a.lane)] pa 4 with mem := t.mem.putWord pa v } := by
    rw [State.writeAt, hplace]
    rfl
  have hgood : ¬(t.placeOf c.p pa = .mem ∧ t.mem.poisoned pa 4 = true) := by simp [hpoison]
  simp only [State.atomAcc]
  rw [← State.atomicView, hpa, ht, if_neg hgood, hold]
  cases f (t.mem.wordAt pa) with
  | some v => exact congrArg (fun z => Except.ok (z, _)) (hwrite v)
  | none => rfl

end

/-! ## The shape of the atomics -/

section
variable {s : State} {c : Ctx} {g : WorkGroup} {w : Warp} (hi : Issues s c g w) (hcount : w.loadCount < 63) {u : Bool} {l d a : Nat}
  {reads : List RegUse} (ho : OperandsOk c w (c.readers u) [(d, 1)] ((a, 2) :: reads)) {f : Warp → Nat → Word → Option Word} {acc : Nat → Acc}
  (hacc : acc = fun k => ⟨k, (w.pair a k).toNat, 4, .atomic, true⟩) (hpass : ∀ x ∈ (c.readers u).map acc, s.accCheck c g w x = none)
include hi hcount ho hacc hpass

theorem atomOp_checked : atomOp u l d a reads f s =
    releasing (s.fillAll c g ((c.readers u).map acc)) c (c.readers u) fun _ =>
      match loadAll (fun st x => st.atomAcc c g w x (f w x.lane)) (s.fillAll c g ((c.readers u).map acc)) ((c.readers u).map acc) with
      | (s2, .ok vs) => .next (giveResults s2 c l ((spread c u vs).map fun e => (e.1, [(d, e.2)])))
      | (s2, .error t) => .next (raiseTrap s2 c [t]) := by
  subst hacc
  rw [atomOp, withGroup_issues hi, if_neg (Nat.not_le.mpr hcount), withRegs_ok ho]
  exact withAccs_pass hpass _

theorem atomOp_open (hopen : ∃ k ∈ c.readers u, (s.fillAll c g ((c.readers u).map acc)).laneOpen c.p c.wg c.wid k = true) :
    atomOp u l d a reads f s = .next (stall (s.fillAll c g ((c.readers u).map acc)) c) := by
  rw [atomOp_checked hi hcount ho hacc hpass, releasing_open hopen]

theorem atomOp_answers {s2 : State} {vs : List (Nat × Word)}
    (hclosed : ∀ k ∈ c.readers u, (s.fillAll c g ((c.readers u).map acc)).laneOpen c.p c.wg c.wid k = false)
    (hall : loadAll (fun st x => st.atomAcc c g w x (f w x.lane)) (s.fillAll c g ((c.readers u).map acc)) ((c.readers u).map acc) =
      (s2, .ok vs)) : atomOp u l d a reads f s = .next (giveResults s2 c l ((spread c u vs).map fun e => (e.1, [(d, e.2)]))) := by
  rw [atomOp_checked hi hcount ho hacc hpass, releasing_closed hclosed, hall]

/-- The one access of a group: what it returns goes to every lane. -/
theorem atomOp_one {k : Nat} (hk : c.readers u = [k])
    (hclosed : ∀ k ∈ c.readers u, (s.fillAll c g ((c.readers u).map acc)).laneOpen c.p c.wg c.wid k = false) {s2 : State} {v : Word}
    (hone : (s.fillAll c g ((c.readers u).map acc)).atomAcc c g w (acc k) (f w k) = .ok (s2, v)) :
    atomOp u l d a reads f s = .next (loadAnswer s2 c l fun _ => [(d, v)]) := by
  have hlane : (acc k).lane = k := by rw [hacc]
  have hall : loadAll (fun st x => st.atomAcc c g w x (f w x.lane)) (s.fillAll c g ((c.readers u).map acc)) ((c.readers u).map acc) =
      (s2, .ok [(k, v)]) := by
    conv_lhs => arg 3; rw [hk]
    rw [List.map_cons, List.map_nil, loadAll, hlane, hone]
    simp only [loadAll]
  rw [atomOp_answers hi hcount ho hacc hpass hclosed hall, spread_one hk, List.map_map]
  rfl

end

/-! ## RADD (R103, R230) -/

section
variable {s : State} {c : Ctx} {g : WorkGroup} {w : Warp}

theorem raddAcc_plain {a : Acc} (ha : LandsPlain s c g w a) (hn : a.n = 4) (v : Word) (f : Nat) : s.raddAcc c g w a v f =
    .ok (s.addStore c ⟨s.ids, 0, c.wg, c.wid, a.lane, privOf g w, false, false, located (s.landing c g w a).1 [0, 0, 0, 0], some (f, v),
      w.trap.hm⟩) := by
  obtain ⟨-, hplace, hpoison⟩ := ha
  rw [hn] at hpoison
  simp only [State.raddAcc, hplace, hpoison]
  rfl

/-- A reduction into a register is made at once. (log 8) -/
theorem raddAcc_register {a : Acc} (ha : s.placeOf c.p (s.landing c g w a).1 ≠ .mem) (v : Word) (f : Nat) : s.raddAcc c g w a v f =
    .ok (s.writeAt c.p [(c.wg, c.wid, a.lane)] (privOf g w) (s.landing c g w a).1 (bytesOf 4 (((raddOperator f).getD fadd)
      (BitVec.ofNat 32 (ofBytes (s.readAt c.p (s.landing c g w a).1 4))) v).toNat)) := if_pos ha

variable (hi : Issues s c g w) (hcount : (s.work c.p).storeCount c.wg c.wid < 63) {u : Bool} {l f a b x : Nat}
  (ho : OperandsOk c w (c.readers u) [] [(a, 2), (b, 1)]) {acc : Nat → Acc}
  (hacc : acc = fun k => ⟨k, w.addr a k (x * 4 : Nat), 4, .atomic, true⟩) (hpass : ∀ y ∈ (c.readers u).map acc, s.accCheck c g w y = none)
include hi hcount ho hacc hpass

theorem execRadd_reduces {s2 : State}
    (hall : storeAll (fun st y => st.raddAcc c g w y (w.reg b y.lane) f) (s.fillAll c g ((c.readers u).map acc)) ((c.readers u).map acc) =
      (s2, none)) : execRadd u l f a b x s = .next (retire s2.fresh c) := by
  subst hacc
  rw [execRadd, withGroup_issues hi, if_neg (Nat.not_le.mpr hcount), withRegs_ok ho]
  refine (withAccs_pass hpass _).trans ?_
  rw [hall]

end

/-- A reduction that waits alone: the word that the operator gives stands there, or the sum joins the run of its word. -/
theorem perform_reduction (z : State) (p : Nat) {y : PendingStore} {pa f : Nat} {v : Word} (hspad : y.spad = false)
    (hbytes : y.bytes = located pa [0, 0, 0, 0]) (hred : y.red = some (f, v)) :
    (z.perform p y).mem = match raddOperator f with
      | some op => z.mem.putWord pa (op (z.mem.wordAt pa) v)
      | none => z.mem.raddF32 pa v (y.ticket * 32 + y.lane) := by
  simp only [State.perform, hbytes, located, hspad, hred, Memory.reduce]
  rfl

/-! ## The forms -/

/-- The ATOM forms: instruction, registers read besides the address, the new word if any is written. -/
theorem atomForms {u : Bool} {l d a b : Nat} {w : Warp} {e : Instr × Nat × (Nat → Word → Option Word)}
    (he : e ∈ ([(.atomAdd u l d a b, 1, fun k o => some (o + w.reg b k)), (.atomF32 u l d a b, 1, fun k o => some (fadd o (w.reg b k))),
      (.atomMins u l d a b, 1, fun k o => some (minS o (w.reg b k))), (.atomMaxs u l d a b, 1, fun k o => some (maxS o (w.reg b k))),
      (.atomMinz u l d a b, 1, fun k o => some (minZ o (w.reg b k))), (.atomMaxz u l d a b, 1, fun k o => some (maxZ o (w.reg b k))),
      (.atomAnd u l d a b, 1, fun k o => some (o &&& w.reg b k)), (.atomOr u l d a b, 1, fun k o => some (o ||| w.reg b k)),
      (.atomXor u l d a b, 1, fun k o => some (o ^^^ w.reg b k)), (.atomExch u l d a b, 1, fun k _ => some (w.reg b k)),
      (.atomCas u l d a b, 2, fun k o => if o = w.reg b k then some (w.reg (b + 1) k) else none)] :
      List (Instr × Nat × (Nat → Word → Option Word)))) (s : State) :
    ∃ f : Warp → Nat → Word → Option Word, exec e.1 s = atomOp u l d a [(b, e.2.1)] f s ∧ f w = e.2.2 := by
  simp only [List.mem_cons, List.not_mem_nil, or_false] at he
  rcases he with rfl | rfl | rfl | rfl | rfl | rfl | rfl | rfl | rfl | rfl | rfl
  · exact ⟨_, by rw [exec_atomAdd, execAtomAdd, atomWith], rfl⟩
  · exact ⟨_, by rw [exec_atomF32, execAtomF32, atomWith], rfl⟩
  · exact ⟨_, by rw [exec_atomMins, execAtomMins, atomWith], rfl⟩
  · exact ⟨_, by rw [exec_atomMaxs, execAtomMaxs, atomWith], rfl⟩
  · exact ⟨_, by rw [exec_atomMinz, execAtomMinz, atomWith], rfl⟩
  · exact ⟨_, by rw [exec_atomMaxz, execAtomMaxz, atomWith], rfl⟩
  · exact ⟨_, by rw [exec_atomAnd, execAtomAnd, atomWith], rfl⟩
  · exact ⟨_, by rw [exec_atomOr, execAtomOr, atomWith], rfl⟩
  · exact ⟨_, by rw [exec_atomXor, execAtomXor, atomWith], rfl⟩
  · exact ⟨_, by rw [exec_atomExch, execAtomExch, atomWith], rfl⟩
  · exact ⟨_, by rw [exec_atomCas, execAtomCas], rfl⟩

/-- The operators of RADD. -/
theorem raddForms {e : Nat × Option (Word → Word → Word)}
    (he : e ∈ ([(0, some fun o v => o + v), (1, none), (2, some minS), (3, some maxS), (4, some minZ), (5, some maxZ),
      (6, some fun o v => o &&& v), (7, some fun o v => o ||| v), (8, some fun o v => o ^^^ v)] : List (Nat × Option (Word → Word → Word)))) :
    raddOperator e.1 = e.2 := by
  simp only [List.mem_cons, List.not_mem_nil, or_false] at he
  rcases he with rfl | rfl | rfl | rfl | rfl | rfl | rfl | rfl | rfl
  all_goals rfl

/-! ## The obligation -/

/-- Settles O24: an ATOM form is `atomOp` with its operator, RADD adds its reductions one by one, and performing one reduces its word. -/
theorem atomicsAndReductionsComplete : Obligations.AtomicsAndReductionsComplete := by
  unfold Obligations.AtomicsAndReductionsComplete
  intro u l d a b x s c g w hi smin smax zmin zmax put old
  have hput (t : State) (pa : Nat) (v : Word) : { t with mem := t.mem.putWord pa v } = put t pa v := by
    simp only [Memory.putWord, bytesOf_four]
    rfl
  refine ⟨?atom, ?radd⟩
  case atom =>
    intro hcount e he acc as s1 hops hpass
    obtain ⟨f, hexec, hf⟩ := atomForms he s
    have hacc : acc = fun k => ⟨k, (w.pair a k).toNat, 4, .atomic, true⟩ := by
      simp only [toNat_pair]
      rfl
    rw [hexec]
    refine ⟨fun hopen => atomOp_open hi hcount hops hacc hpass hopen, fun hclosed => ⟨?_, fun s2 vs hall => ?_⟩⟩
    · intro k hk pa s2 hplace hpoison
      refine atomOp_one hi hcount hops hacc hpass hk hclosed ?_
      refine (atomAcc_plain (t := s2) rfl rfl hplace hpoison (f w k)).trans ?_
      rw [hf]
      change Except.ok (match e.2.2 k (old s2 pa) with
        | some v => _
        | none => s2, old s2 pa) = _
      cases e.2.2 k (old s2 pa) with
      | some v => exact congrArg (fun z => Except.ok (z, old s2 pa)) (hput (s2.wrote false [c.p] 0 [(c.wg, c.wid, k)] pa 4) pa v)
      | none => rfl
    · refine atomOp_answers hi hcount hops hacc hpass hclosed ?_
      rw [hf]
      exact hall
  case radd =>
    intro hcount hx e he acc as s1 hops hpass
    have hop := raddForms he
    have hacc : acc = fun k => ⟨k, w.addr a k (x * 4 : Nat), 4, .atomic, true⟩ := by
      simp only [addr_nat, Nat.mul_comm x]
      rfl
    rw [exec_radd]
    refine ⟨fun hplain => ?_, ?_, ?_⟩
    · refine execRadd_reduces hi hcount hops hacc hpass ?_
      refine storeAll_adds (s := s1) (c := c) (g := g) (w := w) (fun t k hk hlands => ?_) .refl
      have hids : s.ids = t.ids := ((fillAll_ids s c g as).symm).trans hlands.ids.symm
      have hadd := raddAcc_plain (hlands.plain (hplain _ (List.mem_map_of_mem hk))) rfl (w.reg b k) e.1
      rw [hlands.landing, ← hids] at hadd
      exact ⟨hadd, hlands.addStore (fillAll_ids s c g as).symm⟩
    · intro k hk pa hreg
      refine execRadd_reduces hi hcount hops hacc hpass ?_
      have hone := raddAcc_register (s := s1) (c := c) (g := g) (w := w) (a := acc k) hreg (w.reg b k) e.1
      have has : as = [acc k] := congrArg (List.map acc) hk
      change storeAll _ s1 as = _
      rw [hop] at hone
      rw [has, storeAll, hone]
      rfl
    · intro p n pa y z hz hy hpark hspad hbytes hred hfirst
      refine ⟨_, rfl, ?_⟩
      rw [State.arg_part hz, State.arg_part hz]
      refine (congrArg State.mem (State.performStore_alone hy hpark hfirst)).trans ?_
      refine (perform_reduction z p hspad hbytes hred).trans ?_
      rw [hop]
      cases e.2 with
      | some op => exact congrArg State.mem (hput z pa _)
      | none => rfl

end Sys2Proof.Machine
end

section
/-! One operation on a ring (R236 to R238): when a lane's push or pop acts, what it leaves, and what keeps waiters and rings. -/
namespace Sys2Proof.Machine

/-! ## What keeps waiters and rings -/

/-- The waiters and the rings of a partition stand. -/
def State.KeepsRings (s t : State) (p : Nat) : Prop := (t.work p).waiters = (s.work p).waiters ∧ (t.part p).rings = (s.part p).rings

section
variable {s t v : State} {p : Nat}

theorem State.KeepsRings.refl (s : State) (p : Nat) : s.KeepsRings s p := ⟨rfl, rfl⟩

theorem State.KeepsRings.trans (h : s.KeepsRings t p) (k : t.KeepsRings v p) : s.KeepsRings v p := ⟨k.1.trans h.1, k.2.trans h.2⟩

theorem State.KeepsRings.ring (h : s.KeepsRings t p) (q : Nat) : (t.part p).ring q = (s.part p).ring q := by
  rw [Partition.ring, Partition.ring, h.2]

theorem State.LeavesRest.keepsRings (h : s.LeavesRest t) (p : Nat) : s.KeepsRings t p :=
  ⟨h.waiters_eq p, by rw [State.part, State.part, h.parts_eq]⟩

theorem foldl_keepsRings {α : Type} {f : State → α → State} (hf : ∀ (t : State) (x : α), t.KeepsRings (f t x) p) (l : List α) (s : State) :
    s.KeepsRings (l.foldl f s) p := by
  induction l generalizing s with
  | nil => exact .refl s p
  | cons x r ih => exact (hf s x).trans (ih (f s x))

theorem perform_keepsRings (s : State) (q : Nat) (x : PendingStore) (p : Nat) : s.KeepsRings (s.perform q x) p := by
  unfold State.perform
  split
  · exact .refl s p
  · split <;> exact ⟨rfl, rfl⟩

theorem performStore_keepsRings (s : State) (p n : Nat) : s.KeepsRings (s.performStore p n) p := by
  unfold State.performStore
  split
  · exact .refl s p
  · split
    · exact .refl s p
    · refine (foldl_keepsRings (fun t x => perform_keepsRings t p x p) _ s).trans ⟨?_, rfl⟩
      rw [State.modWork_work_same]

theorem drainWhere_keepsRings (s : State) (p : Nat) (f : PendingStore → Bool) : s.KeepsRings (s.drainWhere p f) p := by
  refine foldl_keepsRings (fun t x => ?_) _ s
  split
  · exact performStore_keepsRings t p _
  · exact .refl t p

theorem drainLane_keepsRings (s : State) (p wg wid lane : Nat) : s.KeepsRings (s.drainLane p wg wid lane) p := drainWhere_keepsRings ..

theorem drainRadds_keepsRings (s : State) (c : Ctx) (lane : Nat) : s.KeepsRings (s.drainRadds c lane) c.p := drainWhere_keepsRings ..

theorem writeAt_keepsRings (s : State) (p : Nat) (who : List (Nat × Nat × Nat)) (level pa : Nat) (bs : List Byte) :
    s.KeepsRings (s.writeAt p who level pa bs) p := by
  unfold State.writeAt
  split <;> exact ⟨rfl, rfl⟩

theorem fillTlb_rings (s : State) (q die va p : Nat) : ((s.fillTlb q die va).part p).rings = (s.part p).rings := by
  unfold State.fillTlb
  split
  · rfl
  · split
    · split
      · by_cases h : p = q
        · rw [h, State.modPart_part_same]
        · rw [State.modPart_part_other _ _ h]
      · rfl
    · rfl

theorem fillAll_keepsRings (s : State) (c : Ctx) (g : WorkGroup) (as : List Acc) (p : Nat) : s.KeepsRings (s.fillAll c g as) p := by
  refine ⟨congrArg Work.waiters (fillAll_work s c g as p), ?_⟩
  induction as generalizing s with
  | nil => rfl
  | cons a r ih =>
    refine (ih _).trans ?_
    beta_reduce
    split
    · exact fillTlb_rings (s.walkView c a.lane) c.p _ a.va p
    · rfl

end

/-! ## Rings (R236) -/

/-- A partition's ring changed. -/
def State.putRing (s : State) (p q : Nat) (r : Ring) : State := s.modPart p fun x => { x with rings := put x.rings q r }

theorem putRing_ring_same (s : State) (p q : Nat) (r : Ring) : ((s.putRing p q r).part p).ring q = r := by
  rw [State.putRing, State.modPart_part_same, Partition.ring, findD_put_same]

theorem putRing_ring_other (s : State) (p : Nat) {q j : Nat} (h : j ≠ q) (r : Ring) :
    ((s.putRing p q r).part p).ring j = (s.part p).ring j := by
  rw [State.putRing, State.modPart_part_same]
  exact findD_put_other (s.part p).rings r Ring.empty h

/-- A ring that an instruction may name. -/
def State.ringOk (s : State) (p q : Nat) : Prop :=
  q ≤ 255 ∧ ((s.part p).ring q).en = true ∧ ((s.part p).ring q).rbase.toNat % (8 * 2 ^ ((s.part p).ring q).rlog) = 0

theorem ringFor_ok {s : State} {p q : Nat} (h : s.ringOk p q) : (s.part p).ringFor q = .ok ((s.part p).ring q) := by
  obtain ⟨hq, hen, hbase⟩ := h
  exact if_neg (by simp [hq, hen, Ring.size, hbase])

theorem ringFor_bad {s : State} {p q : Nat} (h : ¬s.ringOk p q) : (s.part p).ringFor q = .error (24, BitVec.ofNat 64 q) := by
  refine if_pos ?_
  by_contra hnot
  simp only [not_or, not_not, Nat.not_lt, Bool.not_eq_false] at hnot
  exact h hnot

/-- A lane's access to entry `i` of a ring. -/
def Ring.entry (r : Ring) (k : Nat) (i : Word) (kd : Kind) : Acc := ⟨k, (r.rbase.toNat + 8 * (i.toNat % 2 ^ r.rlog)) % 2 ^ 64, 8, kd, true⟩

theorem entry_eq (r : Ring) (k : Nat) (i : Word) (kd : Kind) :
    ⟨k, (r.rbase + BitVec.ofNat 64 (8 * (i.toNat % r.size))).toNat, 8, kd, true⟩ = r.entry k i kd := by
  rw [Ring.entry, BitVec.toNat_add, BitVec.toNat_ofNat, Nat.add_mod_mod]
  rfl

/-! ## A load that synchronises -/

section
variable {s : State} {c : Ctx} {g : WorkGroup} {w : Warp}

/-- The bytes that an acquire of a lane sees: those of its own stores over what stands once its reductions are performed. -/
def State.acquired (s : State) (c : Ctx) (lane pa n : Nat) : List Byte :=
  seen (((s.drainRadds c lane).work c.p).ownStores c.wg c.wid lane false) pa ((s.drainRadds c lane).mem.bytes pa n)

theorem loadAcc_acquire {a : Acc} {pa : Nat} (ha : LandsPlain s c g w a) (hsync : a.sync = true) (hpa : (s.landing c g w a).1 = pa) :
    s.loadAcc c g w a = .ok (((s.drainRadds c a.lane).hasRead g.core false (fun _ => false) pa a.n).acquireOn c.p g.core,
      s.acquired c a.lane pa a.n) := by
  obtain ⟨halias, hplace, hpoison⟩ := ha
  have hbytes : (s.drainRadds c a.lane).lateBytes false (fun _ => false) pa a.n = (s.drainRadds c a.lane).mem.bytes pa a.n :=
    lateBytes_current (fun _ _ _ => rfl) pa a.n
  subst hpa
  simp only [State.loadAcc, if_neg halias, hplace, hpoison, hsync, Bool.not_true, Bool.false_and, ne_eq,
    not_true_eq_false, Bool.false_eq_true, if_false, if_true, hbytes]
  rfl

/-! ## Push and pop of a lane (R238) -/

/-- The state with a lane's entry pushed. -/
def State.pushed (s : State) (c : Ctx) (g : WorkGroup) (w : Warp) (k q : Nat) (e : DWord) (r : Ring) : State :=
  let s1 := s.fillAll c g [r.entry k r.tail .write]
  ((s1.drainLane c.p c.wg c.wid k).writeAt c.p [(c.wg, c.wid, k)] (privOf g w) (s1.landing c g w (r.entry k r.tail .write)).1
    (bytesOf 8 e.toNat)).putRing c.p q { r with tail := r.tail + 1, free := r.free - 1 }

/-- Where a lane's pop lands. -/
def State.popLanding (s : State) (c : Ctx) (g : WorkGroup) (w : Warp) (k : Nat) (r : Ring) : Nat :=
  ((s.fillAll c g [r.entry k r.head .read]).landing c g w (r.entry k r.head .read)).1

/-- The state with a lane's entry popped. -/
def State.popped (s : State) (c : Ctx) (g : WorkGroup) (w : Warp) (k q : Nat) (r : Ring) : State :=
  ((((s.fillAll c g [r.entry k r.head .read]).drainRadds c k).hasRead g.core false (fun _ => false) (s.popLanding c g w k r) 8).acquireOn
    c.p g.core).putRing c.p q { r with head := r.head + 1 }

/-- The entry that a lane's pop finds, as a number. -/
def State.popFinds (s : State) (c : Ctx) (g : WorkGroup) (w : Warp) (k : Nat) (r : Ring) : Nat :=
  ofBytes ((s.fillAll c g [r.entry k r.head .read]).acquired c k (s.popLanding c g w k r) 8)

variable {k q : Nat} {r : Ring} (hok : s.ringOk c.p q) (hr : (s.part c.p).ring q = r)
include hok hr

theorem ringPush_waits (hfull : r.free = 0 ∨ 2 ^ r.rlog ≤ (r.tail - r.head).toNat) (e : DWord) : s.ringPush c g w k q e = .ok none := by
  have hfull : r.free = 0 ∨ r.size ≤ r.count := hfull
  simp only [State.ringPush, ringFor_ok hok, hr, bind, Except.bind]
  rw [if_pos hfull]
  rfl

theorem ringPush_acts (hfree : r.free ≠ 0) (hroom : (r.tail - r.head).toNat < 2 ^ r.rlog)
    (hpass : s.accCheck c g w (r.entry k r.tail .write) = none)
    (halias : leafFmt ((s.fillAll c g [r.entry k r.tail .write]).landing c g w (r.entry k r.tail .write)).2 ≠ 2) (e : DWord) :
    s.ringPush c g w k q e = .ok (some (s.pushed c g w k q e r)) := by
  have hroom : ¬(r.free = 0 ∨ r.size ≤ r.count) := not_or.mpr ⟨hfree, Nat.not_le.mpr hroom⟩
  simp only [State.ringPush, ringFor_ok hok, hr, bind, Except.bind]
  rw [if_neg hroom, entry_eq, hpass]
  simp only [storeAcc_release (a := r.entry k r.tail .write) halias rfl]
  rfl

theorem ringPop_waits (hempty : r.tail = r.head) : s.ringPop c g w k q = .ok none := by
  have hcount : r.count = 0 := by simp [Ring.count, hempty]
  simp only [State.ringPop, ringFor_ok hok, hr, bind, Except.bind]
  rw [if_pos hcount]
  rfl

theorem ringPop_acts (hne : r.tail ≠ r.head) (hpass : s.accCheck c g w (r.entry k r.head .read) = none)
    (hplain : LandsPlain (s.fillAll c g [r.entry k r.head .read]) c g w (r.entry k r.head .read)) :
    s.ringPop c g w k q = .ok (some (s.popped c g w k q r, BitVec.ofNat 64 (s.popFinds c g w k r))) := by
  have hcount : ¬r.count = 0 := by
    intro h
    have hzero : r.tail - r.head = 0 := BitVec.eq_of_toNat_eq h
    exact hne (sub_eq_zero.mp hzero)
  simp only [State.ringPop, ringFor_ok hok, hr, bind, Except.bind]
  rw [if_neg hcount, entry_eq, hpass]
  simp only [loadAcc_acquire hplain rfl rfl]
  rfl

omit hok hr

theorem pushed_waiters (e : DWord) : ((s.pushed c g w k q e r).work c.p).waiters = (s.work c.p).waiters := by
  rw [State.pushed, State.putRing, State.modPart_work]
  exact (writeAt_keepsRings ..).1.trans ((drainLane_keepsRings ..).1.trans (fillAll_keepsRings ..).1)

theorem popped_waiters : ((s.popped c g w k q r).work c.p).waiters = (s.work c.p).waiters := by
  rw [State.popped, State.putRing, State.modPart_work]
  exact (drainRadds_keepsRings ..).1.trans (fillAll_keepsRings ..).1

end

end Sys2Proof.Machine
end

section
/-! Ring instructions (R237, R238): when the waiters of a ring are served, and what RBPUSH, RBPOP and RBFREE answer for one operation, for two
lanes in their order, and for any lanes of RBFREE. -/
namespace Sys2Proof.Machine

/-! ## Waiters of a ring -/

/-- Whether a waiter waits on a ring to push, or to pop. -/
def Waiter.onRing (q : Nat) (push : Bool) (x : Waiter) : Bool :=
  match x.kind with
  | .rbpush k _ => push && k == q
  | .rbpop k _ => !push && k == q
  | _ => false

theorem onRing_push_iff {q : Nat} {x : Waiter} : x.onRing q true = true ↔ ∃ e, x.kind = .rbpush q e := by
  unfold Waiter.onRing
  cases x.kind <;> simp

theorem onRing_pop_iff {q : Nat} {x : Waiter} : x.onRing q false = true ↔ ∃ d, x.kind = .rbpop q d := by
  unfold Waiter.onRing
  cases x.kind <;> simp

theorem ringWaits_eq (w : Work) (q : Nat) (push : Bool) : w.ringWaits q push = w.waiters.any (Waiter.onRing q push) := rfl

theorem ringWaits_nobody {w : Work} (h : w.waiters = []) (q : Nat) (push : Bool) : w.ringWaits q push = false := by
  rw [ringWaits_eq, h]
  rfl

/-- What the first waiter of a ring is given. -/
def State.serveWaiter (s : State) (p q : Nat) (x : Waiter) (g : WorkGroup) (w : Warp) : Option State :=
  let c : Ctx := ⟨p, x.wg, x.wid, x.lanes, 0, 0⟩
  match x.kind with
  | .rbpush _ e =>
    match s.ringPush c g w c.l0 q e with
    | .ok (some s') => some (s'.releaseWaiter p x [])
    | .ok none => none
    | .error t => some (s.faultWaiter p x t.1 t.2)
  | .rbpop _ d =>
    match s.ringPop c g w c.l0 q with
    | .ok (some (s', e)) => some (s'.releaseWaiter p x (pairOf d e))
    | .ok none => none
    | .error t => some (s.faultWaiter p x t.1 t.2)
  | _ => none

theorem serveOne_eq (s : State) (p q : Nat) (push : Bool) : s.serveOne p q push =
    ((s.work p).waiters.find? (Waiter.onRing q push)).bind fun x => ((s.work p).wg x.wg).bind fun g => (g.warp x.wid).bind fun w =>
      s.serveWaiter p q x g w := rfl

section
variable {s : State} {p q : Nat}

theorem serveOne_nobody {push : Bool} (h : (s.work p).ringWaits q push = false) : s.serveOne p q push = none := by
  have hnone : (s.work p).waiters.find? (Waiter.onRing q push) = none := by
    rw [List.find?_eq_none]
    exact fun x hx => List.any_eq_false.mp h x hx
  rw [serveOne_eq, hnone]
  rfl

/-- The first waiter, whatever it is: nothing is done where it can be given nothing. -/
theorem serveOne_stuck {push : Bool} (h : ∀ x g w, x.onRing q push = true → s.serveWaiter p q x g w = none) : s.serveOne p q push = none := by
  rw [serveOne_eq]
  cases hfind : (s.work p).waiters.find? (Waiter.onRing q push) with
  | none => rfl
  | some x =>
    have hon := List.find?_some hfind
    cases hg : (s.work p).wg x.wg with
    | none => simp [hg]
    | some g =>
      cases hw : g.warp x.wid with
      | none => simp [hg, hw]
      | some w => simpa [hg, hw] using h x g w hon

/-- A full ring, or one without credit, serves no push. -/
theorem serveOne_push_full (hok : s.ringOk p q) (hfull : ((s.part p).ring q).free = 0 ∨
    2 ^ ((s.part p).ring q).rlog ≤ (((s.part p).ring q).tail - ((s.part p).ring q).head).toNat) : s.serveOne p q true = none :=
  serveOne_stuck fun x g w hon => by
    obtain ⟨e, he⟩ := onRing_push_iff.mp hon
    simp only [State.serveWaiter, he]
    rw [ringPush_waits hok rfl hfull]

/-- An empty ring serves no pop. -/
theorem serveOne_pop_empty (hok : s.ringOk p q) (hempty : ((s.part p).ring q).tail = ((s.part p).ring q).head) : s.serveOne p q false = none :=
  serveOne_stuck fun x g w hon => by
    obtain ⟨d, hd⟩ := onRing_pop_iff.mp hon
    simp only [State.serveWaiter, hd]
    rw [ringPop_waits hok rfl hempty]

theorem serveOne_first {push : Bool} {x : Waiter} {g : WorkGroup} {w : Warp} (hx : (s.work p).waiters.find? (Waiter.onRing q push) = some x)
    (hg : (s.work p).wg x.wg = some g) (hw : g.warp x.wid = some w) : s.serveOne p q push = s.serveWaiter p q x g w := by
  rw [serveOne_eq, hx, Option.bind_some, hg, Option.bind_some, hw, Option.bind_some]

theorem serveRing_stuck (hpush : s.serveOne p q true = none) (hpop : s.serveOne p q false = none) (n : Nat) : s.serveRing p q n = s := by
  cases n with
  | zero => rfl
  | succ n => simp only [State.serveRing, hpush, hpop]

theorem serveRings_stuck {qs : List Nat} (h : ∀ q ∈ qs, s.serveOne p q true = none ∧ s.serveOne p q false = none) :
    State.serveRings p qs s = s := by
  have hnub : ∀ q ∈ nub qs, s.serveOne p q true = none ∧ s.serveOne p q false = none := fun q hq => h q ((mem_nub q qs).mp hq)
  rw [State.serveRings]
  generalize nub qs = l at hnub
  induction l with
  | nil => rfl
  | cons q r ih =>
    obtain ⟨hq, hrest⟩ := List.forall_mem_cons.mp hnub
    rw [List.foldl_cons, serveRing_stuck hq.1 hq.2]
    exact ih hrest

theorem serveRings_nobody (h : (s.work p).waiters = []) (qs : List Nat) : State.serveRings p qs s = s :=
  serveRings_stuck fun q _ => ⟨serveOne_nobody (ringWaits_nobody h q true), serveOne_nobody (ringWaits_nobody h q false)⟩

end

/-! ## The operations of a lane -/

def rbpushLane (c : Ctx) (g : WorkGroup) (w : Warp) (a b : Nat) : WaitStep := fun st l => do
  let _ ← (st.part c.p).ringFor (w.reg a l).toNat
  if (st.work c.p).ringWaits (w.reg a l).toNat true then return none
  let r ← st.ringPush c g w l (w.reg a l).toNat (w.pair b l)
  return r.map fun s' => (s', [])

def rbpopLane (c : Ctx) (g : WorkGroup) (w : Warp) (d a : Nat) : WaitStep := fun st l => do
  let _ ← (st.part c.p).ringFor (w.reg a l).toNat
  if (st.work c.p).ringWaits (w.reg a l).toNat false then return none
  let r ← st.ringPop c g w l (w.reg a l).toNat
  return r.map fun e => (e.1, pairOf d e.2)

def rbfreeLane (c : Ctx) (w : Warp) (d a b : Nat) : WaitStep := fun st l => do
  let r ← (st.part c.p).ringFor (w.reg a l).toNat
  let free := min (r.free + (w.reg b l).toNat) r.size
  return some (st.modPart c.p fun x => { x with rings := put x.rings (w.reg a l).toNat { r with free := free } }, [(d, BitVec.ofNat 32 free)])

theorem execRbpush_eq (u : Bool) (a b : Nat) (s : State) : execRbpush u a b s = withGroup s fun c g w =>
    withRegs s c w (c.readers u) [] [(a, 1), (b, 2)] fun _ => releasing s c (c.readers u) fun _ =>
      laneWaits s c w u (fun l => .rbpush (w.reg a l).toNat (w.pair b l)) (rbpushLane c g w a b)
        (State.serveRings c.p ((c.readers u).map fun l => (w.reg a l).toNat)) := rfl

theorem execRbpop_eq (u : Bool) (d a : Nat) (s : State) : execRbpop u d a s = withGroup s fun c g w =>
    if w.trap.hm then trapWord s c causeIllegal
    else withRegs s c w (c.readers u) [(d, 2)] [(a, 1)] fun _ =>
      laneWaits s c w u (fun l => .rbpop (w.reg a l).toNat d) (rbpopLane c g w d a)
        (State.serveRings c.p ((c.readers u).map fun l => (w.reg a l).toNat)) := rfl

theorem execRbfree_eq (u : Bool) (d a b : Nat) (s : State) : execRbfree u d a b s = withGroup s fun c _ w =>
    withRegs s c w (c.readers u) [(d, 1)] [(a, 1), (b, 1)] fun _ =>
      laneWaits s c w u (fun l => .rbpop (w.reg a l).toNat d) (rbfreeLane c w d a b)
        (State.serveRings c.p ((c.readers u).map fun l => (w.reg a l).toNat)) := rfl

section
variable {s : State} {c : Ctx} {g : WorkGroup} {w : Warp} {d a b k q : Nat} (hq : (w.reg a k).toNat = q)
include hq

theorem rbpushLane_faults (hbad : ¬s.ringOk c.p q) : rbpushLane c g w a b s k = .error (24, BitVec.ofNat 64 q) := by
  simp only [rbpushLane, hq, ringFor_bad hbad, bind, Except.bind]

theorem rbpopLane_faults (hbad : ¬s.ringOk c.p q) : rbpopLane c g w d a s k = .error (24, BitVec.ofNat 64 q) := by
  simp only [rbpopLane, hq, ringFor_bad hbad, bind, Except.bind]

theorem rbfreeLane_faults (hbad : ¬s.ringOk c.p q) : rbfreeLane c w d a b s k = .error (24, BitVec.ofNat 64 q) := by
  simp only [rbfreeLane, hq, ringFor_bad hbad, bind, Except.bind]

variable (hok : s.ringOk c.p q)
include hok

theorem rbpushLane_behind (h : (s.work c.p).ringWaits q true = true) : rbpushLane c g w a b s k = .ok none := by
  simp only [rbpushLane, hq, ringFor_ok hok, h, bind, Except.bind]
  rfl

theorem rbpopLane_behind (h : (s.work c.p).ringWaits q false = true) : rbpopLane c g w d a s k = .ok none := by
  simp only [rbpopLane, hq, ringFor_ok hok, h, bind, Except.bind]
  rfl

theorem rbpushLane_first (h : (s.work c.p).ringWaits q true = false) {o : Option State} (ho : s.ringPush c g w k q (w.pair b k) = .ok o) :
    rbpushLane c g w a b s k = .ok (o.map fun s' => (s', [])) := by
  simp only [rbpushLane, hq, ringFor_ok hok, h, ho, bind, Except.bind]
  rfl

theorem rbpopLane_first (h : (s.work c.p).ringWaits q false = false) {o : Option (State × DWord)} (ho : s.ringPop c g w k q = .ok o) :
    rbpopLane c g w d a s k = .ok (o.map fun e => (e.1, pairOf d e.2)) := by
  simp only [rbpopLane, hq, ringFor_ok hok, h, ho, bind, Except.bind]
  rfl

/-- The credit of a ring after an RBFREE of a lane: never more than its entries. -/
theorem rbfreeLane_acts {free : Nat} (hfree : (if ((s.part c.p).ring q).free + (w.reg b k).toNat < 2 ^ ((s.part c.p).ring q).rlog then
      ((s.part c.p).ring q).free + (w.reg b k).toNat else 2 ^ ((s.part c.p).ring q).rlog) = free) :
    rbfreeLane c w d a b s k =
      .ok (some (s.putRing c.p q { (s.part c.p).ring q with free := free }, [(d, BitVec.ofNat 32 free)])) := by
  have hmin : min (((s.part c.p).ring q).free + (w.reg b k).toNat) ((s.part c.p).ring q).size = free := by
    rw [← hfree, Ring.size]
    split <;> omega
  simp only [rbfreeLane, hq, ringFor_ok hok, hmin, bind, Except.bind]
  rfl

end

/-- The two words of a number that is popped. -/
theorem pairOf_ofNat (d v : Nat) : pairOf d (BitVec.ofNat 64 v) = [(d, BitVec.ofNat 32 v), (d + 1, BitVec.ofNat 32 (v / 2 ^ 32))] := by
  have hlow : BitVec.ofNat 32 (v % 2 ^ 64) = BitVec.ofNat 32 v := BitVec.eq_of_toNat_eq (by simp only [BitVec.toNat_ofNat]; omega)
  have hhigh : BitVec.ofNat 32 (v % 2 ^ 64 / 2 ^ 32) = BitVec.ofNat 32 (v / 2 ^ 32) :=
    BitVec.eq_of_toNat_eq (by simp only [BitVec.toNat_ofNat]; omega)
  rw [pairOf_number, BitVec.toNat_ofNat, hlow, hhigh]

end Sys2Proof.Machine
end

section
/-! RBPUSH, RBPOP and RBFREE (R236, R238): what one operation answers, what the two lanes of a group answer in their order, and the obligation
put together from that. -/
namespace Sys2Proof.Machine

/-- A group has joined the end of the order, and neither memory nor a partition has changed. -/
theorem waiting_held {s t : State} {p : Nat} {x : Waiter} (h : (s.waiting p x).LeavesRest t) :
    (t.work p).waiters = (s.work p).waiters ++ [x] ∧ t.parts = s.parts ∧ t.mem = s.mem :=
  ⟨(h.waiters_eq p).trans (s.waiting_waiters p x), h.parts_eq, h.mem_eq⟩

theorem answer_waiters (s : State) (c : Ctx) (f : Nat → List (Nat × Word)) : ((answer s c f).work c.p).waiters = (s.work c.p).waiters :=
  ((writeLanes_leavesRest s c _).trans (retireTo_leavesRest _ c _)).waiters_eq c.p

theorem ringOk_congr {s t : State} (h : t.parts = s.parts) (p q : Nat) : t.ringOk p q ↔ s.ringOk p q := by
  rw [State.ringOk, State.ringOk, State.part, State.part, h]

/-- One operation that a ring refuses: the trap is taken, and nobody is served where nobody waits. -/
theorem laneWaits_refused {s : State} {c : Ctx} {w : Warp} {u : Bool} {kind : Nat → WaitKind} {f : WaitStep} {k : Nat} {e : Nat × DWord}
    (hm : w.trap.hm = false) (hk : c.readers u = [k]) (hf : f s k = .error e) (hnobody : (s.work c.p).waiters = []) (qs : List Nat) :
    ∃ t, laneWaits s c w u kind f (State.serveRings c.p qs) = .next (raiseTrap t c [e]) := by
  have hsteps : waitSteps kind (fun l => if u then c.lanes else [l]) c f s (c.readers u) = (s, [], [], some e) := by
    rw [hk, waitSteps, hf]
  obtain ⟨t, hexec, hleft⟩ := laneWaits_faults (fin := State.serveRings c.p qs) hm hsteps
  rw [hexec, serveRings_nobody (((hleft.trans (raiseTrap_leavesRest ..)).waiters_eq c.p).trans hnobody)]
  exact ⟨t, rfl⟩

/-! ## One operation -/

section
variable {s : State} {c : Ctx} {g : WorkGroup} {w : Warp} (hi : Issues s c g w) (hm : w.trap.hm = false) {u : Bool} {k : Nat}
  (hk : c.readers u = [k]) {d a b q : Nat} (hq : (w.reg a k).toNat = q)
include hi hm hk hq

section
variable (ho : OperandsOk c w [k] [] [(a, 1), (b, 2)])
include ho

omit hm hq in
theorem execRbpush_open (hopen : s.laneOpen c.p c.wg c.wid k = true) : execRbpush u a b s = .next (stall s c) := by
  rw [execRbpush_eq, withGroup_issues hi, hk, withRegs_ok ho, releasing_open ⟨k, List.mem_singleton_self k, hopen⟩]

variable (hclosed : s.laneOpen c.p c.wg c.wid k = false)
include hclosed

omit hm in
theorem execRbpush_closed : execRbpush u a b s =
    laneWaits s c w u (fun l => .rbpush (w.reg a l).toNat (w.pair b l)) (rbpushLane c g w a b) (State.serveRings c.p [q]) := by
  rw [execRbpush_eq, withGroup_issues hi, hk, withRegs_ok ho, releasing_closed fun l hl => (List.mem_singleton.mp hl) ▸ hclosed]
  rw [List.map_cons, List.map_nil, hq]

omit hm in
theorem execRbpush_acts (hok : s.ringOk c.p q) (hnobody : (s.work c.p).waiters = []) {r : Ring} (hr : (s.part c.p).ring q = r)
    (hfree : r.free ≠ 0) (hroom : (r.tail - r.head).toNat < 2 ^ r.rlog) (hpass : s.accCheck c g w (r.entry k r.tail .write) = none)
    (halias : leafFmt ((s.fillAll c g [r.entry k r.tail .write]).landing c g w (r.entry k r.tail .write)).2 ≠ 2) :
    execRbpush u a b s = .next (answer (s.pushed c g w k q (w.pair b k) r) c fun _ => []) := by
  have hlane := rbpushLane_first (a := a) (b := b) hq hok (ringWaits_nobody hnobody q true)
    (ringPush_acts hok hr hfree hroom hpass halias (w.pair b k))
  rw [execRbpush_closed hi hk hq ho hclosed, laneWaits_acts hk hlane]
  exact congrArg Host.Outcome.next (serveRings_nobody ((answer_waiters ..).trans ((pushed_waiters ..).trans hnobody)) [q])

/-- A push that must wait joins the end of the order, and the ring then serves its waiters. -/
theorem execRbpush_joins (hlane : rbpushLane c g w a b s k = .ok none) :
    ∃ t, execRbpush u a b s = .next (State.serveRings c.p [q] t) ∧
      (s.waiting c.p ⟨.rbpush q (w.pair b k), c.wg, c.wid, c.lanes⟩).LeavesRest t := by
  rw [execRbpush_closed hi hk hq ho hclosed, ← hq]
  exact laneWaits_waits hm hk hlane

theorem execRbpush_faults (hbad : ¬s.ringOk c.p q) (hnobody : (s.work c.p).waiters = []) :
    ∃ t, execRbpush u a b s = .next (raiseTrap t c [(24, BitVec.ofNat 64 q)]) := by
  rw [execRbpush_closed hi hk hq ho hclosed]
  exact laneWaits_refused hm hk (rbpushLane_faults hq hbad) hnobody [q]

end

section
variable (ho : OperandsOk c w [k] [(d, 2)] [(a, 1)])
include ho

theorem execRbpop_checked : execRbpop u d a s =
    laneWaits s c w u (fun l => .rbpop (w.reg a l).toNat d) (rbpopLane c g w d a) (State.serveRings c.p [q]) := by
  rw [execRbpop_eq, withGroup_issues hi, if_neg (by simp [hm]), hk, withRegs_ok ho]
  rw [List.map_cons, List.map_nil, hq]

theorem execRbpop_acts (hok : s.ringOk c.p q) (hnobody : (s.work c.p).waiters = []) {r : Ring} (hr : (s.part c.p).ring q = r)
    (hne : r.tail ≠ r.head) (hpass : s.accCheck c g w (r.entry k r.head .read) = none)
    (hplain : LandsPlain (s.fillAll c g [r.entry k r.head .read]) c g w (r.entry k r.head .read)) :
    execRbpop u d a s = .next (answer (s.popped c g w k q r) c fun _ =>
      [(d, BitVec.ofNat 32 (s.popFinds c g w k r)), (d + 1, BitVec.ofNat 32 (s.popFinds c g w k r / 2 ^ 32))]) := by
  have hlane := rbpopLane_first (a := a) (d := d) hq hok (ringWaits_nobody hnobody q false) (ringPop_acts hok hr hne hpass hplain)
  rw [Option.map_some, pairOf_ofNat] at hlane
  rw [execRbpop_checked hi hm hk hq ho, laneWaits_acts hk hlane]
  exact congrArg Host.Outcome.next (serveRings_nobody ((answer_waiters ..).trans (popped_waiters.trans hnobody)) [q])

/-- A pop that must wait joins the end of the order, and the ring then serves its waiters. -/
theorem execRbpop_joins (hlane : rbpopLane c g w d a s k = .ok none) :
    ∃ t, execRbpop u d a s = .next (State.serveRings c.p [q] t) ∧ (s.waiting c.p ⟨.rbpop q d, c.wg, c.wid, c.lanes⟩).LeavesRest t := by
  rw [execRbpop_checked hi hm hk hq ho, ← hq]
  exact laneWaits_waits hm hk hlane

theorem execRbpop_faults (hbad : ¬s.ringOk c.p q) (hnobody : (s.work c.p).waiters = []) :
    ∃ t, execRbpop u d a s = .next (raiseTrap t c [(24, BitVec.ofNat 64 q)]) := by
  rw [execRbpop_checked hi hm hk hq ho]
  exact laneWaits_refused hm hk (rbpopLane_faults hq hbad) hnobody [q]

end

section
variable (ho : OperandsOk c w [k] [(d, 1)] [(a, 1), (b, 1)])
include ho

omit hm in
theorem execRbfree_checked : execRbfree u d a b s =
    laneWaits s c w u (fun l => .rbpop (w.reg a l).toNat d) (rbfreeLane c w d a b) (State.serveRings c.p [q]) := by
  rw [execRbfree_eq, withGroup_issues hi, hk, withRegs_ok ho]
  rw [List.map_cons, List.map_nil, hq]

omit hm in
theorem execRbfree_acts (hok : s.ringOk c.p q) {free : Nat} (hfree : (if ((s.part c.p).ring q).free + (w.reg b k).toNat <
      2 ^ ((s.part c.p).ring q).rlog then ((s.part c.p).ring q).free + (w.reg b k).toNat else 2 ^ ((s.part c.p).ring q).rlog) = free) :
    execRbfree u d a b s = .next (State.serveRings c.p [q] (answer (s.putRing c.p q { (s.part c.p).ring q with free := free }) c fun _ =>
      [(d, BitVec.ofNat 32 free)])) := by
  rw [execRbfree_checked hi hk hq ho, laneWaits_acts hk (rbfreeLane_acts hq hok hfree)]

theorem execRbfree_faults (hbad : ¬s.ringOk c.p q) (hnobody : (s.work c.p).waiters = []) :
    ∃ t, execRbfree u d a b s = .next (raiseTrap t c [(24, BitVec.ofNat 64 q)]) := by
  rw [execRbfree_checked hi hk hq ho]
  exact laneWaits_refused hm hk (rbfreeLane_faults hq hbad) hnobody [q]

end

/-! ### A group alone at a ring -/

/-- A push that waits for room or credit waits on: the ring can serve nobody. -/
theorem execRbpush_waits (ho : OperandsOk c w [k] [] [(a, 1), (b, 2)]) (hclosed : s.laneOpen c.p c.wg c.wid k = false)
    (hok : s.ringOk c.p q) (hnobody : (s.work c.p).waiters = []) (hfull : ((s.part c.p).ring q).free = 0 ∨
      2 ^ ((s.part c.p).ring q).rlog ≤ (((s.part c.p).ring q).tail - ((s.part c.p).ring q).head).toNat) :
    ∃ t, execRbpush u a b s = .next t ∧ (s.waiting c.p ⟨.rbpush q (w.pair b k), c.wg, c.wid, c.lanes⟩).LeavesRest t := by
  have hlane := rbpushLane_first (g := g) (a := a) (b := b) hq hok (ringWaits_nobody hnobody q true) (ringPush_waits hok rfl hfull (w.pair b k))
  obtain ⟨t, hexec, hleft⟩ := execRbpush_joins hi hm hk hq ho hclosed hlane
  obtain ⟨hwaiters, hparts, -⟩ := waiting_held hleft
  have hpart : t.part c.p = s.part c.p := by rw [State.part, State.part, hparts]
  have hidle : State.serveRings c.p [q] t = t := serveRings_stuck fun j hj => by
    obtain rfl := List.mem_singleton.mp hj
    refine ⟨serveOne_push_full ((ringOk_congr hparts ..).mpr hok) (hpart.symm ▸ hfull), serveOne_nobody ?_⟩
    rw [ringWaits_eq, hwaiters, hnobody]
    rfl
  rw [hidle] at hexec
  exact ⟨t, hexec, hleft⟩

/-- A pop that waits for an entry waits on. -/
theorem execRbpop_waits (ho : OperandsOk c w [k] [(d, 2)] [(a, 1)]) (hok : s.ringOk c.p q) (hnobody : (s.work c.p).waiters = [])
    (hempty : ((s.part c.p).ring q).tail = ((s.part c.p).ring q).head) :
    ∃ t, execRbpop u d a s = .next t ∧ (s.waiting c.p ⟨.rbpop q d, c.wg, c.wid, c.lanes⟩).LeavesRest t := by
  have hlane := rbpopLane_first (g := g) (a := a) (d := d) hq hok (ringWaits_nobody hnobody q false) (ringPop_waits hok rfl hempty)
  obtain ⟨t, hexec, hleft⟩ := execRbpop_joins hi hm hk hq ho hlane
  obtain ⟨hwaiters, hparts, -⟩ := waiting_held hleft
  have hpart : t.part c.p = s.part c.p := by rw [State.part, State.part, hparts]
  have hidle : State.serveRings c.p [q] t = t := serveRings_stuck fun j hj => by
    obtain rfl := List.mem_singleton.mp hj
    refine ⟨serveOne_nobody ?_, serveOne_pop_empty ((ringOk_congr hparts ..).mpr hok) (hpart.symm ▸ hempty)⟩
    rw [ringWaits_eq, hwaiters, hnobody]
    rfl
  rw [hidle] at hexec
  exact ⟨t, hexec, hleft⟩

end

end Sys2Proof.Machine
end

section
/-! The lanes of a group at a ring (R238): two lanes of RBPUSH and RBPOP in their order, any lanes of RBFREE, and the obligation put together
from one operation, a waiter served, and these. -/
namespace Sys2Proof.Machine

/-! ## Two lanes in their order -/

section
variable {kind : Nat → WaitKind} {group : Nat → List Nat} {c : Ctx} {f : WaitStep} {s s1 : State} {k1 k2 : Nat} {v1 : List (Nat × Word)}
  (h1 : f s k1 = .ok (some (s1, v1)))
include h1

theorem waitSteps_second_acts {s2 : State} {v2 : List (Nat × Word)} (h2 : f s1 k2 = .ok (some (s2, v2))) :
    waitSteps kind group c f s [k1, k2] = (s2, [(k1, v1), (k2, v2)], [], none) := by
  simp only [waitSteps, h1, h2]

theorem waitSteps_second_waits (h2 : f s1 k2 = .ok none) : waitSteps kind group c f s [k1, k2] =
    (s1.waiting c.p ⟨kind k2, c.wg, c.wid, group k2⟩, [(k1, v1)], group k2 ++ [], none) := by
  simp only [waitSteps, h1, h2]
  rfl

end

section
variable {s s1 s2 : State} {c : Ctx} {w : Warp} {kind : Nat → WaitKind} {f : WaitStep} {k1 k2 : Nat} {v1 : List (Nat × Word)}
  (hlanes : c.lanes = [k1, k2]) (h1 : f s k1 = .ok (some (s1, v1))) {qs : List Nat}
include hlanes h1

/-- Both lanes act, and nobody waits to be served. -/
theorem laneWaits_both {v : Nat → List (Nat × Word)} (hv1 : v k1 = v1) (h2 : f s1 k2 = .ok (some (s2, v k2)))
    (hnobody : (s2.work c.p).waiters = []) :
    laneWaits s c w false kind f (State.serveRings c.p qs) = .next (answer s2 c v) := by
  have hsteps : waitSteps kind (fun l => if false = true then c.lanes else [l]) c f s (c.readers false) =
      (s2, (c.readers false).map fun l => (l, v l), [], none) := by
    have hreaders : c.readers false = [k1, k2] := hlanes
    rw [hreaders, waitSteps_second_acts h1 h2, ← hv1]
    rfl
  rw [laneWaits_answers hsteps]
  exact congrArg Host.Outcome.next (serveRings_nobody ((answer_waiters ..).trans hnobody) qs)

/-- The first lane acts, the second waits. -/
theorem laneWaits_firstOnly (hm : w.trap.hm = false) (h2 : f s1 k2 = .ok none) (fin : State → State) :
    ∃ t, laneWaits s c w false kind f fin = .next (fin t) ∧ (s1.waiting c.p ⟨kind k2, c.wg, c.wid, [k2]⟩).LeavesRest t := by
  have hsteps : waitSteps kind (fun l => if false = true then c.lanes else [l]) c f s (c.readers false) =
      (s1.waiting c.p ⟨kind k2, c.wg, c.wid, [k2]⟩, [(k1, v1)], [k2] ++ [], none) := by
    have hreaders : c.readers false = [k1, k2] := hlanes
    rw [hreaders, waitSteps_second_waits h1 h2]
    rfl
  exact laneWaits_goesOn hm hsteps

end

/-! ## Rings that stay as they are named -/

/-- A ring with another HEAD, TAIL or FREE may be named as before. -/
theorem putRing_ringOk {s t : State} {p q j : Nat} {r : Ring} (hrings : s.KeepsRings t p) (hen : r.en = ((s.part p).ring q).en)
    (hbase : r.rbase = ((s.part p).ring q).rbase) (hlog : r.rlog = ((s.part p).ring q).rlog) (h : s.ringOk p j) : (t.putRing p q r).ringOk p j := by
  rw [State.ringOk]
  by_cases hj : j = q
  · subst hj
    rw [putRing_ring_same, hen, hbase, hlog]
    exact h
  · rw [putRing_ring_other _ _ hj, hrings.ring]
    exact h

section
variable {s : State} {c : Ctx} {g : WorkGroup} {w : Warp} {k q : Nat} {r : Ring} (hr : (s.part c.p).ring q = r)

theorem pushed_ring (e : DWord) : ((s.pushed c g w k q e r).part c.p).ring q = { r with tail := r.tail + 1, free := r.free - 1 } :=
  putRing_ring_same ..

theorem popped_ring : ((s.popped c g w k q r).part c.p).ring q = { r with head := r.head + 1 } := putRing_ring_same ..

include hr

theorem pushed_ringOk (h : s.ringOk c.p q) (e : DWord) : (s.pushed c g w k q e r).ringOk c.p q := by
  refine putRing_ringOk ((fillAll_keepsRings s c g _ c.p).trans ((drainLane_keepsRings ..).trans (writeAt_keepsRings ..))) ?_ ?_ ?_ h
  all_goals rw [hr]

theorem popped_ringOk (h : s.ringOk c.p q) : (s.popped c g w k q r).ringOk c.p q := by
  have hfill := fillAll_keepsRings s c g [r.entry k r.head .read] c.p
  have hdrain := drainRadds_keepsRings (s.fillAll c g [r.entry k r.head .read]) c k
  refine putRing_ringOk ⟨(hfill.trans hdrain).1, (hfill.trans hdrain).2⟩ ?_ ?_ ?_ h
  all_goals rw [hr]

end

/-! ## RBFREE lane after lane -/

/-- The credit of a ring that takes some more. -/
def Ring.credited (r : Ring) (n : Nat) : Nat := if r.free + n < 2 ^ r.rlog then r.free + n else 2 ^ r.rlog

/-- A lane's credits given to its ring, with the new credit noted. -/
def freedStep (c : Ctx) (w : Warp) (a b : Nat) (e : State × Map Word) (k : Nat) : State × Map Word :=
  let r := (e.1.part c.p).ring (w.reg a k).toNat
  (e.1.putRing c.p (w.reg a k).toNat { r with free := r.credited (w.reg b k).toNat },
    e.2 ++ [(k, BitVec.ofNat 32 (r.credited (w.reg b k).toNat))])

theorem findD_append_other {α : Type} (m : Map α) {j k : Nat} (v d : α) (h : j ≠ k) : findD (m ++ [(j, v)]) k d = findD m k d := by
  induction m with
  | nil => rw [List.nil_append, findD_cons, if_neg h]
  | cons e r ih => rw [List.cons_append, findD_cons, findD_cons, ih]

theorem findD_append_new {α : Type} (m : Map α) {k : Nat} (v d : α) (h : k ∉ m.map (·.1)) : findD (m ++ [(k, v)]) k d = v := by
  induction m with
  | nil => rw [List.nil_append, findD_cons, if_pos rfl]
  | cons e r ih =>
    rw [List.map_cons, List.mem_cons, not_or] at h
    obtain ⟨hne, hrest⟩ := h
    rw [List.cons_append, findD_cons, if_neg (Ne.symm hne), ih hrest]

section
variable {c : Ctx} {w : Warp} {d a b : Nat}

theorem freedStep_ringOk (e : State × Map Word) (k : Nat) {j : Nat} (h : e.1.ringOk c.p j) : (freedStep c w a b e k).1.ringOk c.p j :=
  putRing_ringOk (.refl e.1 c.p) rfl rfl rfl h

theorem freed_waiters (ks : List Nat) (e : State × Map Word) : ((ks.foldl (freedStep c w a b) e).1.work c.p).waiters = (e.1.work c.p).waiters := by
  induction ks generalizing e with
  | nil => rfl
  | cons k r ih => exact ih (freedStep c w a b e k)

/-- Lanes that follow note nothing under the number of one before them. -/
theorem freed_findD {ks : List Nat} {k : Nat} (hk : k ∉ ks) (e : State × Map Word) :
    findD (ks.foldl (freedStep c w a b) e).2 k 0 = findD e.2 k 0 := by
  induction ks generalizing e with
  | nil => rfl
  | cons j r ih =>
    obtain ⟨hne, hrest⟩ := not_or.mp (mt List.mem_cons.mpr hk)
    exact (ih hrest (freedStep c w a b e j)).trans (findD_append_other e.2 _ 0 (Ne.symm hne))

theorem waitSteps_rbfree {kind : Nat → WaitKind} {group : Nat → List Nat} {ks : List Nat} (hks : ks.Nodup) (e : State × Map Word)
    (hok : ∀ k ∈ ks, e.1.ringOk c.p (w.reg a k).toNat) (hnew : ∀ k ∈ ks, k ∉ e.2.map (·.1)) :
    waitSteps kind group c (rbfreeLane c w d a b) e.1 ks = ((ks.foldl (freedStep c w a b) e).1,
      ks.map fun k => (k, [(d, findD (ks.foldl (freedStep c w a b) e).2 k 0)]), [], none) := by
  induction ks generalizing e with
  | nil => rfl
  | cons k r ih =>
    obtain ⟨hkr, hr⟩ := List.nodup_cons.mp hks
    obtain ⟨hkok, hrok⟩ := List.forall_mem_cons.mp hok
    obtain ⟨hknew, hrnew⟩ := List.forall_mem_cons.mp hnew
    have hstep : rbfreeLane c w d a b e.1 k = .ok (some ((freedStep c w a b e k).1, [(d, findD (freedStep c w a b e k).2 k 0)])) := by
      refine (rbfreeLane_acts rfl hkok rfl).trans ?_
      rw [freedStep, findD_append_new e.2 _ 0 hknew]
      rfl
    have hkeys : ∀ j ∈ r, j ∉ (freedStep c w a b e k).2.map (·.1) := by
      intro j hj hmem
      simp only [freedStep, List.map_append, List.map_cons, List.map_nil, List.mem_append, List.mem_singleton] at hmem
      rcases hmem with hold | rfl
      · exact hrnew j hj hold
      · exact hkr hj
    simp only [waitSteps, hstep, ih hr (freedStep c w a b e k) (fun j hj => freedStep_ringOk e k (hrok j hj)) hkeys, List.foldl_cons,
      List.map_cons, freed_findD hkr]

end

/-! ## The groups of several lanes -/

section
variable {s : State} {c : Ctx} {g : WorkGroup} {w : Warp} (hi : Issues s c g w) (hnobody : (s.work c.p).waiters = []) {d a b : Nat}
include hi hnobody

theorem execRbfree_group (ho : OperandsOk c w c.lanes [(d, 1)] [(a, 1), (b, 1)]) (hok : ∀ k ∈ c.lanes, s.ringOk c.p (w.reg a k).toNat)
    (hlanes : c.lanes.Nodup) : execRbfree false d a b s =
      .next (answer (c.lanes.foldl (freedStep c w a b) (s, [])).1 c fun k => [(d, findD (c.lanes.foldl (freedStep c w a b) (s, [])).2 k 0)]) := by
  rw [execRbfree_eq, withGroup_issues hi]
  refine (withRegs_ok ho _).trans ?_
  have hsteps := waitSteps_rbfree (kind := fun l => .rbpop (w.reg a l).toNat d) (group := fun l => if false = true then c.lanes else [l])
    (d := d) (b := b) hlanes (s, []) hok fun _ _ h => nomatch h
  refine (laneWaits_answers hsteps).trans ?_
  exact congrArg Host.Outcome.next (serveRings_nobody ((answer_waiters ..).trans ((freed_waiters ..).trans hnobody)) _)

variable {k1 k2 q : Nat} (hlanes : c.lanes = [k1, k2]) (hq1 : (w.reg a k1).toNat = q) (hq2 : (w.reg a k2).toNat = q) (hok : s.ringOk c.p q)
  {r : Ring} (hr : (s.part c.p).ring q = r)
include hlanes hq1 hq2 hok hr

section
variable (ho : OperandsOk c w c.lanes [] [(a, 1), (b, 2)]) (hclosed : ∀ k ∈ c.lanes, s.laneOpen c.p c.wg c.wid k = false)
  (hfree : r.free ≠ 0) (hroom : (r.tail - r.head).toNat < 2 ^ r.rlog) (hpass : s.accCheck c g w (r.entry k1 r.tail .write) = none)
  (halias : leafFmt ((s.fillAll c g [r.entry k1 r.tail .write]).landing c g w (r.entry k1 r.tail .write)).2 ≠ 2)

section
include ho hclosed

omit hnobody hq1 hq2 hok hr hlanes in
theorem execRbpush_group : execRbpush false a b s =
    laneWaits s c w false (fun l => .rbpush (w.reg a l).toNat (w.pair b l)) (rbpushLane c g w a b)
      (State.serveRings c.p (c.lanes.map fun l => (w.reg a l).toNat)) := by
  rw [execRbpush_eq, withGroup_issues hi]
  exact (withRegs_ok ho _).trans (releasing_closed hclosed _)

end

include hfree hroom hpass halias

omit hi hlanes hq2 in
theorem rbpushLane_lower : rbpushLane c g w a b s k1 = .ok (some (s.pushed c g w k1 q (w.pair b k1) r, [])) :=
  rbpushLane_first hq1 hok (ringWaits_nobody hnobody q true) (ringPush_acts hok hr hfree hroom hpass halias (w.pair b k1))

include ho hclosed

/-- Room or credit for one entry: the lower lane pushes, the higher waits. -/
theorem execRbpush_lower (hm : w.trap.hm = false) (hone : r.free = 1 ∨ (r.tail + 1 - r.head).toNat = 2 ^ r.rlog) :
    ∃ t, execRbpush false a b s = .next t ∧
      ((s.pushed c g w k1 q (w.pair b k1) r).waiting c.p ⟨.rbpush q (w.pair b k2), c.wg, c.wid, [k2]⟩).LeavesRest t := by
  have h1 := rbpushLane_lower hnobody hq1 hok hr hfree hroom hpass halias (b := b)
  have hring := pushed_ring (s := s) (c := c) (g := g) (w := w) (k := k1) (q := q) (r := r) (w.pair b k1)
  have hok1 := pushed_ringOk (g := g) (w := w) (k := k1) hr hok (w.pair b k1)
  have hwaiters := (pushed_waiters (s := s) (c := c) (g := g) (w := w) (k := k1) (q := q) (r := r) (w.pair b k1)).trans hnobody
  have hfull : r.free - 1 = 0 ∨ 2 ^ r.rlog ≤ (r.tail + 1 - r.head).toNat := by omega
  generalize s.pushed c g w k1 q (w.pair b k1) r = s1 at h1 hring hok1 hwaiters ⊢
  have h2 : rbpushLane c g w a b s1 k2 = .ok none :=
    rbpushLane_first hq2 hok1 (ringWaits_nobody hwaiters q true) (ringPush_waits hok1 hring hfull (w.pair b k2))
  obtain ⟨t, hexec, hleft⟩ := laneWaits_firstOnly hlanes (kind := fun l => .rbpush (w.reg a l).toNat (w.pair b l)) h1 hm h2
    (State.serveRings c.p (c.lanes.map fun l => (w.reg a l).toNat))
  rw [hq2] at hleft
  obtain ⟨hheld, hparts, -⟩ := waiting_held hleft
  have hpart : t.part c.p = s1.part c.p := by rw [State.part, State.part, hparts]
  have hidle : State.serveRings c.p (c.lanes.map fun l => (w.reg a l).toNat) t = t := serveRings_stuck fun j hj => by
    have hj : j = q := by simpa [hlanes, hq1, hq2] using hj
    subst hj
    refine ⟨serveOne_push_full ((ringOk_congr hparts ..).mpr hok1) ?_, serveOne_nobody ?_⟩
    · rw [hpart, hring]
      exact hfull
    · rw [ringWaits_eq, hheld, hwaiters]
      rfl
  rw [execRbpush_group hi ho hclosed, hexec, hidle]
  exact ⟨t, rfl, hleft⟩

theorem execRbpush_both (hfree2 : r.free ≠ 1) (hroom2 : (r.tail + 1 - r.head).toNat < 2 ^ r.rlog) {s1 : State} {r1 : Ring}
    (hs1 : s.pushed c g w k1 q (w.pair b k1) r = s1) (hr1 : { r with tail := r.tail + 1, free := r.free - 1 } = r1)
    (hpass2 : s1.accCheck c g w (r1.entry k2 r1.tail .write) = none)
    (halias2 : leafFmt ((s1.fillAll c g [r1.entry k2 r1.tail .write]).landing c g w (r1.entry k2 r1.tail .write)).2 ≠ 2) :
    execRbpush false a b s = .next (answer (s1.pushed c g w k2 q (w.pair b k2) r1) c fun _ => []) := by
  have h1 := rbpushLane_lower hnobody hq1 hok hr hfree hroom hpass halias (b := b)
  have hok1 := pushed_ringOk (g := g) (w := w) (k := k1) hr hok (w.pair b k1)
  have hring := pushed_ring (s := s) (c := c) (g := g) (w := w) (k := k1) (q := q) (r := r) (w.pair b k1)
  have hwaiters := (pushed_waiters (s := s) (c := c) (g := g) (w := w) (k := k1) (q := q) (r := r) (w.pair b k1)).trans hnobody
  rw [hs1] at h1 hok1 hring hwaiters
  rw [hr1] at hring
  have hfree1 : r1.free ≠ 0 := by
    subst hr1
    change r.free - 1 ≠ 0
    omega
  have hroom1 : (r1.tail - r1.head).toNat < 2 ^ r1.rlog := by
    subst hr1
    exact hroom2
  have h2 : rbpushLane c g w a b s1 k2 = .ok (some (s1.pushed c g w k2 q (w.pair b k2) r1, [])) :=
    rbpushLane_first hq2 hok1 (ringWaits_nobody hwaiters q true) (ringPush_acts hok1 hring hfree1 hroom1 hpass2 halias2 (w.pair b k2))
  rw [execRbpush_group hi ho hclosed]
  exact laneWaits_both (v := fun _ => []) hlanes h1 rfl h2 ((pushed_waiters ..).trans hwaiters)

end

section
variable (ho : OperandsOk c w c.lanes [(d, 2)] [(a, 1)]) (hne : r.tail ≠ r.head) (hpass : s.accCheck c g w (r.entry k1 r.head .read) = none)
  (hplain : LandsPlain (s.fillAll c g [r.entry k1 r.head .read]) c g w (r.entry k1 r.head .read)) (hm : w.trap.hm = false)

section
include ho hm

omit hnobody hq1 hq2 hok hr hlanes in
theorem execRbpop_group : execRbpop false d a s =
    laneWaits s c w false (fun l => .rbpop (w.reg a l).toNat d) (rbpopLane c g w d a)
      (State.serveRings c.p (c.lanes.map fun l => (w.reg a l).toNat)) := by
  rw [execRbpop_eq, withGroup_issues hi, if_neg (by simp [hm])]
  exact withRegs_ok ho _

end

include hne hpass hplain

omit hi hlanes hq2 in
theorem rbpopLane_lower : rbpopLane c g w d a s k1 = .ok (some (s.popped c g w k1 q r,
    [(d, BitVec.ofNat 32 (s.popFinds c g w k1 r)), (d + 1, BitVec.ofNat 32 (s.popFinds c g w k1 r / 2 ^ 32))])) := by
  have hlane := rbpopLane_first (a := a) (d := d) hq1 hok (ringWaits_nobody hnobody q false) (ringPop_acts hok hr hne hpass hplain)
  rwa [Option.map_some, pairOf_ofNat] at hlane

include ho hm

/-- One entry: the lower lane pops it, the higher waits. -/
theorem execRbpop_lower (hone : r.tail = r.head + 1) : ∃ t, execRbpop false d a s = .next t ∧
    ((s.popped c g w k1 q r).waiting c.p ⟨.rbpop q d, c.wg, c.wid, [k2]⟩).LeavesRest t := by
  have h1 := rbpopLane_lower hnobody hq1 hok hr hne hpass hplain (d := d)
  have hring := popped_ring (s := s) (c := c) (g := g) (w := w) (k := k1) (q := q) (r := r)
  have hok1 := popped_ringOk (g := g) (w := w) (k := k1) hr hok
  have hwaiters := (popped_waiters (s := s) (c := c) (g := g) (w := w) (k := k1) (q := q) (r := r)).trans hnobody
  generalize s.popped c g w k1 q r = s1 at h1 hring hok1 hwaiters ⊢
  have h2 : rbpopLane c g w d a s1 k2 = .ok none :=
    rbpopLane_first hq2 hok1 (ringWaits_nobody hwaiters q false) (ringPop_waits hok1 hring hone)
  obtain ⟨t, hexec, hleft⟩ := laneWaits_firstOnly hlanes (kind := fun l => .rbpop (w.reg a l).toNat d) h1 hm h2
    (State.serveRings c.p (c.lanes.map fun l => (w.reg a l).toNat))
  rw [hq2] at hleft
  obtain ⟨hheld, hparts, -⟩ := waiting_held hleft
  have hpart : t.part c.p = s1.part c.p := by rw [State.part, State.part, hparts]
  have hidle : State.serveRings c.p (c.lanes.map fun l => (w.reg a l).toNat) t = t := serveRings_stuck fun j hj => by
    have hj : j = q := by simpa [hlanes, hq1, hq2] using hj
    subst hj
    refine ⟨serveOne_nobody ?_, serveOne_pop_empty ((ringOk_congr hparts ..).mpr hok1) ?_⟩
    · rw [ringWaits_eq, hheld, hwaiters]
      rfl
    · rw [hpart, hring]
      exact hone
  rw [execRbpop_group hi ho hm, hexec, hidle]
  exact ⟨t, rfl, hleft⟩

theorem execRbpop_both (hmore : r.tail ≠ r.head + 1) (hdiff : k1 ≠ k2) {s1 : State} {r1 : Ring} (hs1 : s.popped c g w k1 q r = s1)
    (hr1 : { r with head := r.head + 1 } = r1) (hpass2 : s1.accCheck c g w (r1.entry k2 r1.head .read) = none)
    (hplain2 : LandsPlain (s1.fillAll c g [r1.entry k2 r1.head .read]) c g w (r1.entry k2 r1.head .read)) :
    execRbpop false d a s = .next (answer (s1.popped c g w k2 q r1) c fun k =>
      let v := if k = k1 then s.popFinds c g w k1 r else s1.popFinds c g w k2 r1
      [(d, BitVec.ofNat 32 v), (d + 1, BitVec.ofNat 32 (v / 2 ^ 32))]) := by
  have h1 := rbpopLane_lower hnobody hq1 hok hr hne hpass hplain (d := d)
  have hok1 := popped_ringOk (g := g) (w := w) (k := k1) hr hok
  have hring := popped_ring (s := s) (c := c) (g := g) (w := w) (k := k1) (q := q) (r := r)
  have hwaiters := (popped_waiters (s := s) (c := c) (g := g) (w := w) (k := k1) (q := q) (r := r)).trans hnobody
  rw [hs1] at h1 hok1 hring hwaiters
  rw [hr1] at hring
  have hne1 : r1.tail ≠ r1.head := by
    subst hr1
    exact hmore
  have h2 := rbpopLane_lower (a := a) (w := w) (k1 := k2) hwaiters hq2 hok1 hring hne1 hpass2 hplain2 (d := d)
  rw [execRbpop_group hi ho hm]
  refine laneWaits_both (v := fun k => let v := if k = k1 then s.popFinds c g w k1 r else s1.popFinds c g w k2 r1
    [(d, BitVec.ofNat 32 v), (d + 1, BitVec.ofNat 32 (v / 2 ^ 32))]) hlanes h1 ?_ ?_ (popped_waiters.trans hwaiters)
  · simp only [if_true]
  · rw [h2]
    simp only [if_neg (Ne.symm hdiff)]

end

end

end Sys2Proof.Machine
end

section
/-! What the ring operations of R238 do, put together: one operation, a waiter that is served, the lanes of a group. -/
namespace Sys2Proof.Machine

/-! ## What a waiter is given -/

section
variable {s : State} {p q : Nat} {x : Waiter} {g : WorkGroup} {w : Warp} (hg : (s.work p).wg x.wg = some g) (hw : g.warp x.wid = some w)
  (hok : s.ringOk p q) {c : Ctx} (hc : c = ⟨p, x.wg, x.wid, x.lanes, 0, 0⟩) {r : Ring} (hr : (s.part p).ring q = r)
include hg hw hok hc hr

theorem serveOne_pushes {j : Nat} {e : DWord} (hkind : x.kind = .rbpush j e) (hx : (s.work p).waiters.find? (Waiter.onRing q true) = some x)
    (hfree : r.free ≠ 0) (hroom : (r.tail - r.head).toNat < 2 ^ r.rlog) (hpass : s.accCheck c g w (r.entry c.l0 r.tail .write) = none)
    (halias : leafFmt ((s.fillAll c g [r.entry c.l0 r.tail .write]).landing c g w (r.entry c.l0 r.tail .write)).2 ≠ 2) :
    s.serveOne p q true = some ((s.pushed c g w c.l0 q e r).releaseWaiter p x []) := by
  subst hc
  rw [serveOne_first hx hg hw]
  simp only [State.serveWaiter, hkind]
  rw [ringPush_acts (c := ⟨p, x.wg, x.wid, x.lanes, 0, 0⟩) hok hr hfree hroom hpass halias e]

theorem serveOne_pops {j d : Nat} (hkind : x.kind = .rbpop j d) (hx : (s.work p).waiters.find? (Waiter.onRing q false) = some x)
    (hne : r.tail ≠ r.head) (hpass : s.accCheck c g w (r.entry c.l0 r.head .read) = none)
    (hplain : LandsPlain (s.fillAll c g [r.entry c.l0 r.head .read]) c g w (r.entry c.l0 r.head .read)) :
    s.serveOne p q false = some ((s.popped c g w c.l0 q r).releaseWaiter p x
      [(d, BitVec.ofNat 32 (s.popFinds c g w c.l0 r)), (d + 1, BitVec.ofNat 32 (s.popFinds c g w c.l0 r / 2 ^ 32))]) := by
  subst hc
  rw [serveOne_first hx hg hw]
  simp only [State.serveWaiter, hkind]
  rw [ringPop_acts (c := ⟨p, x.wg, x.wid, x.lanes, 0, 0⟩) hok hr hne hpass hplain]
  simp only [pairOf_ofNat]

end

/-! ## The obligation -/

/-- Settles O29: an operation that acts pushes or pops at its entry, one that cannot joins the waiters, whom the ring serves where it can. -/
theorem ringOperationsComplete : Obligations.RingOperationsComplete := by
  unfold Obligations.RingOperationsComplete
  refine ⟨?one, ?served, ?lanes⟩
  case one =>
    intro u d a b k s c g w hi hm hk none_ q r n entry ringed held waits
    have hbad_iff : 255 < q ∨ r.en = false ∨ r.rbase.toNat % (8 * n) ≠ 0 → ¬s.ringOk c.p q := by
      rintro h ⟨hq, hen, hbase⟩
      rcases h with h | h | h
      · exact absurd hq (Nat.not_le.mpr h)
      · exact absurd (hen.symm.trans h) (by decide)
      · exact h hbase
    have hbehind (push : Bool) : waits push → (s.work c.p).ringWaits q push = true := by
      rintro ⟨x, hx, hkind⟩
      rw [ringWaits_eq]
      refine List.any_eq_true.mpr ⟨x, hx, ?_⟩
      unfold Waiter.onRing
      revert hkind
      cases x.kind with
      | rbpush j e => simp
      | rbpop j e => simp
      | _ => exact False.elim
    refine ⟨fun hq hen hbase => ?_, fun hbad hnobody => ?_⟩
    · have hok : s.ringOk c.p q := ⟨hq, hen, hbase⟩
      refine ⟨?_, ?_, ?_⟩
      · intro ho acc s1 at_
        refine ⟨execRbpush_open hi hk ho, ?_, ?_, ?_⟩
        · intro hnobody hclosed hfree hroom hpass halias
          have hexec := execRbpush_acts hi hk rfl ho hclosed hok hnobody rfl hfree hroom hpass halias
          rw [State.pushed, toNat_pair] at hexec
          exact hexec
        · intro hnobody hclosed hfull
          obtain ⟨t, hexec, hleft⟩ := execRbpush_waits hi hm hk rfl ho hclosed hok hnobody hfull
          exact ⟨t, hexec, waiting_held hleft⟩
        · intro hclosed hwaits
          obtain ⟨t, hexec, hleft⟩ := execRbpush_joins hi hm hk rfl ho hclosed (rbpushLane_behind (g := g) rfl hok (hbehind true hwaits))
          exact ⟨t, hexec, waiting_held hleft⟩
      · intro ho acc s1 at_
        refine ⟨?_, ?_, ?_⟩
        · intro hnobody hne hpass hplain s2 v
          exact execRbpop_acts hi hm hk rfl ho hok hnobody rfl hne hpass hplain
        · intro hnobody hempty
          obtain ⟨t, hexec, hleft⟩ := execRbpop_waits hi hm hk rfl ho hok hnobody hempty
          exact ⟨t, hexec, waiting_held hleft⟩
        · intro hwaits
          obtain ⟨t, hexec, hleft⟩ := execRbpop_joins hi hm hk rfl ho (rbpopLane_behind (g := g) rfl hok (hbehind false hwaits))
          exact ⟨t, hexec, waiting_held hleft⟩
      · intro ho free
        exact execRbfree_acts hi hk rfl ho hok rfl
    · have hbad := hbad_iff hbad
      exact ⟨fun ho hclosed => execRbpush_faults hi hm hk rfl ho hclosed hbad hnobody, fun ho => execRbpop_faults hi hm hk rfl ho hbad hnobody,
        fun ho => execRbfree_faults hi hm hk rfl ho hbad hnobody⟩
  case served =>
    intro s p q x g w hg hw hq r n c acc first hen hbase
    have hok : s.ringOk p q := ⟨hq, hen, hbase⟩
    refine ⟨?_, ?_⟩
    · intro j e hkind hx
      refine ⟨serveOne_push_full hok, ?_⟩
      intro hfree hroom hpass s1 at_ halias
      exact serveOne_pushes hg hw hok rfl rfl hkind hx hfree hroom hpass halias
    · intro j d hkind hx
      refine ⟨serveOne_pop_empty hok, ?_⟩
      intro hne hpass s1 at_ hplain s2 v
      exact serveOne_pops hg hw hok rfl rfl hkind hx hne hpass hplain
  case lanes =>
    intro d a b s c g w hi hm hnobody no ok
    refine ⟨?_, ?_⟩
    · intro k1 k2 hlanes hsame hok q r n acc put_
      have hq2 : (w.reg a k2).toNat = q := hsame.symm
      refine ⟨?_, ?_⟩
      · intro ho hclosed hfree hroom hpass pushed plain s1 hplain
        refine ⟨?_, ?_⟩
        · intro hone
          obtain ⟨t, hexec, hleft⟩ := execRbpush_lower hi hnobody hlanes rfl hq2 hok rfl ho hclosed hfree hroom hpass hplain hm hone
          obtain ⟨hheld, hparts, hmem⟩ := waiting_held hleft
          refine ⟨t, hexec, ?_, hmem, ?_⟩
          · rw [State.part, hparts]
            exact pushed_ring ..
          · rw [hheld, pushed_waiters, hnobody]
            rfl
        · intro hfree2 hroom2 hpass2 hplain2
          have hs1 : s.pushed c g w k1 q (w.pair b k1) r = s1 := rfl
          have hexec := execRbpush_both hi hnobody hlanes rfl hq2 hok rfl ho hclosed hfree hroom hpass hplain hfree2 hroom2 hs1 rfl hpass2 hplain2
          exact hexec
      · intro ho hne hpass landed popped found plain s1 hplain
        refine ⟨?_, ?_⟩
        · intro hone
          obtain ⟨t, hexec, hleft⟩ := execRbpop_lower hi hnobody hlanes rfl hq2 hok rfl ho hne hpass hplain hm hone
          obtain ⟨hheld, hparts, -⟩ := waiting_held hleft
          refine ⟨t, hexec, ?_, ?_⟩
          · rw [State.part, hparts]
            exact popped_ring
          · rw [hheld, popped_waiters, hnobody]
            rfl
        · intro hmore hpass2 hplain2 hdiff
          have hs1 : s.popped c g w k1 q r = s1 := rfl
          have hexec := execRbpop_both hi hnobody hlanes rfl hq2 hok rfl ho hne hpass hplain hm hmore hdiff hs1 rfl hpass2 hplain2
          exact hexec
    · intro ho hok hnodup freed
      exact execRbfree_group hi hnobody ho hok hnodup

end Sys2Proof.Machine
end

section
/-! Matrix commands at issue (R250, R253 to R264, R281): what the words of a command must be, what a tile command answers before and after its
checks, what each form answers, and the obligation put together from them. -/
namespace Sys2Proof.Machine

/-! ## The words of a command (R250, R253, R259) -/

/-- A rows word that passes: `lo` in bits 5 to 0, the count in bits 14 to 8 (R250). -/
abbrev RowsOk (w : Nat) : Prop := w < 2 ^ 15 ∧ w / 64 % 4 = 0 ∧ 0 < w / 256 % 128 ∧ w % 64 + w / 256 % 128 ≤ 64

/-- A configuration word that passes (R253). -/
abbrev ConfigOk (w : Nat) : Prop := w < 2 ^ 30 ∧ w / 2 ^ 28 ≤ 1 ∧ w / 32 % 2048 = 0 ∧ 1 ≤ w % 32 ∧ w % 32 ≤ 16

theorem rowsOf_eq (w : Nat) : rowsOf w = if RowsOk w then some (w % 64, w / 256 % 128) else none := by
  have hrow : bitsOf w 5 0 = w % 64 := by simp [bitsOf]
  have hgap : bitsOf w 7 6 = w / 64 % 4 := rfl
  have hcount : bitsOf w 14 8 = w / 256 % 128 := rfl
  rw [rowsOf, hrow, hgap, hcount, ← ite_not]
  refine if_congr ?_ rfl rfl
  omega

theorem configOk_iff (w : Nat) : configOk w = true ↔ ConfigOk w := by
  have hformat : bitsOf w 29 28 = w / 2 ^ 28 % 4 := rfl
  have hgap : bitsOf w 15 5 = w / 32 % 2048 := rfl
  have hh : bitsOf w 4 0 = w % 32 := by simp [bitsOf]
  simp only [configOk, hformat, hgap, hh, Bool.and_eq_true, beq_iff_eq, decide_eq_true_eq]
  omega

theorem corrected_iff (core : Nat) : corrected core = true ↔ core % 4 = 0 := by
  rw [corrected, beq_iff_eq, Nat.mod_mod_of_dvd core (by decide : 4 ∣ 32)]

theorem bit_mul (b : Bool) (n : Nat) : bit b * n = if b then n else 0 := by
  cases b <;> simp [bit]

theorem sregsOk_one {r : Nat} (h : r < 32) : SregsOk [(r, 1, 1)] := by
  intro u hu
  obtain rfl := List.mem_singleton.mp hu
  exact ⟨Nat.mod_one r, h⟩

theorem sregsOk_two {r r' : Nat} (h : r < 32) (h' : r' < 32) : SregsOk [(r, 1, 1), (r', 1, 1)] :=
  List.forall_mem_cons.mpr ⟨sregsOk_one h _ (List.mem_singleton_self _), sregsOk_one h'⟩

/-! ## A command issued (R281) -/

/-- The sequencer goes on, with one command more in flight. -/
def State.commanded (s : State) (p : Nat) (q : Seq) (word : Nat) (wait : CmdWait) (stat : Nat) : State :=
  ({ s with ids := s.ids + 1 }).modSeq p q.id fun y =>
    { y with
      cmds := y.cmds ++ [(⟨s.ids, stat, bitsOf word 24 24 == 1, q.pair 30, q.pcoff, wait, [], 0, false, none, none, s.time⟩ : Command)]
      ttop := none, cur := y.cur.past (wordSize word) }

/-- A STAT below 256 is not that of consumed poison, so nothing is recorded. -/
theorem State.issueCmd_eq_commanded (s : State) (p : Nat) (q : Seq) (word : Nat) (wait : CmdWait) {stat : Nat} (h : stat < 256) :
    s.issueCmd p q word wait stat none none = s.commanded p q word wait stat := by
  have hsound : s.consumed p q stat = s := if_neg (by unfold statPoison; omega)
  simp only [State.issueCmd, hsound, Nat.mod_eq_of_lt h, State.fresh, State.commanded]

theorem State.issueTile_eq_commanded (s : State) (p : Nat) (q : Seq) (word : Nat) (op : CmdOp) (args : List Nat) :
    s.issueTile p q word op args = s.commanded p q word (.todo op args) 0 :=
  s.issueCmd_eq_commanded p q word _ (by decide)

section
variable {s : State} {p word : Nat} {q : Seq} {op : CmdOp} {args : List Nat}

theorem State.issueAligned_aligned (h : args.getD 1 0 % 4 = 0) :
    s.issueAligned p q word op args = s.commanded p q word (.todo op args) 0 := by
  rw [State.issueAligned, if_neg (not_not.mpr h), State.issueTile_eq_commanded]

/-- The output's range comes before the alignment of its address (R264, log 95). -/
theorem State.issueAligned_misaligned (h : args.getD 1 0 % 4 ≠ 0) :
    s.issueAligned p q word op args = s.commanded p q word .done (if s.readOutside p q op args then 5 else 4) := by
  rw [State.issueAligned, if_pos h, State.issueCmd_eq_commanded _ _ _ _ _ (by split <;> decide)]

end

/-! ## The shape of the tile commands (R250, R264) -/

section
variable {s : State} {p : Nat} {q : Seq} {b : Nat}

theorem withRows_ok {r : Nat × Nat} (h : rowsOf (q.reg b).toNat = some r) (k : Nat × Nat → Out) : withRows s p q b k = k r := by
  simp only [withRows, h]

theorem withRows_traps (h : rowsOf (q.reg b).toNat = none) (k : Nat × Nat → Out) :
    withRows s p q b k = .next (s.seqTrap p q causeOperand) := by
  simp only [withRows, h]

end

section
variable {s : State} {p word lit : Nat} {q : Seq} (hi : SeqIssues s p q word lit)
include hi

theorem withTile_full (hfull : ¬q.cmds.length < 63) (t : Nat) (us : List SUse) (k : Nat → Seq → Nat → Out) :
    withTile s t us k = .next s := by
  have hq : q.full = true := by simpa [Seq.full] using hfull
  rw [withTile, withSeq_issues hi, hq, if_pos rfl]

variable (hfree : q.cmds.length < 63)
include hfree

theorem withTile_free (t : Nat) (us : List SUse) (k : Nat → Seq → Nat → Out) :
    withTile s t us k = if sregsOk us = true ∧ t < 8 then k p q word else .next (s.seqTrap p q causeOperand) := by
  have hq : q.full = false := by simpa [Seq.full] using hfree
  rw [withTile, withSeq_issues hi, hq, if_neg Bool.false_ne_true, ← ite_not (p := _ ∧ _)]
  refine if_congr ?_ rfl rfl
  simp only [Bool.or_eq_true, Bool.not_eq_true', decide_eq_true_eq, not_and_or, Bool.not_eq_true, not_lt]

theorem withTile_badTile {t : Nat} (ht : 8 ≤ t) (us : List SUse) (k : Nat → Seq → Nat → Out) :
    withTile s t us k = .next (s.seqTrap p q causeOperand) := by
  rw [withTile_free hi hfree, if_neg fun h => Nat.not_lt.mpr ht h.2]

/-- Where what comes after the checks traps with the operand cause too, it does not matter whether the registers pass. -/
theorem withTile_traps {t : Nat} {us : List SUse} {k : Nat → Seq → Nat → Out} (hk : k p q word = .next (s.seqTrap p q causeOperand)) :
    withTile s t us k = .next (s.seqTrap p q causeOperand) := by
  rw [withTile_free hi hfree, hk, ite_self]

variable {t : Nat} (ht : t < 8) {us : List SUse} (hus : SregsOk us)
include ht hus

theorem withTile_ok (k : Nat → Seq → Nat → Out) : withTile s t us k = k p q word := by
  rw [withTile_free hi hfree, if_pos ⟨sregsOk_of hus, ht⟩]

theorem withTile_rows {b : Nat} {r : Nat × Nat} (hrows : rowsOf (q.reg b).toNat = some r) (k : Nat → Seq → Nat → Nat × Nat → Out) :
    (withTile s t us fun p q word => withRows s p q b (k p q word)) = k p q word r := by
  rw [withTile_ok hi hfree ht hus, withRows_ok hrows]

end

/-- The instruction acts on tile `t` once its operands pass. -/
def OnTile (t : Nat) (i : Instr) : Prop := ∀ s, ∃ us k, exec i s = withTile s t us k

/-- It acts on the rows that register `b` gives. -/
def OnRows (t b : Nat) (i : Instr) : Prop :=
  ∀ s, ∃ us, ∃ k : Nat → Seq → Nat → Nat × Nat → Out, exec i s = withTile s t us fun p q word => withRows s p q b (k p q word)

theorem OnRows.onTile {t b : Nat} {i : Instr} (h : OnRows t b i) : OnTile t i := fun s =>
  have ⟨us, _, hexec⟩ := h s
  ⟨us, _, hexec⟩

/-- Every instruction with a rows operand (R250). -/
theorem onRows_forms (u n : Bool) (t a b : Nat) :
    ∀ i ∈ [Instr.tzeroRows u n t b, .accnormRows u n t b, .twr u n t a b, .accrd u n t a b, .accrdClr u n t a b], OnRows t b i := by
  simp only [List.forall_mem_cons, List.not_mem_nil, false_implies, implies_true, and_true]
  exact ⟨fun _ => ⟨_, _, rfl⟩, fun _ => ⟨_, _, rfl⟩, fun _ => ⟨_, _, rfl⟩, fun _ => ⟨_, _, rfl⟩, fun _ => ⟨_, _, rfl⟩⟩

/-- Every instruction that takes its tile whole and checks no further word. -/
theorem onTile_forms (u n : Bool) (t a : Nat) : ∀ i ∈ [Instr.tzero u n t, .accnorm u n t, .mma u n t a, .mmas u n t a], OnTile t i := by
  simp only [List.forall_mem_cons, List.not_mem_nil, false_implies, implies_true, and_true]
  exact ⟨fun _ => ⟨_, _, rfl⟩, fun _ => ⟨_, _, rfl⟩, fun _ => ⟨_, _, rfl⟩, fun _ => ⟨_, _, rfl⟩⟩

section
variable {s : State} {p word lit t : Nat} {q : Seq} {i : Instr} (hi : SeqIssues s p q word lit)
include hi

theorem OnTile.held (h : OnTile t i) (hfull : ¬q.cmds.length < 63) : exec i s = .next s := by
  obtain ⟨us, k, hexec⟩ := h s
  rw [hexec, withTile_full hi hfull]

theorem OnTile.badTile (h : OnTile t i) (hfree : q.cmds.length < 63) (ht : 8 ≤ t) : exec i s = .next (s.seqTrap p q causeOperand) := by
  obtain ⟨us, k, hexec⟩ := h s
  rw [hexec, withTile_badTile hi hfree ht]

theorem OnRows.badRows {b : Nat} (h : OnRows t b i) (hfree : q.cmds.length < 63) (hrows : rowsOf (q.reg b).toNat = none) :
    exec i s = .next (s.seqTrap p q causeOperand) := by
  obtain ⟨us, k, hexec⟩ := h s
  rw [hexec]
  exact withTile_traps hi hfree (withRows_traps hrows _)

end

/-! ## Each form once its tile and registers pass -/

section
variable {s : State} {p word lit t a b : Nat} {q : Seq} (hi : SeqIssues s p q word lit) (hfree : q.cmds.length < 63) (ht : t < 8)
  (ha : a < 32) (u n : Bool)
include hi hfree ht

theorem tzero_accnorm_issue : ∀ e ∈ [(Instr.tzero u n t, CmdOp.tzero), (.accnorm u n t, .accnorm)],
    exec e.1 s = .next (s.commanded p q word (.todo e.2 [t]) 0) := by
  have hgo := withTile_ok hi hfree ht (List.forall_mem_nil _)
  simp only [List.forall_mem_cons, List.not_mem_nil, false_implies, implies_true, and_true, ← State.issueTile_eq_commanded]
  exact ⟨hgo _, hgo _⟩

section
include ha

theorem withTile_single (k : Nat → Seq → Nat → Out) : withTile s t [(a, 1, 1)] k = k p q word :=
  withTile_ok hi hfree ht (sregsOk_one ha) k

theorem mma_mmas_issue : ∀ e ∈ [(Instr.mma u n t a, CmdOp.mma), (.mmas u n t a, .mmas)],
    exec e.1 s = .next (s.commanded p q word (.todo e.2 [t, (q.reg a).toNat]) 0) := by
  have hgo := withTile_single hi hfree ht ha
  simp only [List.forall_mem_cons, List.not_mem_nil, false_implies, implies_true, and_true, ← State.issueTile_eq_commanded]
  exact ⟨hgo _, hgo _⟩

theorem execTcfg_answers : execTcfg u n t a s =
    if ConfigOk (q.reg a).toNat then .next (s.commanded p q word (.todo .tcfg [t, (q.reg a).toNat]) 0)
    else .next (s.seqTrap p q causeOperand) := by
  rw [execTcfg, withTile_single hi hfree ht ha, State.issueTile_eq_commanded]
  exact if_congr (configOk_iff _) rfl rfl

theorem execMmao_answers : execMmao u n t a s =
    if s.seqCore p q % 4 = 0 then .next (s.commanded p q word (.todo .mmao [t, (q.reg a).toNat]) 0)
    else .next (s.seqTrap p q causeIllegal) := by
  rw [execMmao, withTile_single hi hfree ht ha, State.issueTile_eq_commanded]
  exact if_congr (corrected_iff _) rfl rfl

end

variable (hb : b < 32) (hrows : RowsOk (q.reg b).toNat)
include hb hrows

theorem rowForms_issue : ∀ e ∈ [(Instr.tzeroRows u n t b, CmdOp.tzero), (.accnormRows u n t b, .accnorm)],
    exec e.1 s = .next (s.commanded p q word (.todo e.2 [t, 0, (q.reg b).toNat % 64, (q.reg b).toNat / 256 % 128]) 0) := by
  have hgo := withTile_rows hi hfree ht (sregsOk_one hb) ((rowsOf_eq _).trans (if_pos hrows))
  simp only [List.forall_mem_cons, List.not_mem_nil, false_implies, implies_true, and_true, ← State.issueTile_eq_commanded]
  exact ⟨hgo fun _ _ _ _ => _, hgo fun _ _ _ _ => _⟩

include ha

/-- TWR, ACCRD and ACCRD_CLR differ in their command alone. -/
theorem addressedRows_issue : ∀ e ∈ [(Instr.twr u n t a b, CmdOp.twr), (.accrd u n t a b, .accrd false), (.accrdClr u n t a b, .accrd true)],
    exec e.1 s = .next (s.issueAligned p q word e.2 [t, (q.reg a).toNat, (q.reg b).toNat % 64, (q.reg b).toNat / 256 % 128]) := by
  have hgo := withTile_rows hi hfree ht (sregsOk_two ha hb) ((rowsOf_eq _).trans (if_pos hrows))
  simp only [List.forall_mem_cons, List.not_mem_nil, false_implies, implies_true, and_true]
  exact ⟨hgo fun _ _ _ _ => _, hgo fun _ _ _ _ => _, hgo fun _ _ _ _ => _⟩

end

/-! ## ACCHR and MSYNC (R262, R263) -/

section
variable {s : State} {p word lit : Nat} {q : Seq} (hi : SeqIssues s p q word lit)
include hi

section
variable (hfree : q.cmds.length < 63) {d t : Nat} {us : List SUse} {ok : Seq → Bool} {f : Seq → Tile → Word}
include hfree

theorem hrOp_refused (hok : ok q = false) : hrOp d t us ok f s = .next (s.seqTrap p q causeOperand) :=
  withTile_traps hi hfree (by simp [hok])

variable (ht : t < 8) (hus : SregsOk ((d, 1, 1) :: us)) (hok : ok q = true)
include ht hus hok

theorem hrOp_reads (hnone : ∀ c ∈ q.cmds, c.tile ≠ some t) : hrOp d t us ok f s =
    .next ((s.commanded p q word .done 0).modSeq p q.id fun y => y.setReg d (f q (s.tile (s.seqCore p q) t))) := by
  have hany : (q.cmds.any fun c => c.tile == some t) = false := by simpa using hnone
  rw [hrOp, withTile_ok hi hfree ht hus, State.issueCmd_eq_commanded _ _ _ _ _ (by decide)]
  simp [hok, hany]

theorem hrOp_waits (hsome : ∃ c ∈ q.cmds, c.tile = some t) : hrOp d t us ok f s = .next s := by
  have hany : (q.cmds.any fun c => c.tile == some t) = true := by simpa using hsome
  rw [hrOp, withTile_ok hi hfree ht hus]
  simp [hok, hany]

end

theorem execMsync_answers {a : Nat} (ha : a < 32) (u n : Bool) : execMsync u n a s =
    if 256 ≤ (q.reg a).toNat then .next (s.seqTrap p q causeOperand)
    else if q.cmds = [] then .next (s.commanded p q word .done 0) else .next s := by
  have hsregs : sregsOk [(a, 1, 1)] = true := sregsOk_of (sregsOk_one ha)
  rw [execMsync, withSeq_issues hi, hsregs, State.issueCmd_eq_commanded _ _ _ _ _ (by decide)]
  cases q.cmds <;> simp

end

/-- The word that ACCHR_TILE gives: the largest L, whether a row is invalid, the least headroom of the others (R262). -/
theorem tileWord_eq (rs : List TileRow) :
    (rs.map (·.l)).foldl max 0 * 65536 + bit (rs.any (·.n)) * 128 + ((rs.filter fun r => !r.n).map TileRow.headroom).foldl min 39 =
      (rs.map fun r => r.l).foldl max 0 * 2 ^ 16 + (if ∃ r ∈ rs, r.n = true then 128 else 0) +
        ((rs.filter fun r => r.n == false).map TileRow.headroom).foldl min 39 := by
  have hfilter : (fun r : TileRow => !r.n) = fun r => r.n == false := funext fun r => by cases r.n <;> rfl
  rw [bit_mul, hfilter]
  simp only [List.any_eq_true]
  rfl

section
variable {s : State} {p word lit t b d : Nat} {q : Seq} (hi : SeqIssues s p q word lit) (hfree : q.cmds.length < 63) (u n : Bool)
include hi hfree

section
variable (hrow : 64 ≤ (q.reg b).toNat)
include hrow

theorem execAcchrRow_refused : execAcchrRow u n d t b s = .next (s.seqTrap p q causeOperand) :=
  hrOp_refused hi hfree (decide_eq_false (Nat.not_lt.mpr hrow))

theorem execAcchrExp_refused : execAcchrExp u n d t b s = .next (s.seqTrap p q causeOperand) :=
  hrOp_refused hi hfree (decide_eq_false (Nat.not_lt.mpr hrow))

end

variable (ht : t < 8) (hd : d < 32)
include ht hd

theorem execAcchrTile_waits (hbusy : ∃ c ∈ q.cmds, c.tile = some t) : execAcchrTile u n d t s = .next s := by
  rw [execAcchrTile, hrOp_waits hi hfree ht (sregsOk_one hd) rfl hbusy]

/-- ACCHR's answer: the command ends at issue and the word is in the register. -/
def State.acchrGives (s : State) (p : Nat) (q : Seq) (word d : Nat) (v : Word) : State :=
  (s.commanded p q word .done 0).modSeq p q.id fun y => y.setReg d v

variable (hidle : ∀ c ∈ q.cmds, c.tile ≠ some t) {x : Tile} (hx : s.tile (s.seqCore p q) t = x)
include hidle hx

theorem execAcchrTile_gives : execAcchrTile u n d t s = .next (s.acchrGives p q word d (BitVec.ofNat 32
    ((x.rows.map fun r => r.l).foldl max 0 * 2 ^ 16 + (if ∃ r ∈ x.rows, r.n = true then 128 else 0) +
      ((x.rows.filter fun r => r.n == false).map TileRow.headroom).foldl min 39))) := by
  rw [execAcchrTile, hrOp_reads hi hfree ht (sregsOk_one hd) rfl hidle, hx, tileWord_eq, State.acchrGives]

variable (hb : b < 32) (hrow : (q.reg b).toNat < 64)
include hb hrow

theorem execAcchrRow_gives {r : TileRow} (hr : x.row (q.reg b).toNat = r) : execAcchrRow u n d t b s =
    .next (s.acchrGives p q word d (BitVec.ofNat 32 (r.l * 2 ^ 16 + (if r.n then 128 else 0) + r.headroom))) := by
  rw [← bit_mul, execAcchrRow, hrOp_reads hi hfree ht (sregsOk_two hd hb) (decide_eq_true hrow) hidle, hx, hr]
  rfl

theorem execAcchrExp_gives : execAcchrExp u n d t b s =
    .next (s.acchrGives p q word d (BitVec.ofInt 32 (x.row (q.reg b).toNat).e)) := by
  rw [execAcchrExp, hrOp_reads hi hfree ht (sregsOk_two hd hb) (decide_eq_true hrow) hidle, hx, State.acchrGives]

end

/-! ## The obligation -/

/-- Settles O49: each form by what its checks find, a word that passes or one that traps. -/
theorem matrixCommandsIssue : Obligations.MatrixCommandsIssue := by
  unfold Obligations.MatrixCommandsIssue
  intro u n t a b d s p word lit q hi ha hb hd size issued traps va rows lo k rowsOk cfgOk byRows rowForms whole products free tile row
  have honRows : ∀ e ∈ rowForms ++ byRows, OnRows t b e.1 := List.forall_mem_map.mp (onRows_forms u n t a b)
  have honTile : ∀ e ∈ byRows ++ rowForms ++ whole ++ products, OnTile t e.1 := by
    have hwhole : ∀ e ∈ whole ++ products, OnTile t e.1 := List.forall_mem_map.mp (onTile_forms u n t a)
    intro e he
    rw [List.append_assoc, List.mem_append] at he
    exact he.elim (fun h => (honRows e (List.perm_append_comm.mem_iff.mp h)).onTile) (hwhole e)
  have hmsync := execMsync_answers hi ha u n
  refine ⟨?tile, fun hfree ht e he => (honTile e he).badTile hi hfree ht, fun hfull e he => (honTile e he).held hi hfull,
    fun hva hidle => ?_, fun hva hbusy => ?_, fun hva => hmsync.trans (if_pos hva)⟩
  case tile =>
    intro hfree ht
    have htcfg := execTcfg_answers hi hfree ht ha u n
    have hmmao := execMmao_answers hi hfree ht ha u n
    refine ⟨fun h => htcfg.trans (if_pos h), fun h => htcfg.trans (if_neg h), tzero_accnorm_issue hi hfree ht u n,
      rowForms_issue hi hfree ht u n hb, ?aligned, ?misaligned,
      fun h e he => (honRows e he).badRows hi hfree ((rowsOf_eq rows).trans (if_neg h)),
      mma_mmas_issue hi hfree ht ha u n, fun h => hmmao.trans (if_pos h), fun h => hmmao.trans (if_neg h), ?acchr⟩
    case aligned =>
      intro h hva e he
      rw [addressedRows_issue hi hfree ht ha u n hb h e he]
      exact congrArg _ (State.issueAligned_aligned hva)
    case misaligned =>
      intro h hva
      have hends : ∀ e ∈ byRows, exec e.1 s = .next (issued .done (if s.readOutside p q e.2 [t, va, lo, k] then 5 else 4)) := by
        intro e he
        rw [addressedRows_issue hi hfree ht ha u n hb h e he]
        exact congrArg _ (State.issueAligned_misaligned hva)
      simp only [byRows, List.forall_mem_cons, List.not_mem_nil, false_implies, implies_true, and_true] at hends ⊢
      exact hends
    case acchr =>
      refine ⟨fun hidle => ⟨fun hrow => ⟨?row, ?exp⟩, ?tile⟩, fun hrow => ⟨?rowRefused, ?expRefused⟩,
        execAcchrTile_waits hi hfree u n ht hd⟩
      case row => exact execAcchrRow_gives hi hfree u n ht hd hidle rfl hb hrow rfl
      case exp => exact execAcchrExp_gives hi hfree u n ht hd hidle rfl hb hrow
      case tile => exact execAcchrTile_gives hi hfree u n ht hd hidle rfl
      case rowRefused => exact execAcchrRow_refused hi hfree u n hrow
      case expRefused => exact execAcchrExp_refused hi hfree u n hrow
  · exact hmsync.trans ((if_neg (Nat.not_le.mpr hva)).trans (if_pos hidle))
  · exact hmsync.trans ((if_neg (Nat.not_le.mpr hva)).trans (if_neg hbusy))

end Sys2Proof.Machine
end

section
/-! The reset state (R314, R333, R347, R351, R355, R356). -/
namespace Sys2Proof.Machine

/-- Memory with nothing listed reads as unwritten everywhere (log 4). -/
theorem byteAt_reset (a : Nat) : byteAt State.reset a = 0 := rfl

/-- Settles O5: with nothing listed under any number, every partition, core and gate has the value of an empty one. -/
theorem resetState : Obligations.ResetState := by
  unfold Obligations.ResetState
  have hparts : ∀ p, State.reset.part p = Partition.empty := fun _ => rfl
  have hworks : ∀ p, State.reset.work p = Work.empty := fun _ => rfl
  have hcores : ∀ c, State.reset.coreOf c = Core.empty := fun _ => rfl
  have hgates : ∀ n, State.reset.gate n = Gate.empty := fun _ => rfl
  refine ⟨rfl, byteAt_reset, fun p => ?_, fun c => ?_, fun n => ?_, rfl, rfl, rfl, rfl, rfl, rfl, rfl, rfl, rfl, rfl, rfl⟩
  · rw [hparts, hworks]
    exact ⟨rfl, rfl, rfl, rfl⟩
  · rw [hcores]
    exact ⟨rfl, rfl⟩
  · rw [hgates]
    rfl

end Sys2Proof.Machine
end

section
/-! Traps (R302, R303, R367, R369, R371, R373, R377): what raising a cause leaves in the warp, the work-group and the rest, what TRAP, BKPT
and TRAPRET answer, and how a handler is entered. -/
namespace Sys2Proof.Machine

/-! ## Work-groups and warps after an update -/

theorem State.modWg_wg {s : State} {p wg : Nat} {g : WorkGroup} (hg : (s.work p).wg wg = some g) {f : WorkGroup → WorkGroup}
    (hf : ∀ g, (f g).id = g.id) : ((s.modWg p wg f).work p).wg wg = some (f g) := by
  rw [State.modWg, State.modWork_work_same, Work.modWg_wg_same _ _ _ hf, hg, Option.map_some]

theorem WorkGroup.modWarp_warp {g : WorkGroup} {wid : Nat} {w : Warp} (hw : g.warp wid = some w) {f : Warp → Warp}
    (hf : ∀ w, (f w).wid = w.wid) : (g.modWarp wid f).warp wid = some (f w) := by
  rw [WorkGroup.modWarp_warp_same _ _ _ hf, hw, Option.map_some]

/-! ## A cause raised (R309, R367) -/

section
variable (t : TrapState) (bit : Nat) (tval : DWord)

/-- A cause raised sets its bit, and gives its TVAL unless it was pending. -/
theorem TrapState.raise_spec : (t.raise bit tval).cause = t.cause ||| BitVec.ofNat 32 (2 ^ bit) ∧
    findD (t.raise bit tval).tvals bit 0 = (if t.cause.getLsbD bit then findD t.tvals bit 0 else tval) := by
  unfold TrapState.raise
  by_cases hset : t.cause.getLsbD bit = true
  · rw [if_pos hset, if_pos hset]
    refine ⟨BitVec.eq_of_getLsbD_eq fun i hi => ?_, rfl⟩
    rw [BitVec.getLsbD_or, Bool.eq_iff_iff, Bool.or_eq_true, getLsbD_ofNat_two_pow hi]
    exact ⟨Or.inl, fun h => h.elim id fun h => h ▸ hset⟩
  · rw [if_neg hset, if_neg hset]
    exact ⟨rfl, findD_put_same _ _ _ _⟩

theorem TrapState.raise_frame : (t.raise bit tval).hm = t.hm ∧ (t.raise bit tval).hcur = t.hcur := by
  unfold TrapState.raise
  split <;> exact ⟨rfl, rfl⟩

end

/-- A cause other than a data error leaves no record. -/
theorem State.notePoison_of_lt (s : State) (p wg : Nat) {bit : Nat} (tval : DWord) (h : bit < 28) :
    s.notePoison p wg [(bit, tval)] = s := by
  have hne : bit ≠ 28 := by omega
  simp [State.notePoison, hne]

/-- What a trap makes of the trapping warp (R369, R373), before its work-group halts. -/
def Warp.trapped (w : Warp) (c : Ctx) (causes : List (Nat × DWord)) (skid : Bool) : Warp :=
  if w.trap.hm then { w with
    trap := { w.trap.raiseAll causes with hcur := w.trap.hcur.past (min c.size (max 1 w.trap.hcur.rem)) },
    lanes := mapLanes c.lanes Lane.handled 0 w.lanes }
  else { w with trap := { w.trap.raiseAll causes with skid := w.trap.skid + (if skid then 1 else 0) } }

theorem raiseTrap_eq (s : State) (c : Ctx) {bit : Nat} (tval : DWord) (hbit : bit < 28) : raiseTrap s c [(bit, tval)] =
    s.modWg c.p c.wg fun g => (g.modWarp c.wid fun w => w.trapped c [(bit, tval)] (g.skids c.wid)).halted c.wid := by
  rw [raiseTrap, State.notePoison_of_lt s _ _ tval hbit]
  rfl

theorem Warp.trapped_wid (w : Warp) (c : Ctx) (causes : List (Nat × DWord)) (skid : Bool) : (w.trapped c causes skid).wid = w.wid := by
  unfold Warp.trapped
  split <;> rfl

/-- How far a halt goes: a work-group that runs begins to stop, another goes on as it was. -/
theorem WorkGroup.halted_halt (g : WorkGroup) (wid : Nat) :
    (g.halted wid).halt = if g.halt = .running then .stopping wid else g.halt := by
  unfold WorkGroup.halted
  split
  · next h => rw [if_pos h]
  · next h => rw [if_neg h]

theorem mapLanes_handled_lane (w : Warp) (ls : List Nat) (l : Nat) : let x := (w.modLanes ls Lane.handled).lane l
    x.cur = (w.lane l).cur ∧ x.status = (w.lane l).status ∧ x.hold = (w.lane l).hold := by
  dsimp only
  rw [Warp.lane_modLanes]
  split <;> exact ⟨rfl, rfl, rfl⟩

/-- Warps that differ in their skid alone agree in what the statements on traps read. -/
theorem Warp.fields_of_exceptSkid {v w : Warp} (h : v.exceptSkid = w.exceptSkid) :
    v.masks = w.masks ∧ v.regs = w.regs ∧ v.poison = w.poison ∧ v.alloc = w.alloc ∧ v.retired = w.retired ∧ v.lanes = w.lanes ∧
      v.trap.cause = w.trap.cause ∧ v.trap.tvals = w.trap.tvals ∧ v.trap.hm = w.trap.hm ∧ v.trap.hcur = w.trap.hcur :=
  ⟨congrArg (·.masks) h, congrArg (·.regs) h, congrArg (·.poison) h, congrArg (·.alloc) h, congrArg (·.retired) h,
    congrArg (·.lanes) h, congrArg (·.trap.cause) h, congrArg (·.trap.tvals) h, congrArg (·.trap.hm) h, congrArg (·.trap.hcur) h⟩

/-- The work-group and the warp after a trap; a halt may set the warp's skid back. -/
theorem raiseTrap_warp {s : State} {c : Ctx} {g : WorkGroup} {w : Warp} (hi : Issues s c g w) {bit : Nat} (tval : DWord) (hbit : bit < 28) :
    ∃ h v, ((raiseTrap s c [(bit, tval)]).work c.p).wg c.wg = some h ∧ h.warp c.wid = some v ∧
      h.halt = (if g.halt = .running then .stopping c.wid else g.halt) ∧
      v.exceptSkid = (w.trapped c [(bit, tval)] (g.skids c.wid)).exceptSkid := by
  obtain ⟨-, hg, hw⟩ := hi
  have hid : ∀ g : WorkGroup, ((g.modWarp c.wid fun w => w.trapped c [(bit, tval)] (g.skids c.wid)).halted c.wid).id = g.id :=
    fun g => (halted_warp _ c.wid c.wid).1
  rw [raiseTrap_eq s c tval hbit, State.modWg_wg hg hid]
  have hskid := WorkGroup.halted_warp_exceptSkid (g.modWarp c.wid fun w => w.trapped c [(bit, tval)] (g.skids c.wid)) c.wid c.wid
  rw [WorkGroup.modWarp_warp hw fun w => w.trapped_wid c _ _, Option.map_some] at hskid
  obtain ⟨v, hv, hsame⟩ := Option.map_eq_some_iff.mp hskid
  exact ⟨_, v, rfl, hv, WorkGroup.halted_halt _ _, hsame⟩

section
variable (w : Warp) (c : Ctx) (bit : Nat) (tval : DWord) (skid : Bool)

/-- A trap leaves masks, registers and counts of its warp, and raises its cause. -/
theorem Warp.trapped_common : let v := w.trapped c [(bit, tval)] skid
    v.masks = w.masks ∧ v.regs = w.regs ∧ v.poison = w.poison ∧ v.alloc = w.alloc ∧ v.retired = w.retired ∧
      v.trap.cause = (w.trap.raise bit tval).cause ∧ v.trap.tvals = (w.trap.raise bit tval).tvals ∧ v.trap.hm = w.trap.hm := by
  have hframe := w.trap.raise_frame bit tval
  dsimp only
  unfold Warp.trapped
  split <;> exact ⟨rfl, rfl, rfl, rfl, rfl, rfl, rfl, hframe.1⟩

theorem Warp.trapped_outside (hm : w.trap.hm = false) : let v := w.trapped c [(bit, tval)] skid
    v.lanes = w.lanes ∧ v.trap.hcur = w.trap.hcur := by
  have hframe := w.trap.raise_frame bit tval
  dsimp only
  rw [Warp.trapped, if_neg (by simp [hm])]
  exact ⟨rfl, hframe.2⟩

theorem Warp.trapped_handler (hm : w.trap.hm = true) : let v := w.trapped c [(bit, tval)] skid
    v.lanes = (w.modLanes c.lanes Lane.handled).lanes ∧ v.trap.hcur = w.trap.hcur.past (min c.size (max 1 w.trap.hcur.rem)) := by
  dsimp only
  rw [Warp.trapped, if_pos hm]
  exact ⟨rfl, rfl⟩

end

/-- Settles O39: the warp is `Warp.trapped` but for its skid, and the rest of the state is spared. -/
theorem trapIsTaken : Obligations.TrapIsTaken := by
  unfold Obligations.TrapIsTaken
  intro s c g w bit tval hi hbit hhandling t
  obtain ⟨h, v, hh, hv, hhalt, hsame⟩ := raiseTrap_warp hi tval hbit
  obtain ⟨hspared, hwork⟩ := raiseTrap_leavesRest s c [(bit, tval)]
  have hseqs := congrArg Work.seqs (hwork c.p)
  obtain ⟨hcause, htval⟩ := w.trap.raise_spec bit tval
  have hbb : t.bb = s.bb := by
    rw [show t = raiseTrap s c [(bit, tval)] from rfl, raiseTrap_eq s c tval hbit]
    rfl
  obtain ⟨vmasks, vregs, vpoison, valloc, vretired, vlanes, vcause, vtvals, vhm, vhcur⟩ := Warp.fields_of_exceptSkid hsame
  obtain ⟨wmasks, wregs, wpoison, walloc, wretired, wcause, wtvals, whm⟩ := w.trapped_common c bit tval (g.skids c.wid)
  refine ⟨h, v, hh, hv, vmasks.trans wmasks, vregs.trans wregs, vpoison.trans wpoison, valloc.trans walloc, vretired.trans wretired,
    (vcause.trans wcause).trans hcause, ?_, hspared, hbb, hseqs, fun hm => ?outside, fun hm => ?handler⟩
  · rw [vtvals, wtvals, htval]
  case outside =>
    obtain ⟨wlanes, whcur⟩ := w.trapped_outside c bit tval (g.skids c.wid) hm
    exact ⟨hhalt, vlanes.trans wlanes, (vhm.trans whm).trans hm, vhcur.trans whcur⟩
  case handler =>
    obtain ⟨wlanes, whcur⟩ := w.trapped_handler c bit tval (g.skids c.wid) hm
    refine ⟨?_, (vhm.trans whm).trans hm, vhcur.trans whcur, fun l => ?_⟩
    · rw [hhalt, hhandling hm, if_neg HaltState.noConfusion]
    · rw [Warp.lane, vlanes, wlanes]
      exact mapLanes_handled_lane w c.lanes l

end Sys2Proof.Machine
end

section
/-! TRAP, BKPT and the phase timer (R302, R377), entry into a handler and TRAPRET (R303, R371, R373). -/
namespace Sys2Proof.Machine

/-! ## Two updates in a row -/

theorem updFirst_updFirst {α : Type} {t : α → Bool} {f : α → α} (hf : ∀ x, t x = true → t (f x) = true) (g : α → α) (l : List α) :
    updFirst t g (updFirst t f l) = updFirst t (fun x => g (f x)) l := by
  induction l with
  | nil => rfl
  | cons x r ih =>
    by_cases hx : t x = true
    · simp [updFirst, hx, hf x hx]
    · simp [updFirst, hx, ih]

/-- An update of the first element that passes depends on what it makes of that element alone. -/
theorem updFirst_congr_of_find {α : Type} {t : α → Bool} {f g : α → α} {l : List α} {x : α} (hx : l.find? t = some x) (h : f x = g x) :
    updFirst t f l = updFirst t g l := by
  induction l with
  | nil => rfl
  | cons y r ih =>
    by_cases hy : t y = true
    · obtain rfl : y = x := by simpa [hy] using hx
      simp [updFirst, hy, h]
    · simp [updFirst, hy, ih (by simpa [hy] using hx)]

theorem State.modWork_modWork (s : State) (p : Nat) (f g : Work → Work) :
    (s.modWork p f).modWork p g = s.modWork p fun x => g (f x) := by
  show { s with works := put (put s.works p (f (s.work p))) p (g ((s.modWork p f).work p)) } = _
  rw [put_put_same, State.modWork_work_same]
  rfl

theorem State.modWg_modWg (s : State) (p wg : Nat) {f : WorkGroup → WorkGroup} (hf : ∀ g, (f g).id = g.id) (f' : WorkGroup → WorkGroup) :
    (s.modWg p wg f).modWg p wg f' = s.modWg p wg fun g => f' (f g) := by
  rw [State.modWg, State.modWg, State.modWork_modWork]
  refine congrArg (s.modWork p) (funext fun w => ?_)
  rw [Work.modWg, Work.modWg, updFirst_updFirst fun g hg => by simpa [hf g] using hg]
  rfl

theorem State.modWg_congr {s : State} {p wg : Nat} {g : WorkGroup} (hg : (s.work p).wg wg = some g) {f f' : WorkGroup → WorkGroup}
    (h : f g = f' g) : s.modWg p wg f = s.modWg p wg f' := by
  rw [State.modWg, State.modWg, State.modWork, State.modWork, Work.modWg, Work.modWg, updFirst_congr_of_find hg h]

theorem WorkGroup.modWarp_modWarp (g : WorkGroup) (wid : Nat) {f : Warp → Warp} (hf : ∀ w, (f w).wid = w.wid) (f' : Warp → Warp) :
    (g.modWarp wid f).modWarp wid f' = g.modWarp wid fun w => f' (f w) := by
  rw [WorkGroup.modWarp, WorkGroup.modWarp, updFirst_updFirst fun w hw => by simpa [hf w] using hw]
  rfl

/-! ## TRAP and BKPT (R302) -/

theorem owesResults_iff (c : Ctx) (w : Warp) : owesResults c w = true ↔ ∃ l ∈ c.lanes, ∃ r ∈ (w.lane l).results, r.hm = w.trap.hm := by
  simp [owesResults]

section
variable {s : State} {c : Ctx} {g : WorkGroup} {w : Warp} (hi : Issues s c g w)
include hi

theorem execTrap_answers : execTrap s = .next (if owesResults c w = true then awaitResults s c
    else (retire s c).raiseWarp c.p c.wg c.wid 5 (BitVec.ofNat 64 (c.word % 2 ^ 7))) := by
  rw [execTrap, withGroup_issues hi, apply_ite Host.Outcome.next]
  rfl

theorem execBkpt_answers : execBkpt s = .next (if owesResults c w = true then awaitResults s c
    else raiseTrap s c [(6, (w.pcOf c).setWidth 64)]) := by
  rw [execBkpt, withGroup_issues hi, apply_ite Host.Outcome.next]
  rfl

end

/-! ## The phase timer (R377) -/

/-- The timer's cause raised in its warp. -/
def Warp.timedOut (w : Warp) (tval : DWord) : Warp :=
  { w with phase := { w.phase with armed := false }, trap := w.trap.raise 9 tval }

section
variable {s : State} {p wg wid same : Nat} {g : WorkGroup} {w : Warp} {x : Launch} (hp : s.issue = .part [p, wg, wid, same])
  (hg : (s.work p).wg wg = some g) (hw : g.warp wid = some w) (hx : (s.work p).launch g.seq = some x) (harmed : w.phase.armed = true)
  (hover : w.phase.budget * (16 + x.rcd.phmargin) < 16 * w.phase.count)
include hp hg hw hx harmed hover

theorem execPhaseTimerExpiry_over (ht : g.timed = true) : execPhaseTimerExpiry s = .next (s.modWg p wg fun h =>
    (h.modWarp wid fun v => v.timedOut (BitVec.ofNat 64 (w.phase.count % 2 ^ 32 * 2 ^ 32 + w.phase.budget))).haltedWith wid (same == 1)) := by
  have hwarp : s.warp p wg wid = some w := by
    rw [State.warp, hg]
    exact hw
  have hexpired : w.phase.expired x.rcd.phmargin = true := by
    rw [PhaseTimer.expired, harmed, Bool.true_and, decide_eq_true_eq]
    omega
  simp only [execPhaseTimerExpiry, State.arg_part hp, List.getD_cons_zero, List.getD_cons_succ, hg, hwarp, hx, Option.map_some,
    Option.getD_some, ht, hexpired, Bool.and_self, if_true]
  rfl

end

theorem WorkGroup.haltedWith_running {g : WorkGroup} (h : g.halt = .running) (wid : Nat) (same : Bool) :
    g.haltedWith wid same = g.halted wid := by
  rw [WorkGroup.haltedWith, h]

theorem WorkGroup.haltedWith_stopping {g : WorkGroup} {k : Nat} (h : g.halt = .stopping k) (wid : Nat) (same : Bool) :
    g.haltedWith wid same = { g with halt := .stopping (if same = true ∧ wid % 32 < k % 32 then wid else k) } := by
  rw [WorkGroup.haltedWith, h]
  by_cases hlow : same = true ∧ wid % 32 < k % 32
  · simp [hlow]
  · simp [hlow, ← h]

theorem WorkGroup.haltedWith_id (g : WorkGroup) (wid : Nat) (same : Bool) : (g.haltedWith wid same).id = g.id := by
  unfold WorkGroup.haltedWith
  split
  · split <;> rfl
  · exact (halted_warp g wid wid).1

/-- Settles O40: TRAP and BKPT by what their lanes owe, the timer by how far the work-group's halt has gone. -/
theorem trapBreakpointAndTimer : Obligations.TrapBreakpointAndTimer := by
  unfold Obligations.TrapBreakpointAndTimer
  refine ⟨?_, ?_⟩
  · intro s c g w hi owes
    have hiff : owesResults c w = true ↔ owes := owesResults_iff c w
    rw [exec_trap, exec_bkpt, execTrap_answers hi, execBkpt_answers hi]
    refine ⟨fun h => ?_, fun h => ?_⟩
    · rw [if_neg (mt hiff.mp h), if_neg (mt hiff.mp h)]
      exact ⟨rfl, rfl⟩
    · rw [if_pos (hiff.mpr h), if_pos (hiff.mpr h)]
      exact ⟨rfl, rfl⟩
  · intro s p wg wid same g w x hp hg hw hx harmed hover tval
    rw [exec_phaseTimerExpiry]
    refine ⟨fun hrun => ?runs, fun k hk => ?stopping⟩
    case runs =>
      rw [execPhaseTimerExpiry_over hp hg hw hx harmed hover (by rw [WorkGroup.timed, hrun]), State.raiseWarp, State.modWarp,
        State.modWg_modWg _ _ _ fun g => g.modWarp_id _ _]
      refine congrArg _ (State.modWg_congr hg ?_)
      rw [WorkGroup.modWarp_modWarp]
      · exact WorkGroup.haltedWith_running (g := g.modWarp wid _) hrun wid _
      · exact fun _ => rfl
    case stopping =>
      obtain ⟨hcause, htval⟩ := w.trap.raise_spec 9 tval
      refine ⟨_, _, w.timedOut tval, execPhaseTimerExpiry_over hp hg hw hx harmed hover (by rw [WorkGroup.timed, hk]),
        State.modWg_wg hg fun h => (WorkGroup.haltedWith_id _ _ _), ?_, ?_, rfl, hcause, htval⟩
      · rw [WorkGroup.haltedWith_stopping (g := g.modWarp wid _) hk]
        exact WorkGroup.modWarp_warp hw fun _ => rfl
      · rw [WorkGroup.haltedWith_stopping (g := g.modWarp wid _) hk]
        simp only [beq_iff_eq]

/-! ## Entering a handler (R303, R371) -/

theorem lowestBit_eq_some {m : Word} {b : Nat} :
    lowestBit m = some b ↔ b < 32 ∧ m.getLsbD b = true ∧ ∀ i, i < b → m.getLsbD i = false := by
  have hrange : upto 0 32 = List.range 32 := rfl
  rw [lowestBit, hrange, List.find?_range_eq_some, List.mem_range]
  simp only [Bool.not_eq_true']
  tauto

/-- What a handler's entry and its stores leave of a warp but registers and windows. -/
def Warp.Stands (v w : Warp) : Prop :=
  v.wid = w.wid ∧ v.masks = w.masks ∧ v.trap = w.trap ∧ ∀ l, (v.lane l).cur = (w.lane l).cur

theorem Warp.Stands.refl (w : Warp) : w.Stands w := ⟨rfl, rfl, rfl, fun _ => rfl⟩
theorem Warp.Stands.trans {u v w : Warp} (h : u.Stands v) (k : v.Stands w) : u.Stands w :=
  ⟨h.1.trans k.1, h.2.1.trans k.2.1, h.2.2.1.trans k.2.2.1, fun l => (h.2.2.2 l).trans (k.2.2.2 l)⟩

theorem Warp.setRegs_stands (w : Warp) (l : Nat) (vs : List (Nat × Word)) : (w.setRegs l vs).Stands w := by
  obtain ⟨hwid, hmasks, hlanes, htrap⟩ := setRegs_frame vs w l
  exact ⟨hwid, hmasks, htrap, fun k => by rw [Warp.lane, hlanes, Warp.lane]⟩

theorem Warp.modLanes_stands (w : Warp) (ls : List Nat) {f : Lane → Lane} (hf : ∀ x, (f x).cur = x.cur) : (w.modLanes ls f).Stands w := by
  refine ⟨rfl, rfl, rfl, fun k => ?_⟩
  rw [Warp.lane_modLanes]
  split
  · exact hf _
  · rfl

theorem Warp.foldl_stands {α : Type} {f : Warp → α → Warp} (hf : ∀ v x, (f v x).Stands v) (xs : List α) (w : Warp) :
    (xs.foldl f w).Stands w := by
  induction xs generalizing w with
  | nil => exact .refl w
  | cons x xs ih => exact (ih _).trans (hf w x)

/-- The end of a wait for results writes registers and ends windows; it moves no lane and changes no trap (R370). -/
theorem Warp.writeEnded_stands (w : Warp) : w.writeEnded.Stands w := by
  unfold Warp.writeEnded
  refine Warp.foldl_stands (fun v l => ?_) _ w
  refine Warp.Stands.trans (Warp.modLanes_stands _ [l] ?_) (Warp.foldl_stands (fun z (r : Result) => z.setRegs_stands l r.vals) _ v)
  exact fun _ => rfl

/-- The warp on which the handler is entered, told by its lowest cause. -/
theorem Warp.deliver_eq {w : Warp} {b : Nat} (hb : lowestBit w.trap.cause = some b) (handler : VAddr) : w.deliver handler =
    { w with trap := { w.trap with cause := w.trap.cause &&& ~~~(BitVec.ofNat 32 (2 ^ b)), cur := b, tval := findD w.trap.tvals b 0,
                                   tvals := drop w.trap.tvals b, hm := true, hcur := Cursor.at handler } } := by
  rw [Warp.deliver, hb]

theorem Warp.deliver_wid (w : Warp) (handler : VAddr) : (w.deliver handler).wid = w.wid := by
  unfold Warp.deliver
  split <;> rfl

theorem Warp.cause_ne_zero_of_lowestBit {w : Warp} {b : Nat} (hb : lowestBit w.trap.cause = some b) : w.trap.cause ≠ 0 := by
  obtain ⟨-, hset, -⟩ := lowestBit_eq_some.mp hb
  intro h
  rw [h] at hset
  simp at hset

theorem WorkGroup.handlerWarp_trapped {g : WorkGroup} {wid : Nat} {w : Warp} (hw : g.warp wid = some w) (hcause : w.trap.cause ≠ 0) :
    g.handlerWarp wid = some w := by
  simp only [WorkGroup.handlerWarp, hw, ne_eq, hcause, not_false_eq_true, if_true]

theorem WorkGroup.warp_wid {g : WorkGroup} {wid : Nat} {w : Warp} (hw : g.warp wid = some w) : w.wid = wid := by
  simpa using List.find?_some hw

/-- A change of every warp that keeps their numbers. -/
theorem WorkGroup.warp_map {g : WorkGroup} {f : Warp → Warp} (hf : ∀ w, (f w).wid = w.wid) (wid : Nat) :
    ({ g with warps := g.warps.map f } : WorkGroup).warp wid = (g.warp wid).map f := by
  simp only [WorkGroup.warp, List.find?_map]
  refine congrArg (fun t => Option.map f (g.warps.find? t)) (funext fun w => ?_)
  simp [hf w]

/-- The warps of a work-group as its handler is entered on warp `wid`: the results of the others are written too (R370). -/
def WorkGroup.othersWritten (g : WorkGroup) (wid : Nat) : WorkGroup :=
  { g with warps := g.warps.map fun v => if v.wid = wid then v else v.writeEnded }

theorem WorkGroup.othersWritten_warp {g : WorkGroup} {wid : Nat} {w : Warp} (hw : g.warp wid = some w) :
    (g.othersWritten wid).warp wid = some w := by
  rw [WorkGroup.othersWritten, WorkGroup.warp_map, hw, Option.map_some, if_pos (WorkGroup.warp_wid hw)]
  intro v
  split
  · rfl
  · exact v.writeEnded_stands.1

/-- HANDLER_ENTRY of a work-group whose trapped warp has a cause pending. -/
theorem execHandlerEntry_enters {s : State} {p wg wid b : Nat} {g : WorkGroup} {w : Warp} (hp : s.issue = .part [p, wg])
    (hg : (s.work p).wg wg = some g) (hw : g.warp wid = some w) (hhalt : g.halt = .stopping wid) (hpre : g.pre = 0)
    (hready : g.resultsReady = true) (hhandler : s.handlerOf p g ≠ 0) (hb : lowestBit w.trap.cause = some b) :
    execHandlerEntry s = .next (s.modWg p wg fun h => (h.othersWritten wid).enterHandler wid (s.handlerOf p g)) := by
  have hwarp := WorkGroup.handlerWarp_trapped hw (Warp.cause_ne_zero_of_lowestBit hb)
  simp only [execHandlerEntry, State.arg_part hp, List.getD_cons_zero, List.getD_cons_succ, hg, hhalt, hpre, ne_eq, not_true_eq_false,
    if_false, hready, if_true, State.enterOrEnd, hwarp, hhandler, Work.wg_id hg, WorkGroup.warp_wid hw]
  rfl

/-! ## TRAPRET (R303) -/

section
variable {s : State} {c : Ctx} {g : WorkGroup} {w : Warp} (hi : Issues s c g w)
include hi

theorem execTrapret_outside (hm : w.trap.hm = false) : execTrapret s = .next (raiseTrap s c [(0, BitVec.ofNat 64 (c.word % 2 ^ 32))]) := by
  rw [execTrapret, withGroup_issues hi, hm]
  rfl

/-- The handler's stores performed, and TRAPRET counted. -/
def State.handlerDone (s : State) (c : Ctx) : State :=
  (s.drainWhere c.p fun x => x.hm && x.wg == c.wg && x.wid == c.wid && !x.bytes.isEmpty).modWarp c.p c.wg c.wid fun w =>
    { w with retired := w.retired + 1 }

theorem execTrapret_handler (hm : w.trap.hm = true) (hnone : ∀ l ∈ c.lanes, ∀ r ∈ (w.lane l).results, r.hm = false) :
    execTrapret s = .next (if (c.lanes.any fun l => s.storeOpen c.p c.wg c.wid l true) = true then stall s c
      else (returnFromHandler (s.handlerDone c) c.p c.wg c.wid (s.handlerOf c.p g)).settle c.p) := by
  have howes : owesResults c w = false := by
    rw [← Bool.not_eq_true, owesResults_iff]
    rintro ⟨l, hl, r, hr, h⟩
    rw [hnone l hl r hr, hm] at h
    exact Bool.noConfusion h
  rw [execTrapret, withGroup_issues hi, hm, howes, apply_ite Host.Outcome.next]
  rfl

end

/-- The fold that looks for the lowest of some warps. -/
def lowerWarp (m : Option Nat) (x : Nat) : Option Nat :=
  some (match m with
    | some y => if x % 32 < y % 32 then x else y
    | none => x)

theorem foldl_lowerWarp_of_least {k : Nat} : ∀ (ls : List Nat) (m : Option Nat), (∀ j ∈ ls, k % 32 < j % 32 ∨ j = k) →
    (∀ y ∈ m, k % 32 < y % 32 ∨ y = k) → (k ∈ ls ∨ m = some k) → ls.foldl lowerWarp m = some k
  | [], m, _, _, hk => by simpa using hk
  | x :: ls, m, hls, hm, hk => by
    obtain ⟨hx, hls⟩ := List.forall_mem_cons.mp hls
    refine foldl_lowerWarp_of_least ls _ hls ?_ ?_
    · cases m with
      | none => simpa [lowerWarp] using hx
      | some y =>
        have hy := hm y rfl
        simp only [lowerWarp, Option.mem_def, Option.some.injEq, forall_eq']
        split
        · exact hx
        · exact hy
    · rcases hk with hk | rfl
      · rcases List.mem_cons.mp hk with rfl | hk
        · refine .inr ?_
          cases m with
          | none => rfl
          | some y =>
            have hy := hm y rfl
            simp only [lowerWarp, Option.some.injEq]
            split
            · rfl
            · omega
        · exact .inl hk
      · refine .inr ?_
        simp only [lowerWarp, Option.some.injEq]
        split
        · omega
        · rfl

section
variable {s : State} {p wg wid : Nat} {g : WorkGroup} {w : Warp} (hg : (s.work p).wg wg = some g) (hw : g.warp wid = some w) (handler : VAddr)
include hg hw

theorem returnFromHandler_again (hcause : w.trap.cause ≠ 0) :
    returnFromHandler s p wg wid handler = s.modWg p wg fun y => y.enterHandler wid handler := by
  simp only [returnFromHandler, hg, hw, bne_iff_ne.mpr hcause, if_true]

/-- With nothing pending on the warp handled, the lowest warp with a cause is next; with none the work-group resumes. -/
theorem returnFromHandler_settled (hcause : w.trap.cause = 0) : returnFromHandler s p wg wid handler =
    (((g.warps.filter fun x => x.trap.cause != 0).map (·.wid)).foldl lowerWarp none).elim (resumeGroup s p wg) fun k =>
      s.modWg p wg fun y => (y.modWarp wid fun v => { v with trap := { v.trap with hm := false } }).enterHandler k handler := by
  have hcases (o : Option Nat) (a : Nat → State) (b : State) : (match o with
      | some k => a k
      | none => b) = o.elim b a := by cases o <;> rfl
  simp only [returnFromHandler, hg, hw, hcause, bne_self_eq_false, Bool.false_eq_true, if_false]
  exact hcases _ _ _

theorem returnFromHandler_next (hcause : w.trap.cause = 0) {k : Nat} (hk : ∃ v ∈ g.warps, v.wid = k ∧ v.trap.cause ≠ 0)
    (hleast : ∀ v ∈ g.warps, v.trap.cause ≠ 0 → k % 32 < v.wid % 32 ∨ v.wid = k) : returnFromHandler s p wg wid handler =
      s.modWg p wg fun y => (y.modWarp wid fun v => { v with trap := { v.trap with hm := false } }).enterHandler k handler := by
  rw [returnFromHandler_settled hg hw handler hcause, foldl_lowerWarp_of_least (k := k), Option.elim_some]
  · rintro j hj
    obtain ⟨v, hv, rfl⟩ := List.mem_map.mp hj
    obtain ⟨hmem, hne⟩ := List.mem_filter.mp hv
    exact hleast v hmem (bne_iff_ne.mp hne)
  · exact fun _ h => nomatch h
  · obtain ⟨v, hv, hwid, hne⟩ := hk
    exact .inl (List.mem_map.mpr ⟨v, List.mem_filter.mpr ⟨hv, bne_iff_ne.mpr hne⟩, hwid⟩)

theorem returnFromHandler_resumes (hnone : ∀ v ∈ g.warps, v.trap.cause = 0) :
    returnFromHandler s p wg wid handler = resumeGroup s p wg := by
  have hfilter : (g.warps.filter fun x => x.trap.cause != 0) = [] := by
    rw [List.filter_eq_nil_iff]
    exact fun v hv => by simp [hnone v hv]
  rw [returnFromHandler_settled hg hw handler (hnone w (List.mem_of_find?_eq_some hw)), hfilter]
  rfl

end

/-- Settles O41: the entry by what its warp delivers, TRAPRET by what is pending once the handler's stores are performed. -/
theorem handlerEntryAndReturn : Obligations.HandlerEntryAndReturn := by
  unfold Obligations.HandlerEntryAndReturn
  refine ⟨fun s p wg wid b g w hp hg hw hhalt hpre hready hhandler hb => ?entry, fun m b => lowestBit_eq_some, fun s c g w hi =>
    ⟨fun hm => execTrapret_outside hi hm, fun hm hnone hopen => ?waits, ?returns⟩⟩
  case entry =>
    obtain ⟨hwid, hmasks, htrap, hcur⟩ := w.writeEnded_stands
    have hv : (w.writeEnded.deliver (s.handlerOf p g)) = _ := Warp.deliver_eq (b := b) (by rwa [htrap]) _
    have hid : ∀ h : WorkGroup, ((h.othersWritten wid).enterHandler wid (s.handlerOf p g)).id = h.id := fun _ => rfl
    refine ⟨_, _, w.writeEnded.deliver (s.handlerOf p g), execHandlerEntry_enters hp hg hw hhalt hpre hready hhandler hb,
      State.modWg_wg hg hid, ?_, rfl, ?_⟩
    · exact WorkGroup.modWarp_warp (WorkGroup.othersWritten_warp hw) fun v => (v.writeEnded.deliver_wid _).trans v.writeEnded_stands.1
    · rw [hv, htrap]
      exact ⟨rfl, rfl, rfl, rfl, rfl, hmasks, hcur⟩
  case waits =>
    rw [exec_trapret, execTrapret_handler hi hm hnone, if_pos (List.any_eq_true.mpr hopen)]
  case returns =>
    intro hm hnone hclosed h s1 g1 w1 hg1 hw1
    have hany : ¬(c.lanes.any fun l => s.storeOpen c.p c.wg c.wid l true) = true := by
      rw [List.any_eq_true]
      rintro ⟨l, hl, ho⟩
      rw [hclosed l hl] at ho
      exact Bool.noConfusion ho
    rw [exec_trapret, execTrapret_handler hi hm hnone, if_neg hany]
    refine ⟨fun hcause => ?_, fun hcause k hk hleast => ?_, fun hzero => ?_⟩
    · exact congrArg (fun t : State => Host.Outcome.next (t.settle c.p)) (returnFromHandler_again hg1 hw1 h hcause)
    · exact congrArg (fun t : State => Host.Outcome.next (t.settle c.p)) (returnFromHandler_next hg1 hw1 h hcause hk hleast)
    · exact congrArg (fun t : State => Host.Outcome.next (t.settle c.p)) (returnFromHandler_resumes hg1 hw1 h hzero)

end Sys2Proof.Machine
end

section
/-! Privileged instructions (R300 to R310): the level that each form needs, control and status registers. -/
namespace Sys2Proof.Machine

/-! ## The level (R300, R301) -/

/-- An instruction of a level, whatever its operands. -/
def OfLevel (level : Nat) (i : Instr) : Prop := ∀ s, ∃ writes reads k, exec i s = systemOp level writes reads k s

section
variable {s : State} {c : Ctx} {g : WorkGroup} {w : Warp} (hi : Issues s c g w)
include hi

theorem systemOp_below {level : Nat} (h : privOf g w < level) (writes reads : List RegUse) (k : Ctx → WorkGroup → Warp → Out) :
    systemOp level writes reads k s = .next (raiseTrap s c [(4, BitVec.ofNat 64 (c.word % 2 ^ 32))]) := by
  rw [systemOp, withGroup_issues hi, if_pos h]
  rfl

theorem systemOp_permitted {level : Nat} (h : level ≤ privOf g w) {writes reads : List RegUse} (ho : OperandsOk c w [c.l0] writes reads)
    (k : Ctx → WorkGroup → Warp → Out) : systemOp level writes reads k s = k c g w := by
  rw [systemOp, withGroup_issues hi, if_neg (Nat.not_lt.mpr h), withRegs_ok ho]

theorem OfLevel.below {level : Nat} {i : Instr} (hlevel : OfLevel level i) (h : privOf g w < level) :
    exec i s = .next (raiseTrap s c [(4, BitVec.ofNat 64 (c.word % 2 ^ 32))]) := by
  obtain ⟨writes, reads, k, hexec⟩ := hlevel s
  rw [hexec, systemOp_below hi h]

/-- A read of a register is an instruction of the register's level. -/
theorem execCsrr_register (u : Bool) (d : Nat) {n : Nat} (hn : n < 13) : execCsrr u d n s =
    systemOp (readLevel n) [(d, 2)] [] (fun c _ _ => .next (retire (giveAll s c (pairOf d (s.csrValue c g w n))) c)) s := by
  rw [execCsrr, withGroup_issues hi, if_neg (Nat.not_le.mpr hn)]

/-- So is a write of a register that has a write level. -/
theorem execCsrw_register (u : Bool) (a : Nat) {n level : Nat} (hn : n < 13) (hlevel : writeLevel n = some level) : execCsrw u a n s =
    systemOp level [] [(a, 2)] (fun c _ _ => match s.csrWrite c w n (w.pair a c.l0) with
      | some s' => .next (retire s' c)
      | none => trapWord s c causeOperand) s := by
  rw [execCsrw, withGroup_issues hi, if_neg (Nat.not_le.mpr hn), hlevel] <;>
  rfl

theorem execCsrw_readOnly (u : Bool) (a : Nat) {n : Nat} (hlevel : writeLevel n = none) :
    execCsrw u a n s = .next (raiseTrap s c [(1, BitVec.ofNat 64 (c.word % 2 ^ 32))]) := by
  rw [execCsrw, withGroup_issues hi, hlevel, ite_self]
  rfl

theorem execCsrr_unassigned (u : Bool) (d : Nat) {n : Nat} (hn : 13 ≤ n) :
    execCsrr u d n s = .next (raiseTrap s c [(1, BitVec.ofNat 64 (c.word % 2 ^ 32))]) := by
  rw [execCsrr, withGroup_issues hi, if_pos hn]
  rfl

theorem execCsrw_unassigned (u : Bool) (a : Nat) {n : Nat} (hn : 13 ≤ n) :
    execCsrw u a n s = .next (raiseTrap s c [(1, BitVec.ofNat 64 (c.word % 2 ^ 32))]) := by
  rw [execCsrw, withGroup_issues hi, if_pos hn]
  rfl

end

theorem privOf_eq (g : WorkGroup) (w : Warp) : privOf g w = if w.trap.hm then (if g.priv = 0 then 1 else g.priv) else g.priv := by
  unfold privOf
  congr 1
  split <;> omega

/-- Settles O43: every form is a `systemOp` of its level. -/
theorem privilegedFormsTrapBelowTheirLevel : Obligations.PrivilegedFormsTrapBelowTheirLevel := by
  unfold Obligations.PrivilegedFormsTrapBelowTheirLevel
  intro u d a b s c g w hi
  refine ⟨privOf_eq g w, ?_⟩
  have hread {n level : Nat} (hn : n < 13) (hlevel : readLevel n = level) (hlow : privOf g w < level) :
      exec (.csrr u d n) s = .next (raiseTrap s c [(4, BitVec.ofNat 64 (c.word % 2 ^ 32))]) := by
    rw [exec_csrr, execCsrr_register hi u d hn, hlevel, systemOp_below hi hlow]
  have hwrite {n level : Nat} (hn : n < 13) (hlevel : writeLevel n = some level) (hlow : privOf g w < level) :
      exec (.csrw u a n) s = .next (raiseTrap s c [(4, BitVec.ofNat 64 (c.word % 2 ^ 32))]) := by
    rw [exec_csrw, execCsrw_register hi u a hn hlevel, systemOp_below hi hlow]
  simp only [List.forall_mem_cons, List.not_mem_nil, false_implies, implies_true, and_true]
  have hwatch : OfLevel 1 (.watch u a b) := fun s => ⟨_, _, _, exec_watch u a b s⟩
  have htlbinv : OfLevel 2 (.tlbinv u a b) := fun s => ⟨_, _, _, exec_tlbinv u a b s⟩
  have hcinv : OfLevel 2 (.cinv u a b) := fun s => ⟨_, _, _, exec_cinv u a b s⟩
  have hclklock : OfLevel 2 (.clklock u a b) := fun s => ⟨_, _, _, exec_clklock u a b s⟩
  have htokxfer : OfLevel 3 (.tokxfer u d a b) := fun s => ⟨_, _, _, exec_tokxfer u d a b s⟩
  exact ⟨hwatch.below hi, htlbinv.below hi, hcinv.below hi, hclklock.below hi, htokxfer.below hi, hread (by decide) rfl, hread (by decide) rfl,
    hread (by decide) rfl, hread (by decide) rfl, hread (by decide) rfl, hread (by decide) rfl, hread (by decide) rfl,
    hread (by decide) rfl, hread (by decide) rfl, hwrite (by decide) rfl, hwrite (by decide) rfl, hwrite (by decide) rfl,
    hwrite (by decide) rfl, hwrite (by decide) rfl, hwrite (by decide) rfl⟩

/-! ## Registers read and written (R309, R310) -/

theorem bitsOf_top (v : DWord) : bitsOf v.toNat 63 21 = v.toNat / 2 ^ 21 := by
  have hlt := v.isLt
  rw [bitsOf]
  omega

/-- HSTATE is written unless a reserved field is set. -/
theorem TrapState.writeHstate_eq (t : TrapState) (v : DWord) : t.writeHstate v.toNat =
    if v.toNat / 2 ^ 21 ≠ 0 ∨ v.toNat / 2 ^ 13 % 8 ≠ 0 ∨ v.toNat / 2 ^ 5 % 8 ≠ 0 ∨ v.toNat / 2 ^ 3 % 2 ≠ 0 then none
    else some { t with hlane := v.toNat / 2 ^ 8 % 32, ss := decide (v.toNat / 2 ^ 4 % 2 = 1) } := by
  rw [TrapState.writeHstate, bitsOf_top]
  rfl

section
variable {s : State} {c : Ctx} {g : WorkGroup} {w : Warp} (hi : Issues s c g w)
include hi

/-- CSRR at the register's level gives its value, 0 for one of the handler's outside handler mode. -/
theorem execCsrr_reads {u : Bool} {d n : Nat} (hn : n < 13) (hlevel : readLevel n ≤ privOf g w) (ho : OperandsOk c w [c.l0] [(d, 2)] [])
    {v : Nat} (hv : s.csrValue c g w n = BitVec.ofNat 64 v) : execCsrr u d n s =
      .next (answer s c fun _ => [(d, BitVec.ofNat 32 v), (d + 1, BitVec.ofNat 32 (v / 2 ^ 32))]) := by
  rw [execCsrr_register hi u d hn, systemOp_permitted hi hlevel ho, hv, pairOf_ofNat]
  rfl

variable {u : Bool} {a n level : Nat} (hn : n < 13) (hwrite : writeLevel n = some level) (hlevel : level ≤ privOf g w)
  (ho : OperandsOk c w [c.l0] [] [(a, 2)])
include hn hwrite hlevel ho

theorem execCsrw_writes {s' : State} (h : s.csrWrite c w n (w.pair a c.l0) = some s') : execCsrw u a n s = .next (retire s' c) := by
  simp only [execCsrw_register hi u a hn hwrite, systemOp_permitted hi hlevel ho, h]

theorem execCsrw_illegal (h : s.csrWrite c w n (w.pair a c.l0) = none) :
    execCsrw u a n s = .next (raiseTrap s c [(1, BitVec.ofNat 64 (c.word % 2 ^ 32))]) := by
  simp only [execCsrw_register hi u a hn hwrite, systemOp_permitted hi hlevel ho, h]
  rfl

end

/-- A register of the handler reads 0 outside handler mode (R309). -/
theorem csrValue_handler (s : State) (c : Ctx) (g : WorkGroup) (w : Warp) {n v : Nat} (hh : handlerReg n = true)
    (hv : w.trap.hm = true → s.csrValue c g w n = BitVec.ofNat 64 v) :
    s.csrValue c g w n = BitVec.ofNat 64 (if w.trap.hm then v else 0) := by
  cases hm : w.trap.hm with
  | true => exact hv hm
  | false => simp only [State.csrValue, hh, hm, Bool.not_false, Bool.and_self, if_true, Bool.false_eq_true, if_false, BitVec.ofNat_eq_ofNat]

section
variable (s : State) (c : Ctx) (w : Warp) (v : DWord)

theorem csrWrite_handler_outside (hm : w.trap.hm = false) {n : Nat} (hh : handlerReg n = true) : s.csrWrite c w n v = none := by
  simp only [State.csrWrite, hh, hm, Bool.not_false, Bool.and_self, if_true]

/-- CAUSE bits written 1 are cleared. -/
theorem csrWrite_cause (hm : w.trap.hm = true) : s.csrWrite c w 0 v = some (s.modWarp c.p c.wg c.wid fun y => { y with trap := { y.trap with
    cause := y.trap.cause &&& ~~~(BitVec.ofNat 32 (v.toNat % 2 ^ 32)),
    tvals := y.trap.tvals.filter fun e => !(v.toNat % 2 ^ 32).testBit e.1 } }) := by
  have hlo : v.lo = BitVec.ofNat 32 (v.toNat % 2 ^ 32) := BitVec.eq_of_toNat_eq (by simp [DWord.lo])
  have hbit (i : Nat) : v.lo.getLsbD i = (v.toNat % 2 ^ 32).testBit i := by
    rw [BitVec.getLsbD, DWord.lo, BitVec.toNat_setWidth]
  simp only [State.csrWrite, hm, Bool.not_true, Bool.and_false, Bool.false_eq_true, if_false, hbit]
  rw [hlo]

theorem csrWrite_hstate : s.csrWrite c w 2 v = (w.trap.writeHstate v.toNat).map fun t =>
    s.modWarp c.p c.wg c.wid fun y => { y with trap := t } := rfl

theorem csrWrite_hpc (hm : w.trap.hm = true) : s.csrWrite c w 3 v = if v.toNat % 4 ≠ 0 ∨ 2 ^ 56 ≤ v.toNat then none
    else some (s.modWarp c.p c.wg c.wid fun y => if (y.lane y.trap.hlane).status = .running then
      { y with trap := { y.trap with edits := put y.trap.edits y.trap.hlane (v.setWidth 56) } } else y) := by
  simp only [State.csrWrite, hm, Bool.not_true, Bool.and_false, Bool.false_eq_true, if_false]

theorem csrWrite_budget : s.csrWrite c w 6 v = some (s.modWarp c.p c.wg c.wid fun y =>
    { y with phase := { y.phase with budget := v.toNat % 2 ^ 32 } }) := by
  rw [show v.toNat % 2 ^ 32 = v.lo.toNat from (BitVec.toNat_setWidth 32 v).symm]
  rfl

theorem csrWrite_floor : s.csrWrite c w 10 v = some (if 320 < v.toNat / 2 ^ 32 % 2 ^ 16 then s
    else { s with power := { s.power with floor := v.toNat / 2 ^ 32 % 2 ^ 16 } }) := rfl

theorem csrWrite_gatebase : s.csrWrite c w 11 v = some (s.modPart c.p fun y => { y with gatebase := v }) := rfl

end

/-- The edit of a running lane's PC. -/
theorem hpcEdited_warp {s : State} {p wg wid : Nat} {w : Warp} (hw : s.warp p wg wid = some w) (v : DWord)
    (hrun : (w.lane w.trap.hlane).status = .running) : ∃ y, (s.modWarp p wg wid fun y => if (y.lane y.trap.hlane).status = .running then
      { y with trap := { y.trap with edits := put y.trap.edits y.trap.hlane (v.setWidth 56) } } else y).warp p wg wid = some y ∧
        y.lanes = w.lanes ∧ find y.trap.edits w.trap.hlane = some (BitVec.ofNat 56 v.toNat) := by
  refine ⟨{ w with trap := { w.trap with edits := put w.trap.edits w.trap.hlane (v.setWidth 56) } }, ?_, rfl, ?_⟩
  · rw [State.modWarp_warp_same, hw, Option.map_some, if_pos hrun]
    intro y
    split <;> rfl
  · refine (find_put_same _ _ _).trans (congrArg some (BitVec.eq_of_toNat_eq ?_))
    rw [BitVec.toNat_setWidth, BitVec.toNat_ofNat]

/-- Settles O42: what each register reads as, and what `State.csrWrite` makes of each. -/
theorem controlRegistersReadAndWritten : Obligations.ControlRegistersReadAndWritten := by
  unfold Obligations.ControlRegistersReadAndWritten
  intro u d a n s c g w hi illegal x t hpc
  refine ⟨fun hn => ⟨execCsrr_unassigned hi u d hn, execCsrw_unassigned hi u a hn⟩, fun ho => ?reads, fun hn => ?readOnly, ?writes⟩
  case reads =>
    have hread {k v level : Nat} (hlevel : readLevel k = level) (hk : k < 13) (hv : s.csrValue c g w k = BitVec.ofNat 64 v)
        (h : level ≤ privOf g w) :
        exec (.csrr u d k) s = .next (answer s c fun _ => [(d, BitVec.ofNat 32 v), (d + 1, BitVec.ofNat 32 (v / 2 ^ 32))]) :=
      execCsrr_reads (u := u) hi hk (hlevel.trans_le h) ho hv
    have hlit {k v : Nat} (h : handlerReg k = true) (hv : w.trap.hm = true → s.csrValue c g w k = BitVec.ofNat 64 v) :=
      csrValue_handler s c g w h hv
    have hset (hm : w.trap.hm = true) (k : Nat) : (handlerReg k && !w.trap.hm) = false := by rw [hm, Bool.not_true, Bool.and_false]
    simp only [List.forall_mem_cons, List.not_mem_nil, false_implies, implies_true, and_true]
    refine ⟨hread rfl (by decide) (hlit rfl fun hm => ?_), hread rfl (by decide) (hlit rfl fun hm => ?_), hread rfl (by decide) ?_,
      hread rfl (by decide) (hlit rfl fun hm => ?_), hread rfl (by decide) (hlit rfl fun hm => ?_), hread rfl (by decide) rfl,
      hread rfl (by decide) rfl, hread rfl (by decide) rfl, hread rfl (by decide) rfl, hread rfl (by decide) rfl, hread rfl (by decide) rfl,
      hread rfl (by decide) rfl, hread rfl (by decide) ?_⟩
    · rw [State.csrValue, hset hm]; rfl
    · rw [State.csrValue, hset hm]; rfl
    · rw [← bit_mul, ← bit_mul]; rfl
    · rw [State.csrValue, hset hm]; rfl
    · rw [State.csrValue, hset hm]; rfl
    · rw [← bit_mul]; rfl
  case readOnly =>
    have hnone : writeLevel n = none := by
      rcases hn with rfl | rfl | rfl | rfl | rfl | rfl | rfl <;> rfl
    exact execCsrw_readOnly hi u a hnone
  case writes =>
    intro ho v lo set
    refine ⟨fun hlevel => ⟨fun hm => ?outside, fun hm => ?handler, ?hstate, ?reserved, ?budget⟩, fun hlevel => ⟨?floor, ?gatebase⟩⟩
    case outside =>
      exact ⟨execCsrw_illegal (u := u) hi (by decide) rfl hlevel ho (csrWrite_handler_outside s c w _ hm rfl),
        execCsrw_illegal (u := u) hi (by decide) rfl hlevel ho (csrWrite_handler_outside s c w _ hm rfl)⟩
    case handler =>
      refine ⟨execCsrw_writes (u := u) hi (by decide) rfl hlevel ho (csrWrite_cause s c w _ hm), fun hal hlt hrun => ?_, fun hbad => ?_⟩
      · have hok : ¬(v.toNat % 4 ≠ 0 ∨ 2 ^ 56 ≤ v.toNat) := by omega
        obtain ⟨y, hy, hlanes, hedit⟩ := hpcEdited_warp (s := s) (p := c.p) (wg := c.wg) (wid := c.wid) (w := w)
          (by rw [State.warp, hi.2.1]; exact hi.2.2) v hrun
        exact ⟨_, y, execCsrw_writes (u := u) hi (by decide) rfl hlevel ho ((csrWrite_hpc s c w v hm).trans (if_neg hok)), hy, hlanes, hedit⟩
      · exact execCsrw_illegal (u := u) hi (by decide) rfl hlevel ho ((csrWrite_hpc s c w v hm).trans (if_pos hbad))
    case hstate =>
      intro h1 h2 h3 h4
      refine execCsrw_writes (u := u) hi (by decide) rfl hlevel ho ?_
      rw [csrWrite_hstate, TrapState.writeHstate_eq, if_neg]
      · rfl
      · rintro (h | h | h | h)
        exacts [h h1, h h2, h h3, h h4]
    case reserved =>
      intro hbad
      refine execCsrw_illegal (u := u) hi (by decide) rfl hlevel ho ?_
      rw [csrWrite_hstate, TrapState.writeHstate_eq, if_pos hbad]
      rfl
    case budget => exact execCsrw_writes (u := u) hi (by decide) rfl hlevel ho (csrWrite_budget s c w _)
    case floor => exact execCsrw_writes (u := u) hi (by decide) rfl hlevel ho (csrWrite_floor s c w _)
    case gatebase => exact execCsrw_writes (u := u) hi (by decide) rfl hlevel ho (csrWrite_gatebase s c w _)

end Sys2Proof.Machine
end

section
/-! Maintenance, watchpoints, sleep (R304 to R307) and power (R308). -/
namespace Sys2Proof.Machine

/-! ## TLBINV and CINV (R306, R307) -/

theorem bitsOf_word_top {n : Nat} (h : n < 2 ^ 32) (lo : Nat) (hlo : lo < 32) : bitsOf n 31 lo = n / 2 ^ lo := by
  have hpow : 2 ^ 32 = 2 ^ (32 - lo) * 2 ^ lo := by rw [← Nat.pow_add, Nat.sub_add_cancel (Nat.le_of_lt hlo)]
  rw [bitsOf, Nat.mod_eq_of_lt]
  rw [Nat.div_lt_iff_lt_mul (by positivity)]
  exact h.trans_eq hpow

/-- The entries that TLBINV takes out (R306): every one, those that cover the address, those under one table of formats. -/
def tlbGone (ctl va : Nat) (x : Partition) (t : TlbEntry) : Bool :=
  match ctl with
  | 0 => true
  | 1 => decide (t.base ≤ va) && decide (va < t.base + t.size)
  | _ => t.ofTable x.aliastab

/-- TLBINV once its operand passes and no multicast store is open: the lane's stores first, then the entries, then what waits under them. -/
def State.translationsGone (s : State) (c : Ctx) (ctl : Nat) (gone : Partition → TlbEntry → Bool) : State :=
  retire (((s.drainLane c.p c.wg c.wid c.l0).modPart c.p fun x => { x with tlb := x.tlb.filter fun t => !gone x t }).drainWhere c.p fun y =>
    !y.spad && y.bytes.any fun e => ctl == 0 || ((s.part c.p).tlb.filter (gone (s.part c.p))).any fun t => t.holds e.1) c

/-- Once an L1 has lost a line, no read there finds what had been overwritten in it. -/
theorem Late.dropped_hides {x : Late} {p : Nat} (hl1 : x.l1 = true) (hp : p ∈ x.parts) (k : Nat) (who : Nat × Nat × Nat) (cached : Bool) :
    (x.dropped p none).shows p k who cached = false ∧ (x.dropped p (some k)).shows p k who cached = false := by
  have hhere : (x.l1 && x.parts.contains p) = true := by simpa [hl1] using hp
  have hall : x.dropped p none = x.saw (2048 + p) := by
    unfold Late.dropped
    exact if_pos hhere
  have hone : x.dropped p (some k) = x.saw k := by
    unfold Late.dropped
    exact if_pos hhere
  obtain ⟨hseen, -, heq⟩ := x.saw_spec (2048 + p)
  refine ⟨?_, ?_⟩
  · have hsame : ((x.saw (2048 + p)).l1 && (x.saw (2048 + p)).parts.contains p) = true := by
      rw [heq]
      exact hhere
    rw [hall, Late.shows, hsame]
    simp [hseen]
  · rw [hone, Late.shows]
    simp [(x.saw_spec k).1]

/-- CINV in modes 2 and 3: no range, and the L1s of the partition or of the core. -/
theorem dropLines_whole (s : State) (p core : Nat) (spans : List (Nat × Nat)) :
    s.dropLines p core 2 spans = { s with late := s.late.map fun x => x.dropped p none } ∧
      s.dropLines p core 3 spans = { s with late := s.late.map fun x => x.dropped p (some core) } := ⟨rfl, rfl⟩

section
variable {s : State} {c : Ctx} {g : WorkGroup} {w : Warp} (hi : Issues s c g w) {a b ctl va : Nat}
  (hctl : (w.reg b c.l0).toNat = ctl) (hva : (w.pair a c.l0).toNat = va)
include hi hctl

section
variable (hlevel : 2 ≤ privOf g w) (ho : OperandsOk c w [c.l0] [] [(a, 2), (b, 1)]) (u : Bool)
include hlevel ho

theorem execTlbinv_illegal (h : 2 < ctl ∨ (ctl ≠ 1 ∧ a ≠ 0)) :
    execTlbinv u a b s = .next (raiseTrap s c [(1, BitVec.ofNat 64 (c.word % 2 ^ 32))]) := by
  rw [execTlbinv, systemOp_permitted hi hlevel ho, hctl, if_pos h]
  rfl

theorem execTlbinv_waits (h : ¬(2 < ctl ∨ (ctl ≠ 1 ∧ a ≠ 0))) (hopen : s.storeOpen c.p c.wg c.wid c.l0 false = true) :
    execTlbinv u a b s = .next (stall s c) := by
  rw [execTlbinv, systemOp_permitted hi hlevel ho, hctl, if_neg h, if_pos hopen]

theorem execCinv_illegal (h : 2 ^ 30 ≤ ctl) : execCinv u a b s = .next (raiseTrap s c [(1, BitVec.ofNat 64 (c.word % 2 ^ 32))]) := by
  have hlt : ctl < 2 ^ 32 := hctl ▸ (w.reg b c.l0).isLt
  have htop : bitsOf ctl 31 30 ≠ 0 := by
    rw [bitsOf_word_top hlt 30 (by decide)]
    omega
  rw [execCinv, systemOp_permitted hi hlevel ho, hctl]
  exact if_pos (.inl htop)

theorem execCinv_whole {mode : Nat} (hmode : 2 ≤ mode) (hle : mode ≤ 3) (h : ctl = mode * 2 ^ 28) (ha : a = 0) :
    execCinv u a b s = .next (retire (s.dropLines c.p g.core mode []) c) := by
  have hbits : bitsOf ctl 29 28 = mode := by
    rw [bitsOf]
    omega
  have hok : ¬(bitsOf ctl 31 30 ≠ 0 ∨ (2 ≤ mode ∧ (a ≠ 0 ∨ bitsOf ctl 27 0 ≠ 0))) := by
    simp only [bitsOf]
    omega
  rw [execCinv, systemOp_permitted hi hlevel ho, hctl]
  dsimp only
  rw [hbits]
  exact (if_neg hok).trans (if_pos hmode)

include hva

theorem execTlbinv_done (h : ¬(2 < ctl ∨ (ctl ≠ 1 ∧ a ≠ 0))) (hclosed : s.storeOpen c.p c.wg c.wid c.l0 false = false) :
    execTlbinv u a b s = .next (s.translationsGone c ctl (tlbGone ctl va)) := by
  rw [execTlbinv, systemOp_permitted hi hlevel ho, hctl, if_neg h, hclosed, if_neg Bool.false_ne_true, hva]
  rfl

theorem execCinv_range {mode : Nat} (hmode : ctl / 2 ^ 28 = mode) (hlt : mode < 2) (hal : va % 128 = 0)
    (hok : s.cinvFault c g va (128 * (ctl % 2 ^ 28)) = none) : execCinv u a b s =
      .next (retire (s.dropLines c.p g.core mode ((s.walkView c c.l0).spansOf c.p (g.core / 64 / 3) va (128 * (ctl % 2 ^ 28)))) c) := by
  have hbits : bitsOf ctl 29 28 = mode := by
    rw [bitsOf]
    omega
  have hcount : bitsOf ctl 27 0 = ctl % 2 ^ 28 := by
    rw [bitsOf]
    omega
  have hbad : ¬(bitsOf ctl 31 30 ≠ 0 ∨ (2 ≤ mode ∧ (a ≠ 0 ∨ ctl % 2 ^ 28 ≠ 0))) := by
    rw [bitsOf]
    omega
  rw [execCinv, systemOp_permitted hi hlevel ho, hctl, hva]
  dsimp only
  rw [hbits, hcount]
  refine (if_neg hbad).trans ((if_neg (Nat.not_le.mpr hlt)).trans ((if_neg (not_not.mpr hal)).trans ?_))
  rw [hok]
  rfl

theorem execCinv_misaligned (hlt : ctl < 2 ^ 29) (hal : va % 128 ≠ 0) :
    execCinv u a b s = .next (raiseTrap s c [(21, BitVec.ofNat 64 va)]) := by
  have hmode : ¬2 ≤ bitsOf ctl 29 28 := by
    rw [bitsOf]
    omega
  have hbad : ¬(bitsOf ctl 31 30 ≠ 0 ∨ (2 ≤ bitsOf ctl 29 28 ∧ (a ≠ 0 ∨ bitsOf ctl 27 0 ≠ 0))) := by
    rintro (h | h)
    · rw [bitsOf] at h
      omega
    · exact hmode h.1
  rw [execCinv, systemOp_permitted hi hlevel ho, hctl, hva]
  exact (if_neg hbad).trans ((if_neg hmode).trans (if_pos hal))

end

/-! ## WATCH (R304) -/

variable (hlevel : 1 ≤ privOf g w) (ho : OperandsOk c w [c.l0] [] [(a, 2), (b, 1)]) (u : Bool)
include hlevel ho hva

theorem execWatch_answers : execWatch u a b s =
    if 2 ^ 8 ≤ ctl ∨ 12 < ctl / 2 ^ 4 % 2 ^ 4 then .next (raiseTrap s c [(1, BitVec.ofNat 64 (c.word % 2 ^ 32))])
    else if va % 2 ^ (ctl / 2 ^ 4 % 2 ^ 4) ≠ 0 then .next (raiseTrap s c [(21, BitVec.ofNat 64 va)])
    else .next (retire (s.modWg c.p c.wg fun h =>
      { h with watch := h.watch.set (ctl % 4) ⟨ctl / 4 % 4, ctl / 2 ^ 4 % 2 ^ 4, va⟩ }) c) := by
  have hlt : ctl < 2 ^ 32 := hctl ▸ (w.reg b c.l0).isLt
  have htop : bitsOf ctl 31 8 = ctl / 2 ^ 8 := bitsOf_word_top hlt 8 (by decide)
  have hlen : bitsOf ctl 7 4 = ctl / 2 ^ 4 % 2 ^ 4 := rfl
  have hslot : bitsOf ctl 1 0 = ctl % 4 := congrArg (· % 4) (Nat.div_one ctl)
  have hkind : bitsOf ctl 3 2 = ctl / 4 % 4 := rfl
  rw [execWatch, systemOp_permitted hi hlevel ho, hctl, hva]
  dsimp only
  rw [htop, hlen, hslot, hkind]
  refine if_congr ?_ rfl rfl
  omega

end

/-! ## SLEEP (R305) -/

section
variable {s : State} {c : Ctx} {g : WorkGroup} {w : Warp} (hi : Issues s c g w) (u : Bool) {a : Nat}
include hi

theorem execSleep_handler (hm : w.trap.hm = true) : execSleep u a s = .next (raiseTrap s c [(0, BitVec.ofNat 64 (c.word % 2 ^ 32))]) := by
  rw [execSleep, withGroup_issues hi, if_pos hm]
  rfl

theorem execSleep_outside (hm : w.trap.hm = false) (ho : OperandsOk c w [c.l0] [] [(a, 1)]) {n : Nat}
    (hn : (if (w.reg a c.l0).toNat < 2 ^ 24 then (w.reg a c.l0).toNat else 2 ^ 24) = n) : execSleep u a s =
      .next (if n = 0 then retire s c else (retire s c).modWarp c.p c.wg c.wid fun v =>
        v.modLanes c.lanes fun x => { x with hold := .sleep (s.cycle + n) }) := by
  have hmin : min (w.reg a c.l0).toNat (2 ^ 24) = n := by
    rw [← hn]
    split <;> omega
  rw [execSleep, withGroup_issues hi, hm, if_neg Bool.false_ne_true, withRegs_ok ho, hmin, apply_ite Host.Outcome.next]

end

theorem State.modWarp_congr {s : State} {p wg wid : Nat} {w : Warp} (hw : s.warp p wg wid = some w) {f f' : Warp → Warp} (h : f w = f' w) :
    s.modWarp p wg wid f = s.modWarp p wg wid f' := by
  obtain ⟨g, hg, hwarp⟩ := Option.bind_eq_some_iff.mp hw
  refine State.modWg_congr hg ?_
  rw [WorkGroup.modWarp, WorkGroup.modWarp, updFirst_congr_of_find hwarp h]

/-- SLEEP_WAKE frees the lanes that slept until the same cycle. -/
theorem execSleepWake_frees {s : State} {p wg wid l n : Nat} {w : Warp} (hp : s.issue = .part [p, wg, wid, l])
    (hw : s.warp p wg wid = some w) (hhold : (w.lane l).hold = .sleep n) (hn : n ≤ s.cycle) :
    execSleepWake s = .next (s.modWarp p wg wid fun v => if (v.lane l).hold = .sleep n then
      { v with lanes := v.lanes.map fun x => if x.hold = .sleep n then { x with hold := .free } else x } else v) := by
  simp only [execSleepWake, State.arg_part hp, List.getD_cons_zero, List.getD_cons_succ]
  refine congrArg _ (State.modWarp_congr hw ?_)
  rw [if_pos hhold, hhold]
  exact if_pos hn

/-- Settles O44: each form by its mode and operands, the end of a sleep by the hold of the lane that it names. -/
theorem maintenanceWatchSleepComplete : Obligations.MaintenanceWatchSleepComplete := by
  unfold Obligations.MaintenanceWatchSleepComplete
  refine ⟨?_, fun s p wg wid l n w hp hw hhold hn => execSleepWake_frees hp hw hhold hn⟩
  intro u a b s c g w hi ctl va illegal
  have hctl : (w.reg b c.l0).toNat = ctl := rfl
  have hva : (w.pair a c.l0).toNat = va := rfl
  refine ⟨?maintenance, ?watch, ?sleep, execSleep_handler hi u⟩
  case maintenance =>
    intro hlevel ho flushed open_
    have hgone (hopen : open_ = false) (hmode : ¬(2 < ctl ∨ (ctl ≠ 1 ∧ a ≠ 0))) : exec (.tlbinv u a b) s = .next (flushed (tlbGone ctl va)) :=
      execTlbinv_done hi hctl hva hlevel ho u hmode hopen
    have hrange (mode : Nat) (hmode : ctl / 2 ^ 28 = mode) := execCinv_range hi hctl hva hlevel ho u hmode
    refine ⟨fun hopen h0 ha => ?all, fun hopen h1 => ?one, fun hopen h2 ha => ?table, fun hopen h =>
      execTlbinv_waits hi hctl hlevel ho u (by omega) hopen, fun h => execTlbinv_illegal hi hctl hlevel ho u (by omega), fun h ha => ?parts,
      fun h ha => ?core, fun x who k cached hl1 hp => Late.dropped_hides hl1 hp k who cached, fun hal hok => ⟨fun hlt => ?l2, fun hge hlt => ?l1⟩,
      fun hlt hal => execCinv_misaligned hi hctl hva hlevel ho u hlt hal, execCinv_illegal hi hctl hlevel ho u⟩
    case all =>
      have hevery : tlbGone ctl va = fun _ _ => true := by rw [h0]; rfl
      rw [hgone hopen (by omega), hevery]
    case one =>
      have hcovers : tlbGone ctl va = fun _ t => decide (t.base ≤ va) && decide (va < t.base + t.size) := by rw [h1]; rfl
      rw [hgone hopen (by omega), hcovers]
    case table =>
      have halias : tlbGone ctl va = fun x t => t.ofTable x.aliastab := by rw [h2]; rfl
      rw [hgone hopen (by omega), halias]
    case parts => exact execCinv_whole hi hctl hlevel ho u (mode := 2) (by decide) (by decide) (by omega) ha
    case core => exact execCinv_whole hi hctl hlevel ho u (mode := 3) (by decide) (by decide) h ha
    case l2 => exact hrange 0 (by omega) (by decide) hal hok
    case l1 => exact hrange 1 (by omega) (by decide) hal hok
  case watch =>
    intro hlevel ho len
    rw [exec_watch, execWatch_answers hi hctl hva hlevel ho u]
    refine ⟨fun h => if_pos h, fun hlt hlen hal => ?_, fun hlt hlen hal => ?_⟩
    · exact (if_neg (by omega)).trans (if_pos hal)
    · exact (if_neg (by omega)).trans (if_neg (not_not.mpr hal))
  case sleep =>
    intro hm ho n
    rw [exec_sleep, execSleep_outside hi u hm ho (n := n) rfl]
    exact ⟨fun h => by rw [if_pos h], fun h => by rw [if_neg (Nat.ne_of_gt h)]⟩

end Sys2Proof.Machine
end

section
/-! Power (R308, R355): TOKXFER, CLKLOCK and the effect of a clock lock. -/
namespace Sys2Proof.Machine

/-! ## TOKXFER and CLKLOCK -/

theorem State.sendable_iff (s : State) (n : Nat) : s.sendable n = true ↔ 0 < n ∧ n ≤ s.power.held - s.power.floor := by
  simp [State.sendable, Nat.pos_iff_ne_zero]

theorem clockOk_iff (n : Nat) : clockOk n = true ↔ n = 0 ∨ 600 ≤ n ∧ n ≤ 2400 ∧ n % 100 = 0 := by
  simp only [clockOk, Bool.or_eq_true, Bool.and_eq_true, beq_iff_eq, decide_eq_true_eq, and_assoc]

/-- Tokens sent by a partition's agent: the held count falls, the transfer stands open, and the black box records it. -/
def State.tokensSent (s : State) (p module n : Nat) : State :=
  { s with power := { s.power with held := s.power.held - n, sent := s.power.sent ++ [(module, n)] } }.bbWrite 0x0602 p 0 4
    (module * 2 ^ 16 + n)

theorem State.sendTokens_eq (s : State) (p n : Nat) {module : Nat} (h : module < 2 ^ 16) : s.sendTokens p module n =
    (s.tokensSent p module n).setClock (min (s.tokensSent p module n).power.clock (s.tokensSent p module n).clampClock) := by
  have hmod : module % 65536 = module := Nat.mod_eq_of_lt h
  rw [State.sendTokens, hmod]
  rfl

section
variable {s : State} {c : Ctx} {g : WorkGroup} {w : Warp} (hi : Issues s c g w) {d a b x n : Nat} (u : Bool)
  (hx : (w.reg a c.l0).toNat = x) (hn : (w.reg b c.l0).toNat = n)
include hi hx hn

section
variable (hlevel : 3 ≤ privOf g w) (ho : OperandsOk c w [c.l0] [(d, 1)] [(a, 1), (b, 1)])
include hlevel ho

theorem execTokxfer_answers : execTokxfer u d a b s =
    if 2 ^ 16 ≤ x then .next (raiseTrap s c [(1, BitVec.ofNat 64 (c.word % 2 ^ 32))])
    else if s.sendable n = true then .next (answer (s.sendTokens c.p x n) c fun _ => [(d, BitVec.ofNat 32 n)])
    else .next (answer s c fun _ => [(d, 0)]) := by
  have hreg : w.reg b c.l0 = BitVec.ofNat 32 n := by rw [← hn, BitVec.ofNat_toNat, BitVec.setWidth_eq]
  rw [execTokxfer, systemOp_permitted hi hlevel ho, hx, hn, hreg]
  dsimp only
  cases s.sendable n <;> rfl

end

variable (hlevel : 2 ≤ privOf g w) (ho : OperandsOk c w [c.l0] [] [(a, 1), (b, 1)])
include hlevel ho

theorem execClklock_illegal (h : 2 ^ 8 ≤ x ∨ ¬(n = 0 ∨ 600 ≤ n ∧ n ≤ 2400 ∧ n % 100 = 0)) :
    execClklock u a b s = .next (raiseTrap s c [(1, BitVec.ofNat 64 (c.word % 2 ^ 32))]) := by
  have hbad : 256 ≤ x ∨ 4096 ≤ n ∨ clockOk n = false := by
    rw [← Bool.not_eq_true, clockOk_iff]
    omega
  rw [execClklock, systemOp_permitted hi hlevel ho, hx, hn]
  exact if_pos hbad

variable (hlt : x < 2 ^ 8) (hlegal : n = 0 ∨ 600 ≤ n ∧ n ≤ 2400 ∧ n % 100 = 0)
include hlt hlegal

theorem execClklock_fails (h : s.fabric.inDomain = false ∨ ((s.part c.p).group x).valid = false) : execClklock u a b s =
    .next (retire (s.modPart c.p fun y => { y with clk := { (s.part c.p).clk with err := true } }) c) := by
  have hok : ¬(256 ≤ x ∨ 4096 ≤ n ∨ clockOk n = false) := by
    rw [← Bool.not_eq_true, clockOk_iff]
    omega
  rw [execClklock, systemOp_permitted hi hlevel ho, hx, hn]
  refine (if_neg hok).trans (if_pos ?_)
  simpa using h

theorem execClklock_asks (hdomain : s.fabric.inDomain = true) (hvalid : ((s.part c.p).group x).valid = true)
    (hpending : (s.part c.p).clk.pending = none) : execClklock u a b s =
      .next ((s.modPart c.p fun y => { y with clk := { (s.part c.p).clk with pending := some (x, n, s.time) } }).awaitClock c w x) := by
  have hok : ¬(256 ≤ x ∨ 4096 ≤ n ∨ clockOk n = false) := by
    rw [← Bool.not_eq_true, clockOk_iff]
    omega
  rw [execClklock, systemOp_permitted hi hlevel ho, hx, hn]
  refine (if_neg hok).trans ((if_neg (by simp [hdomain, hvalid])).trans ?_)
  dsimp only
  rw [hpending]

end

/-- What a CLKLOCK that waits leaves: the partition's registers, and one waiter more. -/
theorem State.awaitClock_spec (s : State) (c : Ctx) (w : Warp) (x : Nat) : (s.awaitClock c w x).parts = s.parts ∧
    ((s.awaitClock c w x).work c.p).waiters =
      (s.work c.p).waiters ++ [⟨.clklock x, c.wg, c.wid, if w.trap.hm then [] else c.lanes⟩] := by
  unfold State.awaitClock
  cases w.trap.hm with
  | false => exact ⟨rfl, by simp [pendAt, stall, State.modWarp, State.modWg]⟩
  | true => exact ⟨rfl, by simp [stall, State.modWarp, State.modWg]⟩

/-! ## The effect of a lock -/

section
variable {s : State} {mhz p : Nat}

theorem State.clampLock_keeps (h : (s.part p).clk.mhz ≤ mhz) : s.clampLock mhz p = s := by
  rw [State.clampLock, if_pos h]

/-- A lock above the clamp's clock is left with the error bit and a record (R355). -/
theorem State.clampLock_leaves (h : mhz < (s.part p).clk.mhz) : s.clampLock mhz p =
    (s.modPart p fun x => { x with clk := { (s.part p).clk with err := true, mhz := 0 } }).bbWrite 0x0601 p 0 4 (s.part p).clk.group := by
  rw [State.clampLock]
  exact if_neg (Nat.not_le.mpr h)

variable (s mhz p)

theorem State.clampLock_works : (s.clampLock mhz p).works = s.works := by
  rcases Nat.lt_or_ge mhz (s.part p).clk.mhz with h | h
  · rw [State.clampLock_leaves h]
    rfl
  · rw [State.clampLock_keeps h]

end

theorem nub_replicate_cons {α : Type} [DecidableEq α] {x : α} : ∀ {l : List α}, (∀ y ∈ l, y = x) → nub (x :: l) = [x]
  | [], _ => rfl
  | y :: l, h => by
    obtain ⟨rfl, hl⟩ := List.forall_mem_cons.mp h
    have ih := nub_replicate_cons hl
    rw [nub, ih]
    simp

/-- A lock concerns the one partition of a group that has no other member. -/
theorem State.lockParts_alone {s : State} {p a : Nat} (h : ∀ m ∈ ((s.part p).group a).members, m = (s.fabric.module, p)) :
    s.lockParts p a = [p] := by
  refine nub_replicate_cons fun k hk => ?_
  obtain ⟨m, hm, rfl⟩ := List.mem_map.mp hk
  rw [h m (List.mem_of_mem_filter hm)]

theorem State.elsewhere_alone {s : State} {p a : Nat} (h : ∀ m ∈ ((s.part p).group a).members, m = (s.fabric.module, p)) :
    s.elsewhere p a = false := by
  rw [State.elsewhere, List.any_eq_false]
  intro m hm
  rw [h m hm]
  simp [State.isLocal]

section
variable {s : State} {p a mhz since : Nat} (hpending : (s.part p).clk.pending = some (a, mhz, since))
  (hmembers : ∀ m ∈ ((s.part p).group a).members, m = (s.fabric.module, p)) (hdue : slotAt s.fabric.slot (since + 1000) ≤ s.time)
  (hwaiters : (s.work p).waiters = [])
include hpending hmembers

theorem State.lockAsks_alone : s.lockAsks p a = [(mhz, since)] := by
  rw [State.lockAsks, State.lockParts_alone hmembers]
  simp [hpending]

include hdue hwaiters

/-- The lock of a lone partition is in force, and left at once when the clamp's clock is lower. -/
theorem State.clockEffect_alone : s.clockEffect p a =
    (s.modPart p fun y => { y with clk := ⟨false, a, mhz, none⟩ }).clampLock s.power.clock p := by
  have hasks := State.lockAsks_alone hpending hmembers
  have hparts := State.lockParts_alone hmembers
  have helse := State.elsewhere_alone hmembers
  have hlock : s.lockDue p a = true := by simp [State.lockDue, hasks, hparts, hdue]
  have hclocks (t : State) (ht : t.works = s.works) : t.endClocks p = t := by
    have hwork : (t.work p).clocks = [] := by
      rw [State.work, ht, Work.clocks, show (findD s.works p Work.empty).waiters = [] from hwaiters]
      rfl
    rw [State.endClocks, hwork]
    rfl
  simp only [State.clockEffect, hasks, hparts, helse, hlock, Bool.false_eq_true, false_and, or_false, if_false, reduceCtorEq, zero_ne_one,
    List.map_cons, List.map_nil, List.headD_cons, List.all_cons, List.all_nil, beq_self_eq_true, Bool.and_true, if_true, List.foldl_cons,
    List.foldl_nil]
  exact hclocks _ (State.clampLock_works _ _ _)

end

/-- Settles O45: TOKXFER and CLKLOCK by what they check, and the lock of a lone partition by the clamp's clock. -/
theorem powerInstructionsComplete : Obligations.PowerInstructionsComplete := by
  unfold Obligations.PowerInstructionsComplete
  refine ⟨?instructions, ?effect⟩
  case instructions =>
    intro u d a b s c g w hi x n illegal
    have hx : (w.reg a c.l0).toNat = x := rfl
    have hn : (w.reg b c.l0).toNat = n := rfl
    refine ⟨fun hlevel ho => ?tokens, fun hlevel ho => ?clock⟩
    case tokens =>
      have hanswers := execTokxfer_answers hi u hx hn hlevel ho
      refine ⟨fun h => hanswers.trans (if_pos h), fun hlt h => ?_, fun hlt hpos hle => ?_⟩
      · have hno : ¬s.sendable n = true := by
          rw [State.sendable_iff]
          omega
        exact hanswers.trans ((if_neg (Nat.not_le.mpr hlt)).trans (if_neg hno))
      · refine ⟨hanswers.trans ((if_neg (Nat.not_le.mpr hlt)).trans ((if_pos ((s.sendable_iff n).mpr ⟨hpos, hle⟩)).trans ?_)), rfl⟩
        rw [s.sendTokens_eq c.p n hlt]
        rfl
    case clock =>
      intro legal clk
      refine ⟨fun h => execClklock_illegal hi u hx hn hlevel ho h, fun hlt hlegal h => execClklock_fails hi u hx hn hlevel ho hlt hlegal h,
        fun hlt hlegal hdomain hvalid hpending => ?_⟩
      obtain ⟨hparts, hwaiters⟩ := State.awaitClock_spec
        (s.modPart c.p fun y => { y with clk := { (s.part c.p).clk with pending := some (x, n, s.time) } }) c w x
      refine ⟨_, execClklock_asks hi u hx hn hlevel ho hlt hlegal hdomain hvalid hpending, ?_, hwaiters⟩
      rw [State.part, hparts]
      exact congrArg Partition.clk (State.modPart_part_same _ _ _)
  case effect =>
    intro s p a mhz since x hp hparts hpending hmembers hdue hwaiters
    have hpart : s.part p = x := by simp [State.part, hparts, findD, find]
    rw [← hpart] at hpending hmembers
    have heffect : exec .clockLockEffect s =
        .next ((s.modPart p fun y => { y with clk := ⟨false, a, mhz, none⟩ }).clampLock s.power.clock p) := by
      rw [exec_clockLockEffect, execClockLockEffect, State.arg_part hp, State.arg_part hp]
      exact congrArg _ (State.clockEffect_alone hpending hmembers hdue hwaiters)
    have hclk : ((s.modPart p fun y => { y with clk := ⟨false, a, mhz, none⟩ }).part p).clk = ⟨false, a, mhz, none⟩ :=
      congrArg Partition.clk (State.modPart_part_same _ _ _)
    refine ⟨fun h => ?keeps, fun h => ?leaves⟩
    case keeps => rw [heffect, State.clampLock_keeps (by rwa [hclk])]
    case leaves =>
      rw [heffect, State.clampLock_leaves (by rwa [hclk]), hclk]
      exact ⟨_, rfl, congrArg Partition.clk (State.modPart_part_same _ _ _), rfl⟩

end Sys2Proof.Machine
end

section
/-! Sequencers: the scalar set (R283, R285), flags (R284), event records (R298) and TTOP slots (R297). -/
namespace Sys2Proof.Machine

/-! ## Two changes of a sequencer in a row -/

theorem State.modSeq_modSeq (s : State) (p id : Nat) {f : Seq → Seq} (hf : ∀ q, (f q).id = q.id) (g : Seq → Seq) :
    (s.modSeq p id f).modSeq p id g = s.modSeq p id fun q => g (f q) := by
  rw [State.modSeq, State.modSeq, State.modWork_modWork]
  refine congrArg (s.modWork p) (funext fun w => ?_)
  rw [Work.modSeq, Work.modSeq, updFirst_updFirst fun q hq => by simpa [hf q] using hq]
  rfl

theorem State.modSeq_seqNext (s : State) (p : Nat) (q : Seq) (word : Nat) {f : Seq → Seq} (hf : ∀ y, (f y).id = y.id) :
    (s.modSeq p q.id f).seqNext p q word = s.modSeq p q.id fun y => { f y with cur := (f y).cur.past (wordSize word) } :=
  State.modSeq_modSeq s p q.id hf _

theorem State.modSeq_seqJump (s : State) (p : Nat) (q : Seq) (t : VAddr) {f : Seq → Seq} (hf : ∀ y, (f y).id = y.id) :
    (s.modSeq p q.id f).seqJump p q t = s.modSeq p q.id fun y => { f y with cur := Cursor.at t } :=
  State.modSeq_modSeq s p q.id hf _

/-! ## Operands and fields -/

/-- A register field that fails stops the sequencer with the operand cause (R281). -/
theorem withSregs_illegal {s : State} {p : Nat} {q : Seq} {word lit : Nat} (h : SeqIssues s p q word lit) {us : List SUse}
    (hu : sregsOk us = false) (k : Nat → Seq → Nat → Nat → Out) : withSregs s us k = .next (s.stopSeq p q true 1 q.pcoff) := by
  simp only [withSregs, withSeq_issues h, hu]
  rfl

theorem sregsOk_false_of_mem {us : List SUse} {r : Nat} (hmem : (r, 1, 1) ∈ us) (hr : 32 ≤ r) : sregsOk us = false := by
  rw [sregsOk, List.all_eq_false]
  refine ⟨_, hmem, ?_⟩
  simp only [Bool.and_eq_true, decide_eq_true_eq, not_and]
  omega

theorem sregsOk_cons {u : SUse} {us : List SUse} (h : u.1 % u.2.2 = 0 ∧ u.1 + u.2.1 ≤ 32) (hus : SregsOk us) : SregsOk (u :: us) :=
  List.forall_mem_cons.mpr ⟨h, hus⟩

theorem signed_eighteen {i : Nat} (hi : i < 2 ^ 18) : signed 18 i = if i < 2 ^ 17 then (i : Int) else (i : Int) - 2 ^ 18 := by
  rw [signed]
  split <;> split <;> omega

theorem Seq.target_eq (q : Seq) {i : Nat} (hi : i < 2 ^ 18) : q.target i =
    BitVec.ofInt 56 ((q.cur.next.toNat : Int) + 4 * if i < 2 ^ 17 then (i : Int) else (i : Int) - 2 ^ 18) := by
  rw [Seq.target, displaced_eq, signed_eighteen hi]

/-! ## The scalar set (R283, R285) -/

section
variable {s : State} {p word lit : Nat} {q : Seq} (hi : SeqIssues s p q word lit)
include hi

/-- A value that is left in an s register, past the instruction. -/
theorem seqNext_setReg (us : List SUse) (hus : SregsOk us) (d : Nat) (v : Seq → Word) :
    withSregs s us (fun p q word _ => .next ((s.modSeq p q.id fun y => y.setReg d (v q)).seqNext p q word)) =
      .next (s.modSeq p q.id fun y => { y with regs := y.regs.set d (v q), cur := y.cur.past (wordSize word) }) := by
  rw [withSregs_ok hi hus, State.modSeq_seqNext _ _ _ _ fun _ => by rfl]
  rfl

theorem execSbnz_answers (u : Bool) {a : Nat} (ha : a < 32) (i : Nat) : execSbnz u a i s =
    .next (if q.reg a ≠ 0 then s.seqJump p q (q.target i) else s.seqNext p q word) :=
  withSregs_ok hi (sregsOk_one ha) _

theorem execSloop_goes (u : Bool) {a : Nat} (ha : a < 32) (i : Nat) (h : q.reg a ≠ 1) : execSloop u a i s =
    .next (s.modSeq p q.id fun y => { y with regs := y.regs.set a (q.reg a - 1), cur := Cursor.at (q.target i) }) := by
  have hv : q.reg a - 1 ≠ 0 := sub_ne_zero.mpr h
  rw [execSloop, withSregs_ok hi (sregsOk_one ha)]
  dsimp only
  rw [if_pos hv, State.modSeq_seqJump _ _ _ _ fun _ => by rfl]
  rfl

theorem execSloop_ends (u : Bool) {a : Nat} (ha : a < 32) (i : Nat) (h : q.reg a = 1) : execSloop u a i s =
    .next (s.modSeq p q.id fun y => { y with regs := y.regs.set a 0, cur := y.cur.past (wordSize word) }) := by
  have hv : q.reg a - 1 = 0 := sub_eq_zero.mpr h
  rw [execSloop, withSregs_ok hi (sregsOk_one ha)]
  dsimp only
  rw [if_neg (not_not.mpr hv), State.modSeq_seqNext _ _ _ _ fun _ => by rfl, hv]
  rfl

/-- A program at its END retires once nothing is in flight. -/
theorem execEndProg_answers : execEndProg s = .next (if q.cmds = [] then (s.modSeq p q.id fun y => { y with ending := true }).retireSeq p q.id
    else s.modSeq p q.id fun y => { y with ending := true }) := by
  have hseq : ((s.modSeq p q.id fun y => { y with ending := true }).work p).seqOf q.id = some { q with ending := true } := by
    rw [State.modSeq, State.modWork_work_same, Work.modSeq_seqOf_same _ _ _ fun _ => by rfl, hi.2]
    rfl
  rw [execEndProg, withSeq_issues hi, State.endIfDone, hseq]
  simp

/-- A register number of 32 or more in a field of one register. -/
theorem withSregs_tooHigh {us : List SUse} {r : Nat} (hr : 32 ≤ r) (hmem : (r, 1, 1) ∈ us) (k : Nat → Seq → Nat → Nat → Out) :
    withSregs s us k = .next (s.stopSeq p q true 1 (q.cur.pc - q.base).toNat) :=
  withSregs_illegal hi (sregsOk_false_of_mem hmem hr) k

end

/-- Settles O47, instruction by instruction. -/
theorem sequencerScalarResults : Obligations.SequencerScalarResults := by
  unfold Obligations.SequencerScalarResults
  intro u d a b i s p word lit q hi hlit size gives imm target illegal
  have htarget : q.target i = target := q.target_eq hlit
  refine ⟨?smov, ?sadd, ?sli, ?sliWide, ?branch, ?swait, ?swaits, ?ends, ?ending, ?source, ?destination⟩
  case smov => exact fun hd ha => seqNext_setReg hi _ (sregsOk_two hd ha) d fun q => q.reg a
  case sadd => exact fun hd ha hb => seqNext_setReg hi _ (sregsOk_cons (u := (d, 1, 1)) ⟨Nat.mod_one d, hd⟩ (sregsOk_two ha hb)) d fun q => q.reg a + q.reg b
  case sli =>
    intro hd
    have hv : signWord 18 i = BitVec.ofInt 32 imm := by rw [signWord, signed_eighteen hlit]
    exact (seqNext_setReg hi _ (sregsOk_one hd) d fun _ => signWord 18 i).trans (congrArg (fun v => (.next (gives d v) : Out)) hv)
  case sliWide => exact fun v hd => seqNext_setReg hi _ (sregsOk_one hd) d fun _ => BitVec.ofNat 32 v
  case branch =>
    intro ha
    refine ⟨fun h => ?_, fun h => ?_, fun h => ?_, fun h => execSloop_ends hi u ha i h⟩
    · rw [exec_sbnz, execSbnz_answers hi u ha, if_pos h, htarget]
      rfl
    · rw [exec_sbnz, execSbnz_answers hi u ha, if_neg (not_not.mpr h)]
      rfl
    · rw [exec_sloop, execSloop_goes hi u ha i h, htarget]
      rfl
  case swait =>
    intro h
    rw [exec_swait, execSwait, withSeq_issues hi, h]
    rfl
  case swaits =>
    intro h
    rw [exec_swait, execSwait, withSeq_issues hi, if_neg (by simpa using h)]
  case ends =>
    intro h
    rw [exec_endProg, execEndProg_answers hi, if_pos h]
  case ending =>
    intro h
    rw [exec_endProg, execEndProg_answers hi, if_neg h]
  case source =>
    exact fun ha => ⟨withSregs_tooHigh hi ha (by simp) _, withSregs_tooHigh hi ha (by simp) _, withSregs_tooHigh hi ha (by simp) _,
      withSregs_tooHigh hi ha (by simp) _⟩
  case destination =>
    exact fun hd => ⟨withSregs_tooHigh hi hd (by simp) _, withSregs_tooHigh hi hd (by simp) _, withSregs_tooHigh hi hd (by simp) _,
      withSregs_tooHigh hi hd (by simp) _⟩

/-! ## Flags (R284): where they stand -/

section
variable {s : State} {p : Nat} {q : Seq} {k : Kind} {addr n : Nat}

theorem State.flagLoc_ok {l : Loc} (h : addr < 2 ^ 56) (halign : addr % n = 0) (hloc : s.memLoc (q.agent p) k addr n true = .ok l) :
    s.flagLoc p q k addr n = .ok l := by
  have htop : addr / 2 ^ 56 = 0 := Nat.div_eq_of_lt h
  rw [State.flagLoc, if_neg (not_not.mpr htop), if_neg (not_not.mpr halign), hloc]

theorem State.flagLoc_wide (h : 2 ^ 56 ≤ addr) :
    s.flagLoc p q k addr n = .error (if q.cls = 4 ∧ addr / 2 ^ 25 = 0x80 * 2 ^ 31 then 5 else 2) := by
  have htop : addr / 2 ^ 56 ≠ 0 := (Nat.div_pos h (by omega)).ne'
  rw [State.flagLoc, if_pos htop]

theorem State.flagLoc_misaligned (h : addr < 2 ^ 56) (halign : addr % n ≠ 0) : s.flagLoc p q k addr n = .error 4 := by
  have htop : addr / 2 ^ 56 = 0 := Nat.div_eq_of_lt h
  rw [State.flagLoc, if_neg (not_not.mpr htop), if_pos halign]

end

section
variable {s : State} {p pa leaf : Nat} (hleaf : leafFmt leaf ≠ 2) (hplace : s.placeOf p pa = .mem)
include hleaf hplace

/-- An access that synchronises finds the memory as it stands. -/
theorem State.fetchLoc_mem (n : Nat) : s.fetchLoc p none (.mem pa leaf) n = .ok (s.mem.bytes pa n, s.mem.poisoned pa n) := by
  have hbytes : s.lateBytes false (findsOn none) pa n = s.mem.bytes pa n := lateBytes_current (fun _ _ _ => rfl) pa n
  simp only [State.fetchLoc, if_neg hleaf, if_pos hplace, hbytes]

theorem State.putLoc_mem (level path : Nat) (bs : List Byte) : s.putLoc p level path (.mem pa leaf) bs false =
    .ok { s.wrote false [p] path [] pa bs.length with mem := s.mem.write pa bs } := by
  simp only [State.putLoc, if_neg hleaf, if_pos hplace]
  rfl

end

theorem ofBytes_append (l l' : List Byte) : ofBytes (l ++ l') = ofBytes l + 256 ^ l.length * ofBytes l' := by
  induction l with
  | nil => simp [ofBytes]
  | cons b r ih =>
    rw [List.cons_append, ofBytes, ih, ofBytes, List.length_cons, Nat.pow_succ]
    ring

theorem ofBytes_lt (l : List Byte) : ofBytes l < 256 ^ l.length := by
  induction l with
  | nil => simp [ofBytes]
  | cons b r ih =>
    have hb : b.toNat < 256 := b.isLt
    rw [ofBytes, List.length_cons, Nat.pow_succ]
    omega

/-- The two words of eight bytes. -/
theorem pairOf_ofBytes (d : Nat) {l l' : List Byte} (hl : l.length = 4) : pairOf d (BitVec.ofNat 64 (ofBytes (l ++ l'))) =
    [(d, BitVec.ofNat 32 (ofBytes l)), (d + 1, BitVec.ofNat 32 (ofBytes l'))] := by
  have hlow : ofBytes l < 2 ^ 32 := by simpa [hl] using ofBytes_lt l
  have hsum : ofBytes (l ++ l') = ofBytes l + 2 ^ 32 * ofBytes l' := by
    rw [ofBytes_append, hl]
    rfl
  have hlo : BitVec.ofNat 32 (ofBytes (l ++ l')) = BitVec.ofNat 32 (ofBytes l) :=
    BitVec.eq_of_toNat_eq (by simp only [BitVec.toNat_ofNat]; omega)
  have hhi : ofBytes (l ++ l') / 2 ^ 32 = ofBytes l' := by omega
  rw [pairOf_ofNat, hlo, hhi]

theorem Memory.bytes_add (m : Memory) (a n k : Nat) : m.bytes a (n + k) = m.bytes a n ++ m.bytes (a + n) k := by
  induction n generalizing a with
  | zero => simp [Memory.bytes]
  | succ n ih => rw [Nat.succ_add, Memory.bytes, ih, Memory.bytes, List.cons_append, Nat.add_assoc, Nat.add_comm 1 n]

theorem Seq.setPair_eq (q : Seq) (r : Nat) {v : DWord} {lo hi : Word} (h : pairOf r v = [(r, lo), (r + 1, hi)]) :
    q.setPair r v = (q.setReg r lo).setReg (r + 1) hi := by
  obtain ⟨hlo, hhi⟩ : v.lo = lo ∧ v.hi = hi := by simpa [pairOf] using h
  rw [Seq.setPair, hlo, hhi]

/-! ## SSIG and SLDA (R284) -/

section
variable {s : State} {p word lit : Nat} {q : Seq} (hi : SeqIssues s p q word lit) {us : List SUse} {a n : Nat}

section
variable (hus : SregsOk ((a, 2, 2) :: us)) (hidle : q.cmds = []) {k : Kind} (f : Seq → Nat → Nat)
include hi hus hidle

theorem ssigOp_stores {pa leaf : Nat} (haddr : (q.pair a).toNat < 2 ^ 56) (halign : (q.pair a).toNat % n = 0)
    (hloc : s.memLoc (q.agent p) k (q.pair a).toNat n true = .ok (.mem pa leaf)) (hleaf : leafFmt leaf ≠ 2) (hplace : s.placeOf p pa = .mem)
    (hsound : (s.mem.poisoned pa n && k.reads) = false) : ssigOp a n us k f s =
      .next (State.seqNext { s.wrote false [p] q.path [] pa n with mem := s.mem.write pa (bytesOf n (f q (ofBytes (s.mem.bytes pa n)))) }
        p q word) := by
  rw [ssigOp, withSregs_ok hi hus]
  simp only [hidle, State.flagLoc_ok haddr halign hloc, State.fetchLoc_mem hleaf hplace, hsound, State.putLoc_mem hleaf hplace, length_bytesOf]
  rfl

theorem ssigOp_stops {t : Nat} (hloc : s.flagLoc p q k (q.pair a).toNat n = .error t) :
    ssigOp a n us k f s = .next (s.stopSeq p q false t q.pcoff) := by
  rw [ssigOp, withSregs_ok hi hus]
  simp only [hidle, hloc]
  rfl

end

include hi

theorem ssigOp_waits (hus : SregsOk ((a, 2, 2) :: us)) (hbusy : q.cmds ≠ []) (k : Kind) (f : Seq → Nat → Nat) :
    ssigOp a n us k f s = .next s := by
  rw [ssigOp, withSregs_ok hi hus]
  exact if_pos (by simpa using hbusy)

theorem sldaOp_loads (hus : SregsOk ((a, 2, 2) :: us)) (d : Nat) {pa leaf : Nat} (haddr : (q.pair a).toNat < 2 ^ 56)
    (halign : (q.pair a).toNat % n = 0) (hloc : s.memLoc (q.agent p) .read (q.pair a).toNat n true = .ok (.mem pa leaf))
    (hleaf : leafFmt leaf ≠ 2) (hplace : s.placeOf p pa = .mem) (hsound : s.mem.poisoned pa n = false) : sldaOp d a n us s =
      .next (((s.bridgeAll q.path).modSeq p q.id fun y => if n = 8 then y.setPair d (BitVec.ofNat 64 (ofBytes (s.mem.bytes pa n)))
        else y.setReg d (DWord.lo (BitVec.ofNat 64 (ofBytes (s.mem.bytes pa n))))).seqNext p q word) := by
  rw [sldaOp, withSregs_ok hi hus]
  simp only [State.flagLoc_ok haddr halign hloc, State.fetchLoc_mem hleaf hplace, hsound]
  rfl

theorem sldaOp_stops (hus : SregsOk ((a, 2, 2) :: us)) (d : Nat) {t : Nat} (hloc : s.flagLoc p q .read (q.pair a).toNat n = .error t) :
    sldaOp d a n us s = .next (s.stopSeq p q false t q.pcoff) := by
  rw [sldaOp, withSregs_ok hi hus]
  simp only [hloc]

theorem execSlda_loads (u : Bool) {d : Nat} (hus : SregsOk [(a, 2, 2), (d, 1, 1)]) {pa leaf : Nat} (haddr : (q.pair a).toNat < 2 ^ 56)
    (halign : (q.pair a).toNat % 4 = 0) (hloc : s.memLoc (q.agent p) .read (q.pair a).toNat 4 true = .ok (.mem pa leaf))
    (hleaf : leafFmt leaf ≠ 2) (hplace : s.placeOf p pa = .mem) (hsound : s.mem.poisoned pa 4 = false) : execSlda u d a s =
      .next ((s.bridgeAll q.path).modSeq p q.id fun y =>
        { y with regs := y.regs.set d (BitVec.ofNat 32 (ofBytes (s.mem.bytes pa 4))), cur := y.cur.past (wordSize word) }) := by
  have hlo : DWord.lo (BitVec.ofNat 64 (ofBytes (s.mem.bytes pa 4))) = BitVec.ofNat 32 (ofBytes (s.mem.bytes pa 4)) :=
    BitVec.eq_of_toNat_eq (by simp only [DWord.lo, BitVec.toNat_setWidth, BitVec.toNat_ofNat]; omega)
  rw [execSlda, sldaOp_loads hi hus d haddr halign hloc hleaf hplace hsound, State.modSeq_seqNext _ _ _ _ fun _ => by rfl, hlo]
  rfl

theorem execSlda64_loads (u : Bool) {d : Nat} (hus : SregsOk [(a, 2, 2), (d, 2, 2)]) {pa leaf : Nat} (haddr : (q.pair a).toNat < 2 ^ 56)
    (halign : (q.pair a).toNat % 8 = 0) (hloc : s.memLoc (q.agent p) .read (q.pair a).toNat 8 true = .ok (.mem pa leaf))
    (hleaf : leafFmt leaf ≠ 2) (hplace : s.placeOf p pa = .mem) (hsound : s.mem.poisoned pa 8 = false) : execSlda64 u d a s =
      .next ((s.bridgeAll q.path).modSeq p q.id fun y =>
        { y with
          regs := (y.regs.set d (BitVec.ofNat 32 (ofBytes (s.mem.bytes pa 4)))).set (d + 1)
            (BitVec.ofNat 32 (ofBytes (s.mem.bytes (pa + 4) 4)))
          cur := y.cur.past (wordSize word) }) := by
  have hsplit : s.mem.bytes pa 8 = s.mem.bytes pa 4 ++ s.mem.bytes (pa + 4) 4 := s.mem.bytes_add pa 4 4
  have hwords := pairOf_ofBytes d (l := s.mem.bytes pa 4) (l' := s.mem.bytes (pa + 4) 4) rfl
  rw [execSlda64, sldaOp_loads hi hus d haddr halign hloc hleaf hplace hsound, hsplit, State.modSeq_seqNext _ _ _ _ fun _ => by rfl]
  simp only [if_pos, Seq.setPair_eq _ d hwords]
  rfl

end

/-! ## Event records (R298) and TTOP (R297) -/

section
variable {s : State} {p word lit : Nat} {q : Seq} (hi : SeqIssues s p q word lit)
include hi

theorem eventOp_takes {d : Nat} (hd : SregsOk [(d, 4, 4)]) {e : EventRec} {r : List EventRec}
    (h : (findD (s.work p).guidons q.cluster ⟨[], []⟩).events = e :: r) (empty : State → Nat → Seq → Nat → State) : eventOp d empty s =
      .next ((s.modWork p fun w =>
        { w with guidons := put w.guidons q.cluster { findD (s.work p).guidons q.cluster ⟨[], []⟩ with events := r } }).modSeq p q.id fun y =>
          { y.takeRecord d e with cur := (y.takeRecord d e).cur.past (wordSize word) }) := by
  rw [eventOp, withSregs_ok hi hd]
  simp only [h]
  rw [State.modSeq_seqNext _ _ _ _ fun _ => by rfl]

theorem eventOp_empty {d : Nat} (hd : SregsOk [(d, 4, 4)]) (h : (findD (s.work p).guidons q.cluster ⟨[], []⟩).events = [])
    (empty : State → Nat → Seq → Nat → State) : eventOp d empty s = .next (empty s p q word) := by
  rw [eventOp, withSregs_ok hi hd]
  simp only [h]

theorem execTtop_answers (u : Bool) {a : Nat} (ha : SregsOk [(a, 2, 2)]) : execTtop u a s =
    .next (if s.nextIsCollective p q = true then
        s.modSeq p q.id fun y => { y with ttop := some (q.pair a).toNat, cur := y.cur.past (wordSize word) }
      else s.stopSeq p q true 0 q.pcoff) := by
  rw [execTtop, withSregs_ok hi ha, State.modSeq_seqNext _ _ _ _ fun _ => by rfl]
  rfl

end

/-! ## A command's slot (R297, R333) -/

theorem Seq.cmd_id {q : Seq} {cid : Nat} {c : Command} (h : q.cmd cid = some c) : c.id = cid := by
  simpa using List.find?_some h

/-- A command that ends with a STAT below 256, which is not that of consumed poison. -/
theorem State.endCmd_eq {s : State} {p id : Nat} {q : Seq} (hq : (s.work p).seqOf id = some q) (cid : Nat) {stat : Nat}
    (h : stat < 256) : s.endCmd p id cid stat = s.modCmd p id cid fun z => { z with wait := .done, stat := stat } := by
  have hsound : s.consumed p q stat = s := if_neg (by unfold statPoison; omega)
  simp only [State.endCmd, hq, hsound, Nat.mod_eq_of_lt h]

section
variable {s : State} {p cid t : Nat} {q : Seq} {c : Command} {op : CmdOp} {args : List Nat} (hissue : s.issue = .part [p, q.id, cid])
  (hq : (s.work p).seqOf q.id = some q) (hc : q.cmd cid = some c) (hwait : c.wait = .slot t op args)
include hissue hq hc hwait

theorem execTtopSlotStart_early (h : s.time < t) : execTtopSlotStart s = .next s := by
  have hcmd : ((s.work p).seqOf q.id >>= fun q => q.cmd cid) = some c := by rw [hq, ← hc]; rfl
  simp only [execTtopSlotStart, State.arg_part hissue, List.getD_cons_zero, List.getD_cons_succ, hcmd, hwait, if_pos h]

theorem execTtopSlotStart_coll (h : t ≤ s.time) {a v o : Nat} {ms : List (Nat × Nat)} {d : List Nat} (hcoll : c.collOf = some (a, v, o, ms, d)) :
    execTtopSlotStart s = .next (if t + s.fabric.slot ≤ s.time then s.failColl p a v o ms 11
      else (s.modCmd p q.id cid fun y => { y with wait := .coll a v o ms d, since := s.time }).tryColl p a v o ms) := by
  have hcmd : ((s.work p).seqOf q.id >>= fun q => q.cmd cid) = some c := by rw [hq, ← hc]; rfl
  simp only [execTtopSlotStart, State.arg_part hissue, List.getD_cons_zero, List.getD_cons_succ, hcmd, hwait, if_neg (Nat.not_lt.mpr h), hcoll,
    Seq.cmd_id hc, decide_eq_true_eq]

theorem execTtopSlotStart_elastic (h : t ≤ s.time) (hop : op = .egjoin ∨ op = .egleave) :
    execTtopSlotStart s = .next (if t + s.fabric.slot ≤ s.time then s.modCmd p q.id cid fun z => { z with wait := .done, stat := 11 }
      else if s.hasAbsent p (args.getD 0 0) = true then s.modCmd p q.id cid fun z => { z with wait := .done, stat := 10 }
      else (s.modCmd p q.id cid fun y => { y with wait := .round (args.getD 0 0) (args.getD 1 0) }).request p q.id cid (args.getD 1 0)
        (args.getD 0 0) (op == .egjoin)) := by
  have hcmd : ((s.work p).seqOf q.id >>= fun q => q.cmd cid) = some c := by rw [hq, ← hc]; rfl
  have hcoll : c.collOf = none := by
    obtain rfl | rfl := hop <;> simp only [Command.collOf, hwait]
  simp only [execTtopSlotStart, State.arg_part hissue, List.getD_cons_zero, List.getD_cons_succ, hcmd, hwait, if_neg (Nat.not_lt.mpr h), hcoll,
    Seq.cmd_id hc, decide_eq_true_eq, State.endCmd_eq hq cid (by decide : 11 < 256), State.endCmd_eq hq cid (by decide : 10 < 256)]

end

/-- Settles O48: the flags first, then records and TTOP, then the slot of a command. -/
theorem sequencerFlagsRecordsAndSlots : Obligations.SequencerFlagsRecordsAndSlots := by
  unfold Obligations.SequencerFlagsRecordsAndSlots
  refine ⟨?issuing, ?slot⟩
  case issuing =>
    intro u d a b s p word lit q hi ha ha' size addr on stops le path wide at_
    have haddr : SregsOk [(a, 2, 2)] := fun r hr => by
      obtain rfl := List.mem_singleton.mp hr
      exact ⟨ha, ha'⟩
    have hone : ∀ {r : Nat}, r < 32 → SregsOk [(a, 2, 2), (r, 1, 1)] := fun hr => sregsOk_cons (u := (a, 2, 2)) ⟨ha, ha'⟩ (sregsOk_one hr)
    have htwo : ∀ {r : Nat}, r % 2 = 0 → r < 32 → SregsOk [(a, 2, 2), (r, 2, 2)] := fun h hr =>
      List.forall_mem_cons.mpr ⟨⟨ha, ha'⟩, fun x hx => by
        obtain rfl := List.mem_singleton.mp hx
        exact ⟨h, show _ + 2 ≤ 32 by omega⟩⟩
    have hle : ∀ n v, le n v = bytesOf n v := fun n v => (bytesOf_eq_map_range n v).symm
    refine ⟨?idle, ?busy, ?slda, ?slda64, ?sldaStops, ?records, ?ttop, ?noTtop⟩
    case idle =>
      refine fun hidle => ⟨?ssig, ?ssig64, ?add, ?outside, ?misaligned⟩
      case ssig =>
        intro pa leaf hb ⟨h56, halign, hloc, hleaf, hplace⟩
        rw [exec_ssig, hle]
        exact ssigOp_stores hi (hone hb) hidle _ h56 halign hloc hleaf hplace (Bool.and_false _)
      case ssig64 =>
        intro pa leaf hb hb' ⟨h56, halign, hloc, hleaf, hplace⟩
        rw [exec_ssig64, hle]
        exact ssigOp_stores hi (htwo hb hb') hidle _ h56 halign hloc hleaf hplace (Bool.and_false _)
      case add =>
        intro pa leaf hb hb' ⟨h56, halign, hloc, hleaf, hplace⟩ hsound
        rw [exec_ssigAdd64, hle, ← Memory.bytes_eq_map_range]
        exact ssigOp_stores hi (htwo hb hb') hidle _ h56 halign hloc hleaf hplace (by rw [hsound]; rfl)
      case outside =>
        rw [exec_ssig]
        exact fun hb h => ssigOp_stops hi (hone hb) hidle _ (State.flagLoc_wide h)
      case misaligned =>
        rw [exec_ssig]
        exact fun hb h halign => ssigOp_stops hi (hone hb) hidle _ (State.flagLoc_misaligned h halign)
    case busy =>
      rw [exec_ssig, exec_ssig64, exec_ssigAdd64]
      exact fun hbusy => ⟨fun hb => ssigOp_waits hi (hone hb) hbusy _ _,
        fun hb hb' => ⟨ssigOp_waits hi (htwo hb hb') hbusy _ _, ssigOp_waits hi (htwo hb hb') hbusy _ _⟩⟩
    case slda =>
      intro pa leaf hd ⟨h56, halign, hloc, hleaf, hplace⟩ hsound
      rw [exec_slda, ← Memory.bytes_eq_map_range]
      exact execSlda_loads hi u (hone hd) h56 halign hloc hleaf hplace hsound
    case slda64 =>
      intro pa leaf hd hd' ⟨h56, halign, hloc, hleaf, hplace⟩ hsound
      rw [exec_slda64, ← Memory.bytes_eq_map_range, ← Memory.bytes_eq_map_range]
      exact execSlda64_loads hi u (htwo hd hd') h56 halign hloc hleaf hplace hsound
    case sldaStops =>
      rw [exec_slda]
      exact fun hd => ⟨fun h => sldaOp_stops hi (hone hd) d (State.flagLoc_wide h),
        fun h halign => sldaOp_stops hi (hone hd) d (State.flagLoc_misaligned h halign)⟩
    case records =>
      intro gd hd hd'
      have hfour : SregsOk [(d, 4, 4)] := fun r hr => by
        obtain rfl := List.mem_singleton.mp hr
        exact ⟨hd, hd'⟩
      rw [exec_evpop, exec_evwait]
      refine ⟨fun e r he => ⟨eventOp_takes hi hfour he _, eventOp_takes hi hfour he _⟩,
        fun he => ⟨?_, eventOp_empty hi hfour he _⟩⟩
      rw [execEvpop, eventOp_empty hi hfour he, State.modSeq_seqNext _ _ _ _ fun _ => by rfl]
      rfl
    case ttop =>
      intro h
      rw [exec_ttop, execTtop_answers hi u haddr, if_pos h]
      rfl
    case noTtop =>
      intro h
      rw [exec_ttop, execTtop_answers hi u haddr, if_neg (Bool.eq_false_iff.mp h)]
      rfl
  case slot =>
    intro s p cid t q c op args hissue hq hc hwait begun failed
    refine ⟨fun h => execTtopSlotStart_early hissue hq hc hwait h, fun h hslot hop habsent => ?_, fun h hslot habsent e he hop => ?_,
      fun h hslot a v o ms d _ hcoll => ?_, fun hslot a v o ms d _ hcoll => ?_, fun hslot hop => ?_⟩
    · rw [exec_ttopSlotStart, execTtopSlotStart_elastic hissue hq hc hwait h hop, if_neg (Nat.not_le.mpr hslot), if_pos habsent]
      rfl
    · have helastic := execTtopSlotStart_elastic hissue hq hc hwait h (by simp at he; obtain rfl | rfl := he <;> simp [hop])
      have hjoin : (op == .egjoin) = e.2 := by simp at he; obtain rfl | rfl := he <;> rw [hop] <;> rfl
      rw [exec_ttopSlotStart, helastic, if_neg (Nat.not_le.mpr hslot), if_neg (Bool.eq_false_iff.mp habsent), hjoin]
      rfl
    · rw [exec_ttopSlotStart, execTtopSlotStart_coll hissue hq hc hwait h hcoll, if_neg (Nat.not_le.mpr hslot)]
      rfl
    · rw [exec_ttopSlotStart, execTtopSlotStart_coll hissue hq hc hwait (by omega) hcoll, if_pos hslot]
    · rw [exec_ttopSlotStart, execTtopSlotStart_elastic hissue hq hc hwait (by omega) hop, if_pos hslot]
      rfl

end Sys2Proof.Machine
end

section
/-! Copy and collective commands at issue (R281, R286 to R292, R295, R296, R341, R412). -/
namespace Sys2Proof.Machine

/-! ## What the search for absent members leaves (R404) -/

/-- Nothing changes but partitions' groups, their work and the black box. -/
def State.KeepsRest (s t : State) : Prop := t = { s with parts := t.parts, works := t.works, bb := t.bb }

theorem State.KeepsRest.refl (s : State) : s.KeepsRest s := rfl

theorem State.KeepsRest.trans {s t u : State} (h : s.KeepsRest t) (h' : t.KeepsRest u) : s.KeepsRest u :=
  Eq.trans h' (congrArg (fun x : State => { x with parts := u.parts, works := u.works, bb := u.bb }) h)

theorem State.KeepsRest.fabric {s t : State} (h : s.KeepsRest t) : t.fabric = s.fabric := by rw [h]

theorem State.KeepsRest.time {s t : State} (h : s.KeepsRest t) : t.time = s.time := by
  rw [h]
  rfl

theorem State.KeepsRest.foldl {α : Type} {f : State → α → State} (hf : ∀ s x, State.KeepsRest s (f s x)) (l : List α) (s : State) :
    s.KeepsRest (l.foldl f s) := by
  induction l generalizing s with
  | nil => exact .refl s
  | cons x r ih => exact (hf s x).trans (ih _)

theorem State.KeepsRest.ite {s t u : State} {c : Prop} [Decidable c] (ht : s.KeepsRest t) (hu : s.KeepsRest u) :
    s.KeepsRest (if c then t else u) := by
  split
  · exact ht
  · exact hu

theorem State.failColl_keepsRest (s : State) (p a ver ord : Nat) (ms : List Member) (stat : Nat) :
    s.KeepsRest (s.failColl p a ver ord ms stat) := by
  unfold State.failColl
  refine .foldl (fun s k => ?_) _ s
  exact .ite rfl (.ite (.refl s) (.ite rfl (.refl s)))

theorem State.endCmd_keepsRest (s : State) (p id cid stat : Nat) : s.KeepsRest (s.endCmd p id cid stat) := by
  unfold State.endCmd
  cases (s.work p).seqOf id with
  | none => rfl
  | some q =>
    refine .trans (t := s.consumed p q stat) ?_ rfl
    exact .ite rfl (.refl s)

theorem State.failColls_keepsRest (s : State) (p a : Nat) (m : Member) : s.KeepsRest (s.failColls p a m) := by
  unfold State.failColls
  refine .foldl (fun s e => ?_) _ s
  cases e.2.collOf with
  | none => exact .ite (s.endCmd_keepsRest p e.1 e.2.id 10) (.refl s)
  | some c => exact .ite (s.failColl_keepsRest p _ _ _ _ 10) (.refl s)

theorem State.markAbsent_keepsRest (s : State) (p a : Nat) (m : Member) : s.KeepsRest (s.markAbsent p a m) := by
  unfold State.markAbsent
  dsimp only
  cases indexOf (· == m) ((s.part p).group a).members with
  | none => exact .refl s
  | some i =>
    refine .ite (.refl s) ?_
    rfl

theorem State.recordAbsent_keepsRest (s : State) (p a : Nat) (m : Member) : s.KeepsRest (s.recordAbsent p a m) :=
  .foldl (fun s k => (s.markAbsent_keepsRest k a m).trans (State.failColls_keepsRest _ k a m)) _ s

theorem State.findAbsent_keepsRest (s : State) (p a : Nat) : s.KeepsRest (s.findAbsent p a) := by
  unfold State.findAbsent
  refine .foldl (fun s e => ?_) _ s
  exact .ite (s.recordAbsent_keepsRest p a e.2) (.refl s)

/-! ## Issue -/

theorem sregsOk_nil : SregsOk [] := List.forall_mem_nil _

theorem sregsOk_reg {r : Nat} {us : List SUse} (hr : r < 32) (hus : SregsOk us) : SregsOk ((r, 1, 1) :: us) :=
  sregsOk_cons (u := (r, 1, 1)) ⟨Nat.mod_one r, hr⟩ hus

theorem sregsOk_pair {r : Nat} {us : List SUse} (heven : r % 2 = 0) (hr : r < 32) (hus : SregsOk us) : SregsOk ((r, 2, 2) :: us) :=
  sregsOk_cons (u := (r, 2, 2)) ⟨heven, show r + 2 ≤ 32 by omega⟩ hus

/-- A command issued with its whole content: whatever its STAT, a number, and what it is bound to. -/
def State.issuedAs (s : State) (p : Nat) (q : Seq) (word : Nat) (c : Command) : State :=
  ({ s with ids := s.ids + 1 }).modSeq p q.id fun y => { y with cmds := y.cmds ++ [c], ttop := none, cur := y.cur.past (wordSize word) }

/-- The command that an instruction word issues. -/
def State.newCommand (s : State) (q : Seq) (word : Nat) (wait : CmdWait) (stat : Nat) (group bound : Option Nat) : Command :=
  ⟨s.ids, stat, bitsOf word 24 24 == 1, q.pair 30, q.pcoff, wait, [], 0, false, group, bound, s.time⟩

theorem State.issueCmd_eq (s : State) (p : Nat) (q : Seq) (word : Nat) (wait : CmdWait) {stat : Nat} (h : stat < 256)
    (group bound : Option Nat) :
    s.issueCmd p q word wait stat group bound = s.issuedAs p q word (s.newCommand q word wait stat group bound) := by
  have hsound : s.consumed p q stat = s := if_neg (by unfold statPoison; omega)
  simp only [State.issueCmd, hsound, Nat.mod_eq_of_lt h]
  rfl

/-- A command that ends at once with any STAT, that of consumed poison with its record (R394). -/
theorem State.issueCmd_ended (s : State) (p : Nat) (q : Seq) (word stat : Nat) : s.issueCmd p q word .done stat none none =
    State.issuedAs (if stat = 262 then s.bbWrite 0x0202 p q.die 1 6 else s) p q word (s.newCommand q word .done (stat % 256) none none) := by
  simp only [State.issueCmd, State.consumed, statPoison, State.enginePoison]
  rfl

section
variable {s : State} {p word lit : Nat} {q : Seq} (hi : SeqIssues s p q word lit) (hfree : q.cmds.length < 63)
include hi hfree

theorem copyCmd_issues {us : List SUse} (hus : SregsOk us) (k : Nat → Seq → Nat → State) : copyCmd us k s = .next (k p q word) := by
  have hroom : q.full = false := decide_eq_false (Nat.not_le.mpr hfree)
  rw [copyCmd, withSregs_ok hi hus]
  simp only [hroom]
  rfl

/-- A copy command that holds its operands. -/
theorem copyCmd_todo {us : List SUse} (hus : SregsOk us) (op : CmdOp) (args : Seq → List Nat) :
    copyCmd us (fun p q word => s.issueCmd p q word (.todo op (args q)) 0 none none) s =
      .next (s.issuedAs p q word (s.newCommand q word (.todo op (args q)) 0 none none)) := by
  rw [copyCmd_issues hi hfree hus, State.issueCmd_eq _ _ _ _ _ (by omega)]

theorem execAgset_issues (u n : Bool) {a b : Nat} (hus : SregsOk [(a, 1, 1), (b, 2, 2)]) (hlevel : 2 ≤ q.priv) : execAgset u n a b s =
    .next (s.issuedAs p q word (s.newCommand q word (.todo .agset [(q.reg a).toNat, (q.pair b).toNat]) 0 none none)) := by
  have hroom : q.full = false := decide_eq_false (Nat.not_le.mpr hfree)
  rw [execAgset, withSregs_ok hi hus]
  simp only [if_neg (Nat.not_lt.mpr hlevel), hroom, State.issueCmd_eq _ _ _ _ _ (by decide : 0 < 256)]
  rfl

omit hfree in
theorem execAgset_below (u n : Bool) {a b : Nat} (hus : SregsOk [(a, 1, 1), (b, 2, 2)]) (hlevel : q.priv < 2) :
    execAgset u n a b s = .next (s.stopSeq p q true 4 q.pcoff) := by
  rw [execAgset, withSregs_ok hi hus]
  exact if_pos hlevel

section
variable (u n : Bool) {f d a b w : Nat} (hus : SregsOk [(d, 2, 2), (a, 2, 2), (b, 4, 2)]) (hw : (q.reg (b + 2)).toNat = w)
include hus

/-- A form whose product needs a corrected core (R262). -/
theorem execCpym_traps (h : s.seqCore p q % 4 ≠ 0) : execCpym u n 2 d a b s = .next (s.stopSeq p q true 0 q.pcoff) := by
  have hroom : q.full = false := decide_eq_false (Nat.not_le.mpr hfree)
  have hcore : corrected (s.seqCore p q) = false := by rwa [← Bool.not_eq_true, corrected_iff]
  rw [execCpym, withSregs_ok hi hus]
  simp only [hroom, hcore, and_self, if_true]
  rfl

include hw
variable (hcore : f = 2 → s.seqCore p q % 4 = 0)
include hcore

theorem execCpym_answers : execCpym u n f d a b s = .next (s.issuedAs p q word
    (if 2 ^ 28 ≤ w ∨ q.reg (b + 3) ≠ 0 then s.newCommand q word .done 13 none none
    else if w % 64 ≠ 0 then s.newCommand q word .done 14 none none
    else s.newCommand q word (.todo (.cpym f) [(q.pair d).toNat, (q.pair a).toNat, (q.pair b).toNat, w / 2 ^ 25, w % 2 ^ 25]) 0 none none)) := by
  have hroom : q.full = false := decide_eq_false (Nat.not_le.mpr hfree)
  have hcorrected : ¬(f = 2 ∧ corrected (s.seqCore p q) = false) := fun ⟨hf, h⟩ => by
    rw [(corrected_iff _).mpr (hcore hf)] at h
    cases h
  have hlt : w < 2 ^ 32 := hw ▸ (q.reg (b + 2)).isLt
  have hhigh : bitsOf w 31 28 ≠ 0 ↔ 2 ^ 28 ≤ w := by simp only [bitsOf]; omega
  rw [execCpym, withSregs_ok hi hus]
  simp only [hroom, hcorrected, hw, hhigh, if_false]
  by_cases hform : 2 ^ 28 ≤ w ∨ q.reg (b + 3) ≠ 0
  · rw [if_pos hform, if_pos hform, State.issueCmd_eq _ _ _ _ _ (by omega)]
    rfl
  rw [if_neg hform, if_neg hform]
  have hmiddle : bitsOf w 27 25 = w / 2 ^ 25 := by simp only [bitsOf]; omega
  have hlow : bitsOf w 24 0 = w % 2 ^ 25 := by simp only [bitsOf]; omega
  by_cases halign : w % 64 ≠ 0
  · rw [if_pos halign, if_pos halign, State.issueCmd_eq _ _ _ _ _ (by omega)]
    rfl
  · rw [if_neg halign, if_neg halign, hmiddle, hlow, State.issueCmd_eq _ _ _ _ _ (by omega)]
    rfl

end

section
variable (u n : Bool) {d a b t : Nat} (hus : SregsOk [(d, 2, 2), (a, 1, 1), (b, 4, 2)]) (ht : (q.reg a).toNat = t)
include hus ht

theorem execEmblk_noTable (h : 4096 ≤ t) :
    execEmblk u n d a b s = .next (s.issuedAs p q word (s.newCommand q word .done 13 none none)) := by
  rw [execEmblk, copyCmd_issues hi hfree hus]
  simp only [ht, if_pos h, State.issueCmd_eq _ _ _ _ _ (by decide : 13 < 256)]

theorem execEmblk_bound (h : t < 4096) {v : Binding} {pa : Nat} (hv : s.binding p t = .ok v) (hpa : s.busyAt p t v.slot = .ok pa) :
    execEmblk u n d a b s = .next ((s.busy p pa true).issuedAs p q word ((s.busy p pa true).newCommand q word (.todo .emblk
      [(q.pair d).toNat, (q.pair b).toNat, (q.pair (b + 2)).toNat, t, v.slot, v.rows, v.shardlog, v.dirbase, v.rowlen]) 0 none (some pa))) := by
  have hbound : (s.binding p t >>= fun x => (s.busyAt p t x.slot).map fun pa => (x, pa)) = .ok (v, pa) := by
    rw [hv]
    exact congrArg (Except.map fun pa => (v, pa)) hpa
  rw [execEmblk, copyCmd_issues hi hfree hus]
  simp only [ht, if_neg (Nat.not_le.mpr h), hbound, State.issueCmd_eq _ _ _ _ _ (by decide : 0 < 256)]

theorem execEmblk_fails (h : t < 4096) {e : Nat}
    (he : (s.binding p t >>= fun x => (s.busyAt p t x.slot).map fun pa => (x, pa)) = .error e) : execEmblk u n d a b s =
      .next (State.issuedAs (if e = 262 then s.bbWrite 0x0202 p q.die 1 6 else s) p q word (s.newCommand q word .done (e % 256) none none)) := by
  rw [execEmblk, copyCmd_issues hi hfree hus]
  simp only [ht, if_neg (Nat.not_le.mpr h), he, State.issueCmd_ended]

end

section
variable (u n : Bool) {a : Nat} (hus : SregsOk [(a, 2, 2)])
include hus

theorem execColl_read {v : Nat} (hv : s.fetchRecord p q (q.pair a).toNat 64 = .ok v) : execColl u n a s =
    .next (if s.member p ((s.part p).group (collDesc v).ag) = true then s.collStart p q word v (collDesc v)
      else s.issuedAs p q word (s.newCommand q word .done (if (collDesc v).ok v = true then 12 else 13) none none)) := by
  have hstat : (if (collDesc v).ok v = true then 12 else 13) < 256 := by split <;> decide
  rw [execColl, copyCmd_issues hi hfree hus]
  simp only [hv]
  cases s.member p ((s.part p).group (collDesc v).ag) with
  | true => rfl
  | false => exact congrArg _ (State.issueCmd_eq _ _ _ _ _ hstat _ _)

theorem execColl_unread {e : Nat} (he : s.fetchRecord p q (q.pair a).toNat 64 = .error e) : execColl u n a s =
    .next (State.issuedAs (if e = 262 then s.bbWrite 0x0202 p q.die 1 6 else s) p q word (s.newCommand q word .done (e % 256) none none)) := by
  rw [execColl, copyCmd_issues hi hfree hus]
  simp only [he, State.issueCmd_ended]

end
end

/-! ## Joins and leaves (R296) -/

theorem State.begins_congr {s t : State} (h : s.KeepsRest t) (q : Seq) : t.begins q = s.begins q := by
  simp only [State.begins, h.fabric, h.time]

theorem State.elasticStat_lt {s : State} {p a stat : Nat} {q : Seq} {join : Bool} (h : s.elasticStat p q a join = some stat) :
    stat < 256 := by
  rw [State.elasticStat] at h
  split_ifs at h <;> cases h <;> decide

theorem State.elasticStat_foreign {s : State} {p a : Nat} {join : Bool} (q : Seq) (h : ((s.part p).group a).valid = false ∨
    ((s.part p).group a).elastic = false ∨ ((s.part p).group a).members.contains (s.fabric.module, p) = join) :
    s.elasticStat p q a join = some 12 := by
  refine if_pos ?_
  simp only [Bool.or_eq_true, Bool.not_eq_true', beq_iff_eq]
  tauto

section
variable {s : State} {p word lit : Nat} {q : Seq} (hi : SeqIssues s p q word lit) (hfree : q.cmds.length < 63) {d a : Nat}
  (hus : SregsOk [(d, 1, 1), (a, 1, 1)]) {join : Bool} {s0 : State} (hs0 : s.findAbsent p ((q.reg a).toNat % 256) = s0)
include hi hfree hus hs0

theorem elasticOp_fails {stat : Nat} (h : s0.elasticStat p q ((q.reg a).toNat % 256) join = some stat) : elasticOp join d a s =
    .next (s0.issuedAs p q word (s0.newCommand q word .done stat (some ((q.reg a).toNat % 256)) none)) := by
  rw [elasticOp, copyCmd_issues hi hfree hus]
  simp only [hs0, h, State.issueCmd_eq _ _ _ _ _ (State.elasticStat_lt h)]

theorem elasticOp_requests (h : s0.elasticStat p q ((q.reg a).toNat % 256) join = none) (hnow : s0.begins q = .now) : elasticOp join d a s =
    .next ((s0.issuedAs p q word (s0.newCommand q word (.round ((q.reg a).toNat % 256) d) 0 (some ((q.reg a).toNat % 256)) none)).request
      p q.id s0.ids d ((q.reg a).toNat % 256) join) := by
  have hbegins : s.begins q = .now := by rw [← hnow, ← hs0, State.begins_congr (s.findAbsent_keepsRest p _)]
  rw [elasticOp, copyCmd_issues hi hfree hus]
  simp only [hs0, h, hbegins, State.issueCmd_eq _ _ _ _ _ (by decide : 0 < 256)]

end

/-- Settles O50, command by command. -/
theorem copyAndCollectiveCommandsIssue : Obligations.CopyAndCollectiveCommandsIssue := by
  unfold Obligations.CopyAndCollectiveCommandsIssue
  intro u n d a b f s p word lit q hi hfree hd hd' ha ha' hb hb' size cmd issue issued ended traps x r32
  have hb2 : b < 32 := by omega
  have hpairs : SregsOk [(d, 2, 2), (a, 2, 2), (b, 2, 2)] := sregsOk_pair hd hd' (sregsOk_pair ha ha' (sregsOk_pair hb hb2 sregsOk_nil))
  have hquad : SregsOk [(d, 2, 2), (a, 2, 2), (b, 4, 2)] :=
    sregsOk_pair hd hd' (sregsOk_pair ha ha' (sregsOk_cons (u := (b, 4, 2)) ⟨hb, hb'⟩ sregsOk_nil))
  have hstage : SregsOk [(a, 2, 2), (b, 2, 2)] := sregsOk_pair ha ha' (sregsOk_pair hb hb2 sregsOk_nil)
  have hagset : SregsOk [(a, 1, 1), (b, 2, 2)] := sregsOk_reg ha' (sregsOk_pair hb hb2 sregsOk_nil)
  have hemblk : SregsOk [(d, 2, 2), (a, 1, 1), (b, 4, 2)] :=
    sregsOk_pair hd hd' (sregsOk_reg ha' (sregsOk_cons (u := (b, 4, 2)) ⟨hb, hb'⟩ sregsOk_nil))
  have hcoll : SregsOk [(a, 2, 2)] := sregsOk_pair ha ha' sregsOk_nil
  refine ⟨?copies, ?agset, ?agsetBelow, ?cpym, ?cpymTraps, ?noTable, ?emblk, ?unbound, ?busyUnread, ?coll, ?collUnread, ?elastic⟩
  case copies =>
    simp only [List.forall_mem_cons, exec_cpy, exec_gather, exec_scatter, exec_stage, exec_topk]
    exact ⟨copyCmd_todo hi hfree hpairs _ _, copyCmd_todo hi hfree hquad _ _, copyCmd_todo hi hfree hquad _ _,
      copyCmd_todo hi hfree hstage _ _, copyCmd_todo hi hfree hpairs _ _, List.forall_mem_nil _⟩
  case agset =>
    rw [exec_agset]
    exact execAgset_issues hi hfree u n hagset
  case agsetBelow =>
    rw [exec_agset]
    exact execAgset_below hi u n hagset
  case cpym =>
    intro hcore
    rw [exec_cpym, execCpym_answers hi hfree u n hquad (w := r32 (b + 2)) rfl hcore]
    have hzero : r32 (b + 3) ≠ 0 ↔ q.reg (b + 3) ≠ 0 := not_congr ⟨fun h => BitVec.eq_of_toNat_eq h, fun h => congrArg BitVec.toNat h⟩
    refine ⟨fun hlt hz => ?_, fun h => ?_⟩
    · have hform : ¬(2 ^ 28 ≤ r32 (b + 2) ∨ q.reg (b + 3) ≠ 0) := by
        rw [← hzero]
        omega
      rw [if_neg hform]
      refine ⟨fun halign => ?_, fun halign => ?_⟩
      · rw [if_neg (not_not.mpr halign)]
        rfl
      · rw [if_pos halign]
        rfl
    · rw [if_pos (by rwa [hzero] at h)]
      rfl
  case cpymTraps =>
    rw [exec_cpym]
    exact execCpym_traps hi hfree u n hquad
  case noTable =>
    rw [exec_emblk]
    exact execEmblk_noTable hi hfree u n hemblk rfl
  case emblk =>
    rw [exec_emblk]
    exact fun v pa h hv hpa => execEmblk_bound hi hfree u n hemblk rfl h hv hpa
  case unbound =>
    intro e h hv
    rw [exec_emblk]
    exact execEmblk_fails hi hfree u n hemblk rfl h (by rw [hv]; rfl)
  case busyUnread =>
    intro v e h hv he
    rw [exec_emblk]
    exact execEmblk_fails hi hfree u n hemblk rfl h (by rw [hv]; exact congrArg (Except.map fun pa => (v, pa)) he)
  case coll =>
    intro v hv c
    rw [exec_coll, execColl_read hi hfree u n hcoll hv]
    refine ⟨fun h => ?_, fun h => ?_⟩
    · rw [if_neg (Bool.eq_false_iff.mp h)]
      rfl
    · rw [if_pos h]
  case collUnread =>
    rw [exec_coll]
    exact fun e he => execColl_unread hi hfree u n hcoll he
  case elastic =>
    intro id s0
    have hus : SregsOk [(d, 1, 1), (a, 1, 1)] := sregsOk_two hd' ha'
    have hframe : s.KeepsRest s0 := s.findAbsent_keepsRest p id
    have hnew : ∀ wait stat, s0.newCommand q word wait stat (some id) none = { cmd wait stat (some id) none with id := s0.ids } :=
      fun wait stat => by simp only [State.newCommand, hframe.time]; rfl
    have hforeign := fun join => State.elasticStat_foreign (s := s0) (p := p) (a := id) (join := join) q
    rw [hframe.fabric] at hforeign
    simp only [List.forall_mem_cons, exec_egjoin, exec_egleave]
    refine ⟨⟨fun st hst => ?_, fun hst hnow => ?_, hforeign true⟩, ⟨fun st hst => ?_, fun hst hnow => ?_, hforeign false⟩, List.forall_mem_nil _⟩
    all_goals rw [← hnew]
    · exact elasticOp_fails hi hfree hus rfl hst
    · exact elasticOp_requests hi hfree hus rfl hst hnow
    · exact elasticOp_fails hi hfree hus rfl hst
    · exact elasticOp_requests hi hfree hus rfl hst hnow

end Sys2Proof.Machine
end

section
/-! The effects of commands (R281, R287, R250 to R254, R261), how they end and stop their sequencer (R143, R400, R401). -/
namespace Sys2Proof.Machine

/-! ## The end of a command's effect -/

/-- The effect of a command ends with the STAT of consumed poison, and the record of it. -/
theorem State.endCmd_poisoned {s : State} {p id : Nat} {q : Seq} (hq : (s.work p).seqOf id = some q) (cid : Nat) :
    s.endCmd p id cid 262 = (s.bbWrite 0x0202 p q.die 1 6).modCmd p id cid fun z => { z with wait := .done, stat := 6 } := by
  simp only [State.endCmd, hq]
  rfl

theorem State.ownsTiles_iff (s : State) (p : Nat) (q : Seq) : s.ownsTiles p q = true ↔ (s.coreOf (s.seqCore p q)).owner = q.wg := beq_iff_eq

/-! ## The effect in one step, or the first turn of a product -/

/-- Commands whose effect is one step that gives their STAT. -/
def oneStepOps : List CmdOp := [.tcfg, .tzero, .twr, .accrd true, .accrd false, .accnorm, .cpy, .gather, .scatter, .stage, .topk]

/-- No command before it in its sequencer names the tile of a command. -/
def Seq.tileFree (q : Seq) (c : Command) : Prop := (c.tile.map (q.tileBefore c.id)).getD false = false

theorem Seq.tileFree_of {q : Seq} {c : Command} (h : ∀ t, c.tile = some t → ∀ y ∈ q.cmds.takeWhile (·.id != c.id), y.tile ≠ some t) :
    q.tileFree c := by
  unfold Seq.tileFree
  cases hc : c.tile with
  | none => rfl
  | some t => simpa [Seq.tileBefore] using h t hc

section
variable {s : State} {p cid : Nat} {q : Seq} {c : Command} (hissue : s.issue = .part [p, q.id, cid])
  (hq : (s.work p).seqOf q.id = some q) (hc : q.cmd cid = some c)
include hissue hq hc

theorem execEngineCommandComplete_runs : execEngineCommandComplete s = .next ((s.runCmd p q c).finishCmd p q.id cid) := by
  simp only [execEngineCommandComplete, State.arg_part hissue, List.getD_cons_zero, List.getD_cons_succ, hq, hc, Seq.cmd_id hc]

theorem execCpymFollowOn_copies {f : Nat} {args : List Nat} (hwait : c.wait = .todo (.cpym f) args) :
    let r := s.copyRun p q (args.getD 0 0) (args.getD 1 0) (args.getD 2 0)
    execCpymFollowOn s = .next (if r.2 = 0 then
        r.1.modCmd p q.id cid fun y => { y with wait := .follow f (args.getD 3 0) (args.getD 4 0) }
      else r.1.endCmd p q.id cid r.2) := by
  simp only [execCpymFollowOn, State.arg_part hissue, List.getD_cons_zero, List.getD_cons_succ, hq, hc, hwait, Seq.cmd_id hc]

theorem execCpymFollowOn_follows {f t block : Nat} (hwait : c.wait = .follow f t block) :
    execCpymFollowOn s = .next ((s.bridgePath 2 1).productBegin p q cid f t block) := by
  simp only [execCpymFollowOn, State.arg_part hissue, List.getD_cons_zero, List.getD_cons_succ, hq, hc, hwait, Seq.cmd_id hc]

end

section
variable {p : Nat} {q : Seq} {c : Command} (s : State) {op : CmdOp} {args : List Nat} (hwait : c.wait = .todo op args)
  (hfree : q.tileFree c)
include hwait hfree

theorem State.runCmd_oneStep (hop : op ∈ oneStepOps) :
    s.runCmd p q c = (s.copyEffect p q op args).1.endCmd p q.id c.id (s.copyEffect p q op args).2 := by
  rw [Seq.tileFree] at hfree
  simp only [oneStepOps, List.mem_cons, List.not_mem_nil, or_false] at hop
  rcases hop with rfl | rfl | rfl | rfl | rfl | rfl | rfl | rfl | rfl | rfl | rfl <;> simp only [State.runCmd, hwait, hfree] <;> rfl

theorem State.runCmd_product {kind : Nat} (hop : (op, kind) ∈ [(CmdOp.mma, 0), (.mmas, 1), (.mmao, 2)]) :
    s.runCmd p q c = s.productBegin p q c.id kind (args.getD 0 0) (args.getD 1 0) := by
  rw [Seq.tileFree] at hfree
  simp only [List.mem_cons, List.not_mem_nil, or_false, Prod.mk.injEq] at hop
  rcases hop with ⟨rfl, rfl⟩ | ⟨rfl, rfl⟩ | ⟨rfl, rfl⟩ <;> simp only [State.runCmd, hwait, hfree] <;> rfl

theorem State.runCmd_agset (hop : op = .agset) : s.runCmd p q c =
    (s.agsetRun p q (args.getD 0 0) (args.getD 1 0)).1.endCmd p q.id c.id (s.agsetRun p q (args.getD 0 0) (args.getD 1 0)).2 := by
  rw [Seq.tileFree] at hfree
  subst hop
  simp only [State.runCmd, hwait, hfree]
  rfl

end

/-! ## Effects on tiles -/

theorem State.copyEffect_tileOp (s : State) {p : Nat} {q : Seq} {op : CmdOp} (args : List Nat)
    (hop : op ∈ [CmdOp.tcfg, .tzero, .twr, .accrd true, .accrd false, .accnorm]) : s.copyEffect p q op args = s.matrixRun p q op args := by
  simp only [List.mem_cons, List.not_mem_nil, or_false] at hop
  rcases hop with rfl | rfl | rfl | rfl | rfl | rfl <;> rfl

section
variable {s : State} {p : Nat} {q : Seq} {args : List Nat}

theorem State.matrixRun_foreign (h : s.ownsTiles p q = false) (op : CmdOp) : s.matrixRun p q op args = (s, 9) := by
  unfold State.matrixRun
  exact if_pos (by rw [h]; rfl)

variable (h : s.ownsTiles p q = true)
include h

theorem State.matrixRun_tcfg : s.matrixRun p q .tcfg args =
    (s.setTile (s.seqCore p q) (args.getD 0 0) ((s.tile (s.seqCore p q) (args.getD 0 0)).config (args.getD 1 0)), 0) := by
  unfold State.matrixRun
  exact if_neg (by simp [h])

theorem State.matrixRun_tzero : s.matrixRun p q .tzero args =
    (s.setTile (s.seqCore p q) (args.getD 0 0) ((s.tile (s.seqCore p q) (args.getD 0 0)).modRows (args.getD 2 0) (args.getD 3 64)
      fun _ _ => TileRow.reset (s.tile (s.seqCore p q) (args.getD 0 0)).einit), 0) := by
  unfold State.matrixRun
  exact if_neg (by simp [h])

theorem State.matrixRun_accnorm : s.matrixRun p q .accnorm args =
    (s.setTile (s.seqCore p q) (args.getD 0 0) ((s.tile (s.seqCore p q) (args.getD 0 0)).modRows (args.getD 2 0) (args.getD 3 64)
      fun _ r => r.norm (s.tile (s.seqCore p q) (args.getD 0 0)).h), 0) := by
  unfold State.matrixRun
  exact if_neg (by simp [h])

theorem State.matrixRun_twr : s.matrixRun p q .twr args =
    s.tileWrite p q (args.getD 0 0) (args.getD 1 0) (args.getD 2 0) (args.getD 3 64) := by
  unfold State.matrixRun
  exact if_neg (by simp [h])

theorem State.matrixRun_accrd (clear : Bool) : s.matrixRun p q (.accrd clear) args =
    s.tileRead p q clear (args.getD 0 0) (args.getD 1 0) (args.getD 2 0) (args.getD 3 64) := by
  unfold State.matrixRun
  exact if_neg (by simp [h])

end

theorem Tile.modRows_rows (y : Tile) (lo n : Nat) (g : TileRow → TileRow) : (y.modRows lo n fun _ r => g r) =
    { y with rows := ((List.range y.rows.length).zip y.rows).map fun e => if lo ≤ e.1 ∧ e.1 < lo + n then g e.2 else e.2 } := by
  have hrange : upto 0 y.rows.length = List.range y.rows.length := by rw [upto_eq_map_range]; simp
  rw [Tile.modRows, hrange]

/-! ## Products that end before a port step (R264) -/

section
variable {s : State} {p cid kind t block : Nat} {q : Seq}

theorem State.productBegin_misaligned (h : block % 64 ≠ 0) : s.productBegin p q cid kind t block = s.endCmd p q.id cid 14 := by
  rw [State.productBegin, if_pos h]

theorem State.productBegin_foreign {v : Nat} {b : OpBlock} {data : List Nat} (howns : s.ownsTiles p q = false) (halign : block % 64 = 0)
    (hblock : s.ownNat p q.wg 64 block 64 = some (v, false)) (hop : opBlock v (kind == 1) = some b)
    (hspace : s.stepsInSpace p q.wg kind b = true) (hsteps : b.nstep ≠ 0) (hread : s.readStep p q.wg kind b 0 = some (data, false))
    (hstep : (b.stepOf kind data).isSome) : s.productBegin p q cid kind t block = s.endCmd p q.id cid 9 := by
  have hnone : (b.stepOf kind data).isNone = false := Option.isNone_eq_false_iff.mpr hstep
  have hfirst : s.productStep p q cid kind t v 0 = s.endCmd p q.id cid 9 := by
    unfold State.productStep
    rw [hop]
    dsimp only
    rw [if_neg (Nat.not_le.mpr (Nat.pos_of_ne_zero hsteps)), hread]
    dsimp only
    rw [hnone, howns]
    exact (if_neg Bool.false_ne_true).trans (if_pos ⟨rfl, rfl⟩)
  simp only [State.productBegin, halign, hblock, hop, hspace, Bool.not_true, Bool.false_eq_true, if_false, hfirst, ne_eq, not_true_eq_false]

end

/-! ## The end of a command (R143, R281) -/

/-- The state without a command that has ended; an EMBLK's BUSY count falls (R341). -/
def State.commandGone (s : State) (p id cid : Nat) (c : Command) : State :=
  let left := s.modSeq p id fun y => { y with cmds := y.cmds.filter (·.id != cid) }
  (c.bound.map fun pa => left.busy p pa false).getD left

section
variable {s : State} {p cid : Nat} {q : Seq} {c : Command} (hq : (s.work p).seqOf q.id = some q) (hc : q.cmd cid = some c)
  (hwait : c.wait = .done) (htiles : c.tiles = []) (hclose : c.close = false)

theorem State.commandGone_seqOf (hq : (s.work p).seqOf q.id = some q) (cid : Nat) (c : Command) :
    ((s.commandGone p q.id cid c).work p).seqOf q.id = some { q with cmds := q.cmds.filter (·.id != cid) } := by
  have hleft : ((s.modSeq p q.id fun y => { y with cmds := y.cmds.filter (·.id != cid) }).work p).seqOf q.id =
      some { q with cmds := q.cmds.filter (·.id != cid) } := by
    rw [State.modSeq, State.modWork_work_same, Work.modSeq_seqOf_same _ _ _ fun _ => by rfl, hq]
    rfl
  unfold State.commandGone
  cases c.bound with
  | none => exact hleft
  | some pa => exact hleft

/-- A sequencer that goes on does not retire. -/
theorem State.endIfDone_goesOn {s : State} {p id : Nat} {y : Seq} (hy : (s.work p).seqOf id = some y) (hends : y.ending = false)
    (hstops : y.stopped = false) (hdiscard : y.discard = false) : s.endIfDone p id = s := by
  simp [State.endIfDone, hy, hends, hstops, hdiscard]

include hq hc hwait htiles hclose

theorem State.finishCmd_silent (hnotify : c.notify = false) : s.finishCmd p q.id cid =
    (if c.stat = 0 then s.commandGone p q.id cid c else (s.commandGone p q.id cid c).stopSeq p q false c.stat c.pcoff).endIfDone p q.id := by
  have hwork : ((s.modWork p fun _ => s.work p).modSeq p q.id fun y => { y with cmds := y.cmds.filter (·.id != cid) }) =
      s.modSeq p q.id fun y => { y with cmds := y.cmds.filter (·.id != cid) } := by
    rw [State.modSeq, State.modWork_modWork]
    rfl
  have hready : ¬(c.wait ≠ .done ∨ (!c.tiles.isEmpty) = true) := by simp [hwait, htiles]
  simp only [State.finishCmd, hq, hc, if_neg hready, hnotify, hclose, Bool.false_eq_true, if_false, hwork, State.commandGone]
  cases c.bound <;> rfl

theorem State.finishCmd_notifies (hnotify : c.notify = true) : s.finishCmd p q.id cid =
    (((s.work p).pushEvent q.cluster ⟨q.cls, c.stat, c.tag⟩).map fun w =>
      (if c.stat = 0 then (s.modWork p fun _ => w).commandGone p q.id cid c
        else ((s.modWork p fun _ => w).commandGone p q.id cid c).stopSeq p q false c.stat c.pcoff).endIfDone p q.id).getD s := by
  have hready : ¬(c.wait ≠ .done ∨ (!c.tiles.isEmpty) = true) := by simp [hwait, htiles]
  simp only [State.finishCmd, hq, hc, if_neg hready, hnotify, hclose, Bool.false_eq_true, if_false, if_true, State.commandGone]
  cases (s.work p).pushEvent q.cluster ⟨q.cls, c.stat, c.tag⟩ <;> cases c.bound <;> rfl

end

/-- Settles O51: effects by the kind of command, then the end of a command. -/
theorem commandsHaveTheirEffects : Obligations.CommandsHaveTheirEffects := by
  unfold Obligations.CommandsHaveTheirEffects
  intro s p cid q c hissue hq hc ended stands
  have hid : c.id = cid := Seq.cmd_id hc
  have hstands : ∀ stat, stat < 256 → s.endCmd p q.id cid stat = stands s stat := fun stat h => State.endCmd_eq hq cid h
  rw [exec_engineCommandComplete, exec_cpymFollowOn, execEngineCommandComplete_runs hissue hq hc]
  refine ⟨hstands, State.endCmd_poisoned hq cid, ?_⟩
  intro core owns
  have howns : s.ownsTiles p q = true ↔ owns := s.ownsTiles_iff p q
  refine ⟨?todo, ?product, ?follow, ?misaligned, ?foreign, ?finished⟩
  case todo =>
    intro op args hwait hfirst
    have hfree : q.tileFree c := Seq.tileFree_of (by rwa [hid])
    have hone : op ∈ oneStepOps → ∀ r, s.copyEffect p q op args = r → (Host.Outcome.next ((s.runCmd p q c).finishCmd p q.id cid) : Out) =
        .next (ended r.1 r.2) := by
      rintro hop r rfl
      rw [State.runCmd_oneStep s hwait hfree hop, hid]
    have htileOps : ∀ op ∈ [CmdOp.tcfg, .tzero, .twr, .accrd true, .accrd false, .accnorm], op ∈ oneStepOps := by decide
    have hcopyOps : ∀ op ∈ [CmdOp.cpy, .gather, .scatter, .stage, .topk], op ∈ oneStepOps := by decide
    refine ⟨?noTiles, ?tiles, ?products, fun hop => hone (hcopyOps op hop) _ rfl, ?agset, ?cpym⟩
    case noTiles =>
      intro hno hop
      have hmatrix := State.matrixRun_foreign (args := args) (Bool.eq_false_iff.mpr (mt howns.mp hno)) op
      exact hone (htileOps op hop) (s, 9) ((State.copyEffect_tileOp s args hop).trans hmatrix)
    case tiles =>
      intro hown t a tile set rows
      have hown' : s.ownsTiles p q = true := howns.mpr hown
      have hrows : ∀ g, (s.setTile core t (tile.modRows (args.getD 2 0) (args.getD 3 64) fun _ r => g r), 0) = (set (rows g), 0) :=
        fun g => congrArg (fun y => (set y, 0)) (tile.modRows_rows _ _ g)
      refine ⟨?_, ?_, ?_, ?_, ?_⟩
      · rintro rfl
        exact hone (by decide) (set (tile.config a), 0) (State.matrixRun_tcfg hown')
      · rintro rfl
        exact hone (by decide) (set (rows fun _ => TileRow.reset tile.einit), 0) ((State.matrixRun_tzero hown').trans (hrows _))
      · rintro rfl
        exact hone (by decide) (set (rows (TileRow.norm tile.h)), 0) ((State.matrixRun_accnorm hown').trans (hrows _))
      · rintro rfl
        exact hone (by decide) _ (State.matrixRun_twr hown')
      · rintro clear rfl
        exact hone (by cases clear <;> decide) _ (State.matrixRun_accrd hown' clear)
    case products =>
      intro e he hop
      rw [State.runCmd_product s hwait hfree (kind := e.2) (by rw [hop]; exact he), hid]
    case agset =>
      intro hop
      rw [State.runCmd_agset s hwait hfree hop, hid]
    case cpym =>
      rintro f rfl
      exact execCpymFollowOn_copies hissue hq hc hwait
  case product =>
    intro kind t v k data d hwait
    simp only [State.runCmd, hwait, hid]
  case follow => exact fun f t block hwait => execCpymFollowOn_follows hissue hq hc hwait
  case misaligned => exact fun kind t block h => (State.productBegin_misaligned h).trans (hstands 14 (by decide))
  case foreign =>
    intro kind t block v b hno halign hblock hop hspace hsteps data hread hstep
    have hforeign : s.ownsTiles p q = false := Bool.eq_false_iff.mpr (mt howns.mp hno)
    exact (State.productBegin_foreign hforeign halign hblock hop hspace hsteps hread hstep).trans (hstands 9 (by decide))
  case finished =>
    intro hwait htiles hclose gone goesOn
    have hrun : s.runCmd p q c = s := by simp only [State.runCmd, hwait]
    have hgoesOn : ∀ t : State, (t.work p).seqOf q.id = some q → goesOn →
        (t.commandGone p q.id cid c).endIfDone p q.id = t.commandGone p q.id cid c :=
      fun t ht ⟨hends, hstops, hdiscard⟩ => State.endIfDone_goesOn (State.commandGone_seqOf ht cid c) hends hstops hdiscard
    rw [hrun]
    refine ⟨fun hnotify hstat hon => ?_, ?notifying, fun hnotify hstat => ?_⟩
    case notifying =>
      rintro gd hnotify rfl
      refine ⟨fun hroom hstat hon => ?_, fun hfull => ?_⟩
      · rw [State.finishCmd_notifies hq hc hwait htiles hclose hnotify, Work.pushEvent, if_pos hroom, Option.map_some, Option.getD_some,
          if_pos hstat, hgoesOn _ (by rw [State.modWork_work_same]; exact hq) hon]
        rfl
      · rw [State.finishCmd_notifies hq hc hwait htiles hclose hnotify, Work.pushEvent, if_neg (Nat.not_lt.mpr hfull)]
        rfl
    · rw [State.finishCmd_silent hq hc hwait htiles hclose hnotify, if_pos hstat, hgoesOn s hq hon]
      rfl
    · rw [State.finishCmd_silent hq hc hwait htiles hclose hnotify, if_neg hstat]
      rfl

end Sys2Proof.Machine
end

section
/-! Register allocation (R34, R35, R277, R278). -/
namespace Sys2Proof.Machine

/-! ## Sparse registers -/

theorem find_filter_keys {α : Type} (t : Nat → Bool) (m : Map α) (k : Nat) :
    find (m.filter fun e => t e.1) k = if t k = true then find m k else none := by
  induction m with
  | nil => simp [find]
  | cons e r ih =>
    rw [List.filter_cons]
    by_cases hkey : e.1 = k <;> by_cases ht : t e.1 = true <;> simp_all [find]

theorem find_none_of_keys {α : Type} {m : Map α} {k : Nat} (h : ∀ e ∈ m, e.1 ≠ k) : find m k = none := by
  induction m with
  | nil => rfl
  | cons e r ih =>
    rw [find, if_neg (h e List.mem_cons_self), ih fun e he => h e (List.mem_cons_of_mem _ he)]

theorem regKey_lt_iff {r l n : Nat} (hl : l < 32) : regKey r l < 256 * n ↔ r < 8 * n := by
  unfold regKey
  omega

/-- Registers written nowhere in `m` read zero from the start of the zeroed ones on. -/
theorem Warp.reg_zeroed {w : Warp} {r l : Nat} (hfind : find w.regs (regKey r l) = none) (h : w.zeroed ≤ r) : w.reg r l = 0 := by
  rw [Warp.reg, hfind]
  cases hfill : w.fill with
  | zero => rfl
  | free seed => exact if_pos h

/-- A register reads the same when it is written the same and both sides agree whether it has been zeroed. -/
theorem Warp.reg_congr {v w : Warp} {r l : Nat} (hfind : find v.regs (regKey r l) = find w.regs (regKey r l)) (hfill : v.fill = w.fill)
    (hzeroed : v.zeroed ≤ r ↔ w.zeroed ≤ r) : v.reg r l = w.reg r l := by
  simp only [Warp.reg, hfind, hfill, hzeroed]

theorem Warp.grow_reg {w : Warp} {r l : Nat} (n : Nat) (hl : l < 32) (hregs : ∀ e ∈ w.regs, e.1 < 256 * w.alloc) :
    (w.grow n).reg r l = if 8 * w.alloc ≤ r then 0 else w.reg r l := by
  by_cases hr : 8 * w.alloc ≤ r
  · rw [if_pos hr]
    have hkey : ∀ e ∈ w.regs, e.1 ≠ regKey r l := fun e he h => by
      have hlt := (regKey_lt_iff hl).mp (h ▸ hregs e he)
      omega
    exact Warp.reg_zeroed (find_none_of_keys hkey) ((Nat.min_le_right _ _).trans hr)
  · rw [if_neg hr]
    exact Warp.reg_congr rfl rfl (show min w.zeroed (8 * w.alloc) ≤ r ↔ _ by omega)

theorem Warp.shrink_reg (w : Warp) {n r l : Nat} (hl : l < 32) :
    (w.shrink n).reg r l = if 8 * n ≤ r then 0 else w.reg r l := by
  have hfind : find (w.shrink n).regs (regKey r l) = if r < 8 * n then find w.regs (regKey r l) else none := by
    refine (find_filter_keys (fun k => decide (k < 256 * n)) w.regs (regKey r l)).trans ?_
    simp only [decide_eq_true_eq, regKey_lt_iff hl]
  by_cases hr : 8 * n ≤ r
  · rw [if_pos hr]
    exact Warp.reg_zeroed (hfind.trans (if_neg (Nat.not_lt.mpr hr))) ((Nat.min_le_right _ _).trans hr)
  · rw [if_neg hr]
    exact Warp.reg_congr (hfind.trans (if_pos (Nat.lt_of_not_le hr))) rfl (show min w.zeroed (8 * n) ≤ r ↔ _ by omega)

theorem Warp.SameRegs.reg {v w : Warp} (h : v.SameRegs w) (r l : Nat) : v.reg r l = w.reg r l := by
  obtain ⟨-, -, hregs, hfill, hzeroed⟩ := h
  exact Warp.reg_congr (by rw [hregs]) hfill (by rw [hzeroed])

/-! ## The end of the issue slot -/

theorem Warp.testWaits_alloc (w : Warp) : w.testWaits.alloc = w.alloc := by
  unfold Warp.testWaits
  refine List.foldlRecOn _ _ (motive := fun y : Warp => y.alloc = w.alloc) rfl fun y hy l _ => ?_
  split
  · exact hy
  · exact hy

theorem Warp.stepFlag_alloc (w : Warp) : w.stepFlag.alloc = w.alloc := by
  unfold Warp.stepFlag
  split <;> rfl

theorem Warp.issued_alloc (w : Warp) (ls adv : List Nat) (n : Nat) (skid : Bool) : (w.issued ls adv n skid).alloc = w.alloc := by
  unfold Warp.issued
  split
  · rfl
  · exact (Warp.stepFlag_alloc _).trans (Warp.testWaits_alloc _)

/-- The issuing warp after its slot has the allocation and the registers it had before. -/
theorem retire_warpRegs {s : State} {c : Ctx} {w : Warp} (hw : s.warp c.p c.wg c.wid = some w) :
    ∃ v, (retire s c).warp c.p c.wg c.wid = some v ∧ v.alloc = w.alloc ∧ ∀ r l, v.reg r l = w.reg r l := by
  obtain ⟨v, skid, hv, hskid⟩ := retireTo_warp hw c.lanes
  refine ⟨v, hv, ?_, fun r l => ?_⟩
  · exact (congrArg (·.alloc) hskid).trans (w.issued_alloc _ _ _ _)
  · exact (congrArg (fun y : Warp => y.reg r l) hskid).trans ((issued_same w _ _ _ _).reg r l)

/-! ## The queue of a core -/

theorem Work.growQueue_modWg (w : Work) (id core : Nat) {f : WorkGroup → WorkGroup} (hid : ∀ g, (f g).id = g.id)
    (hcore : ∀ g, (f g).core = g.core) : (w.modWg id f).growQueue core = w.growQueue core := by
  refine List.filterMap_congr fun x _ => ?_
  by_cases hx : x.wg = id
  · rw [hx, Work.modWg_wg_same w id f hid]
    cases x.kind <;> cases w.wg id <;> simp [hcore]
  · rw [Work.modWg_wg_other w f hid hx]

theorem WorkGroup.halted_core (g : WorkGroup) (wid : Nat) : (g.halted wid).core = g.core := by
  unfold WorkGroup.halted
  split <;> rfl

theorem retire_growQueue (s : State) (c : Ctx) (core : Nat) : ((retire s c).work c.p).growQueue core = (s.work c.p).growQueue core := by
  rw [retire, retireTo, State.modWg, State.modWork_work_same]
  refine Work.growQueue_modWg _ _ _ (fun g => ?_) (fun g => ?_) <;> dsimp only <;> split
  · split
    · exact (halted_warp _ _ 0).1
    · rfl
  · rfl
  · split
    · exact WorkGroup.halted_core _ _
    · rfl
  · rfl

theorem State.modWarp_growQueue (s : State) (p wg wid core : Nat) (f : Warp → Warp) :
    ((s.modWarp p wg wid f).work p).growQueue core = (s.work p).growQueue core := by
  rw [State.modWarp, State.modWg, State.modWork_work_same]
  exact Work.growQueue_modWg _ _ _ (fun g => WorkGroup.modWarp_id g _ _) fun _ => rfl

theorem Work.growFits_eq {w : Work} {wg wid : Nat} {g : WorkGroup} {x : Warp} (hg : w.wg wg = some g) (hx : g.warp wid = some x)
    (core n : Nat) : w.growFits core wg wid n = decide (w.usedGranules core + (n - x.alloc) ≤ 256) := by
  have hwarp : (w.wg wg >>= fun g => g.warp wid) = some x := by rw [hg, ← hx]; rfl
  simp only [Work.growFits, hwarp]

theorem issues_warp {s : State} {c : Ctx} {g : WorkGroup} {w : Warp} (hi : Issues s c g w) : s.warp c.p c.wg c.wid = some w := by
  rw [State.warp, hi.2.1, ← hi.2.2]
  rfl

/-! ## REGGROW and REGSHRINK (R277, R278) -/

section
variable {s : State} {c : Ctx} {g : WorkGroup} {w : Warp} (hi : Issues s c g w) (u : Bool) (n : Nat) (hm : w.trap.hm = false)
include hi hm

theorem execReggrow_zero : execReggrow u 0 s = .next (raiseTrap s c [(1, BitVec.ofNat 64 (c.word % 2 ^ 32))]) := by
  rw [execReggrow, withGroup_issues hi, hm]
  rfl

variable {n}

theorem execReggrow_nothing (hn : 1 ≤ n) (h : n ≤ w.alloc) : execReggrow u n s = .next (retire s c) := by
  rw [execReggrow, withGroup_issues hi, hm, if_neg Bool.false_ne_true, if_neg (by omega), if_pos h]

theorem execReggrow_tooMany (hn : 1 ≤ n) (h : w.alloc < n) (hmany : 16 < n ∨ 256 < (s.work c.p).groupGranules g + (n - w.alloc)) :
    execReggrow u n s =
      .next (raiseTrap s c [(3, BitVec.ofNat 64 (n % 256 + (s.work c.p).groupGranules g % 512 * 65536))]) := by
  rw [execReggrow, withGroup_issues hi, hm, if_neg Bool.false_ne_true, if_neg (by omega), if_neg (Nat.not_le.mpr h)]
  exact if_pos hmany

theorem execReggrow_grows (hn : 1 ≤ n) (h : w.alloc < n) (hfew : n ≤ 16) (hroom : (s.work c.p).groupGranules g + (n - w.alloc) ≤ 256)
    (hqueue : (s.work c.p).growQueue g.core = []) (hfits : (s.work c.p).usedGranules g.core + (n - w.alloc) ≤ 256) :
    execReggrow u n s = .next (retire (s.modWarp c.p c.wg c.wid fun v => v.grow n) c) := by
  have hgrant : ((s.work c.p).growQueue g.core).isEmpty = true ∧ (s.work c.p).growFits g.core c.wg c.wid n = true := by
    rw [hqueue, Work.growFits_eq hi.2.1 hi.2.2]
    exact ⟨rfl, decide_eq_true hfits⟩
  rw [execReggrow, withGroup_issues hi, hm, if_neg Bool.false_ne_true, if_neg (by omega), if_neg (Nat.not_le.mpr h)]
  exact (if_neg (by omega)).trans (if_pos hgrant)

theorem execRegshrink_illegal (h : n = 0 ∨ 16 < n) :
    execRegshrink u n s = .next (raiseTrap s c [(1, BitVec.ofNat 64 (c.word % 2 ^ 32))]) := by
  rw [execRegshrink, withGroup_issues hi, hm, if_neg Bool.false_ne_true, if_pos h]
  rfl

theorem execRegshrink_nothing (hn : 1 ≤ n) (hfew : n ≤ 16) (h : w.alloc ≤ n) : execRegshrink u n s = .next (retire s c) := by
  rw [execRegshrink, withGroup_issues hi, hm, if_neg Bool.false_ne_true, if_neg (by omega), if_pos h]

theorem execRegshrink_shrinks (hn : 1 ≤ n) (hfew : n ≤ 16) (h : n < w.alloc) (hready : w.awaitsAbove (8 * n) = false)
    (hqueue : (s.work c.p).growQueue g.core = []) :
    execRegshrink u n s = .next (retire (s.modWarp c.p c.wg c.wid fun v => v.shrink n) c) := by
  have hnone : ((retire (s.modWarp c.p c.wg c.wid fun v => v.shrink n) c).work c.p).growQueue g.core = [] := by
    rw [retire_growQueue, State.modWarp_growQueue, hqueue]
  rw [execRegshrink, withGroup_issues hi, hm, hready, if_neg Bool.false_ne_true, if_neg (by omega), if_neg (Nat.not_le.mpr h),
    if_neg Bool.false_ne_true]
  dsimp only
  rw [hnone]
  rfl

end

/-- Settles O38: the instructions, the grown warp, and the grant to the oldest request. -/
theorem registerAllocationChanges : Obligations.RegisterAllocationChanges := by
  unfold Obligations.RegisterAllocationChanges
  refine ⟨?instructions, ?grown, ?grant⟩
  case instructions =>
    intro u n s c g w hi hm illegal held
    rw [exec_reggrow, exec_regshrink]
    refine ⟨?_, execReggrow_nothing hi u hm, execReggrow_tooMany hi u hm, execReggrow_grows hi u hm, execRegshrink_illegal hi u hm,
      execRegshrink_nothing hi u hm, fun hn hfew h hready hqueue => ?_⟩
    · rintro rfl
      exact execReggrow_zero hi u hm
    · have hw : (s.modWarp c.p c.wg c.wid fun v => v.shrink n).warp c.p c.wg c.wid = some (w.shrink n) := by
        refine (State.modWarp_warp_same s c.p c.wg c.wid (fun v => v.shrink n) fun _ => rfl).trans ?_
        rw [issues_warp hi, Option.map_some]
      obtain ⟨v, hv, halloc, hregs⟩ := retire_warpRegs hw
      exact ⟨_, v, execRegshrink_shrinks hi u hm hn hfew h hready hqueue, hv, halloc, fun r l hl => (hregs r l).trans (w.shrink_reg hl)⟩
  case grown => exact fun w n r l hl _ hregs => ⟨rfl, Warp.grow_reg n hl hregs⟩
  case grant =>
    intro s p core n x g w hissue hqueue hg hw hfits
    have hgrant : (s.work p).growFits core x.wg x.wid n = true := by
      rw [Work.growFits_eq hg hw]
      exact decide_eq_true hfits
    have hone : s.grantGrows p core 1 = (s.modWarp p x.wg x.wid fun v => v.grow n).releaseWaiter p x [] := by
      simp only [State.grantGrows, hqueue, if_pos hgrant]
    rw [exec_reggrowGrant, execReggrowGrant]
    simp only [State.arg_part hissue, List.getD_cons_zero, List.getD_cons_succ, hqueue, List.length_singleton, hone]

end Sys2Proof.Machine
end

section
/-! Tables (R47, R271, R272) and the relation counter (R149). -/
namespace Sys2Proof.Machine

/-! ## One lane that acts for the group (R62, R238, R396) -/

section
variable {s s' : State} {c : Ctx} {u : Bool} {k : Nat} {f : LaneStep} (hk : c.readers u = [k]) (fin : State → State)
include hk

theorem laneByLane_acts {v : List (Nat × Word)} (hf : f s k = .ok (s', v)) : laneByLane s c u fin f = .next (fin (answer s' c fun _ => v)) := by
  simp only [laneByLane, hk, laneSteps, hf, spread_one hk]
  rfl

theorem laneByLane_faults {t : Nat × DWord} (hf : f s k = .error t) :
    laneByLane s c u fin f = .next (raiseTrap (advance (writeLanes s c []) c []) c [t]) := by
  simp only [laneByLane, hk, laneSteps, hf, List.map_nil]

end

/-! ## The relation counter -/

section
variable {s s' : State} {c : Ctx} {g : WorkGroup} {w : Warp} (hi : Issues s c g w) {u release : Bool} {k a : Nat}
  (hk : c.readers u = [k]) (hroom : w.relCount < 63) {writes : List RegUse} (ho : OperandsOk c w [k] writes [(a, 1)])
  {f : Ctx → WorkGroup → Warp → LaneStep}
include hi hk hroom ho

theorem relationCounted_open (hopen : s.laneOpen c.p c.wg c.wid k = true) :
    relationCounted u true writes a f s = .next (stall s c) := by
  have hno : OperandsOk c w [] writes [(a, 1)] := ⟨ho.1, fun _ h => absurd h List.not_mem_nil⟩
  rw [relationCounted, withGroup_issues hi, if_neg (Nat.not_le.mpr hroom), withRegs_ok hno, hk, if_pos rfl,
    releasing_open ⟨k, List.mem_singleton_self k, hopen⟩]

variable (hclosed : release = true → s.laneOpen c.p c.wg c.wid k = false)
include hclosed

/-- The operation past its checks: one lane acts for the group. -/
theorem relationCounted_runs : ∃ step : LaneStep, relationCounted u release writes a f s =
      laneByLane s.fresh c u (fun t => t.modWarp c.p c.wg c.wid fun w => { w with rel := w.rel ++ [s.ids] }) step ∧
    step s.fresh k = f c g w s.fresh k := by
  have hno : OperandsOk c w [] writes [(a, 1)] := ⟨ho.1, fun _ h => absurd h List.not_mem_nil⟩
  have hls : ∀ l ∈ if release = true then c.readers u else [], s.laneOpen c.p c.wg c.wid l = false := by
    intro l hl
    cases release with
    | false => exact absurd hl List.not_mem_nil
    | true =>
      rw [if_pos rfl, hk] at hl
      exact List.mem_singleton.mp hl ▸ hclosed rfl
  have hsound : w.poisonedReg k [(a, 1)] = none :=
    poisonedReg_none fun r hr => ho.2 k (List.mem_singleton_self k) r (by simpa using hr)
  rw [relationCounted, withGroup_issues hi, if_neg (Nat.not_le.mpr hroom), withRegs_ok hno, releasing_closed hls]
  exact ⟨_, rfl, by simp only [hsound]⟩

theorem relationCounted_acts {v : List (Nat × Word)} (hf : f c g w s.fresh k = .ok (s', v)) : relationCounted u release writes a f s =
    .next ((answer s' c fun _ => v).modWarp c.p c.wg c.wid fun w => { w with rel := w.rel ++ [s.ids] }) := by
  obtain ⟨step, hrun, hstep⟩ := relationCounted_runs hi hk hroom ho (f := f) hclosed
  rw [hrun, laneByLane_acts hk _ (hstep.trans hf)]

theorem relationCounted_faults {t : Nat × DWord} (hf : f c g w s.fresh k = .error t) :
    ∃ t', relationCounted u release writes a f s = .next (raiseTrap t' c [t]) := by
  obtain ⟨step, hrun, hstep⟩ := relationCounted_runs hi hk hroom ho (f := f) hclosed
  rw [hrun, laneByLane_faults hk _ (hstep.trans hf)]
  exact ⟨_, rfl⟩

end

/-! ## Versions of a table (R47, R271) -/

theorem tableId_ok {c : Ctx} {w : Warp} {a k : Nat} (h : (w.reg a k).toNat ≤ 4095) : tableId c w a k = .ok (w.reg a k).toNat :=
  if_neg (Nat.not_lt.mpr h)

section
variable {x : Partition} {t : Nat}

theorem Partition.relopen_new (h : find x.tables t = none) (hfew : x.tables.length < 4096) (hpool : 512 ≤ x.tpsize - x.pool) :
    x.relopen t = .ok ({ x with pool := x.pool + 512, tables := put x.tables t ⟨none, some (emptyVersion 1), []⟩ }, 1) := by
  have hroom : ¬(4096 ≤ x.tables.length ∨ x.tpsize - x.pool < 512) := by omega
  simp only [Partition.relopen, h, if_neg hroom]

theorem Partition.relopen_pending {tb : Table} {v : Version} (h : find x.tables t = some tb) (hv : tb.pend = some v) :
    x.relopen t = .ok (x, v.num) := by
  simp only [Partition.relopen, h, hv]

theorem Partition.relopen_next {tb : Table} (h : find x.tables t = some tb) (hv : tb.pend = none) (hpool : 256 ≤ x.tpsize - x.pool) :
    x.relopen t =
      .ok ({ x with pool := x.pool + 256, tables := put x.tables t { tb with pend := some (emptyVersion tb.nextNum) } }, tb.nextNum) := by
  simp only [Partition.relopen, h, hv, if_neg (Nat.not_lt.mpr hpool)]

/-- A seal: the pending version is current. -/
theorem Partition.relseal_ok {tb : Table} {v : Version} (h : find x.tables t = some tb) (hv : tb.pend = some v) (hnum : v.num < 2 ^ 32) :
    ∃ y tb', x.relseal t = .ok (y, v.num) ∧ find y.tables t = some tb' ∧ tb'.cur = some v ∧ tb'.pend = none := by
  simp only [Partition.relseal, h, hv, if_neg (Nat.not_le.mpr hnum)]
  exact ⟨_, _, rfl, find_put_same _ _ _, rfl, rfl⟩

theorem Partition.relseal_missing (h : find x.tables t = none ∨ ∃ tb, find x.tables t = some tb ∧ tb.pend = none) :
    x.relseal t = .error (causeTable, relTval 0 t 0 0 0) := by
  obtain h | ⟨tb, h, hv⟩ := h
  · simp only [Partition.relseal, h]
  · simp only [Partition.relseal, h, hv]

end

/-! ## Seals in progress -/

/-- With no RELSEAL of a table in progress, none completes ahead of the next. -/
theorem State.sealWhere_none {s : State} {p t : Nat} (h : ∀ e ∈ (s.work p).seals, e.2 ≠ t) :
    (s.sealWhere p (·.2 == t)).part p = s.part p := by
  have hnone : (s.work p).seals.filter (·.2 == t) = [] := by
    rw [List.filter_eq_nil_iff]
    exact fun e he => by simpa using h e he
  rw [State.sealWhere, hnone]
  rfl

theorem State.sealWhere_one {s : State} {p n t : Nat} (h : (s.work p).seals.filter (·.1 == n) = [(n, t)]) {tb : Table} {v : Version}
    (htb : find (s.part p).tables t = some tb) (hv : tb.pend = some v) (hnum : v.num < 2 ^ 32) :
    ∃ tb', find ((s.sealWhere p (·.1 == n)).part p).tables t = some tb' ∧ tb'.cur = some v ∧ tb'.pend = none := by
  obtain ⟨y, tb', hseal, hfind, hcur, hpend⟩ := Partition.relseal_ok htb hv hnum
  refine ⟨tb', ?_, hcur, hpend⟩
  rw [State.sealWhere, h]
  simp only [List.foldl_cons, List.foldl_nil, hseal]
  exact (congrArg (fun z : Partition => find z.tables t) (State.modPart_part_same s p fun _ => y)).trans hfind

/-! ## RELOPEN, RELSEAL and RELCNT (R271, R272) -/

section
variable {s : State} {c : Ctx} {g : WorkGroup} {w : Warp} (hi : Issues s c g w) (u : Bool) {k a d t : Nat} (hk : c.readers u = [k])
  (hroom : w.relCount < 63) (ht : (w.reg a k).toNat = t) (hid : t ≤ 4095)
include hi hk hroom ht hid

theorem execRelopen_opens (ho : OperandsOk c w [k] [(d, 1)] [(a, 1)]) {r : Partition × Nat} (hr : (s.part c.p).relopen t = .ok r) :
    execRelopen u d a s = .next ((answer (s.fresh.modPart c.p fun _ => r.1) c fun _ => [(d, BitVec.ofNat 32 r.2)]).modWarp c.p c.wg c.wid
      fun w => { w with rel := w.rel ++ [s.ids] }) := by
  have hopen : (s.fresh.part c.p).relopen t = .ok r := hr
  refine relationCounted_acts hi hk hroom ho (fun h => absurd h Bool.false_ne_true) ?_
  rw [tableId_ok (ht ▸ hid), ht]
  simp only [bind, Except.bind, hopen, pure, Except.pure]

section
variable (ho : OperandsOk c w [k] [(d, 1)] [(a, 1)]) (hclosed : s.laneOpen c.p c.wg c.wid k = false)
  (hseals : ∀ e ∈ (s.work c.p).seals, e.2 ≠ t)
include ho hclosed hseals

theorem execRelseal_seals {tb : Table} {v : Version} (htb : find (s.part c.p).tables t = some tb) (hv : tb.pend = some v)
    (hnum : v.num < 2 ^ 32) : execRelseal u d a s =
      .next ((answer (((s.fresh.sealWhere c.p (·.2 == t)).drainLane c.p c.wg c.wid k).modWork c.p fun y =>
        { y with seals := y.seals ++ [(s.ids, t)] }) c fun _ => [(d, BitVec.ofNat 32 v.num)]).modWarp c.p c.wg c.wid
          fun w => { w with rel := w.rel ++ [s.ids] }) := by
  obtain ⟨y, -, hseal, -⟩ := Partition.relseal_ok htb hv hnum
  have hpart : (s.fresh.sealWhere c.p (·.2 == t)).part c.p = s.part c.p := State.sealWhere_none hseals
  refine relationCounted_acts hi hk hroom ho (fun _ => hclosed) ?_
  rw [tableId_ok (ht ▸ hid), ht]
  simp only [bind, Except.bind, hpart, hseal, pure, Except.pure]

theorem execRelseal_missing (h : find (s.part c.p).tables t = none ∨ ∃ tb, find (s.part c.p).tables t = some tb ∧ tb.pend = none) :
    ∃ t', execRelseal u d a s = .next (raiseTrap t' c [(12, relTval 0 t 0 0 0)]) := by
  have hpart : (s.fresh.sealWhere c.p (·.2 == t)).part c.p = s.part c.p := State.sealWhere_none hseals
  refine relationCounted_faults hi hk hroom ho (fun _ => hclosed) ?_
  rw [tableId_ok (ht ▸ hid), ht]
  simp only [bind, Except.bind, hpart, Partition.relseal_missing h, causeTable]

end

section
variable (ho : OperandsOk c w [k] [(d, 2)] [(a, 1)])
include ho

theorem execRelcnt_current {tb : Table} (htb : find (s.part c.p).tables t = some tb) {v : Version} (hv : tb.cur = some v) :
    execRelcnt u d a s = .next ((answer (s.fresh.acquireOn c.p g.core) c fun _ =>
      [(d, BitVec.ofNat 32 v.rows.length), (d + 1, BitVec.ofNat 32 v.num)]).modWarp c.p c.wg c.wid
        fun w => { w with rel := w.rel ++ [s.ids] }) := by
  have htable : find (s.fresh.part c.p).tables t = some tb := htb
  refine relationCounted_acts hi hk hroom ho (fun h => absurd h Bool.false_ne_true) ?_
  rw [tableId_ok (ht ▸ hid), ht]
  simp only [bind, Except.bind, htable, hv, pure, Except.pure]

theorem execRelcnt_none {tb : Table} (htb : find (s.part c.p).tables t = some tb) (hv : tb.cur = none) :
    execRelcnt u d a s = .next ((answer (s.fresh.acquireOn c.p g.core) c fun _ => [(d, 0), (d + 1, 0)]).modWarp c.p c.wg c.wid
      fun w => { w with rel := w.rel ++ [s.ids] }) := by
  have htable : find (s.fresh.part c.p).tables t = some tb := htb
  refine relationCounted_acts hi hk hroom ho (fun h => absurd h Bool.false_ne_true) ?_
  rw [tableId_ok (ht ▸ hid), ht]
  simp only [bind, Except.bind, htable, hv, pure, Except.pure]

theorem execRelcnt_missing (h : find (s.part c.p).tables t = none) :
    ∃ t', execRelcnt u d a s = .next (raiseTrap t' c [(12, relTval 0 t 0 0 0)]) := by
  have htable : find (s.fresh.part c.p).tables t = none := h
  refine relationCounted_faults hi hk hroom ho (fun h => absurd h Bool.false_ne_true) ?_
  rw [tableId_ok (ht ▸ hid), ht]
  simp only [bind, Except.bind, htable, causeTable]

end
end

/-- The oldest operation of the counter completes, and its seals with it. -/
theorem execRelationOperationComplete_completes {s : State} {p wg wid n : Nat} {r : List Nat} {w : Warp} (hissue : s.issue = .part [p, wg, wid])
    (hw : s.warp p wg wid = some w) (hrel : w.rel = n :: r) : execRelationOperationComplete s =
      .next ((s.sealWhere p (·.1 == n)).modWarp p wg wid fun w => { w with rel := w.rel.tail }) := by
  simp only [execRelationOperationComplete, State.arg_part hissue, List.getD_cons_zero, List.getD_cons_succ, hw, Option.bind_some, hrel,
    List.head?_cons]

/-- Settles O35, instruction by instruction, then the completion. -/
theorem tableInstructionsComplete : Obligations.TableInstructionsComplete := by
  unfold Obligations.TableInstructionsComplete
  refine ⟨?instructions, ?completion⟩
  case instructions =>
    intro u d a k s c g w hi hroom hk t x counted hid
    rw [exec_relopen, exec_relseal, exec_relcnt]
    refine ⟨fun ho => ⟨?relopen, ?table, ?relsealWaits, ?relsealMissing⟩, fun ho => ⟨?relcnt, ?relcntMissing⟩⟩
    case relopen => exact fun hnew hfew hpool => execRelopen_opens hi u hk hroom rfl hid ho (Partition.relopen_new hnew hfew hpool)
    case table =>
      intro tb htb
      refine ⟨fun v hv => ?_, fun hv hpool => ?_, fun v hv hnum hclosed hseals => ?_⟩
      · exact execRelopen_opens hi u hk hroom rfl hid ho (Partition.relopen_pending htb hv)
      · exact execRelopen_opens hi u hk hroom rfl hid ho (Partition.relopen_next htb hv hpool)
      · exact execRelseal_seals hi u hk hroom rfl hid ho hclosed hseals htb hv hnum
    case relsealWaits => exact fun hopen => relationCounted_open hi hk hroom ho hopen
    case relsealMissing => exact fun hmissing hclosed hseals => execRelseal_missing hi u hk hroom rfl hid ho hclosed hseals hmissing
    case relcnt =>
      intro tb htb
      cases hcur : tb.cur with
      | none => exact execRelcnt_none hi u hk hroom rfl hid ho htb hcur
      | some v => exact execRelcnt_current hi u hk hroom rfl hid ho htb hcur
    case relcntMissing => exact fun hmissing => execRelcnt_missing hi u hk hroom rfl hid ho hmissing
  case completion =>
    intro s p wg wid n r w hissue hw hrel
    rw [exec_relationOperationComplete]
    exact ⟨execRelationOperationComplete_completes hissue hw hrel, fun t tb v hseals htb hv hnum => State.sealWhere_one hseals htb hv hnum⟩

end Sys2Proof.Machine
end

section
/-!
The device-side LAUNCH (R279) against a state that no run reaches: a store waits under the number that the next instruction takes. LAUNCH
checks its record before it takes its number, so that its page walk leaves that store out (R388), and reads it afterwards, so that the walk
finds the store made. Where the store holds the page's leaf, the check fails while the read passes.
-/
namespace Sys2Proof.Machine

/-- A warp of one thread past its clause header, every register zero. -/
def plainWarp : Warp := mkWarp 0 0 16 .zero [⟨[0], [], [], ⟨0x20000, false, 8, some 0x7FFF88⟩, 0, 0⟩]

def plainGroup : WorkGroup :=
  { mkGroup 1 1 1 3 0 0 1 false 16 [0] .zero [] with warps := [plainWarp], seats := [⟨0, [[0]], 16⟩] }

/-- The leaf of the first page as a store of the thread that waits, its ticket 3. -/
def leafStore : PendingStore := ⟨3, 0, 1, 0, 0, 3, false, false, located 0x12000 (bytesOf 8 0x3F), none, false⟩

/-- The tables of `programTables` without their leaf, which waits as a store; 3 is the next number. -/
def leaflessState : State :=
  { State.reset with
    mem := ⟨writeCells [] (located 0x10000 (bytesOf 8 (0x11000 + 1)) ++ located 0x11000 (bytesOf 8 (0x12000 + 1))), [], []⟩
    parts := [(0, programPart)]
    works := [(0, { Work.empty with launches := [(1, programLaunch)], wgs := [plainGroup], stores := [leafStore] })]
    cores := [(0, Core.empty)]
    ids := 3
    issue := .simt 0 1 0 [0] 77 0 }

def plainCtx : Ctx := ⟨0, 1, 0, [0], 77, 0⟩

theorem leaflessState_issues : Issues leaflessState plainCtx plainGroup plainWarp := by decide

/-- The number that an outcome's state would give out next. -/
def nextNumber : Out → Option Nat
  | .next t => some t.ids
  | _ => none

/-- The LAUNCH takes a trap, and no number. -/
theorem launch_leafless_number : nextNumber (exec (.launch false 126 0) leaflessState) = some 3 := by decide +kernel

/-- The read of the record passes, and the launch that would follow takes its number. -/
theorem accept_leafless_number : ((leaflessState.fresh.laneRead plainCtx plainGroup plainWarp 0 0 256).toOption.map fun r =>
    ((r.1.drainLane 0 1 0 0).accept (agentOf plainCtx plainGroup plainWarp) plainGroup.priv r.2).ids) = some 4 := by decide +kernel

/-- Refutes O37: `leaflessState` is a state with a free counter in which the record of a LAUNCH reads and yet its check fails. -/
theorem not_continuationsAndDeques : ¬ Obligations.ContinuationsAndDeques := by
  unfold Obligations.ContinuationsAndDeques
  intro h
  obtain ⟨-, hclosed, -⟩ := h false 126 0 0 leaflessState plainCtx plainGroup plainWarp leaflessState_issues rfl
  obtain ⟨-, -, hlaunch⟩ := hclosed (by decide) (by decide)
  have hnumber := accept_leafless_number
  cases hread : leaflessState.fresh.laneRead plainCtx plainGroup plainWarp 0 0 256 with
  | error t =>
    rw [hread] at hnumber
    cases hnumber
  | ok r =>
    rw [hread] at hnumber
    have hexec := congrArg nextNumber (hlaunch (by decide) r.1 r.2 hread)
    rw [launch_leafless_number] at hexec
    exact absurd (hexec.trans hnumber) (by decide)

end Sys2Proof.Machine
end

section
/-! What happens at gates (R318 to R320): signals that arrive, refills, writes of the directory, and waits that lose their right. -/
namespace Sys2Proof.Machine

/-! ## A cause raised in a warp -/

theorem State.raiseWarp_warp {s : State} {p wg wid : Nat} {g : WorkGroup} {w : Warp} (hg : (s.work p).wg wg = some g)
    (hw : g.warp wid = some w) (bit : Nat) (tval : DWord) :
    ∃ v, (s.raiseWarp p wg wid bit tval).warp p wg wid = some v ∧
      v.exceptSkid = ({ w with trap := w.trap.raise bit tval } : Warp).exceptSkid := by
  have hraised : (g.modWarp wid fun w => { w with trap := w.trap.raise bit tval }).warp wid =
      some { w with trap := w.trap.raise bit tval } := by
    rw [WorkGroup.modWarp_warp_same _ _ _ fun w => by rfl, hw, Option.map_some]
  have hskid := (g.modWarp wid fun w => { w with trap := w.trap.raise bit tval }).halted_warp_exceptSkid wid wid
  rw [hraised, Option.map_some, Option.map_eq_some_iff] at hskid
  obtain ⟨v, hv, hfields⟩ := hskid
  refine ⟨v, ?_, hfields⟩
  exact (State.modWg_warp hg fun g => (halted_warp (g.modWarp wid _) wid 0).1).trans hv

theorem TrapState.raise_raises (t : TrapState) (tval : DWord) {bit : Nat} (hbit : bit < 32) :
    (t.raise bit tval).cause.getLsbD bit = true ∧ (t.cause.getLsbD bit = false → find (t.raise bit tval).tvals bit = some tval) := by
  constructor
  · rw [(TrapState.raise_spec t bit tval).1, BitVec.getLsbD_or, (getLsbD_ofNat_two_pow hbit bit).mpr rfl, Bool.or_true]
  · intro h
    rw [TrapState.raise, if_neg (Bool.eq_false_iff.mp h)]
    exact find_put_same _ _ _

/-! ## Faults at a gate (R416) -/

/-- A fault counted changes the counter of its gate and when it was last recorded. -/
theorem State.gateFault_gate (s : State) (n : Nat) :
    ∃ faults last, (s.gateFault n).gate n = { s.gate n with faults := faults, lastRec := last } := by
  unfold State.gateFault
  dsimp only
  split
  · exact ⟨_, _, s.modGate_gate_same n fun g => { g with faults := 0, lastRec := some s.time }⟩
  · split
    · exact ⟨_, _, s.modGate_gate_same n fun g => { g with faults := 0, lastRec := some s.time }⟩
    · exact ⟨_, _, s.modGate_gate_same n fun g => { g with faults := g.faults + 1 }⟩

theorem State.gateFault_works (s : State) (n : Nat) : (s.gateFault n).works = s.works := by
  unfold State.gateFault
  dsimp only
  split
  · rfl
  · split <;> rfl

theorem State.gateFault_warp (s : State) (n p wg wid : Nat) : (s.gateFault n).warp p wg wid = s.warp p wg wid := by
  rw [State.warp, State.warp, State.work, State.work, State.gateFault_works]

theorem State.gateFault_work (s : State) (n p : Nat) : (s.gateFault n).work p = s.work p := by
  rw [State.work, State.work, State.gateFault_works]

/-! ## Signals and refills (R319) -/

theorem signal_thawed {s : State} {n tenant inc ticket : Nat} (hv : (s.gate n).v = true) (hright : ((s.gate n).rights tenant).1 = true)
    (hburst : (s.gate n).burst = 0) (hthawed : (s.gate n).frz = false) (hinc : inc < 2 ^ 32) :
    s.signal n tenant 1 (BitVec.ofNat 32 inc) ticket =
      .ok ((s.modGate n fun y => { y with tokens := y.tokens, value := BitVec.ofNat 64 (y.value.toNat + inc) }).serveGate n) := by
  have hsum : (s.gate n).value + (BitVec.ofNat 32 inc).setWidth 64 = BitVec.ofNat 64 ((s.gate n).value.toNat + inc) := by
    apply BitVec.eq_of_toNat_eq
    rw [BitVec.toNat_add, BitVec.toNat_setWidth, BitVec.toNat_ofNat, BitVec.toNat_ofNat, Nat.mod_eq_of_lt hinc,
      Nat.mod_eq_of_lt (hinc.trans (by decide))]
  have hsignals : ((s.gate n).rightsAt tenant 1).1 = true := by rw [Gate.rightsAt, if_neg (by omega), hright]
  simp only [State.signal, hv, hsignals, hthawed, hburst, Bool.not_true, Bool.or_false, Bool.false_and, Bool.false_eq_true, ne_eq,
    not_true_eq_false, false_and, if_false, State.modGate, hsum]

section
variable {s : State} {n tenant inc : Nat} (hissue : s.issue = .part [n, tenant, inc])
include hissue

theorem execGateSignalApply_adds (hinc : inc < 2 ^ 32) (hv : (s.gate n).v = true) (hright : ((s.gate n).rights tenant).1 = true)
    (hburst : (s.gate n).burst = 0) (hthawed : (s.gate n).frz = false) : execGateSignalApply s =
      .next ((s.modGate n fun y => { y with tokens := y.tokens, value := BitVec.ofNat 64 (y.value.toNat + inc) }).serveGate n) := by
  simp only [execGateSignalApply, State.arg_part hissue, List.getD_cons_zero, List.getD_cons_succ,
    signal_thawed hv hright hburst hthawed hinc]

theorem execGateSignalApply_refuses (h : (s.gate n).v = false ∨ ((s.gate n).rights tenant).1 = false) :
    execGateSignalApply s = .next (s.gateFault n) := by
  have hrefused : s.signal n tenant 1 (BitVec.ofNat 32 inc) 0 = .error causeGate := signal_refused h
  simp only [execGateSignalApply, State.arg_part hissue, List.getD_cons_zero, List.getD_cons_succ, hrefused]

end

/-! ## Waits that lose their right (R320) -/

theorem State.revoke_nobody {s : State} (h : ∀ e ∈ s.works, e.2.waiters = []) (n : Nat) : s.revoke n = s := by
  have hfold : ∀ (l : Map Work) (f : State → Nat × Work → Waiter → State), (∀ e ∈ l, e.2.waiters = []) → ∀ t : State,
      l.foldl (fun st e => e.2.waiters.foldl (fun st x => f st e x) st) t = t := by
    intro l f hl
    induction l with
    | nil => exact fun t => rfl
    | cons e r ih =>
      intro t
      rw [List.foldl_cons, hl e List.mem_cons_self]
      exact ih (fun x hx => hl x (List.mem_cons_of_mem _ hx)) t
  exact hfold s.works _ h s

section
variable {s : State} {p n d : Nat} {wk : Work} {y : Waiter} {target : DWord} {h : WorkGroup} (hworks : s.works = [(p, wk)])
  (hwaits : wk.waiters = [y]) (hkind : y.kind = .gwait n d target) (hg : wk.wg y.wg = some h)
include hworks hwaits hkind hg

/-- One lane waits, on the gate. -/
theorem State.revoke_one : s.revoke n =
    if (s.gate n).v = true ∧ (3 ≤ h.priv ∨ ((s.gate n).rights (s.part p).tenant).2.1 = true) then s
    else (s.faultWaiter p y 25 (BitVec.ofNat 64 n)).gateFault n := by
  have hwork : s.work p = wk := by simp [State.work, hworks, findD, find]
  have hright : (((s.gate n).rightsAt (s.part p).tenant h.priv).2.1 = true) ↔
      (3 ≤ h.priv ∨ ((s.gate n).rights (s.part p).tenant).2.1 = true) := by
    by_cases hlevel : 3 ≤ h.priv <;> simp [Gate.rightsAt, hlevel]
  have hkeeps : (n == n && !((s.gate n).v && ((s.gate n).rightsAt (s.part p).tenant h.priv).2.1)) = true ↔
      ¬((s.gate n).v = true ∧ (3 ≤ h.priv ∨ ((s.gate n).rights (s.part p).tenant).2.1 = true)) := by
    rw [← hright, beq_self_eq_true, Bool.true_and, Bool.not_eq_true', ← Bool.not_eq_true, Bool.and_eq_true]
  simp only [State.revoke, hworks, List.foldl_cons, List.foldl_nil, hwaits, hkind, hwork, hg, hkeeps, causeGate, ite_not]

end

/-- The lane that waited stands free, and its warp has the cause. -/
theorem State.faultWaiter_raises {s : State} {p : Nat} {y : Waiter} {h : WorkGroup} {z : Warp} (hg : (s.work p).wg y.wg = some h)
    (hz : h.warp y.wid = some z) (hwaits : (s.work p).waiters = [y]) {bit : Nat} (hbit : bit < 32) (tval : DWord) :
    ((s.faultWaiter p y bit tval).work p).waiters = [] ∧ ∃ z', (s.faultWaiter p y bit tval).warp p y.wg y.wid = some z' ∧
      z'.trap.cause.getLsbD bit = true ∧ (z.trap.cause.getLsbD bit = false → find z'.trap.tvals bit = some tval) := by
  have hfree : ((((s.modWork p fun w => { w with waiters := w.waiters.filter fun x => x != y }).modWarp p y.wg y.wid fun v =>
      v.modLanes y.lanes fun x => { x with hold := .free }).work p).wg y.wg) =
        some (h.modWarp y.wid fun v => v.modLanes y.lanes fun x => { x with hold := .free }) := by
    rw [State.modWarp, State.modWg, State.modWork_work_same, Work.modWg_wg_same _ _ _ fun g => by exact WorkGroup.modWarp_id g _ _,
      State.modWork_work_same]
    exact (congrArg _ hg).trans rfl
  have hwarp : (h.modWarp y.wid fun v => v.modLanes y.lanes fun x => { x with hold := .free }).warp y.wid =
      some (z.modLanes y.lanes fun x => { x with hold := .free }) := by
    rw [WorkGroup.modWarp_warp_same _ _ _ fun w => by rfl, hz, Option.map_some]
  obtain ⟨z', hz', hfields⟩ := State.raiseWarp_warp hfree hwarp bit tval
  refine ⟨?_, z', hz', ?_, fun hclear => ?_⟩
  · have hfilter : (s.work p).waiters.filter (fun x => x != y) = [] := by simp [hwaits]
    rw [State.faultWaiter, State.raiseWarp, State.modWg, State.modWork_work_same, State.modWarp, State.modWg, State.modWork_work_same,
      State.modWork_work_same]
    exact hfilter
  · exact (congrArg (fun v : Warp => v.trap.cause.getLsbD bit) hfields).trans (TrapState.raise_raises z.trap tval hbit).1
  · exact (congrArg (fun v : Warp => find v.trap.tvals bit) hfields).trans ((TrapState.raise_raises z.trap tval hbit).2 hclear)

/-! ## Writes of a gate's entry (R318) -/

theorem Gate.setAcl_word (y : Gate) (i : Nat) {e : Nat} (h : e < 2 ^ 32) : y.setAcl i (BitVec.ofNat 32 e) =
    if e / 16 % 2 ^ 12 ≠ 0 then y else { y with acl := put y.acl i (BitVec.ofNat 32 e) } := by
  rw [Gate.setAcl, bitsOf, BitVec.toNat_ofNat, Nat.mod_eq_of_lt h]
  rfl

/-- How many gates a partition homes, but for one. -/
theorem State.homes_eq (s : State) (p n : Nat) : s.homes p n = (s.gates.filter fun e => e.2.v && e.2.home == p && e.1 != n).length := by
  rw [State.homes, State.homed, List.filter_map, List.length_map, List.filter_filter]
  exact congrArg List.length (List.filter_congr fun e _ => by rw [Function.comp_apply, Bool.and_comm])

/-- What makes a gate ignore a write of its control dword. -/
def State.ignoresControl (s : State) (n v : Nat) : Prop :=
  let x := s.gate n
  let home := v / 2 ^ 52 % 2 ^ 5
  let to_ := if x.home = 31 then 31 else home
  v / 2 ^ 57 % 2 ^ 5 ≠ 0 ∨ v / 2 ^ 16 % 2 ^ 36 ≠ 0 ∨ (28 ≤ home ∧ home ≤ 30) ∨ (home = 31 ∧ x.home ≠ 31) ∨
    (decide (v / 2 ^ 63 % 2 = 1) = true ∧ ((s.part to_).state ≠ .running ∨
      (s.part to_).gquota ≤ (s.gates.filter fun e => e.2.v && e.2.home == to_ && e.1 != n).length))

section
variable {s : State} {n v : Nat}

theorem State.gateControl_ignored (h : s.ignoresControl n v) : s.gateControl n v = s := by
  obtain h | h | h | h | ⟨hon, h⟩ := h
  · rw [State.gateControl, if_pos (.inl h)]
  · rw [State.gateControl, if_pos (.inr (.inl h))]
  · rw [State.gateControl, if_pos (.inr (.inr (.inl h)))]
  · rw [State.gateControl, if_pos (.inr (.inr (.inr h)))]
  · unfold State.gateControl
    dsimp only
    split
    · rfl
    · refine if_pos ?_
      rw [Bool.and_eq_true, Bool.or_eq_true, bne_iff_ne, decide_eq_true_eq, State.homes_eq]
      exact ⟨by simpa [bitsOf] using hon, h⟩

theorem State.gateControl_set (h : ¬s.ignoresControl n v) : s.gateControl n v = (s.modGate n fun y =>
    { y with v := decide (v / 2 ^ 63 % 2 = 1), home := if (s.gate n).home = 31 then 31 else v / 2 ^ 52 % 2 ^ 5 }).revoke n := by
  have hon : (bitsOf v 63 63 == 1) = decide (v / 2 ^ 63 % 2 = 1) := rfl
  have hwrong : ¬(bitsOf v 61 57 ≠ 0 ∨ bitsOf v 51 16 ≠ 0 ∨ (28 ≤ bitsOf v 56 52 ∧ bitsOf v 56 52 ≤ 30) ∨
      (bitsOf v 56 52 = 31 ∧ (s.gate n).home ≠ 31)) := fun hw => h (by
    obtain hw | hw | hw | hw := hw
    · exact .inl hw
    · exact .inr (.inl hw)
    · exact .inr (.inr (.inl hw))
    · exact .inr (.inr (.inr (.inl hw))))
  rw [State.gateControl, if_neg hwrong, hon]
  refine if_neg fun hfull => h (.inr (.inr (.inr (.inr ?_))))
  rw [Bool.and_eq_true, Bool.or_eq_true, bne_iff_ne, decide_eq_true_eq, State.homes_eq] at hfull
  exact ⟨decide_eq_true hfull.1, hfull.2.imp_right of_decide_eq_true⟩

variable {who : Nat} (hwho : s.mayWrite who 3 = true) (hn : n < 4096) (hv : v < 2 ^ 64) {off : Nat} (hissue : s.issue = .part [who, n, off, v])
include hwho hn hv hissue

theorem execGateEntryWrite_writes (hoff : off % 8 = 0) : execGateEntryWrite s = .next (s.gateWrite n off v) := by
  have hdword : off / 8 * 8 = off := by omega
  simp only [execGateEntryWrite, State.arg_part hissue, List.getD_cons_zero, List.getD_cons_succ, hwho, hn, decide_true, Bool.and_self,
    if_true, hdword, Nat.mod_eq_of_lt hv]

end

/-- Settles O32: signals, refills, then writes of an entry and the wait that such a write finds. -/
theorem gateEventsAct : Obligations.GateEventsAct := by
  unfold Obligations.GateEventsAct
  refine ⟨?signal, ?refill, ?rights, ?value⟩
  case signal =>
    intro s n tenant inc hissue hinc
    rw [exec_gateSignalApply]
    exact ⟨fun hv hright hburst hthawed => execGateSignalApply_adds hissue hinc hv hright hburst hthawed,
      fun h => ⟨_, execGateSignalApply_refuses hissue h, gateFault_value s n n, s.gateFault_works n⟩⟩
  case refill =>
    intro s n hissue
    have hmin : ∀ y : Gate, min (y.tokens + y.rate) (y.burst * 1024) =
        if y.tokens + y.rate < 1024 * y.burst then y.tokens + y.rate else 1024 * y.burst := fun y => by split <;> omega
    simp only [exec_gateTokenRefill, execGateTokenRefill, State.arg_part hissue, List.getD_cons_zero, hmin]
  case rights =>
    intro s who n off v upd hwho hn hv hissue x home on to_ ignored set
    rw [exec_gateEntryWrite]
    refine ⟨?ignores, fun hform => ?_⟩
    case ignores =>
      rintro rfl hignored
      rw [execGateEntryWrite_writes hwho hn hv hissue (by decide)]
      exact congrArg _ (State.gateControl_ignored hignored)
    have hwrite : execGateEntryWrite s = .next ((s.modGate n upd).revoke n) := by
      obtain ⟨rfl, hkept, rfl⟩ | ⟨j, hj, rfl, rfl⟩ := hform
      · rw [execGateEntryWrite_writes hwho hn hv hissue (by decide)]
        exact congrArg _ (State.gateControl_set hkept)
      · have hlow : BitVec.ofNat 32 v = BitVec.ofNat 32 (v % 2 ^ 32) := BitVec.eq_of_toNat_eq (by simp)
        have hindex : (64 + 8 * j - 64) / 4 = 2 * j := by omega
        rw [execGateEntryWrite_writes hwho hn hv hissue (by omega), State.gateWrite, if_neg (by omega), if_neg (by omega), if_neg (by omega),
          if_pos (by omega), hindex, hlow]
        simp only [Gate.setAcl_word _ _ (show v % 2 ^ 32 < 2 ^ 32 by omega), Gate.setAcl_word _ _ (show v / 2 ^ 32 < 2 ^ 32 by omega)]
        rfl
    rw [hwrite]
    refine ⟨fun hnobody => congrArg _ (State.revoke_nobody (s := s.modGate n upd) hnobody n), ?_⟩
    intro p wk y d target h z hworks hwaits hkind hg hz keeps
    have hgate : (s.modGate n upd).gate n = upd x := State.modGate_gate_same s n upd
    have hrevoke := State.revoke_one (s := s.modGate n upd) hworks hwaits hkind hg
    rw [hgate] at hrevoke
    refine ⟨fun hkeeps => ?_, fun hloses => ?_⟩
    · exact congrArg _ (hrevoke.trans (if_pos hkeeps))
    · have hwork : (s.modGate n upd).work p = wk := by simp [State.work, hworks, findD, find]
      obtain ⟨hwaiters, z', hz', hcause, htval⟩ := State.faultWaiter_raises (s := s.modGate n upd) (p := p) (by rw [hwork]; exact hg) hz
        (by rw [hwork]; exact hwaits) (by decide : 25 < 32) (BitVec.ofNat 64 n)
      obtain ⟨faults, last, hfields⟩ := ((s.modGate n upd).faultWaiter p y 25 (BitVec.ofNat 64 n)).gateFault_gate n
      have hkept : ((s.modGate n upd).faultWaiter p y 25 (BitVec.ofNat 64 n)).gate n = upd x := hgate
      refine ⟨_, z', congrArg _ (hrevoke.trans (if_neg hloses)), ?_, ?_, hcause, htval, ?_⟩
      · rw [State.gateFault_work]
        exact hwaiters
      · rw [State.gateFault_warp]
        exact hz'
      · rw [hfields, hkept]
  case value =>
    intro s who n v hwho hn hv
    rw [exec_gateEntryWrite]
    exact ⟨fun hissue => execGateEntryWrite_writes hwho hn hv hissue (by decide),
      fun hissue => execGateEntryWrite_writes hwho hn hv hissue (by decide)⟩

end Sys2Proof.Machine
end

section
/-!
Resets and boot (R351), the black box (R356, R357), SPDM (R353), errors in storage (R390, R391, R394) and register writes (R145, R313, R346).
-/
namespace Sys2Proof.Machine

/-! ## Boot (R351) -/

/-- What the boot ROM can find wrong with the image in its window. -/
def State.bootFails (s : State) (why : Nat) : Prop :=
  let image := s.mem.cells.filter fun e => decide (e.1 < 2 ^ 24)
  why = 1 ∧ Config.imageSigned Config.fuseKeyHash image = false ∨
    why = 2 ∧ Config.imageVersion image % 2 ^ 32 < Config.fuseMinimum ∨ why = 3 ∧ Config.imageTooLarge image = true

theorem State.mem_imageFaults (s : State) (why : Nat) : why ∈ imageFaults s.bootImage ↔ s.bootFails why := by
  unfold imageFaults State.bootFails State.bootImage
  simp only [List.mem_append]
  refine or_assoc.trans (or_congr ?_ (or_congr ?_ ?_)) <;> split <;> simp_all

section
variable {s : State} (hchecks : s.boot.state = 1)
include hchecks

theorem execBootCheckComplete_runs (h : ∀ why, ¬s.bootFails why) : execBootCheckComplete s =
    .next (({ s with boot := ⟨Config.imageVersion s.bootImage % 2 ^ 32, 0, 2, Config.imageMeasure s.bootImage⟩ }).bbWrite 0x0500 31 0 5
      (Config.imageVersion s.bootImage % 2 ^ 32)) := by
  have hnone : imageFaults s.bootImage = [] := List.eq_nil_iff_forall_not_mem.mpr fun why hw => h why ((s.mem_imageFaults why).mp hw)
  simp only [execBootCheckComplete, hchecks, hnone, ne_eq, not_true_eq_false, if_false, List.getElem?_nil]

/-- Of several faults any is recorded. -/
theorem execBootCheckComplete_fails (h : ∃ why, s.bootFails why) : ∃ why, s.bootFails why ∧
    execBootCheckComplete s = .next (({ s with boot := { s.boot with why := why, state := 3 } }).bbWrite 0x0501 31 0 5 why) := by
  obtain ⟨why, hwhy⟩ := h
  have hlen : 0 < (imageFaults s.bootImage).length := List.length_pos_of_mem ((s.mem_imageFaults why).mpr hwhy)
  have hpick : Config.freeNat s.tick % max 1 (imageFaults s.bootImage).length < (imageFaults s.bootImage).length := by
    rw [max_eq_right hlen]
    exact Nat.mod_lt _ hlen
  refine ⟨(imageFaults s.bootImage)[Config.freeNat s.tick % max 1 (imageFaults s.bootImage).length],
    (s.mem_imageFaults _).mp (List.getElem_mem hpick), ?_⟩
  simp only [execBootCheckComplete, hchecks, ne_eq, not_true_eq_false, if_false, List.getElem?_eq_getElem hpick]

end

/-! ## The black box (R357) -/

theorem length_flatMap_bytesOf (l : List Nat) (n : Nat) (f : Nat → Nat) : (l.flatMap fun i => bytesOf n (f i)).length = n * l.length := by
  induction l with
  | nil => rfl
  | cons i r ih => rw [List.flatMap_cons, List.length_append, ih, length_bytesOf, List.length_cons, Nat.mul_succ, Nat.add_comm]

/-! ## Register writes (R145, R313) -/

/-- A whole dword written over one leaves what was written. -/
theorem merged_dword {off v : Nat} (old : Nat) (hoff : off % 8 = 0) (hv : v < 2 ^ 64) : merged old off 8 v = v := by
  have hone : (2 : Nat) ^ (8 * 0) = 1 := rfl
  have hall : 2 ^ (8 * 8) - 1 + 1 = 2 ^ 64 := rfl
  rw [merged, hoff]
  simp only [hone, hall, Nat.div_one, Nat.mul_one]
  omega

section
variable {s : State} {who addr v p off : Nat} (hissue : s.issue = .part [who, addr, v]) (hv : v < 2 ^ 64)
include hissue

theorem execGenericRegisterWrite_page (howner : s.pageOwner addr = some (p, off)) (hlow : addr < 2 ^ 60) (halign : addr % 8 = 0) :
    execGenericRegisterWrite s = .next (s.pageWrite who p off 8 v) := by
  have hspace : ¬barSpace ≤ addr := Nat.not_le.mpr hlow
  simp only [execGenericRegisterWrite, State.arg_part hissue, List.getD_cons_zero, List.getD_cons_succ, List.getD_nil, if_true, halign,
    Nat.zero_add, lt_irrefl, if_false, if_neg hspace, howner]

theorem execGenericRegisterWrite_nowhere (howner : s.pageOwner addr = none) (hlow : addr < 2 ^ 60) :
    execGenericRegisterWrite s = .next s := by
  have hspace : ¬barSpace ≤ addr := Nat.not_le.mpr hlow
  simp only [execGenericRegisterWrite, State.arg_part hissue, List.getD_cons_zero, List.getD_cons_succ, List.getD_nil, if_true,
    if_neg hspace, howner, ite_self]

theorem execGenericRegisterWrite_bar (hbar : addr = 2 ^ 60 + off) (halign : off % 8 = 0) :
    execGenericRegisterWrite s = .next (s.barWrite who off 8 v) := by
  have hspace : barSpace ≤ addr := hbar ▸ Nat.le_add_right _ _
  have hoff : addr - barSpace = off := by rw [hbar, barSpace, Nat.add_sub_cancel_left]
  have hdword : addr % 8 = 0 := by omega
  simp only [execGenericRegisterWrite, State.arg_part hissue, List.getD_cons_zero, List.getD_cons_succ, List.getD_nil, if_true, hdword,
    Nat.zero_add, lt_irrefl, if_false, if_pos hspace, hoff]

end

section
variable (s : State) (who p : Nat) {v q : Nat} (hv : v < 2 ^ 64)
include hv

theorem State.pageWrite_qwptr (hq : q < 64) : s.pageWrite who p (32 * q + 24) 8 v =
    if s.mayWrite who 0 = true then s.modPart p fun x => { x with queues := put x.queues q ((x.queue q).setWptr (BitVec.ofNat 64 v)) }
    else s := by
  have hdword : (32 * q + 24) / 8 % 4 = 3 := by omega
  have hqueue : (32 * q + 24) / 32 = q := by omega
  rw [State.pageWrite, if_pos (by omega), State.queueWrite, hdword, hqueue, merged_dword _ (by omega) hv]
  rfl

theorem State.pageWrite_edbase : s.pageWrite who p 0x5000 8 v =
    if s.mayWrite who 2 = true then s.modPart p fun x => { x with edbase := BitVec.ofNat 64 v } else s := by
  have hmerged : ∀ old, merged old 0x5000 8 v = v := fun old => merged_dword old (by decide) hv
  simp only [State.pageWrite, hmerged]
  rfl

theorem State.barWrite_nonce : s.barWrite who 0x2008 8 v =
    if 16 ≤ who then { s with bb := { s.bb with nonce0 := BitVec.ofNat 64 v } } else s := by
  have hmerged : merged s.bb.nonce0.toNat (0x2008 - 0x2000) 8 v = v := merged_dword _ (by decide) hv
  simp only [State.barWrite, State.bbCtlWrite, hmerged]
  rfl

end

/-! ## Errors in storage (R390, R391, R394) -/

section
variable {s : State} {die n : Nat} (hissue : s.issue = .part [die, n])
include hissue

theorem execPatrolScrub_corrects : execPatrolScrub s = .next (s.corrections die n) := by
  simp only [execPatrolScrub, State.arg_part hissue, List.getD_cons_zero, List.getD_cons_succ]

end

section
variable {s : State} {die n : Nat} (htotal : 0 < ((find s.bb.corrected die).map fun x : Nat × Nat => x.1).getD 0 + n)
include htotal

theorem State.corrections_noted (h : ∀ x, find s.bb.corrected die = some x → x.2 + 1000000 ≤ s.time) : s.corrections die n =
    ({ s with bb := { s.bb with corrected := put s.bb.corrected die (0, s.time) } }).bbWrite 0x0200 31 die 2
      (((find s.bb.corrected die).map fun x : Nat × Nat => x.1).getD 0 + n) := by
  have hne := htotal.ne'
  cases he : find s.bb.corrected die with
  | none =>
    rw [he, Option.map_none, Option.getD_none] at hne
    simp only [State.corrections, he, Option.map_none, Option.getD_none, if_neg hne, if_true]
  | some x =>
    rw [he, Option.map_some, Option.getD_some] at hne
    simp only [State.corrections, he, Option.map_some, Option.getD_some, if_neg hne, decide_eq_true (h x he), if_true]

theorem State.corrections_counted {x : Nat × Nat} (hx : find s.bb.corrected die = some x) (h : s.time < x.2 + 1000000) :
    s.corrections die n =
      { s with bb := { s.bb with corrected := put s.bb.corrected die (((find s.bb.corrected die).map fun x : Nat × Nat => x.1).getD 0 + n, x.2) } } := by
  have hne := htotal.ne'
  rw [hx, Option.map_some, Option.getD_some] at hne
  simp only [State.corrections, hx, if_neg hne, decide_eq_false (Nat.not_le.mpr h), Bool.false_eq_true, if_false, Option.map_some,
    Option.getD_some]

end

/-! ## The record of a warm reset (R351) -/

/-- A record goes to the front of the black box. -/
theorem State.bbWrite_tail (s : State) (code part die src data : Nat) :
    (s.bbWrite code part die src data).bb.recs.tail = s.bb.recs.take 4095 := rfl

/-- Settles O60: every event is its equation at the operands it is given. -/
theorem resetBootAndRecordsAct : Obligations.ResetBootAndRecordsAct := by
  unfold Obligations.ResetBootAndRecordsAct
  refine ⟨?cold, ?warm, ?boot, ?spdm, ?scrub, ?storage, ?registers⟩
  case cold =>
    intro s
    rw [exec_coldReset]
    exact ⟨_, rfl, rfl, rfl, rfl, rfl, rfl, rfl, rfl, rfl, rfl, rfl, rfl, rfl, rfl, rfl⟩
  case warm =>
    intro s
    rw [exec_warmReset]
    refine ⟨_, rfl, rfl, rfl, rfl, rfl, rfl, rfl, rfl, fun hnone => ?_⟩
    simp only [hnone, List.map_nil, List.foldl_nil, State.bbWrite_mem, State.bbWrite_images, State.bbWrite_host, State.bbWrite_tail, and_self]
  case boot =>
    intro s who v
    refine ⟨fun hissue => ⟨fun hmaster hmay hv hstate => ?_, fun hrefused => ?_⟩, ⟨fun hstate => ?_, ?_, ?_⟩, ?_, ?_, ?_⟩
    · rw [exec_bootctlWrite, execBootctlWrite, State.arg_part hissue, State.arg_part hissue]
      simp only [List.getD_cons_zero, List.getD_cons_succ, State.bootWrite]
      refine congrArg _ (if_neg ?_)
      rintro (hlow | hdenied | hother | ⟨hidle, hfailed⟩)
      · omega
      · simp [hmay] at hdenied
      · exact hother hv
      · exact hstate.elim hidle hfailed
    · rw [exec_bootctlWrite, execBootctlWrite, State.arg_part hissue, State.arg_part hissue]
      simp only [List.getD_cons_zero, List.getD_cons_succ, State.bootWrite]
      exact congrArg _ (if_pos (hrefused.imp_right (Or.imp_right (Or.imp_right fun hstate => by omega))))
    · rw [exec_bootCheckComplete, execBootCheckComplete]
      simp only [ne_eq, hstate, not_false_eq_true, if_true]
    · rw [exec_bootCheckComplete]
      exact execBootCheckComplete_runs
    · rw [exec_bootCheckComplete]
      exact execBootCheckComplete_fails
    · intro hissue hwho
      rw [exec_blackboxSnap, execBlackboxSnap, State.arg_part hissue, List.getD_cons_zero, if_pos hwho, State.snap]
      refine ⟨fun hfree => ?_, fun htaken => ?_⟩
      · simp only [hfree]
      · obtain ⟨x, hx⟩ := Option.ne_none_iff_exists'.mp htaken
        simp only [hx]
    · intro hfree
      simp only [exec_blackboxSnapComplete, execBlackboxSnapComplete, hfree]
    · intro recs count hsnap
      rw [exec_blackboxSnapComplete, execBlackboxSnapComplete, hsnap]
      exact ⟨_, _, rfl, rfl, rfl, by rw [length_flatMap_bytesOf, upto_eq_map_range, List.length_map, List.length_range], rfl⟩
  case spdm =>
    intro s tells refused
    refine ⟨⟨_, rfl⟩, fun h => ?_, fun h => ?_, fun h => ?_, fun h => ?_, fun h => ?_, fun h => ?_, ?_⟩
    · rw [exec_getCapabilities, execGetCapabilities, h, if_pos rfl]
      exact ⟨_, rfl⟩
    · rw [exec_getCapabilities, execGetCapabilities, h, if_neg Bool.false_ne_true]
      rfl
    · rw [exec_negotiateAlgorithms, execNegotiateAlgorithms, h, if_pos rfl]
      exact ⟨_, rfl⟩
    · rw [exec_negotiateAlgorithms, execNegotiateAlgorithms, h, if_neg Bool.false_ne_true]
      rfl
    · have hserved (code : Nat) (body : List DWord) : s.attested code body = tells s code body := if_pos h
      exact ⟨⟨_, congrArg _ (hserved _ _)⟩, ⟨_, congrArg _ (hserved _ _)⟩, _, congrArg _ (hserved _ _)⟩
    · have hdenied (code : Nat) (body : List DWord) : s.attested code body = tells s 0x7F [] := if_neg (by simp [h])
      refine ⟨congrArg _ (hdenied _ _), congrArg _ (hdenied _ _), congrArg _ (hdenied _ _), ?_⟩
      rw [exec_getMeasurements, execGetMeasurements]
      split
      iterate 4 exact congrArg _ (hdenied _ _)
      rfl
    · intro m i hissue h
      have hserved (code : Nat) (body : List DWord) : s.attested code body = tells s code body := if_pos h
      rw [exec_getMeasurements, execGetMeasurements, State.arg_part hissue]
      simp only [List.getD_cons_zero, List.getD_cons_succ, hserved]
      refine ⟨?_, ?_, ?_, ?_, fun hother => ?_⟩
      · rintro rfl; rfl
      · rintro rfl; rfl
      · rintro rfl; rfl
      · rintro rfl; rfl
      · split
        iterate 4 omega
        rfl
  case scrub =>
    intro s die n hissue e total noted
    rw [exec_patrolScrub, execPatrolScrub_corrects hissue]
    refine ⟨fun hnothing => ?_, fun htotal hdue => congrArg _ (State.corrections_noted htotal hdue), fun x hx htotal hearly =>
      congrArg _ (State.corrections_counted htotal hx hearly)⟩
    rw [State.corrections]
    exact congrArg _ (if_pos hnothing)
  case storage =>
    intro s unit p a b hissue
    rw [exec_uncorrectableError, execUncorrectableError]
    simp only [State.arg_part hissue, List.getD_cons_zero, List.getD_cons_succ]
    refine ⟨?_, ?_, ?_, ?_, ?_, ?_⟩
    · rintro rfl; rfl
    · rintro rfl; rfl
    · rintro rfl; rfl
    · rintro g rfl hb hg
      simp only [hg, if_pos hb]
    · rintro rfl; rfl
    · rintro l rfl hl
      simp only [hl]
  case registers =>
    intro s who addr v p off q hissue hv
    rw [exec_genericRegisterWrite]
    refine ⟨fun howner hlow halign => ⟨?_, ?_⟩, execGenericRegisterWrite_nowhere hissue, ?_⟩
    · rintro rfl hq
      rw [execGenericRegisterWrite_page hissue howner hlow halign, State.pageWrite_qwptr s who p hv hq]
      exact ⟨fun hmay => congrArg _ (if_pos hmay), fun hmay => congrArg _ (if_neg (by simp [hmay]))⟩
    · rintro rfl
      rw [execGenericRegisterWrite_page hissue howner hlow halign, State.pageWrite_edbase s who p hv]
      exact ⟨fun hmay => congrArg _ (if_pos hmay), fun hmay => congrArg _ (if_neg (by simp [hmay]))⟩
    · intro haddr
      rw [execGenericRegisterWrite_bar hissue haddr (by decide), State.barWrite_nonce s who hv]
      exact ⟨fun hmaster => congrArg _ (if_pos hmaster), fun hother => congrArg _ (if_neg (by omega))⟩

end Sys2Proof.Machine
end

section
/-!
Power, owner election and the host: tokens, the clamp and energy (R308, R354, R355), the election register (R347), limiters and host
windows (R349, R350), and a master's accesses to module memory (R345, R348).
-/
namespace Sys2Proof.Machine

/-! ## Tokens (R308, R355) -/

theorem dropNth_eq_take_drop {α : Type} (l : List α) (n : Nat) : dropNth l n = l.take n ++ l.drop (n + 1) := by
  induction l generalizing n with
  | nil => simp [dropNth]
  | cons x r ih => cases n <;> simp [dropNth, ih]

theorem State.moduleUp_iff (s : State) (m : Nat) :
    s.moduleUp m = true ↔ m = s.fabric.module ∨ ∃ r ∈ s.fabric.remotes, r.module = m ∧ r.up = true := by
  simp only [State.moduleUp, Bool.or_eq_true, beq_iff_eq, List.any_eq_true, Bool.and_eq_true]

/-- What comes back of an open transfer to module `c.1`. -/
def State.comesBack (s : State) (c : Nat × Nat) (n : Nat) : Nat := if s.moduleUp c.1 then min n c.2 else c.2

section
variable {s : State} {n i : Nat} (hissue : s.issue = .part [n, i])
include hissue

theorem execTokenReturnArrival_none (h : s.power.sent[i]? = none) : execTokenReturnArrival s = .next s := by
  rw [execTokenReturnArrival, State.arg_part hissue 1, List.getD_cons_succ, List.getD_cons_zero]
  simp only [h]

theorem execTokenReturnArrival_some {c : Nat × Nat} (h : s.power.sent[i]? = some c) : execTokenReturnArrival s =
    .next { s with power := { s.power with
      held := s.power.held + min (s.comesBack c n) (320 - s.power.held)
      sent := if min (s.comesBack c n) (320 - s.power.held) = s.comesBack c n then s.power.sent.take i ++ s.power.sent.drop (i + 1)
        else s.power.sent.set i (0xFFFF, s.comesBack c n - min (s.comesBack c n) (320 - s.power.held)) } } := by
  rw [execTokenReturnArrival, State.arg_part hissue 1, State.arg_part hissue 0, List.getD_cons_succ, List.getD_cons_zero,
    List.getD_cons_zero, ← dropNth_eq_take_drop]
  simp only [h]
  rfl

end

/-! ## The clamp (R355) -/

/-- Of a falling list `find?` gives the greatest element that passes. -/
theorem find?_falling {l : List Nat} (hfall : l.Pairwise (· > ·)) {test : Nat → Bool} {c d : Nat} (h : l.find? test = some c) (hd : d ∈ l)
    (hlt : c < d) : test d = false := by
  obtain ⟨-, above, below, rfl, habove⟩ := List.find?_eq_some_iff_append.mp h
  obtain hd | hd := List.mem_append.mp hd
  · simpa using habove d hd
  · obtain rfl | hd := List.mem_cons.mp hd
    · exact absurd hlt (lt_irrefl _)
    · exact absurd hlt (List.rel_of_pairwise_cons (List.pairwise_append.mp hfall).2.1 hd).not_gt

theorem State.clampClock_draws (s : State) : 100 ≤ s.clampClock ∧ s.clampClock ≤ 2400 ∧ s.clampClock % 100 = 0 ∧
    (s.clampClock = 100 ∨ Config.freeDraw s.tick s.clampClock ≤ 10 * s.power.held) := by
  rw [State.clampClock]
  cases h : ((upto 1 24).reverse.map (100 * ·)).find? fun c => decide (Config.freeDraw s.tick c ≤ 10 * s.power.held) with
  | none => exact ⟨le_refl _, by decide, rfl, .inl rfl⟩
  | some c =>
    obtain ⟨k, hk, rfl⟩ := List.mem_map.mp (List.mem_of_find?_eq_some h)
    rw [List.mem_reverse, upto_eq_map_range] at hk
    obtain ⟨i, hi, rfl⟩ := List.mem_map.mp hk
    have hi := List.mem_range.mp hi
    rw [Option.getD_some]
    exact ⟨by omega, by omega, Nat.mul_mod_right _ _, .inr (by simpa using List.find?_some h)⟩

theorem State.clampClock_highest (s : State) {d : Nat} (hlt : s.clampClock < d) (hmax : d ≤ 2400) (hstep : d % 100 = 0) :
    10 * s.power.held < Config.freeDraw s.tick d := by
  have hclock : d ∈ (upto 1 24).reverse.map (100 * ·) := by
    have hpos : 0 < d := Nat.pos_of_ne_zero (by rintro rfl; exact absurd hlt (Nat.not_lt_zero _))
    refine List.mem_map.mpr ⟨d / 100, ?_, by omega⟩
    rw [List.mem_reverse, upto_eq_map_range]
    exact List.mem_map.mpr ⟨d / 100 - 1, List.mem_range.mpr (by omega), by omega⟩
  rw [State.clampClock] at hlt
  cases h : ((upto 1 24).reverse.map (100 * ·)).find? fun c => decide (Config.freeDraw s.tick c ≤ 10 * s.power.held) with
  | none => simpa using List.find?_eq_none.mp h d hclock
  | some c =>
    rw [h, Option.getD_some] at hlt
    simpa using find?_falling (by decide) h hclock hlt

section
variable (s : State) (mhz : Nat)

/-- A state that the clamp's record leaves as it was, but for its clock. -/
def State.Clocked (s : State) (mhz : Nat) (t : State) : Prop :=
  t.power = { s.power with clock := mhz } ∧ t.mem = s.mem ∧ t.works = s.works

theorem State.Clocked.clampLock {s t : State} {mhz : Nat} (h : s.Clocked mhz t) (bound p : Nat) : s.Clocked mhz (t.clampLock bound p) := by
  rcases Nat.lt_or_ge bound (t.part p).clk.mhz with hlt | hge
  · rw [State.clampLock_leaves hlt]
    exact h
  · rwa [State.clampLock_keeps hge]

/-- A change of the clock is recorded when a record is due, and then the locks follow. -/
theorem State.setClock_changes (hdiffers : mhz ≠ s.power.clock) : ∃ t, s.Clocked mhz t ∧ t.parts = s.parts ∧
    s.setClock mhz = (t.parts.map (·.1)).foldl (fun u p => u.clampLock mhz p) t := by
  rw [State.setClock]
  simp only [if_neg hdiffers]
  refine ⟨_, ?_, ?_, rfl⟩ <;> split
  · exact ⟨rfl, rfl, rfl⟩
  · split <;> exact ⟨rfl, rfl, rfl⟩
  · rfl
  · split <;> rfl

theorem State.setClock_clocked : s.Clocked mhz (s.setClock mhz) := by
  by_cases hsame : mhz = s.power.clock
  · rw [State.setClock, if_pos hsame]
    exact ⟨by rw [hsame], rfl, rfl⟩
  · obtain ⟨t, ht, -, heq⟩ := s.setClock_changes mhz hsame
    rw [heq]
    exact List.foldlRecOn _ _ ht fun u hu p _ => hu.clampLock mhz p

theorem State.setClock_lone {p : Nat} {x : Partition} (hparts : s.parts = [(p, x)]) :
    (x.clk.mhz ≤ mhz ∨ mhz = s.power.clock → ((s.setClock mhz).part p).clk = x.clk) ∧
      (mhz < x.clk.mhz → mhz ≠ s.power.clock → ((s.setClock mhz).part p).clk = { x.clk with err := true, mhz := 0 }) := by
  have hpart {t : State} (ht : t.parts = s.parts) : t.part p = x := by simp [State.part, ht, hparts, findD, find]
  by_cases hsame : mhz = s.power.clock
  · rw [State.setClock, if_pos hsame, hpart rfl]
    exact ⟨fun _ => rfl, fun _ hdiffers => absurd hsame hdiffers⟩
  · obtain ⟨t, -, ht, heq⟩ := s.setClock_changes mhz hsame
    have hlone : s.setClock mhz = t.clampLock mhz p := by rw [heq, ht, hparts]; rfl
    rw [hlone]
    refine ⟨fun hkeeps => ?_, fun hlt _ => ?_⟩
    · rw [State.clampLock_keeps (by rw [hpart ht]; exact hkeeps.resolve_right hsame), hpart ht]
    · rw [State.clampLock_leaves (by rwa [hpart ht]), hpart ht, State.part, State.bbWrite_parts]
      exact congrArg Partition.clk (State.modPart_part_same t p _)

end

/-! ## Energy (R354) -/

/-- A partition's work without what the attribution of energy changes. -/
def Work.unpaid (w : Work) : Work :=
  { w with
    launches := w.launches.map fun l => (l.1, { l.2 with energy := 0 })
    spent := []
    wgs := w.wgs.map fun g => { g with warps := g.warps.map fun v => { v with paid := 0 } } }

theorem execEnergyAttributionInterval_spec (s : State) : ∃ t, execEnergyAttributionInterval s = .next t ∧ { t with works := s.works } = s ∧
    t.works.map (fun e => (e.1, e.2.unpaid)) = s.works.map (fun e => (e.1, e.2.unpaid)) ∧
    ∀ e ∈ t.works, ∀ g ∈ e.2.wgs, ∀ v ∈ g.warps, v.paid = v.retired := by
  refine ⟨_, rfl, rfl, ?_, ?_⟩
  · rw [List.map_map]
    refine List.map_congr_left fun e _ => ?_
    simp only [Function.comp_def, Work.unpaid, List.map_map]
  · intro e he g hg v hv
    obtain ⟨e, -, rfl⟩ := List.mem_map.mp he
    obtain ⟨g, -, rfl⟩ := List.mem_map.mp hg
    obtain ⟨v, -, rfl⟩ := List.mem_map.mp hv
    rfl

/-! ## Owner election (R347) -/

/-- The election register as a command leaves it, with the record of the change of owner. -/
def State.elected (s : State) (owner : Nat) (e : Election) (cmd : Nat) : State :=
  ({ s with host := { s.host with elect := e } }).bbWrite 0x0503 31 0 7 (owner * 16 + cmd)

section
variable (s : State) (m target : Nat)

theorem State.election_claim : s.election m 1 target =
    if s.host.elect.owner = 15 then s.elected m { s.host.elect with owner := m } 1 else s := rfl

theorem State.election_accept : s.election m 3 target =
    if s.host.elect.pend = m then s.elected m { s.host.elect with owner := m, pend := 15 } 3 else s := rfl

theorem State.election_release : s.election m 4 target =
    if s.host.elect.owner = m then s.elected 15 { s.host.elect with owner := 15, pend := 15 } 4 else s := rfl

theorem State.election_handOver : s.election m 2 target =
    if s.host.elect.owner = m ∧ target < 8 then
      { s with host := { s.host with elect := { s.host.elect with pend := target, target := target } } } else s := rfl

variable {s m target} (hm : m < 8)
include hm

theorem electionOp_master (hissue : s.issue = .part [m]) (cmd : Nat) : electionOp cmd s = .next (s.election m cmd 0) := by
  rw [electionOp, State.arg_part hissue, State.arg_part hissue, List.getD_cons_zero, if_pos hm]
  rfl

theorem electionOp_target (hissue : s.issue = .part [m, target]) (cmd : Nat) : electionOp cmd s = .next (s.election m cmd target) := by
  rw [electionOp, State.arg_part hissue, State.arg_part hissue, List.getD_cons_zero, if_pos hm]
  rfl

end

/-! ## Limiters and host windows (R349, R350) -/

theorem State.mayWrite_below {who : Nat} (s : State) (h : who < 16) (level : Nat) : s.mayWrite who level = decide (level ≤ who) := if_pos h

theorem State.mayWrite_master (s : State) (m level : Nat) : s.mayWrite (16 + m) level = true ↔ s.host.elect.owner = m ∧ m < 15 := by
  rw [State.mayWrite, if_neg (by omega), Nat.add_sub_cancel_left, Bool.and_eq_true, decide_eq_true_eq, decide_eq_true_eq]

/-- The bits of a limiter word that are not reserved. -/
theorem limiter_reserved {v : Nat} (hv : v < 2 ^ 32) :
    (bitsOf v 31 28 ≠ 0 ∨ bitsOf v 15 9 ≠ 0) ↔ ¬(v / 2 ^ 28 = 0 ∧ v / 2 ^ 9 % 2 ^ 7 = 0) := by
  rw [bitsOf_word_top hv 28 (by decide), not_and_or]
  rfl

section
variable {s : State} {who p q v : Nat} (hv : v < 2 ^ 32)
include hv

theorem State.limiterWrite_legal (hmaster : 16 ≤ who) (hmay : s.mayWrite who 3 = true) (hp : p < 28) (hq : q < 16)
    (hlegal : v / 2 ^ 28 = 0 ∧ v / 2 ^ 9 % 2 ^ 7 = 0) : s.limiterWrite who p q v =
    let s1 : State := { s with host := { s.host with limiters := put s.host.limiters (16 * p + q) (BitVec.ofNat 32 v) } }
    if s.carries p = false ∧ s1.carries p = true then s1.resumeTraffic p else s1 := by
  have hkept : ¬(bitsOf v 31 28 ≠ 0 ∨ bitsOf v 15 9 ≠ 0) := fun h => (limiter_reserved hv).mp h hlegal
  rw [State.limiterWrite, if_neg]
  · simp only [Bool.and_eq_true, Bool.not_eq_true']
  · simp only [hmay, Bool.true_eq_false, false_or]
    omega

theorem State.limiterWrite_refused (h : who < 16 ∨ s.mayWrite who 3 = false ∨ ¬(v / 2 ^ 28 = 0 ∧ v / 2 ^ 9 % 2 ^ 7 = 0)) :
    s.limiterWrite who p q v = s := by
  refine if_pos ?_
  rw [← limiter_reserved hv] at h
  obtain h | h | h := h
  · exact .inl h
  · exact .inr (.inl h)
  · exact .inr (.inr (.inr (.inr h)))

end

/-- What a host window takes: no reserved bit of either half. -/
theorem window_reserved {half v : Nat} (hv : v < 2 ^ 64) :
    (2 ≤ half ∨ (half = 0 ∧ bitsOf v 5 5 ≠ 0) ∨ half = 1 ∧ (bitsOf v 63 52 ≠ 0 ∨ bitsOf v 11 0 ≠ 0)) ↔
      ¬(half = 0 ∧ v / 2 ^ 5 % 2 = 0 ∨ half = 1 ∧ v / 2 ^ 52 = 0 ∧ v % 2 ^ 12 = 0) := by
  have hhigh : bitsOf v 63 52 = v / 2 ^ 52 := Nat.mod_eq_of_lt (by omega)
  have hlow : bitsOf v 11 0 = v % 2 ^ 12 := congrArg (· % 2 ^ 12) (Nat.div_one v)
  have hbit : bitsOf v 5 5 = v / 2 ^ 5 % 2 := rfl
  rw [hhigh, hlow, hbit]
  omega

section
variable {s : State} {who h half v : Nat} (hv : v < 2 ^ 64)
include hv

theorem State.windowWrite_legal (hmay : s.mayWrite who 3 = true) (hh : h < 16)
    (hlegal : half = 0 ∧ v / 2 ^ 5 % 2 = 0 ∨ half = 1 ∧ v / 2 ^ 52 = 0 ∧ v % 2 ^ 12 = 0) : s.windowWrite who h half v =
    { s with host := { s.host with windows := put s.host.windows (2 * h + half) (BitVec.ofNat 64 v) } } := by
  refine if_neg ?_
  rintro (hdenied | hrange | hreserved)
  · simp [hmay] at hdenied
  · omega
  · exact (window_reserved hv).mp hreserved hlegal

theorem State.windowWrite_refused
    (hrefused : s.mayWrite who 3 = false ∨ ¬(half = 0 ∧ v / 2 ^ 5 % 2 = 0 ∨ half = 1 ∧ v / 2 ^ 52 = 0 ∧ v % 2 ^ 12 = 0)) :
    s.windowWrite who h half v = s :=
  if_pos (hrefused.imp_right fun hreserved => .inr ((window_reserved hv).mpr hreserved))

end

/-! ## Accesses of a master to module memory (R345, R348, R393) -/

/-- The host reaches a span of the module's DRAM that lies inside a window of each partition in use or meets none of it. -/
theorem State.hostReaches_iff (s : State) (a n : Nat) : s.hostReaches a n = true ↔
    a + n ≤ 1536 * 2 ^ 30 ∧ ∀ e ∈ s.parts, e.2.state = .off ∨ e.2.inWindow a n = true ∨ ∀ w ∈ e.2.windows, a + n ≤ w.1 ∨ w.1 + w.2 ≤ a := by
  simp only [State.hostReaches, Partition.meetsWindow, Bool.and_eq_true, decide_eq_true_eq, List.all_eq_true, Bool.or_eq_true, beq_iff_eq,
    Bool.not_eq_true', List.any_eq_false, not_and_or, not_lt, or_assoc]

theorem ofBytes_bytesOf (n v : Nat) : ofBytes (bytesOf n v) = v % 256 ^ n := by
  induction n generalizing v with
  | zero => rw [bytesOf, ofBytes, Nat.pow_zero, Nat.mod_one]
  | succ n ih =>
    have hbyte : (BitVec.ofNat 8 v : Byte).toNat = v % 256 := BitVec.toNat_ofNat v 8
    rw [bytesOf, ofBytes, ih, hbyte, Nat.pow_succ', Nat.mod_mul]

/-- A dword of the register space, byte by byte. -/
theorem dwordBytes_dword (f : Nat → Nat) : dwordBytes f 0 8 = bytesOf 8 (f 0) := by
  simp [dwordBytes, bytesOf, Nat.div_div_eq_div_mul]

section
variable {s : State} {m a n : Nat} (hissue : s.issue = .part [m, a, n]) (hn : n ≤ 64)
include hissue

theorem execHostMemRead_noMaster (hm : 8 ≤ m) : execHostMemRead s = .next s := by
  simp only [execHostMemRead, State.arg_part hissue, List.getD_cons_zero, if_pos hm]

variable (hm : m < 8)
include hm hn

theorem execHostMemRead_memory (ha : a < 2 ^ 60) : execHostMemRead s = .next (
    if s.hostReaches a n = false then { s with host := { s.host with lastRead := none } }
    else
      let s1 := { s with host := { s.host with lastRead := some (s.mem.poisoned a n, ofBytes (s.hostBytes a n)) } }
      if s.mem.poisoned a n then s1.bbWrite 0x0202 ((s.windowOwner a n).getD 31) 0 7 0 else s1) := by
  simp only [execHostMemRead, State.arg_part hissue, List.getD_cons_zero, List.getD_cons_succ, if_neg (Nat.not_le.mpr hm), barSpace,
    if_neg (Nat.not_le.mpr ha), min_eq_left hn, Bool.not_eq_true']

omit hn in
/-- The election register as master `m` reads it. -/
theorem execHostMemRead_election (hn : n = 8) (ha : a = 2 ^ 60) : execHostMemRead s =
    .next { s with host := { s.host with lastRead := some (false,
      (m * 2 ^ 20 + s.host.elect.owner * 2 ^ 16 + s.host.elect.pend * 2 ^ 12 + s.host.elect.target * 2 ^ 8) % 2 ^ 64) } } := by
  subst hn ha
  have hbar : ofBytes (dwordBytes (s.barDword m) (2 ^ 60 - 2 ^ 60) (min 8 64)) = s.barDword m 0 % 2 ^ 64 := by
    rw [Nat.sub_self, show min 8 64 = 8 from rfl, dwordBytes_dword, ofBytes_bytesOf, show 256 ^ 8 = 2 ^ 64 from rfl]
  simp only [execHostMemRead, State.arg_part hissue, List.getD_cons_zero, List.getD_cons_succ, if_neg (Nat.not_le.mpr hm), barSpace,
    le_refl, if_true, hbar]
  rfl

end

theorem not_hostWrite_refused {s : State} {m a n : Nat} (howner : s.host.elect.owner = m) (hm : m < 15) (hreaches : s.hostReaches a n = true) :
    ¬(s.mayWrite (16 + m) 3 = false ∨ s.hostReaches a n = false) := by
  rw [(s.mayWrite_master m 3).mpr ⟨howner, hm⟩, hreaches]
  decide

section
variable {s : State} {m a n v : Nat} (hissue : s.issue = .part [m, a, n, v]) (hn : n ≤ 64)
include hissue hn

theorem execHostMemWrite_refused (h : s.host.elect.owner ≠ m ∨ 15 ≤ m ∨ s.hostReaches a n = false) : execHostMemWrite s = .next s := by
  have hrefused : s.mayWrite (16 + m) 3 = false ∨ s.hostReaches a n = false := by
    rw [← Bool.not_eq_true, State.mayWrite_master, not_and_or, not_lt]
    exact or_assoc.mpr h
  simp only [execHostMemWrite, State.arg_part hissue, List.getD_cons_zero, List.getD_cons_succ, min_eq_left hn, if_pos hrefused]

variable (howner : s.host.elect.owner = m) (hm : m < 15) (hreaches : s.hostReaches a n = true)
include howner hm hreaches

theorem execHostMemWrite_memory (hpage : s.pageOwner a = none) : execHostMemWrite s =
    .next { s.wrote false (s.parts.map (·.1)) 5 [] a n with
      mem := s.mem.write a ((List.range n).map fun i => BitVec.ofNat 8 (v / 256 ^ i)) } := by
  rw [← bytesOf_eq_map_range]
  simp only [execHostMemWrite, State.arg_part hissue, List.getD_cons_zero, List.getD_cons_succ, min_eq_left hn,
    if_neg (not_hostWrite_refused howner hm hreaches), hpage]

theorem execHostMemWrite_page (hpage : s.pageOwner a ≠ none) : execHostMemWrite s =
    .next { s with follow := s.follow ++ [⟨.genericRegisterWrite, [16 + m, a, v % 2 ^ (8 * n), n]⟩] } := by
  obtain ⟨x, hx⟩ := Option.ne_none_iff_exists'.mp hpage
  simp only [execHostMemWrite, State.arg_part hissue, List.getD_cons_zero, List.getD_cons_succ, min_eq_left hn,
    if_neg (not_hostWrite_refused howner hm hreaches), hx]

end

/-- Settles O59: each event is its equation; of the host's accesses the span that the host reaches decides. -/
theorem powerAndHostEventsAct : Obligations.PowerAndHostEventsAct := by
  unfold Obligations.PowerAndHostEventsAct
  refine ⟨fun s a b m => ?power, ?election, ?limiter, ?window, ?access⟩
  case power =>
    intro held
    refine ⟨fun hissue => ?receive, fun hissue => ⟨?closed, ?returned⟩, fun hissue => ?taken, fun hissue => ⟨?none, ?sent⟩, ?clamp,
      ?energy, ?idle⟩
    case receive =>
      rw [exec_tokenReceive, execTokenReceive, State.arg_part hissue, State.arg_part hissue]
      rfl
    case closed =>
      rw [exec_tokenReturnArrival]
      exact execTokenReturnArrival_none hissue
    case returned =>
      intro c hc up
      have hup : s.moduleUp c.1 = true ↔ up := s.moduleUp_iff c.1
      refine ⟨s.comesBack c a, fun h => if_pos (hup.mpr h), fun h => if_neg (mt hup.mp h), ?_⟩
      intro kept
      rw [exec_tokenReturnArrival]
      exact execTokenReturnArrival_some hissue hc
    case taken =>
      rw [exec_tokenBrokerMove, execTokenBrokerMove, State.arg_part hissue, State.arg_part hissue, State.arg_part hissue]
      rfl
    case none =>
      intro hnone
      have hsendable : ¬s.sendable a = true := by rw [State.sendable_iff]; omega
      rw [exec_tokenBrokerMove, execTokenBrokerMove]
      simp only [State.arg_part hissue, List.getD_cons_zero, List.getD_cons_succ, zero_ne_one, if_false, if_neg hsendable]
    case sent =>
      intro hpos hspare s1
      have hsendable : s.sendable a = true := (s.sendable_iff a).mpr ⟨hpos, hspare⟩
      rw [exec_tokenBrokerMove, execTokenBrokerMove]
      simp only [State.arg_part hissue, List.getD_cons_zero, List.getD_cons_succ, zero_ne_one, if_false, if_pos hsendable]
      rfl
    case clamp =>
      intro c draws
      obtain ⟨hlow, hhigh, hstep, hdraws⟩ := s.clampClock_draws
      obtain ⟨hpower, hmem, hworks⟩ := s.setClock_clocked s.clampClock
      exact ⟨hlow, hhigh, hstep, hdraws, fun d => s.clampClock_highest, _, exec_powerClampAdjust s, hpower, hmem, hworks, fun p x =>
        s.setClock_lone s.clampClock⟩
    case energy =>
      intro strip
      rw [exec_energyAttributionInterval]
      exact execEnergyAttributionInterval_spec s
    case idle =>
      intro hissue hrunning hcount
      have hpays : (s.present a && decide (1 ≤ (s.part a).encount)) = true := by simp [State.present, hrunning, hcount]
      rw [exec_energyIdleSlotAdd, execEnergyIdleSlotAdd, State.arg_part hissue]
      exact congrArg _ (if_pos hpays)
  case election =>
    intro s m x hm e owned
    refine ⟨fun hissue => ?_, fun hissue => ?_, fun howned => ?_, fun hfree => ?_⟩
    · rw [exec_ownerClaim, exec_ownerAccept, exec_ownerRelease, execOwnerClaim, execOwnerAccept, execOwnerRelease,
        electionOp_master hm hissue, electionOp_master hm hissue, electionOp_master hm hissue, State.election_claim, State.election_accept,
        State.election_release]
      exact ⟨fun h => congrArg _ (if_pos h), fun h => congrArg _ (if_neg h), fun h => congrArg _ (if_pos h), fun h => congrArg _ (if_neg h),
        fun h => congrArg _ (if_pos h), fun h => congrArg _ (if_neg h)⟩
    · rw [exec_ownerHandOver, execOwnerHandOver, electionOp_target hm hissue, State.election_handOver]
      exact ⟨fun howner hx => congrArg _ (if_pos ⟨howner, hx⟩), fun hrefused => congrArg _ (if_neg fun h =>
        hrefused.elim (absurd h.1) (Nat.not_le.mpr h.2))⟩
    · rw [exec_ownerLinkDown, execOwnerLinkDown]
      exact congrArg _ (if_neg howned)
    · rw [exec_ownerLinkDown, execOwnerLinkDown]
      exact congrArg _ (if_pos hfree)
  case limiter =>
    intro s who p q v hissue hv legal
    rw [exec_portLimiterWrite, execPortLimiterWrite]
    simp only [State.arg_part hissue, List.getD_cons_zero, List.getD_cons_succ, Nat.mod_eq_of_lt hv]
    exact ⟨fun hmaster hmay hp hq hlegal => congrArg _ (State.limiterWrite_legal hv hmaster hmay hp hq hlegal), fun hrefused =>
      congrArg _ (State.limiterWrite_refused hv hrefused)⟩
  case window =>
    intro s who h half v hissue hv legal
    rw [exec_hostWindowWrite, execHostWindowWrite]
    simp only [State.arg_part hissue, List.getD_cons_zero, List.getD_cons_succ, Nat.mod_eq_of_lt hv]
    exact ⟨fun hmay hh hlegal => congrArg _ (State.windowWrite_legal hv hmay hh hlegal), fun hrefused =>
      congrArg _ (State.windowWrite_refused hv hrefused)⟩
  case access =>
    intro s m a n v hn reached
    have hreached : s.hostReaches a n = true ↔ reached := s.hostReaches_iff a n
    have hbeyond (h : ¬reached) : s.hostReaches a n = false := by rwa [← Bool.not_eq_true, hreached]
    refine ⟨fun hissue => ?read, fun hissue => ?write⟩
    case read =>
      intro seen value
      rw [exec_hostMemRead]
      refine ⟨execHostMemRead_noMaster hissue, fun hm ha hout => ?_, fun hm ha hin hpage => ?_, execHostMemRead_election hissue⟩
      · rw [execHostMemRead_memory hissue hn hm ha, if_pos (hbeyond hout)]
      · have hvalue : ofBytes (s.hostBytes a n) = value := by
          rw [State.hostBytes, hpage]
          exact congrArg ofBytes (Memory.bytes_eq_map_range _ _ _)
        have hreaches : ¬s.hostReaches a n = false := by rw [hreached.mpr hin]; exact Bool.true_eq_false ▸ id
        rw [execHostMemRead_memory hissue hn hm ha, if_neg hreaches, hvalue]
        exact ⟨fun hclean => by rw [hclean]; rfl, fun hpoison => by rw [hpoison]; rfl⟩
    case write =>
      intro stored
      rw [exec_hostMemWrite]
      refine ⟨fun hrefused => execHostMemWrite_refused hissue hn (hrefused.imp_right (Or.imp_right hbeyond)), fun howner hm hin =>
        execHostMemWrite_memory hissue hn howner hm (hreached.mpr hin), fun howner hm hin =>
        execHostMemWrite_page hissue hn howner hm (hreached.mpr hin)⟩

end Sys2Proof.Machine
end

section
/-!
Partitions from outside: the commands of a descriptor (R314, R317, R322 to R324), what completes a freeze and a tear-down, and writes of a
descriptor's fields (R313, R315).
-/
namespace Sys2Proof.Machine

/-! ## Commands and their refusals (R313, R314) -/

theorem Partition.badHead_iff (x : Partition) : x.badHead = true ↔ bitsOf (x.dword 0) 47 16 ≠ 0 ∨ bitsOf (x.dword 0) 10 8 ≠ 0 := by
  simp only [Partition.badHead, Bool.or_eq_true, bne_iff_ne]

section
variable {s : State} {who p : Nat} (hissue : s.issue = .part [who, p]) (cmd : Nat)
include hissue

theorem commandOp_denied (h : s.mayWrite who 3 = false) : commandOp cmd s = .next s := by
  simp only [commandOp, State.arg_part hissue, List.getD_cons_zero, h, Bool.false_and, Bool.false_eq_true, if_false]

theorem commandOp_permitted (h : s.mayWrite who 3 = true) (hp : p < 28) : commandOp cmd s = .next (s.command p cmd) := by
  simp only [commandOp, State.arg_part hissue, List.getD_cons_zero, List.getD_cons_succ, h, decide_eq_true hp, Bool.and_self, if_true]

end

section
variable {s : State} {p : Nat}

theorem State.command_reserved {cmd : Nat} (hcmd : cmd ≠ 0) (h : (s.part p).badHead = true) : s.command p cmd = s.refuse p cmd 4 :=
  if_pos ⟨hcmd, h⟩

section
variable (h : ¬(s.part p).badHead = true)
include h

theorem State.command_activate : s.command p 1 = s.activate p := if_neg fun hbad => h hbad.2
theorem State.command_freeze : s.command p 2 = s.freeze p := if_neg fun hbad => h hbad.2
theorem State.command_resume : s.command p 3 = s.resume p := if_neg fun hbad => h hbad.2
theorem State.command_tearKeeping : s.command p 4 = s.tearDown p 4 := if_neg fun hbad => h hbad.2
theorem State.command_tearExporting : s.command p 5 = s.tearDown p 5 := if_neg fun hbad => h hbad.2

end

theorem State.activate_refused {why : Nat} (hoff : (s.part p).state = .off) (h : s.activationWhy p = some why) :
    s.activate p = s.refuse p 1 why := by
  rw [State.activate, if_neg (not_not.mpr hoff), h]

theorem State.activate_done (hoff : (s.part p).state = .off) (h : s.activationWhy p = none) :
    s.activate p = (((s.clearCores p).modPart p Partition.activated).modWork p fun _ => Work.empty).carryOut p 1 := by
  rw [State.activate, if_neg (not_not.mpr hoff), h]

/-! ## Freeze (R322) -/

/-- No access of a peer is parked. -/
theorem State.dropAllParked_none (h : (s.part p).parked = []) : s.dropAllParked p = s := by
  rw [State.dropAllParked, h, List.foldl_nil]

end

/-- What a pre-emption leaves: descriptors and gates. -/
def State.SparesGates (s t : State) : Prop := t.parts = s.parts ∧ t.gates = s.gates

theorem State.leave_sparesGates (s : State) (p : Nat) (gs : List WorkGroup) (hold : Bool) : s.SparesGates (s.leave p gs hold) := by
  cases gs with
  | nil => exact ⟨rfl, rfl⟩
  | cons g rest =>
    refine List.foldlRecOn (motive := fun t => s.SparesGates t) (g :: rest) _ ⟨rfl, rfl⟩ fun t ht x _ => ?_
    exact ht

theorem State.preemptGroup_sparesGates (s : State) (p : Nat) (g : WorkGroup) (hold : Bool) : s.SparesGates (s.preemptGroup p g hold) := by
  rw [State.preemptGroup]
  dsimp only
  split
  · exact s.leave_sparesGates p _ _
  · exact ⟨rfl, rfl⟩

theorem State.preemptEach_sparesGates (s : State) (p : Nat) (ids : List Nat) (hold : Bool) : s.SparesGates (s.preemptEach p ids hold) := by
  refine List.foldlRecOn (motive := fun t => s.SparesGates t) ids _ ⟨rfl, rfl⟩ fun t ht id _ => ?_
  obtain ⟨hparts, hgates⟩ := ht
  cases (t.work p).wg id with
  | none => exact ⟨hparts, hgates⟩
  | some g =>
    obtain ⟨hparts', hgates'⟩ := t.preemptGroup_sparesGates p g hold
    exact ⟨hparts'.trans hparts, hgates'.trans hgates⟩

theorem State.carryOut_part (s : State) (p cmd : Nat) : (s.carryOut p cmd).part p = { s.part p with err := false } :=
  State.modPart_part_same s p fun x => { x with err := false }

/-- A descriptor as its freeze begins. -/
def Partition.freezes (x : Partition) : Partition :=
  { x.releaseSlots with state := .freezing, queues := x.queues.map fun e => (e.1, e.2.abandon) }

section
variable {s : State} {p : Nat} (hrunning : (s.part p).state = .running) (hparked : (s.part p).parked = [])
include hrunning hparked

theorem State.freeze_eq : s.freeze p = (((s.carryOut p 2).modPart p Partition.freezes).preemptEach p ((s.work p).wgs.map (·.id)) false) := by
  have hnone : ((s.carryOut p 2).part p).parked = [] := by rw [State.carryOut_part, hparked]
  rw [State.freeze, if_neg (not_not.mpr hrunning), State.dropAllParked_none hnone]
  rfl

theorem State.freeze_begins :
    ((s.freeze p).part p).state = .freezing ∧ (s.freeze p).mem = s.mem ∧ (s.freeze p).gates = s.gates := by
  rw [State.freeze_eq hrunning hparked]
  obtain ⟨hparts, hgates⟩ := ((s.carryOut p 2).modPart p Partition.freezes).preemptEach_sparesGates p ((s.work p).wgs.map (·.id)) false
  refine ⟨?_, State.preemptEach_mem, hgates⟩
  rw [State.part, hparts]
  exact congrArg Partition.state (State.modPart_part_same (s.carryOut p 2) p _)

end

/-! ## Resume (R323, R324) -/

/-- The number that a mark holds. -/
theorem imageMark_number {n : Nat} (h : n < 2 ^ 64) : imageMark n % 2 ^ 64 = n := by
  rw [imageMark, Nat.add_mul_mod_self_left, Nat.mod_eq_of_lt h]

/-- An image is found by its mark, wherever that stands. -/
theorem State.imageAt_marked {s : State} {a n : Nat} (hkept : ∃ m ∈ s.images, m.serial = n) (hserials : ∀ m ∈ s.images, m.serial < 2 ^ 64)
    (hmark : s.mem.read a 64 = imageMark n) : ∃ m ∈ s.images, m.serial = n ∧ s.imageAt a = some m := by
  obtain ⟨m, hm, rfl⟩ := hkept
  rw [State.imageAt, hmark]
  cases hfound : s.images.find? fun x => imageMark x.serial == imageMark m.serial with
  | none => exact absurd (List.find?_eq_none.mp hfound m hm) (by simp)
  | some y =>
    have hy := List.mem_of_find?_eq_some hfound
    have hsame : imageMark y.serial = imageMark m.serial := by simpa using List.find?_some hfound
    refine ⟨y, hy, ?_, rfl⟩
    rw [← imageMark_number (hserials y hy), hsame, imageMark_number (hserials m hm)]

section
variable {s : State} {p : Nat}

theorem State.resume_nowhere (h : s.imageAt (s.part p).imageAddr = none) : s.resume p = s.refuse p 3 5 := by rw [State.resume, h]

variable {m : SaveImage} (hm : s.imageAt (s.part p).imageAddr = some m)
include hm

theorem State.resume_open (h : m.kind = 0 ∨ (s.part p).state ≠ .off) : s.resume p = s.refuse p 3 5 := by
  rw [State.resume, hm]
  exact if_pos h.symm

variable (hkind : m.kind ≠ 0) (hoff : (s.part p).state = .off)
include hkind hoff

theorem State.resume_unfit {why : Nat} (h : s.activationWhy p = some why) : s.resume p = s.refuse p 3 why := by
  rw [State.resume, hm]
  dsimp only
  rw [if_neg (not_or.mpr ⟨not_not.mpr hoff, hkind⟩), h]

variable (hfits : s.activationWhy p = none)
include hfits

theorem State.resume_badGates {why : Nat} (h : s.gatesWhy m = some why) : s.resume p = s.refuse p 3 why := by
  rw [State.resume, hm]
  dsimp only
  rw [if_neg (not_or.mpr ⟨not_not.mpr hoff, hkind⟩), hfits, h]

/-- An image without gates, all of whose deques are empty. -/
theorem State.resume_done {ds : List Deque} {tqs : List TileQueue} (hgates : s.gatesWhy m = none) (hds : m.deques (64 * sliceCount p) = some ds)
    (htqs : m.tileQueues p = some tqs) (hnone : m.gates = []) (hempty : ∀ d ∈ ds, d.entries = []) : s.resume p =
    (((s.clearCores p).modPart p (m.partAt s)).modWork p fun _ => m.workAt p (s.part p).enbase s.cycle tqs).carryOut p 3 := by
  have hkeeps (t : State) : ((upto 0 ds.length).zip ds).foldl (fun st e =>
      if e.2.entries.isEmpty then st else st.modCore (64 * firstSlice p + e.1) fun c => { c with deque := e.2 }) t = t := by
    refine List.foldlRecOn (motive := fun u => u = t) _ _ rfl fun u hu e he => ?_
    rw [hempty e.2 (List.of_mem_zip he).2]
    exact hu
  have hthaws (t : State) : t.resumeGates p m = t := by rw [State.resumeGates, hnone, List.foldl_nil]
  rw [State.resume, hm]
  dsimp only
  rw [if_neg (not_or.mpr ⟨not_not.mpr hoff, hkind⟩), hfits, hgates, hds, htqs]
  dsimp only
  rw [hkeeps, hthaws]

end

/-! ## Gates of a partition that freezes or is torn down (R317, R322) -/

theorem mem_of_find {α : Type} {m : Map α} {k : Nat} {v : α} (h : find m k = some v) : (k, v) ∈ m := by
  induction m with
  | nil => exact absurd h (by simp [find])
  | cons e r ih =>
    obtain ⟨j, w⟩ := e
    rw [find] at h
    split at h
    · next hk => obtain rfl := Option.some.inj h; exact hk ▸ List.mem_cons_self
    · exact List.mem_cons_of_mem _ (ih h)

theorem State.mem_homed {s : State} {p n : Nat} (hv : (s.gate n).v = true) (hhome : (s.gate n).home = p) : n ∈ s.homed p := by
  cases hfound : find s.gates n with
  | none =>
    have hempty : s.gate n = Gate.empty := by rw [State.gate, findD, hfound, Option.getD_none]
    exact absurd (hempty ▸ hv) (by decide)
  | some g =>
    have hgate : s.gate n = g := by rw [State.gate, findD, hfound, Option.getD_some]
    refine List.mem_map.mpr ⟨(n, g), List.mem_filter.mpr ⟨mem_of_find hfound, ?_⟩, rfl⟩
    rw [Bool.and_eq_true, beq_iff_eq]
    exact ⟨hgate ▸ hv, hgate ▸ hhome⟩

/-- A change that is the same done twice, made to each gate of a list. -/
theorem foldl_modGate_gate (f : Gate → Gate) (hf : ∀ g, f (f g) = f g) (l : List Nat) (s : State) {n : Nat} (hn : n ∈ l) :
    (l.foldl (fun st k => st.modGate k f) s).gate n = f (s.gate n) := by
  have hkept (l : List Nat) (t : State) (h : f (t.gate n) = t.gate n) : (l.foldl (fun st k => st.modGate k f) t).gate n = t.gate n := by
    induction l generalizing t with
    | nil => rfl
    | cons k r ih =>
      have hsame : (t.modGate k f).gate n = t.gate n := by
        by_cases hk : n = k
        · rw [← hk, State.modGate_gate_same, h]
        · rw [State.modGate_gate_other (s := t) f hk]
      rw [List.foldl_cons, ih _ (by rw [hsame, h]), hsame]
  induction l generalizing s with
  | nil => exact absurd hn List.not_mem_nil
  | cons k r ih =>
    rw [List.foldl_cons]
    by_cases hk : n = k
    · rw [← hk, hkept r _ (by rw [State.modGate_gate_same, hf]), State.modGate_gate_same]
    · rw [ih _ ((List.mem_cons.mp hn).resolve_left hk), State.modGate_gate_other (s := s) f hk]

/-- What a change of gates leaves. -/
theorem foldl_modGate_rest (f : Gate → Gate) (l : List Nat) (s : State) :
    { l.foldl (fun st k => st.modGate k f) s with gates := s.gates } = s := by
  induction l generalizing s with
  | nil => rfl
  | cons k r ih => exact congrArg (fun t : State => { t with gates := s.gates }) (ih (s.modGate k f))

/-- A gate kept by a tear-down: frozen and homeless. -/
def Gate.orphaned (g : Gate) : Gate := { g with frz := true, home := 31 }

theorem State.tearGates_keeping (s : State) (p : Nat) :
    (s.tearGates p false).1 = (s.homed p).foldl (fun st n => st.modGate n Gate.orphaned) s := by
  have hfirst (l : List Nat) (acc : State × Map Gate) : (l.foldl (fun acc n => (acc.1.modGate n Gate.orphaned,
      acc.2 ++ [(n, Gate.empty)])) acc).1 = l.foldl (fun st n => st.modGate n Gate.orphaned) acc.1 := by
    induction l generalizing acc with
    | nil => rfl
    | cons n r ih => rw [List.foldl_cons, List.foldl_cons, ih]
  exact hfirst _ (s, [])

section
variable {s : State} {p : Nat}

theorem State.tearDown_carriedOut (h : (s.part p).state = .running ∨ (s.part p).state = .frozen) (cmd : Nat) : s.tearDown p cmd =
    let r := ((s.carryOut p cmd).dropAllParked p).tearGates p (cmd == 5)
    let torn := ((r.1.closeImage p cmd r.2).modWork p fun w =>
      { w with launches := w.launches ++ (s.frozenWork p).launches.filter fun l => !l.2.pushing }).modPart p fun x =>
      { x.releaseSlots with state := .tearing, queues := x.queues.map fun e => (e.1, e.2.abandon), channels := [] }
    ((torn.work p).launches.map (·.1)).foldl (fun st seq => st.endLaunch p seq .aborted) torn :=
  if_neg fun hneither => h.elim hneither.1 hneither.2

theorem State.closeImage_works (kind : Nat) (gates : Map Gate) : (s.closeImage p kind gates).works = s.works := by
  simp only [State.closeImage, State.addImage]

theorem State.closeImage_gates (kind : Nat) (gates : Map Gate) : (s.closeImage p kind gates).gates = s.gates := by
  simp only [State.closeImage, State.addImage]

/-- A partition without launches that is torn down keeps its gates frozen and homeless. -/
theorem State.tearDown_keeps (h : (s.part p).state = .running ∨ (s.part p).state = .frozen) (hparked : (s.part p).parked = [])
    (hnone : (s.work p).launches = []) (hfrozen : (s.frozenWork p).launches = []) {n : Nat} (hv : (s.gate n).v = true)
    (hhome : (s.gate n).home = p) : (s.tearDown p 4).gate n = (s.gate n).orphaned := by
  have hspared : (s.carryOut p 4).dropAllParked p = s.carryOut p 4 := State.dropAllParked_none (by rw [State.carryOut_part, hparked])
  have hgates := State.tearGates_keeping (s.carryOut p 4) p
  have hrest := foldl_modGate_rest Gate.orphaned ((s.carryOut p 4).homed p) (s.carryOut p 4)
  have hworks : ((s.carryOut p 4).tearGates p false).1.works = s.works := by
    rw [hgates]
    exact (congrArg State.works hrest :)
  have hlaunches : ((((s.carryOut p 4).tearGates p false).1.closeImage p 4 ((s.carryOut p 4).tearGates p false).2).work p).launches = [] := by
    rw [State.work, State.closeImage_works, hworks]
    exact hnone
  rw [State.tearDown_carriedOut h]
  dsimp only
  rw [hspared, show ((4 : Nat) == 5) = false from rfl, hfrozen, State.modPart_work, State.modWork_work_same]
  simp only [hlaunches, List.filter_nil, List.append_nil, List.map_nil, List.foldl_nil]
  rw [State.gate, State.modPart_gates, State.modWork_gates, State.closeImage_gates, hgates]
  exact foldl_modGate_gate Gate.orphaned (fun _ => rfl) ((s.carryOut p 4).homed p) (s.carryOut p 4) (State.mem_homed hv hhome)

/-! ## The ends of a freeze and of a tear-down (R317, R322) -/

theorem State.freezeComplete_waits (h : (s.part p).state ≠ .freezing ∨ s.quiet p = false) : s.freezeComplete p = s := if_pos h

variable (s p) in
/-- The gates of a partition frozen. -/
def State.iced : State := (s.homed p).foldl (fun st n => st.modGate n fun g => { g with frz := true }) s

variable (s p) in
/-- The image of a partition whose freeze completes. -/
def State.frozenImage : SaveImage :=
  ⟨s.images.length + 1, 0, p, s.part p, s.work p, (s.cores.filter fun e => ownsCore p e.1).map fun e => (e.1, e.2.deque), (s.iced p).homedGates p⟩

theorem State.freezeComplete_done (hfreezing : (s.part p).state = .freezing) (hquiet : s.quiet p = true) : s.freezeComplete p =
    (({ s.iced p with
      cores := s.cores.filter fun e => !ownsCore p e.1
      images := s.images ++ [s.frozenImage p]
      mem := s.mem.write (s.part p).imageAddr (bytesOf 64 (imageMark (s.images.length + 1))) }).modWork p fun _ => Work.empty).modPart p
        fun y => { y with state := .frozen } := by
  have hrest : { s.iced p with gates := s.gates } = s := foldl_modGate_rest _ _ _
  have hcores : (s.iced p).cores = s.cores := (congrArg State.cores hrest :)
  have himages : (s.iced p).images = s.images := (congrArg State.images hrest :)
  have hmem : (s.iced p).mem = s.mem := (congrArg State.mem hrest :)
  rw [State.freezeComplete, if_neg (by rw [hquiet]; exact not_or.mpr ⟨not_not.mpr hfreezing, Bool.true_eq_false ▸ id⟩), ← State.iced]
  simp only [State.addImage, State.clearCores, hcores, himages, hmem]
  rfl

theorem State.tearComplete_waits (h : (s.part p).state ≠ .tearing) : s.tearComplete p = s := if_pos (.inl h)

theorem State.tearComplete_done (htearing : (s.part p).state = .tearing) (hcmds : ∀ q ∈ (s.work p).seqs, q.cmds = [])
    (hstores : (s.work p).stores = []) (hlaunches : (s.work p).launches = []) : s.tearComplete p =
    ((s.clearCores p).modWork p fun _ => Work.empty).modPart p fun x => { x with state := .off, tlb := [] } := by
  have hidle : ((s.work p).seqs.all fun q => q.cmds.isEmpty) = true := List.all_eq_true.mpr fun q hq => by rw [hcmds q hq]; rfl
  rw [State.tearComplete, if_neg (by simp [htearing, hidle, hstores])]
  simp only [hlaunches, List.map_nil, List.foldl_nil, List.isEmpty_nil, Bool.not_true, Bool.false_eq_true, if_false]

end

/-! ## Writes of a descriptor's fields (R313, R315) -/

theorem mayChange_iff (off : Nat) : mayChange off = true ↔ off ∈ [8, 32, 40, 48, 56, 96, 104, 240] ∨ 128 ≤ off ∧ off < 224 := by
  simp only [mayChange, Bool.or_eq_true, List.contains_iff_mem, Bool.and_eq_true, decide_eq_true_eq]

theorem flushes_iff (off : Nat) : flushes off = true ↔ off = 8 ∨ 128 ≤ off ∧ off < 224 := by
  simp only [flushes, Bool.or_eq_true, beq_iff_eq, Bool.and_eq_true, decide_eq_true_eq]

/-- A descriptor with one of its dwords written. -/
def Partition.withDword (x : Partition) (k : Nat) (v : DWord) : Partition := { x with desc := put x.desc k v }

section
variable (s : State) (p off : Nat) (v : DWord)

/-- A partition that does not run refuses windows that would overlap another's, unless it is off. -/
theorem State.fieldWrite_stopped (h : (s.part p).state ≠ .running) : s.fieldWrite p off v =
    if (s.part p).state ≠ .off ∧ 128 ≤ off ∧ off < 224 ∧ windowsClash ((s.part p).withDword (off / 8) v) ((s.inUse p).map (·.2)) = true then
      s.fieldError p 3
    else s.modPart p fun y => y.withDword (off / 8) v := by
  rw [State.fieldWrite]
  dsimp only
  by_cases hoff : (s.part p).state = .off
  · rw [if_pos hoff, if_neg fun hin => hin.1 hoff]
    rfl
  · rw [if_neg hoff, if_pos h]
    refine if_congr ?_ rfl rfl
    rw [Bool.and_eq_true, Bool.and_eq_true, decide_eq_true_eq, decide_eq_true_eq, and_assoc]
    exact (and_iff_right hoff).symm

/-- A running partition takes the fields that may change while it runs. -/
theorem State.fieldWrite_running (h : (s.part p).state = .running) : s.fieldWrite p off v =
    if mayChange off = false ∨ fieldOk off v.toNat = false then s.fieldError p 4
    else if 128 ≤ off ∧ windowsClash ((s.part p).withDword (off / 8) v) ((s.inUse p).map (·.2)) = true then s.fieldError p 3
    else s.modPart p fun y => if flushes off = true then { y.withDword (off / 8) v with tlb := [] } else y.withDword (off / 8) v := by
  rw [State.fieldWrite]
  dsimp only
  rw [if_neg (by rw [h]; decide), if_neg (not_not.mpr h)]
  refine if_congr ?_ rfl (if_congr ?_ rfl rfl)
  · rw [Bool.or_eq_true, Bool.not_eq_true', Bool.not_eq_true']
  · rw [Bool.and_eq_true, decide_eq_true_eq]
    rfl

end

section
variable {s : State} {who p off v : Nat} (hissue : s.issue = .part [who, p, off, v])
include hissue

theorem execPartitionFieldWrite_denied (h : s.mayWrite who 3 = false) : execPartitionFieldWrite s = .next s := by
  simp only [execPartitionFieldWrite, State.arg_part hissue, List.getD_cons_zero, h, Bool.false_and, Bool.false_eq_true, if_false]

theorem execPartitionFieldWrite_permitted (h : s.mayWrite who 3 = true) (hp : p < 28) (hoff : off < 256) (hv : v < 2 ^ 64) :
    execPartitionFieldWrite s = .next (s.descWrite p (off / 8 * 8) v) := by
  simp only [execPartitionFieldWrite, State.arg_part hissue, List.getD_cons_zero, List.getD_cons_succ, h, decide_eq_true hp,
    decide_eq_true hoff, Bool.and_self, if_true, Nat.mod_eq_of_lt hv]

end

/-- Settles O57: each command is its own function of the state once the writer may give it and no reserved bit is set. -/
theorem partitionCommandsAct : Obligations.PartitionCommandsAct := by
  unfold Obligations.PartitionCommandsAct
  refine ⟨?commands, ?ends, ?fields⟩
  case commands =>
    intro s who p hissue x refused done bare reserved
    have hreserved : x.badHead = true ↔ reserved := x.badHead_iff
    refine ⟨fun hdenied => ?denied, fun hmay hp hbad => ?reserved, fun hmay hp hbad => ?legal⟩
    case denied =>
      simp only [List.forall_mem_cons, exec_activate, exec_freeze, exec_resume, exec_tearDownKeepingGates, exec_tearDownExportingGates]
      exact ⟨commandOp_denied hissue 1 hdenied, commandOp_denied hissue 2 hdenied, commandOp_denied hissue 3 hdenied,
        commandOp_denied hissue 4 hdenied, commandOp_denied hissue 5 hdenied, fun _ h => absurd h List.not_mem_nil⟩
    case reserved =>
      have hrefused (cmd : Nat) (hcmd : cmd ≠ 0) : commandOp cmd s = .next (refused cmd 4) := by
        rw [commandOp_permitted hissue cmd hmay hp, State.command_reserved hcmd (hreserved.mpr hbad)]
        rfl
      simp only [List.forall_mem_cons, exec_activate, exec_freeze, exec_resume, exec_tearDownKeepingGates, exec_tearDownExportingGates]
      exact ⟨hrefused 1 (by decide), hrefused 2 (by decide), hrefused 3 (by decide), hrefused 4 (by decide), hrefused 5 (by decide),
        fun _ h => absurd h List.not_mem_nil⟩
    case legal =>
      have hgood : ¬x.badHead = true := fun h => hbad (hreserved.mp h)
      rw [exec_activate, exec_freeze, exec_resume, execActivate, execFreeze, execResume, commandOp_permitted hissue 1 hmay hp,
        commandOp_permitted hissue 2 hmay hp, commandOp_permitted hissue 3 hmay hp, State.command_activate hgood,
        State.command_freeze hgood, State.command_resume hgood]
      refine ⟨fun hon => congrArg _ (if_pos hon), fun why hoff hwhy => congrArg _ (State.activate_refused hoff hwhy), fun hoff hfits =>
        congrArg _ (State.activate_done hoff hfits), fun hidle => congrArg _ (if_pos hidle), fun hrunning hparked =>
        ⟨_, rfl, State.freeze_begins hrunning hparked⟩, fun hnone => congrArg _ (State.resume_nowhere hnone), fun m hm => ?image,
        fun a n => State.imageAt_marked, ?tears⟩
      case image =>
        exact ⟨fun hopen => congrArg _ (State.resume_open hm hopen), fun why hkind hoff hwhy =>
          congrArg _ (State.resume_unfit hm hkind hoff hwhy), fun why hkind hoff hfits hwhy =>
          congrArg _ (State.resume_badGates hm hkind hoff hfits hwhy), fun ds tqs hkind hoff hfits hgates hds htqs hnone hempty =>
          congrArg _ (State.resume_done hm hkind hoff hfits hgates hds htqs hnone hempty)⟩
      case tears =>
        simp only [List.forall_mem_cons, exec_tearDownKeepingGates, exec_tearDownExportingGates, execTearDownKeepingGates,
          execTearDownExportingGates, commandOp_permitted hissue 4 hmay hp, commandOp_permitted hissue 5 hmay hp,
          State.command_tearKeeping hgood, State.command_tearExporting hgood]
        refine ⟨⟨fun hrunning hfrozen => congrArg _ (if_pos ⟨hrunning, hfrozen⟩), fun h =>
          congrArg _ (State.tearDown_carriedOut h 4), fun h hparked hnone hfrozen _ => ⟨_, rfl, fun n hv hhome =>
          State.tearDown_keeps h hparked hnone hfrozen hv hhome⟩⟩, ⟨fun hrunning hfrozen => congrArg _ (if_pos ⟨hrunning, hfrozen⟩),
          fun h => congrArg _ (State.tearDown_carriedOut h 5), fun _ _ _ _ h => absurd h (by decide)⟩, fun _ h => absurd h List.not_mem_nil⟩
  case ends =>
    intro s p hissue x
    rw [exec_freezeComplete, exec_teardownComplete, execFreezeComplete, execTeardownComplete, State.arg_part hissue, List.getD_cons_zero]
    exact ⟨fun hfreezing hquiet => congrArg _ (State.freezeComplete_done hfreezing hquiet), fun hwaits =>
      congrArg _ (State.freezeComplete_waits hwaits), fun htearing hcmds hstores hlaunches =>
      congrArg _ (State.tearComplete_done htearing hcmds hstores hlaunches), fun hwaits => congrArg _ (State.tearComplete_waits hwaits)⟩
  case fields =>
    intro s who p off v hissue hp hoff hv at_ set refused
    rw [exec_partitionFieldWrite]
    refine ⟨execPartitionFieldWrite_denied hissue, fun hmay => ?_⟩
    rw [execPartitionFieldWrite_permitted hissue hmay hp hoff hv]
    have hindex : off / 8 * 8 / 8 = off / 8 := Nat.mul_div_cancel _ (by decide)
    have hbody (h : 8 ≤ off) : s.descWrite p (off / 8 * 8) v = s.fieldWrite p at_ (BitVec.ofNat 64 v) := if_neg (by omega)
    have hhead (h : off < 8) : s.descWrite p (off / 8 * 8) v = s.headWrite p v := if_pos (by omega)
    have hvalue : (BitVec.ofNat 64 v).toNat = v := by rw [BitVec.toNat_ofNat, Nat.mod_eq_of_lt hv]
    refine ⟨fun hfield hstopped => ?_, fun hfield hrunning => ?_, ?_⟩
    · intro clash
      rw [hbody hfield, State.fieldWrite_stopped _ _ _ _ hstopped, hindex]
      exact ⟨fun h => congrArg _ (if_pos h), fun h => congrArg _ (if_neg h)⟩
    · intro may ok clash
      have hbars : (mayChange at_ = false ∨ fieldOk at_ v = false) ↔ ¬may ∨ ¬ok := by
        rw [← Bool.not_eq_true, ← Bool.not_eq_true, mayChange_iff]
      have htaken (hm : may) (hok : ok) : ¬(mayChange at_ = false ∨ fieldOk at_ v = false) := fun h =>
        (hbars.mp h).elim (absurd hm) (absurd hok)
      rw [hbody hfield, State.fieldWrite_running _ _ _ _ hrunning, hindex, hvalue]
      simp only [flushes_iff]
      refine ⟨fun h => congrArg _ (if_pos (hbars.mpr h)), fun hm hok hclash => ?_, fun hm hok hclash => ?_⟩
      · rw [if_neg (htaken hm hok)]
        exact congrArg _ (if_pos hclash)
      · rw [if_neg (htaken hm hok)]
        exact congrArg _ (if_neg hclash)
    · intro keep
      refine ⟨fun h hkeeps => ?_, fun h hrunning hchanges => ?_⟩
      · rw [hhead h]
        exact congrArg _ (if_neg fun hbad => hkeeps.elim (absurd hbad.1) (fun hsame => hbad.2 hsame))
      · rw [hhead h]
        refine congrArg _ ((if_pos ⟨hrunning, hchanges⟩).trans ?_)
        rfl

end Sys2Proof.Machine
end

section
/-!
The start of an agreement round (R335) against a state that no run reaches: its map of partitions does not rise, so that a write of
partition 3 enters it a second time, before partition 5. AGREEMENT_ROUND_START writes the group with the requests that its operands name and
then asks which partitions take part; partition 3 stands among them twice, and its one request is taken twice.
-/
namespace Sys2Proof.Machine

/-- The one request of the group: partition 3 of module 0 asks to join, at fabric time 0. -/
def joinRequest : Request := ⟨true, 0, 3, none, 0⟩

/-- An elastic group of partition 3 alone, with that request. -/
def askedGroup : Group := { Group.empty with members := [(0, 3)], elastic := true, valid := true, requests := [joinRequest] }

/-- Partitions 5 and 3, in this order, a microsecond after the request; group 0 of partition 3 is `askedGroup`. -/
def fallingState : State :=
  { State.reset with
    parts := [(5, Partition.empty), (3, { Partition.empty with groups := [(0, askedGroup)] })]
    fabric := { State.reset.fabric with base := 1000 }
    issue := .part [3, 0] }

theorem fallingState_group : (fallingState.part 3).group 0 = askedGroup := by decide

/-- How many requests the round of group 0 of partition 3 takes in. -/
def takenRequests : Out → Option Nat
  | .next t => some ((t.part 3).group 0).taken.length
  | _ => none

theorem agreementRoundStart_falling_taken : takenRequests (exec .agreementRoundStart fallingState) = some 2 := by decide +kernel

/-- Refutes O58: `fallingState` has one partition in the round of its group and one request, which the round takes in twice. -/
theorem not_fabricEventsAct : ¬ Obligations.FabricEventsAct := by
  unfold Obligations.FabricEventsAct
  intro h
  obtain ⟨-, -, -, -, -, -, hrounds, -⟩ := h
  obtain ⟨hstarts, -⟩ := hrounds fallingState 3 0 rfl (by decide +kernel) (by decide)
  rw [fallingState_group] at hstarts
  obtain ⟨hbegins, -⟩ := hstarts 0 (by decide) (by decide) rfl rfl rfl (by decide)
  obtain ⟨t, g, hnext, hgroup, -, htaken, -⟩ := hbegins (by decide)
  have htwice := agreementRoundStart_falling_taken
  rw [hnext] at htwice
  have hlength : g.taken.length = 2 := by
    rw [← hgroup]
    exact Option.some.inj htwice
  rw [htaken] at hlength
  exact absurd hlength (by decide)

end Sys2Proof.Machine
end

section
/-!
Words that engines move (R286, R288, R341): a read or write of an aligned word is one piece, rows of sound words move in order, and a word
that does not read or is not written ends its command with its STAT.
-/
namespace Sys2Proof.Machine

/-! ## One word -/

/-- An aligned word is one piece. -/
theorem pieces8_word {a : Nat} (h : a % 4 = 0) : pieces8 4 a 4 = [(a, 4)] := by
  have hfits : min 4 (8 - a % 8) = 4 := by omega
  rw [pieces8, if_neg (by decide), hfits]
  rfl

section
variable {s : State} {p : Nat} {q : Seq} {a : Nat} (halign : a % 4 = 0)
include halign

theorem State.fetch_word : s.fetch p q a 4 = s.fetchPiece p q a 4 := by
  rw [State.fetch, pieces8_word halign, State.fetchPieces, State.fetchPieces]
  cases s.fetchPiece p q a 4 with
  | error e => rfl
  | ok x => exact congrArg Except.ok (Prod.ext (List.append_nil _) (Bool.or_false _))

theorem State.deposit_word {bs : List Byte} (hbs : bs.length = 4) (poison : Bool) :
    s.deposit p q a bs poison = s.depositPiece p q a bs poison := by
  rw [State.deposit, hbs, pieces8_word halign, List.foldlM_cons]
  simp only [Nat.sub_self, List.drop_zero, List.foldlM_nil, List.take_of_length_le hbs.le, bind_pure]

/-- A word that is read where it lies, when no overwritten unit is found. -/
theorem State.fetch_mem {pa leaf : Nat} (hleaf : leafFmt leaf ≠ 2) (hplace : s.placeOf p pa = .mem)
    (hloc : s.resolve p q .read a 4 = .ok (.mem pa leaf)) (hseen : ∀ x ∈ s.late, 768 + q.path ∈ x.seen) :
    s.fetch p q a 4 = .ok (s.mem.bytes pa 4, s.mem.poisoned pa 4) := by
  have hcurrent : s.lateBytes false (findsOn (some q.path)) pa 4 = s.mem.bytes pa 4 :=
    lateBytes_current (fun x hx _ => by simp [findsOn, Late.showsEngine, hseen x hx]) pa 4
  rw [State.fetch_word halign, State.fetchPiece, hloc]
  simp only [State.fetchLoc, if_neg hleaf, hplace, if_true, hcurrent, bind, Except.bind]

theorem State.deposit_mem {pa leaf : Nat} {bs : List Byte} (hbs : bs.length = 4) (hleaf : leafFmt leaf ≠ 2) (hplace : s.placeOf p pa = .mem)
    (hloc : s.resolve p q .write a 4 = .ok (.mem pa leaf)) :
    s.deposit p q a bs false = .ok { s.wrote false [p] q.path [] pa 4 with mem := s.mem.write pa bs } := by
  rw [State.deposit_word halign hbs, State.depositPiece, hbs, hloc]
  simp only [bind, Except.bind, State.putLoc_mem hleaf hplace, hbs]

theorem State.fetch_spad {k : Nat} (hloc : s.resolve p q .read a 4 = .ok (.spad k)) (hseen : ∀ x ∈ s.late, 768 + q.path ∈ x.seen) :
    s.fetch p q a 4 = .ok (s.spad.bytes k 4, s.spad.poisoned k 4) := by
  have hcurrent : s.lateBytes true (findsOn (some q.path)) k 4 = s.spad.bytes k 4 :=
    lateBytes_current (fun x hx _ => by simp [findsOn, Late.showsEngine, hseen x hx]) k 4
  rw [State.fetch_word halign, State.fetchPiece, hloc]
  simp only [State.fetchLoc, hcurrent, bind, Except.bind]

theorem State.deposit_spad {k : Nat} {bs : List Byte} (hbs : bs.length = 4) (hloc : s.resolve p q .write a 4 = .ok (.spad k)) :
    s.deposit p q a bs false = .ok { s.wrote true [p] q.path [] k 4 with spad := s.spad.write k bs } := by
  rw [State.deposit_word halign hbs, State.depositPiece, hbs, hloc]
  simp only [bind, Except.bind, State.putLoc, hbs]
  rfl

end

/-! ## The STAT of a word that fails -/

theorem statOf_pos (cause : Nat) : statOf cause ≠ 0 := by
  unfold statOf statPoison
  split <;> decide

section
variable {s : State} {p : Nat} {q : Seq} {a e : Nat}

theorem State.resolve_error {k : Kind} {n : Nat} (h : s.resolve p q k a n = .error e) : e ≠ 0 := by
  rw [State.resolve] at h
  split at h
  · split at h
    · cases h
    · obtain rfl := Except.error.inj h
      exact statOf_pos _
  · split at h
    · split at h
      · cases h
      · obtain rfl := Except.error.inj h
        decide
    · obtain rfl := Except.error.inj h
      decide

theorem State.fetchPiece_error {n : Nat} (h : s.fetchPiece p q a n = .error e) : e ≠ 0 := by
  rw [State.fetchPiece] at h
  cases hloc : s.resolve p q .read a n with
  | error t =>
    rw [hloc] at h
    obtain rfl := Except.error.inj h
    exact State.resolve_error hloc
  | ok l =>
    rw [hloc] at h
    simp only [bind, Except.bind] at h
    split at h
    · cases h
    · obtain rfl := Except.error.inj h
      exact statOf_pos _

theorem State.depositPiece_error {bs : List Byte} {poison : Bool} (h : s.depositPiece p q a bs poison = .error e) : e ≠ 0 := by
  rw [State.depositPiece] at h
  cases hloc : s.resolve p q .write a bs.length with
  | error t =>
    rw [hloc] at h
    obtain rfl := Except.error.inj h
    exact State.resolve_error hloc
  | ok l =>
    rw [hloc] at h
    simp only [bind, Except.bind] at h
    split at h
    · cases h
    · obtain rfl := Except.error.inj h
      exact statOf_pos _

theorem State.fetch_error {n : Nat} (h : s.fetch p q a n = .error e) : e ≠ 0 := by
  rw [State.fetch] at h
  generalize pieces8 n a n = l at h
  induction l with
  | nil => cases h
  | cons x r ih =>
    rw [State.fetchPieces] at h
    cases hx : s.fetchPiece p q x.1 x.2 with
    | error t =>
      rw [hx] at h
      obtain rfl := Except.error.inj h
      exact State.fetchPiece_error hx
    | ok y =>
      rw [hx] at h
      cases hr : s.fetchPieces p q r with
      | error t =>
        rw [hr] at h
        obtain rfl := Except.error.inj h
        exact ih hr
      | ok z =>
        rw [hr] at h
        cases h

theorem State.deposit_error {bs : List Byte} {poison : Bool} (h : s.deposit p q a bs poison = .error e) : e ≠ 0 := by
  rw [State.deposit] at h
  generalize pieces8 bs.length a bs.length = l at h
  induction l generalizing s with
  | nil => cases h
  | cons x r ih =>
    rw [List.foldlM_cons] at h
    cases hx : s.depositPiece p q x.1 ((bs.drop (x.1 - a)).take x.2) poison with
    | error t =>
      rw [hx] at h
      obtain rfl := Except.error.inj h
      exact State.depositPiece_error hx
    | ok y =>
      rw [hx] at h
      exact ih h

end

/-! ## Rows of sound words (R286) -/

/-- A sector of a memory without poison is sound already. -/
theorem State.soundAt_clean {s : State} {p : Nat} {q : Seq} (h : s.mem.poison = []) (a : Nat) : s.soundAt p q a = s := by
  have hsound (pa : Nat) : { s with mem := s.mem.sound pa } = s := by
    rw [Memory.sound, h, List.filter_nil, ← h]
  rw [State.soundAt]
  split
  · split
    · exact hsound _
    · rfl
  · rfl

/-- A sound word moved from `src` to `dst`. -/
def State.MovesWord (p : Nat) (q : Seq) (a : State) (src dst : Nat) (b : State) : Prop :=
  ∃ bs, a.fetch p q src 4 = .ok (bs, false) ∧ a.deposit p q dst bs false = .ok b ∧ b.mem.poison = []

/-- A row of sound words moved. -/
def State.MovesRow (p : Nat) (q : Seq) (a : State) (src dst len : Nat) (b : State) : Prop :=
  ∃ f : Nat → State, f 0 = a ∧ f (len / 4) = b ∧ ∀ w, w < len / 4 → State.MovesWord p q (f w) (src + 4 * w) (dst + 4 * w) (f (w + 1))

section
variable {p : Nat} {q : Seq}

theorem State.moveSpan_word {a b : State} {src dst : Nat} (h : State.MovesWord p q a src dst b) (left run : Nat) :
    a.moveSpan p q (left + 1) run src dst = b.moveSpan p q left (run + 1) (src + 4) (dst + 4) := by
  obtain ⟨bs, hfetch, hdeposit, hclean⟩ := h
  rw [State.moveSpan, hfetch]
  dsimp only
  rw [hdeposit]
  dsimp only
  rw [State.soundAt_clean hclean, ite_self]
  rfl

theorem State.moveSpan_words (f : Nat → State) {n src dst : Nat}
    (h : ∀ w, w < n → State.MovesWord p q (f w) (src + 4 * w) (dst + 4 * w) (f (w + 1))) (left run : Nat) :
    (f 0).moveSpan p q (n + left) run src dst = (f n).moveSpan p q left (run + n) (src + 4 * n) (dst + 4 * n) := by
  induction n generalizing left with
  | zero => rw [Nat.zero_add]
            rfl
  | succ n ih =>
    rw [Nat.add_right_comm, Nat.add_assoc, ih (fun w hw => h w (Nat.lt_succ_of_lt hw)) (left + 1), State.moveSpan_word (h n (Nat.lt_succ_self n))]
    rfl

/-- A row whose words all move. -/
theorem State.moveSpan_row {a b : State} {src dst len : Nat} (h : State.MovesRow p q a src dst len b) :
    a.moveSpan p q (len / 4) 0 src dst = (b, 0) := by
  obtain ⟨f, rfl, rfl, hwords⟩ := h
  exact State.moveSpan_words f hwords 0 0

section
variable {a b : State} {src dst len w : Nat} (hwords : State.MovesRow p q a src dst (4 * w) b) (hw : w < len / 4)
include hwords hw

/-- A row of which the first `w` words move goes on with the next one. -/
theorem State.moveSpan_onward : a.moveSpan p q (len / 4) 0 src dst = b.moveSpan p q (len / 4 - w - 1 + 1) (0 + w) (src + 4 * w) (dst + 4 * w) := by
  obtain ⟨f, rfl, hlast, hwords⟩ := hwords
  rw [Nat.mul_div_cancel_left w (by decide)] at hlast hwords
  have hlen : len / 4 = w + (len / 4 - w - 1 + 1) := by omega
  rw [hlen, State.moveSpan_words f hwords, hlast, ← hlen]

theorem State.moveSpan_unread {e : Nat} (h : b.fetch p q (src + 4 * w) 4 = .error e) :
    a.moveSpan p q (len / 4) 0 src dst = (b, e) := by
  rw [State.moveSpan_onward hwords hw, State.moveSpan, h]

theorem State.moveSpan_unwritten {bs : List Byte} {e : Nat} (hread : b.fetch p q (src + 4 * w) 4 = .ok (bs, false))
    (h : b.deposit p q (dst + 4 * w) bs false = .error e) : a.moveSpan p q (len / 4) 0 src dst = (b, e) := by
  rw [State.moveSpan_onward hwords hw, State.moveSpan, hread]
  dsimp only
  rw [h]

end

theorem State.moveRows_row {a b : State} {src dst len : Nat} (h : State.MovesRow p q a src dst len b) (rest : List (Nat × Nat)) :
    a.moveRows p q len ((src, dst) :: rest) = b.moveRows p q len rest := by
  rw [State.moveRows, State.moveSpan_row h]
  rfl

theorem State.moveRows_stops {a b : State} {src dst len e : Nat} (h : a.moveSpan p q (len / 4) 0 src dst = (b, e)) (he : e ≠ 0)
    (rest : List (Nat × Nat)) : a.moveRows p q len ((src, dst) :: rest) = (b, e) := by
  rw [State.moveRows, h]
  cases e with
  | zero => exact absurd rfl he
  | succ e => rfl

/-- Rows given one by one: row `r` from `src r` to `dst r`. -/
theorem State.moveRows_rows (f : Nat → State) (src dst : Nat → Nat) {len n : Nat}
    (h : ∀ r, r < n → State.MovesRow p q (f r) (src r) (dst r) len (f (r + 1))) (rest : List (Nat × Nat)) :
    (f 0).moveRows p q len ((List.range n).map (fun r => (src r, dst r)) ++ rest) = (f n).moveRows p q len rest := by
  induction n generalizing rest with
  | zero => rfl
  | succ n ih =>
    rw [List.range_succ, List.map_append, List.append_assoc, ih (fun r hr => h r (Nat.lt_succ_of_lt hr)), List.map_singleton,
      List.singleton_append, State.moveRows_row (h n (Nat.lt_succ_self n))]

/-- All rows move. -/
theorem State.moveRows_all (f : Nat → State) (src dst : Nat → Nat) {len n : Nat}
    (h : ∀ r, r < n → State.MovesRow p q (f r) (src r) (dst r) len (f (r + 1))) :
    (f 0).moveRows p q len ((List.range n).map fun r => (src r, dst r)) = (f n, 0) := by
  rw [← List.append_nil (List.map _ _), State.moveRows_rows f src dst h]
  rfl

/-- Row `n` of `m` is where the rows stop. -/
theorem State.moveRows_until (f : Nat → State) (src dst : Nat → Nat) {len n m e : Nat} {b : State} (hn : n < m)
    (h : ∀ r, r < n → State.MovesRow p q (f r) (src r) (dst r) len (f (r + 1)))
    (hstops : (f n).moveSpan p q (len / 4) 0 (src n) (dst n) = (b, e)) (he : e ≠ 0) :
    (f 0).moveRows p q len ((List.range m).map fun r => (src r, dst r)) = (b, e) := by
  obtain ⟨k, rfl⟩ : ∃ k, m = n + (k + 1) := ⟨m - n - 1, by omega⟩
  rw [List.range_add, List.map_append, State.moveRows_rows f src dst h, List.range_succ_eq_map, List.map_cons, List.map_cons,
    Nat.add_zero, State.moveRows_stops hstops he]

end

/-! ## CPY, GATHER and SCATTER (R286, R288) -/

/-- The entries of an index list. -/
theorem State.fetchIndices_reads {s : State} {p : Nat} {q : Seq} {list : Nat} (idx : Nat → Nat) (n : Nat) {i : Nat}
    (h : ∀ k, k < n → s.fetchNat p q (list + 4 * (i + k)) 4 = .ok (idx (i + k))) :
    s.fetchIndices p q list i n = .ok ((List.range n).map fun k => idx (i + k)) := by
  induction n generalizing i with
  | zero => rfl
  | succ n ih =>
    have hrest := ih (i := i + 1) fun k hk => by
      rw [Nat.add_assoc, Nat.add_comm 1 k]
      exact h (k + 1) (Nat.succ_lt_succ hk)
    have hfirst := h 0 (Nat.succ_pos n)
    rw [Nat.add_zero] at hfirst
    rw [State.fetchIndices, hfirst, hrest, List.range_succ_eq_map, List.map_cons, List.map_map]
    simp only [Function.comp_def, Nat.succ_eq_add_one, Nat.add_assoc, Nat.add_comm 1, Nat.add_zero]
    rfl

section
variable {s : State} {p : Nat} {q : Seq} {dst src shape list : Nat} {x : Shape} (hshape : s.fetchShape p q shape = .ok x)
  (hlen : x.len % 4 = 0) (hsstride : x.sstride % 4 = 0) (hdstride : x.dstride % 4 = 0) (hsrc : src % 4 = 0) (hdst : dst % 4 = 0)
include hshape hlen hsstride hdstride hsrc hdst

theorem State.copyRun_moves (hbound : x.rows = 0 ∨ (x.rows - 1) * x.dstride + x.len ≤ x.bound) : s.copyRun p q dst src shape =
    s.moveRows p q x.len ((List.range x.rows).map fun r => (src + r * x.sstride, dst + r * x.dstride)) := by
  rw [State.copyRun, hshape]
  dsimp only
  rw [if_neg (by omega), if_neg (by omega), upto_map]
  simp only [Nat.zero_add]

variable (hlist : list % 4 = 0) {idx : Nat → Nat} (hidx : ∀ i, i < x.rows → s.fetchNat p q (list + 4 * i) 4 = .ok (idx i))
include hlist hidx

/-- Rows by an index list: row `i` to place `to_ i`, all inside the bound. -/
theorem State.indexRun_moves (scatter : Bool)
    (hbound : ∀ i, i < x.rows → (if scatter then idx i else i) * x.dstride + x.len ≤ x.bound) : s.indexRun p q scatter dst src shape list =
    s.moveRows p q x.len ((List.range x.rows).map fun i =>
      (src + (if scatter then i else idx i) * x.sstride, dst + (if scatter then idx i else i) * x.dstride)) := by
  have hreads : s.fetchIndices p q list 0 x.rows = .ok ((List.range x.rows).map idx) := by
    have h := State.fetchIndices_reads (s := s) (p := p) (q := q) (list := list) idx x.rows (i := 0) (by simpa using hidx)
    simpa using h
  have hzip : (upto 0 x.rows).zip ((List.range x.rows).map idx) = (List.range x.rows).map fun i => (i, idx i) := by
    rw [upto_eq_map_range, List.zip_map']
    simp only [Nat.zero_add]
  have hinside : ¬(((List.range x.rows).map fun i => (i, idx i)).any fun e =>
      decide (x.bound < (if scatter then e.2 else e.1) * x.dstride + x.len)) = true := by
    simp only [List.any_map, List.any_eq_true, List.mem_range, Function.comp_apply, decide_eq_true_eq, not_exists, not_and, not_lt]
    exact hbound
  rw [State.indexRun, hshape]
  dsimp only
  rw [if_neg (by omega), hreads]
  dsimp only
  rw [hzip, if_neg hinside, List.map_map]
  rfl

end

end Sys2Proof.Machine
end

section
/-!
EMBLK (R290, R338 to R341), TOPK (R291) and STAGE (R289, R245 to R247): what a command writes, row by row, entry by entry, group by group.
-/
namespace Sys2Proof.Machine

/-! ## Rows of a table (R341) -/

section
variable {p : Nat} {q : Seq}

/-- Sound words put one by one into a memory without poison. -/
theorem State.depositWords_sound (f : Nat → State) {dst : Nat} {ws : List (List Byte × Bool)} (run : Nat)
    (h : ∀ k, k < ws.length → (f k).deposit p q (dst + 4 * k) (ws.getD k ([], false)).1 false = .ok (f (k + 1)) ∧
      (ws.getD k ([], false)).2 = false ∧ (f (k + 1)).mem.poison = []) :
    (f 0).depositWords p q run dst ws = .ok (f ws.length) := by
  induction ws generalizing f dst run with
  | nil => rfl
  | cons x r ih =>
    obtain ⟨hdeposit, hsound, hclean⟩ := h 0 (Nat.succ_pos _)
    rw [List.getD_cons_zero] at hdeposit hsound
    have hrest := ih (fun k => f (k + 1)) (dst := dst + 4) (run + 1) fun k hk => by
      have hk' := h (k + 1) (Nat.succ_lt_succ hk)
      rwa [List.getD_cons_succ, show dst + 4 * (k + 1) = dst + 4 + 4 * k by omega] at hk'
    rw [State.depositWords, hsound, show dst = dst + 4 * 0 from rfl, hdeposit]
    simp only [bind, Except.bind, Bool.false_eq_true, if_false, State.soundAt_clean hclean, ite_self, Nat.mul_zero, Nat.add_zero]
    exact hrest

/-- The words of a row in the partition's own memory. -/
theorem State.memberRow_own {s : State} {row : Nat} (m : Nat → List Byte × Bool) (n a : Nat) (acc : List (List Byte × Bool))
    (h : ∀ k, k < n → a + 4 * k < 2 ^ 56 ∧ s.fetch p q (a + 4 * k) 4 = .ok (m k)) :
    s.memberRow p q (s.fabric.module, p) row a n acc = .row (acc ++ (List.range n).map m) := by
  induction n generalizing a acc m with
  | zero => rw [State.memberRow, List.range_zero, List.map_nil, List.append_nil]
  | succ n ih =>
    obtain ⟨hlow, hfetch⟩ := h 0 (Nat.succ_pos n)
    have hrest := ih (fun k => m (k + 1)) (a + 4) (acc ++ [m 0]) fun k hk => by
      have hk' := h (k + 1) (Nat.succ_lt_succ hk)
      rwa [show a + 4 * (k + 1) = a + 4 + 4 * k by omega] at hk'
    have htop : ¬a / 2 ^ 56 ≠ 0 := by omega
    rw [State.memberRow, if_pos (beq_self_eq_true _), if_neg htop, show a = a + 4 * 0 from rfl, hfetch]
    dsimp only
    rw [Nat.mul_zero, Nat.add_zero, hrest, List.range_succ_eq_map, List.map_cons, List.map_map, List.append_assoc, List.singleton_append]
    rfl

theorem State.lookupRow_own {s : State} {b : Binding} {i : Nat} {e : DirEntry} (hentry : s.dirEntry p b (i / 2 ^ b.shardlog) = .ok e)
    (hown : e.member = (s.fabric.module, p)) (hlost : s.lost p e.member = false) (hreached : s.reaches p e.member = true)
    {ws : List (List Byte × Bool)} (hws : ws.length = b.rowlen / 4)
    (h : ∀ k, k < b.rowlen / 4 → e.addr + i % 2 ^ b.shardlog * b.rowlen + 4 * k < 2 ^ 56 ∧
      s.fetch p q (e.addr + i % 2 ^ b.shardlog * b.rowlen + 4 * k) 4 = .ok (ws.getD k ([], false))) :
    s.lookupRow p q b i = (s.countLookup p e, .row ws) := by
  have hrow : (List.range (b.rowlen / 4)).map (fun k => ws.getD k ([], false)) = ws := by
    rw [← hws]
    refine List.ext_getElem (by simp) fun k hk hk' => ?_
    rw [List.getElem_map, List.getElem_range, List.getD_eq_getElem _ _ hk']
  have hmember := State.memberRow_own (s := s) (row := e.addr + i % 2 ^ b.shardlog * b.rowlen) (fun k => ws.getD k ([], false)) _ _ [] h
  rw [hrow, List.nil_append, ← hown] at hmember
  rw [State.lookupRow, hentry]
  dsimp only
  rw [if_neg (fun hother => hother.1 hown), hlost, hreached, if_neg Bool.false_ne_true, if_neg (by decide), hmember]

/-- The rows still to come, all of which are found and put. -/
theorem State.lookups_all (f g : Nat → State) (ws : Nat → List (List Byte × Bool)) (idx : Nat → Nat) (cid : Nat) (b : Binding)
    (dst dstride : Nat) (args : List Nat) (n : Nat) {i : Nat}
    (h : ∀ k, k < n → (f (i + k)).lookupRow p q b (idx (i + k)) = (g (i + k), .row (ws (i + k))) ∧
      (g (i + k)).depositWords p q 0 (dst + (i + k) * dstride) (ws (i + k)) = .ok (f (i + k + 1))) :
    (f i).lookups p q cid b dst dstride args ((List.range n).map fun k => (i + k, idx (i + k))) = (f (i + n)).endCmd p q.id cid 0 := by
  induction n generalizing i with
  | zero => rfl
  | succ n ih =>
    obtain ⟨hlookup, hdeposit⟩ := h 0 (Nat.succ_pos n)
    rw [Nat.add_zero] at hlookup hdeposit
    have hrest := ih (i := i + 1) fun k hk => by
      have hk' := h (k + 1) (Nat.succ_lt_succ hk)
      rwa [show i + (k + 1) = i + 1 + k by omega] at hk'
    rw [List.range_succ_eq_map, List.map_cons, List.map_map, Nat.add_zero, State.lookups, hlookup]
    dsimp only
    rw [hdeposit]
    dsimp only
    rw [show i + (n + 1) = i + 1 + n by omega, ← hrest]
    refine congrArg _ (List.map_congr_left fun k _ => ?_)
    rw [Function.comp_apply, Nat.succ_eq_add_one, show i + (k + 1) = i + 1 + k by omega]

end

section
variable {s : State} {p : Nat} {q : Seq} {cid dst shape list t : Nat} {b : Binding} {x : Shape} {idx : Nat → Nat}

/-- EMBLK whose every row is found and put. -/
theorem State.emblkRun_all (hshape : s.fetchShape p q shape = .ok x) (hdst : dst % 4 = 0) (hdstride : x.dstride % 4 = 0)
    (hlist : list % 4 = 0) (hlen : x.len = b.rowlen) (hbound : x.rows = 0 ∨ (x.rows - 1) * x.dstride + x.len ≤ x.bound)
    (hidx : ∀ i, i < x.rows → s.fetchNat p q (list + 4 * i) 4 = .ok (idx i) ∧ idx i < b.rows) (f g : Nat → State)
    (ws : Nat → List (List Byte × Bool)) (hfirst : f 0 = s) (h : ∀ i, i < x.rows →
      (f i).lookupRow p q b (idx i) = (g i, .row (ws i)) ∧ (g i).depositWords p q 0 (dst + i * x.dstride) (ws i) = .ok (f (i + 1))) :
    s.emblkRun p q cid [dst, shape, list, t, b.slot, b.rows, b.shardlog, b.dirbase, b.rowlen] = (f x.rows).endCmd p q.id cid 0 := by
  have hreads : s.fetchIndices p q list 0 x.rows = .ok ((List.range x.rows).map idx) := by
    have hall := State.fetchIndices_reads (s := s) (p := p) (q := q) (list := list) idx x.rows (i := 0) (by simpa using fun i hi => (hidx i hi).1)
    simpa using hall
  have hzip : (upto 0 x.rows).zip ((List.range x.rows).map idx) = (List.range x.rows).map fun i => (0 + i, idx (0 + i)) := by
    rw [upto_eq_map_range, List.zip_map']
    simp only [Nat.zero_add]
  have hinside : ¬(((List.range x.rows).map idx).any fun i => decide (b.rows ≤ i)) = true := by
    simp only [List.any_map, List.any_eq_true, List.mem_range, Function.comp_apply, decide_eq_true_eq, not_exists, not_and, not_le]
    exact fun i hi => (hidx i hi).2
  rw [State.emblkRun]
  simp only [List.getD_cons_zero, List.getD_cons_succ, List.getD_nil, zero_ne_one, if_false, hshape]
  rw [if_neg (by omega), if_neg (not_not.mpr hlen), hreads]
  dsimp only
  rw [if_neg hinside, if_neg (by omega), hzip, ← hfirst, State.lookups_all f g ws idx _ _ _ _ _ _ (by simpa using h), Nat.zero_add]

end

/-! ## The order of TOPK (R291) -/

/-- Where a value stands: NaNs below −∞, then the finite values by their numbers, then +∞. -/
def FVal.place : FVal → Lex (Nat × ℚ)
  | .nan => toLex (0, 0)
  | .inf true => toLex (1, 0)
  | .fin neg m e => toLex (2, finRat neg m e)
  | .inf false => toLex (3, 0)

theorem above_iff (a b : Word) : above a b = true ↔ (f32 b).place < (f32 a).place := by
  unfold above
  generalize f32 a = x
  generalize f32 b = y
  match x, y with
  | .nan, .nan | .nan, .inf true | .nan, .inf false | .nan, .fin _ _ _ => simp [FVal.isNan, FVal.place, Prod.Lex.toLex_lt_toLex]
  | .inf true, .nan | .inf false, .nan | .fin _ _ _, .nan => simp [FVal.isNan, FVal.place, Prod.Lex.toLex_lt_toLex]
  | .inf true, .inf true | .inf true, .inf false | .inf false, .inf true | .inf false, .inf false =>
    simp [FVal.isNan, FVal.place, FVal.lt, Prod.Lex.toLex_lt_toLex]
  | .inf true, .fin _ _ _ | .inf false, .fin _ _ _ | .fin _ _ _, .inf true | .fin _ _ _, .inf false =>
    simp [FVal.isNan, FVal.place, FVal.lt, Prod.Lex.toLex_lt_toLex]
  | .fin c m e, .fin d n f => simp [FVal.isNan, FVal.place, Prod.Lex.toLex_lt_toLex, lt_fin_iff]

/-- Whether an entry stands before another: the higher value, of equal ones the earlier. -/
def precedes (y z : Nat × Word) : Bool := above y.2 z.2 || (!above z.2 y.2 && decide (y.1 < z.1))

theorem precedes_iff (y z : Nat × Word) : precedes y z = true ↔
    (f32 z.2).place < (f32 y.2).place ∨ (f32 z.2).place ≤ (f32 y.2).place ∧ y.1 < z.1 := by
  simp only [precedes, Bool.or_eq_true, Bool.and_eq_true, Bool.not_eq_true', decide_eq_true_eq, above_iff, ← Bool.not_eq_true, not_lt]

theorem precedes_asymm {y z : Nat × Word} (h : precedes y z = true) : precedes z y = false := by
  rw [← Bool.not_eq_true, precedes_iff]
  rintro (hlt | ⟨hle, hlt⟩) <;> obtain h | ⟨hle', hlt'⟩ := (precedes_iff y z).mp h
  · exact lt_asymm h hlt
  · exact hle'.not_gt hlt
  · exact hle.not_gt h
  · exact lt_asymm hlt' hlt

/-- An entry put before the first one that it stands above. -/
def insertWhole (x : Nat × Word) (l : List (Nat × Word)) : List (Nat × Word) := l.orderedInsert (fun y z => above y.2 z.2 = true) x

theorem insertTop_eq (k : Nat) (x : Nat × Word) (l : List (Nat × Word)) : insertTop k x l = (insertWhole x l).take k := by
  rw [insertTop, insertWhole]
  refine congrArg (List.take k) ?_
  induction l with
  | nil => rfl
  | cons y r ih =>
    rw [List.orderedInsert_cons]
    by_cases h : above x.2 y.2 = true
    · simp [h]
    · simp only [h, List.takeWhile_cons] at ih ⊢
      simpa using ih

theorem insertWhole_take (k : Nat) (x : Nat × Word) (l : List (Nat × Word)) : (insertWhole x (l.take k)).take k = (insertWhole x l).take k := by
  induction l generalizing k with
  | nil => simp
  | cons y r ih =>
    cases k with
    | zero => simp
    | succ k =>
      have hrest := ih k
      rw [insertWhole, insertWhole] at *
      rw [List.take_succ_cons, List.orderedInsert_cons, List.orderedInsert_cons]
      split
      · cases k <;> simp [List.take_take]
      · rw [List.take_succ_cons, List.take_succ_cons, hrest]

theorem insertWhole_pairwise {x : Nat × Word} {l : List (Nat × Word)} (hlate : ∀ y ∈ l, y.1 < x.1)
    (hl : l.Pairwise fun y z => precedes y z = true) : (insertWhole x l).Pairwise fun y z => precedes y z = true := by
  induction l with
  | nil => exact List.pairwise_singleton _ _
  | cons y r ih =>
    obtain ⟨hfirst, hrest⟩ := List.pairwise_cons.mp hl
    rw [insertWhole, List.orderedInsert_cons]
    split
    · next habove =>
      have hxy := (above_iff _ _).mp habove
      refine List.pairwise_cons.mpr ⟨fun z hz => ?_, hl⟩
      obtain rfl | hz := List.mem_cons.mp hz
      · exact (precedes_iff _ _).mpr (.inl hxy)
      · refine (precedes_iff _ _).mpr (.inl (lt_of_le_of_lt ?_ hxy))
        exact ((precedes_iff _ _).mp (hfirst z hz)).elim le_of_lt And.left
    · next hbelow =>
      refine List.pairwise_cons.mpr ⟨fun z hz => ?_, ih (fun z hz => hlate z (List.mem_cons_of_mem _ hz)) hrest⟩
      obtain rfl | hz := (List.mem_orderedInsert _).mp hz
      · exact (precedes_iff _ _).mpr (.inr ⟨not_lt.mp (mt (above_iff _ _).mpr hbelow), hlate y List.mem_cons_self⟩)
      · exact hfirst z hz

/-- In a list in this order, exactly the entries before a place precede the one there. -/
theorem precedes_count {l : List (Nat × Word)} (hl : l.Pairwise fun y z => precedes y z = true) {e : Nat} (he : e < l.length) :
    (l.filter fun z => precedes z l[e]).length = e := by
  have hsplit : l = l.take e ++ l[e] :: l.drop (e + 1) := by rw [← List.drop_eq_getElem_cons he, List.take_append_drop]
  have hpair := hl
  rw [hsplit] at hpair
  obtain ⟨-, hafter, hbefore⟩ := List.pairwise_append.mp hpair
  have hself : precedes l[e] l[e] = false := by
    rw [← Bool.not_eq_true]
    exact fun h => absurd (h.symm.trans (precedes_asymm h)) (by decide)
  have hlow : (l.take e).filter (fun z => precedes z l[e]) = l.take e :=
    List.filter_eq_self.mpr fun z hz => hbefore z hz _ List.mem_cons_self
  have hhigh : (l.drop (e + 1)).filter (fun z => precedes z l[e]) = [] :=
    List.filter_eq_nil_iff.mpr fun z hz => by rw [precedes_asymm ((List.pairwise_cons.mp hafter).1 z hz)]; decide
  calc (l.filter fun z => precedes z l[e]).length
      = ((l.take e ++ l[e] :: l.drop (e + 1)).filter fun z => precedes z l[e]).length := by rw [← hsplit]
    _ = e := by rw [List.filter_append, List.filter_cons, hself, if_neg (by decide), hlow, hhigh, List.append_nil, List.length_take_of_le he.le]

/-- The values of a row with their places, best first. -/
def ranked (v : Nat → Word) : Nat → List (Nat × Word)
  | 0 => []
  | n + 1 => insertWhole (n, v n) (ranked v n)

theorem ranked_perm (v : Nat → Word) (n : Nat) : (ranked v n).Perm ((List.range n).map fun i => (i, v i)) := by
  induction n with
  | zero => exact List.Perm.refl _
  | succ n ih =>
    rw [List.range_succ, List.map_append, List.map_singleton]
    exact (List.perm_orderedInsert _ _ _).trans ((ih.cons _).trans (List.perm_append_singleton _ _).symm)

theorem ranked_pairwise (v : Nat → Word) (n : Nat) : (ranked v n).Pairwise fun y z => precedes y z = true := by
  induction n with
  | zero => exact List.Pairwise.nil
  | succ n ih =>
    refine insertWhole_pairwise (fun y hy => ?_) ih
    obtain ⟨i, hi, rfl⟩ := List.mem_map.mp ((ranked_perm v n).mem_iff.mp hy)
    exact List.mem_range.mp hi

theorem ranked_length (v : Nat → Word) (n : Nat) : (ranked v n).length = n := by
  rw [(ranked_perm v n).length_eq, List.length_map, List.length_range]

theorem foldl_insertTop (k : Nat) (v : Nat → Word) (n : Nat) :
    ((List.range n).map fun i => (i, v i)).foldl (fun l x => insertTop k x l) [] = (ranked v n).take k := by
  induction n with
  | zero => rw [ranked, List.take_nil]; rfl
  | succ n ih => rw [List.range_succ, List.map_append, List.foldl_append, ih, List.map_singleton, List.foldl_cons, List.foldl_nil,
      insertTop_eq, insertWhole_take, ranked]

theorem topEntries_eq (k : Nat) (vs : List Word) : topEntries k vs =
    (ranked (fun i => vs.getD i 0) vs.length).take k ++ List.replicate (k - vs.length) (0xFFFFFFFF, 0xFF800000#32) := by
  have hzip : (upto 0 vs.length).zip vs = (List.range vs.length).map fun i => (i, vs.getD i 0) := by
    refine List.ext_getElem (by simp [upto_eq_map_range]) fun i hi hi' => ?_
    have hlt : i < vs.length := by simpa using hi'
    simp [upto_eq_map_range, hlt]
  have hlength : k - (min k vs.length) = k - vs.length := by omega
  rw [topEntries, hzip, foldl_insertTop, List.length_take, ranked_length, hlength]

theorem topEntries_length (k : Nat) (vs : List Word) : (topEntries k vs).length = k := by
  rw [topEntries_eq, List.length_append, List.length_take, ranked_length, List.length_replicate]
  omega

theorem topEntries_filled {k e : Nat} {vs : List Word} (he : e < k) (hout : vs.length ≤ e) :
    (topEntries k vs)[e]? = some (0xFFFFFFFF, 0xFF800000) := by
  have htake : ((ranked (fun i => vs.getD i 0) vs.length).take k).length ≤ e := by
    rw [List.length_take, ranked_length]
    omega
  have hfill : e - ((ranked (fun i => vs.getD i 0) vs.length).take k).length < k - vs.length := by
    rw [List.length_take, ranked_length]
    omega
  rw [topEntries_eq, List.getElem?_append_right htake, List.getElem?_replicate_of_lt hfill]
  rfl

theorem topEntries_ranked {k e : Nat} {vs : List Word} (he : e < k) (hin : e < vs.length) : ∃ i, i < vs.length ∧
    (topEntries k vs)[e]? = some (i, vs.getD i 0) ∧ ((List.range vs.length).filter fun j => above (vs.getD j 0) (vs.getD i 0) ||
      (!above (vs.getD i 0) (vs.getD j 0) && decide (j < i))).length = e := by
  have hlt : e < (ranked (fun i => vs.getD i 0) vs.length).length := by rwa [ranked_length]
  obtain ⟨i, hi, hentry⟩ := List.mem_map.mp ((ranked_perm (fun i => vs.getD i 0) vs.length).mem_iff.mp (List.getElem_mem hlt))
  refine ⟨i, List.mem_range.mp hi, ?_, ?_⟩
  · rw [topEntries_eq, List.getElem?_append_left (by rw [List.length_take]; omega), List.getElem?_take_of_lt he,
      List.getElem?_eq_getElem hlt, ← hentry]
  · have hcount := precedes_count (ranked_pairwise (fun i => vs.getD i 0) vs.length) hlt
    rw [← hentry, ((ranked_perm _ _).filter _).length_eq, List.filter_map, List.length_map] at hcount
    exact hcount

/-! ## The runs of TOPK and STAGE (R289, R291) -/

/-- Steps that all succeed, one for each element. -/
theorem foldlM_steps {α : Type} {step : State → α → Except Nat State} (f : Nat → State) {l : List α}
    (h : ∀ i (hi : i < l.length), step (f i) l[i] = .ok (f (i + 1))) : l.foldlM step (f 0) = .ok (f l.length) := by
  induction l generalizing f with
  | nil => rfl
  | cons x r ih =>
    have hfirst : step (f 0) x = .ok (f 1) := h 0 (Nat.succ_pos _)
    have hrest := ih (fun i => f (i + 1)) fun i hi => h (i + 1) (Nat.succ_lt_succ hi)
    rw [List.foldlM_cons, hfirst]
    exact hrest

section
variable {s : State} {p : Nat} {q : Seq} {n k : Nat}

/-- The words of a row of `n` read as one number. -/
def rowWords (n v : Nat) : List Word := (List.range n).map fun j => BitVec.ofNat 32 (v / 2 ^ (32 * j))

theorem State.topRow_puts (f : Nat → State) {src dst v : Nat} (hread : (f 0).fetchNat p q src (4 * n) = .ok v)
    (h : ∀ e, e < k → (f e).deposit p q (dst + 8 * e) (bytesOf 4 ((topEntries k (rowWords n v)).getD e (0, 0)).1 ++
      bytesOf 4 ((topEntries k (rowWords n v)).getD e (0, 0)).2.toNat) false = .ok (f (e + 1))) :
    (f 0).topRow p q n k src dst = .ok (f k) := by
  have hlength : ((topEntries k (rowWords n v)).zip (upto 0 k)).length = k := by
    rw [List.length_zip, topEntries_length, upto_eq_map_range, List.length_map, List.length_range, Nat.min_self]
  have hputs := foldlM_steps f (l := (topEntries k (rowWords n v)).zip (upto 0 k))
    (step := fun st e => st.deposit p q (dst + 8 * e.2) (bytesOf 4 e.1.1 ++ bytesOf 4 e.1.2.toNat) false) fun e he => by
      rw [hlength] at he
      have hentry := h e he
      rw [List.getD_eq_getElem _ _ (by rwa [topEntries_length])] at hentry
      simpa [upto_eq_map_range] using hentry
  rw [hlength] at hputs
  rw [State.topRow, hread]
  simp only [upto_map, Nat.zero_add, bind, Except.bind]
  exact hputs

theorem State.topRows_all (f : Nat → State) {src dst : Nat} (m : Nat) {i : Nat}
    (h : ∀ r, r < m → (f (i + r)).topRow p q n k (src + 4 * n * (i + r)) (dst + 8 * k * (i + r)) = .ok (f (i + r + 1))) :
    (f i).topRows p q n k src dst i m = (f (i + m), 0) := by
  induction m generalizing i with
  | zero => rfl
  | succ m ih =>
    have hfirst := h 0 (Nat.succ_pos m)
    rw [Nat.add_zero] at hfirst
    have hrest := ih (i := i + 1) fun r hr => by
      have hr' := h (r + 1) (Nat.succ_lt_succ hr)
      rwa [show i + (r + 1) = i + 1 + r by omega] at hr'
    rw [State.topRows, hfirst]
    dsimp only
    rw [hrest, show i + 1 + m = i + (m + 1) by omega]

/-- TOPK whose control word passes and whose rows are each local to a stack. -/
theorem State.topkRun_rows {dst src rows : Nat} (hn : 1 ≤ n) (hmax : n ≤ 2 ^ 20) (hk : 1 ≤ k) (hfits : k ≤ 32) (hrows : 1 ≤ rows)
    (hfew : rows < 2 ^ 16) (hlocal : ∀ i, i < rows → s.stackLocal p q (src + 4 * n * i) (4 * n) = true) :
    s.topkRun p q dst src n (rows * 64 + k) = s.topRows p q n k src dst 0 rows := by
  have hkey : bitsOf (rows * 64 + k) 5 0 = k := by rw [bitsOf]; omega
  have hcount : bitsOf (rows * 64 + k) 21 6 = rows := by rw [bitsOf]; omega
  have hreserved : bitsOf (rows * 64 + k) 31 22 = 0 := by rw [bitsOf]; omega
  have hall : (upto 0 rows).all (fun i => s.stackLocal p q (src + 4 * n * i) (4 * n)) = true := by
    rw [upto_eq_map_range, List.all_map]
    exact List.all_eq_true.mpr fun i hi => by simpa using hlocal i (List.mem_range.mp hi)
  rw [State.topkRun]
  simp only [hkey, hcount, hreserved, hall, if_true]
  exact if_neg (by omega)

end

/-! ### STAGE -/

section
variable {p : Nat} {q : Seq}

theorem State.stageGroups_onward (f : Nat → State) (st : Nat → Staged) (tail : Nat → List (Nat × Nat)) {x : StageDesc} {src : Nat} (n : Nat)
    {i : Nat} (left : Nat) (h : ∀ k, k < n → (f (i + k)).stageSource p q x src (i + k) = .ok (st (i + k), tail (i + k)) ∧
      f (i + k + 1) = (f (i + k)).stagePut p q.wg x (i + k) (st (i + k)) (tail (i + k))) :
    (f i).stageGroups p q x src i (n + left) = (f (i + n)).stageGroups p q x src (i + n) left := by
  induction n generalizing i with
  | zero => rw [Nat.zero_add, Nat.add_zero]
  | succ n ih =>
    obtain ⟨hsource, hput⟩ := h 0 (Nat.succ_pos n)
    simp only [Nat.add_zero] at hsource hput
    have hrest := ih (i := i + 1) fun k hk => by
      have hk' := h (k + 1) (Nat.succ_lt_succ hk)
      rwa [show i + (k + 1) = i + 1 + k by omega] at hk'
    rw [show n + 1 + left = n + left + 1 by omega, State.stageGroups, hsource]
    dsimp only
    rw [← hput, hrest, show i + 1 + n = i + (n + 1) by omega]

theorem State.stageRun_groups {s : State} {src desc v : Nat} {x : StageDesc} (hrecord : s.fetchRecord p q desc 32 = .ok v)
    (hdesc : stageDesc v = .ok x) (hfits : s.stageFits p q.wg x = true) :
    s.stageRun p q src desc = s.stageGroups p q x src 0 (128 * x.nstep) := by
  have hboth : ((s.fetchRecord p q desc 32) >>= stageDesc) = .ok x := by rw [hrecord]; exact hdesc
  rw [State.stageRun, hboth]
  dsimp only
  rw [hfits]
  rfl

end

/-- Bytes put at a place of the own space whose key is known. -/
def State.putAt (s : State) (p : Nat) (key : Nat → Nat) (e : Nat × List Byte) : State :=
  { s.wrote true [p] 2 [] (key e.1) e.2.length with spad := s.spad.write (key e.1) e.2 }

theorem State.seqSpad_congr {s t : State} {p : Nat} (h : t.works = s.works) (wg : Nat) (own : Bool) (a n : Nat) :
    t.seqSpad p wg own a n = s.seqSpad p wg own a n := by
  have hwork : t.work p = s.work p := by rw [State.work, h]; rfl
  simp only [State.seqSpad, hwork]

theorem foldl_ownPut {s : State} {p wg : Nat} (key : Nat → Nat) (l : List (Nat × List Byte))
    (h : ∀ e ∈ l, s.seqSpad p wg true e.1 e.2.length = some (key e.1)) :
    l.foldl (fun t e => t.ownPut p wg e.1 e.2) s = l.foldl (fun t e => t.putAt p key e) s := by
  induction l generalizing s with
  | nil => rfl
  | cons e r ih =>
    have hput : s.ownPut p wg e.1 e.2 = s.putAt p key e := by
      rw [State.ownPut, h e List.mem_cons_self]
      rfl
    have hworks : (s.putAt p key e).works = s.works := rfl
    rw [List.foldl_cons, List.foldl_cons, hput]
    exact ih fun y hy => (State.seqSpad_congr hworks wg true y.1 y.2.length).trans (h y (List.mem_cons_of_mem _ hy))

/-- What STAGE writes of a group: its planes, its exponent entry and, where the descriptor names one, its outlier record. -/
def stagedPieces (x : StageDesc) (n : Nat) (g : Staged) (tail : List (Nat × Nat)) : List (Nat × List Byte) :=
  ((List.range x.p).map fun b => (x.pbase + n / 128 * x.pstep + 1024 * b + 8 * (n % 128), planeBytes g.q b)) ++
    [(x.expbase + 256 * (n / 128) + 2 * (n % 128), bytesOf 2 g.entry)] ++
    if x.outbase = 0 then [] else [(x.outbase + 8192 * (n / 128) + 64 * (n % 128), tailRecord tail)]

theorem State.stagePut_eq (s : State) (p wg : Nat) (x : StageDesc) (n : Nat) (g : Staged) (tail : List (Nat × Nat)) :
    s.stagePut p wg x n g tail = (stagedPieces x n g tail).foldl (fun t e => t.ownPut p wg e.1 e.2) s := by
  rw [State.stagePut, stagedPieces, List.foldl_append, List.foldl_append, List.foldl_map, upto_eq_map_range, List.foldl_map]
  simp only [Nat.zero_add, List.foldl_cons, List.foldl_nil]
  split <;> rfl

/-! ### Planes (R245) -/

/-- The bits of a plane below place `n`. -/
def planeBits (t : Nat → Bool) : Nat → Nat
  | 0 => 0
  | n + 1 => 2 ^ n * (t n).toNat + planeBits t n

theorem planeBits_lt (t : Nat → Bool) (n : Nat) : planeBits t n < 2 ^ n := by
  induction n with
  | zero => exact Nat.one_pos
  | succ n ih =>
    have hbit : 2 ^ n * (t n).toNat ≤ 2 ^ n := mul_le_of_le_one_right (Nat.zero_le _) (Bool.toNat_le _)
    rw [planeBits, Nat.pow_succ]
    omega

theorem planeBits_testBit (t : Nat → Bool) {n j : Nat} (hj : j < n) : (planeBits t n).testBit j = t j := by
  induction n with
  | zero => exact absurd hj (Nat.not_lt_zero j)
  | succ n ih =>
    rw [planeBits, Nat.testBit_two_pow_mul_add _ (planeBits_lt t n)]
    split
    · next hlow => exact ih hlow
    · next hhigh =>
      obtain rfl : j = n := by omega
      rw [Nat.sub_self]
      cases t j <;> rfl

theorem planeBytes_bits {qs : List Int} (hqs : qs.length = 64) (b : Nat) :
    planeBytes qs b = bytesOf 8 (planeBits (fun j => decide (qs.getD j 0 / 2 ^ b % 2 ≠ 0)) 64) := by
  have hzip : (upto 0 64).zip qs = (List.range 64).map fun j => (j, qs.getD j 0) := by
    refine List.ext_getElem (by simp [upto_eq_map_range, hqs]) fun i hi hi' => ?_
    have hlt : i < qs.length := by simpa [hqs] using hi'
    simp [upto_eq_map_range, hlt]
  have hsum (n : Nat) : ((List.range n).map fun j => (j, qs.getD j 0)).foldl
      (fun acc e => acc + (if e.2 / 2 ^ b % 2 = 0 then 0 else 2 ^ e.1)) 0 = planeBits (fun j => decide (qs.getD j 0 / 2 ^ b % 2 ≠ 0)) n := by
    induction n with
    | zero => rfl
    | succ n ih =>
      rw [List.range_succ, List.map_append, List.foldl_append, ih, planeBits, Nat.add_comm, List.map_singleton, List.foldl_cons,
        List.foldl_nil]
      refine congrArg _ ?_
      by_cases h : qs.getD n 0 / 2 ^ b % 2 = 0
      · rw [if_pos h, decide_eq_false (not_not.mpr h), Bool.toNat_false, Nat.mul_zero]
      · rw [if_neg h, decide_eq_true h, Bool.toNat_true, Nat.mul_one]
  rw [planeBytes, hzip, hsum]

theorem planeBytes_testBit {qs : List Int} (hqs : qs.length = 64) (b : Nat) {j : Nat} (hj : j < 64) :
    (ofBytes (planeBytes qs b)).testBit j = decide (qs.getD j 0 / 2 ^ b % 2 ≠ 0) := by
  have hall : (256 : Nat) ^ 8 = 2 ^ 64 := rfl
  rw [planeBytes_bits hqs, ofBytes_bytesOf, hall, Nat.mod_eq_of_lt (planeBits_lt _ 64), planeBits_testBit _ hj]

end Sys2Proof.Machine
end

section
/-!
COLL over a one-dimensional mesh (R292, R293), the shards that its members write, and the copied words and exchanges as the obligation
states them.
-/
namespace Sys2Proof.Machine

/-! ## A one-dimensional mesh (R292, R293) -/

/-- Whether a layout spreads the one tensor dimension over the one mesh dimension. -/
def lineLayout (spread : Bool) : List Nat := [if spread then 0 else 255, 255, 255, 255]

/-- A descriptor for a mesh of `n` members in a line and one tensor dimension of `e` elements. -/
structure CollDesc.InLine (x : CollDesc) (n e : Nat) : Prop where
  ndim : x.ndim = 1
  mesh : ∃ m, x.mesh = n :: m
  ext : x.ext = [e, 1, 1, 1]
  members : 0 < n
  elements : 0 < e
  divides : n ∣ e

/-- The elements that a member holds. -/
def shareOf (n e : Nat) (spread : Bool) : Nat := if spread then e / n else e

section
variable {x : CollDesc} {n e : Nat} (hx : x.InLine n e)
include hx

theorem CollDesc.InLine.share_pos (spread : Bool) : 0 < shareOf n e spread := by
  cases spread with
  | false => exact hx.elements
  | true => exact Nat.div_pos (Nat.le_of_dvd hx.elements hx.divides) hx.members

theorem CollDesc.InLine.extent_zero : x.extent 0 = n := by
  obtain ⟨m, hm⟩ := hx.mesh
  rw [CollDesc.extent, hx.ndim, if_pos Nat.one_pos, hm, List.getD_cons_zero]

theorem CollDesc.InLine.extent_other {d : Nat} (hd : d ≠ 0) : x.extent d = 1 := by
  rw [CollDesc.extent, hx.ndim, if_neg (by omega)]

theorem CollDesc.InLine.shard_line (spread : Bool) : x.shard (lineLayout spread) = [shareOf n e spread, 1, 1, 1] := by
  have hn : max 1 n = n := max_eq_right hx.members
  have he : e ≠ 0 := hx.elements.ne'
  cases spread <;> simp [CollDesc.shard, lineLayout, shareOf, hx.ext, hx.extent_zero, he, hn]

theorem CollDesc.InLine.coords_line {c : Nat} (hc : c < n) : x.coords c = [c, 0, 0, 0] := by
  have hextents : (upto 0 4).map x.extent = [n, 1, 1, 1] := by
    simp [upto, hx.extent_zero, hx.extent_other]
  rw [CollDesc.coords, hextents]
  simp [digitsOf, Nat.mod_eq_of_lt hc, Nat.div_eq_of_lt hc]

theorem CollDesc.InLine.memberAt_line (m : Nat) : x.memberAt [m, 0, 0, 0] = m := by
  have hextents : (upto 0 3).map x.extent = [n, 1, 1] := by
    simp [upto, hx.extent_zero, hx.extent_other]
  rw [CollDesc.memberAt, hextents]
  simp [rankOf]

omit hx in
theorem digitsOf_line {r i : Nat} (h : i < r) : digitsOf [r, 1, 1] i = [i, 0, 0, 0] := by
  rw [digitsOf, digitsOf, digitsOf, digitsOf, Nat.mod_eq_of_lt h, Nat.div_eq_of_lt h]

/-- The global place of a member's element. -/
theorem CollDesc.InLine.globalOf_line {c i : Nat} {spread : Bool} (hi : i < shareOf n e spread) :
    x.globalOf (lineLayout spread) [c, 0, 0, 0] i = [if spread then c * (e / n) + i else i, 0, 0, 0] := by
  rw [CollDesc.globalOf, hx.shard_line]
  simp only [List.take_succ_cons, List.take_zero, digitsOf_line hi]
  cases spread <;> simp [lineLayout, shareOf]

/-- Where a member's source shard holds a global place. -/
theorem CollDesc.InLine.sourceIndex_line {from_ : Bool} (hsrc : x.srclay = lineLayout from_) (at_ : Nat) :
    x.sourceIndex [at_, 0, 0, 0] = if from_ then at_ % (e / n) else at_ := by
  have hshare : max 1 (e / n) = e / n := max_eq_right (hx.share_pos true)
  rw [CollDesc.sourceIndex, hsrc, hx.shard_line]
  cases from_ <;> simp [lineLayout, shareOf, rankOf, hshare]

/-- A source that is partial over the line combines every member. -/
theorem CollDesc.InLine.sources_partial (hsrc : x.srclay = lineLayout false) (hpart : x.spart = 1) (c at_ : Nat) :
    x.sources [c, 0, 0, 0] [at_, 0, 0, 0] = List.range n := by
  rw [CollDesc.sources, hsrc, hx.shard_line, hpart]
  simp [upto_eq_map_range, List.range_succ, lineLayout, hx.extent_zero, List.map_flatMap, hx.memberAt_line, Nat.testBit_succ]

/-- Any other source holds each element once. -/
theorem CollDesc.InLine.sources_whole {from_ : Bool} (hsrc : x.srclay = lineLayout from_) (hpart : x.spart = 0) (c at_ : Nat) :
    x.sources [c, 0, 0, 0] [at_, 0, 0, 0] = [if from_ then at_ / (e / n) else c] := by
  have hshare : max 1 (e / n) = e / n := max_eq_right (hx.share_pos true)
  rw [CollDesc.sources, hsrc, hx.shard_line, hpart]
  cases from_ <;> simp [upto_eq_map_range, List.range_succ, lineLayout, shareOf, hx.memberAt_line, hshare]

end

/-! ## Sources and shards of an exchange (R293, R402) -/

/-- A `mapM` whose every step succeeds. -/
theorem mapM_ok {α β ε : Type} {f : α → Except ε β} {g : α → β} {l : List α} (h : ∀ x ∈ l, f x = .ok (g x)) : l.mapM f = .ok (l.map g) := by
  induction l with
  | nil => rfl
  | cons x r ih =>
    rw [List.mapM_cons, h x List.mem_cons_self, ih fun y hy => h y (List.mem_cons_of_mem _ hy)]
    rfl

section
variable {s : State}

theorem State.sourceElem_here {ps : List Party} {m i size : Nat} {y : Party} {bs : List Byte} {poison : Bool}
    (hparty : (ps.find? fun z => z.index == m) = some y) (hsize : y.x.size = size)
    (hread : s.fetch y.p y.q (y.x.src + size * i) size = .ok (bs, poison)) (ms : List Member) :
    s.sourceElem ps ms m i size = .ok (ofBytes bs, poison) := by
  subst hsize
  rw [State.sourceElem, hparty]
  dsimp only
  rw [State.collElem, hread]
  rfl

/-- The destination shard of a party whose sources all read. -/
theorem State.destShard_reads {ps : List Party} {ms : List Member} {y : Party} {at_ from_ : Nat → List Nat} {v : Nat → Nat → Nat × Bool}
    (hat : ∀ i, y.x.globalOf y.x.dstlay (y.x.coords y.index) i = at_ i) (hfrom : ∀ i, y.x.sources (y.x.coords y.index) (at_ i) = from_ i)
    (h : ∀ i, i < productOf (y.x.shard y.x.dstlay) → ∀ m ∈ from_ i, s.sourceElem ps ms m (y.x.sourceIndex (at_ i)) y.x.size = .ok (v i m)) :
    s.destShard ps ms y = .ok ((List.range (productOf (y.x.shard y.x.dstlay))).map fun i =>
      (y.x.reduce (s.tick * 2 ^ 32 + i) ((from_ i).map fun m => (v i m).1), (from_ i).any fun m => (v i m).2)) := by
  rw [State.destShard, upto_eq_map_range]
  simp only [Nat.zero_add, List.map_id']
  refine mapM_ok fun i hi => ?_
  rw [hat, hfrom, mapM_ok (h i (List.mem_range.mp hi))]
  simp only [bind, Except.bind, pure, Except.pure, List.map_map, List.any_map, Function.comp_def]

theorem State.putShard_all {y : Party} (f : Nat → State) (vs : List (Nat × Bool)) {i : Nat}
    (h : ∀ k, k < vs.length → (f k).deposit y.p y.q (y.x.dst + y.x.size * (i + k)) (bytesOf y.x.size (vs.getD k (0, false)).1)
      (vs.getD k (0, false)).2 = .ok (f (k + 1))) : (f 0).putShard y i vs = (f vs.length, 0) := by
  induction vs generalizing f i with
  | nil => rfl
  | cons v r ih =>
    have hfirst := h 0 (Nat.succ_pos _)
    rw [List.getD_cons_zero, Nat.add_zero] at hfirst
    have hrest := ih (fun k => f (k + 1)) (i := i + 1) fun k hk => by
      have hk' := h (k + 1) (Nat.succ_lt_succ hk)
      rwa [List.getD_cons_succ, show i + (k + 1) = i + 1 + k by omega] at hk'
    rw [State.putShard, hfirst]
    exact hrest

theorem State.putShards_all (f : Nat → State) (l : List (Party × List (Nat × Bool)))
    (h : ∀ i e, l[i]? = some e → (f i).putShard e.1 0 e.2 = (f (i + 1), 0)) : (f 0).putShards l = (f l.length, none) := by
  induction l generalizing f with
  | nil => rfl
  | cons e r ih =>
    have hrest := ih (fun k => f (k + 1)) fun i y hy => h (i + 1) y hy
    rw [State.putShards, h 0 e rfl]
    exact hrest

/-- The shards of parties, numbered by their places. -/
theorem mapM_places {f : Party → Except (Party × Nat) (List (Nat × Bool))} {v : Nat → List (Nat × Bool)} {ps : List Party}
    (h : ∀ i y, ps[i]? = some y → f y = .ok (v i)) :
    (ps.mapM fun y => (f y).map fun w => (y, w)) = .ok (ps.zipIdx.map fun e => (e.1, v e.2)) := by
  suffices hfrom : ∀ k, (∀ i y, ps[i]? = some y → f y = .ok (v (k + i))) →
      (ps.mapM fun y => (f y).map fun w => (y, w)) = .ok ((ps.zipIdx k).map fun e => (e.1, v e.2)) from hfrom 0 (by simpa using h)
  clear h
  induction ps with
  | nil => exact fun _ _ => rfl
  | cons y r ih =>
    intro k h
    have hrest := ih (k + 1) fun i z hz => by
      rw [Nat.add_right_comm, Nat.add_assoc]
      exact h (i + 1) z hz
    have hfirst : f y = .ok (v k) := h 0 y rfl
    rw [List.mapM_cons, hfirst, hrest]
    rfl

/-- An exchange whose sources all read sound, where they are reduced, and whose shards are all written. -/
theorem State.exchange_all {a ver ord : Nat} {ms : List Member} {ps : List Party} {v : Nat → List (Nat × Bool)} (f : Nat → State)
    (hfirst : f 0 = s) (h : ∀ i y, ps[i]? = some y → s.destShard ps ms y = .ok (v i) ∧ (y.x.op = 0 ∨ (v i).all (!·.2) = true) ∧
      (f i).putShard y 0 (v i) = (f (i + 1), 0)) : s.exchange a ver ord ms ps =
    ps.foldl (fun t y => t.modCmd y.p y.q.id y.cid fun c => { c with wait := .done, tiles := y.x.tiles }) (f ps.length) := by
  have hshards := mapM_places (v := v) (ps := ps) (f := s.destShard ps ms) fun i y hy => (h i y hy).1
  have hplace (i : Nat) (e : Party × List (Nat × Bool)) (he : (ps.zipIdx.map fun e => (e.1, v e.2))[i]? = some e) :
      ps[i]? = some e.1 ∧ e.2 = v i := by
    rw [List.getElem?_map, List.getElem?_zipIdx, Option.map_map, Option.map_eq_some_iff] at he
    obtain ⟨y, hy, rfl⟩ := he
    exact ⟨hy, by simp⟩
  have hsound : (ps.zipIdx.map fun e => (e.1, v e.2)).find? (fun e => e.1.x.op != 0 && e.2.any (·.2)) = none := by
    refine List.find?_eq_none.mpr fun e he => ?_
    obtain ⟨i, hi⟩ := List.mem_iff_getElem?.mp he
    obtain ⟨hy, hv⟩ := hplace i e hi
    obtain hop | hclean := (h i e.1 hy).2.1
    · simp [hop]
    · rw [← hv, List.all_eq_true] at hclean
      simp only [Bool.and_eq_true, List.any_eq_true, not_and, not_exists, Bool.not_eq_true]
      exact fun _ z hz => by simpa using hclean z hz
  have hput := State.putShards_all f (ps.zipIdx.map fun e => (e.1, v e.2)) fun i e he => by
    obtain ⟨hy, hv⟩ := hplace i e he
    rw [hv]
    exact (h i e.1 hy).2.2
  rw [List.length_map, List.length_zipIdx, hfirst] at hput
  rw [State.exchange, hshards]
  dsimp only
  rw [hsound]
  dsimp only
  rw [hput]

end

/-- Settles O53: rows, lookups, entries, groups and shards each go on from the state that the one before left. -/
theorem copiedWordsAndExchanges : Obligations.CopiedWordsAndExchanges := by
  unfold Obligations.CopiedWordsAndExchanges
  intro p q step row
  refine ⟨?memory, ?scratchpad, ?moves, ?emblk, ?lookup, ?deposit, ?topk, ?entries, ?stage, ?pieces, ?planes, ?line, ?dest, ?source,
    ?exchange, ?shard⟩
  case memory =>
    intro s a pa leaf bs halign hbs hleaf hplace
    exact ⟨fun hloc hseen => State.fetch_mem halign hleaf hplace hloc hseen, fun hloc => State.deposit_mem halign hbs hleaf hplace hloc⟩
  case scratchpad =>
    intro s a k bs halign hbs
    exact ⟨fun hloc hseen => State.fetch_spad halign hloc hseen, fun hloc => State.deposit_spad halign hbs hloc⟩
  case moves =>
    intro s dst src shape list x hshape hlen hsstride hdstride hsrc hdst
    refine ⟨fun hbound f n hfirst hn hrows => ?_, fun idx hlist hidx f hfirst => ⟨fun hbound hrows => ?_, fun hbound hrows => ?_⟩⟩
    · have hcopy := State.copyRun_moves hshape hlen hsstride hdstride hsrc hdst hbound
      rw [hcopy, ← hfirst]
      refine ⟨fun hall => ?_, fun hless w b hw hwords => ⟨fun e hread => ?_, fun bs e hread hwrite => ?_⟩⟩
      · subst hall
        exact State.moveRows_all f _ _ hrows
      · exact State.moveRows_until f _ _ hless hrows (State.moveSpan_unread hwords hw hread) (State.fetch_error hread)
      · exact State.moveRows_until f _ _ hless hrows (State.moveSpan_unwritten hwords hw hread hwrite) (State.deposit_error hwrite)
    · rw [State.indexRun_moves hshape hlen hsstride hdstride hsrc hdst hlist hidx false hbound, ← hfirst]
      exact State.moveRows_all f _ _ hrows
    · rw [State.indexRun_moves hshape hlen hsstride hdstride hsrc hdst hlist hidx true hbound, ← hfirst]
      exact State.moveRows_all f _ _ hrows
  case emblk =>
    intro s cid dst shape list t b x idx hshape hdst hdstride hlist hlen hbound hidx f g ws hfirst hrows
    exact State.emblkRun_all hshape hdst hdstride hlist hlen hbound hidx f g ws hfirst hrows
  case lookup =>
    intro s b i e hentry hown hlost hreached at_ ws hws hread
    exact State.lookupRow_own hentry hown hlost hreached hws hread
  case deposit =>
    intro s dst ws f hfirst h
    rw [← hfirst]
    exact State.depositWords_sound f 0 h
  case topk =>
    intro s dst src n k rows hn hmax hk hfits hrows hfew hlocal f v hfirst h
    rw [State.topkRun_rows hn hmax hk hfits hrows hfew hlocal, ← hfirst]
    have hall := State.topRows_all (p := p) (q := q) (n := n) (k := k) (src := src) (dst := dst) (fun i => f i 0) rows (i := 0) fun i hi => by
      rw [Nat.zero_add]
      obtain ⟨hread, hnext, hputs⟩ := h i hi
      rw [← hnext]
      exact State.topRow_puts (f i) hread hputs
    rwa [Nat.zero_add] at hall
  case entries =>
    intro k vs
    exact ⟨topEntries_length k vs, fun e he => ⟨topEntries_filled he, topEntries_ranked he⟩⟩
  case stage =>
    intro s src desc v x hrecord hdesc hfits f st tail n hfirst hn h
    have honward (left : Nat) := State.stageGroups_onward (p := p) (q := q) (x := x) (src := src) f st tail n (i := 0) left (by simpa using h)
    rw [State.stageRun_groups hrecord hdesc hfits, ← hfirst]
    refine ⟨fun hall => ?_, fun hless e hfails => ?_⟩
    · rw [← hall, ← Nat.add_zero n, honward 0, Nat.zero_add]
      rfl
    · obtain ⟨left, hleft⟩ : ∃ left, 128 * x.nstep = n + (left + 1) := ⟨128 * x.nstep - n - 1, by omega⟩
      rw [hleft, honward (left + 1), Nat.zero_add, State.stageGroups, hfails]
  case pieces =>
    intro s x n g tail key i planes all hkeys
    have hall : stagedPieces x n g tail = all := rfl
    rw [State.stagePut_eq, hall, foldl_ownPut key all hkeys]
    rfl
  case planes =>
    intro qs b j hqs hj
    exact planeBytes_testBit hqs b hj
  case line =>
    intro x m n e c i from_ to_ hndim hmesh hext hn he hdiv hc hsrc hdst hi at_ g taken
    have hx : x.InLine n e := ⟨hndim, ⟨m, hmesh⟩, hext, hn, he, hdiv⟩
    have hsource : x.srclay = lineLayout from_ := hsrc
    have hdest : x.dstlay = lineLayout to_ := hdst
    have hg : g = [at_, 0, 0, 0] := by
      simp only [g, hdest, hx.coords_line hc]
      exact hx.globalOf_line hi
    have htaken : taken = (x.sources [c, 0, 0, 0] [at_, 0, 0, 0]).map fun m => (m, if from_ then at_ % (e / n) else at_) := by
      simp only [taken, hg, hx.coords_line hc, hx.sourceIndex_line hsource]
    refine ⟨?_, fun hpart hwhole => ?_, fun hpart => ?_⟩
    · rw [hdest, hx.shard_line]
      simp [productOf, shareOf]
    · subst hwhole
      rw [htaken, hx.sources_partial hsource hpart]
      rfl
    · rw [htaken, hx.sources_whole hsource hpart]
      cases from_ <;> rfl
  case dest =>
    intro s ps ms y v x at_ from_ h
    exact State.destShard_reads (fun _ => rfl) (fun _ => rfl) h
  case source =>
    intro s ps ms m i size y hparty hsize bs poison hread
    exact State.sourceElem_here hparty hsize hread ms
  case exchange =>
    intro s a ver ord ms ps v f hfirst h
    exact State.exchange_all f hfirst h
  case shard =>
    intro s y vs f hfirst h
    rw [← hfirst]
    exact State.putShard_all f vs (by simpa using h)

end Sys2Proof.Machine
end
